-- ==== Sys2Proof/Word.lean ====
section
/-! DEFINITION. The plainest words of the model: bytes, and the sparse table type that holds every keyed
collection of the device (memory cells, registers, directory entries, …). The operations on tables and on
byte runs stand in Machine/Ops.lean. -/

namespace Sys2Proof

/-- A byte (R6). -/
abbrev Byte := BitVec 8

/-- A sparse table: pairs of a key and a value, keys strictly rising (Machine/Ops.lean states the form). -/
abbrev Tbl (α : Type) := List (Nat × α)

end Sys2Proof
end

