-- ==== Sys2Proof/Syntax.lean ====
section
/-! DEFINITION. The commands of the device: one constructor per row of spec/opcode_table.json, with the row's
operands, and the types those operands have. The table gives its rows no bits, so no command has a word. -/

namespace Sys2Proof

/-- A Glador message (R84, R85, Table 4.2). `cls` 0 REQ, 1 SNP, 2 RSP, 3 DAT. For RSP and DAT `opcode` is the
status and `addr` is DETAIL in [47:32] and RESULT32 in [31:0]. -/
structure Msg where
  cls : Nat
  opcode : Nat
  src : Nat
  dst : Nat
  tag : Nat
  addr : Nat := 0
  len : Nat := 0
  xfer : Nat := 0
  tc : Nat := 0
  last : Bool := true
  ord : Bool := false
  mc : Bool := false
  data : List Byte := []
  deriving DecidableEq, Repr

/-- The operand fields of a stitch instruction word below CLASS and MINOR (R166, Table 7.1). -/
structure StitchFields where
  dst : BitVec 5
  src1 : BitVec 5
  src2 : BitVec 5
  imm : BitVec 37
  deriving DecidableEq, Repr

/-- A received sequenced cell (R84, R275): its 48 bytes in the order they came over the link, and whether all of them lie in
codewords that forward error correction could correct. -/
structure Cell where
  bytes : List Byte
  fecOk : Bool
  deriving DecidableEq, Repr

/-- What the environment answers a mover's access (R238, R239). -/
inductive StepAnswer where
  | data (bytes : List Byte)
  | failed
  deriving DecidableEq, Repr

/-- An ATS translation (R241): the translated host address, its size and its permissions. -/
structure Translation where
  addr : Nat
  size : Nat
  read : Bool
  write : Bool
  deriving DecidableEq, Repr

/-- An active namespace as Identify shows it (R257, Table 11.3): its NSID, its LBA size and metadata size in bytes, whether its format has
end-to-end protection, and how many bytes it holds. -/
structure NsInfo where
  nsid : Nat
  lbaSize : Nat
  metaSize : Nat := 0
  protected_ : Bool := false
  bytes : Nat
  deriving DecidableEq, Repr

/-- A drive found behind a root port (R255, R256): its routing ID, serial number, active namespaces, whether it supports Dataset Management
with deallocated blocks reading as zero, the link code of Table 11.7, and the I/O queue pairs its Number of Queues answer allows. -/
structure DriveInfo where
  rid : Nat
  serial : Nat
  spaces : List NsInfo
  usable : Bool
  link : Nat
  queues : Nat
  deriving DecidableEq, Repr

/-- The fields of a received PARAM cell (R274). -/
structure ParamCell where
  node : Nat
  role : Nat
  cls : Nat
  width : Nat
  rate : Nat
  stamp : Nat
  echo : Nat
  deriving DecidableEq, Repr

/-- What the environment supplies to a start-up (R441): the stacks that trained and passed the decoder self-test, the
die-to-die modules that failed training, the firmware slots that verify, the rows of each stack with a line failing
cast-on, and the drives by root port. -/
structure BootInfo where
  stacksOk : List Nat
  d2dFailed : List Nat
  slotAOk : Bool
  slotBOk : Bool
  castonRows : List Nat
  castonSets : List Nat
  cacheSets : List Nat
  drives : List (Nat × DriveInfo)
  /-- the upstream ports whose PERST# deasserts and whose links train: port, rate code 1 to 6 (2.5 to 64 GT/s) and width (R60) -/
  upLinks : List (Nat × Nat × Nat) := []
  /-- the root ports with a link partner, and the rate code and width each partner can do (R255) -/
  dnLinks : List (Nat × Nat × Nat) := []
  deriving DecidableEq, Repr

/-- What a PCIe completion timeout ends (R239, R78, R480). -/
inductive PcieTarget where
  | ringFetch (ring : Nat)
  | recordWrite (ring : Nat)
  | output (ring idx : Nat)
  | mover (mover : Nat)
  deriving DecidableEq, Repr

/-- The commands: the rows of the opcode table, in its order. -/
inductive Instr where
  /-- REGISTER_WRITE (R12). -/
  | registerWrite (who off size val : Nat)
  /-- RC_REGISTER_READ (R12). -/
  | rcRegisterRead (who off size : Nat)
  /-- D2D_MODULE_FAIL (R21). -/
  | d2dModuleFail (module : Nat)
  /-- REGION_CREATE (R45). -/
  | regionCreate (ring idx : Nat)
  /-- REGION_FREE (R54). -/
  | regionFree (ring idx : Nat)
  /-- GRANT (R46). -/
  | grant (ring idx : Nat)
  /-- GRANT_REMOVE (R118). -/
  | grantRemove (ring idx : Nat)
  /-- REVOKE (R54). -/
  | revoke (ring idx : Nat)
  /-- REVOKE_DRAIN_DONE (R54). -/
  | revokeDrainDone (handle rgen : Nat)
  /-- DRAFT_OPEN (R48). -/
  | draftOpen (ring idx : Nat)
  /-- DRAFT_DISCARD (R44). -/
  | draftDiscard (ring idx : Nat)
  /-- DRAFT_COPY_DONE (R48). -/
  | draftCopyDone (ext : Nat)
  /-- PUBLISH (R49). -/
  | publish (ring idx : Nat)
  /-- PUBLISH_INSTALL (R50). -/
  | publishInstall (handle : Nat)
  /-- PIN_OPEN (R52). -/
  | pinOpen (ring idx : Nat)
  /-- PIN_RENEW (R52). -/
  | pinRenew (ring idx : Nat)
  /-- PIN_CLOSE (R52). -/
  | pinClose (ring idx : Nat)
  /-- PIN_LEASE_EXPIRY (R52). -/
  | pinLeaseExpiry (pin : Nat)
  /-- STACK_RETIRE (R57). -/
  | stackRetire (ring idx : Nat)
  /-- STACK_RETURN (R330). -/
  | stackReturn (ring idx : Nat)
  /-- REGION_QUERY (R82). -/
  | regionQuery (ring idx : Nat)
  /-- EXTENT_QUERY (R82). -/
  | extentQuery (ring idx : Nat)
  /-- REWEAVE_EPOCH (R55). -/
  | reweaveEpoch 
  /-- FILTER_UPDATE_ANSWER (R43). -/
  | filterUpdateAnswer (switch record : Nat) (status : Option Nat)
  /-- MIGRATION_SKEIN_COPIED (R56). -/
  | migrationSkeinCopied (ext : Nat)
  /-- IGF_ENTRY_WRITE (R41). -/
  | igfEntryWrite (who off size val : Nat)
  /-- POOL_CACHE_FRAMES_WRITE (R35). -/
  | poolCacheFramesWrite (who val : Nat)
  /-- FRAME_FREED (R35). -/
  | frameFreed (frame : Nat)
  /-- POOL_WINDOW_ACCESS (R63). -/
  | poolWindowAccess (port off len : Nat) (data : Option (List Byte))
  /-- POOL_WINDOW_REISSUE (R63). -/
  | poolWindowReissue (port : Nat)
  /-- ACQUIRE (R64). -/
  | acquire (port : Nat)
  /-- RENEW (R64). -/
  | renew (port : Nat)
  /-- RELEASE (R64). -/
  | release (port : Nat)
  /-- LEASE_EXPIRY (R64). -/
  | leaseExpiry 
  /-- NEGOTIATE (R67). -/
  | negotiate (port : Nat)
  /-- CLIENT_OPEN (R68). -/
  | clientOpen (m : Msg)
  /-- CLIENT_CLOSE (R69). -/
  | clientClose (m : Msg)
  /-- RING_PART_APPLY (R70). -/
  | ringPartApply 
  /-- RING_ENABLE (R72). -/
  | ringEnable (who ring : Nat)
  /-- RING_DISABLE (R72). -/
  | ringDisable (who ring : Nat)
  /-- RING_DRAIN_DONE (R72). -/
  | ringDrainDone (ring : Nat)
  /-- DOORBELL (R73). -/
  | doorbell (who off size value : Nat)
  /-- DESCRIPTOR_FETCH (R76). -/
  | descriptorFetch (ring : Nat) (bytes : Option (List Byte))
  /-- DESCRIPTOR_START (R76). -/
  | descriptorStart (ring : Nat)
  /-- COALESCE_TIMEOUT (R79). -/
  | coalesceTimeout (ring : Nat)
  /-- NOTIFY_REISSUE (R79). -/
  | notifyReissue (ring : Nat)
  /-- NOP (R80). -/
  | nop (ring idx : Nat)
  /-- WINDOW_ACCESS (R482). -/
  | windowAccess (m : Msg)
  /-- MSIX_UNMASK (R429). -/
  | msixUnmask (port vector : Nat)
  /-- CELL_RECEIVE (R275). -/
  | cellReceive (link : Nat) (c : Cell)
  /-- READ (R91). -/
  | read (m : Msg)
  /-- READ_BULK (R97). -/
  | readBulk (m : Msg)
  /-- WRITE (R91). -/
  | write (m : Msg)
  /-- WRITE_BULK (R98). -/
  | writeBulk (m : Msg)
  /-- XFER_HOLD_TIMEOUT (R98). -/
  | xferHoldTimeout (src tag : Nat)
  /-- FETCH_ADD (R93). -/
  | fetchAdd (m : Msg)
  /-- FETCH_AND (R93). -/
  | fetchAnd (m : Msg)
  /-- FETCH_OR (R93). -/
  | fetchOr (m : Msg)
  /-- FETCH_XOR (R93). -/
  | fetchXor (m : Msg)
  /-- SWAP (R93). -/
  | swap (m : Msg)
  /-- CAS (R93). -/
  | cas (m : Msg)
  /-- FETCH_UMAX (R93). -/
  | fetchUmax (m : Msg)
  /-- FADD32 (R93). -/
  | fadd32 (m : Msg)
  /-- LOOKUP (R94). -/
  | lookup (m : Msg)
  /-- LOOKUP_REF (R220). -/
  | lookupRef (m : Msg)
  /-- REDUCE (R226). -/
  | reduce (m : Msg)
  /-- POOL_OP (R95). -/
  | poolOp (m : Msg)
  /-- ECHO (R91). -/
  | echo (m : Msg)
  /-- RESERVED_OPCODE (R90). -/
  | reservedOpcode (m : Msg)
  /-- DEDUP_HOLD_EXPIRY (R104). -/
  | dedupHoldExpiry (home src tag : Nat)
  /-- ORDERED_ADMISSION (R101). -/
  | orderedAdmission (src tc : Nat)
  /-- RESPONSE_RECEIVE (R100). -/
  | responseReceive (link : Nat) (m : Msg)
  /-- DEVICE_REQUEST_TIMEOUT (R103). -/
  | deviceRequestTimeout (tag : Nat)
  /-- RD_SHARED (R117). -/
  | rdShared (m : Msg)
  /-- RD_OWN (R117). -/
  | rdOwn (m : Msg)
  /-- UPGRADE (R117). -/
  | upgrade (m : Msg)
  /-- WB_DIRTY (R118). -/
  | wbDirty (m : Msg)
  /-- EVICT (R111). -/
  | evict (m : Msg)
  /-- STASH_WRITE (R129). -/
  | stashWrite (m : Msg)
  /-- SNOOP_ANSWER (R117). -/
  | snoopAnswer (link : Nat) (m : Msg)
  /-- SNOOP_TIMEOUT (R120). -/
  | snoopTimeout (tag : Nat)
  /-- RESERVATION_TIMEOUT (R128). -/
  | reservationTimeout (home : Nat)
  /-- RECALL_TRANSFER (R130). -/
  | recallTransfer (link : Nat) (m : Msg)
  /-- SNP_INV (R119). -/
  | snpInv (m : Msg)
  /-- SNP_SHARE (R119). -/
  | snpShare (m : Msg)
  /-- SNP_READ (R119). -/
  | snpRead (m : Msg)
  /-- SNP_STASH (R119). -/
  | snpStash (m : Msg)
  /-- SNP_RECALL (R119). -/
  | snpRecall (m : Msg)
  /-- CTRL_NOP (R169). -/
  | ctrlNop (k : Nat) (f : StitchFields)
  /-- CTRL_JMP (R169). -/
  | ctrlJmp (k : Nat) (f : StitchFields)
  /-- CTRL_BEQ (R169). -/
  | ctrlBeq (k : Nat) (f : StitchFields)
  /-- CTRL_BNE (R169). -/
  | ctrlBne (k : Nat) (f : StitchFields)
  /-- CTRL_BLT (R169). -/
  | ctrlBlt (k : Nat) (f : StitchFields)
  /-- CTRL_BGE (R169). -/
  | ctrlBge (k : Nat) (f : StitchFields)
  /-- CTRL_BLTU (R169). -/
  | ctrlBltu (k : Nat) (f : StitchFields)
  /-- CTRL_BGEU (R169). -/
  | ctrlBgeu (k : Nat) (f : StitchFields)
  /-- CTRL_LOOP (R170). -/
  | ctrlLoop (k : Nat) (f : StitchFields)
  /-- CTRL_LOOPI (R170). -/
  | ctrlLoopi (k : Nat) (f : StitchFields)
  /-- SALU_ADD (R171). -/
  | saluAdd (k : Nat) (f : StitchFields)
  /-- SALU_SUB (R171). -/
  | saluSub (k : Nat) (f : StitchFields)
  /-- SALU_AND (R171). -/
  | saluAnd (k : Nat) (f : StitchFields)
  /-- SALU_OR (R171). -/
  | saluOr (k : Nat) (f : StitchFields)
  /-- SALU_XOR (R171). -/
  | saluXor (k : Nat) (f : StitchFields)
  /-- SALU_SHL (R171). -/
  | saluShl (k : Nat) (f : StitchFields)
  /-- SALU_SHR (R171). -/
  | saluShr (k : Nat) (f : StitchFields)
  /-- SALU_SRA (R171). -/
  | saluSra (k : Nat) (f : StitchFields)
  /-- SALU_MUL (R171). -/
  | saluMul (k : Nat) (f : StitchFields)
  /-- SALU_MIN (R171). -/
  | saluMin (k : Nat) (f : StitchFields)
  /-- SALU_MAX (R171). -/
  | saluMax (k : Nat) (f : StitchFields)
  /-- SALU_MINU (R171). -/
  | saluMinu (k : Nat) (f : StitchFields)
  /-- SALU_MAXU (R171). -/
  | saluMaxu (k : Nat) (f : StitchFields)
  /-- SALU_SLT (R171). -/
  | saluSlt (k : Nat) (f : StitchFields)
  /-- SALU_SLTU (R171). -/
  | saluSltu (k : Nat) (f : StitchFields)
  /-- SALU_ADDI (R171). -/
  | saluAddi (k : Nat) (f : StitchFields)
  /-- SALU_SUBI (R171). -/
  | saluSubi (k : Nat) (f : StitchFields)
  /-- SALU_ANDI (R171). -/
  | saluAndi (k : Nat) (f : StitchFields)
  /-- SALU_ORI (R171). -/
  | saluOri (k : Nat) (f : StitchFields)
  /-- SALU_XORI (R171). -/
  | saluXori (k : Nat) (f : StitchFields)
  /-- SALU_SHLI (R171). -/
  | saluShli (k : Nat) (f : StitchFields)
  /-- SALU_SHRI (R171). -/
  | saluShri (k : Nat) (f : StitchFields)
  /-- SALU_SRAI (R171). -/
  | saluSrai (k : Nat) (f : StitchFields)
  /-- SALU_MULI (R171). -/
  | saluMuli (k : Nat) (f : StitchFields)
  /-- SALU_MINI (R171). -/
  | saluMini (k : Nat) (f : StitchFields)
  /-- SALU_MAXI (R171). -/
  | saluMaxi (k : Nat) (f : StitchFields)
  /-- SALU_MINUI (R171). -/
  | saluMinui (k : Nat) (f : StitchFields)
  /-- SALU_MAXUI (R171). -/
  | saluMaxui (k : Nat) (f : StitchFields)
  /-- SALU_SLTI (R171). -/
  | saluSlti (k : Nat) (f : StitchFields)
  /-- SALU_SLTUI (R171). -/
  | saluSltui (k : Nat) (f : StitchFields)
  /-- LSL_LDS (R172). -/
  | lslLds (k : Nat) (f : StitchFields)
  /-- LSL_STS (R172). -/
  | lslSts (k : Nat) (f : StitchFields)
  /-- LSL_LDV (R172). -/
  | lslLdv (k : Nat) (f : StitchFields)
  /-- LSL_STV (R172). -/
  | lslStv (k : Nat) (f : StitchFields)
  /-- LSL_LDVQ (R172). -/
  | lslLdvq (k : Nat) (f : StitchFields)
  /-- LSL_STVQ (R172). -/
  | lslStvq (k : Nat) (f : StitchFields)
  /-- LSL_LDB (R172). -/
  | lslLdb (k : Nat) (f : StitchFields)
  /-- LSL_STB (R172). -/
  | lslStb (k : Nat) (f : StitchFields)
  /-- CHN_SEND (R173). -/
  | chnSend (k : Nat) (f : StitchFields)
  /-- CHN_RECV (R173). -/
  | chnRecv (k : Nat) (f : StitchFields)
  /-- CHN_FWD (R173). -/
  | chnFwd (k : Nat) (f : StitchFields)
  /-- CHN_SENDS (R173). -/
  | chnSends (k : Nat) (f : StitchFields)
  /-- CHN_RECVS (R173). -/
  | chnRecvs (k : Nat) (f : StitchFields)
  /-- STR_BWR (R174). -/
  | strBwr (k : Nat) (f : StitchFields)
  /-- STR_BRD (R174). -/
  | strBrd (k : Nat) (f : StitchFields)
  /-- STR_BWLD (R174). -/
  | strBwld (k : Nat) (f : StitchFields)
  /-- STR_BSKIP (R174). -/
  | strBskip (k : Nat) (f : StitchFields)
  /-- MAC_CFG (R177). -/
  | macCfg (k : Nat) (f : StitchFields)
  /-- MAC_WLD (R178). -/
  | macWld (k : Nat) (f : StitchFields)
  /-- MAC_WSC (R178). -/
  | macWsc (k : Nat) (f : StitchFields)
  /-- MAC_SWAP (R179). -/
  | macSwap (k : Nat) (f : StitchFields)
  /-- MAC_STEP (R151). -/
  | macStep (k : Nat) (f : StitchFields)
  /-- MAC_AZERO (R176). -/
  | macAzero (k : Nat) (f : StitchFields)
  /-- MAC_ARD (R176). -/
  | macArd (k : Nat) (f : StitchFields)
  /-- MAC_ARDZ (R176). -/
  | macArdz (k : Nat) (f : StitchFields)
  /-- MAC_AWR (R176). -/
  | macAwr (k : Nat) (f : StitchFields)
  /-- VEC_FADD (R181). -/
  | vecFadd (k : Nat) (f : StitchFields)
  /-- VEC_FSUB (R181). -/
  | vecFsub (k : Nat) (f : StitchFields)
  /-- VEC_FMUL (R181). -/
  | vecFmul (k : Nat) (f : StitchFields)
  /-- VEC_FMA (R181). -/
  | vecFma (k : Nat) (f : StitchFields)
  /-- VEC_FMAX (R181). -/
  | vecFmax (k : Nat) (f : StitchFields)
  /-- VEC_FMIN (R181). -/
  | vecFmin (k : Nat) (f : StitchFields)
  /-- VEC_FEXP2 (R183). -/
  | vecFexp2 (k : Nat) (f : StitchFields)
  /-- VEC_FRCP (R183). -/
  | vecFrcp (k : Nat) (f : StitchFields)
  /-- VEC_FRSQRT (R183). -/
  | vecFrsqrt (k : Nat) (f : StitchFields)
  /-- VEC_IADD (R181). -/
  | vecIadd (k : Nat) (f : StitchFields)
  /-- VEC_ISUB (R181). -/
  | vecIsub (k : Nat) (f : StitchFields)
  /-- VEC_IMUL (R181). -/
  | vecImul (k : Nat) (f : StitchFields)
  /-- VEC_IMAX (R181). -/
  | vecImax (k : Nat) (f : StitchFields)
  /-- VEC_IMIN (R181). -/
  | vecImin (k : Nat) (f : StitchFields)
  /-- VEC_AND (R181). -/
  | vecAnd (k : Nat) (f : StitchFields)
  /-- VEC_OR (R181). -/
  | vecOr (k : Nat) (f : StitchFields)
  /-- VEC_XOR (R181). -/
  | vecXor (k : Nat) (f : StitchFields)
  /-- VEC_SHL (R181). -/
  | vecShl (k : Nat) (f : StitchFields)
  /-- VEC_SHR (R181). -/
  | vecShr (k : Nat) (f : StitchFields)
  /-- VEC_SRA (R181). -/
  | vecSra (k : Nat) (f : StitchFields)
  /-- VEC_FCMPLT (R181). -/
  | vecFcmplt (k : Nat) (f : StitchFields)
  /-- VEC_ICMPLT (R181). -/
  | vecIcmplt (k : Nat) (f : StitchFields)
  /-- VEC_SEL (R181). -/
  | vecSel (k : Nat) (f : StitchFields)
  /-- VEC_BCAST (R181). -/
  | vecBcast (k : Nat) (f : StitchFields)
  /-- VEC_LANE (R181). -/
  | vecLane (k : Nat) (f : StitchFields)
  /-- VEC_EXTR (R181). -/
  | vecExtr (k : Nat) (f : StitchFields)
  /-- VEC_FSUM (R182). -/
  | vecFsum (k : Nat) (f : StitchFields)
  /-- VEC_FMAXR (R181). -/
  | vecFmaxr (k : Nat) (f : StitchFields)
  /-- VEC_CVT (R155). -/
  | vecCvt (k : Nat) (f : StitchFields)
  /-- VEC_UNPK (R181). -/
  | vecUnpk (k : Nat) (f : StitchFields)
  /-- VEC_QBLK (R156). -/
  | vecQblk (k : Nat) (f : StitchFields)
  /-- VEC_ITOF (R181). -/
  | vecItof (k : Nat) (f : StitchFields)
  /-- VEC_FTOI (R181). -/
  | vecFtoi (k : Nat) (f : StitchFields)
  /-- SYNC_HALT (R165). -/
  | syncHalt (k : Nat) (f : StitchFields)
  /-- SYNC_ID (R184). -/
  | syncId (k : Nat) (f : StitchFields)
  /-- SYNC_NPANEL (R184). -/
  | syncNpanel (k : Nat) (f : StitchFields)
  /-- SYNC_FLAGS (R184). -/
  | syncFlags (k : Nat) (f : StitchFields)
  /-- SYNC_DRAIN (R184). -/
  | syncDrain (k : Nat) (f : StitchFields)
  /-- SYNC_RNGSET (R184). -/
  | syncRngset (k : Nat) (f : StitchFields)
  /-- SYNC_RNGGET (R184). -/
  | syncRngget (k : Nat) (f : StitchFields)
  /-- BLOCKED_INSTRUCTION_RESUME (R163). -/
  | blockedInstructionResume (k : Nat)
  /-- BUS_SLOT_TRANSFER (R140). -/
  | busSlotTransfer (course : Nat)
  /-- STREAM_LINE_RETURN (R142). -/
  | streamLineReturn (port line : Nat)
  /-- STREAM_TRANSFER_ISSUE (R141). -/
  | streamTransferIssue (port : Nat)
  /-- STITCH_STORE_ECC_ERROR (R135). -/
  | stitchStoreEccError (k : Nat) (uncorrectable : Bool)
  /-- JOB_STALL (R139). -/
  | jobStall (job : Nat)
  /-- PANEL_DRAIN_DONE (R160). -/
  | panelDrainDone (panel : Nat)
  /-- JOB_RUN (R206). -/
  | jobRun (ring idx : Nat)
  /-- JOB_PLACE (R203). -/
  | jobPlace 
  /-- JOB_NATURAL_COMPLETION (R211). -/
  | jobNaturalCompletion (job : Nat)
  /-- JOB_LIMIT_TIMEOUT (R211). -/
  | jobLimitTimeout (job : Nat)
  /-- ABORT (R213). -/
  | abort (ring idx : Nat)
  /-- CTX_CREATE (R196). -/
  | ctxCreate (ring idx : Nat)
  /-- CTX_DESTROY (R199). -/
  | ctxDestroy (ring idx : Nat)
  /-- SEG_SET (R198). -/
  | segSet (ring idx : Nat)
  /-- SEG_CLEAR (R198). -/
  | segClear (ring idx : Nat)
  /-- CTX_QUERY (R199). -/
  | ctxQuery (ring idx : Nat)
  /-- PANEL_ADMIN (R205). -/
  | panelAdmin (ring idx : Nat) (testPass : Bool)
  /-- LOOKUP_DESCRIPTOR (R228). -/
  | lookupDescriptor (ring idx : Nat)
  /-- REDUCE_DESCRIPTOR (R228). -/
  | reduceDescriptor (ring idx : Nat) (vec : List Byte)
  /-- STOCK_LIST (R229). -/
  | stockList (ring idx : Nat)
  /-- GRU_ROW_READ_ANSWER (R221). -/
  | gruRowReadAnswer (lookup pos : Nat)
  /-- GRU_REISSUE (R221). -/
  | gruReissue (lookup pos : Nat)
  /-- COPY (R238). -/
  | copy (ring idx : Nat)
  /-- FILL (R236). -/
  | fill (ring idx : Nat)
  /-- XCTX_SET (R240). -/
  | xctxSet (ring idx : Nat)
  /-- INVALIDATE (R248). -/
  | invalidate (ring idx : Nat)
  /-- FAULT_RESOLVE (R245). -/
  | faultResolve (ring idx : Nat)
  /-- TIER_HINT (R253). -/
  | tierHint (ring idx : Nat)
  /-- MOVER_STEP_DATA (R238). -/
  | moverStepData (mover : Nat) (answer : StepAnswer)
  /-- MOVER_REISSUE (R239). -/
  | moverReissue (mover : Nat)
  /-- ATS_TRANSLATION_COMPLETION (R241). -/
  | atsTranslationCompletion (mover : Nat) (answer : Option Translation)
  /-- WALKER_READ_ANSWER (R242). -/
  | walkerReadAnswer (mover : Nat)
  /-- PRI_GROUP_RESPONSE (R244). -/
  | priGroupResponse (port index code : Nat)
  /-- FAULT_TIMEOUT (R244). -/
  | faultTimeout (record : Nat)
  /-- ATS_INVALIDATE_REQUEST (R248). -/
  | atsInvalidateRequest (port : Nat) (pasid : Option Nat) (base length : Nat)
  /-- INVALIDATION_DONE (R248). -/
  | invalidationDone (inv : Nat)
  /-- COUNTER_DECAY (R249). -/
  | counterDecay 
  /-- PRESENCE_CHANGE (R255). -/
  | presenceChange (port : Nat) (partner : Option (Nat × Nat)) (found : List DriveInfo)
  /-- DRIVE_LIST (R268). -/
  | driveList (ring idx : Nat)
  /-- DRIVE_ADOPT (R259). -/
  | driveAdopt (ring idx : Nat)
  /-- DRIVE_RETIRE (R266). -/
  | driveRetire (ring idx : Nat)
  /-- DRIVE_LOG (R268). -/
  | driveLog (ring idx : Nat)
  /-- FAR_FLUSH (R268). -/
  | farFlush (ring idx : Nat)
  /-- NVME_COMPLETION (R263). -/
  | nvmeCompletion (cmd : Nat) (ok : Bool) (page : List Byte)
  /-- NVME_COMMAND_TIMEOUT (R265). -/
  | nvmeCommandTimeout (cmd : Nat)
  /-- NVME_ASYNC_EVENT (R257). -/
  | nvmeAsyncEvent (drive : Nat) (critical : Bool)
  /-- SIGNAL_DETECT (R273). -/
  | signalDetect (link lanes : Nat)
  /-- DETECT_RETRY (R273). -/
  | detectRetry (link : Nat)
  /-- EQUALISE_DONE (R273). -/
  | equaliseDone (link lanes : Nat)
  /-- ALIGN_DONE (R273). -/
  | alignDone (link : Nat)
  /-- TRAINING_STEP_TIMEOUT (R273). -/
  | trainingStepTimeout (link : Nat)
  /-- IDLE (R277). -/
  | idle (link ack flow : Nat)
  /-- ACK (R277). -/
  | ack (link ack flow : Nat)
  /-- REPLAY (R281). -/
  | replay (link ack flow fromSeq : Nat)
  /-- PARAM (R274). -/
  | param (link ack flow : Nat) (p : ParamCell)
  /-- KEY (R287). -/
  | key (link ack flow nonce salt : Nat) (agrees : Bool)
  /-- AUTH (R288). -/
  | auth (link ack flow first count group : Nat) (tag : List Byte)
  /-- RESET (R282). -/
  | reset (link ack flow : Nat)
  /-- RESERVED_CONTROL_CELL (R277). -/
  | reservedControlCell (link ack flow type : Nat)
  /-- ACK_TIMER_EXPIRY (R279). -/
  | ackTimerExpiry (link : Nat)
  /-- REPLAY_TIMER_EXPIRY (R281). -/
  | replayTimerExpiry (link : Nat)
  /-- CREDIT_TIMER_EXPIRY (R282). -/
  | creditTimerExpiry (link : Nat)
  /-- GROUP_CLOSE (R288). -/
  | groupClose (link : Nat)
  /-- LOCK_LOSS (R282). -/
  | lockLoss (link : Nat)
  /-- AUTO_RETRAIN (R283). -/
  | autoRetrain (link : Nat)
  /-- LINK_CTL_RESET (R282). -/
  | linkCtlReset (who link : Nat)
  /-- LINK_CTL_ENABLE (R282). -/
  | linkCtlEnable (who link : Nat) (enable : Bool)
  /-- ROUTER_LOOKUP (R291). -/
  | routerLookup (port : Nat) (m : Msg)
  /-- HEAD_HOLD_TIMEOUT (R294). -/
  | headHoldTimeout (output entry : Nat)
  /-- OUTPUT_SEND (R109). -/
  | outputSend (output : Nat)
  /-- FENCE (R303). -/
  | fence (who node : Nat)
  /-- UNFENCE (R303). -/
  | unfence (who node : Nat)
  /-- FENCE_POINT (R303). -/
  | fencePoint 
  /-- MIRROR_PAIR (R307). -/
  | mirrorPair (partnerHoldsRegion : Bool) (partnerPref : Bool)
  /-- REP_WRITE (R309). -/
  | repWrite (link : Nat) (m : Msg)
  /-- REP_ATOMIC (R309). -/
  | repAtomic (link : Nat) (m : Msg)
  /-- REP_ADMIN (R309). -/
  | repAdmin (link : Nat) (m : Msg)
  /-- REP_STATE (R309). -/
  | repState (link : Nat) (m : Msg)
  /-- DIGEST (R315). -/
  | digest (link : Nat) (m : Msg)
  /-- REP_ACK (R310). -/
  | repAck (link : Nat) (m : Msg)
  /-- FETCH (R312). -/
  | fetch (link : Nat) (m : Msg)
  /-- TIME (R321). -/
  | time (link : Nat) (m : Msg)
  /-- DIGEST_MISSED (R315). -/
  | digestMissed (epoch : Nat)
  /-- EPOCH_END (R314). -/
  | epochEnd 
  /-- PROMOTE (R318). -/
  | promote (port term : Nat)
  /-- SOLO (R317). -/
  | solo (port term : Nat)
  /-- DEMOTE (R317). -/
  | demote (port term : Nat)
  /-- RESYNC_COPY_DONE (R319). -/
  | resyncCopyDone (activeTerm : Nat)
  /-- DRAM_COMMAND_ISSUE (R333). -/
  | dramCommandIssue (stack bank : Nat)
  /-- THROTTLE_EXPIRY (R344). -/
  | throttleExpiry (stack : Nat)
  /-- STACK_READ_COMPLETE (R346). -/
  | stackReadComplete (stack line : Nat) (err : List Byte)
  /-- REFRESH_DUE (R338). -/
  | refreshDue (stack bank : Nat)
  /-- REFRESH_WINDOW (R342). -/
  | refreshWindow (stack : Nat)
  /-- STACK_TEMP_READ (R337). -/
  | stackTempRead (stack : Nat) (temp : Option Nat)
  /-- RANK_POWER_DOWN (R340). -/
  | rankPowerDown (stack rank : Nat)
  /-- SCRUB_READ (R356). -/
  | scrubRead (stack : Nat) (err : List Byte)
  /-- ECC_TEST_CTL_WRITE (R359). -/
  | eccTestCtlWrite (who val : Nat)
  /-- ATTEST (R374). -/
  | attest (ring idx : Nat)
  /-- ATTEST_SIGN (R366). -/
  | attestSign 
  /-- KEM_PUBKEY (R380). -/
  | kemPubkey (ring idx : Nat)
  /-- SEAL (R370). -/
  | seal (ring idx : Nat) (key : List Byte)
  /-- KEY_RELEASE (R371). -/
  | keyRelease (ring idx : Nat) (ciphertext : List Byte)
  /-- SEAL_LOAD (R372). -/
  | sealLoad (ring idx : Nat)
  /-- UNSEAL (R373). -/
  | unseal (ring idx : Nat)
  /-- BIND_OFF_DONE (R373). -/
  | bindOffDone 
  /-- KEY_REGISTER (R380). -/
  | keyRegister (ring idx : Nat) (key : List Byte)
  /-- FW_STAGE (R368). -/
  | fwStage (ring idx : Nat) (image : List Byte) (sigOk : Bool)
  /-- DEBUG_UNLOCK (R379). -/
  | debugUnlock (ring idx : Nat) (token : List Byte) (sigOk : Bool)
  /-- RELOCK (R378). -/
  | relock (who : Nat)
  /-- DEBUG_LIFETIME_EXPIRY (R450). -/
  | debugLifetimeExpiry 
  /-- POWER_STATE (R387). -/
  | powerState (ring idx : Nat)
  /-- ENTRY_TIMEOUT (R387). -/
  | entryTimeout 
  /-- ENTRY_DRAINED (R387). -/
  | entryDrained 
  /-- PROFILE_SET (R385). -/
  | profileSet (ring idx : Nat)
  /-- WAKE (R389). -/
  | wake (source : Nat)
  /-- WAKE_TIMER (R389). -/
  | wakeTimer 
  /-- WAKE_DONE (R391). -/
  | wakeDone (runtimeOk : Bool) (drivesFound exitFailed : List Nat)
  /-- DAMPER_CYCLE (R393). -/
  | damperCycle (watts : Nat)
  /-- PWR_ALERT (R394). -/
  | pwrAlert 
  /-- REGULATOR_POLL (R396). -/
  | regulatorPoll (rail : Nat) (faulty : Bool) (junction watts : Nat)
  /-- AVS_UPDATE (R395). -/
  | avsUpdate 
  /-- THERMAL_TRIP (R397). -/
  | thermalTrip (junction : Nat)
  /-- ROOT_PLL_LOCK_LOSS (R398). -/
  | rootPllLockLoss 
  /-- ROOT_PLL_LOCK (R398). -/
  | rootPllLock 
  /-- CLOCK_RAMP_STEP (R400). -/
  | clockRampStep (island : Nat)
  /-- GAUGE_READ (R405). -/
  | gaugeRead (gauge reading : Nat)
  /-- PLAN_SCHEDULE (R407). -/
  | planSchedule 
  /-- AGE_PLAN (R409). -/
  | agePlan (ring idx : Nat)
  /-- AGE_READ (R413). -/
  | ageRead (ring idx : Nat)
  /-- AGE_RECORD (R413). -/
  | ageRecord (ring idx : Nat)
  /-- POH_UPDATE (R412). -/
  | pohUpdate 
  /-- RETRAIN_START (R410). -/
  | retrainStart 
  /-- JOURNAL_WRITE (R419). -/
  | journalWrite 
  /-- IRQ_TAKE (R423). -/
  | irqTake (core : Nat)
  /-- IRQ_CORE_EOI (R426). -/
  | irqCoreEoi (core input : Nat)
  /-- IRQ_SWI (R422). -/
  | irqSwi (raise : Nat)
  /-- BOARD_INPUT_EDGE (R427). -/
  | boardInputEdge (input : Nat)
  /-- FILTER_ACCEPT (R428). -/
  | filterAccept (input lowTicks : Nat)
  /-- EVT_FILTER (R421). -/
  | evtFilter (ring idx : Nat)
  /-- EVT_READ (R435). -/
  | evtRead (ring idx : Nat)
  /-- PERF_LIST (R435). -/
  | perfList (ring idx : Nat)
  /-- PERF_READ (R435). -/
  | perfRead (ring idx : Nat)
  /-- PTM_DIALOGUE (R416). -/
  | ptmDialogue (port master : Nat)
  /-- START_UP (R441). -/
  | startUp (b : BootInfo)
  /-- PERST_ASSERT (R439). -/
  | perstAssert (port : Nat)
  /-- READY (R441). -/
  | ready 
  /-- STARTUP_STOP (R444). -/
  | startupStop (code : Nat)
  /-- PARTIAL_RESET (R446). -/
  | partialReset (who component : Nat)
  /-- PROGRESS_WATCHDOG (R446). -/
  | progressWatchdog (component : Nat)
  /-- PARTIAL_RESET_END (R446). -/
  | partialResetEnd (component : Nat) (ok : Bool)
  /-- PORT_RESET (R447). -/
  | portReset (port : Nat)
  /-- NODE_ID_WRITE (R467). -/
  | nodeIdWrite (who val : Nat)
  /-- LOOPBACK_START (R459). -/
  | loopbackStart (who val : Nat)
  /-- LOOPBACK_STOP (R461). -/
  | loopbackStop (who : Nat)
  /-- LOOPBACK_END (R460). -/
  | loopbackEnd (errors checked : Nat) (lockLost : Bool)
  /-- BIST_START (R462). -/
  | bistStart (who target : Nat)
  /-- BIST_END (R462). -/
  | bistEnd (fails : Nat) (cacheSets : List Nat)
  /-- MCTP_ECHO (R461). -/
  | mctpEcho (payload : List Byte)
  /-- IDCODE (R463). -/
  | idcode 
  /-- SAMPLE_PRELOAD (R463). -/
  | samplePreload 
  /-- EXTEST (R463). -/
  | extest 
  /-- EXTEST_PULSE (R463). -/
  | extestPulse 
  /-- EXTEST_TRAIN (R463). -/
  | extestTrain 
  /-- HIGHZ (R463). -/
  | highz 
  /-- CLAMP_INSTRUCTION (R463). -/
  | clampInstruction 
  /-- WIR_STACK (R464). -/
  | wirStack (stack : Nat)
  /-- BYPASS (R463). -/
  | bypass (code : Nat)
  /-- PCIE_COMPLETION_TIMEOUT (R239). -/
  | pcieCompletionTimeout (port : Nat) (target : PcieTarget)
  /-- PRI_ENABLE_WRITE (R244). -/
  | priEnableWrite (port : Nat) (enable : Bool) (allocation : Nat)
  /-- OUTPUT_WRITE_REISSUE (R480). -/
  | outputWriteReissue (ring idx : Nat)
  /-- WALKER_REISSUE (R242). -/
  | walkerReissue (mover : Nat)
  /-- LINK_TX_POWER_LOWER (R388). -/
  | linkTxPowerLower (link : Nat)
  /-- PWR_ALERT_RELEASE (R394). -/
  | pwrAlertRelease 
  /-- RAIL_MONITOR_FALL (R474). -/
  | railMonitorFall (rail : Nat)
  /-- POWER_LOSS (R392). -/
  | powerLoss 
  /-- ALWAYS_ON_POWER_GOOD (R472). -/
  | alwaysOnPowerGood (oscWait : Nat)
  /-- OSC_WAIT_EXPIRY (R398). -/
  | oscWaitExpiry 
  /-- START_UP_PLAN (R412). -/
  | startUpPlan 
  deriving DecidableEq, Repr

end Sys2Proof
end

