-- ==== Sys2Proof/Decode.lean ====
section
/-! DEFINITION. The words of commands: the opcode table gives its rows no bits, so no word spells a command. -/

namespace Sys2Proof

/-- The command a word spells by the table's bits: no row has bits, so none. -/
def decodeTableWord (_nbits _w : Nat) : Option Instr := none

end Sys2Proof
end

