-- ==== Sys2Proof/Config.lean ====
section
/-! DEFINITION. What one part fixes and the spec leaves to it (fuses, straps, identity data, catalogue contents),
and the free values: constants without a body, applied to the counter `Dev.free` or to the operands they depend on,
so that nothing in Lean can know their value. The log entries 3, 5 and 6 say which is which. -/

namespace Sys2Proof.Config

/-- A FREE VALUE (log entry 5): drawn where the spec leaves a choice or a value to the device (which free frame, which
free handle, which identifier). It is applied to the draw counter and then reduced to the range the spec gives. -/
opaque freeChoice : Nat → Nat

/-- A FREE VALUE (log entry 6): the estimate behind a retry-after hint (R48, R97, R104, R128), before the bounds the
spec sets are applied. -/
opaque freeHint : Nat → Nat

/-- A FREE VALUE (log entry 5): the outcome of a random draw or of an unstated computation, as a number. -/
opaque freeNumber : Nat → Nat

/-- A FREE VALUE (log entry 7): bytes the spec does not determine (nonces, signatures, keys, encrypted data): the `n`
bytes of draw `k`. -/
opaque freeByte : Nat → Nat → Byte

/-- A FREE VALUE (log entry 8): which of the results R183 admits FEXP2 (0), FRCP (1) or FRSQRT (2) gives for an
operand: a fixed function of the operand. -/
opaque ulpPick : Nat → BitVec 32 → Nat

/-- A FREE VALUE (log entry 9): hash row `r` of the miss sketch (R250) of a skein key. -/
opaque sketchHash : Nat → Nat → Nat

/-- A FREE VALUE (log entry 7): a digest of bytes by a function the spec leaves open or whose key is fused (the fingerprint of R104, the
ML-KEM decapsulation of R371, the measurements of R367). -/
opaque digestOf : Nat → List Byte → List Byte

/-- The link-domain key (R287): 32 bytes fixed at manufacture. Log entry 3. -/
opaque linkDomainKey : List Byte

/-- The stock catalogue the device holds, as its 32-byte records (R229). Log entry 3. -/
opaque stockCatalogue : List (List Byte)

/-- Whether a stock variant whose weights go with either FP8 format has activations in E5M2 (Table 6.6, Table 9.6). Log entry 58. -/
opaque stockActivation : Nat → Bool

/-- A FREE VALUE (log entry 58): step `k` of a stock pattern that its seed drives, or the place in an order it does not fix (R231). -/
opaque stockStep : Nat → Nat → Nat

/-- The stock image of a STOCK_ID for a panel count (R200, R229). Log entry 3. -/
opaque stockImage : Nat → Nat → List Byte

/-- A FREE VALUE (log entry 13): byte i of what a unit of the far tier, encrypted with one tweak, decrypts to under another (R261); the memory
key is a fused secret. -/
opaque misdecrypted : Nat → Nat → List Byte → Nat → Byte

/-- A FREE VALUE (log entry 53): the number that fixes the interleave of a carve-out frame, where R326 has the extent number of
a pool address. -/
opaque carveExtent : Nat → Nat

/-- The fused DEVICE_ID (R362): 64 bits of the part. Log entry 3. -/
opaque deviceId : Nat

/-- The identity public key of 60 bytes, the identity certificate of at most 8,192, and the ML-KEM-1024 encapsulation key of
1,568 bytes (R364, R371, R374). Log entry 3. -/
opaque identityPub : List Byte
opaque certificate : List Byte
opaque kemPublic : List Byte

/-- Digests of the security-core ROM, the loader and the runtime in use (R367, R374): 0, 1 and 2. Log entry 3. -/
opaque bootDigest : Nat → List Byte

/-- DESIGN CHOICE (log entry 3): the MIRROR_PREF strap is 0 (R307). -/
def mirrorPref : Bool := false

/-- DESIGN CHOICE (log entry 3): KNIT_DISABLED is not blown on the modelled part. -/
def knitDisabled : Bool := false

/-- DESIGN CHOICE (log entry 3): DEV_NODE_ID of the board record; 0x000 means a board record without one (R466). -/
def boardNodeId : Nat := 0x100

/-- DESIGN CHOICE (log entry 3): UP_MODE strap 0, both upstream ports (R438). -/
def upMode : Nat := 0

/-- The fused PCIe vendor ID of 16 bits (R60), and the revision ID of 8 bits, which the spec does not give. Log entry 3. -/
opaque vendorId : Nat
opaque revisionId : Nat

/-- The fused manufacturer code of IDCODE (Table 23.7): 11 bits of it. Log entry 3. -/
opaque manufacturer : Nat

/-- DESIGN CHOICE (log entry 3): the board record's MAX_PROFILE is E700 (R385). -/
def maxProfile : Nat := 3

/-- DESIGN CHOICE (log entry 3): the board record's regulator list (R404): entry k feeds rail k for the nine rails of Table
25.2, at PMBus address 0x20 + k, the first two by AVSBus; the other entries are not in use. -/
def boardReg (k : Nat) : Nat :=
  if k < 9 then 2 ^ 31 + k * 2 ^ 24 + (0x20 + k) * 2 ^ 16 + (if k < 2 then 2 ^ 12 + k * 2 ^ 8 else 0) else 0

end Sys2Proof.Config
end

