-- ==== Sys2Proof/Machine/State.lean ====
section
/-! DEFINITION. The state of the device: plain data, every piece of state the spec gives it (INVENTORY.md lists them
with their rules), the faults and refusals, and the state after reset. The state is the device `dev`, the one-way
fuses `fuse` (R362), and the queue `pending` of commands waiting, first in first out. -/

namespace Sys2Proof.Machine

/-- Nothing of this device stops the model: every command answers a next state (NOTES.md, Stops). The one reason is
kept so that the type is not empty; no meaning raises it. Safe. -/
inductive Fault where
  /-- Raised by nothing. Safe. -/
  | unreachable
  deriving DecidableEq, Repr

/-- Refusals: only the one the host names. -/
inductive Refusal where
  /-- Raised by an arm of exec whose command has no meaning yet. Safe. -/
  | notModelled (mnemonic : String)
  deriving DecidableEq, Repr

/-- Who an operation answers: a descriptor of a ring (R75) or a fabric request (R88). -/
inductive Caller where
  | desc (ring idx : Nat)
  | fab (m : Msg)
  deriving DecidableEq, Repr

/-- What the device has sent to the outside, an observation log (log entry 4), newest first. -/
inductive Out where
  /-- A message LOCAL hands to the router (R100, R102). -/
  | msg (m : Msg)
  /-- A cell on a link (R84, R277): its 48 bytes, in the order they go onto it. -/
  | cell (link : Nat) (bytes : List Byte)
  /-- A write into host memory behind an upstream port (R77, R480). -/
  | hostWrite (port : Nat) (pasid : Option Nat) (addr : Nat) (data : List Byte)
  /-- A mover's write to a translated host address (R241). -/
  | hostStore (port addr : Nat) (data : List Byte)
  /-- An MSI-X message (R429). -/
  | msix (port vector : Nat)
  /-- A completion of a BAR0 read (R12) or of a pool-window read (R63). -/
  | readData (port : Nat) (data : List Byte) (poisoned : Bool)
  /-- Unsupported Request (0) or Completer Abort (1), reported through AER (R63). -/
  | pcieError (port code : Nat)
  /-- A PCIe message or request of another kind (ATS, PRI, invalidation): code and arguments. -/
  | pcie (port code : Nat) (args : List Nat)
  /-- An NVMe command to a drive (R263). -/
  | nvme (drive : Nat) (opcode cmd : Nat) (args : List Nat)
  /-- An MCTP or test answer (R461). -/
  | sideband (data : List Byte)
  /-- A pin, rail or regulator driven (R395, R397, R473): code, index, value. -/
  | board (code index value : Nat)
  deriving DecidableEq, Repr

/-- An Extent Map Table entry (R36, Table 2.2). An extent number without one is FREE, or WINDOW (R32). -/
structure Emt where
  kind : Nat
  fence : Bool := false
  mod : Bool := false
  repl : Bool := false
  handle : Nat
  index : Nat
  frame : Nat := 0xFFFF
  egen : Nat := 0
  drive : Nat := 0
  drive2 : Nat := 0
  slot : Nat := 0
  deriving DecidableEq, Repr

/-- A region (R32, R33, R39, R49). `verOrd` is the version in publish order. -/
structure Region where
  backed : Bool
  base : Nat
  count : Nat
  version : Nat := 1
  verOrd : Nat := 1
  rgen : Nat := 0
  freeing : Bool := false
  deriving DecidableEq, Repr

/-- A Host Access Table entry (R39, Table 2.5). -/
structure Grant where
  rights : Nat
  gen : Nat
  born : Nat
  deriving DecidableEq, Repr

/-- An exclusion (R483); `host` none is ALL. -/
structure Exclusion where
  handle : Nat
  host : Option Nat
  first : Nat
  last : Nat
  rgen : Nat
  deriving DecidableEq, Repr

/-- A draft extent being copied (R48). -/
structure DraftCopy where
  ext : Nat
  dest : Nat
  deriving DecidableEq, Repr

/-- An open draft (R48); `view` is its view's first extent number. -/
structure Draft where
  owner : Nat
  handle : Nat
  baseVer : Nat
  view : Nat
  count : Nat
  deriving DecidableEq, Repr

/-- An open pin (R52). -/
structure Pin where
  owner : Nat
  handle : Nat
  version : Nat
  view : Nat
  count : Nat
  deadline : Nat
  deriving DecidableEq, Repr

/-- A view closed and waiting for the next epoch (R51, R52). -/
structure ClosedView where
  view : Nat
  count : Nat
  owner : Nat
  deriving DecidableEq, Repr

/-- A PUBLISH between its publish point and its install (R50). -/
structure Publishing where
  handle : Nat
  draft : Nat
  version : Nat
  caller : Caller
  deriving DecidableEq, Repr

/-- A REVOKE or REGION_FREE, GRANT or GRANT_REMOVE waiting for its drains (R54, R118). -/
structure Draining where
  handle : Nat
  host : Option Nat
  first : Nat
  last : Nat
  rgen : Nat
  /-- 0 REVOKE, 1 REGION_FREE, 2 GRANT_REMOVE, 3 GRANT -/
  kind : Nat
  caller : Caller
  /-- the jobs it has ended (R209): ring and index of each -/
  jobs : List (Nat × Nat) := []
  deriving DecidableEq, Repr

/-- A migration of one extent (R55, R56). -/
structure Migration where
  ext : Nat
  src : Nat
  dst : Nat
  started : Bool := false
  copied : List Nat := []
  copying : Option Nat := none
  done : Bool := false
  deriving DecidableEq, Repr

/-- A STACK_RETIRE or STACK_RETURN in progress (R57, R330). -/
structure StackMove where
  stack : Nat
  retire : Bool
  total : Nat
  caller : Caller
  deriving DecidableEq, Repr

/-- A switch filter record and its delivery (R43). -/
structure SwitchRec where
  port : Nat
  entry : Nat
  srcLo : Nat
  srcHi : Nat
  addrBase : Nat
  addrLimit : Nat
  valid : Bool
  pending : Bool
  deriving DecidableEq, Repr

/-- A third-party switch of the switch filter table (R43). -/
structure Switch where
  node : Nat
  recs : List SwitchRec := []
  unanswered : Nat := 0
  nonFiltering : Bool := false
  deriving DecidableEq, Repr

/-- The pool model's state (chapter 2). -/
structure PoolSt where
  emt : Tbl Emt := []
  regions : Tbl Region := []
  /-- keyed host * 65536 + handle -/
  grants : Tbl Grant := []
  exclusions : List Exclusion := []
  drafts : Tbl Draft := []
  draftCopies : List DraftCopy := []
  pins : Tbl Pin := []
  closed : List ClosedView := []
  /-- references to each frame in resident, draft or pin use (R51, R52); none listed is free -/
  frameRefs : Tbl Nat := []
  /-- frames reserved for skeins (R35) -/
  cacheFrames : List Nat := []
  /-- freed frames under bind-off (R35, R373) -/
  binding : List Nat := []
  migrations : List Migration := []
  /-- requests parked under a fence (R56): home and request -/
  parked : List (Nat × Msg) := []
  publishing : List Publishing := []
  draining : List Draining := []
  stackMove : Option StackMove := none
  switches : Tbl Switch := []
  /-- per-host count of DENIED and REVOKED requests (R40) -/
  refused : Tbl Nat := []
  epochs : Nat := 0
  nextEpoch : Nat := 0
  /-- frames of stacks returned and waiting for an epoch (R55, R57): 15,360 or 12,800 in force -/
  totalFrames : Nat := 15360
  /-- epoch changes of capacity waiting (R55 step 3): panels (code 0..15), drives (code 32 + d), 100 the stack -/
  addCapacity : List Nat := []
  deriving DecidableEq, Repr

/-- The administration lease (R64). -/
structure LeaseSt where
  /-- 0 free, 1 UP0, 2 UP1 -/
  holder : Nat := 0
  expiry : Nat := 0
  lastAccepted : Nat := 0
  deriving DecidableEq, Repr

/-- A pool-window access being re-issued (R63). -/
structure WindowWait where
  port : Nat
  addr : Nat
  len : Nat
  data : Option (List Byte)
  first : Nat
  nextTry : Nat
  deriving DecidableEq, Repr

/-- The state of one upstream port that is not in its registers (R62, R65, R67, R429). -/
structure PortSt where
  accepted : Nat := 0
  negStatus : Nat := 0
  /-- what the host has set in the port's configuration space (R60): enables of the ATS and MSI-X capabilities, and the size of BAR4 in
  GiB (R61) -/
  atsEnabled : Bool := false
  msixEnabled : Bool := false
  barGib : Nat := 16
  /-- the link as it trained (R60): rate code 1 to 6 for 2.5 to 64 GT/s, and width, 0 before it has -/
  rate : Nat := 0
  width : Nat := 0
  /-- vectors unmasked, pending -/
  unmasked : List Nat := []
  pendingBits : List Nat := []
  deriving DecidableEq, Repr

/-- A client session (R68). -/
structure Session where
  node : Nat
  first : Nat
  count : Nat
  accepted : Nat
  deriving DecidableEq, Repr

/-- A started descriptor (R75, R76): its index in the submission ring, its 64 bytes, its opcode after clamping and its
record ring. -/
structure Started where
  idx : Nat
  bytes : List Byte
  op : Nat
  recRing : Nat
  /-- its operation has begun -/
  claimed : Bool := false
  /-- how far an operation has come that goes on over several commands, and what it has read: the lines and the vector
  of a REDUCE (R226) -/
  done : Nat := 0
  buf : List Byte := []
  deriving DecidableEq, Repr

/-- A completion record not yet written (R78): its bytes with PHASE 0, its NO_IRQ, and the descriptor it completes. -/
structure HeldRec where
  bytes : List Byte
  noIrq : Bool := false
  ring : Nat
  idx : Nat
  /-- the context of an admitted job, busy until the record is written (R206) -/
  ctx : Option Nat := none
  deriving DecidableEq, Repr

/-- A ring (R71, Table 3.10) and its descriptors and records (R76 to R79). -/
structure Ring where
  base : Nat := 0
  sizeLog : Nat := 8
  pasidEn : Bool := false
  kind : Nat := 0
  pasid : Nat := 0
  enable : Bool := false
  defCpl : Nat := 0
  coalUs : Nat := 0
  coalCnt : Nat := 0
  vector : Nat := 0
  prod : Nat := 0
  cons : Nat := 0
  fault : Nat := 0
  state : Nat := 0
  notify : Nat := 0
  /-- submission: fetched and not started, started and not completed -/
  waiting : Option (Nat × List Byte) := none
  /-- an ABORT has reached the descriptor that waits (R212) -/
  waitAborted : Bool := false
  started : List Started := []
  /-- records owed to DEF_CPL after a descriptor-read failure: slot index, status, detail (R78) -/
  owed : List (Nat × Nat × Nat) := []
  /-- completion: slots reserved, records not yet written with their NO_IRQ, unsignalled records and since when -/
  reserved : Nat := 0
  held : List HeldRec := []
  /-- the record written last, which a PCIe failure of its write brings back (R78) -/
  last : Option HeldRec := none
  unsignalled : Nat := 0
  unsigSince : Nat := 0
  /-- a notify write to be made, after a RETRY its reissue: when, and the PROD it carries (R79) -/
  notifyAt : Option (Nat × Nat) := none
  /-- event ring: filter ranges, SAMPLES, dropped mark (R421) -/
  ranges : List (Nat × Nat) := []
  samples : Bool := false
  dropped : Bool := false
  deriving DecidableEq, Repr

/-- Output of a descriptor or of a lookup being written to OUT_ADDR (R480): what is left, where it goes, and the
completion that follows. `unit` bytes count one in PROGRESS, `resUnit` one in RESULT (0: the value stands). -/
structure OutJob where
  caller : Caller
  addr : Nat
  bytes : List Byte
  written : Nat := 0
  st : Nat
  det : Nat
  result : Nat
  progress : Nat
  unit : Nat := 0
  resUnit : Nat := 0
  next : Nat
  /-- written to a host and not yet known to be taken -/
  posted : Bool := false
  deriving DecidableEq, Repr

/-- Host ports, rings and sessions (chapter 3). -/
structure HostSt where
  lease : LeaseSt := {}
  port0 : PortSt := {}
  port1 : PortSt := {}
  rings : Tbl Ring := []
  sessions : Tbl Session := []
  /-- sessions that have ended and whose rings still drain (R69) -/
  ending : Tbl Session := []
  windowWaits : List WindowWait := []
  /-- RING_PART_ACT (R70) -/
  up0Count : Nat := 64
  up1Count : Nat := 64
  /-- output writes answered RETRY, to be reissued (R480) -/
  outputs : List OutJob := []
  deriving DecidableEq, Repr

/-- A dedup record (R104): its fingerprint, or the eight bytes a partner sent in its place (R309). -/
structure DedupRec where
  op : Nat
  addr : Nat
  len : Nat
  crc : Nat
  rep : List Byte := []
  /-- none while the original is in progress -/
  answer : Option Msg := none
  expiry : Nat := 0
  deriving DecidableEq, Repr

/-- A write-transfer record (R98). -/
structure Xfer where
  first : Msg
  /-- indices applied or failed, and those that have arrived and are being served -/
  received : List Nat := []
  serving : List Nat := []
  /-- failing messages: ADDR, index, status -/
  failures : List (Nat × Nat × Nat) := []
  last : Option Nat := none
  time : Nat := 0
  deriving DecidableEq, Repr

/-- The ordered stream of one (SRC, TC) (R101): requests held, the earliest request answered RETRY by its tag and hint, and how many
of those held come before it. -/
structure Ordered where
  held : List Msg := []
  retried : Option (Nat × Nat) := none
  before : Nat := 0
  deriving DecidableEq, Repr

/-- A request the device has outstanding on the fabric (R103). -/
structure DevReq where
  m : Msg
  resends : Nat := 0
  /-- answered RETRY: its next sending is no resend (R103) -/
  again : Bool := false
  deadline : Nat
  /-- what it serves: 0 EVENT, 1 FILTER_UPDATE, 2 mover access, 3 snoop, 4 other; and an index -/
  purpose : Nat
  index : Nat := 0
  deriving DecidableEq, Repr

/-- A token bucket (R107): tokens in units of 1/8 byte per tick, and the time they were counted. -/
structure Bucket where
  tokens : Nat
  at_ : Nat
  deriving DecidableEq, Repr

/-- The transaction layer's state (chapter 4). -/
structure FabricSt where
  /-- keyed (home * 4096 + src) * 4096 + tag -/
  dedup : Tbl DedupRec := []
  /-- keyed src * 4096 + tag -/
  xfers : Tbl Xfer := []
  /-- keyed src * 8 + tc -/
  ordered : Tbl Ordered := []
  /-- keyed dst * 4096 + tag; multicast ones 2^24 + tag -/
  devReqs : Tbl DevReq := []
  /-- requests of the device that wait for a free tag to their DST (R99), oldest first: what each serves, and its index -/
  waitReqs : List (Msg × Nat × Nat) := []
  /-- keyed port * 8 + tc -/
  policers : Tbl Bucket := []
  shapers : Tbl Bucket := []
  deriving DecidableEq, Repr

/-- A directory entry (R123, Table 5.8), keyed by line. -/
structure DirEntry where
  /-- 1 SHARED, 2 SHARED_BCAST, 3 OWNED -/
  state : Nat
  ptrs : List Nat := []
  domain : Nat := 0
  /-- the multicast group and member mask of the domain in force when the entry became SHARED_BCAST (R127) -/
  group : Nat := 0
  mask : Nat := 0
  /-- the grant recorded for an owner: 2 E, 3 M (R117) -/
  grant : Nat := 3
  nru : Bool := true
  way : Nat := 0
  deriving DecidableEq, Repr

/-- Why a transaction of a home is open (R117, R125, R126, R127, R129, R132). -/
inductive TxnKind where
  /-- serve this request when the answers are in -/
  | serve (m : Msg)
  /-- a directory eviction (R125) -/
  | evict
  /-- pointer replacement: the requester is already granted (R126 step 2) -/
  | shift
  /-- a publish, revoke, private segment, demotion or domain change: drop every holder, or the ones asked -/
  | drop (whole : Bool)
  /-- a stash offer to a target (R129) -/
  | stash (target : Nat)
  deriving DecidableEq, Repr

/-- An open transaction: the line is busy (R117). -/
structure Txn where
  kind : TxnKind
  /-- snoops unanswered: node and tag -/
  waits : List (Nat × Nat) := []
  /-- the owner whose silence would poison the line (R120) -/
  owner : Option Nat := none
  /-- dirty data received -/
  data : Option (List Byte) := none
  /-- a multicast snoop: its tag, answers still expected, nodes that answered, member bits pruned -/
  mcTag : Option Nat := none
  mcLeft : Nat := 0
  mcSeen : List Nat := []
  mcPruned : List Nat := []
  /-- ACCEPTED of a stash offer -/
  accepted : Bool := false
  deriving DecidableEq, Repr

/-- The starvation reservation and wait list of one home (R128). -/
structure Starve where
  /-- requester, line, and the deadline of its next attempt while none is held -/
  holder : Option (Nat × Nat) := none
  deadline : Nat := 0
  heldReq : Option Msg := none
  /-- requester and line, in arrival order -/
  waitList : List (Nat × Nat) := []
  deriving DecidableEq, Repr

/-- A set recall (R130): nodes still outstanding with the snoop's tag and the indices received. -/
structure Recall where
  nodes : List (Nat × Nat) := []
  got : List (Nat × Nat) := []
  finals : List (Nat × Nat) := []
  deriving DecidableEq, Repr

/-- The homes' coherence state (chapter 5). -/
structure CohSt where
  /-- keyed by line number ADDR[47:6] -/
  dir : Tbl DirEntry := []
  txns : Tbl Txn := []
  /-- keyed by home -/
  starve : Tbl Starve := []
  /-- keyed by global set -/
  recalls : Tbl Recall := []
  /-- spare substitutions (R121): set to spare set; the sets and spares whose memory has failed -/
  spares : Tbl Nat := []
  deadSets : List Nat := []
  /-- spare substitutions of the directory cache: cache set to spare cache set -/
  cacheSpares : Tbl Nat := []
  /-- the directory cache (R124): cache set * 16 + way to line -/
  cache : Tbl Nat := []
  /-- entries modified since written to the directory set -/
  cacheNru : List Nat := []
  /-- domains in force: d to (group, mask); node to domain (R127) -/
  domains : Tbl (Nat × Nat) := []
  nodeDom : Tbl Nat := []
  /-- private ranges in force: first and last line (R132) -/
  privates : List (Nat × Nat) := []
  /-- lines whose SHARED_BCAST entry awaits the conversion of R127 -/
  sweepLines : List Nat := []
  /-- lines a snoop has returned to an engine that read them, by line (R117 row 3) -/
  fetched : Tbl (List Byte) := []
  /-- busy lines that a stream-port access waits for: it is served before anything else (R131) -/
  portWaits : List Nat := []
  deriving DecidableEq, Repr

/-- A weight set of the MAC array (R151, R177 to R179): packed rows by number, 32 row scales, the NFMT pair, and the
load mask with its scale bit. -/
structure WeightSet where
  /-- row j to its packed bytes as one number; rows not listed are zero -/
  rows : Tbl Nat := []
  scales : List Nat := List.replicate 32 127
  wfmt : Nat := 0
  afmt : Nat := 2
  mask : List Nat := []
  scaleLoaded : Bool := false
  deriving DecidableEq, Repr

/-- Why a stitch is not executing (R163, R165, R168). -/
inductive RunState where
  | idle
  | running
  | blocked
  | halted
  /-- Table 7.3 code and instruction address -/
  | faulted (code addr : Nat)
  deriving DecidableEq, Repr

/-- An active loop (R170): its own address, its end address, and the iterations remaining after this one. -/
structure LoopRec where
  start : Nat
  stop : Nat
  left : Nat
  deriving DecidableEq, Repr

/-- One stitch (R134, Table 6.1). Stores, registers and tiles are sparse: what is not listed is zero, and an
instruction word not listed is HALT (R188) once the panel is loaded. -/
structure Stitch where
  pc : Nat := 0
  run : RunState := .idle
  /-- instruction words by address -/
  code : Tbl (BitVec 64) := []
  /-- data-store bytes -/
  ds : Tbl Byte := []
  /-- s1 to s31 -/
  sregs : Tbl (BitVec 32) := []
  /-- v0 to v7, 32 lanes each: keyed 32 * v + lane -/
  vregs : Tbl (BitVec 32) := []
  /-- accumulators: keyed 1024 * tile + 32 * j + t -/
  acc : Tbl (BitVec 32) := []
  active : WeightSet := {}
  shadow : WeightSet := {}
  /-- sticky SAT flags of the tiles, and NAN_LOST (R184) -/
  sat : BitVec 4 := 0
  nanLost : Bool := false
  lfsr : BitVec 32 := 0
  loops : List LoopRec := []
  /-- transfers already made by the instruction at pc (R163) -/
  transfers : Nat := 0
  /-- bus participations completed (R174) -/
  busNext : Nat := 0
  /-- the bus write data offered or the read taken: the stitch waits in an STR instruction -/
  busWait : Bool := false
  deriving DecidableEq, Repr

/-- A bus slot (R140): its writer and its readers, numbered as in R190. -/
structure BusSlot where
  writer : Nat
  readers : List Nat
  deriving DecidableEq, Repr

/-- A course bus: its slot list and the slot holding the token. -/
structure Bus where
  slots : List BusSlot := []
  token : Nat := 0
  deriving DecidableEq, Repr

/-- A stream transfer record (R191, Table 7.15). -/
structure Transfer where
  vaddr : Nat
  lines : Nat
  repeats : Nat
  stride : Int
  write : Bool
  course : Nat
  deriving DecidableEq, Repr

/-- A line of a stream port's current work: pool address, and its data once it is there. -/
structure PortLine where
  addr : Nat
  /-- the transfer it belongs to, and its place among the lines the transfer covers -/
  xfer : Nat
  idx : Nat
  data : Option (List Byte) := none
  deriving DecidableEq, Repr

/-- One stream port (R141 to R147). -/
structure StreamPort where
  list : List Transfer := []
  /-- index of the transfer whose lines are issued next, and the next line within it -/
  issueXfer : Nat := 0
  issueLine : Nat := 0
  /-- reads issued or returned and not consumed, in transfer order (the read FIFO's slots) -/
  reads : List PortLine := []
  /-- the transfer the course bus consumes or fills, and lines done in it -/
  busXfer : Nat := 0
  busLine : Nat := 0
  /-- write-buffer lines not yet written -/
  writes : List PortLine := []
  level : Nat := 0
  written : Nat := 0
  deriving DecidableEq, Repr

/-- A panel (R160, Table 6.15). -/
structure Panel where
  state : Nat := 0
  owner : Nat := 0
  uncorr : Nat := 0
  /-- retire once its job has ended (R205) -/
  retireWish : Bool := false
  job : Option Nat := none
  deriving DecidableEq, Repr

/-- The Knit array (chapter 6). Entities not listed are in their reset state. -/
structure KnitSt where
  stitches : Tbl Stitch := []
  /-- entries of outbound channels, keyed 4 * stitch + direction: 32-byte transfers, oldest first -/
  channels : Tbl (List (List Byte)) := []
  /-- declared outbound channels, keyed alike -/
  declared : List Nat := []
  buses : Tbl Bus := []
  ports : Tbl StreamPort := []
  panels : Tbl Panel := []
  /-- panels blown off by fuse or held off by profile are OFF -/
  progressAt : Nat := 0
  /-- when a stitch last completed a MAC step (Table 6.13) -/
  lastMac : Option Nat := none
  deriving DecidableEq, Repr

/-- A segment record (R197, Table 8.1). -/
structure Segment where
  vbase : Nat
  length : Nat
  poolBase : Nat
  rights : Nat
  attr : Nat
  deriving DecidableEq, Repr

/-- A compute context (R196): its owner and its valid slots. -/
structure Context where
  owner : Nat
  slots : Tbl Segment := []
  deriving DecidableEq, Repr

/-- A job (R200 to R213). `stage` 0 queued, 2 running. -/
structure Job where
  owner : Nat
  ring : Nat
  idx : Nat
  ctx : Nat
  panels : Nat
  flags : Nat
  stockId : Nat
  argLen : Nat
  imageAddr : Nat
  imageLen : Nat
  seed : Nat
  argAddr : Nat
  limitMs : Nat
  stage : Nat := 0
  mask : List Nat := []
  startAt : Nat := 0
  progressAt : Nat := 0
  lastWrite : Nat := 0
  /-- extents of private segments and the frames they were resolved to (R208) -/
  frames : List (Nat × Nat) := []
  /-- the image's CONTIG flag, and the owner's quota at admission (R203, R214) -/
  contig : Bool := false
  quota : Nat := 0
  /-- the arguments its stitches received; from its start on, `seed` is the seed in force (R201) -/
  args : List Byte := []
  deriving DecidableEq, Repr

/-- Contexts, jobs and the dispatch queue (chapter 8). -/
structure JobsSt where
  contexts : Tbl Context := []
  jobs : Tbl Job := []
  /-- job IDs in admission order -/
  queue : List Nat := []
  /-- ABORTs waiting for their target to be fetched (R212): ring, index of the ABORT -/
  abortWaits : List (Nat × Nat) := []
  /-- ABORTs that have won, waiting for their target's record to be written (R213): ring and index of the ABORT, and of its target -/
  abortEnds : List (Nat × Nat × Nat × Nat) := []
  deriving DecidableEq, Repr

/-- A lookup in progress in a GRU (R217, R220, R221). -/
structure Lookup where
  gru : Nat
  caller : Caller
  node : Nat
  base : Nat
  rowBytes : Nat
  stride : Nat
  pool : Nat
  inFmt : Nat
  outFmt : Nat
  idx : List Nat
  weights : List (BitVec 32)
  outAddr : Nat := 0
  /-- lists still to be read: count, INDEX_ADDR, WEIGHT_ADDR, and when (R220) -/
  lists : Option (Nat × Nat × Nat) := none
  listsAt : Nat := 0
  /-- rows not yet read, by list position -/
  left : List Nat
  acc : List (BitVec 32) := []
  /-- rows pooled so far -/
  seen : Nat := 0
  /-- reads answered RETRY and to be reissued: list position and when (R221) -/
  reissue : List (Nat × Nat) := []
  /-- skein misses met: the largest hint (R221) -/
  missHint : Option Nat := none
  /-- the first failing row: position and status -/
  failed : Option (Nat × Nat) := none
  deriving DecidableEq, Repr

/-- The gather-reduce units (chapter 9). -/
structure GruSt where
  lookups : Tbl Lookup := []
  nextLookup : Nat := 0
  /-- the LFSR of each GRU (R227), a free value once loaded -/
  lfsr : Tbl (BitVec 32) := []
  deriving DecidableEq, Repr

/-- A translation context (R240). -/
structure Xctx where
  port : Nat
  service : Nat
  faultPath : Nat
  pasid : Nat
  pasidEn : Bool
  root : Nat
  deriving DecidableEq, Repr

/-- A translation-cache entry (R241): context, page base and size, host address, permissions. -/
structure XEntry where
  ctx : Nat
  page : Nat
  size : Nat
  host : Nat
  read : Bool
  write : Bool
  deriving DecidableEq, Repr

/-- A descriptor a mover works on or a fault record holds (R236 to R238, R372). `kind` 0 COPY, 1 FILL (src is its
PATTERN, srcKind 3), 2 SEAL_LOAD. `phase` 0 translating, 1 reading, 2 writing. -/
structure MoverWork where
  ring : Nat
  idx : Nat
  node : Nat
  kind : Nat
  src : Nat
  dst : Nat
  length : Nat
  srcKind : Nat
  dstKind : Nat
  srcNode : Nat
  dstNode : Nat
  xctx : Nat
  stash : Bool := false
  target : Nat := 0
  chunkBase : Nat := 0
  /-- source bytes of finished steps, and destination bytes written by finished steps or chunks -/
  offset : Nat := 0
  dstDone : Nat := 0
  phase : Nat := 0
  /-- bytes read and not yet written -/
  buffer : List Byte := []
  /-- bytes of the buffer written -/
  wrote : Nat := 0
  srcHost : Nat := 0
  dstHost : Nat := 0
  /-- translation wanted: side 0 source, 1 destination; failed rounds of its fault (R244) -/
  wantSide : Nat := 0
  rounds : Nat := 0
  retryAt : Option Nat := none
  /-- keeps its mover until a fault record can take it (R243) -/
  stuck : Bool := false
  /-- messages of a client's read transfer, by index -/
  parts : Tbl Msg := []
  deriving DecidableEq, Repr

/-- A walk in progress (R242): level 4 down to 1 and the table's address. -/
structure Walk where
  level : Nat
  table : Nat
  va : Nat
  write : Bool
  allW : Bool := true
  retryAt : Option Nat := none
  /-- none of the 16 walkers is free for it yet (R241) -/
  waiting : Bool := false
  deriving DecidableEq, Repr

/-- A mover (R238): its work, the walk serving it, and whether an ATS request is out. -/
structure Mover where
  work : Option MoverWork := none
  walk : Option Walk := none
  atsOut : Bool := false
  /-- the outstanding translation was overtaken by an invalidation (R248) -/
  stale : Bool := false
  deriving DecidableEq, Repr

/-- An open fault record (R243). -/
structure FaultRec where
  ctx : Nat
  page : Nat
  /-- the access needed: read, write or both -/
  read : Bool
  write : Bool
  waiters : List MoverWork
  path : Nat
  /-- the port that owned the context as the record was opened -/
  port : Nat
  /-- none while it waits for the PRI allocation (R244); once raised, until when its resolution may come (R254) -/
  raised : Option Nat
  deriving DecidableEq, Repr

/-- PRI of one port (R244). -/
structure PriSt where
  enabled : Bool := false
  stopped : Bool := false
  allocation : Nat := 0
  deriving DecidableEq, Repr

/-- An invalidation in progress (R248): movers and walks still to acknowledge. -/
structure Invalidation where
  caller : Option Caller
  port : Nat
  removed : Nat
  movers : List Nat
  deriving DecidableEq, Repr

/-- A TIER_HINT descriptor in progress (R253): the skeins it works on and is not done with, those it cannot begin with yet, and all
that it handles. -/
structure TierHint where
  ring : Nat
  idx : Nat
  left : List Nat
  todo : List Nat := []
  total : Nat
  deriving DecidableEq, Repr

/-- The movers and the tiering counters (chapter 10). -/
structure MovSt where
  xctx : Tbl Xctx := []
  cache : List XEntry := []
  movers : Tbl Mover := []
  /-- started COPY and FILL descriptors that no mover has yet -/
  waitingWork : List MoverWork := []
  faults : Tbl FaultRec := []
  pri0 : PriSt := {}
  pri1 : PriSt := {}
  invs : Tbl Invalidation := []
  nextInv : Nat := 0
  /-- access counters of cached skeins, by skein number extent * 512 + skein (R249) -/
  counters : Tbl Nat := []
  /-- the miss sketch: row * 65536 + index (R250) -/
  sketch : Tbl Nat := []
  nextDecay : Nat := 0
  hints : List TierHint := []
  deriving DecidableEq, Repr

/-- A queue pair of a drive (R258): queue 0 is the admin pair; its entries, the carve-out frame it lies in, its MSI-X vector, and for the
admin pair none. -/
structure QueuePair where
  queue : Nat
  entries : Nat
  frame : Nat
  vector : Option Nat
  deriving DecidableEq, Repr

/-- A drive (R255, R256, Table 11.7). The namespace, LBA size and slots are those of its adoption. -/
structure Drive where
  state : Nat
  port : Nat
  rid : Nat
  nsid : Nat := 0
  lba : Nat := 0
  slots : Nat := 0
  serial : Nat := 0
  usable : Bool := true
  link : Nat := 0x46
  queues : Nat := 1
  spaces : List NsInfo := []
  /-- its controller is enumerated -/
  present : Bool := true
  pairs : List QueuePair := []
  fails : Nat := 0
  /-- the last 64 fetch times in ticks, newest first (R262) -/
  times : List Nat := []
  deriving DecidableEq, Repr

/-- A cached skein (R262, R264). `state` 0 fetching, 1 resident, 2 writing back for demotion, 3 writing back to stay. -/
structure Skein where
  slot : Nat
  state : Nat
  dirty : Bool := false
  /-- the write-back in progress was overtaken by a write (R252) -/
  cancelled : Bool := false
  promote : Bool := false
  /-- the SEQ of its residency record, and whether it has been read and waits for the partner (R312) -/
  owed : Option Nat := none
  ready : Bool := false
  deriving DecidableEq, Repr

/-- An NVMe command (R257, R263, R264). `kind` 0 Read, 1 Write, 2 Flush, 3 deallocate, 4 log page, whose number stands in `slot`,
5 the read of a copy, 6 its write. It waits in order while the drive's queues are full (R258); once sent it counts as failed at its deadline
(R269). -/
structure NvmeCmd where
  drive : Nat
  kind : Nat
  skein : Nat := 0
  slot : Nat := 0
  attempt : Nat := 0
  issued : Nat := 0
  caller : Option Caller := none
  sent : Bool := false
  deadline : Nat := 0
  deriving DecidableEq, Repr

/-- A FAR_FLUSH, DRIVE_RETIRE or DRIVE_ADOPT in progress. `stage` 0 writing back, 1 moving extents, 2 flushing,
3 deallocating; `cmds` the NVMe commands it waits for. -/
structure FarOp where
  ring : Nat
  idx : Nat
  /-- the drive of a DRIVE_RETIRE or DRIVE_ADOPT -/
  drive : Option Nat := none
  adopt : Bool := false
  stage : Nat := 0
  skeins : List Nat := []
  drives : List Nat := []
  done : Nat := 0
  bad : Bool := false
  cmds : List Nat := []
  deriving DecidableEq, Repr

/-- An extent being copied between drives (R265, R266): from slot `srcSlot` of drive `src` to slot `slot` of `targets`,
skein by skein, after which it has the DRIVE, DRIVE2 and SLOT given. -/
structure FarMove where
  ext : Nat
  src : Nat
  srcSlot : Nat
  targets : List Nat
  drive : Nat
  drive2 : Nat
  slot : Nat
  /-- under a migration fence -/
  fenced : Bool
  skein : Nat := 0
  deriving DecidableEq, Repr

/-- The far tier (chapter 11). -/
structure FarSt where
  /-- adopted drives by number, found ones at 32 and above -/
  drives : Tbl Drive := []
  nextFound : Nat := 32
  /-- the root ports DN0 to DN3 whose link is up: rate code 1 to 6 and width (R255) -/
  dn : Tbl (Nat × Nat) := []
  /-- cached skeins by skein number -/
  cached : Tbl Skein := []
  /-- what the drives hold, as the plaintext that was encrypted: key (drive * 2^19 + slot) * 2^25 + byte (log entry 13) -/
  media : List Host.Cell := []
  /-- the tweak each 4,096-byte unit of the media was encrypted with, by key / 4096 (R261) -/
  tweaks : Tbl Nat := []
  cmds : Tbl NvmeCmd := []
  nextCmd : Nat := 0
  ops : List FarOp := []
  moves : List FarMove := []
  /-- fetches begun that wait for a skein slot (R262), and whether a hint promotes the skein -/
  wanted : List (Nat × Bool) := []
  /-- skeins whose demotion waits for the lines their caching agents own -/
  demoting : List Nat := []
  /-- skeins fetched again since a stack failed: their lines are served though they lie on it (Table 2.14) -/
  refetched : List Nat := []
  deriving DecidableEq, Repr

/-- A sent cell in the replay buffer (R280): its sequence number, that of its message's first cell, the message, and the port by which that
came into the router (R296). -/
structure SentCell where
  seq : Nat
  first : Nat
  input : Nat
  m : Msg
  deriving DecidableEq, Repr

/-- A Glador link (R273 to R289). -/
structure Link where
  state : Nat := 0
  reason : Nat := 0
  width : Nat := 0
  rate : Nat := 0
  lanes : Nat := 0
  encrypted : Bool := false
  rttNs : Nat := 0
  peerRole : Nat := 0
  peerClass : Nat := 0
  peerNode : Nat := 0
  /-- a training failed since the last ACTIVE (R273) -/
  failedOnce : Bool := false
  stepAt : Nat := 0
  /-- receive side: E, last ACK_SEQ sent, acceptances not covered and since when, REPLAY sent and when -/
  expected : Nat := 0
  uncovered : Nat := 0
  uncoveredAt : Nat := 0
  replaySent : Option Nat := none
  /-- message cells accepted and not yet a whole message, per virtual channel; input-buffer cells used -/
  partial0 : List Cell := []
  partial1 : List Cell := []
  /-- cells of no message have come since the last whole one, per virtual channel: a body outside a message (R86) -/
  stray0 : Bool := false
  stray1 : Bool := false
  used0 : Nat := 0
  used1 : Nat := 0
  xoff0 : Bool := false
  xoff1 : Bool := false
  /-- send side -/
  nextSeq : Nat := 0
  oldest : Nat := 0
  oldestAt : Nat := 0
  replay : List SentCell := []
  /-- the last replay pass: when, from where, and how many consecutive ones -/
  passAt : Nat := 0
  passStart : Nat := 0
  passes : Nat := 0
  peerXoff0 : Bool := false
  peerXoff1 : Bool := false
  /-- GL_LINK_CTL as the training in progress or last made took it (R272) -/
  ctl : Nat := 0
  /-- the STAMPs sent in this training, and the round trips measured, in ticks (R274) -/
  stamps : List Nat := []
  trips : List Nat := []
  /-- encryption: nonces and salts sent and received, the session keys of each direction, GROUP of each direction, the open group's link
  fields and ciphertext, held cells, AUTH failures -/
  nonce : Nat := 0
  salt : Nat := 0
  peerNonce : Nat := 0
  peerSalt : Nat := 0
  sendGroup : Nat := 0
  recvGroup : Nat := 0
  sendKey : List Byte := []
  recvKey : List Byte := []
  openGroup : Nat := 0
  groupFirst : Nat := 0
  groupFields : List Byte := []
  groupText : List Byte := []
  heldCells : List Cell := []
  /-- a cell of the group coming in failed its CRC: the rest of that group is discarded (R288) -/
  groupBad : Bool := false
  authFails : Nat := 0
  brokenAt : Nat := 0
  /-- transmitter lowered in Bank (R388) -/
  lowered : Bool := false
  deriving DecidableEq, Repr

/-- A message queued at a router output (R294). -/
structure Queued where
  input : Nat
  m : Msg
  at_ : Nat
  /-- re-injected, ahead of those not started (R296) -/
  ahead : Bool := false
  deriving DecidableEq, Repr

/-- The router (chapter 13). -/
structure RouterSt where
  /-- messages LOCAL has handed over, oldest first -/
  localq : List Msg := []
  /-- output queues by port, oldest first -/
  queues : Tbl (List Queued) := []
  /-- messages accepted on links and waiting for their lookup: port and message -/
  inputs : List (Nat × Msg) := []
  /-- requests delivered to LOCAL and not yet taken by a home -/
  delivered : List Msg := []
  fenced : List Nat := []
  /-- RT_FENCE_CMD in progress: fence?, node -/
  fenceCmd : Option (Bool × Nat) := none
  lastNode : Nat := 0
  fenceEpoch : Nat := 0
  /-- refusals of the ingress filters per port, RT_IGF_DROP (R42) -/
  igfDrop : Tbl Nat := []
  /-- reach masks keyed group * 32 + output -/
  reach : Tbl Nat := []
  deriving DecidableEq, Repr

/-- A descriptor's completion waiting for the partner's acknowledgement (R310). -/
structure Completion where
  ring : Nat
  idx : Nat
  st : Nat
  det : Nat
  result : Nat
  progress : Nat
  deriving DecidableEq, Repr

/-- A replication record sent and not acknowledged (R310). -/
structure RepRec where
  seq : Nat
  epoch : Nat
  link : Nat
  m : Msg
  /-- the response, and the descriptor completions, that its acknowledgement releases -/
  release : Option Msg := none
  completes : List Completion := []
  deriving DecidableEq, Repr

/-- The run of records that carry one operation so far (R309, R314): its opcode, requester and tag, the first address, the
one that continues it, and the CRC-32C of its bytes. -/
structure RepRun where
  op : Nat
  origin : Nat
  otag : Nat
  first : Nat
  next : Nat
  crc : Nat
  deriving DecidableEq, Repr

/-- The mirror (chapter 14). -/
structure MirrorSt where
  role : Nat := 0
  phase : Nat := 0
  cause : Nat := 0
  term : Nat := 0
  extentsLeft : Nat := 0
  carrying : List Nat := []
  /-- SEQ of the next record, from 1 on; the highest one applied -/
  nextSeq : Nat := 1
  unacked : List RepRec := []
  applied : Nat := 0
  /-- records received ahead of a gap -/
  ahead : List Msg := []
  /-- digest items by epoch, in SEQ order (R314) -/
  items : Tbl (List (List Byte)) := []
  /-- digests received by epoch -/
  peerDigests : Tbl (Nat × Nat) := []
  missed : Nat := 0
  heldEpochs : List Nat := []
  handover : Bool := false
  handoverDue : Bool := false
  /-- start records without a completion (R318): ring, DESC_ID, opcode, completion ring -/
  starts : List (Nat × Nat × Nat × Nat) := []
  run : Option RepRun := none
  /-- an Active in ALONE whose partner is in COPY (R319) -/
  copying : Bool := false
  /-- the next epoch to send a DIGEST of, and the first that may still be counted missed -/
  digestNext : Nat := 0
  missedNext : Nat := 0
  /-- the one forward step of the timebase at pairing or COPY is due (R321) -/
  stepDue : Bool := false
  lastStamp : Nat := 0
  alignNs : Int := 0
  deriving DecidableEq, Repr

/-- An access queued at a stack controller (R334). `kind` 0 read, 1 write; its class follows from its
source and its age (Table 15.5). -/
structure Access where
  id : Nat
  /-- stack line address -/
  a : Nat
  /-- pool address of the line -/
  addr : Nat := 0
  kind : Nat
  /-- 0 home or engine, 1 stream port, 2 background -/
  source : Nat
  /-- stream port number -/
  port : Nat := 0
  origin : Nat := 0xFFF
  arrived : Nat
  deriving DecidableEq, Repr

/-- A row-tracker entry (R342, R344). -/
structure RowTrack where
  row : Nat
  count : Nat
  candidate : Nat
  votes : Nat := 1
  deriving DecidableEq, Repr

/-- A throttle (R344). -/
structure Throttle where
  origin : Nat
  bank : Nat
  row : Nat
  expiry : Nat
  lastAct : Nat
  deriving DecidableEq, Repr

/-- One stack and its controller (chapter 15). Banks are numbered 64 * PC + bank. -/
structure Stack where
  state : Nat := 0
  cause : Nat := 0
  tempC : Nat := 40
  /-- when the temperature was read last (R337) -/
  tempAt : Nat := 0
  therm : Nat := 0
  marginQ : Nat := 4
  modeNow : Nat := 0
  unreadableSince : Option Nat := none
  queue : List Access := []
  /-- refreshes owed per bank -/
  owed : Tbl Nat := []
  /-- ranks in power-down, numbered 4 * PC + SID -/
  down : List Nat := []
  trackers : Tbl (List RowTrack) := []
  /-- mitigations of a row in this refresh window, keyed bank * 32768 + row (R344) -/
  mitigated : Tbl Nat := []
  throttles : List Throttle := []
  /-- rows with uncorrectable errors and when (R331) -/
  ueRows : List (Nat × Nat) := []
  badCommands : Nat := 0
  /-- what the stack has moved in the last 1 µs: when, and how many bytes (R384) -/
  moved : List (Nat × Nat) := []
  deriving DecidableEq, Repr

/-- The six stacks. -/
structure StacksSt where
  units : Tbl Stack := []
  nextAccess : Nat := 0
  deriving DecidableEq, Repr

/-- Error correction and scrubbing (chapter 16). -/
structure EccSt where
  /-- stored codewords that are not the normal encoding of the line's memory bytes, by near-tier line number (frame * 2^19 +
  line): the 72 symbols -/
  odd : Tbl (List Byte) := []
  /-- DEMAND write-backs queued: near-tier line number to its place, stack * 2^32 + A -/
  writeBacks : Tbl Nat := []
  /-- scrub position per stack -/
  pos : Tbl Nat := []
  /-- corrected lines of a row in this scrub pass, keyed stack * 2^32 + bank * 32768 + row (R356) -/
  rowCorr : Tbl Nat := []
  castonRows : Tbl Nat := []
  deriving DecidableEq, Repr

/-- An event entry (R418, Table 20.2). -/
structure Event where
  time : Nat
  source : Nat
  origin : Nat := 0xFFF
  code : Nat := 0
  status : Nat := 0
  flags : Nat := 0
  arg0 : Nat := 0
  arg1 : Nat := 0
  deriving DecidableEq, Repr

/-- The journal and its writer (R419). -/
structure EvtSt where
  /-- the last 65,536 entries, by journal index -/
  journal : Tbl Event := []
  head : Nat := 0
  /-- held entries of the writer, in the order of R416 -/
  held : List Event := []
  /-- the always-on buffer (R419) -/
  buffer : List Event := []
  lost : Bool := false
  /-- nodes whose EVENT entries were dropped (R96) -/
  eventDrops : Nat := 0
  deriving DecidableEq, Repr

/-- A running handler of a core (R423): input, fast, priority. -/
structure Handler where
  input : Nat
  fast : Bool
  prio : Nat
  deriving DecidableEq, Repr

/-- The core-side interrupt state of one control core (R424 to R426). -/
structure CoreSt where
  pc : Nat := 0
  /-- innermost first -/
  handlers : List Handler := []
  /-- inputs to be taken again at once (R426) -/
  again : List Nat := []
  /-- the fast bank of 16 registers (R425) -/
  fastBank : List Nat := List.replicate 16 0
  deriving DecidableEq, Repr

/-- A board input (R427, R428). -/
structure BoardInput where
  latched : Bool := false
  edgeAt : Nat := 0
  rearmAt : Nat := 0
  deriving DecidableEq, Repr

/-- The interrupt distributor (R422 to R428). -/
structure IrqSt where
  /-- input states (Table 20.4), 0 not listed -/
  state : Tbl Nat := []
  cores : Tbl CoreSt := []
  inputs : Tbl BoardInput := []
  deriving DecidableEq, Repr

/-- Counters (R430, R431) and sampling (R434). -/
structure PerfSt where
  counts : Tbl Nat := []
  ovf : List Nat := []
  /-- keyed requester * 8 + counter -/
  requester : Tbl Nat := []
  sampleMs : Nat := 0
  sampleCount : Nat := 0
  deriving DecidableEq, Repr

/-- One-way fuses (R362): a fuse is blown and never restored. -/
structure Fuses where
  decommissioned : Bool := false
  openBarred : Bool := false
  knitDisabled : Bool := false
  provisioned : Bool := true
  /-- SVN fuses blown, in [0, 64] -/
  svn : Nat := 0
  /-- top-tree leaf fuses blown (R365), in [0, 32768] -/
  topUsed : Nat := 0
  deriving DecidableEq, Repr

/-- A registered pattern key (R380). -/
structure PatternKey where
  owner : Nat
  slot : Nat
  /-- the 60-byte HSS public key -/
  key : List Byte
  deriving DecidableEq, Repr

/-- An ATTEST waiting (R366). -/
structure AttestReq where
  ring : Nat
  idx : Nat
  since : Nat
  deriving DecidableEq, Repr

/-- A firmware slot (R367): of the image in it, DIGEST and the digests of its loader and its runtime, empty where it is the one the part
came with. -/
structure FwSlot where
  valid : Bool
  svn : Nat
  digest : List Byte := []
  loader : List Byte := []
  runtime : List Byte := []
  deriving DecidableEq, Repr

/-- The security core (chapter 17). `state` 0 Factory, 1 Shared, 2 Sealing, 3 Sealed, 4 Unsealing,
5 Decommissioned. -/
structure SecSt where
  state : Nat := 1
  debugLevel : Nat := 0
  debugExpiry : Nat := 0
  debugOpened : Bool := false
  keyState : Nat := 0
  tenantLo : Nat := 0
  tenantHi : Nat := 0
  sealFlags : Nat := 0
  sealNonce : List Byte := []
  tenantKey : List Byte := []
  weightKey : List Byte := []
  keys : List PatternKey := []
  debugNonce : List Byte := []
  lowerTree : Bool := false
  lowNext : Nat := 0
  attests : List AttestReq := []
  lastSign : Nat := 0
  slotA : FwSlot := { valid := true, svn := 0 }
  slotB : FwSlot := { valid := false, svn := 0 }
  activeSlot : Nat := 0
  staged : Bool := false
  runningSvn : Nat := 0
  /-- whose UNSEAL waits for the bind-off -/
  unsealer : Option Caller := none
  deriving DecidableEq, Repr

/-- Power and clocks (chapter 18). `state` is that of Table 18.2: 0 Cold, 1 Run, 2 Bank, 3 Ember, 4 ENTERING, 5 WAKING. -/
structure PowerSt where
  state : Nat := 0
  profile : Nat := 0
  /-- damper holds: what is left of their depth, in sixteenths, and when the next sixteenth may be released (R393) -/
  depth : Nat := 0
  releaseAt : Nat := 0
  /-- when the last damper event was written (R403) -/
  dampEvent : Option Nat := none
  alert : Bool := false
  throttle : Bool := false
  faultBit : Bool := false
  wakeSrc : Nat := 0
  junction : Nat := 0
  watts : Nat := 0
  vcoreMv : Nat := 0
  vsramMv : Nat := 0
  /-- entry in progress: target state, since, timer ms, caller -/
  entry : Option (Nat × Nat × Nat × Caller) := none
  /-- whether the entry's ENTRY_MS has passed (R387) -/
  entryLate : Bool := false
  wakeAt : Option Nat := none
  /-- a wake source latched during entry (R387), 0 none -/
  wakeDue : Nat := 0
  wakeFrom : Nat := 0
  /-- POWER_STATE, PROFILE_SET and AGE_PLAN descriptors in the order they started (R385, R407): ring, index -/
  queue : List (Nat × Nat) := []
  /-- links the profile does not power (R383) -/
  linksOff : List Nat := []
  /-- PM_REG entries in force, which a write changes at the next Ember wake (R404) -/
  regsNow : Tbl Nat := []
  /-- rails other than the required ones whose regulator failed: the interfaces on them are disabled (R396) -/
  railFaults : List Nat := []
  /-- THERMTRIP_N asserted (R397) -/
  tripped : Bool := false
  /-- power-fault stop (R396, R474) -/
  powerFault : Bool := false
  txOff : Bool := false
  rootLocked : Bool := false
  tbFromRef : Bool := true
  oscWait : Nat := 0
  oscAt : Nat := 0
  oscDone : Bool := false
  aonGood : Bool := false
  /-- island divisors in force (R400), keyed by island: not listed, gated; and when each last changed -/
  divisors : Tbl Nat := []
  rampAt : Tbl Nat := []
  deriving DecidableEq, Repr

/-- A margin plan as its record holds it (R411, Table 19.3): outputs, what triggered it, and the readings of its period. -/
structure Plan where
  version : Nat := 0
  poh : Nat := 0
  trigger : Nat := 0
  policy : Nat := 0
  coreGb : Nat := 0
  sramGb : Nat := 0
  knitCap : Nat := 0
  /-- refresh quarters of the six stacks -/
  refQ : List Nat := [4, 4, 4, 4, 4, 4]
  retrainLinks : Nat := 0
  retrainPcie : Nat := 0
  ringPpm : Nat := 0
  vmin : Nat := 0
  canaryMax : Nat := 0
  eyeMin : Nat := 0
  rise : Nat := 0
  deriving DecidableEq, Repr

/-- Margins (R409): guardbands in mV, the Knit cap in MHz, refresh quarters by stack. -/
structure Margins where
  coreGb : Nat := 0
  sramGb : Nat := 0
  knitCap : Nat := 0
  refQ : List Nat := [4, 4, 4, 4, 4, 4]
  deriving DecidableEq, Repr

/-- Ageing (chapter 19). -/
structure AgeSt where
  /-- the plan installed last -/
  plan : Plan := {}
  /-- margins that may take effect, and those in force (R409) -/
  aim : Margins := {}
  force : Margins := {}
  pending : Bool := false
  exhausted : Bool := false
  /-- a scheduled plan fell due in Bank or Ember (R407) -/
  planDue : Bool := false
  /-- the start-up plan is still to be computed (R412) -/
  startPlan : Bool := false
  retrainDue : List Nat := []
  /-- the link being retrained, and when the next retraining may start (R410) -/
  retraining : Option Nat := none
  retrainNext : Nat := 0
  /-- power-on hours, and the timebase at the last whole hour -/
  pohHours : Nat := 0
  pohAt : Nat := 0
  /-- latest readings by gauge instance, and the worst of the planning period (R406, R414) -/
  raw : Tbl Nat := []
  worst : Tbl Nat := []
  /-- boot flash: the two record copies and the hour count (R412) -/
  copy0 : Option Plan := none
  copy1 : Option Plan := none
  flashPoh : Nat := 0
  deriving DecidableEq, Repr

/-- Start-up and reset (chapter 21). -/
structure BootSt where
  /-- Table 21.6 -/
  phase : Nat := 0
  ready : Bool := false
  stop : Nat := 0
  lastStop : Nat := 0
  /-- PERST# asserted per port; a deassertion is a START_UP -/
  perst0 : Bool := true
  perst1 : Bool := true
  /-- TEST_EN sampled at point 0 (R437) -/
  testEn : Bool := false
  nodeId : Nat := 0
  stacksUp : List Nat := []
  d2dOff : List Nat := []
  flueOff : List Nat := []
  /-- components in partial reset and since when -/
  inReset : List (Nat × Nat) := []
  /-- components whose partial reset failed for good: gather-reduce units 9, movers 10 (Table 21.9) -/
  dead : List Nat := []
  /-- PCIe ports a loopback has taken out of service: UP0 0, UP1 1, DN0 to DN3 2 to 5 (R460) -/
  dnDown : List Nat := []
  deriving DecidableEq, Repr

/-- Test features (chapter 23). -/
structure TestSt where
  /-- loopback running: kind, depth, index, end time, starting port -/
  loopback : Option (Nat × Nat × Nat × Nat × Nat) := none
  lbResult : Nat := 0
  lbReason : Nat := 0
  lbErrors : Nat := 0
  lbChecked : Nat := 0
  bist : Option Nat := none
  bistResult : Nat := 0
  bistFails : Nat := 0
  /-- JTAG: the instruction in force, by code -/
  ir : Nat := 0x01
  /-- the stack whose wrapper instruction register is selected (R464) -/
  wrapper : Option Nat := none
  /-- what the instruction does to the pins: 0 nothing, 1 boundary cells drive, 2 high impedance, 3 clamped -/
  pins : Nat := 0
  deriving DecidableEq, Repr

/-- The device. -/
structure Dev where
  now : Nat := 0
  free : Nat := 0
  out : List Out := []
  /-- BAR0 registers by offset of their 32-bit word (64-bit ones by their lower word), UP1's port-local copies at
  + 0x200_0000; not listed ones hold their reset value -/
  regs : Tbl Nat := []
  /-- held lower halves (R9), keyed requester * 2^32 + offset -/
  halves : Tbl Nat := []
  /-- near-tier bytes by frame * 2^25 + offset; not listed ones are zero -/
  mem : List Host.Cell := []
  /-- poisoned near-tier lines by frame * 2^19 + line -/
  poison : List Nat := []
  pool : PoolSt := {}
  host : HostSt := {}
  fab : FabricSt := {}
  coh : CohSt := {}
  knit : KnitSt := {}
  jobs : JobsSt := {}
  gru : GruSt := {}
  mov : MovSt := {}
  far : FarSt := {}
  links : Tbl Link := []
  router : RouterSt := {}
  mir : MirrorSt := {}
  stk : StacksSt := {}
  ecc : EccSt := {}
  evt : EvtSt := {}
  irq : IrqSt := {}
  perf : PerfSt := {}
  sec : SecSt := {}
  pm : PowerSt := {}
  age : AgeSt := {}
  boot : BootSt := {}
  test : TestSt := {}
  deriving DecidableEq, Repr

/-- The state: the device, its fuses, and the queue of commands. -/
structure State where
  dev : Dev := {}
  fuse : Fuses := {}
  pending : List Instr := []
  deriving DecidableEq, Repr

/-- The state right after reset: the device before always-on power is good (R392, R437, R472), every register at its
reset value, memory with nothing listed, no command waiting. The values the spec does not give are those of log
entries 2 and 3. -/
def State.reset : State := {}

end Sys2Proof.Machine
end

