-- ==== Sys2Proof/Machine/Ops.lean ====
section
/-! DEFINITION. Named operations every block uses: sparse tables, memory bytes, bit fields and byte order, time, free
values, the outbox, and the lift of a device operation to a command's meaning. A block has no exception entry, so
none stands here. -/

namespace Sys2Proof.Machine

/-- A meaning made of a device operation: the queue and the fuses stay as they are. -/
def liftDev (f : Dev → Dev) (s : State) : Host.Outcome State Fault Refusal :=
  .next { s with dev := f s.dev }

/-- A meaning that may also blow fuses (R362). -/
def liftFuse (f : Fuses → Dev → Fuses × Dev) (s : State) : Host.Outcome State Fault Refusal :=
  .next { s with fuse := (f s.fuse s.dev).1, dev := (f s.fuse s.dev).2 }

/-- A meaning that reads the fuses. -/
def liftRead (f : Fuses → Dev → Dev) (s : State) : Host.Outcome State Fault Refusal :=
  .next { s with dev := f s.fuse s.dev }

/-! ## Sparse tables -/

/-- The entry of key `k`. -/
def tget {α : Type} (t : Tbl α) (k : Nat) : Option α :=
  match t with
  | [] => none
  | (k', v) :: r => if k = k' then some v else if k < k' then none else tget r k

/-- The entry of key `k`, or a default. -/
def tgetD {α : Type} (t : Tbl α) (k : Nat) (d : α) : α := (tget t k).getD d

/-- Store `v` under `k`, keeping keys strictly rising. -/
def tput {α : Type} (t : Tbl α) (k : Nat) (v : α) : Tbl α :=
  match t with
  | [] => [(k, v)]
  | (k', v') :: r =>
    if k < k' then (k, v) :: (k', v') :: r else if k = k' then (k, v) :: r else (k', v') :: tput r k v

/-- Remove the entry of `k`. -/
def tdel {α : Type} (t : Tbl α) (k : Nat) : Tbl α :=
  match t with
  | [] => []
  | (k', v') :: r => if k < k' then (k', v') :: r else if k = k' then r else (k', v') :: tdel r k

/-- Change the entry of `k` if there is one. -/
def tmod {α : Type} (t : Tbl α) (k : Nat) (f : α → α) : Tbl α :=
  match tget t k with
  | some v => tput t k (f v)
  | none => t

/-- Change the entry of `k`, taking a default where there is none. -/
def tupd {α : Type} (t : Tbl α) (k : Nat) (d : α) (f : α → α) : Tbl α := tput t k (f (tgetD t k d))

/-- Keys strictly rising. -/
def keysRise {α : Type} (t : Tbl α) : Bool :=
  match t with
  | [] => true
  | (k, _) :: r => r.all (fun e => k < e.1) && keysRise r

/-- The first pair satisfying `p`. -/
def tfind {α : Type} (t : Tbl α) (p : Nat → α → Bool) : Option (Nat × α) := t.find? fun e => p e.1 e.2

/-- A member of a list of numbers. -/
def nmem (l : List Nat) (k : Nat) : Bool := l.any (· == k)

/-- Add a number once. -/
def nadd (l : List Nat) (k : Nat) : List Nat := if nmem l k then l else k :: l

/-- Remove a number. -/
def ndel (l : List Nat) (k : Nat) : List Nat := l.filter (· != k)

/-! ## Bits and bytes -/

/-- `n` bits of `w` from bit `lo` (R4). -/
def bits (w lo n : Nat) : Nat := w / 2 ^ lo % 2 ^ n

/-- One bit. -/
def bit (w i : Nat) : Bool := w / 2 ^ i % 2 == 1

/-- `w` with `n` bits from `lo` replaced by `v`. -/
def setBits (w lo n v : Nat) : Nat := w - bits w lo n * 2 ^ lo + v % 2 ^ n * 2 ^ lo

/-- A flag as a number. -/
def b2n (b : Bool) : Nat := if b then 1 else 0

/-- The little-endian value of a byte run (R6). -/
def leNat : List Byte → Nat
  | [] => 0
  | b :: r => b.toNat + 256 * leNat r

/-- The `n` little-endian bytes of a number (R6). -/
def natBytes (n v : Nat) : List Byte :=
  match n with
  | 0 => []
  | n + 1 => BitVec.ofNat 8 v :: natBytes n (v / 256)

/-- `n` bytes of a run from byte `i`, zeros past its end. -/
def slice (l : List Byte) (i n : Nat) : List Byte := (l.drop i).take n ++ List.replicate (n - (l.length - i)) 0

/-- The little-endian field of `n` bytes at byte `i` of a structure (R6, R7). -/
def field (l : List Byte) (i n : Nat) : Nat := leNat (slice l i n)

/-- `n` zero bytes. -/
def zeros (n : Nat) : List Byte := List.replicate n 0

/-- A run with `bs` laid over it from byte `i`. -/
def overlay (l : List Byte) (i : Nat) (bs : List Byte) : List Byte :=
  l.take i ++ bs ++ l.drop (i + bs.length)

/-- Number clamped to [lo, hi] (R14 step 3). -/
def clampN (lo hi v : Nat) : Nat := if v < lo then lo else if hi < v then hi else v

/-- Round down to the grain (R14 step 2), then clamp. -/
def clampGrain (g lo hi v : Nat) : Nat := clampN lo hi (v / g * g)

/-! ## Near-tier memory: bytes by frame * 2^25 + offset, unlisted ones zero (R353; log entry 4) -/

/-- Read one byte. -/
def memGet (m : List Host.Cell) (a : Nat) : Byte := tgetD m a 0

/-- Write one byte; a zero is not listed. -/
def memPut (m : List Host.Cell) (a : Nat) (b : Byte) : List Host.Cell :=
  if b = 0 then tdel m a else tput m a b

/-- Read `n` bytes from `a`. -/
def memRead (m : List Host.Cell) (a n : Nat) : List Byte := (List.range n).map fun i => memGet m (a + i)

/-- Write a byte run at `a`. -/
def memWrite (m : List Host.Cell) (a : Nat) : List Byte → List Host.Cell
  | [] => m
  | b :: r => memWrite (memPut m a b) (a + 1) r

/-- The canonical form: addresses strictly rising, no zero listed. -/
def Memory.wf (m : List Host.Cell) : Bool := keysRise m && m.all fun e => e.2 != 0

/-- Write `n` copies of zero. -/
def memZero (m : List Host.Cell) (a n : Nat) : List Host.Cell := m.filter fun e => e.1 < a || a + n ≤ e.1

/-! ## Time: ticks of 1.25 ns (R415) -/

/-- Ticks of `n` microseconds. -/
def usTicks (n : Nat) : Nat := 800 * n

/-- Ticks of `n` milliseconds. -/
def msTicks (n : Nat) : Nat := 800000 * n

/-- Ticks of `n` nanoseconds, rounded up. -/
def nsTicks (n : Nat) : Nat := (4 * n + 4) / 5

/-- Ticks as whole 64 ns units, rounded up, at least 1 and at most 0xFFFF (Table 4.7). -/
def hintUnits (ticks : Nat) : Nat := clampN 1 0xFFFF ((ticks * 10 + 511) / 512)

/-- Move the timebase on to a deadline: a timer's row happens at its deadline or later (R415: never back), by whole steps of 8
while it counts from the reference (R25). -/
def Dev.till (d : Dev) (t : Nat) : Dev :=
  { d with now := if d.pm.tbFromRef then d.now + (t - d.now + 7) / 8 * 8 else max d.now t }

/-! ## Free values and the outbox -/

/-- A fresh number, and the counter advanced (log entry 5). -/
def Dev.draw (d : Dev) : Nat × Dev := (Config.freeNumber d.free, { d with free := d.free + 1 })

/-- `n` fresh bytes (log entry 7). -/
def Dev.drawBytes (d : Dev) (n : Nat) : List Byte × Dev :=
  ((List.range n).map (Config.freeByte d.free), { d with free := d.free + 1 })

/-- The first number from `start` on, cyclically below `n`, that `ok` admits. -/
def cyclicFrom (ok : Nat → Bool) (n start : Nat) : Nat → Option Nat
  | 0 => none
  | k + 1 =>
    let i := (start + (n - (k + 1))) % n
    if ok i then some i else cyclicFrom ok n start k

/-- A free choice among the numbers below `n` that `ok` admits (log entry 5). -/
def Dev.choose (d : Dev) (n : Nat) (ok : Nat → Bool) : Option Nat × Dev :=
  (cyclicFrom ok n (Config.freeChoice d.free % (max n 1)) n, { d with free := d.free + 1 })

/-- Send something out. -/
def Dev.emit (d : Dev) (o : Out) : Dev := { d with out := o :: d.out }

/-- Hand a message to the router from LOCAL (R100, R294). -/
def Dev.sendMsg (d : Dev) (m : Msg) : Dev :=
  { d with out := .msg m :: d.out, router := { d.router with localq := d.router.localq ++ [m] } }

/-- Apply an operation to each item of a list in turn. -/
def forEach {α : Type} (l : List α) (f : α → Dev → Dev) (d : Dev) : Dev :=
  match l with
  | [] => d
  | x :: r => forEach r f (f x d)

/-! ## Where a line lives (R31, R326, R327) -/

/-- The home of a line number ADDR[47:6] (R326, always the six-stack map, R327). -/
def homeOf (line : Nat) : Nat :=
  let e := line / 2 ^ 19
  let i := line % 2 ^ 19
  let r := 4 * e % 6
  8 * ((i + r) % 6) + (i + r) / 6 % 8

/-- The directory set of a line within its home (R121). -/
def setOf (line : Nat) : Nat := Nat.xor (line % 2 ^ 21) (line / 2 ^ 21) % 43690

/-- The global directory set of a line (R121). -/
def globalSet (line : Nat) : Nat := 43690 * homeOf line + setOf line

end Sys2Proof.Machine
end

