-- ==== Sys2Proof/Machine/Float.lean ====
section
/-! DEFINITION. Number formats and exact arithmetic (R148 to R157, R181 to R183, R218, R223): a number is exact, a sign, a
magnitude and a power of two, and is rounded once where a rule says so. -/

namespace Sys2Proof.Machine

/-- A decoded number: NaN, an infinity, or (−1)^neg × m × 2^e. -/
inductive Num where
  | nan
  | inf (neg : Bool)
  | fin (neg : Bool) (m : Nat) (e : Int)
  deriving DecidableEq, Repr

/-- A signed integer times a power of two; a zero takes the sign given. -/
def Num.ofInt (x e : Int) (negZero : Bool) : Num :=
  if x = 0 then .fin negZero 0 0 else .fin (decide (x < 0)) x.natAbs e

/-- Is it zero? -/
def Num.isZero : Num → Bool
  | .fin _ m _ => m == 0
  | _ => false

/-- The sign bit. -/
def Num.neg? : Num → Bool
  | .nan => false
  | .inf n => n
  | .fin n _ _ => n

/-- The value as an integer at the exponent `e0`, which is at most its own. -/
def Num.at : Num → Int → Int
  | .fin n m e, e0 => (if n then -1 else 1) * (m * 2 ^ (e - e0).toNat : Nat)
  | _, _ => 0

/-- The exponent of a finite number; that of zero does not matter. -/
def Num.exp (x : Num) (dflt : Int) : Int :=
  match x with
  | .fin _ m e => if m = 0 then dflt else e
  | _ => dflt

/-- Exact sum. Two zeros of opposite sign, or a cancellation, give +0. -/
def Num.add (a b : Num) : Num :=
  match a, b with
  | .nan, _ => .nan
  | _, .nan => .nan
  | .inf p, .inf q => if p = q then .inf p else .nan
  | .inf p, _ => .inf p
  | _, .inf q => .inf q
  | a, b =>
    let e := min (a.exp (b.exp 0)) (b.exp (a.exp 0))
    if a.isZero && b.isZero then .fin (a.neg? && b.neg?) 0 0
    else if a.isZero then b
    else if b.isZero then a
    else Num.ofInt (a.at e + b.at e) e false

/-- Negation. -/
def Num.negate : Num → Num
  | .nan => .nan
  | .inf p => .inf !p
  | .fin n m e => .fin (!n) m e

/-- Exact product. -/
def Num.mul (a b : Num) : Num :=
  match a, b with
  | .nan, _ => .nan
  | _, .nan => .nan
  | .inf p, .inf q => .inf (p != q)
  | .inf p, .fin n m _ => if m = 0 then .nan else .inf (p != n)
  | .fin n m _, .inf q => if m = 0 then .nan else .inf (q != n)
  | .fin p m e, .fin q k f => .fin (p != q) (m * k) (e + f)

/-- Times 2^k. -/
def Num.scale (a : Num) (k : Int) : Num :=
  match a with
  | .fin n m e => .fin n m (e + k)
  | x => x

/-- a < b; false with a NaN. -/
def Num.lt (a b : Num) : Bool :=
  match a, b with
  | .nan, _ => false
  | _, .nan => false
  | .inf p, .inf q => p && !q
  | .inf p, _ => p
  | _, .inf q => !q
  | a, b => let e := min (a.exp (b.exp 0)) (b.exp (a.exp 0)); decide (a.at e < b.at e)

/-! ## Rounding -/

/-- Rounding modes (R155): nearest even, toward zero, stochastic with 16 bits of noise. -/
inductive Rnd where
  | even
  | zero
  | noise (n : Nat)
  deriving DecidableEq, Repr

/-- m × 2^e in units of 2^u, rounded. -/
def roundAt (r : Rnd) (m : Nat) (e u : Int) : Nat :=
  if u ≤ e then m * 2 ^ (e - u).toNat
  else
    let s := (u - e).toNat
    let q := m / 2 ^ s
    let rest := m % 2 ^ s
    match r with
    | .zero => q
    | .noise n => (m * 2 ^ 16 + n * 2 ^ s) / 2 ^ (s + 16)
    | .even => if 2 ^ s < 2 * rest || (2 * rest == 2 ^ s && q % 2 == 1) then q + 1 else q

/-- The code of a magnitude in a format of `man` mantissa bits whose least unit is 2^umin, before any limit. -/
def magCode (r : Rnd) (man : Nat) (umin : Int) (m : Nat) (e : Int) : Nat :=
  if m = 0 then 0
  else
    let u := max ((Nat.log2 m : Int) + e - man) umin
    (u - umin).toNat * 2 ^ man + roundAt r m e u

/-- FP32 of a number, rounded once to nearest even (R154, R181); every NaN is 0x7FC0_0000. -/
def toF32 (x : Num) : BitVec 32 :=
  match x with
  | .nan => 0x7FC00000#32
  | .inf p => if p then 0xFF800000#32 else 0x7F800000#32
  | .fin p m e =>
    let c := min 0x7F800000 (magCode .even 23 (-149) m e)
    BitVec.ofNat 32 (c + if p then 2 ^ 31 else 0)

/-- A binary format of `ex` exponent and `man` mantissa bits and a bias, all exponents finite (for the formats'
special codes see `ofFmt`). -/
def ofBits (ex man : Nat) (bias : Int) (c : Nat) : Num :=
  let n := bit c (ex + man)
  let e := bits c man ex
  let f := bits c 0 man
  if e = 0 then .fin n f (1 - bias - man) else .fin n (f + 2 ^ man) (e - bias - man)

/-- The number an FP32 pattern stands for. -/
def ofF32 (b : BitVec 32) : Num :=
  let c := b.toNat
  if bits c 23 8 = 255 then if bits c 0 23 = 0 then .inf (bit c 31) else .nan else ofBits 8 23 127 c

/-- Bits of an element of an NFMT format (Table 6.4). -/
def fmtBits (f : Nat) : Nat := ([2, 4, 8, 4, 8, 8, 16, 32, 32].getD f 32)

/-- The format has a block scale (Table 6.4). -/
def fmtScaled (f : Nat) : Bool := f == 0 || f == 3 || f == 4 || f == 5

/-- A two's complement integer of `n` bits. -/
def twos (n c : Nat) : Int := if bit c (n - 1) then (c : Int) - 2 ^ n else c

/-- The number an element code of a format stands for (Table 6.5). -/
def ofFmt (f c : Nat) : Num :=
  if f = 3 then ofBits 2 1 1 c
  else if f = 4 then if c % 128 = 127 then .nan else ofBits 4 3 7 c
  else if f = 5 then
    if bits c 2 5 = 31 then if bits c 0 2 = 0 then .inf (bit c 7) else .nan else ofBits 5 2 15 c
  else if f = 6 then ofF32 (BitVec.ofNat 32 (c * 65536))
  else if f = 7 then ofF32 (BitVec.ofNat 32 c)
  else Num.ofInt (twos (fmtBits f) c) 0 false

/-- An integer code of `n` bits, saturated (R155). -/
def intCode (n : Nat) (p : Bool) (m : Nat) : Nat :=
  if p then if m = 0 then 0 else 2 ^ n - min m (2 ^ (n - 1)) else min m (2 ^ (n - 1) - 1)

/-- An FP32 lane converted to a format under R155: the code and whether a NaN was lost. -/
def toFmt (f : Nat) (r : Rnd) (x : Num) : Nat × Bool :=
  let fp := fun (man : Nat) (umin : Int) (top : Nat) (width : Nat) (p : Bool) (m : Nat) (e : Int) =>
    min top (magCode r man umin m e) + if p then 2 ^ (width - 1) else 0
  match x with
  | .nan => if f = 4 || f = 5 then (0x7F, false) else if f = 6 then (0x7FC0, false) else (0, true)
  | .inf p =>
    (if f = 6 then 0x7F80 + (if p then 0x8000 else 0)
     else if f = 3 then 7 + (if p then 8 else 0)
     else if f = 4 then 0x7E + (if p then 128 else 0)
     else if f = 5 then 0x7B + (if p then 128 else 0)
     else intCode (fmtBits f) p (2 ^ 31), false)
  | .fin p m e =>
    (if f = 3 then fp 1 (-1) 7 4 p m e
     else if f = 4 then fp 3 (-9) 0x7E 8 p m e
     else if f = 5 then fp 2 (-16) 0x7B 8 p m e
     else if f = 6 then fp 7 (-133) 0x7F80 16 p m e
     else intCode (fmtBits f) p (roundAt r m e 0), false)

/-- Elements of packed bytes: element `i` of `b` bits (R150). -/
def element (packed b i : Nat) : Nat := bits packed (b * i) b

/-- Codes packed at `b` bits each (R150). -/
def pack (b : Nat) (codes : List Nat) : Nat := codes.foldr (fun c v => v * 2 ^ b + c) 0

/-- 2^(e − 127), or NaN for 0xFF (R149). -/
def scaleOf (e : Nat) : Num := if e = 255 then .nan else .fin false 1 ((e : Int) - 127)

/-! ## Binary32 operations (R181) -/

def fadd (a b : BitVec 32) : BitVec 32 := toF32 ((ofF32 a).add (ofF32 b))
def fsub (a b : BitVec 32) : BitVec 32 := toF32 ((ofF32 a).add (ofF32 b).negate)
def fmul (a b : BitVec 32) : BitVec 32 := toF32 ((ofF32 a).mul (ofF32 b))
/-- c + a × b, rounded once. -/
def ffma (c a b : BitVec 32) : BitVec 32 := toF32 ((ofF32 c).add ((ofF32 a).mul (ofF32 b)))

/-- Larger, +0 above −0, NaN with a NaN (R181, R223). -/
def fmax (a b : BitVec 32) : BitVec 32 :=
  match ofF32 a, ofF32 b with
  | .nan, _ => 0x7FC00000#32
  | _, .nan => 0x7FC00000#32
  | x, y => if x.lt y || (x.isZero && y.isZero && x.neg?) then b else a

/-- Smaller, −0 below +0, NaN with a NaN. -/
def fmin (a b : BitVec 32) : BitVec 32 :=
  match ofF32 a, ofF32 b with
  | .nan, _ => 0x7FC00000#32
  | _, .nan => 0x7FC00000#32
  | x, y => if y.lt x || (x.isZero && y.isZero && y.neg?) then b else a

/-- m ÷ n with a sticky bit below 96 quotient bits: its magnitude and exponent. -/
def quotient (m : Nat) (e : Int) (n : Nat) : Nat × Int :=
  let q := m * 2 ^ 96 / n
  (2 * q + (if m * 2 ^ 96 % n = 0 then 0 else 1), e - 97)

/-- acc ÷ count, rounded once (R223). -/
def fdivNat (a : BitVec 32) (n : Nat) : BitVec 32 :=
  match ofF32 a with
  | .fin p m e => let q := quotient m e (max n 1); toF32 (.fin p q.1 q.2)
  | x => toF32 x

/-! ## The approximations of R183 -/

/-- The value of a positive FP32 pattern, read on past the largest finite one. -/
def patVal (c : Nat) : Num :=
  if c / 2 ^ 23 = 0 then .fin false c (-149) else .fin false (2 ^ 23 + c % 2 ^ 23) ((c / 2 ^ 23 : Nat) - 150)

/-- A magnitude is at most 2^k. -/
def Num.within (x : Num) (k : Int) : Bool := !(Num.fin false 1 k).lt x && !x.lt (.fin true 1 k)

/-- One of the results within 2 units in the last place of the positive value m × 2^e (log entry 8). -/
def within2 (op : Nat) (a : BitVec 32) (m : Nat) (e : Int) : Nat :=
  let c := magCode .zero 23 (-149) m e
  let unit := max ((Nat.log2 m : Int) + e - 23) (-149)
  let near := fun x => ((patVal x).add (.fin true m e)).within (unit + 1)
  let cs := ((List.range 7).filterMap fun i => if 4 ≤ c + i then some (c + i - 4) else none).filter near
  min 0x7F800000 (cs.getD (Config.ulpPick op a % cs.length) c)

/-- floor(√n × 2^0) by bits, from bit `k` down. -/
def isqrtAux (n : Nat) : Nat → Nat → Nat
  | 0, r => r
  | k + 1, r => let t := r + 2 ^ k; isqrtAux n k (if t * t ≤ n then t else r)

/-- The integer square root. -/
def isqrt (n : Nat) : Nat := isqrtAux n (Nat.log2 n / 2 + 1) 0

/-- FRCP. -/
def frcp (a : BitVec 32) : BitVec 32 :=
  match ofF32 a with
  | .nan => 0x7FC00000#32
  | .inf p => if p then 0x80000000#32 else 0#32
  | .fin p m e =>
    if m = 0 then if p then 0xFF800000#32 else 0x7F800000#32
    else
      let q := quotient 1 0 m
      BitVec.ofNat 32 (within2 1 a q.1 (q.2 - e) + if p then 2 ^ 31 else 0)

/-- FRSQRT. -/
def frsqrt (a : BitVec 32) : BitVec 32 :=
  match ofF32 a with
  | .nan => 0x7FC00000#32
  | .inf p => if p then 0x7FC00000#32 else 0#32
  | .fin p m e =>
    if m = 0 then 0x7F800000#32
    else if p then 0x7FC00000#32
    else
      -- 1 ÷ √(m × 2^e) = √(2^k ÷ m) × 2^-(k + e)/2 with k + e even
      let k : Nat := if (e % 2 + 2) % 2 = 0 then 200 else 201
      let n := 2 ^ k / m
      let s := isqrt n
      let exact := s * s * m == 2 ^ k
      BitVec.ofNat 32 (within2 2 a (2 * s + if exact then 0 else 1) (-((k : Int) + e) / 2 - 1))

/-- 2^f for a fraction of `n` bits, in units of 2^-96, by the square roots of 2 (its error is far below a unit of
FP32). -/
def exp2Frac (f n : Nat) : Nat :=
  ((List.range n).foldl (fun (s : Nat × Nat) i =>
    let root := isqrt (s.1 * 2 ^ 96)
    (root, if bit f (n - 1 - i) then s.2 * root / 2 ^ 96 else s.2)) (2 * 2 ^ 96, 2 ^ 96)).2

/-- FEXP2. -/
def fexp2 (a : BitVec 32) : BitVec 32 :=
  match ofF32 a with
  | .nan => 0x7FC00000#32
  | .inf p => if p then 0#32 else 0x7F800000#32
  | .fin p m e =>
    if (Num.fin p m e).lt (.fin true 150 0) then 0#32
    else if (Num.fin false 128 0).lt (.fin p m e) then 0x7F800000#32
    else
      let low := min e (-64)
      let v := (Num.fin p m e).at low
      let x : Int := v / 2 ^ (-64 - low).toNat
      let n := x / 2 ^ 64
      let fr := (x % 2 ^ 64).toNat
      let low := v == x * 2 ^ (-64 - low).toNat
      -- a bit below the last one stands for what the roots leave out
      BitVec.ofNat 32 (within2 0 a (2 * exp2Frac fr 64 + if fr = 0 && low then 0 else 1) (n - 97))

/-- FP32 to I32, nearest even, saturating; NaN gives 0 and is lost (FTOI). -/
def ftoi (a : BitVec 32) : BitVec 32 × Bool :=
  match ofF32 a with
  | .nan => (0, true)
  | .inf p => (BitVec.ofNat 32 (intCode 32 p (2 ^ 40)), false)
  | .fin p m e => (BitVec.ofNat 32 (intCode 32 p (roundAt .even m e 0)), false)

/-- I32 to FP32, nearest even (ITOF). -/
def itof (a : BitVec 32) : BitVec 32 := toF32 (Num.ofInt a.toInt 0 false)

/-- a < b (FCMPLT). -/
def flt (a b : BitVec 32) : Bool := (ofF32 a).lt (ofF32 b)

/-! ## Block quantisation (R156) -/

/-- The largest power of two of a format's numbers: emax of R156. -/
def fmtEmax (f : Nat) : Int := if f = 3 then 2 else if f = 4 then 8 else if f = 5 then 15 else 0

/-- floor(log2) of a lane's magnitude; none for zero and NaN, large for an infinity. -/
def magLog (x : Num) : Option Int :=
  match x with
  | .nan => none
  | .inf _ => some 1000
  | .fin _ m e => if m = 0 then none else some (Nat.log2 m + e)

/-- The scale code of a block. -/
def blockScale (f : Nat) (lanes : List Num) : Nat :=
  match (lanes.filterMap magLog).foldl (fun (b : Option Int) x => some (match b with
    | none => x
    | some y => max x y)) none with
  | none => 0
  | some l => (max 0 (min 254 (l - fmtEmax f + 127))).toNat

/-- A block quantised with one rounding mode per lane: the codes, the scale code, and whether a NaN was lost. -/
def quantBlock (f : Nat) (lanes : List (Num × Rnd)) : List Nat × Nat × Bool :=
  let s := blockScale f (lanes.map (·.1))
  let cs := lanes.map fun x => toFmt f x.2 (x.1.scale (127 - s))
  (cs.map (·.1), s, cs.any (·.2))

/-! ## The noise register (R157) -/

/-- One step of the Galois register of x^32 + x^22 + x^2 + x + 1, shifting right (log entry 10). -/
def lfsrStep (r : BitVec 32) : BitVec 32 := if r.getLsbD 0 then (r >>> 1) ^^^ 0x80200003#32 else r >>> 1

/-- The next `n` bits, the first in bit 0, and the register after them. DESIGN CHOICE (log entry 10): an element's 16 bits are 16
successive output bits, one step of the register each. -/
def lfsrBits (r : BitVec 32) : Nat → Nat × BitVec 32
  | 0 => (0, r)
  | n + 1 =>
    let x := lfsrBits (lfsrStep r) n
    ((if r.getLsbD 0 then 1 else 0) + 2 * x.1, x.2)

/-- The rounding modes of `n` elements in turn, each drawing 16 bits where the mode is stochastic. -/
def rndSeq (mode : Nat) (r : BitVec 32) : Nat → List Rnd × BitVec 32
  | 0 => ([], r)
  | n + 1 =>
    if mode = 2 then
      let x := lfsrBits r 16
      let y := rndSeq mode x.2 n
      (.noise x.1 :: y.1, y.2)
    else
      let y := rndSeq mode r n
      ((if mode = 1 then .zero else .even) :: y.1, y.2)

end Sys2Proof.Machine
end

