-- ==== Sys2Proof/Machine/Crc.lean ====
section
/-! DEFINITION. The check codes the spec computes: CRC-32C (R84, R104, R314) and the CRC-64 of completion digests
(R314). -/

namespace Sys2Proof.Machine

/-- One bit of the reflected CRC-32C register, polynomial 0x1EDC6F41. -/
def crc32cBit (c : Nat) : Nat := if c % 2 = 1 then Nat.xor (c / 2) 0x82F63B78 else c / 2

/-- One byte. -/
def crc32cByte (c : Nat) (b : Byte) : Nat := (List.range 8).foldl (fun c _ => crc32cBit c) (Nat.xor c b.toNat)

/-- CRC-32C of a byte run. -/
def crc32c (l : List Byte) : Nat := Nat.xor (l.foldl crc32cByte 0xFFFFFFFF) 0xFFFFFFFF

/-- One bit of the CRC-64 register, polynomial 0x42F0E1EBA9EA3693, unreflected. -/
def crc64Bit (c : Nat) : Nat :=
  if 2 ^ 63 ≤ c then Nat.xor (2 * c - 2 ^ 64) 0x42F0E1EBA9EA3693 else 2 * c

/-- One byte. -/
def crc64Byte (c : Nat) (b : Byte) : Nat := (List.range 8).foldl (fun c _ => crc64Bit c) (Nat.xor c (b.toNat * 2 ^ 56))

/-- The CRC-64 of a byte run, from a register value: initial value 0, no final XOR (R314). -/
def crc64 (c : Nat) (l : List Byte) : Nat := l.foldl crc64Byte c

end Sys2Proof.Machine
end

