-- ==== Sys2Proof/Machine/RegMap.lean ====
section
/-! DEFINITION. The BAR0 registers of Table 24.2 with their fields, access codes, reset values and clamps (the field
tables of every chapter), as data, and the register file over it: reset value, raw read and write, and the counters
of R430 that mirror the RC fields. -/

namespace Sys2Proof.Machine

/-- Access codes (R12, Table 0.2). -/
inductive Acc where
  | rw | ro | wo | w1c | w1s | rc
  deriving DecidableEq, Repr

/-- What an illegal write becomes (R14). -/
inductive Clamp where
  /-- every value is legal, or checked and never clamped (R16) -/
  | none
  /-- a number clamped to [lo, hi] -/
  | range (lo hi : Nat)
  /-- codes from `first` on become `dflt` -/
  | codes (first dflt : Nat)
  /-- a number rounded down to the grain, then clamped -/
  | grain (g lo hi : Nat)
  deriving DecidableEq, Repr

/-- A field: lowest bit, width, access, reset, clamp. -/
structure Fld where
  lo : Nat
  n : Nat
  acc : Acc
  reset : Nat := 0
  clamp : Clamp := .none
  deriving DecidableEq, Repr

/-- A register or an array of them: BAR0 offset, stride and count, whether it is 64 bits wide, the counter group and
position of its block (R430, Table 20.6), its fields from the highest down. -/
structure RegRow where
  base : Nat
  stride : Nat := 0
  count : Nat := 1
  wide : Bool := false
  group : Nat
  pos : Nat := 0
  flds : List Fld
  deriving DecidableEq, Repr

/-- DEV, TB, CLK, IRQ, EVT, PERF and TEST (group 0), PM and AGE (group 1). -/
def regs0 : List RegRow := [
  { base := 0x000, group := 0, flds := [⟨28, 4, .ro, 1, .none⟩, ⟨12, 16, .ro, 0x0480, .none⟩] },
  { base := 0x004, group := 0, flds := [⟨0, 16, .rc, 0, .none⟩] },
  { base := 0x008, wide := true, group := 0, flds := [⟨0, 64, .ro, 0, .none⟩] },
  { base := 0x010, group := 0, flds := [⟨31, 1, .ro, 0, .none⟩, ⟨24, 4, .ro, 0, .none⟩, ⟨16, 6, .ro, 0, .none⟩,
      ⟨8, 4, .ro, 0, .none⟩, ⟨0, 4, .ro, 0, .none⟩] },
  { base := 0x014, group := 0, flds := [⟨0, 5, .wo, 31, .none⟩] },
  { base := 0x018, group := 0, flds := [⟨16, 13, .ro, 0, .none⟩, ⟨0, 16, .rc, 0, .none⟩] },
  { base := 0x01C, group := 0, flds := [⟨0, 12, .rw, 0, .none⟩] },
  { base := 0x10000, wide := true, group := 0, pos := 1, flds := [⟨0, 64, .ro, 0, .none⟩] },
  { base := 0x10010, stride := 0x10, count := 2, wide := true, group := 0, pos := 1, flds := [⟨0, 64, .ro, 0, .none⟩] },
  { base := 0x10018, stride := 0x10, count := 2, wide := true, group := 0, pos := 1, flds := [⟨0, 64, .ro, 0, .none⟩] },
  { base := 0x10040, group := 0, pos := 1, flds := [⟨0, 32, .ro, 0, .none⟩] },
  { base := 0x30000, group := 0, pos := 2, flds := [⟨31, 1, .ro, 0, .none⟩, ⟨30, 1, .ro, 0, .none⟩, ⟨0, 3, .ro, 0, .none⟩] },
  { base := 0x30004, group := 0, pos := 2, flds := [⟨0, 16, .rw, 1000, .range 100 10000⟩] },
  { base := 0x30100, stride := 4, count := 53, group := 0, pos := 2,
    flds := [⟨2, 1, .ro, 0, .none⟩, ⟨1, 1, .ro, 0, .none⟩, ⟨0, 1, .ro, 0, .none⟩] },
  { base := 0x50000, stride := 4, count := 256, group := 0, pos := 3,
    flds := [⟨8, 2, .ro, 0, .none⟩, ⟨7, 1, .rw, 0, .none⟩, ⟨4, 3, .rw, 0, .none⟩, ⟨0, 4, .rw, 0, .none⟩] },
  { base := 0x50400, stride := 0x10, count := 8, group := 0, pos := 3, flds := [⟨13, 19, .rw, 0, .none⟩, ⟨0, 4, .rw, 0, .none⟩] },
  { base := 0x50404, stride := 0x10, count := 8, group := 0, pos := 3,
    flds := [⟨8, 8, .ro, 0, .none⟩, ⟨4, 1, .ro, 0, .none⟩, ⟨0, 4, .ro, 0, .none⟩] },
  { base := 0x5040C, stride := 0x10, count := 8, group := 0, pos := 3, flds := [⟨0, 8, .wo, 0, .none⟩] },
  { base := 0x50500, stride := 4, count := 6, group := 0, pos := 3, flds := [⟨8, 8, .rc, 0, .none⟩, ⟨0, 8, .rw, 10, .range 2 255⟩] },
  { base := 0x50520, group := 0, pos := 3, flds := [⟨0, 8, .w1s, 0, .none⟩] },
  { base := 0x60000, wide := true, group := 0, pos := 4, flds := [⟨0, 64, .ro, 0, .none⟩] },
  { base := 0x60008, group := 0, pos := 4, flds := [⟨16, 16, .rc, 0, .none⟩, ⟨0, 16, .rc, 0, .none⟩] },
  { base := 0x70000, group := 0, pos := 5, flds := [⟨31, 1, .rw, 0, .none⟩, ⟨30, 1, .rw, 0, .none⟩,
      ⟨25, 5, .rw, 16, .range 8 24⟩, ⟨20, 5, .rw, 20, .range 8 24⟩, ⟨0, 11, .rw, 64, .range 1 1024⟩] },
  { base := 0x70004, group := 0, pos := 5, flds := [⟨16, 16, .rc, 0, .none⟩, ⟨0, 16, .rc, 0, .none⟩] },
  { base := 0x72000, stride := 8, count := 1024, wide := true, group := 0, pos := 5,
    flds := [⟨63, 1, .w1c, 0, .none⟩, ⟨0, 48, .ro, 0, .none⟩] },
  { base := 0xA00000, group := 0, pos := 6, flds := [⟨31, 1, .w1s, 0, .none⟩, ⟨30, 1, .w1s, 0, .none⟩, ⟨28, 2, .rw, 0, .none⟩,
      ⟨24, 4, .rw, 1, .range 1 5⟩, ⟨16, 8, .rw, 0, .range 0 23⟩, ⟨0, 12, .rw, 100, .range 1 4000⟩] },
  { base := 0xA00004, group := 0, pos := 6, flds := [⟨31, 1, .ro, 0, .none⟩, ⟨28, 3, .ro, 0, .none⟩, ⟨24, 4, .ro, 0, .none⟩] },
  { base := 0xA00008, group := 0, pos := 6, flds := [⟨0, 32, .ro, 0, .none⟩] },
  { base := 0xA0000C, group := 0, pos := 6, flds := [⟨0, 32, .ro, 0, .none⟩] },
  { base := 0xA00010, group := 0, pos := 6, flds := [⟨31, 1, .w1s, 0, .none⟩, ⟨0, 5, .rw, 0, .range 0 18⟩] },
  { base := 0xA00014, group := 0, pos := 6, flds := [⟨31, 1, .ro, 0, .none⟩, ⟨28, 3, .ro, 0, .none⟩, ⟨0, 16, .ro, 0, .none⟩] },
  { base := 0xA00100, stride := 4, count := 16, group := 0, pos := 6, flds := [⟨0, 32, .rw, 0, .none⟩] } ]

/-- PM and AGE (group 1), RING and PCIE (group 2), POOL (group 3), HOME (group 4). -/
def regs1 : List RegRow := [
  { base := 0x20000, group := 1, flds := [⟨16, 8, .rw, 10, .range 1 100⟩, ⟨8, 2, .ro, 0, .none⟩] },
  { base := 0x20004, group := 1, flds := [⟨29, 3, .ro, 0, .none⟩, ⟨27, 2, .ro, 0, .none⟩, ⟨26, 1, .ro, 0, .none⟩,
      ⟨25, 1, .ro, 0, .none⟩, ⟨24, 1, .ro, 0, .none⟩, ⟨23, 1, .ro, 0, .none⟩, ⟨22, 1, .ro, 0, .none⟩, ⟨8, 8, .ro, 0, .none⟩] },
  { base := 0x20008, group := 1, flds := [⟨16, 16, .rw, 300, .range 100 700⟩, ⟨0, 16, .ro, 0, .none⟩] },
  { base := 0x2000C, group := 1, flds := [⟨24, 8, .rw, 95, .range 70 105⟩, ⟨0, 8, .ro, 0, .none⟩] },
  { base := 0x20010, group := 1, flds := [⟨16, 16, .ro, 0, .none⟩, ⟨0, 16, .ro, 0, .none⟩] },
  { base := 0x20014, group := 1, flds := [⟨0, 24, .rw, 0, .none⟩] },
  { base := 0x20018, group := 1, flds := [⟨1, 1, .rw, 1, .none⟩, ⟨0, 1, .rw, 1, .none⟩] },
  { base := 0x20020, group := 1, flds := [⟨16, 16, .rc, 0, .none⟩, ⟨0, 16, .rc, 0, .none⟩] },
  { base := 0x20100, stride := 4, count := 16, group := 1, flds := [⟨31, 1, .rw, 0, .none⟩, ⟨24, 4, .rw, 0, .none⟩,
      ⟨16, 7, .rw, 0, .none⟩, ⟨12, 1, .rw, 0, .none⟩, ⟨8, 2, .rw, 0, .none⟩] },
  { base := 0x40000, group := 1, pos := 1, flds := [⟨24, 8, .rw, 100, .grain 5 0 150⟩, ⟨16, 8, .rw, 30, .range 10 100⟩,
      ⟨4, 12, .rw, 1000, .range 100 1000⟩, ⟨1, 1, .rw, 1, .none⟩, ⟨0, 1, .rw, 0, .none⟩] },
  { base := 0x40004, group := 1, pos := 1, flds := [⟨16, 16, .rw, 100, .range 20 500⟩, ⟨0, 8, .rw, 4, .range 1 64⟩] },
  { base := 0x40008, group := 1, pos := 1, flds := [⟨31, 1, .ro, 0, .none⟩, ⟨30, 1, .ro, 0, .none⟩, ⟨29, 1, .ro, 0, .none⟩, ⟨0, 24, .ro, 0, .none⟩] },
  { base := 0x4000C, group := 1, pos := 1, flds := [⟨0, 32, .ro, 0, .none⟩] },
  { base := 0x40010, group := 1, pos := 1, flds := [⟨0, 32, .ro, 0, .none⟩] },
  { base := 0x40014, group := 1, pos := 1, flds := [⟨16, 16, .ro, 0, .none⟩, ⟨0, 16, .ro, 0, .none⟩] },
  { base := 0x40018, group := 1, pos := 1, flds := [⟨16, 16, .ro, 0, .none⟩] },
  { base := 0x41000, stride := 4, count := 1144, group := 1, pos := 1, flds := [⟨0, 32, .ro, 0, .none⟩] },
  { base := 0x80000, stride := 4, count := 8, group := 2, flds := [⟨0, 32, .ro, 0, .none⟩] },
  { base := 0x80020, stride := 4, count := 8, group := 2, flds := [⟨0, 32, .rw, 0, .none⟩] },
  { base := 0x80040, stride := 4, count := 8, group := 2, flds := [⟨0, 32, .ro, 0, .none⟩] },
  { base := 0x80060, group := 2, flds := [⟨1, 3, .ro, 0, .none⟩, ⟨0, 1, .w1s, 0, .none⟩] },
  { base := 0x80080, group := 2, flds := [⟨16, 16, .ro, 0, .none⟩, ⟨8, 2, .wo, 0, .none⟩, ⟨2, 1, .ro, 0, .none⟩, ⟨0, 2, .ro, 0, .none⟩] },
  { base := 0x80090, group := 2, flds := [⟨16, 10, .rw, 64, .range 2 512⟩, ⟨0, 10, .rw, 64, .range 2 512⟩] },
  { base := 0x80094, group := 2, flds := [⟨16, 10, .ro, 64, .none⟩, ⟨0, 10, .ro, 64, .none⟩] },
  { base := 0x800A0, group := 2, flds := [⟨0, 16, .rc, 0, .none⟩] },
  { base := 0xA80100, group := 2, pos := 1, flds := [⟨24, 8, .rw, 8, .range 1 40⟩, ⟨0, 18, .rw, 0, .none⟩] },
  { base := 0x100000, group := 3, flds := [⟨1, 3, .rw, 0, .codes 2 0⟩, ⟨0, 1, .rw, 0, .none⟩] },
  { base := 0x100004, group := 3, flds := [⟨0, 4, .rw, 10, .range 1 10⟩] },
  { base := 0x100008, group := 3, flds := [⟨0, 14, .rw, 1024, .range 0 12768⟩] },
  { base := 0x10000C, group := 3, flds := [⟨0, 22, .rw, 30000, .range 1000 3600000⟩] },
  { base := 0x100010, group := 3, flds := [⟨16, 13, .rw, 4096, .range 0 4096⟩, ⟨0, 13, .rw, 4096, .range 0 4096⟩] },
  { base := 0x100020, group := 3, flds := [⟨16, 16, .ro, 0, .none⟩, ⟨0, 16, .ro, 0, .none⟩] },
  { base := 0x100028, wide := true, group := 3, flds := [⟨0, 64, .ro, 0, .none⟩] },
  { base := 0x180100, group := 4, flds := [⟨0, 12, .rw, 512, .range 128 4095⟩] },
  { base := 0x180104, group := 4, flds := [⟨24, 8, .rw, 32, .range 8 255⟩, ⟨20, 4, .rw, 3, .none⟩, ⟨0, 12, .rw, 64, .range 48 4095⟩] },
  { base := 0x180108, group := 4, flds := [⟨16, 16, .rc, 0, .none⟩, ⟨0, 16, .rc, 0, .none⟩] },
  { base := 0x180200, group := 4, flds := [⟨8, 8, .rw, 1, .range 1 255⟩, ⟨0, 1, .rw, 0, .none⟩] },
  { base := 0x180204, group := 4, flds := [⟨16, 16, .rc, 0, .none⟩, ⟨0, 16, .rc, 0, .none⟩] },
  { base := 0x180208, group := 4, flds := [⟨16, 16, .rc, 0, .none⟩, ⟨0, 16, .rc, 0, .none⟩] },
  { base := 0x180400, stride := 0x10, count := 32, group := 4, flds := [⟨31, 1, .rw, 0, .none⟩, ⟨0, 12, .rw, 0, .none⟩] },
  { base := 0x180408, stride := 0x10, count := 32, wide := true, group := 4, flds := [⟨0, 64, .rw, 0, .none⟩] },
  { base := 0x181000, stride := 4, count := 1024, group := 4, flds := [⟨31, 1, .rw, 0, .none⟩, ⟨24, 5, .rw, 0, .none⟩,
      ⟨23, 1, .rw, 0, .none⟩, ⟨16, 5, .rw, 0, .none⟩, ⟨15, 1, .rw, 0, .none⟩, ⟨8, 5, .rw, 0, .none⟩,
      ⟨7, 1, .rw, 0, .none⟩, ⟨0, 5, .rw, 0, .none⟩] } ]

/-- KNIT, GRU, MOV, FAR and GL (groups 5 to 9). -/
def regs2 : List RegRow := [
  { base := 0x200000, group := 5, flds := [⟨0, 8, .rw, 10, .range 1 200⟩] },
  { base := 0x200004, group := 5, flds := [⟨16, 4, .rw, 4, .range 1 15⟩, ⟨0, 6, .rw, 16, .range 1 63⟩] },
  { base := 0x200008, group := 5, flds := [⟨0, 16, .ro, 0, .none⟩] },
  { base := 0x20000C, group := 5, flds := [⟨16, 16, .rc, 0, .none⟩, ⟨0, 16, .rc, 0, .none⟩] },
  { base := 0x200100, stride := 4, count := 16, group := 5, flds := [⟨12, 12, .ro, 0, .none⟩, ⟨4, 4, .ro, 0, .none⟩, ⟨0, 3, .ro, 0, .none⟩] },
  { base := 0x200200, stride := 4, count := 96, group := 5, flds := [⟨16, 16, .rc, 0, .none⟩, ⟨0, 16, .rc, 0, .none⟩] },
  { base := 0x200400, group := 5, flds := [⟨16, 9, .rw, 256, .range 1 256⟩, ⟨0, 5, .rw, 16, .range 0 16⟩] },
  { base := 0x200404, group := 5, flds := [⟨16, 9, .ro, 0, .none⟩, ⟨0, 5, .ro, 0, .none⟩] },
  { base := 0x200500, stride := 4, count := 64, group := 5, flds := [⟨31, 1, .rw, 0, .none⟩, ⟨12, 12, .rw, 0, .none⟩, ⟨0, 5, .rw, 0, .range 0 16⟩] },
  { base := 0x280000, group := 6, flds := [⟨0, 5, .rw, 16, .range 1 16⟩] },
  { base := 0x280100, stride := 4, count := 48, group := 6, flds := [⟨16, 16, .rc, 0, .none⟩, ⟨0, 16, .rc, 0, .none⟩] },
  { base := 0x300000, group := 7, flds := [⟨16, 16, .rw, 1000, .range 10 60000⟩, ⟨0, 4, .rw, 3, .range 1 8⟩] },
  { base := 0x300004, group := 7, flds := [⟨16, 16, .rw, 64, .range 16 65535⟩, ⟨0, 16, .rw, 4, .none⟩] },
  { base := 0x300008, group := 7, flds := [⟨16, 16, .rw, 1000, .range 1 60000⟩, ⟨0, 9, .rw, 20, .range 1 500⟩] },
  { base := 0x300010, group := 7, flds := [⟨16, 16, .rc, 0, .none⟩, ⟨0, 16, .rc, 0, .none⟩] },
  { base := 0x300014, group := 7, flds := [⟨16, 16, .rc, 0, .none⟩, ⟨0, 16, .rc, 0, .none⟩] },
  { base := 0x300018, group := 7, flds := [⟨16, 11, .ro, 0, .none⟩, ⟨0, 9, .ro, 0, .none⟩] },
  { base := 0x380000, group := 8, flds := [⟨16, 16, .rw, 500, .range 10 10000⟩, ⟨12, 4, .rw, 4, .range 1 15⟩, ⟨0, 1, .rw, 1, .none⟩] },
  { base := 0x380004, group := 8, flds := [⟨16, 16, .rc, 0, .none⟩, ⟨0, 16, .rc, 0, .none⟩] },
  { base := 0x380008, group := 8, flds := [⟨16, 16, .rc, 0, .none⟩, ⟨0, 16, .rc, 0, .none⟩] },
  { base := 0x380010, group := 8, flds := [⟨0, 32, .ro, 0, .none⟩] },
  { base := 0x400000, stride := 0x10000, count := 24, group := 9, flds := [⟨31, 1, .rw, 1, .none⟩, ⟨30, 1, .rw, 1, .none⟩,
      ⟨28, 2, .rw, 0, .codes 3 0⟩, ⟨26, 2, .rw, 2, .codes 3 2⟩, ⟨25, 1, .rw, 1, .none⟩, ⟨24, 1, .wo, 0, .none⟩, ⟨16, 4, .rw, 0, .none⟩] },
  { base := 0x400004, stride := 0x10000, count := 24, group := 9, flds := [⟨28, 4, .ro, 0, .none⟩, ⟨24, 4, .ro, 0, .none⟩,
      ⟨21, 3, .ro, 0, .none⟩, ⟨20, 1, .ro, 0, .none⟩, ⟨16, 4, .ro, 0, .none⟩, ⟨15, 1, .ro, 0, .none⟩] },
  { base := 0x400008, stride := 0x10000, count := 24, group := 9, flds := [⟨16, 16, .ro, 0, .none⟩, ⟨14, 2, .ro, 0, .none⟩,
      ⟨12, 2, .ro, 0, .none⟩, ⟨0, 12, .ro, 0, .none⟩] },
  { base := 0x400010, stride := 0x10000, count := 24, group := 9, flds := [⟨27, 5, .rw, 16, .range 4 24⟩,
      ⟨14, 13, .rw, 1600, .range 1000 8000⟩, ⟨7, 7, .rw, 64, .range 8 127⟩, ⟨0, 7, .rw, 64, .range 1 127⟩] },
  { base := 0x400014, stride := 0x10000, count := 24, group := 9, flds := [⟨16, 12, .rw, 1984, .range 264 2048⟩, ⟨0, 12, .rw, 1952, .range 256 2040⟩] },
  { base := 0x400020, stride := 0x10000, count := 24, group := 9, flds := [⟨16, 16, .rc, 0, .none⟩, ⟨0, 16, .rc, 0, .none⟩] },
  { base := 0x400024, stride := 0x10000, count := 24, group := 9, flds := [⟨16, 16, .rc, 0, .none⟩, ⟨0, 16, .rc, 0, .none⟩] },
  { base := 0x400028, stride := 0x10000, count := 24, group := 9, flds := [⟨16, 16, .rc, 0, .none⟩, ⟨0, 16, .rc, 0, .none⟩] },
  { base := 0x40002C, stride := 0x10000, count := 24, group := 9, flds := [⟨16, 16, .rc, 0, .none⟩, ⟨0, 16, .rc, 0, .none⟩] } ]

/-- RT, MIR, MEM, ECC and SEC (groups 10 to 14). -/
def regs3 : List RegRow := [
  { base := 0x600000, group := 10, flds := [⟨16, 5, .rw, 16, .range 4 24⟩, ⟨0, 1, .rw, 1, .none⟩] },
  { base := 0x600010, group := 10, flds := [⟨16, 16, .rc, 0, .none⟩, ⟨0, 16, .rc, 0, .none⟩] },
  { base := 0x600014, group := 10, flds := [⟨16, 16, .rc, 0, .none⟩, ⟨0, 16, .rc, 0, .none⟩] },
  { base := 0x600018, group := 10, flds := [⟨16, 16, .rc, 0, .none⟩, ⟨0, 16, .rc, 0, .none⟩] },
  { base := 0x600020, group := 10, flds := [⟨12, 2, .wo, 0, .codes 3 0⟩, ⟨0, 12, .wo, 0, .none⟩] },
  { base := 0x600024, group := 10, flds := [⟨31, 1, .ro, 0, .none⟩, ⟨0, 12, .ro, 0, .none⟩] },
  { base := 0x600028, group := 10, flds := [⟨0, 32, .ro, 0, .none⟩] },
  { base := 0x600030, group := 10, flds := [⟨12, 5, .rw, 0, .codes 25 24⟩, ⟨0, 12, .rw, 0, .none⟩] },
  { base := 0x600038, wide := true, group := 10, flds := [⟨0, 64, .rw, 0, .none⟩] },
  { base := 0x600100, stride := 4, count := 24, group := 10, flds := [⟨8, 5, .rw, 31, .codes 25 31⟩, ⟨0, 2, .rw, 0, .codes 2 0⟩] },
  { base := 0x601000, stride := 8, count := 384, wide := true, group := 10, flds := [⟨63, 1, .rw, 0, .none⟩, ⟨51, 12, .rw, 1, .none⟩,
      ⟨39, 12, .rw, 0xEFF, .none⟩, ⟨21, 18, .rw, 0, .none⟩, ⟨3, 18, .rw, 0x3FFFF, .none⟩] },
  { base := 0x602000, stride := 4, count := 128, group := 10, flds := [⟨0, 32, .ro, 0, .none⟩] },
  { base := 0x604000, stride := 8, count := 192, wide := true, group := 10, flds := [⟨63, 1, .rw, 0, .none⟩,
      ⟨53, 10, .rw, 1000, .range 1 1000⟩, ⟨41, 12, .rw, 256, .range 1 2048⟩, ⟨35, 6, .rw, 0, .none⟩] },
  { base := 0x605000, stride := 8, count := 192, wide := true, group := 10, flds := [⟨63, 1, .rw, 0, .none⟩,
      ⟨53, 10, .rw, 1000, .range 1 1000⟩, ⟨41, 12, .rw, 256, .range 1 2048⟩, ⟨35, 6, .rw, 0, .none⟩] },
  { base := 0x610000, stride := 8, count := 4096, wide := true, group := 10, flds := [⟨63, 1, .rw, 0, .none⟩,
      ⟨58, 5, .rw, 31, .codes 25 31⟩, ⟨53, 5, .rw, 31, .codes 25 31⟩, ⟨50, 3, .rw, 0, .range 0 4⟩, ⟨45, 5, .rw, 31, .codes 25 31⟩,
      ⟨40, 5, .rw, 31, .codes 25 31⟩, ⟨35, 5, .rw, 31, .codes 25 31⟩, ⟨30, 5, .rw, 31, .codes 25 31⟩] },
  { base := 0x680000, group := 11, flds := [⟨31, 1, .rw, 0, .none⟩, ⟨24, 7, .rw, 50, .range 10 90⟩, ⟨16, 8, .rw, 64, .range 16 128⟩,
      ⟨8, 8, .rw, 32, .range 8 128⟩] },
  { base := 0x680004, group := 11, flds := [⟨16, 12, .rw, 0, .none⟩, ⟨0, 12, .rw, 0, .none⟩] },
  { base := 0x680008, group := 11, flds := [⟨29, 3, .ro, 0, .none⟩, ⟨26, 3, .ro, 0, .none⟩, ⟨22, 4, .ro, 0, .none⟩] },
  { base := 0x68000C, group := 11, flds := [⟨0, 32, .ro, 0, .none⟩] },
  { base := 0x680010, wide := true, group := 11, flds := [⟨32, 32, .wo, 0, .none⟩, ⟨0, 3, .wo, 0, .codes 4 0⟩] },
  { base := 0x680018, group := 11, flds := [⟨16, 16, .rc, 0, .none⟩, ⟨0, 16, .rc, 0, .none⟩] },
  { base := 0x68001C, group := 11, flds := [⟨16, 16, .ro, 0, .none⟩, ⟨0, 16, .rc, 0, .none⟩] },
  { base := 0x680020, group := 11, flds := [⟨0, 23, .ro, 0, .none⟩] },
  { base := 0x700000, stride := 0x40000, count := 6, group := 12, flds := [⟨29, 3, .ro, 0, .none⟩, ⟨25, 4, .ro, 0, .none⟩, ⟨0, 8, .ro, 0, .none⟩] },
  { base := 0x700004, stride := 0x40000, count := 6, group := 12, flds := [⟨20, 12, .rw, 2000, .range 500 4000⟩,
      ⟨10, 10, .rw, 250, .range 100 1000⟩, ⟨0, 10, .rw, 200, .range 0 1000⟩] },
  { base := 0x700008, stride := 0x40000, count := 6, group := 12, flds := [⟨8, 4, .ro, 4, .none⟩, ⟨4, 2, .ro, 0, .none⟩, ⟨0, 1, .rw, 0, .none⟩] },
  { base := 0x70000C, stride := 0x40000, count := 6, group := 12, flds := [⟨20, 12, .rw, 1024, .range 256 4095⟩,
      ⟨16, 4, .rw, 4, .range 1 15⟩, ⟨6, 10, .rw, 1000, .range 100 1000⟩, ⟨0, 6, .rw, 32, .range 1 63⟩] },
  { base := 0x700010, stride := 0x40000, count := 6, group := 12, flds := [⟨0, 8, .rw, 16, .range 1 255⟩] },
  { base := 0x700020, stride := 0x40000, count := 6, group := 12, flds := [⟨16, 16, .rc, 0, .none⟩, ⟨0, 16, .rc, 0, .none⟩] },
  { base := 0x700024, stride := 0x40000, count := 6, group := 12, flds := [⟨16, 16, .rc, 0, .none⟩, ⟨0, 16, .rc, 0, .none⟩] },
  { base := 0x700028, stride := 0x40000, count := 6, group := 12, flds := [⟨16, 16, .rc, 0, .none⟩, ⟨0, 16, .rc, 0, .none⟩] },
  { base := 0x900000, group := 13, flds := [⟨8, 8, .rw, 8, .range 1 255⟩, ⟨1, 1, .rw, 1, .none⟩, ⟨0, 1, .rw, 1, .none⟩] },
  { base := 0x900004, group := 13, flds := [⟨0, 8, .rw, 24, .range 1 168⟩] },
  { base := 0x900010, stride := 4, count := 6, group := 13, flds := [⟨0, 32, .ro, 0, .none⟩] },
  { base := 0x900040, stride := 8, count := 6, group := 13, flds := [⟨16, 16, .rc, 0, .none⟩, ⟨0, 16, .rc, 0, .none⟩] },
  { base := 0x900044, stride := 8, count := 6, group := 13, flds := [⟨16, 16, .rc, 0, .none⟩, ⟨0, 16, .ro, 0, .none⟩] },
  { base := 0x900080, group := 13, flds := [⟨16, 16, .rw, 0, .none⟩, ⟨8, 8, .rw, 1, .range 1 255⟩, ⟨0, 2, .rw, 0, .none⟩] },
  { base := 0x900100, stride := 4, count := 18, group := 13, flds := [⟨0, 32, .rw, 0, .none⟩] },
  { base := 0x980000, group := 14, flds := [⟨8, 3, .ro, 0, .none⟩, ⟨4, 2, .ro, 0, .none⟩, ⟨2, 2, .ro, 0, .none⟩, ⟨0, 2, .ro, 0, .none⟩] },
  { base := 0x980004, group := 14, flds := [⟨0, 1, .w1s, 0, .none⟩] },
  { base := 0x980008, group := 14, flds := [⟨0, 5, .rw, 10, .range 0 24⟩] },
  { base := 0x980010, group := 14, flds := [⟨16, 16, .ro, 0, .none⟩, ⟨0, 16, .ro, 0, .none⟩] },
  { base := 0x980014, group := 14, flds := [⟨24, 8, .ro, 0, .none⟩, ⟨16, 8, .ro, 0, .none⟩, ⟨2, 1, .ro, 0, .none⟩, ⟨1, 1, .ro, 0, .none⟩, ⟨0, 1, .ro, 0, .none⟩] },
  { base := 0x980040, stride := 4, count := 8, group := 14, flds := [⟨0, 32, .ro, 0, .none⟩] } ]

/-- The registers outside the ring records (those stand in `Dev.host.rings`, Table 3.10) and the MSI-X table. -/
def regMap : List RegRow := regs0 ++ regs1 ++ regs2 ++ regs3

/-- Does the row hold a register whose lowest byte is at `off`? -/
def RegRow.holds (r : RegRow) (off : Nat) : Bool :=
  if r.stride = 0 then r.base == off
  else r.base ≤ off && (off - r.base) % r.stride == 0 && (off - r.base) / r.stride < r.count

/-- The row of the register at an offset. -/
def regAt (off : Nat) : Option RegRow := regMap.find? (·.holds off)

/-- A 64-bit register whose upper half is at an offset (R8). -/
def regUpper (off : Nat) : Option RegRow :=
  if 4 ≤ off then (regMap.find? (·.holds (off - 4))).filter (·.wide) else none

/-- The reset value of a row's register (R11). Entry n = 0 of each ingress filter is VALID (Table 2.7). -/
def RegRow.resetVal (r : RegRow) (off : Nat) : Nat :=
  let v := r.flds.foldl (fun v f => v + f.reset * 2 ^ f.lo) 0
  if r.base = 0x601000 && (off - r.base) / 8 % 16 = 0 then v + 2 ^ 63 else v

/-- The stored value of a register: its own, or its reset value. -/
def Dev.reg (d : Dev) (off : Nat) : Nat :=
  match tget d.regs off with
  | some v => v
  | none => match regAt (off % 0x2000000) with
    | some r => r.resetVal (off % 0x2000000)
    | none => 0

/-- Store a register. -/
def Dev.setReg (d : Dev) (off v : Nat) : Dev := { d with regs := tput d.regs off v }

/-- A field of a register. -/
def Dev.fld (d : Dev) (off lo n : Nat) : Nat := bits (d.reg off) lo n

/-- The count fields of a counter group in the order of R430: block position, register offset, higher field first. -/
def mirrorFields (group : Nat) : List (Nat × Nat) :=
  let rows := regMap.filter (·.group == group)
  ((List.range 7).map fun p =>
    ((rows.filter (·.pos == p)).map fun r => (r.flds.filter (·.acc == .rc)).map fun f => (r.base, f.lo)).flatten).flatten

/-- The PERF_CNT index that mirrors an RC field, by its row's base (R430). -/
def mirrorIndex (group base lo : Nat) : Nat := 64 * group + 8 + (mirrorFields group).idxOf (base, lo)

/-- Add to a PERF counter: 48 bits, wrapping, OVF set on a wrap (R430). -/
def Dev.perfAdd (d : Dev) (i n : Nat) : Dev :=
  let c := tgetD d.perf.counts i 0 + n
  { d with perf := { d.perf with counts := tput d.perf.counts i (c % 2 ^ 48),
                                 ovf := if c < 2 ^ 48 then d.perf.ovf else nadd d.perf.ovf i } }

/-- Count one event in an RC field that saturates at its width, and in its mirror (R12, R430). -/
def Dev.bump (d : Dev) (off lo : Nat) : Dev :=
  match regAt off with
  | none => d
  | some r =>
    let w := ((r.flds.find? (·.lo == lo)).map (·.n)).getD 16
    let v := d.reg off
    let c := bits v lo w
    (d.setReg off (setBits v lo w (min (c + 1) (2 ^ w - 1)))).perfAdd (mirrorIndex r.group r.base lo) 1

/-- Count `n` events. -/
def Dev.bumps (d : Dev) (off lo : Nat) : Nat → Dev
  | 0 => d
  | n + 1 => (d.bump off lo).bumps off lo n

/-- Count a clamp of the block at position `pos` of counter group `group` (R15, R430). -/
def Dev.clamped (d : Dev) (group pos : Nat) : Dev := d.perfAdd (64 * group + pos) 1

/-- Refused BAR0 accesses (R8). -/
def Dev.badAccess (d : Dev) : Dev := d.bump 0x004 0

end Sys2Proof.Machine
end

