-- ==== Sys2Proof/Machine/Flags.lean ====
section
/-! DEFINITION. Status codes and flags: the shared status codes (Table 4.7), the rights (Table 2.4), the sticky flags
of a stitch (R184) and the comparisons that set branches and lane masks (R169, R181). -/

namespace Sys2Proof.Machine

/-! ## Status codes (R102, Table 4.7) -/
abbrev stDone : Nat := 0x00
abbrev stRetry : Nat := 0x01
abbrev stDenied : Nat := 0x02
abbrev stRevoked : Nat := 0x03
abbrev stPoisoned : Nat := 0x04
abbrev stStaleBase : Nat := 0x05
abbrev stBound : Nat := 0x06
abbrev stFaulted : Nat := 0x07
abbrev stAborted : Nat := 0x08
abbrev stAlreadyDone : Nat := 0x09
abbrev stFenced : Nat := 0x0A
abbrev stTimeout : Nat := 0x0B
abbrev stUnsupported : Nat := 0x0C
abbrev stPartial : Nat := 0x0D
abbrev stDeviceError : Nat := 0x0E

/-! ## Rights (R38, Table 2.4) -/
abbrev rightR : Nat := 1
abbrev rightW : Nat := 2
abbrev rightA : Nat := 4
abbrev rightX : Nat := 8
abbrev rightP : Nat := 16

/-- Every right of `need` is in `have_` (R38). -/
def rightsOk (have_ need : Nat) : Bool := Nat.land have_ need == need

/-! ## Sticky flags of a stitch (R153, R155, R184) -/

/-- FLAGS as SYNC.FLAGS reads it: [3:0] SAT of tiles a0 to a3, [4] NAN_LOST. -/
def stickyFlags (sat : BitVec 4) (nanLost : Bool) : BitVec 32 :=
  (BitVec.ofBool nanLost ++ sat).setWidth 32

/-- SAT with the flag of tile `t` set. -/
def satSet (sat : BitVec 4) (t : Nat) : BitVec 4 := sat ||| (1#4 <<< t)

/-- SAT with the flag of tile `t` cleared. -/
def satClear (sat : BitVec 4) (t : Nat) : BitVec 4 := sat &&& ~~~(1#4 <<< t)

/-- An integer saturated to [−2^31, 2^31 − 1], and whether it had to be (R153). -/
def sat32 (x : Int) : BitVec 32 × Bool :=
  if x < -2147483648 then (0x80000000#32, true)
  else if 2147483647 < x then (0x7FFFFFFF#32, true) else (BitVec.ofInt 32 x, false)

/-- A lane mask: all ones or zero (R181, FCMPLT). -/
def laneMask (b : Bool) : BitVec 32 := if b then 0xFFFFFFFF#32 else 0#32

/-- A truth value as a scalar (R171, SLT). -/
def truth32 (b : Bool) : BitVec 32 := if b then 1#32 else 0#32

end Sys2Proof.Machine
end

