-- ==== Sys2Proof/Machine/Operands.lean ====
section
/-! DEFINITION. Operand forms: the fields of descriptors (R75, R81), the answers to fabric requests (R88, R102), the
encoding of a message header (R85), the cells a message takes (R86), and who a requester is. -/

namespace Sys2Proof.Machine

/-! ## Requesters -/

/-- Node ID of upstream port p (R40, R63). -/
def portNode (p : Nat) : Nat := if p = 0 then 0xFF0 else 0xFF1

/-- The upstream port of a node, if it is a management host. -/
def nodePort (n : Nat) : Option Nat := if n = 0xFF0 then some 0 else if n = 0xFF1 then some 1 else none

/-- A port UP_MODE enables (Table 21.2). -/
def portEnabled (p : Nat) : Bool := p < 2 && (Config.upMode != 1 || p == 0) && (Config.upMode != 2 || p == 1)

/-- An upstream port carries accesses: enabled (R438), out of PERST# (R439), on a flue die in service (R21), in no loopback (R460). -/
def Dev.portUp (d : Dev) (p : Nat) : Bool :=
  portEnabled p && !(if p = 0 then d.boot.perst0 else d.boot.perst1) && !nmem d.boot.flueOff p && !nmem d.boot.dnDown p

/-- The port-local state of a port. -/
def Dev.port (d : Dev) (p : Nat) : PortSt := if p = 0 then d.host.port0 else d.host.port1

/-- Change the port-local state of a port. -/
def Dev.setPort (d : Dev) (p : Nat) (f : PortSt → PortSt) : Dev :=
  if p = 0 then { d with host := { d.host with port0 := f d.host.port0 } }
  else { d with host := { d.host with port1 := f d.host.port1 } }

/-- The session a node holds (R68). -/
def Dev.sessionOf (d : Dev) (n : Nat) : Option (Nat × Session) := tfind d.host.sessions fun _ s => s.node == n

/-- The accepted features of a requester (R65, R68). -/
def Dev.features (d : Dev) (n : Nat) : Nat :=
  match nodePort n with
  | some p => (d.port p).accepted
  | none => match d.sessionOf n with
    | some (_, s) => s.accepted
    | none => 0

/-- The requester has accepted feature `f` (R44, R90). -/
def Dev.hasFeature (d : Dev) (n f : Nat) : Bool := bit (d.features n) f

/-- HOLDER of the administration lease: 0 free, 1 UP0, 2 UP1; at expiry it is free at once (R64). -/
def Dev.leaseHolder (d : Dev) : Nat := if d.host.lease.expiry ≤ d.now then 0 else d.host.lease.holder

/-- The management host holds the administration lease (R64). -/
def Dev.hasLease (d : Dev) (n : Nat) : Bool :=
  match nodePort n with
  | some p => d.leaseHolder == p + 1
  | none => false

/-- A management host's accesses reach the device: its port is up, and the device is not in Ember (R388). -/
def Dev.portServes (d : Dev) (who : Nat) : Bool :=
  match nodePort who with
  | some p => d.portUp p && d.pm.state != 3
  | none => false

/-- The device's own node ID (R466). -/
def Dev.ownNode (d : Dev) : Nat := d.boot.nodeId

/-- A node ID that can hold a grant (R47, Table 2.5). -/
def grantable (n : Nat) : Bool := (1 ≤ n && n ≤ 0xEFF) || n == 0xFF0 || n == 0xFF1

/-- A component of Table 17.8 is in a partial reset, or did not come back from one (R446). -/
def Dev.resetting (d : Dev) (c : Nat) : Bool := (d.boot.inReset.any fun e => e.1 == c) || nmem d.boot.dead c

/-! ## Descriptors: 64 bytes (R75, Table 3.14; R81) -/

def dOpcode (b : List Byte) : Nat := field b 0 1
def dId (b : List Byte) : Nat := field b 2 2
def dNoIrq (b : List Byte) : Bool := bit (field b 1 1) 0
def dFence (b : List Byte) : Bool := bit (field b 1 1) 1
def dDefCpl (b : List Byte) : Bool := bit (field b 1 1) 2
def dCplRing (b : List Byte) : Nat := field b 4 2 % 1024
def dCtx (b : List Byte) : Nat := field b 8 2 % 1024
def dSlot (b : List Byte) : Nat := field b 10 1 % 8
def dHandle (b : List Byte) : Nat := field b 8 2
def dHost (b : List Byte) : Nat := field b 10 2 % 4096
def dAll (b : List Byte) : Bool := bit (field b 10 2) 15
def dRights (b : List Byte) : Nat := field b 12 1 % 32
def dKind (b : List Byte) : Nat := field b 12 1
def dCflags (b : List Byte) : Nat := field b 13 1
def dStack (b : List Byte) : Nat := field b 14 1 % 8
def dCount (b : List Byte) : Nat := field b 16 4
def dLast (b : List Byte) : Nat := field b 20 4
def dVersion (b : List Byte) : Nat := field b 24 4
def dDraftId (b : List Byte) : Nat := field b 28 2 % 4096
def dLeaseMs (b : List Byte) : Nat := field b 32 4
def dOutLen (b : List Byte) : Nat := field b 36 4
def dOutAddr (b : List Byte) : Nat := field b 40 8

/-- The opcodes that name an operation (Tables 3.16, 3.17, 8.3, 9.4, 10.1, 11.6, 17, 18, 20.8); every other code is
taken as NOP (R80). The ranges 0x60 to 0x77 are those of chapters 17 to 19. -/
def knownOpcode (o : Nat) : Bool :=
  (0x08 ≤ o && o ≤ 0x16) || (0x20 ≤ o && o ≤ 0x27) || (0x30 ≤ o && o ≤ 0x35) || (0x40 ≤ o && o ≤ 0x42) ||
  (0x50 ≤ o && o ≤ 0x54) || (0x60 ≤ o && o ≤ 0x68) || o == 0x70 || o == 0x71 || (0x74 ≤ o && o ≤ 0x76) || (0x78 ≤ o && o ≤ 0x7B)

/-- The opcode after clamping (R14, R80). -/
def effOpcode (b : List Byte) : Nat := if knownOpcode (dOpcode b) then dOpcode b else 0

/-! ## Answers (R88, R89, R102) -/

/-- SRC of an answer: the request's DST, or the device's node for DST 0xFFF and for a multicast copy (R88, R89,
R301). -/
def Dev.answerSrc (d : Dev) (m : Msg) : Nat := if m.dst = 0xFFF || m.mc then d.ownNode else m.dst

/-- An RSP to a request; a message of a read transfer, and a RETRY to one of a write transfer, carry its XFER_IDX (R97,
R98). -/
def Dev.rspTo (d : Dev) (m : Msg) (st det res : Nat) : Msg :=
  { cls := 2, opcode := st, src := d.answerSrc m, dst := m.src, tag := m.tag, tc := m.tc,
    addr := det % 65536 * 2 ^ 32 + res % 2 ^ 32,
    xfer := if m.opcode = 2 || (m.opcode = 4 && st = stRetry) then m.xfer else 0, last := m.opcode != 2 || m.last }

/-- A DAT to a request. -/
def Dev.datTo (d : Dev) (m : Msg) (st det res : Nat) (data : List Byte) : Msg :=
  { d.rspTo m st det res with cls := 3, data := data, len := data.length - 1 }

/-- DETAIL and RESULT32 of a response (Table 4.2). -/
def msgDetail (m : Msg) : Nat := bits m.addr 32 16
def msgResult (m : Msg) : Nat := bits m.addr 0 32

/-! ## The transaction header (R85, Table 4.2) and cells (R86) -/

/-- The 128-bit header of a message. -/
def headerOf (m : Msg) : Nat :=
  m.dst + m.src * 2 ^ 12 + m.cls * 2 ^ 24 + b2n m.mc * 2 ^ 26 + b2n m.ord * 2 ^ 27 + m.opcode * 2 ^ 28 +
  m.tag * 2 ^ 36 + b2n m.last * 2 ^ 48 + m.len * 2 ^ 49 + m.addr * 2 ^ 57 + m.xfer * 2 ^ 105 + m.tc * 2 ^ 115

/-- The message a header and payload bytes stand for. -/
def ofHeader (h : Nat) (data : List Byte) : Msg :=
  { cls := bits h 24 2, opcode := bits h 28 8, src := bits h 12 12, dst := bits h 0 12, tag := bits h 36 12,
    addr := bits h 57 48, len := bits h 49 8, xfer := bits h 105 10, tc := bits h 115 3, last := bit h 48,
    ord := bit h 27, mc := bit h 26, data := data }

/-- Cells of a message of `p` payload bytes (R86, Table 4.3). -/
def cellsOf (p : Nat) : Nat := if p ≤ 26 then 1 else 1 + (p - 26 + 41) / 42

/-- The virtual channel of a class (R87). -/
def vcOf (cls : Nat) : Nat := if cls ≤ 1 then 0 else 1

/-- An atomic 0x08 to 0x0F (R93). -/
def isAtomic (op : Nat) : Bool := 0x08 ≤ op && op ≤ 0x0F

/-- ORD is honoured on this opcode (R101). -/
def ordHonoured (op : Nat) : Bool := op == 1 || op == 3 || op == 4 || isAtomic op

/-- A request opcode that Table 4.5 or 5.3 defines for the device (others are reserved, R90). -/
def knownRequest (op : Nat) : Bool :=
  (1 ≤ op && op ≤ 4) || isAtomic op || (0x10 ≤ op && op ≤ 0x15) || (0x30 ≤ op && op ≤ 0x32) ||
  (0x38 ≤ op && op ≤ 0x3A) || op == 0xF0

/-- The feature a request opcode needs (R90, R115), with RINGS_V1 standing for none. -/
def requestFeature (op : Nat) : Nat :=
  if op == 0x15 then 3 else if 0x10 ≤ op && op ≤ 0x14 then 2 else if op == 0x30 || op == 0x31 then 5
  else if op == 0x32 then 6 else 0

end Sys2Proof.Machine
end

