-- ==== Sys2Proof/Machine/Journal.lean ====
section
/-! DEFINITION. What every block does to report: events handed to the journal writer (R418, R419) and MSI-X messages
(R429), and the requester counters (R431). -/

namespace Sys2Proof.Machine

/-- Place an entry by timestamp, then source, keeping the order of production (R416). -/
def insertEvent (e : Event) : List Event → List Event
  | [] => [e]
  | x :: r => if x.time < e.time || (x.time == e.time && x.source ≤ e.source) then x :: insertEvent e r else e :: x :: r

/-- A stack serves: the journal can be written; otherwise entries wait in the always-on buffer (R419). -/
def Dev.stacksServing (d : Dev) : Bool :=
  (List.range 6).any fun s => ((tgetD d.stk.units s {}).state == 2)

/-- Hand an entry to the writer, or to the always-on buffer of 256 entries (R419). -/
def Dev.event (d : Dev) (e : Event) : Dev :=
  if d.stacksServing then { d with evt := { d.evt with held := insertEvent e d.evt.held } }
  else if d.evt.buffer.length < 256 then { d with evt := { d.evt with buffer := d.evt.buffer ++ [e] } }
  else { d.bump 0x60008 16 with evt := { (d.bump 0x60008 16).evt with lost := true } }

/-- An event with its standard fields at this moment. -/
def Dev.log (d : Dev) (source : Nat) (origin : Nat := 0xFFF) (code : Nat := 0) (status : Nat := 0) (arg0 : Nat := 0)
    (arg1 : Nat := 0) : Dev :=
  d.event { time := d.now, source := source, origin := origin, code := code, status := status, arg0 := arg0, arg1 := arg1 }

/-- An event of a stated source whose other fields the spec leaves open: CODE, ARG0 and ARG1 are free (log entry 5). -/
def Dev.logSrc (d : Dev) (source : Nat) (origin : Nat := 0xFFF) (status : Nat := 0) : Dev :=
  let a := d.draw
  let b := a.2.draw
  let c := b.2.draw
  c.2.log source (origin := origin) (code := a.1 % 65536) (status := status) (arg0 := b.1 % 2 ^ 32) (arg1 := c.1 % 2 ^ 64)

/-- An event whose source the spec gives only as a range of `n` from `lo` on. -/
def Dev.logOpen (d : Dev) (lo n : Nat) (origin : Nat := 0xFFF) (status : Nat := 0) : Dev :=
  let a := d.draw
  a.2.logSrc (lo + a.1 % n) origin status

/-- Signal an MSI-X vector of a port: sent, or kept pending while masked, or dropped while disabled (R429). -/
def Dev.msix (d : Dev) (p v : Nat) : Dev :=
  let s := d.port p
  if !s.msixEnabled then d
  else if nmem s.unmasked v then d.emit (.msix p v)
  else d.setPort p fun s => { s with pendingBits := nadd s.pendingBits v }

/-- Vector 0 of both ports (R64, R315). -/
def Dev.msixBoth (d : Dev) : Dev := (d.msix 0 0).msix 1 0

/-- Add to a requester counter (R431) and to the device total of group 15. -/
def Dev.reqCount (d : Dev) (node i n : Nat) : Dev :=
  let d := d.perfAdd (960 + i) n
  { d with perf := { d.perf with requester := tupd d.perf.requester (node * 8 + i) 0 fun c => (c + n) % 2 ^ 48 } }

/-- The per-requester counts of an answer: RETRY, DENIED, REVOKED, POISONED (Table 20.7, R40). -/
def Dev.countAnswer (d : Dev) (node st : Nat) : Dev :=
  if st = stRetry then d.reqCount node 3 1
  else if st = stDenied then
    let d := d.reqCount node 4 1
    { d with pool := { d.pool with refused := tupd d.pool.refused node 0 (· + 1) } }
  else if st = stRevoked then
    let d := d.reqCount node 5 1
    { d with pool := { d.pool with refused := tupd d.pool.refused node 0 (· + 1) } }
  else if st = stPoisoned then d.reqCount node 6 1
  else d

/-- Answer a request with an RSP, counting it. -/
def Dev.answer (d : Dev) (m : Msg) (st det : Nat) (res : Nat := 0) : Dev :=
  (d.countAnswer m.src st).sendMsg (d.rspTo m st det res)

/-- A wake source arrives (R387 to R389): in Bank, or in Ember for the sources that can reach it there, the device starts
to wake; during entry it is latched, and the wake begins when the entry is complete. -/
def Dev.wakeLatch (d : Dev) (src : Nat) : Dev :=
  if d.pm.state = 2 || (d.pm.state = 3 && 3 ≤ src) then
    { d with pm := { d.pm with wakeFrom := d.pm.state, state := 5, wakeSrc := src } }
  else if d.pm.state = 4 && d.pm.wakeDue = 0 then { d with pm := { d.pm with wakeDue := src } }
  else d

end Sys2Proof.Machine
end

