-- ==== Sys2Proof/Machine/LineCode.lean ====
section
/-! DEFINITION. The line code of R348: arithmetic in GF(2^8), the systematic Reed–Solomon encoding over 76 positions
of which 4 are virtual, and bounded-distance decoding of at most 3 stored symbols. -/

namespace Sys2Proof.Machine

/-- Multiply by α, reducing by x^8 + x^4 + x^3 + x^2 + 1 (R348). -/
def gfStep (a : Nat) : Nat := if a < 128 then 2 * a else Nat.xor (2 * a - 256) 0x1D

/-- Product of two field elements, from bit `n` - 1 of the second down. -/
def gfMulAux (a b : Nat) : Nat → Nat → Nat
  | 0, acc => acc
  | n + 1, acc => gfMulAux a b n (Nat.xor (gfStep acc) (if bit b n then a else 0))

/-- Product of two field elements. -/
def gfMul (a b : Nat) : Nat := gfMulAux a b 8 0

/-- Power of a field element. -/
def gfPow (a : Nat) : Nat → Nat
  | 0 => 1
  | n + 1 => gfMul a (gfPow a n)

/-- Inverse of a field element: a^254. -/
def gfInv (a : Nat) : Nat := gfPow a 254

/-- α^k. -/
def gfAlpha (k : Nat) : Nat := gfPow 2 k

/-- The coefficients of g(x) = (x − α^0) … (x − α^6), highest degree first (R348). -/
def genPoly : List Nat :=
  (List.range 7).foldl (fun p k =>
    ((p ++ [0]).zip (0 :: p)).map fun (c : Nat × Nat) => Nat.xor c.1 (gfMul (gfAlpha k) c.2)) [1]

/-- One step of the division by g(x): remainder and incoming symbol. -/
def encodeStep (r : List Nat) (m : Nat) : List Nat :=
  match r with
  | [] => []
  | top :: rest =>
    let f := Nat.xor top m
    ((rest ++ [0]).zip (genPoly.drop 1)).map fun (c : Nat × Nat) => Nat.xor c.1 (gfMul f c.2)

/-- The message m_0 to m_68: the four bytes of A, then stored symbols 0 to 64 (R348). -/
def codeMessage (a : Nat) (stored : List Byte) : List Nat :=
  (natBytes 4 a ++ stored.take 65).map (·.toNat)

/-- The seven check symbols 65 to 71 of a line with address A, data and metadata (R348). -/
def checkSymbols (a : Nat) (dataMeta : List Byte) : List Byte :=
  ((codeMessage a dataMeta).foldl encodeStep (List.replicate 7 0)).map (BitVec.ofNat 8)

/-- The codeword of a line: 72 symbols (Table 16.1). -/
def encodeLine (a : Nat) (data : List Byte) (meta_ : Byte) : List Byte :=
  let m := data.take 64 ++ [meta_]
  m ++ checkSymbols a m

/-- The value of the received polynomial at α^j. -/
def syndrome (w : List Nat) (j : Nat) : Nat := w.foldl (fun s c => Nat.xor (gfMul s (gfAlpha j)) c) 0

/-- The seven syndromes of 76 symbols. -/
def syndromes (w : List Nat) : List Nat := (List.range 7).map (syndrome w)

/-- Solve an n by n linear system given as augmented rows. -/
def gfSolve : Nat → List (List Nat) → Option (List Nat)
  | 0, _ => some []
  | n + 1, rows =>
    match rows.find? fun r => r.headD 0 != 0 with
    | none => none
    | some p =>
      let inv := gfInv (p.headD 1)
      let p' := p.map (gfMul inv)
      let rest := (rows.erase p).map fun r => ((r.drop 1).zip (p'.drop 1)).map fun (c : Nat × Nat) => Nat.xor c.1 (gfMul (r.headD 0) c.2)
      match gfSolve n rest with
      | none => none
      | some sol =>
        let t := p'.drop 1
        some ((t.zip sol).foldl (fun s c => Nat.xor s (gfMul c.1 c.2)) (t.getLastD 0) :: sol)

/-- Correct exactly `v` symbols of 76, if a codeword lies there and every error is in a stored symbol (R348). -/
def correct (w : List Nat) (v : Nat) : Option (List Nat) :=
  let s := syndromes w
  let at_ := fun i => s.getD i 0
  match gfSolve v ((List.range v).map fun j => (List.range v).map (fun i => at_ (j + v - 1 - i)) ++ [at_ (j + v)]) with
  | none => none
  | some lam =>
    let roots := (List.range 76).filter fun pos =>
      let x := gfAlpha (75 - pos)
      (((List.range v).map fun i => gfMul (lam.getD i 0) (gfPow x (v - 1 - i))).foldl Nat.xor (gfPow x v)) == 0
    if roots.length ≠ v || roots.any (· < 4) then none
    else
      match gfSolve v ((List.range v).map fun j => (roots.map fun pos => gfPow (gfAlpha (75 - pos)) j) ++ [at_ j]) with
      | none => none
      | some ys =>
        let w' := (roots.zip ys).foldl (fun w e => w.set e.1 (Nat.xor (w.getD e.1 0) e.2)) w
        if (syndromes w').all (· == 0) then some w' else none

/-- Decode 72 stored symbols read at A: the 72 corrected symbols and whether any changed; none when uncorrectable. -/
def decodeLine (a : Nat) (stored : List Byte) : Option (List Byte × Bool) :=
  let w := (natBytes 4 a ++ stored).map (·.toNat)
  if (syndromes w).all (· == 0) then some (stored, false)
  else
    match (correct w 1).or ((correct w 2).or (correct w 3)) with
    | some w' => some ((w'.drop 4).map (BitVec.ofNat 8), true)
    | none => none

end Sys2Proof.Machine
end

