-- ==== Sys2Proof/Machine/Recall.lean ====
section
/-! DEFINITION. The stacks and where a line lies on them (R326), the requests the device itself sends on the fabric (R103, R119),
the directory sets of the carve-out with their spares (R121, R354), set recalls as they begin (R130), and stacks in
failure (R331, R332). -/

namespace Sys2Proof.Machine

/-! ## Stacks and places -/

/-- A stack. -/
def Dev.stack (d : Dev) (s : Nat) : Stack := tgetD d.stk.units s {}

/-- Change a stack. -/
def Dev.setStack (d : Dev) (s : Nat) (f : Stack → Stack) : Dev :=
  { d with stk := { d.stk with units := tput d.stk.units s (f (d.stack s)) } }

/-- The five-stack map is in force: a stack is RETIRED (R326). -/
def Dev.retired (d : Dev) : Option Nat := (List.range 6).find? fun s => (d.stack s).state == 5

/-- The data stack and the stack line address A of line `i` of extent `e` in frame `f` (R326). -/
def Dev.place (d : Dev) (e f i : Nat) : Nat × Nat :=
  match d.retired with
  | none => let r := 4 * e % 6; ((i + r) % 6, f * 87382 + (i + r) / 6)
  | some x =>
    let r5 := 4 * e % 5
    let s := (i + r5) % 5
    (if s < x then s else s + 1, f * 104859 + (i + r5) / 5)

/-- The row of a stack line address (R326). -/
def rowOf (a : Nat) : Nat := if a ≤ 1342177279 then a / 65536 else 20480

/-- The near-tier key a stack line address has for an extent number, under the map in force. -/
def Dev.keyAt (d : Dev) (ext s a : Nat) : Option Nat :=
  let inv := fun (f n r : Nat) => if r ≤ n && n - r < 2 ^ 19 then some (f * 2 ^ 25 + (n - r) * 64) else none
  match d.retired with
  | none => inv (a / 87382) (6 * (a % 87382) + s) (4 * ext % 6)
  | some x => if s = x then none else inv (a / 104859) (5 * (a % 104859) + if s < x then s else s - 1) (4 * ext % 5)

/-! ## Requests of the device (R99, R103) -/

/-- Key of an outstanding unicast request. -/
def uniKey (dst tag : Nat) : Nat := dst * 4096 + tag

/-- Key of an outstanding multicast request. -/
def mcKey (tag : Nat) : Nat := 2 ^ 24 + tag

/-- The outstanding request an answer of node `src` with `tag` belongs to (R100). -/
def Dev.matchReq (d : Dev) (src tag : Nat) : Option (Nat × DevReq) :=
  match tget d.fab.devReqs (uniKey src tag) with
  | some r => some (uniKey src tag, r)
  | none => (tget d.fab.devReqs (mcKey tag)).map fun r => (mcKey tag, r)

/-- A tag may be used for a new request: not outstanding to its destination, nor where an answer could be confused with
one to a multicast. -/
def Dev.tagFree (d : Dev) (mc : Bool) (dst t : Nat) : Bool :=
  if mc then d.fab.devReqs.all fun e => e.1 % 4096 != t
  else (tget d.fab.devReqs (uniKey dst t)).isNone && (tget d.fab.devReqs (mcKey t)).isNone

/-- The deadline of a request issued now (R103). -/
def Dev.reqDeadline (d : Dev) : Nat := d.now + usTicks (d.fld 0x180104 0 12)

/-- Send a request of the device's own, with a tag of its choice (log entry 5); `purpose` and `index` say what it
serves. With 4,096 requests outstanding to the DST it waits for a tag, and the number answered is 4096 (R99). -/
def Dev.request (d : Dev) (m : Msg) (purpose index : Nat) : Nat × Dev :=
  let c := d.choose 4096 (d.tagFree m.mc m.dst)
  match c.1 with
  | none => (4096, { c.2 with fab := { c.2.fab with waitReqs := c.2.fab.waitReqs ++ [(m, purpose, index)] } })
  | some t =>
    let m := { m with tag := t }
    let key := if m.mc then mcKey t else uniKey m.dst t
    let r : DevReq := { m := m, deadline := d.reqDeadline, purpose := purpose, index := index }
    let d : Dev := { c.2 with fab := { c.2.fab with devReqs := tput c.2.fab.devReqs key r } }
    (t, d.sendMsg m)

/-- Some tag to the DST of a waiting request is free. -/
def Dev.canSend (d : Dev) (w : Msg × Nat × Nat) : Bool := (List.range 4096).any (d.tagFree w.1.mc w.1.dst)

/-- A multicast that waited for its tag is the one its transaction awaits the answers of. -/
def Dev.mcSent (d : Dev) (w : Msg × Nat × Nat) (tag : Nat) : Dev :=
  if w.1.mc then { d with coh := { d.coh with txns := tmod d.coh.txns w.2.2 fun t => { t with mcTag := some tag } } } else d

/-- Send the oldest request that waits for a tag and now has one (R99). -/
def Dev.sendWaiting (d : Dev) : Dev :=
  match d.fab.waitReqs.find? d.canSend with
  | none => d
  | some w =>
    let a := { d with fab := { d.fab with waitReqs := d.fab.waitReqs.erase w } }.request w.1 w.2.1 w.2.2
    a.2.mcSent w a.1

/-- Forget an outstanding request: its tag may serve one that waits. -/
def Dev.endReq (d : Dev) (key : Nat) : Dev :=
  ({ d with fab := { d.fab with devReqs := tdel d.fab.devReqs key } }).sendWaiting

/-- A request of the device may be sent again (R103). -/
def Dev.mayResend (d : Dev) (r : DevReq) : Bool := r.again || r.resends < d.fld 0x180104 20 4

/-- Send a request of the device again, and await its answer. -/
def Dev.resend (d : Dev) (key : Nat) (r : DevReq) : Dev :=
  let r' : DevReq := { r with resends := if r.again then r.resends else r.resends + 1, again := false, deadline := d.reqDeadline }
  ({ d with fab := { d.fab with devReqs := tput d.fab.devReqs key r' } }).sendMsg r.m

/-- A request of the device is answered RETRY: it goes again once the hint has elapsed, its timeout restarted and no resend
counted (R103). -/
def Dev.reqAgain (d : Dev) (key : Nat) (r : DevReq) (hint : Nat) : Dev :=
  let r' : DevReq := { r with again := true, deadline := d.now + (hint * 512 + 9) / 10 }
  { d with fab := { d.fab with devReqs := tput d.fab.devReqs key r' } }

/-! ## The directory's own memory (R34, R57, R121) -/

/-- The first frame of the carve-out (R34, R57). -/
def Dev.carveOut (d : Dev) : Nat := if d.retired.isSome then 12768 else 15328

/-- The live set and the quarter of it (four ways) that a stack line address holds: set g lies in lines 4g to 4g + 3 of the
last 16 frames of the carve-out. The interleave of a carve-out frame is a free value (log entry 53). -/
def Dev.setLineAt (d : Dev) (s a : Nat) : Option (Nat × Nat) :=
  let f := a / (if d.retired.isSome then 104859 else 87382)
  if f < d.carveOut + 16 || d.carveOut + 32 ≤ f then none
  else (d.keyAt (Config.carveExtent f) s a).map fun k => (((f - d.carveOut - 16) * 2 ^ 19 + k % 2 ^ 25 / 64) / 4, k / 64 % 4)

/-- One of the four lines of a live set lies on the stack. -/
def Dev.setOn (d : Dev) (live s : Nat) : Bool :=
  let f := d.carveOut + 16 + 4 * live / 2 ^ 19
  (List.range 4).any fun q => (d.place (Config.carveExtent f) f (4 * live % 2 ^ 19 + q)).1 == s

/-- The set that a live set of the memory stands for: itself, or the one whose spare it is; none when its memory is not in use. -/
def Dev.setOfLive (d : Dev) (live : Nat) : Option Nat :=
  if live < 2097120 then if (tget d.coh.spares live).isSome then none else some live
  else (d.coh.spares.find? (·.2 == live)).map (·.1)

/-- The live set a set is kept in: its spare, if one was substituted (R121). -/
def Dev.liveSet (d : Dev) (set : Nat) : Nat := tgetD d.coh.spares set set

/-- The lowest spare set still good and not in use. -/
def Dev.freeSpare (d : Dev) : Option Nat :=
  ((List.range 32).map (2097120 + ·)).find? fun g => !nmem d.coh.deadSets g && !d.coh.spares.any (·.2 == g)

/-- The memory of a set fails (R121, R354): a spare takes its place; false when none remains. -/
def Dev.spareFor (d : Dev) (set : Nat) : Bool × Dev :=
  let d := { d with coh := { d.coh with deadSets := nadd d.coh.deadSets (d.liveSet set) } }
  match d.freeSpare with
  | some g => (true, { d with coh := { d.coh with spares := tput d.coh.spares set g } })
  | none => (false, d)

/-! ## Set recalls (R130) -/

/-- The nodes that hold sessions which accepted COHERENT_CLIENTS. -/
def Dev.coherentNodes (d : Dev) : List Nat :=
  (d.host.sessions.map fun s => s.2.node).filter fun n => d.hasFeature n 2

/-- A set becomes 16 FREE ways. -/
def Dev.wipeSet (d : Dev) (set : Nat) : Dev :=
  { d with coh := { d.coh with dir := d.coh.dir.filter fun e => globalSet e.1 != set,
                               cache := d.coh.cache.filter fun e => globalSet e.2 != set } }

/-- Start the recall of a global directory set: an event and SNP_RECALL to every coherent node. The set becomes 16 FREE ways when
every node has completed, at once where there is none. -/
def Dev.recallStart (d : Dev) (set code : Nat) : Dev :=
  if (tget d.coh.recalls set).isSome then d
  else
    let h := set / 43690
    let d := d.log (0x0300 + 4 * h + 1) (code := code) (arg0 := set)
    let ask := fun (acc : List (Nat × Nat) × Dev) (n : Nat) =>
      let a := acc.2.request { cls := 1, opcode := 5, src := d.ownNode, dst := n, tag := 0,
                               addr := h * 65536 + set % 43690, len := 63 } 6 set
      (acc.1 ++ [(n, a.1)], a.2)
    let r := d.coherentNodes.foldl ask ([], d)
    if r.1.isEmpty then r.2.wipeSet set
    else { r.2 with coh := { r.2.coh with recalls := tput r.2.coh.recalls set { nodes := r.1 } } }

/-- An uncorrectable error destroys a set: it is recalled, in a spare where one remains. -/
def Dev.setDestroyed (d : Dev) (set : Nat) : Dev :=
  let r := d.spareFor set
  r.2.recallStart set (if r.1 then 1 else 2)

/-- The sets with entries that a stack holds a line of. -/
def Dev.setsHeld (d : Dev) (s : Nat) : List Nat :=
  (d.coh.dir.map fun e => globalSet e.1).eraseDups.filter fun g => d.setOn (d.liveSet g) s

/-! ## Stacks in failure -/

/-- A stack fails: its state and cause, an event, its queued accesses finished, and the directory sets it holds recalled
(R330 to R332). A set without entries has nothing to recall (log entry 53). -/
def Dev.failStack (d : Dev) (s cause : Nat) : Dev :=
  if (d.stack s).state = 2 || (d.stack s).state = 3 then
    let sets := d.setsHeld s
    let d := (d.setStack s fun k => { k with state := 4, cause := cause, queue := [] }).log (0x0200 + 16 * s) (code := 4) (arg0 := cause)
    forEach sets (fun g d => d.recallStart g 1) d
  else d

end Sys2Proof.Machine
end

