-- ==== Sys2Proof/Machine/Lines.lean ====
section
/-! DEFINITION. Reading and writing near-tier lines through the stack controllers: the line's stack and stack line
address (R326), error correction (R348 to R352), poison (R357), and stacks in failure (R331, R332). A line is named
by its extent number, which fixes the interleave, and its near-tier byte key frame * 2^25 + offset. -/

namespace Sys2Proof.Machine

/-- The key of a stored codeword: stack * 2^32 + A. -/
def Dev.codeKey (d : Dev) (ext key : Nat) : Nat :=
  let p := d.place ext (key / 2 ^ 25) (key / 64 % 2 ^ 19)
  p.1 * 2 ^ 32 + p.2

/-- The data stack of a line. -/
def Dev.dataStack (d : Dev) (ext key : Nat) : Nat := (d.place ext (key / 2 ^ 25) (key / 64 % 2 ^ 19)).1

/-- An access arrives at the controller of its line's stack (R333, R334, R342). A read of a line that a queued write holds
is served from the write queue (R336). -/
def Dev.access (d : Dev) (ext key kind source port origin addr : Nat) : Dev :=
  let p := d.place ext (key / 2 ^ 25) (key / 64 % 2 ^ 19)
  let s := d.stack p.1
  if s.state ≠ 2 || (kind = 0 && s.queue.any fun x => x.a == p.2 && x.kind == 1) then d
  else
    let x : Access :=
      { id := d.stk.nextAccess, a := p.2, addr := addr / 64 * 64, kind := kind, source := source, port := port,
        origin := origin, arrived := d.now }
    let d := { d with stk := { d.stk with nextAccess := d.stk.nextAccess + 1 } }
    d.setStack p.1 fun s => { s with queue := s.queue ++ [x] }

/-- Forget what the stored codewords of a run of near-tier lines had beside their bytes: the lines are written. -/
def Dev.dropCodes (d : Dev) (line n : Nat) : Dev :=
  let out := fun (k : Nat) => k < line || line + n ≤ k
  { d with ecc := { d.ecc with odd := d.ecc.odd.filter fun e => out e.1, writeBacks := d.ecc.writeBacks.filter fun e => out e.1 } }

/-- Mark a line POISONED: zero data, POISON 1 (R357). -/
def Dev.poisonLine (d : Dev) (_ext key : Nat) : Dev :=
  let k := key / 64 * 64
  { d with mem := memZero d.mem k 64, poison := nadd d.poison (k / 64),
           ecc := { d.ecc with odd := tdel d.ecc.odd (k / 64) } }

/-- An uncorrectable read at stack line address `a`: its journal entry, its count, and, where it counts, the UE_LIMIT rule (R331,
R346, R359). -/
def Dev.ueNote (d : Dev) (s a addr : Nat) (counts : Bool) : Dev :=
  let d := (d.log (0x0200 + 16 * s + 1) (status := stPoisoned)
    (arg0 := a % 64 + a / 1024 % 64 * 64 + rowOf a * 4096) (arg1 := addr)).bump (0x700028 + 0x40000 * s) 16
  if !counts then d
  else
    let rows := ((d.stack s).ueRows.filter fun e => d.now < e.2 + 800000000 && e.1 != rowOf a) ++ [(rowOf a, d.now)]
    let d := d.setStack s fun k => { k with ueRows := rows }
    if d.fld (0x700010 + 0x40000 * s) 0 8 ≤ rows.length then d.failStack s 2 else d

/-- An uncorrectable read of a pool line: it is poisoned and noted; in the region the test modes name it does not count (R346, R357,
R359). -/
def Dev.uncorrectable (d : Dev) (ext key addr : Nat) : Dev :=
  let ck := d.codeKey ext key
  let handle := (tgetD d.pool.emt ext { kind := 0, handle := 0x10000, index := 0 }).handle
  (d.poisonLine ext key).ueNote (ck / 2 ^ 32) (ck % 2 ^ 32) addr (handle != d.fld 0x900080 16 16)

/-- A read corrected a line: counted, and its write-back queued (R350). -/
def Dev.corrected (d : Dev) (line ck : Nat) : Dev :=
  let d := d.bump (0x900040 + 8 * (ck / 2 ^ 32)) 16
  if bit (d.reg 0x900000) 1 then { d with ecc := { d.ecc with writeBacks := tput d.ecc.writeBacks line ck } } else d

/-- Read the 64 bytes of a line: none when it is poisoned or cannot be corrected (R346, R350, R358). -/
def Dev.readLine (d : Dev) (ext key addr : Nat) : Option (List Byte) × Dev :=
  let k := key / 64 * 64
  let ck := d.codeKey ext k
  let bad := nmem d.poison (k / 64)
  match tget d.ecc.odd (k / 64) with
  | none => if bad then (none, d) else (some (memRead d.mem k 64), d)
  | some w =>
    match decodeLine (ck % 2 ^ 32) w with
    | none => (none, d.uncorrectable ext k addr)
    | some (w', changed) =>
      let m := (w'.getD 64 0).toNat
      if m ≠ 0 && m ≠ 128 then (none, d.uncorrectable ext k addr)
      else
        let d := if changed then d.corrected (k / 64) ck else d
        if m = 128 || bad then (none, d) else (some (w'.take 64), d)

/-- XOR of two byte runs. -/
def xorBytes (a b : List Byte) : List Byte := (a.zip b).map fun p => p.1 ^^^ p.2

/-- The stored codeword of a line (R348). -/
def Dev.codeword (d : Dev) (ext key : Nat) : List Byte :=
  let k := key / 64 * 64
  let ck := d.codeKey ext k
  match tget d.ecc.odd (k / 64) with
  | some w => w
  | none => encodeLine (ck % 2 ^ 32) (memRead d.mem k 64) (if nmem d.poison (k / 64) then 128 else 0)

/-- Store a codeword as it is (R359): memory holds what it decodes to; where it does not decode to a line without poison, the
line is poisoned. -/
def Dev.putCodeword (d : Dev) (ext key : Nat) (w : List Byte) : Dev :=
  let k := key / 64 * 64
  let ck := d.codeKey ext k
  let d := { d with ecc := { d.ecc with odd := tput d.ecc.odd (k / 64) w, writeBacks := tdel d.ecc.writeBacks (k / 64) } }
  match decodeLine (ck % 2 ^ 32) w with
  | some (w', _) =>
    if w'.getD 64 0 = 0 then { d with mem := memWrite d.mem k (w'.take 64), poison := ndel d.poison (k / 64) }
    else { d with mem := memZero d.mem k 64, poison := nadd d.poison (k / 64) }
  | none => { d with mem := memZero d.mem k 64, poison := nadd d.poison (k / 64) }

/-- Write bytes inside one line: a full line is encoded whole and clears poison; a part is a read-modify-write, and on
a poisoned or uncorrectable line nothing is written (R351, R352). False when it ends POISONED. -/
def Dev.writeLine (d : Dev) (ext key addr : Nat) (bs : List Byte) : Bool × Dev :=
  let k := key / 64 * 64
  if bs.length = 64 then
    (true, { d with mem := memWrite d.mem k bs, poison := ndel d.poison (k / 64),
                    ecc := { d.ecc with odd := tdel d.ecc.odd (k / 64),
                                        writeBacks := tdel d.ecc.writeBacks (k / 64) } })
  else
    match d.readLine ext key addr with
    | (none, d) => (false, d)
    | (some old, d) =>
      (true, { d with mem := memWrite (memWrite d.mem k old) key bs,
                      ecc := { d.ecc with odd := tdel d.ecc.odd (k / 64),
                                          writeBacks := tdel d.ecc.writeBacks (k / 64) } })

end Sys2Proof.Machine
end

