-- ==== Sys2Proof/Machine/Directory.lean ====
section
/-! DEFINITION. The coherence directory (R121 to R127): its entries, sets, ways and cache, and opening transactions with their snoops. -/

namespace Sys2Proof.Machine

/-! ## Entries -/

/-- The directory entry of a line. -/
def Dev.dirOf (d : Dev) (line : Nat) : Option DirEntry := tget d.coh.dir line

/-- Store or change the entry of a line. -/
def Dev.dirPut (d : Dev) (line : Nat) (e : DirEntry) : Dev :=
  { d with coh := { d.coh with dir := tput d.coh.dir line e } }

/-- Set the entry of a line FREE, and drop it from the directory cache. -/
def Dev.dirDel (d : Dev) (line : Nat) : Dev :=
  { d with coh := { d.coh with dir := tdel d.coh.dir line,
                               cache := d.coh.cache.filter fun e => e.2 != line } }

/-- The line is busy (R117). -/
def Dev.busy (d : Dev) (line : Nat) : Bool := (tget d.coh.txns line).isSome

/-- The entries of the set of a line. -/
def Dev.setEntries (d : Dev) (line : Nat) : List (Nat × DirEntry) :=
  d.coh.dir.filter fun e => globalSet e.1 == globalSet line

/-- Note an access to an entry: NRU 1, and when every way then has NRU 1 the other ways' bits are cleared (R123). -/
def Dev.touch (d : Dev) (line : Nat) : Dev :=
  match d.dirOf line with
  | none => d
  | some e =>
    let d := d.dirPut line { e with nru := true }
    let es := d.setEntries line
    if es.length = 16 && es.all (·.2.nru) then
      es.foldl (fun d x => if x.1 = line then d else d.dirPut x.1 { x.2 with nru := false }) d
    else d

/-- The lowest free way of the set of a line. -/
def Dev.freeWay (d : Dev) (line : Nat) : Option Nat :=
  (List.range 16).find? fun w => (d.setEntries line).all fun e => e.2.way != w

/-- The victim of the set of a line: the non-busy way with NRU 0 of lowest number, else the lowest non-busy way
(R124, R125). -/
def Dev.victim (d : Dev) (line : Nat) : Option Nat :=
  let es := d.setEntries line
  let pick := fun (p : Nat × DirEntry → Bool) =>
    ((List.range 16).findSome? fun w => es.find? fun e => e.2.way == w && p e).map (·.1)
  (pick fun e => !d.busy e.1 && !e.2.nru).or (pick fun e => !d.busy e.1)

/-- Node n belongs to domain dm in force (R127). -/
def Dev.inDomain (d : Dev) (n dm : Nat) : Bool :=
  tget d.coh.nodeDom n == some dm && (tget d.coh.domains dm).isSome

/-- The owner of an entry, in E or M (R123). -/
def DirEntry.owner (e : DirEntry) : Option Nat := if e.state = 3 then e.ptrs.head? else none

/-- The 16 bytes of a directory entry (Table 5.8). -/
def dirBytes (line : Nat) (e : DirEntry) : List Byte :=
  let w0 := (e.ptrs.take 4).foldr (fun p v => v * 4096 + p) 0 + e.domain * 2 ^ 52 + min 4 e.ptrs.length * 2 ^ 57 + e.state * 2 ^ 61
  let w1 := b2n e.nru * 2 ^ 21 + line * 2 ^ 22
  natBytes 8 w0 ++ natBytes 8 w1

/-! ## The directory cache (R124) -/

/-- The cache set of a line's directory set: a spare, if one was substituted. -/
def Dev.cacheSetOf (d : Dev) (line : Nat) : Nat :=
  let c := 682 * homeOf line + setOf line % 682
  tgetD d.coh.cacheSpares c c

/-- A cache set fails its test: a spare not in use takes its place (R121). -/
def Dev.cacheSpare (d : Dev) (c : Nat) : Dev :=
  match ((List.range 32).map (32736 + ·)).find? fun g => g != tgetD d.coh.cacheSpares c c && !d.coh.cacheSpares.any (·.2 == g) with
  | some g => { d with coh := { d.coh with cacheSpares := tput d.coh.cacheSpares c g } }
  | none => d

/-- Mark a way of the cache used. -/
def Dev.cacheMark (d : Dev) (key line : Nat) : Dev :=
  let nru := nadd d.coh.cacheNru key
  let ways := (List.range 16).map fun w => key / 16 * 16 + w
  { d with coh := { d.coh with cache := tput d.coh.cache key line,
                               cacheNru := if ways.all (nmem nru) then nru.filter fun k => !nmem ways k || k == key else nru } }

/-- Bring the entry of a line into the directory cache; none when every way of its cache set is busy. -/
def Dev.cacheTouch (d : Dev) (line : Nat) : Option Dev :=
  let keys := (List.range 16).map fun w => d.cacheSetOf line * 16 + w
  let busyAt := fun k => match tget d.coh.cache k with
    | some l => d.busy l
    | none => false
  match keys.find? fun k => tget d.coh.cache k == some line with
  | some k => some (d.cacheMark k line)
  | none =>
    (((keys.find? fun k => (tget d.coh.cache k).isNone).or
      (keys.find? fun k => !busyAt k && !nmem d.coh.cacheNru k)).or
      (keys.find? fun k => !busyAt k)).map fun k => d.cacheMark k line

/-! ## Snoops and transactions -/

/-- Send a unicast snoop for a line (R119). -/
def Dev.snoop (d : Dev) (line node op : Nat) (data : List Byte) : Nat × Dev :=
  d.request { cls := 1, opcode := op, src := d.ownNode, dst := node, tag := 0, addr := line * 64, len := 63, data := data }
    3 line

/-- Send unicast snoops to nodes in turn. -/
def Dev.snoops (d : Dev) (line op : Nat) : List Nat → List (Nat × Nat) × Dev
  | [] => ([], d)
  | n :: r =>
    let a := d.snoop line n op []
    let b := a.2.snoops line op r
    ((n, a.1) :: b.1, b.2)

/-- Count of set bits of a 64-bit mask. -/
def popcount (mask : Nat) : Nat := ((List.range 64).filter (bit mask)).length

/-- Open a transaction on a line that waits for unicast answers of `nodes` (R117). -/
def Dev.openTxn (d : Dev) (line : Nat) (kind : TxnKind) (nodes : List Nat) (op : Nat) (owner : Option Nat) : Dev :=
  let a := d.snoops line op nodes
  { a.2 with coh := { a.2.coh with txns := tput a.2.coh.txns line { kind := kind, waits := a.1, owner := owner } } }

/-- Open a transaction that waits for the answers of a domain's members to one multicast SNP_INV (R119, R120). DESIGN CHOICE
(log entry 54): of a domain whose MASK is 0, where no member is to answer, the snoop is waited out with its resends. -/
def Dev.openMcTxn (d : Dev) (line : Nat) (kind : TxnKind) (group mask cause : Nat) : Dev :=
  let a := d.request { cls := 1, opcode := 1, src := d.ownNode, dst := group, tag := 0, addr := line * 64, len := 63, mc := true,
                       data := natBytes 8 mask ++ natBytes 2 cause } 3 line
  let t : Txn := { kind := kind, mcTag := some a.1, mcLeft := popcount mask }
  { a.2 with coh := { a.2.coh with txns := tput a.2.coh.txns line t } }

/-- Start invalidating the holders of an entry for `cause`. The busy entry takes a way of the directory cache; where every way of
its cache set is busy nothing starts yet (R124). -/
def Dev.openInv (d : Dev) (line : Nat) (kind : TxnKind) (e : DirEntry) (cause : Nat) : Dev :=
  match d.cacheTouch line with
  | none => d
  | some d => if e.state = 2 then d.openMcTxn line kind e.group e.mask cause else d.openTxn line kind e.ptrs 1 e.owner

/-! ## Invalidations that operations order (R50, R54, R118, R127, R132) -/

/-- The extent index and handle of an extent number, where it belongs to a region or a view. -/
def Dev.extOwner (d : Dev) (ext : Nat) : Option (Nat × Nat) :=
  (tget d.pool.emt ext).map fun e => (e.handle, e.index)

/-- The extent is held by the barrier of a publish: an extent the draft modified, or its view (R50). -/
def Dev.barred (d : Dev) (ext : Nat) : Bool :=
  d.pool.publishing.any fun p =>
    match tget d.pool.drafts p.draft with
    | none => false
    | some f =>
      (f.view ≤ ext && ext < f.view + f.count) ||
      (match tget d.pool.emt ext with
       | some e => e.handle == p.handle && e.kind == 1 &&
           ((tget d.pool.emt (f.view + e.index)).map (·.mod)).getD false
       | none => false)

/-- The operations in force that make every holder of a line give it up. -/
def Dev.dropAll (d : Dev) (line : Nat) : Bool :=
  d.barred (line / 2 ^ 19) || nmem d.coh.sweepLines line || d.coh.privates.any (fun r => r.1 ≤ line && line ≤ r.2) ||
  nmem d.far.demoting (line / 1024)

/-- The drains of its region that a line lies in (R54, R118). -/
def Dev.drainsAt (d : Dev) (line : Nat) : List Draining :=
  match d.extOwner (line / 2 ^ 19) with
  | none => []
  | some (h, i) => d.pool.draining.filter fun r => r.handle == h && r.first ≤ i && i ≤ r.last

/-- A recorded holder of a line must give it up: to an operation that takes every copy, or to a drain that names it or ALL. -/
def Dev.mustDrop (d : Dev) (line node : Nat) : Bool :=
  d.dropAll line || (d.drainsAt line).any fun r => r.host == none || r.host == some node

/-- An entry whose sharers are somewhere in a domain must go: every copy is taken, or a drain names ALL or a member. -/
def Dev.mustDropDomain (d : Dev) (line dm : Nat) : Bool :=
  d.dropAll line || (d.drainsAt line).any fun r => match r.host with
    | none => true
    | some h => d.inDomain h dm

/-- The set of a line is being recalled (R130). -/
def Dev.recalled (d : Dev) (line : Nat) : Bool := (tget d.coh.recalls (globalSet line)).isSome

/-- Back-invalidate the holders of a line that must give it up, unless it is busy or its set is being recalled (R118, R130). -/
def Dev.sweep (d : Dev) (line : Nat) : Dev :=
  if d.busy line || d.recalled line then d
  else
    match d.dirOf line with
    | none => d
    | some e =>
      if e.state = 2 then if d.mustDropDomain line e.domain then d.openInv line (.drop true) e 0 else d
      else
        let who := e.ptrs.filter (d.mustDrop line)
        if who.isEmpty then d
        else if who = e.ptrs then d.openInv line (.drop true) e 0
        else
          match d.cacheTouch line with
          | none => d
          | some d => d.openTxn line (.drop false) who 1 (e.owner.filter (nmem who))

/-- Back-invalidate every line of the directory the operations in force name. -/
def Dev.sweepAll (d : Dev) : Dev := forEach (d.coh.dir.map (·.1)) (fun l d => d.sweep l) d

/-- Back-invalidate the lines that share a cache set with a line: a way of it has come free (R124). -/
def Dev.sweepBeside (d : Dev) (line : Nat) : Dev :=
  forEach ((d.coh.dir.map (·.1)).filter fun l => d.cacheSetOf l == d.cacheSetOf line) (fun l d => d.sweep l) d

/-- No line still waits for the invalidations: none that must go is recorded or busy. -/
def Dev.swept (d : Dev) (inRange : Nat → Bool) : Bool :=
  (d.coh.txns.all fun t => !inRange t.1) &&
  d.coh.dir.all fun e => !inRange e.1 ||
    (if e.2.state = 2 then !d.mustDropDomain e.1 e.2.domain else e.2.ptrs.all fun n => !d.mustDrop e.1 n)

end Sys2Proof.Machine
end

