-- ==== Sys2Proof/Machine/Replicate.lean ====
section
/-! DEFINITION. What the active of a mirror pair sends its partner with each state change, and how a response waits for
the acknowledgement (R309, R310). The codes of REP_STATE kinds but HANDOVER are log entry 15. -/

namespace Sys2Proof.Machine

/-- The unit replicates: Active, with a partner, or ALONE with one that is copying (R309, R319, Table 14.2). -/
def Dev.mirrors (d : Dev) : Bool := d.mir.role == 1 && (d.mir.phase != 3 || d.mir.copying)

/-- Queue a message at an output of the router. -/
def Dev.queueOn (d : Dev) (port : Nat) (m : Msg) : Dev :=
  let q : Queued := { input := 24, m := m, at_ := d.now }
  { d with router := { d.router with queues := tput d.router.queues port (tgetD d.router.queues port [] ++ [q]) } }

/-- The epoch number of this moment (R314): 204,800 ticks. -/
def Dev.epochNow (d : Dev) : Nat := d.now / 204800

/-- Send one replication record: SEQ, EPOCH, ORIGIN, OTAG and the body (R309). -/
def Dev.repRecord (d : Dev) (op : Nat) (body : List Byte) (origin otag : Nat) : Dev :=
  if !d.mirrors then d
  else
    let a := d.draw
    let d := a.2
    let head := natBytes 8 d.mir.nextSeq ++ natBytes 4 d.epochNow ++ natBytes 2 (origin % 4096) ++ natBytes 2 (otag % 4096)
    let m : Msg := { cls := 0, opcode := op, src := d.ownNode, dst := d.fld 0x680004 16 12, tag := a.1 % 4096,
                     addr := d.mir.term % 2 ^ 32 * 65536, len := (head ++ body).length - 1, data := head ++ body }
    let link := d.mir.carrying.headD 24
    let r : RepRec := { seq := d.mir.nextSeq, epoch := d.epochNow, link := link, m := m }
    { d with mir := { d.mir with nextSeq := d.mir.nextSeq + 1, unacked := d.mir.unacked ++ [r] } }.queueOn link m

/-- Replicate a byte run of the pool in records of at most 192 bytes (REP_WRITE). -/
def Dev.repWriteRun (d : Dev) (addr : Nat) (bs : List Byte) (origin otag : Nat) : Dev :=
  forEach (List.range ((bs.length + 191) / 192))
    (fun i d => d.repRecord 0x40 (natBytes 8 (addr + 192 * i) ++ (bs.drop (192 * i)).take 192) origin otag) d

/-- The eight fingerprint bytes of a dedup tail: a function of OPCODE, ADDR, LEN and the payload's CRC-32C that the spec
does not give (log entry 7). -/
def fingerprint (op addr len crc : Nat) : List Byte :=
  slice (Config.digestOf 1 (natBytes 1 op ++ natBytes 6 addr ++ natBytes 1 len ++ natBytes 4 crc)) 0 8

/-- A dedup tail of 24 bytes (Table 14.4). -/
def dedupTail (m : Msg) (st det res : Nat) : List Byte :=
  fingerprint m.opcode m.addr m.len (crc32c m.data) ++ natBytes 1 st ++ [0] ++ natBytes 2 det ++ natBytes 8 res ++ zeros 4

/-- Replicate a line an atomic or REDUCE made (REP_ATOMIC). -/
def Dev.repAtomicLine (d : Dev) (addr : Nat) (line : List Byte) (tail : List Byte) (origin otag : Nat) : Dev :=
  d.repRecord 0x41 (natBytes 8 (addr / 64 * 64) ++ line ++ tail) origin otag

/-- Replicate an administrative operation (REP_ADMIN). -/
def Dev.repAdminOp (d : Dev) (desc outcome tail : List Byte) (origin otag : Nat) : Dev :=
  d.repRecord 0x42 (slice desc 0 64 ++ slice outcome 0 16 ++ slice tail 0 24) origin otag

/-- Replicate state (REP_STATE): kind and 16-byte entry. -/
def Dev.repStateEntry (d : Dev) (kind : Nat) (entry : List Byte) (origin otag : Nat) : Dev :=
  d.repRecord 0x43 (natBytes 8 kind ++ slice entry 0 16) origin otag

/-- Replicate the entry of a line as its transaction leaves it (Table 14.8). -/
def Dev.repDir (d : Dev) (line : Nat) : Dev :=
  if !d.mirrors then d
  else d.repStateEntry 0 (dirBytes line ((d.dirOf line).getD { state := 0 })) 0 0

/-- Send a response, or hold it with the last record of its operation until the partner acknowledges (R310). `n` is
the number of records outstanding before the operation. -/
def Dev.respond (d : Dev) (n : Nat) (r : Msg) : Dev :=
  if d.mir.unacked.length ≤ n then d.sendMsg r
  else
    match d.mir.unacked.getLast? with
    | none => d.sendMsg r
    | some x => { d with mir := { d.mir with unacked := d.mir.unacked.dropLast ++ [{ x with release := some r }] } }

/-- The time the unacknowledged records take on the carrying links, in ns: about 97 GB/s each (R313). -/
def Dev.backlogNs (d : Dev) : Nat :=
  let cells := (d.mir.unacked.map fun r => cellsOf r.m.data.length).foldl (· + ·) 0
  48 * cells * 10 / (970 * max 1 d.mir.carrying.length)

/-- State-changing requests are refused for the backlog (R313). -/
def Dev.backlogged (d : Dev) : Bool := d.mirrors && 1000 * d.fld 0x680000 8 8 < d.backlogNs

end Sys2Proof.Machine
end

