-- ==== Sys2Proof/Machine/FarEngine.lean ====
section
/-! DEFINITION. The far-tier engine's part in an access: cached skeins and their slots, fetches (R262, R263), the miss
sketch and access counters (R249, R250), demotion and write-back (R251, R252, R264). A skein is numbered
extent * 512 + skein; a skein slot frame * 512 + place; near-tier bytes of a slot begin at slot * 65536. -/

namespace Sys2Proof.Machine

/-- The EMT entry of an extent number; the device window is WINDOW, an extent never allocated FREE (R32, R37). -/
def Dev.emtOf (d : Dev) (ext : Nat) : Emt :=
  if 0x7FFFF8 ≤ ext then { kind := 5, handle := 0x10000, index := 0 }
  else tgetD d.pool.emt ext { kind := 0, handle := 0x10000, index := 0 }

/-- A drive. -/
def Dev.drive (d : Dev) (n : Nat) : Option Drive := tget d.far.drives n

/-- The drive serves fetches: ACTIVE or RETIRING. -/
def Dev.driveServes (d : Dev) (n : Nat) : Bool :=
  match d.drive n with
  | some v => v.state == 3 || v.state == 4
  | none => false

/-- The drives that hold an extent. -/
def Emt.drives (e : Emt) : List Nat := if e.repl then [e.drive, e.drive2] else [e.drive]

/-- An extent of a backed region has a drive that can take a write-back (R264). -/
def Dev.writable (d : Dev) (e : Emt) : Bool := e.drives.any d.driveServes

/-- The opcode of an NVMe command (Table 11.2); an admin command's has 0x100 added. -/
def NvmeCmd.opcode (c : NvmeCmd) : Nat :=
  if c.kind = 0 || c.kind = 5 then 2 else if c.kind = 1 || c.kind = 6 then 1 else if c.kind = 2 then 0 else if c.kind = 3 then 9 else 0x102

/-- Where an NVMe command works: its first LBA and its number of blocks less one for a Read, a Write and a deallocation, the log
page for Get Log Page, nothing for Flush. Slot 524,288 stands for the whole namespace. -/
def Dev.nvmeArgs (d : Dev) (c : NvmeCmd) : List Nat :=
  let v := d.drive c.drive
  let l := max 512 ((v.map (·.lba)).getD 0)
  let whole := (((v.map fun v => (v.spaces.find? (·.nsid == v.nsid)).map (·.bytes)).getD none).getD (2 ^ 44)) / l
  if c.kind = 4 then [c.slot]
  else if c.kind = 2 then []
  else if c.kind = 3 then if c.slot = 524288 then [0, whole - 1] else [c.slot * 2 ^ 25 / l, 2 ^ 25 / l - 1]
  else [(c.slot * 2 ^ 25 + c.skein % 512 * 65536) / l, 65536 / l - 1]

/-- Commands a drive may have outstanding (R258): 32 entries of the admin queue, 256 of each I/O queue and at most 1,024 in all. -/
def Drive.room (v : Drive) (admin : Bool) : Nat := if admin then 32 else min 1024 (256 * max 1 (v.pairs.filter (·.queue != 0)).length)

/-- A waiting command can be sent. -/
def Dev.mayIssue (d : Dev) (c : NvmeCmd) : Bool :=
  let out := (d.far.cmds.filter fun x => x.2.sent && x.2.drive == c.drive && (x.2.kind == 4) == (c.kind == 4)).length
  match d.drive c.drive with
  | some v => out < v.room (c.kind == 4)
  | none => true

/-- Send the first waiting command of a drive that can be; its time runs from then (R269). -/
def Dev.nvmeGo (d : Dev) (drive : Nat) : Dev :=
  match tfind d.far.cmds fun _ c => c.drive == drive && !c.sent && d.mayIssue c with
  | none => d
  | some (n, c) =>
    let c' := { c with sent := true, issued := d.now, deadline := d.now + msTicks (d.fld 0x380000 16 16) }
    ({ d with far := { d.far with cmds := tput d.far.cmds n c' } } : Dev).emit (.nvme drive c.opcode n (d.nvmeArgs c))

/-- Issue an NVMe command to a drive (R257): its number, its kind, what it serves. -/
def Dev.nvmeIssue (d : Dev) (drive kind skein slot attempt : Nat) (caller : Option Caller := none) : Dev :=
  let c : NvmeCmd := { drive := drive, kind := kind, skein := skein, slot := slot, attempt := attempt, issued := d.now,
                       caller := caller }
  let n := d.far.nextCmd
  ({ d with far := { d.far with cmds := tput d.far.cmds n c, nextCmd := n + 1 } } : Dev).nvmeGo drive

/-- Mark a run of near-tier lines POISONED with zero data (R263, R357). -/
def Dev.poisonRun (d : Dev) (key n : Nat) : Dev :=
  { d with mem := memZero d.mem key (64 * n),
           poison := (List.range n).map (key / 64 + ·) ++ d.poison.filter fun l => l < key / 64 || key / 64 + n ≤ l }.dropCodes (key / 64) n

/-- Clear the poison of a run of near-tier lines that are written whole. -/
def Dev.unpoisonRun (d : Dev) (key n : Nat) : Dev :=
  { d with poison := d.poison.filter fun l => l < key / 64 || key / 64 + n ≤ l }.dropCodes (key / 64) n

/-- A run holds a poisoned line. -/
def Dev.poisonedIn (d : Dev) (key n : Nat) : Bool := d.poison.any fun l => key / 64 ≤ l && l < key / 64 + n

/-! ## The miss sketch and the counters -/

/-- The four sketch counters of a skein (R250). -/
def sketchKeys (sk : Nat) : List Nat := (List.range 4).map fun r => r * 65536 + Config.sketchHash r sk % 65536

/-- The estimate of a skein: the least of its four counters. -/
def Dev.estimate (d : Dev) (sk : Nat) : Nat := ((sketchKeys sk).map fun k => tgetD d.mov.sketch k 0).foldl min 0xFFFF

/-- Count a miss in each row, saturating (R250). -/
def Dev.sketchBump (d : Dev) (sk : Nat) : Dev :=
  let s := (sketchKeys sk).foldl (fun t k => tput t k (min 0xFFFF (tgetD t k 0 + 1))) d.mov.sketch
  { d with mov := { d.mov with sketch := s } }

/-- The counter of a cached skein (R249). -/
def Dev.counter (d : Dev) (sk : Nat) : Nat := tgetD d.mov.counters sk 0

/-- Count a request admitted to a cached skein, saturating (R249). -/
def Dev.countSkein (d : Dev) (sk : Nat) : Dev :=
  { d with mov := { d.mov with counters := tput d.mov.counters sk (min 0xFFFF (d.counter sk + 1)) } }

/-! ## Demotion -/

/-- A request or fault record keeps the skein: a waiter of an open fault record moves bytes of it (R251). -/
def Dev.heldByFault (d : Dev) (sk : Nat) : Bool :=
  d.mov.faults.any fun f => f.2.waiters.any fun w =>
    (w.srcKind == 0 && w.src / 65536 ≤ sk && sk ≤ (w.src + w.length - 1) / 65536) ||
    (w.dstKind == 0 && w.dst / 65536 ≤ sk && sk ≤ (w.dst + w.length - 1) / 65536)

/-- A skein that may be demoted at all: resident, not held, and if dirty with a drive to take it and no poisoned line
(R251, R264, R358). -/
def Dev.demotable (d : Dev) (sk : Nat) (s : Skein) : Bool :=
  let e := d.emtOf (sk / 512)
  s.state == 1 && !e.fence && !d.heldByFault sk && (!s.dirty || (d.writable e && !d.poisonedIn (s.slot * 65536) 1024))

/-- A skein not demoted of the device's own accord: promoted, with its counter above DEMOTE_THRESH (R251). -/
def Dev.kept (d : Dev) (sk : Nat) (s : Skein) : Bool := s.promote && d.fld 0x300004 0 16 < d.counter sk

/-- Drop a skein from the cache. -/
def Dev.dropSkein (d : Dev) (sk : Nat) : Dev :=
  let slot := ((tget d.far.cached sk).map (·.slot)).getD 0
  { d with far := { d.far with cached := tdel d.far.cached sk, demoting := ndel d.far.demoting sk },
           mov := { d.mov with counters := tdel d.mov.counters sk },
           mem := memZero d.mem (slot * 65536) 65536 }.unpoisonRun (slot * 65536) 1024

/-- A skein has been demoted: it leaves the cache, and the partner hears of it (R252, R312). -/
def Dev.demoted (d : Dev) (sk : Nat) : Dev :=
  ((d.dropSkein sk).bump 0x300014 0).repStateEntry 1 (natBytes 8 (sk * 65536) ++ zeros 2) 0 0

/-- Start the write-back of a dirty skein to every drive of its extent that serves (R264); `state` 2 to be demoted after
it, 3 to stay. -/
def Dev.writeBackStart (d : Dev) (sk state : Nat) : Dev :=
  let e := d.emtOf (sk / 512)
  let d := { d with far := { d.far with cached := tmod d.far.cached sk fun s => { s with state := state, cancelled := false } } }
  forEach (e.drives.filter d.driveServes) (fun n d => d.nvmeIssue n 1 sk e.slot 0) d

/-- Lines of a skein that a caching agent may hold in E or M. -/
def Dev.ownedIn (d : Dev) (sk : Nat) : List Nat :=
  (d.coh.dir.filter fun e => e.1 / 1024 == sk && e.2.state == 3).map (·.1)

/-- Demote a skein (R252): a clean one at once, a dirty one after its write-back. Where a caching agent owns a line of it
the line is recalled first (log entry 14). -/
def Dev.demote (d : Dev) (sk : Nat) : Dev :=
  match tget d.far.cached sk with
  | none => d
  | some s =>
    if s.state ≠ 1 then d
    else if !(d.ownedIn sk).isEmpty then
      let d := { d with far := { d.far with demoting := nadd d.far.demoting sk } }
      forEach (d.ownedIn sk) (fun l d => d.sweep l) d
    else if s.dirty then
      ({ d with far := { d.far with demoting := ndel d.far.demoting sk } }).writeBackStart sk 2
    else d.demoted sk

/-- Whole skein slots of the cache frames, and those no skein holds. -/
def Dev.slotTotal (d : Dev) : Nat := 512 * d.pool.cacheFrames.length
def Dev.slotFree (d : Dev) : Nat := d.slotTotal - d.far.cached.length

/-- The order in which skeins are chosen: unpromoted first, then by counter (R251). -/
def Dev.demoteRank (d : Dev) (e : Nat × Skein) : Nat := (if e.2.promote then 65536 else 0) + d.counter e.1

/-- The next skein to demote, but for those of `avoid` (R251). -/
def Dev.nextVictim (d : Dev) (avoid : Nat → Bool) : Option Nat :=
  let cands := d.far.cached.filter fun e => d.demotable e.1 e.2 && !d.kept e.1 e.2 && !avoid e.1 && !nmem d.far.demoting e.1
  (cands.foldl (fun b e => match b with
    | none => some e
    | some x => if d.demoteRank e < d.demoteRank x then some e else some x) (none : Option (Nat × Skein))).map (·.1)

/-- Demote up to `n` skeins. -/
def Dev.demoteMany (d : Dev) (avoid : Nat → Bool) : Nat → Dev
  | 0 => d
  | n + 1 =>
    match d.nextVictim avoid with
    | none => d
    | some sk => (d.demote sk).demoteMany avoid n

/-- Skeins on their way out of the cache. -/
def Dev.leaving (d : Dev) : Nat := (d.far.cached.filter fun e => e.2.state == 2 || nmem d.far.demoting e.1).length

/-- When the free slots fall below LOW_PERMILLE thousandths, demote until they reach twice that (R251). Skeins already
on their way out count as gone. -/
def Dev.demoteLow (d : Dev) (avoid : Nat → Bool) : Dev :=
  let low := d.slotTotal * d.fld 0x300008 0 9
  if d.slotFree * 1000 < low then d.demoteMany avoid ((2 * low + 999) / 1000 - (d.slotFree + d.leaving)) else d

/-! ## Fetches -/

/-- A free skein slot of the cache frames (a free choice, log entry 5). -/
def Dev.takeSlot (d : Dev) : Option Nat × Dev :=
  let n := d.slotTotal
  let slotAt := fun i => d.pool.cacheFrames.getD (i / 512) 0 * 512 + i % 512
  let c := d.choose n fun i => d.far.cached.all fun e => e.2.slot != slotAt i
  (c.1.map slotAt, c.2)

/-- A usable replica (Table 11.4): DRIVE2 of a replicated extent, ACTIVE. -/
def Dev.replica (d : Dev) (e : Emt) : Option Nat :=
  if e.repl && ((d.drive e.drive2).map (·.state)) == some 3 then some e.drive2 else none

/-- The drive a fetch reads (Table 11.4): DRIVE, or a usable replica. -/
def Dev.fetchDrive (d : Dev) (e : Emt) : Option Nat := if d.driveServes e.drive then some e.drive else d.replica e

/-- A line has been asked of the partner. -/
def Dev.fetchingLine (d : Dev) (line : Nat) : Bool :=
  (d.fab.devReqs.any fun r => r.2.purpose == 5 && r.2.index == line) || d.fab.waitReqs.any fun w => w.2.1 == 5 && w.2.2 == line

/-- Ask the partner for a line (FETCH, R312): the address of the line and its size. -/
def Dev.fetchPartner (d : Dev) (line : Nat) : Dev :=
  if d.fetchingLine line then d
  else
    (d.request { cls := 0, opcode := 0x46, src := d.ownNode, dst := d.fld 0x680004 16 12, tag := 0,
                 addr := d.mir.term % 2 ^ 32 * 65536, len := 8, data := natBytes 8 (line * 64) ++ natBytes 1 0 } 5 line).2

/-- A mirrored unit, in either role, with a link to its partner (R312). -/
def Dev.paired (d : Dev) : Bool := (d.mirrors || d.mir.role == 2) && !d.mir.carrying.isEmpty

/-- The hint while a skein is fetched: the mean of the drive's last 64 fetch times, less what has passed (R262); none
where no fetch has been timed. -/
def Dev.fetchHint (d : Dev) (sk : Nat) : Option Nat :=
  match tfind d.far.cmds fun _ c => c.kind == 0 && c.skein == sk with
  | none => none
  | some (_, c) =>
    match d.drive c.drive with
    | none => none
    | some v =>
      if v.times.isEmpty then none
      else some (hintUnits (v.times.foldl (· + ·) 0 / v.times.length - (d.now - c.issued)))

/-- A fetch has ended: the skein is resident with its counter at the estimate, and promoted at PROMOTE_THRESH or by a hint (R249, R251,
R253). -/
def Dev.settleSkein (d : Dev) (sk : Nat) (s : Skein) : Dev :=
  let est := if s.promote then 0xFFFF else d.estimate sk
  let up := s.promote || d.fld 0x300004 16 16 ≤ est
  let s' : Skein := { slot := s.slot, state := 1, promote := up }
  let d := { d with far := { d.far with cached := tput d.far.cached sk s' }, mov := { d.mov with counters := tput d.mov.counters sk est } }
  if up then d.bump 0x300014 16 else d

/-- Install a skein every line of which is POISONED; a mirrored unit asks its partner for them (R263, R312). -/
def Dev.installLost (d : Dev) (sk : Nat) : Dev :=
  match tget d.far.cached sk with
  | none => d
  | some s =>
    let d := d.settleSkein sk s
    let d := ((d.poisonRun (s.slot * 65536) 1024).logOpen 0x0500 256 (status := stPoisoned)).bump 0x380008 0
    if d.paired then forEach (List.range 1024) (fun i d => d.fetchPartner (sk * 1024 + i)) d else d

/-- A fetch has its slot: the Read is issued, or the skein is lost (R262, R263). -/
def Dev.fetchBegin (d : Dev) (sk : Nat) (promote : Bool) : Dev :=
  match d.takeSlot with
  | (none, d) => d
  | (some slot, d) =>
    let owed := if d.mirrors then some d.mir.nextSeq else none
    let d := d.repStateEntry 1 (natBytes 8 (sk * 65536) ++ natBytes 1 1 ++ natBytes 1 (b2n promote)) 0 0
    let d := { d with far := { d.far with cached := tput d.far.cached sk { slot := slot, state := 0, promote := promote, owed := owed } } }
    let e := d.emtOf (sk / 512)
    match d.fetchDrive e with
    | some n => d.nvmeIssue n 0 sk e.slot 0
    | none => d.installLost sk

/-- Fetches that wait for a slot take those that have become free, in order; one of a freed region is dropped. -/
def Dev.wantedGo (d : Dev) : Dev :=
  forEach d.far.wanted (fun w d =>
    let out : Dev := { d with far := { d.far with wanted := d.far.wanted.filter (·.1 != w.1) } }
    if (d.emtOf (w.1 / 512)).kind ≠ 2 then out
    else if d.slotFree = 0 then d
    else out.fetchBegin w.1 w.2) d

/-- A fetch under way is one that a hint asks for too (R253). -/
def Dev.promoteFetch (d : Dev) (sk : Nat) : Dev :=
  { d with far := { d.far with cached := (match tget d.far.cached sk with
                                         | some s => if s.state = 0 then tput d.far.cached sk { s with promote := true } else d.far.cached
                                         | none => d.far.cached),
                               wanted := d.far.wanted.map fun w => if w.1 = sk then (sk, true) else w } }

/-- Start the fetch of a skein (R262), if none is under way; `load` counts the miss (R250), `promote` is TIER_HINT's wish, `avoid` the
skeins not to be demoted for it. Where no slot is free the fetch waits for one, and a skein is demoted for it. -/
def Dev.startFetch (d : Dev) (sk : Nat) (load promote : Bool) (avoid : Nat → Bool) : Dev :=
  let d := if promote then d.promoteFetch sk else d
  if (tget d.far.cached sk).isSome then d
  else
    let first := !d.far.wanted.any (·.1 == sk)
    let d := if load && first then d.sketchBump sk else d
    if d.slotFree ≠ 0 && first then (d.fetchBegin sk promote).demoteLow avoid
    else
      let d : Dev := if first then { d with far := { d.far with wanted := d.far.wanted ++ [(sk, promote)] } } else d
      (if d.leaving < d.far.wanted.length then d.demoteMany avoid 1 else d).wantedGo

/-- Note that a cached skein is written: it becomes dirty, and a write-back under way no longer counts (R252, R264). -/
def Dev.dirtySkein (d : Dev) (sk : Nat) : Dev :=
  { d with far := { d.far with cached := tmod d.far.cached sk fun s =>
      { s with dirty := true, cancelled := s.cancelled || s.state == 2 || s.state == 3,
               state := if s.state = 2 then 3 else s.state } } }

end Sys2Proof.Machine
end

