-- ==== Sys2Proof/Machine/Access.lean ====
section
/-! DEFINITION. The access check at the home (R37 to R40, Table 2.6, R48, R50, R56, R483) and where a line's bytes lie in
the near tier. -/

namespace Sys2Proof.Machine

/-- What the check answers. -/
inductive Verdict where
  /-- admitted; the near-tier key of the addressed byte -/
  | ok (key : Nat)
  /-- a final status and its detail -/
  | no (st det : Nat)
  /-- RETRY with a hint -/
  | again
  /-- RETRY, and the skein's fetch starts (R262) -/
  | fetch
  /-- RETRY, and the draft extent's copy starts (R48) -/
  | copy
  /-- parked under a migration fence (R56) -/
  | park
  deriving DecidableEq, Repr

/-- The grant of a host on a region (R39). -/
def Dev.grantOf (d : Dev) (node handle : Nat) : Option Grant := tget d.pool.grants (node * 65536 + handle)

/-- An exclusion covers the grant at an extent index (R483). -/
def Dev.excluded (d : Dev) (g : Grant) (node handle idx : Nat) : Bool :=
  d.pool.exclusions.any fun x =>
    x.handle == handle && (x.host == none || x.host == some node) && g.born < x.rgen && x.first ≤ idx && idx ≤ x.last

/-- A region. -/
def Dev.regionOf (d : Dev) (handle : Nat) : Option Region := tget d.pool.regions handle

/-- EGEN of the region's own extent at an index (R483). -/
def Dev.egenAt (d : Dev) (handle idx : Nat) : Nat :=
  match d.regionOf handle with
  | some r => (d.emtOf (r.base + idx)).egen
  | none => 0

/-- The grant admits the extent at an index (R483). -/
def Dev.grantAdmits (d : Dev) (g : Grant) (node handle idx : Nat) : Bool :=
  d.egenAt handle idx ≤ g.gen && !d.excluded g node handle idx

/-- The open draft whose view holds an extent number. -/
def Dev.draftAt (d : Dev) (ext : Nat) : Option (Nat × Draft) :=
  tfind d.pool.drafts fun _ f => f.view ≤ ext && ext < f.view + f.count

/-- The closed view that holds an extent number (R51, R52). -/
def Dev.closedAt (d : Dev) (ext : Nat) : Option ClosedView :=
  d.pool.closed.find? fun v => v.view ≤ ext && ext < v.view + v.count

/-- The migration a fenced extent is under: that of its frame, or of a backed extent itself. -/
def Dev.migrationOf (d : Dev) (ext : Nat) : Option Migration :=
  d.pool.migrations.find? fun g => g.started && !g.done && (g.ext == ext || ((d.emtOf ext).kind != 2 && g.src == (d.emtOf ext).frame))

/-- The frame that serves a byte of an extent with a frame of its own (Table 2.13): none while its skein is being
copied. -/
def Dev.servedFrame (d : Dev) (ext off : Nat) : Option Nat :=
  let e := d.emtOf ext
  if !e.fence then some e.frame
  else
    match d.migrationOf ext with
    | none => some e.frame
    | some g => if nmem g.copied (off / 65536) then some g.dst else if g.copying = some (off / 65536) then none else some e.frame

/-- Steps 3 to 5 of Table 2.6 for the handle and index of an extent. -/
def Dev.rightsCheck (d : Dev) (node need : Nat) (e : Emt) : Option (Nat × Nat) :=
  match d.grantOf node e.handle with
  | none => some (stDenied, 0)
  | some g =>
    if !rightsOk g.rights need || (e.kind = 4 && Nat.land need 30 ≠ 0) then some (stDenied, 0)
    else if !d.grantAdmits g node e.handle e.index then some (stRevoked, 0)
    else none

/-- Steps 6 and 7 of Table 2.6. -/
def Dev.viewCheck (d : Dev) (node ext : Nat) (e : Emt) : Option (Nat × Nat) :=
  if e.kind = 3 then
    match d.draftAt ext, d.closedAt ext with
    | some f, _ => if f.2.owner = node then none else some (stDenied, 0)
    | none, some v => if v.owner = node then some (stRevoked, 0) else some (stDenied, 0)
    | none, none => some (stRevoked, 0)
  else if e.kind = 4 then
    if (d.pool.pins.any fun p => p.2.view ≤ ext && ext < p.2.view + p.2.count) then none else some (stRevoked, 0)
  else none

/-- Where the byte lies, once admitted: its frame, or its cached skein (Table 2.6 step 8). -/
def Dev.locate (d : Dev) (addr : Nat) (write : Bool) : Verdict :=
  let ext := addr / 2 ^ 25
  let e := d.emtOf ext
  let off := addr % 2 ^ 25
  if e.kind = 2 then
    if (match d.migrationOf ext with
        | some g => g.copying == some (off / 65536)
        | none => false) then .park
    else if d.far.moves.any (fun g => g.ext == ext && g.fenced && g.skein == off / 65536) then .park
    else
      match tget d.far.cached (addr / 65536) with
      | some s => if s.state = 0 then .again else .ok (s.slot * 65536 + addr % 65536)
      | none => .fetch
  else if write && e.kind = 3 && !e.mod then
    if d.pool.draftCopies.any (fun c => c.ext == ext) then .again else .copy
  else
    match d.servedFrame ext off with
    | some f => .ok (f * 2 ^ 25 + off)
    | none => .park

/-- Where the byte lies, unless its stack is held by a partial reset of its controller: then it waits (R446, Table 21.9). -/
def Dev.locateUp (d : Dev) (addr : Nat) (write : Bool) : Verdict :=
  match d.locate addr write with
  | .ok k => if (d.stack (d.dataStack (addr / 2 ^ 25) k)).state = 3 then .again else .ok k
  | v => v

/-- The access check of Table 2.6 for one line, with the publish barrier of R50: `need` the rights, `write` whether
the operation changes the line or takes the right to. An extent of a freed region that is still being bound off is
listed with KIND FREE, and answers REVOKED (R373). -/
def Dev.check (d : Dev) (node addr need : Nat) (write : Bool) : Verdict :=
  let ext := addr / 2 ^ 25
  let e := d.emtOf ext
  if e.kind = 0 && (tget d.pool.emt ext).isSome then .no stRevoked 0
  else if e.kind = 0 ∨ 6 ≤ e.kind then .no stDenied 0
  else
    match d.rightsCheck node need e with
    | some r => .no r.1 r.2
    | none =>
      match d.viewCheck node ext e with
      | some r => .no r.1 r.2
      | none => if d.barred ext then .again else d.locateUp addr write

/-- The check of an engine access that has its rights already: where the byte lies. -/
def Dev.find (d : Dev) (addr : Nat) (write : Bool) : Verdict :=
  let e := d.emtOf (addr / 2 ^ 25)
  if e.kind = 0 ∨ 5 ≤ e.kind then .no stDenied 0 else if d.barred (addr / 2 ^ 25) then .again else d.locateUp addr write

/-- A line outside the pool space, or in the device window (R32, Table 4.4). -/
def inWindow (addr : Nat) : Bool := 0xFFFFF0000000 ≤ addr

/-! ## Frames (R34, R35) -/

/-- A stack is being retired: no frame that the five-stack map does not have is given out any more (R57). -/
def Dev.retiring (d : Dev) : Bool := match d.pool.stackMove with
  | some m => m.retire
  | none => false

/-- The first frame that is not allocatable (R34, R57). -/
def Dev.frameLimit (d : Dev) : Nat := if d.pool.totalFrames = 12800 || d.retiring then 12768 else 15328

/-- A frame holds something or is promised: a resident or draft extent, a skein reservation, bind-off under way, or the
destination of a migration. -/
def Dev.frameUsed (d : Dev) (f : Nat) : Bool :=
  (tget d.pool.frameRefs f).isSome || nmem d.pool.cacheFrames f || nmem d.pool.binding f ||
  d.pool.migrations.any fun g => !g.done && g.dst == f

/-- Allocatable frames not in use and not reserved (POOL_STATUS.FREE_FRAMES). -/
def Dev.freeFrames (d : Dev) : Nat :=
  d.frameLimit - (d.pool.frameRefs.filter fun e => e.1 < d.frameLimit).length - (d.pool.cacheFrames.filter (· < d.frameLimit)).length -
    (d.pool.binding.filter (· < d.frameLimit)).length -
    (d.pool.migrations.filter fun g => !g.done && g.dst < d.frameLimit && (tget d.pool.frameRefs g.dst).isNone).length

/-- Take a free frame, a free choice among them (log entry 5), with one reference. -/
def Dev.takeFrame (d : Dev) : Option Nat × Dev :=
  let c := d.choose d.frameLimit fun f => !d.frameUsed f
  match c.1 with
  | none => (none, c.2)
  | some f => (some f, { c.2 with pool := { c.2.pool with frameRefs := tput c.2.pool.frameRefs f 1 } })

/-- Take `n` free frames. -/
def Dev.takeFrames (d : Dev) : Nat → List Nat × Dev
  | 0 => ([], d)
  | n + 1 =>
    match d.takeFrame with
    | (none, d) => ([], d)
    | (some f, d) => let r := d.takeFrames n; (f :: r.1, r.2)

/-- One more reference on a frame (R51, R52). -/
def Dev.holdFrame (d : Dev) (f : Nat) : Dev :=
  { d with pool := { d.pool with frameRefs := tupd d.pool.frameRefs f 0 (· + 1) } }

/-- One reference less; a frame without one goes to bind-off (R35, R51). -/
def Dev.releaseFrame (d : Dev) (f : Nat) : Dev :=
  let n := tgetD d.pool.frameRefs f 0
  if n ≤ 1 then
    { d with pool := { d.pool with frameRefs := tdel d.pool.frameRefs f, binding := nadd d.pool.binding f } }
  else { d with pool := { d.pool with frameRefs := tput d.pool.frameRefs f (n - 1) } }

end Sys2Proof.Machine
end

