-- ==== Sys2Proof/Machine/Reply.lean ====
section
/-! DEFINITION. Answering a request, whoever sent it: a fabric client (R88, R102), a management host through the pool
window (R63), an engine of the device. A window access is a message of tag 0x1000 + port whose XFER_IDX is the time
of its first issue; an engine access has a tag from 0x2000 on. With it the retry hints (R128), the ordered streams
(R101), the dedup window (R104) and the transaction samples (R432). -/

namespace Sys2Proof.Machine

/-- Who sent a request: 0 the fabric, 1 the pool window, 2 an engine. -/
def originOf (m : Msg) : Nat := if m.tag < 0x1000 then 0 else if m.tag < 0x2000 then 1 else 2

/-- A retry-after hint (R128): an estimate, never below HINT_MIN nor above 0xFFFF (log entry 6). -/
def Dev.hint (d : Dev) : Nat × Dev :=
  (clampN (max 1 (d.fld 0x180200 8 8)) 0xFFFF (Config.freeHint d.free), { d with free := d.free + 1 })

/-- Write a sample entry if fewer than MAX_PER_MS were written in this millisecond (R434). -/
def Dev.sampleEntry (d : Dev) (e : Event) : Dev :=
  let ms := d.now / 800000
  let n := if d.perf.sampleMs = ms then d.perf.sampleCount else 0
  if n < d.fld 0x70000 0 11 then
    (({ d with perf := { d.perf with sampleMs := ms, sampleCount := n + 1 } }).bump 0x70004 16).event e
  else d.bump 0x70004 0

/-- Sample a transaction that ends: tagged with probability 2^-K, its six stage times free (R432). -/
def Dev.sample (d : Dev) (m : Msg) (st : Nat) : Dev :=
  if !bit (d.reg 0x70000) 31 then d
  else
    let a := d.draw
    if a.1 % 2 ^ d.fld 0x70000 25 5 ≠ 0 then a.2
    else
      let b := a.2.draw
      let c := b.2.draw
      c.2.sampleEntry { time := d.now, source := 0x09F0, origin := m.src, code := m.opcode + homeOf (m.addr / 64) * 256,
                        status := st, arg0 := b.1 % 2 ^ 32, arg1 := c.1 % 2 ^ 64 }

/-! ## Ordered streams (R101) -/

/-- The request is ordered. -/
def orderedMsg (m : Msg) : Bool := originOf m == 0 && m.ord && ordHonoured m.opcode

/-- The stream of a request. -/
def ordKey (m : Msg) : Nat := m.src * 8 + m.tc

/-- Change the stream of an ordered request. -/
def Dev.setStream (d : Dev) (m : Msg) (f : Ordered → Ordered) : Dev :=
  { d with fab := { d.fab with ordered := tupd d.fab.ordered (ordKey m) {} f } }

/-- An ordered request whose turn had come is answered RETRY: all that are held come after it, and later ones are answered RETRY
until it comes back (R101). -/
def Dev.noteRetry (d : Dev) (m : Msg) (hint : Nat) : Dev :=
  if !orderedMsg m then d else d.setStream m fun o => { o with retried := some (m.tag, hint), before := 0 }

/-- An ordered request is answered RETRY as it arrives: all that are held come before it (R101). -/
def Dev.noteLate (d : Dev) (m : Msg) (hint : Nat) : Dev :=
  if !orderedMsg m then d
  else d.setStream m fun o => match o.retried with
    | none => { o with retried := some (m.tag, hint), before := o.held.length }
    | some (t, _) => if t = m.tag then { o with retried := some (t, hint) } else o

/-- The hint of a RETRY: that of the stream's retried request, for one that comes after it (R101). -/
def Dev.streamHint (d : Dev) (m : Msg) (hint : Nat) : Nat :=
  if !orderedMsg m then hint
  else match (tgetD d.fab.ordered (ordKey m) {}).retried with
    | some (t, h) => if t = m.tag then hint else h
    | none => hint

/-! ## Dedup (R104) -/

/-- Key of a dedup record at a home. -/
def dedupKey (home src tag : Nat) : Nat := (home * 4096 + src) * 4096 + tag

/-- The home that keeps the record of a request: the line's, or a POOL_OP's region home. -/
def dedupHome (m : Msg) : Nat :=
  if m.opcode = 0x38 then field m.data 8 2 % 48 else homeOf (m.addr / 64)

/-- A record covers the request: an atomic, a REDUCE, or a POOL_OP but for the two queries. -/
def dedupCovers (m : Msg) : Bool :=
  isAtomic m.opcode || m.opcode == 0x32 || (m.opcode == 0x38 && dOpcode m.data != 0x15 && dOpcode m.data != 0x16)

/-- The record's fingerprint is the request's. -/
def DedupRec.matchesMsg (r : DedupRec) (m : Msg) : Bool :=
  if r.rep.isEmpty then r.op == m.opcode && r.addr == m.addr && r.len == m.len && r.crc == crc32c m.data
  else r.rep == fingerprint m.opcode m.addr m.len (crc32c m.data)

/-- Make the record of an admitted request. -/
def Dev.dedupOpen (d : Dev) (m : Msg) : Dev :=
  if originOf m ≠ 0 || !dedupCovers m then d
  else
    let r : DedupRec := { op := m.opcode, addr := m.addr, len := m.len, crc := crc32c m.data }
    { d with fab := { d.fab with dedup := tput d.fab.dedup (dedupKey (dedupHome m) m.src m.tag) r } }

/-- The request a record covers is answered: the record keeps a final answer for HOLD_US; a request answered RETRY was not taken
up, and leaves no record. A record that has its answer keeps it. -/
def Dev.dedupClose (d : Dev) (m : Msg) (r : Msg) : Dev :=
  if originOf m ≠ 0 || !dedupCovers m then d
  else
    let k := dedupKey (dedupHome m) m.src m.tag
    match tget d.fab.dedup k with
    | none => d
    | some x =>
      if x.answer.isSome then d
      else if r.opcode = stRetry then { d with fab := { d.fab with dedup := tdel d.fab.dedup k } }
      else
        let e := d.now + usTicks (d.fld 0x180100 0 12)
        { d with fab := { d.fab with dedup := tput d.fab.dedup k { x with answer := some r, expiry := e } } }

/-- Records of a home. -/
def Dev.dedupOf (d : Dev) (home : Nat) : List (Nat × DedupRec) :=
  d.fab.dedup.filter fun e => e.1 / 2 ^ 24 == home

/-! ## Answers -/

/-- The window access ends in a Completer Abort (1) or Unsupported Request (0) when a read, dropped when a write (Table
3.4). -/
def Dev.windowEnd (d : Dev) (port : Nat) (isRead : Bool) (code : Nat) : Dev :=
  if isRead then d.emit (.pcieError port code) else d

/-- Answer a pool-window access (Table 3.4). -/
def Dev.windowReply (d : Dev) (m : Msg) (st hint : Nat) (data : List Byte) : Dev :=
  let p := m.tag - 0x1000
  let isRead := m.opcode == 1
  if st = stDone then if isRead then d.emit (.readData p data false) else d
  else if st = stPoisoned then if isRead then d.emit (.readData p (zeros (m.len + 1)) true) else d
  else if st = stRetry then
    let stop := m.xfer + msTicks (d.fld (0xA80100 + p * 0x2000000) 24 8)
    if stop ≤ d.now then d.windowEnd p isRead 1
    else
      let w : WindowWait := { port := p, addr := m.addr, len := m.len + 1, data := if isRead then none else some m.data,
                              first := m.xfer, nextTry := d.now + hint * 512 / 10 }
      { d with host := { d.host with windowWaits := d.host.windowWaits ++ [w] } }
  else d.windowEnd p isRead 1

/-- Answer an engine access: the line a snoop or memory gave a read waits for the engine. -/
def Dev.engineReply (d : Dev) (m : Msg) (st : Nat) (data : List Byte) : Dev :=
  if m.opcode = 1 && st = stDone then
    { d with coh := { d.coh with fetched := tput d.coh.fetched (m.addr / 64) data } }
  else d

/-- The response to a request: data, or none but for a POOL_OP, whose answer carries its 16 bytes whatever the status (R95). -/
def Dev.responseFor (d : Dev) (m : Msg) (st det res : Nat) (data : Option (List Byte)) : Msg :=
  match data with
  | some b => d.datTo m st det res b
  | none => if m.opcode = 0x38 then d.datTo m st det res (zeros 16) else d.rspTo m st det res

/-- Count and sample an answer. -/
def Dev.noteAnswered (d : Dev) (m : Msg) (st : Nat) : Dev :=
  let d := (d.countAnswer m.src st).sample m st
  if st = stRetry && 0x10 ≤ m.opcode && m.opcode ≤ 0x15 then d.bump 0x180204 16 else d

/-- Answer a fabric request that its home has not taken up: the stream hears of a RETRY (R101); a dedup record of its key stays as
it is (R104). -/
def Dev.turnAway (d : Dev) (m : Msg) (st det res : Nat) : Dev :=
  let det := if st = stRetry then d.streamHint m det else det
  let r := d.responseFor m st det res none
  let d := d.noteAnswered m st
  (if st = stRetry then d.noteLate m det else d).respond d.mir.unacked.length r

/-- Key of a transfer record (R98). -/
def xferKey (m : Msg) : Nat := m.src * 4096 + m.tag

/-- A message of a write transfer is answered RETRY: it has not arrived; a record that holds nothing else goes (R98). -/
def Dev.xferRetried (d : Dev) (m : Msg) : Dev :=
  match tget d.fab.xfers (xferKey m) with
  | none => d
  | some x =>
    let x := { x with serving := x.serving.erase m.xfer }
    let t := if x.received.isEmpty && x.serving.isEmpty then tdel d.fab.xfers (xferKey m) else tput d.fab.xfers (xferKey m) x
    { d with fab := { d.fab with xfers := t } }

/-- Answer a request: `n` is the number of replication records outstanding before its effect (R310). -/
def Dev.reply (d : Dev) (n : Nat) (m : Msg) (st det res : Nat) (data : Option (List Byte)) : Dev :=
  if originOf m = 1 then (d.countAnswer m.src st).windowReply m st det (data.getD [])
  else if originOf m = 2 then d.engineReply m st (data.getD [])
  else
    let r := d.responseFor m st det res data
    let d := d.noteAnswered m st
    let d := if st = stRetry then d.noteRetry m det else d
    let d := if st = stRetry && m.opcode = 4 then d.xferRetried m else d
    (d.dedupClose m r).respond n r

/-- Refuse a request. -/
def Dev.refuse (d : Dev) (m : Msg) (st det : Nat) : Dev := d.reply d.mir.unacked.length m st det 0 none

/-- Answer RETRY with a hint of the home's own. -/
def Dev.retry (d : Dev) (m : Msg) : Dev :=
  let h := d.hint
  h.2.refuse m stRetry h.1

/-- Answer RETRY for a line whose skein may be on its way (R262). -/
def Dev.retryAt (d : Dev) (m : Msg) (addr : Nat) : Dev :=
  match d.fetchHint (addr / 65536) with
  | some h => d.refuse m stRetry h
  | none => d.retry m

/-- Complete without data. -/
def Dev.finish (d : Dev) (n : Nat) (m : Msg) (st : Nat) (res : Nat := 0) : Dev := d.reply n m st 0 res none

/-- Complete with data. -/
def Dev.finishData (d : Dev) (n : Nat) (m : Msg) (res : Nat) (data : List Byte) : Dev :=
  d.reply n m stDone 0 res (some data)

end Sys2Proof.Machine
end

