-- ==== Sys2Proof/Machine/Memory.lean ====
section
/-! DEFINITION. Bytes of the pool once a request is admitted: where they lie (R56), loads and stores line by line, lines of
a failed stack (Table 2.14), the ECC test modes (R359), throttled rows (R344), draft copies (R48). -/

namespace Sys2Proof.Machine

/-- The near-tier key of a pool address once its request is admitted: a skein being copied is still served from its
source (R56, R118). -/
def Dev.keyOf (d : Dev) (addr : Nat) : Option Nat :=
  let ext := addr / 2 ^ 25
  let e := d.emtOf ext
  let off := addr % 2 ^ 25
  if e.kind = 0 || 5 ≤ e.kind then none
  else if e.kind = 2 then
    match tget d.far.cached (addr / 65536) with
    | some s => if s.state = 0 then none else some (s.slot * 65536 + addr % 65536)
    | none => none
  else
    match d.migrationOf ext with
    | some g => if e.fence && nmem g.copied (off / 65536) then some (g.dst * 2 ^ 25 + off) else some (e.frame * 2 ^ 25 + off)
    | none => some (e.frame * 2 ^ 25 + off)

/-- A line that is being copied is written: the skein is copied again (R118). -/
def Dev.recopy (d : Dev) (addr : Nat) : Dev :=
  let ext := addr / 2 ^ 25
  let sk := addr % 2 ^ 25 / 65536
  if !(d.emtOf ext).fence then d
  else
    let gs := d.pool.migrations.map fun g =>
      if g.started && !g.done && (g.ext == ext || g.src == (d.emtOf ext).frame) && g.copying == some sk
      then { g with copying := none } else g
    { d with pool := { d.pool with migrations := gs } }

/-- The line lies on a failed stack and is not served from there (Table 2.14). -/
def Dev.onFailed (d : Dev) (addr key : Nat) : Bool :=
  (d.stack (d.dataStack (addr / 2 ^ 25) key)).state == 4 && !nmem d.far.refetched (addr / 65536)

/-- What a load gives. -/
inductive Load where
  | bytes (b : List Byte)
  | poisoned
  /-- not now: RETRY with a hint -/
  | wait
  deriving DecidableEq, Repr

/-- Re-fetch a clean skein of a backed extent whose line lies on a failed stack (Table 2.14). -/
def Dev.refetch (d : Dev) (sk : Nat) : Dev :=
  let d := (d.dropSkein sk).startFetch sk false false (fun _ => false)
  { d with far := { d.far with refetched := nadd d.far.refetched sk } }

/-- Load the 64 bytes of a line (R58, R346, R358). What the partner sent for a line of a failed stack serves until the line is
written. -/
def Dev.loadLine (d : Dev) (line : Nat) : Load × Dev :=
  match d.keyOf (line * 64) with
  | none => (.wait, d)
  | some key =>
    if d.onFailed (line * 64) key then
      if d.mirrors then
        match tget d.coh.fetched line with
        | some b => (.bytes b, d)
        | none => (.wait, d.fetchPartner line)
      else
        match tget d.far.cached (line / 1024), (d.emtOf (line / 2 ^ 19)).kind with
        | some s, 2 => if s.dirty then (.poisoned, d.logOpen 0x0200 256 (status := stPoisoned)) else (.wait, d.refetch (line / 1024))
        | _, _ => (.poisoned, d.logOpen 0x0200 256 (status := stPoisoned))
    else if nmem d.poison (key / 64) && d.fetchingLine line then (.wait, d)
    else
      match d.readLine (line / 2 ^ 19) key (line * 64) with
      | (some b, d) => (.bytes b, d)
      | (none, d) => (.poisoned, d)

/-- The 72 bytes of the flip mask (R361). -/
def Dev.flipMask (d : Dev) : List Byte := ((List.range 18).map fun k => natBytes 4 (d.reg (0x900100 + 4 * k))).flatten

/-- A counted window write under an ECC test mode (Table 16.5). -/
def Dev.testWrite (d : Dev) (ext key : Nat) (data : List Byte) : Dev :=
  let mode := d.fld 0x900080 0 2
  let remain := d.fld 0x900080 8 8
  let old := d.codeword ext key
  let a := d.codeKey ext (key / 64 * 64) % 2 ^ 32
  let w := if mode = 1 then data ++ old.drop 64
    else if mode = 2 then old.take 64 ++ data.take 8
    else xorBytes (encodeLine a data 0) d.flipMask
  let v := setBits (d.reg 0x900080) 8 8 (remain - 1)
  (d.putCodeword ext key w).setReg 0x900080 (if remain ≤ 1 then setBits v 0 2 0 else v)

/-- The write is one the test mode counts: a full aligned line through the window of the lease holder's port, in the
region HANDLE (R359). -/
def Dev.testCounts (d : Dev) (m : Msg) : Bool :=
  d.fld 0x900080 0 2 != 0 && d.fld 0x900080 8 8 != 0 && originOf m == 1 && m.data.length == 64 && m.addr % 64 == 0 &&
  d.leaseHolder == m.tag - 0x1000 + 1 && (d.emtOf (m.addr / 2 ^ 25)).handle == d.fld 0x900080 16 16

/-- What a store gives. -/
inductive Stored where
  | done
  | poisoned
  | wait
  deriving DecidableEq, Repr

/-- Store bytes inside one line (R351, R352, R58), marking a cached skein dirty and a skein under copy for copying
again. On a failed stack of a mirrored unit the bytes kept are the partner's, which a retirement brings back. -/
def Dev.storeLine (d : Dev) (addr : Nat) (bs : List Byte) : Stored × Dev :=
  match d.keyOf addr with
  | none => (.wait, d)
  | some key =>
    let d := { d with coh := { d.coh with fetched := tdel d.coh.fetched (addr / 64) } }
    if d.onFailed addr key then
      if d.mirrors then (.done, { d with mem := memWrite d.mem key bs })
      else
        match tget d.far.cached (addr / 65536), (d.emtOf (addr / 2 ^ 25)).kind with
        | some s, 2 => if s.dirty then (.poisoned, d) else (.wait, d.refetch (addr / 65536))
        | _, _ => (.poisoned, d)
    else
      let d := d.recopy addr
      match d.writeLine (addr / 2 ^ 25) key addr bs with
      | (true, d) => (.done, if (d.emtOf (addr / 2 ^ 25)).kind = 2 then d.dirtySkein (addr / 65536) else d)
      | (false, d) => (.poisoned, d)

/-- A dirty line a cache gave back is written to memory (R119). -/
def Dev.writeBack (d : Dev) (line : Nat) (data : List Byte) : Dev :=
  (d.storeLine (line * 64) (slice data 0 64)).2.repWriteRun (line * 64) (slice data 0 64) 0 0

/-! ## Throttled rows (R344) -/

/-- The bank of a stack line address: 64 × pseudo-channel + bank (R326). -/
def bankOf (a : Nat) : Nat := 64 * (a % 64) + a / 1024 % 64

/-- Ticks until an origin may touch a line's row again. -/
def Dev.throttleLeft (d : Dev) (origin addr key : Nat) : Nat :=
  let p := d.place (addr / 2 ^ 25) (key / 2 ^ 25) (key / 64 % 2 ^ 19)
  match (d.stack p.1).throttles.find? fun t => t.origin == origin && t.bank == bankOf p.2 && t.row == rowOf p.2 && d.now < t.expiry with
  | some t => t.lastAct + nsTicks (d.fld (0x70000C + 0x40000 * p.1) 6 10) - d.now
  | none => 0

/-! ## Draft copies (R48) -/

/-- Start copying a draft extent into a free frame; false when there is none. -/
def Dev.draftCopyStart (d : Dev) (ext : Nat) : Bool × Dev :=
  match d.takeFrame with
  | (none, d) => (false, d)
  | (some f, d) => (true, { d with pool := { d.pool with draftCopies := d.pool.draftCopies ++ [{ ext := ext, dest := f }] } })

/-- Copy the lines of one frame to another, poison with them (R48, R56, R358). -/
def Dev.copyRun (d : Dev) (src dst n : Nat) : Dev :=
  let cells := (d.mem.filter fun c => src ≤ c.1 && c.1 < src + n).map fun c => (c.1 - src + dst, c.2)
  let lines := (d.poison.filter fun l => src / 64 ≤ l && l < (src + n) / 64).map fun l => l - src / 64 + dst / 64
  let mem : List Host.Cell := cells.foldl (fun m c => memPut m c.1 c.2) (memZero d.mem dst n)
  { d with mem := mem,
           poison := lines ++ d.poison.filter fun l => l < dst / 64 || (dst + n) / 64 ≤ l }.dropCodes (dst / 64) (n / 64)

/-- The draft extent has its own copy: MOD 1 and NEAR_FRAME the new frame; the base frame loses the draft's
reference (R48, R51). -/
def Dev.draftCopyEnd (d : Dev) (ext dest : Nat) : Dev :=
  let e := d.emtOf ext
  let d := d.copyRun (e.frame * 2 ^ 25) (dest * 2 ^ 25) (2 ^ 25)
  let d := d.releaseFrame e.frame
  { d with pool := { d.pool with emt := tput d.pool.emt ext { e with mod := true, frame := dest },
                                 draftCopies := d.pool.draftCopies.filter fun c => c.ext != ext } }

end Sys2Proof.Machine
end

