-- ==== Sys2Proof/Machine/Reduce.lean ====
section
/-! DEFINITION. The arithmetic of reduce-on-write (R226) and the bytes each request opcode touches and changes. -/

namespace Sys2Proof.Machine

/-- A REDUCE format field after clamping (R218): codes 4 to 7 are accepted. -/
def reduceFmt (c : Nat) : Nat := if 4 ≤ c && c ≤ 7 then c else 7

/-- Its parameters: ROW_FMT, stochastic, VEC_FMT. -/
def reduceRow (m : Msg) : Nat := reduceFmt (field m.data 0 1)
def reduceStoch (m : Msg) : Bool := bit (field m.data 1 1) 0 && reduceRow m != 7
def reduceVec (m : Msg) : Nat := reduceFmt (field m.data 2 1)

/-- Elements of the vector of a REDUCE. -/
def reduceCount (m : Msg) : Nat := (m.len + 1 - 8) / (fmtBits (reduceVec m) / 8)

/-- One element (R226 steps 1 to 3). -/
def reduceElem (row vec : Nat) (r : Rnd) (a b : Nat) : Nat :=
  (toFmt row r (ofF32 (toF32 ((ofFmt row a).add (ofFmt vec b))))).1

/-- FP32 rows keep the sum as it is. -/
def reduceElem32 (vec : Nat) (a b : Nat) : Nat := (toF32 ((ofFmt 7 a).add (ofFmt vec b))).toNat

/-- The new row bytes of a run of elements, and the noise register after them. -/
def reduceRun (m : Msg) (reg : BitVec 32) (row vec : List Byte) (n : Nat) : List Byte × BitVec 32 :=
  let rb := fmtBits (reduceRow m) / 8
  let vb := fmtBits (reduceVec m) / 8
  let rs := rndSeq (if reduceStoch m then 2 else 0) reg n
  (((List.range n).map fun i =>
      let a := field row (rb * i) rb
      let b := field vec (vb * i) vb
      natBytes rb (if reduceRow m = 7 then reduceElem32 (reduceVec m) a b
                   else reduceElem (reduceRow m) (reduceVec m) (rs.1.getD i .even) a b)).flatten, rs.2)

/-! ## What a request touches -/

/-- The first byte and the number of bytes a request reads or changes; coherent requests name a line (R91, R115). -/
def reqSpan (m : Msg) : Nat × Nat :=
  if 0x10 ≤ m.opcode && m.opcode ≤ 0x15 then (m.addr / 64 * 64, 64)
  else if m.opcode = 0x0D then (m.addr, (m.len + 1) / 2)
  else if m.opcode = 0x32 then (m.addr, reduceCount m * (fmtBits (reduceRow m) / 8))
  else (m.addr, m.len + 1)

/-- The lines of a request, ascending. -/
def reqLines (m : Msg) : List Nat :=
  let s := reqSpan m
  (List.range ((s.1 + s.2 - 1) / 64 + 1 - s.1 / 64)).map (s.1 / 64 + ·)

/-- The rights an opcode needs (Tables 4.5 and 5.3). -/
def reqRights (op : Nat) : Nat :=
  if op = 1 || op = 2 || op = 0x10 then rightR
  else if op = 0x11 || op = 0x12 then rightR + rightW
  else if isAtomic op || op = 0x32 then rightA
  else rightW

/-- The opcode changes the line, or takes the right to change it. -/
def reqWrites (op : Nat) : Bool := op != 1 && op != 2 && op != 0x10

/-- A plain read. -/
def isRead (op : Nat) : Bool := op == 1 || op == 2

/-- A load: an operation that returns the line's data. DEDUCED (log entry 54): the miss sketch counts its fetches (R250). -/
def loads (op : Nat) : Bool := isRead op || (0x10 ≤ op && op ≤ 0x12)

/-- Old value and new value of an atomic on `s` bytes (R93). -/
def atomicNew (op : Nat) (s old : Nat) (data : List Byte) : Nat :=
  let b := field data 0 s
  if op = 0x08 then (old + b) % 2 ^ (8 * s)
  else if op = 0x09 then Nat.land old b
  else if op = 0x0A then Nat.lor old b
  else if op = 0x0B then Nat.xor old b
  else if op = 0x0C then b
  else if op = 0x0D then if old = b then field data s s else old
  else if op = 0x0E then max old b
  else (fadd (BitVec.ofNat 32 old) (BitVec.ofNat 32 b)).toNat

end Sys2Proof.Machine
end

