-- ==== Sys2Proof/Machine/Homes.lean ====
section
/-! DEFINITION. The homes (R113, R117 to R130): admitting a request, the directory's part in it, the snoops it waits for,
its effect and its answer. -/

namespace Sys2Proof.Machine

/-! ## Write transfers (R98) -/

/-- The failing message first in address order. -/
def firstFailure (l : List (Nat × Nat × Nat)) : Option (Nat × Nat × Nat) :=
  l.foldl (fun b e => match b with
    | none => some e
    | some x => if e.1 < x.1 then some e else some x) none

/-- A message of a write transfer arrives: its index has, and the transfer's time starts again. -/
def Dev.xferArrives (d : Dev) (m : Msg) : Dev :=
  let x := tgetD d.fab.xfers (xferKey m) { first := m }
  let x := { x with serving := m.xfer :: x.serving, time := d.now, last := if m.last then some m.xfer else x.last }
  { d with fab := { d.fab with xfers := tput d.fab.xfers (xferKey m) x } }

/-- A message of a write transfer has been applied, or has failed with a final status: record it, and answer the
transfer once every index has arrived and none is still being served. Nothing is owed once the record has gone. -/
def Dev.xferNote (d : Dev) (n : Nat) (m : Msg) (st : Nat) : Dev :=
  match tget d.fab.xfers (xferKey m) with
  | none => d
  | some x =>
    let x := { x with received := nadd x.received m.xfer, serving := x.serving.erase m.xfer,
                      failures := if st = stDone then x.failures else x.failures ++ [(m.addr, m.xfer, st)] }
    let all := match x.last with
      | some l => x.serving.isEmpty && (List.range (l + 1)).all (nmem x.received)
      | none => false
    if all then
      let d := { d with fab := { d.fab with xfers := tdel d.fab.xfers (xferKey m) } }
      match firstFailure x.failures with
      | none => d.reply n { m with xfer := 0 } stDone 0 0 none
      | some f => d.reply n { m with xfer := 0 } f.2.2 f.2.1 0 none
    else { d with fab := { d.fab with xfers := tput d.fab.xfers (xferKey m) x } }

/-- End a request: a message of a write transfer through its record. -/
def Dev.conclude (d : Dev) (n : Nat) (m : Msg) (st det res : Nat) (data : Option (List Byte)) : Dev :=
  if m.opcode = 4 && originOf m = 0 then d.xferNote n m st else d.reply n m st det res data

/-! ## Effects -/

/-- The bytes of a line for a read: what a snoop returned, else memory. -/
def Dev.lineFor (d : Dev) (snap : Tbl (List Byte)) (line : Nat) : Load × Dev :=
  match tget snap line with
  | some b => (.bytes b, d)
  | none => d.loadLine line

/-- Gather the bytes of lines in turn; the first failure decides. -/
def Dev.gather (d : Dev) (snap : Tbl (List Byte)) : List Nat → Load × Dev
  | [] => (.bytes [], d)
  | l :: r =>
    match d.lineFor snap l with
    | (.bytes b, d) =>
      match d.gather snap r with
      | (.bytes c, d) => (.bytes (slice b 0 64 ++ c), d)
      | x => x
    | x => x

/-- Store a byte run line by line, ascending. -/
def Dev.scatter (d : Dev) (addr : Nat) (bs : List Byte) : Nat → Stored × Dev
  | 0 => (.done, d)
  | n + 1 =>
    let k := min bs.length (64 - addr % 64)
    match d.storeLine addr (bs.take k) with
    | (.done, d) => if bs.length ≤ k then (.done, d) else d.scatter (addr + k) (bs.drop k) n
    | x => x

/-- Count what a requester read or wrote, and the skeins touched, and send the lines to their stacks (R249, R334, R431). -/
def Dev.countReq (d : Dev) (m : Msg) : Dev :=
  let s := reqSpan m
  let d := forEach ((reqLines m).filter fun l => (d.emtOf (l / 2 ^ 19)).kind == 2) (fun l d => d.countSkein (l / 1024)) d
  if originOf m = 2 then d
  else
    let d := forEach (reqLines m) (fun l d =>
      match d.keyOf (l * 64) with
      | some k => d.access (l / 2 ^ 19) k (b2n (reqWrites m.opcode)) 0 0 m.src (l * 64)
      | none => d) d
    let d := if (m.opcode = 2 || m.opcode = 4) && m.xfer ≠ 0 then d else d.reqCount m.src 0 1
    if reqWrites m.opcode then if m.opcode = 0x11 || m.opcode = 0x12 || m.opcode = 0x14 then d else d.reqCount m.src 2 s.2
    else d.reqCount m.src 1 s.2

/-- READ, READ_BULK: an access to the entries of its lines (R123). -/
def Dev.doRead (d : Dev) (m : Msg) (snap : Tbl (List Byte)) : Dev :=
  let s := reqSpan m
  let d := forEach (reqLines m) (fun l d => d.touch l) d
  match d.gather snap (reqLines m) with
  | (.bytes b, d) => d.reply d.mir.unacked.length m stDone 0 0 (some (if originOf m = 2 then b else slice b (s.1 % 64) s.2))
  | (.poisoned, d) => d.refuse m stPoisoned 0
  | (.wait, d) => d.retry m

/-- The way a new entry takes. -/
def Dev.dirNew (d : Dev) (line : Nat) (e : DirEntry) : Dev :=
  (d.dirPut line { e with way := (d.freeWay line).getD 0 }).touch line

/-! ## Stash offers (R129) -/

/-- The target of a STASH_WRITE. -/
def stashTarget (m : Msg) : Nat := field m.data 64 2 % 4096

/-- Offer a line to a cache, where R129 allows it. The line is busy until the answer, and the way it would take is kept for it: an
entry OWNED by nobody yet. -/
def Dev.offerStash (d : Dev) (line target : Nat) (data : List Byte) : Dev :=
  let e := d.emtOf (line / 2 ^ 19)
  let readable := match d.grantOf target e.handle with
    | some g => rightsOk g.rights rightR
    | none => false
  if target = 0 || (d.sessionOf target).isNone || !d.hasFeature target 2 || !readable ||
     (d.freeWay line).isNone || (d.dirOf line).isSome || d.busy line then d
  else
    match d.cacheTouch line with
    | none => d
    | some d =>
      let a := (d.dirNew line { state := 3, grant := 2 }).snoop line target 4 (slice data 0 64)
      let t : Txn := { kind := .stash target, waits := [(target, a.1)] }
      { a.2 with coh := { a.2.coh with txns := tput a.2.coh.txns line t } }

/-- WRITE, WRITE_BULK, STASH_WRITE: the bytes stored, the answer, and the offer of a STASH_WRITE that is done (R91, R98, R129). -/
def Dev.doWrite (d : Dev) (m : Msg) : Dev :=
  let n := d.mir.unacked.length
  let a := (reqSpan m).1
  let bs := slice m.data 0 (reqSpan m).2
  if d.testCounts m then
    match d.keyOf m.addr with
    | some k => (d.testWrite (m.addr / 2 ^ 25) k bs).conclude n m stDone 0 0 none
    | none => d.retry m
  else
    match d.scatter a bs 17 with
    | (.done, d) =>
      let d := (d.repWriteRun a bs m.src m.tag).conclude n m stDone 0 0 none
      if m.opcode = 0x15 then d.offerStash (m.addr / 64) (stashTarget m) m.data else d
    | (.poisoned, d) => d.conclude n m stPoisoned 0 0 none
    | (.wait, d) => d.retry m

/-- The atomics (R93). -/
def Dev.doAtomic (d : Dev) (m : Msg) : Dev :=
  let n := d.mir.unacked.length
  let s := (reqSpan m).2
  match d.loadLine (m.addr / 64) with
  | (.bytes b, d) =>
    let old := field b (m.addr % 64) s
    let new := natBytes s (atomicNew m.opcode s old m.data)
    match d.storeLine m.addr new with
    | (.done, d) =>
      (d.repAtomicLine m.addr (overlay b (m.addr % 64) new) (dedupTail m stDone 0 old) m.src m.tag).reply n m stDone 0 0
        (some (natBytes s old))
    | (.poisoned, d) => d.reply n m stPoisoned 0 0 none
    | (.wait, d) => d.retry m
  | (.poisoned, d) => d.reply n m stPoisoned 0 0 none
  | (.wait, d) => d.retry m

/-- The noise register of a GRU (R227): a free value once loaded. -/
def Dev.gruReg (d : Dev) (g : Nat) : BitVec 32 :=
  match tget d.gru.lfsr g with
  | some r => r
  | none => BitVec.ofNat 32 (Config.freeNumber g)

/-- The elements of a REDUCE that lie in one line: its first element and their number. -/
def reducePart (m : Msg) (line : Nat) : Nat × Nat :=
  let rb := fmtBits (reduceRow m) / 8
  let i0 := (max m.addr (line * 64) - m.addr) / rb
  let i1 := (min (m.addr + reduceCount m * rb) (line * 64 + 64) - m.addr) / rb
  (i0, i1 - i0)

/-- Update the lines of a REDUCE in ascending order, each at once; the first poisoned one ends it (R226). -/
def Dev.reduceLines (d : Dev) (m : Msg) (g : Nat) : List Nat → Stored × Dev
  | [] => (.done, d)
  | l :: r =>
    let p := reducePart m l
    let rb := fmtBits (reduceRow m) / 8
    let vb := fmtBits (reduceVec m) / 8
    let a := m.addr + rb * p.1
    match d.loadLine l with
    | (.bytes b, d) =>
      let x := reduceRun m (d.gruReg g) (slice b (a % 64) (rb * p.2)) (slice m.data (8 + vb * p.1) (vb * p.2)) p.2
      let d := { d with gru := { d.gru with lfsr := tput d.gru.lfsr g x.2 } }
      match d.storeLine a x.1 with
      | (.done, d) =>
        let tail := if r.isEmpty && originOf m = 0 then dedupTail m stDone 0 0 else zeros 24
        (d.repAtomicLine a (overlay b (a % 64) x.1) tail m.src m.tag).reduceLines m g r
      | x => x
    | (.poisoned, d) => (.poisoned, d)
    | (.wait, d) => (.wait, d)

/-- The GRU a home passes a REDUCE to: 8s + (h mod 8) with the home's stack s (R216). -/
def gruOfHome (h : Nat) : Nat := 8 * (h / 8) + h % 8

/-- The lines that cannot be loaded now. -/
def Dev.unready (d : Dev) (lines : List Nat) : List Nat := lines.filter fun l => (d.loadLine l).1 == .wait

/-- What those lines wait for is set going. -/
def Dev.makeReady (d : Dev) (lines : List Nat) : Dev := forEach (d.unready lines) (fun l d => (d.loadLine l).2) d

/-- REDUCE (R226): RETRY leaves every line as it was, so no line is updated before all of them can be. -/
def Dev.doReduce (d : Dev) (m : Msg) : Dev :=
  let n := d.mir.unacked.length
  if !(d.unready (reqLines m)).isEmpty then (d.makeReady (reqLines m)).retry m
  else match d.reduceLines m (gruOfHome (homeOf (m.addr / 64))) (reqLines m) with
  | (.done, d) => d.reply n m stDone 0 0 none
  | (.poisoned, d) => d.reply n m stPoisoned 0 0 none
  | (.wait, d) => d.retry m

/-- A line of a private segment's range in force (R132). -/
def Dev.isPrivate (d : Dev) (line : Nat) : Bool := d.coh.privates.any fun r => r.1 ≤ line && line ≤ r.2

/-- Answer a coherent request with the line's data and a grant; a poisoned line is cached by nobody (R116, R358). -/
def Dev.grantData (d : Dev) (m : Msg) (snap : Tbl (List Byte)) (grant : Nat) (record : Dev → Dev) : Dev :=
  let line := m.addr / 64
  match d.lineFor snap line with
  | (.bytes b, d) =>
    let n := d.mir.unacked.length
    ((record d).repDir line).reply n m stDone 0 grant (some (slice b 0 64))
  | (.poisoned, d) => d.refuse m stPoisoned 0
  | (.wait, d) => d.retry m

/-- RD_SHARED once the snoops it needed are answered (Table 5.6, R126). An owner that gave the line up or did not answer is no longer
recorded (R118, R120); otherwise both are SHARED. -/
def Dev.doRdShared (d : Dev) (m : Msg) (snap : Tbl (List Byte)) : Dev :=
  let line := m.addr / 64
  if d.isPrivate line then d.grantData m snap 0 id
  else
    match d.dirOf line with
    | none =>
      if (d.emtOf (line / 2 ^ 19)).kind = 4 then d.grantData m snap 1 (·.dirNew line { state := 1, ptrs := [m.src] })
      else d.grantData m snap 2 (·.dirNew line { state := 3, ptrs := [m.src], grant := 2 })
    | some e =>
      if e.state = 3 then
        if e.ptrs = [m.src] then d.grantData m snap e.grant (·.touch line)
        else d.grantData m snap 1 fun d =>
          (d.dirPut line { e with state := 1, ptrs := e.ptrs ++ [m.src] }).touch line
      else if e.state = 2 then
        if d.inDomain m.src e.domain then d.grantData m snap 1 (·.touch line)
        else d.grantData m snap 1 fun d => (d.dirPut line { e with state := 1, ptrs := [m.src] }).touch line
      else if nmem e.ptrs m.src then d.grantData m snap 1 (·.touch line)
      else d.grantData m snap 1 fun d => (d.dirPut line { e with ptrs := e.ptrs ++ [m.src] }).touch line

/-- RD_OWN and UPGRADE once the snoops are answered (Table 5.6). -/
def Dev.doOwn (d : Dev) (m : Msg) (snap : Tbl (List Byte)) : Dev :=
  let line := m.addr / 64
  let own := fun (e : DirEntry) (d : Dev) => (d.dirPut line { e with state := 3, ptrs := [m.src], grant := 3 }).touch line
  if d.isPrivate line then d.grantData m snap 0 id
  else
    match d.dirOf line with
    | none => d.grantData m snap 3 (·.dirNew line { state := 3, ptrs := [m.src], grant := 3 })
    | some e =>
      if m.opcode = 0x12 && e.state = 1 && nmem e.ptrs m.src then
        let n := d.mir.unacked.length
        ((own e d).repDir line).reply n m stDone 0 3 none
      else d.grantData m snap 3 (own e)

/-- The effect and answer of an admitted request, its snoops answered: `snap` the lines snoops returned for reads. -/
def Dev.perform (d : Dev) (m : Msg) (snap : Tbl (List Byte)) : Dev :=
  let d := d.countReq m
  if isRead m.opcode then d.doRead m snap
  else if m.opcode = 3 || m.opcode = 4 || m.opcode = 0x15 then d.doWrite m
  else if isAtomic m.opcode then d.doAtomic m
  else if m.opcode = 0x32 then d.doReduce m
  else if m.opcode = 0x10 then d.doRdShared m snap
  else if m.opcode = 0x11 || m.opcode = 0x12 then d.doOwn m snap
  else d

/-! ## Refusal and the reservation (R128) -/

/-- The starvation state of a home. -/
def Dev.starveOf (d : Dev) (h : Nat) : Starve := tgetD d.coh.starve h {}
def Dev.setStarve (d : Dev) (h : Nat) (f : Starve → Starve) : Dev :=
  { d with coh := { d.coh with starve := tput d.coh.starve h (f (d.starveOf h)) } }

/-- The request sets STARVING. -/
def starving (m : Msg) : Bool := 0x10 ≤ m.opcode && m.opcode ≤ 0x15 && m.opcode != 0x13 && m.addr % 2 == 1

/-- Another requester's reservation keeps the line (R128). -/
def Dev.reservedFrom (d : Dev) (line : Nat) : Bool :=
  match (d.starveOf (homeOf line)).holder with
  | some (_, l) => l == line
  | none => false

/-- The head of the wait list becomes the holder, a reservation granted: its next attempt is awaited for 4 × TIMEOUT_US (R128,
R133). -/
def Dev.nextHolder (d : Dev) (h : Nat) : Dev :=
  let s := d.starveOf h
  let d := if s.waitList.isEmpty then d else d.bump 0x180204 0
  d.setStarve h fun _ => { holder := s.waitList.head?, deadline := d.now + 4 * usTicks (d.fld 0x180104 0 12),
                           heldReq := none, waitList := s.waitList.drop 1 }

/-- What becomes of a starving request: it takes the reservation (`some`), or is answered RETRY and waits. -/
def Dev.takeReservation (d : Dev) (m : Msg) : Bool × Dev :=
  let line := m.addr / 64
  let h := homeOf line
  let s := d.starveOf h
  if s.holder = some (m.src, line) then (true, d.setStarve h fun s => { s with heldReq := some m })
  else if s.holder.isNone && s.waitList.isEmpty then
    (true, (d.setStarve h fun s => { s with holder := some (m.src, line), heldReq := some m }).bump 0x180204 0)
  else
    let wl := if s.waitList.any (· == (m.src, line)) || 64 ≤ s.waitList.length then s.waitList else s.waitList ++ [(m.src, line)]
    (false, d.setStarve h fun s => { s with waitList := wl })

/-- The reservation holds this request. -/
def Dev.isHeld (d : Dev) (m : Msg) : Bool := (d.starveOf (homeOf (m.addr / 64))).heldReq == some m

/-- The held request is admitted: the reservation ends. -/
def Dev.endReservation (d : Dev) (m : Msg) : Dev :=
  let h := homeOf (m.addr / 64)
  if (d.starveOf h).heldReq = some m then d.nextHolder h else d

/-! ## The directory's part (R117, R124 to R126) -/

/-- Evict a way for a request to a full set (R125): nothing when every way is busy or the victim is reserved. -/
def Dev.evictFor (d : Dev) (line : Nat) : Dev :=
  match d.victim line with
  | none => d
  | some v =>
    if d.reservedFrom v then d
    else
      match d.dirOf v with
      | none => d
      | some e => 
        let d' := d.openInv v .evict e 0
        if d'.busy v then d'.bump 0x180208 16 else d'

/-- What a request must wait for at one line. -/
inductive Need where
  | nothing
  /-- unicast snoops: opcode, nodes, and the owner among them -/
  | ask (op : Nat) (nodes : List Nat) (owner : Option Nat)
  /-- a multicast SNP_INV to the entry's domain -/
  | askAll (e : DirEntry)
  /-- an entry, but no way is free -/
  | way
  /-- served at once, replacing a pointer (R126 step 2) -/
  | shift (victim : Nat) (e : DirEntry)
  /-- served at once, the entry turning SHARED_BCAST (R126 step 1) -/
  | broadcast (dom : Nat) (e : DirEntry)
  deriving DecidableEq, Repr

/-- The domain that the requester and all four sharers belong to, if OVF_MODE allows (R126). -/
def Dev.commonDomain (d : Dev) (n : Nat) (ptrs : List Nat) : Option Nat :=
  if bit (d.reg 0x180200) 0 then none
  else
    match tget d.coh.nodeDom n with
    | some dm => if d.inDomain n dm && ptrs.all fun p => d.inDomain p dm then some dm else none
    | none => none

/-- Table 5.6 for one line. -/
def Dev.needAt (d : Dev) (m : Msg) (line : Nat) : Need :=
  match d.dirOf line with
  | none =>
    if (m.opcode = 0x10 || m.opcode = 0x11 || m.opcode = 0x12) && !d.isPrivate line && (d.freeWay line).isNone then .way
    else .nothing
  | some e =>
    if isRead m.opcode then
      if e.state = 3 && e.ptrs != [m.src] && !e.ptrs.isEmpty then .ask 3 e.ptrs e.owner else .nothing
    else if m.opcode = 0x10 then
      if e.state = 3 then if e.ptrs = [m.src] || e.ptrs.isEmpty then .nothing else .ask 2 e.ptrs e.owner
      else if e.state = 2 then if d.inDomain m.src e.domain then .nothing else .askAll e
      else if nmem e.ptrs m.src || e.ptrs.length < 4 then .nothing
      else
        match d.commonDomain m.src e.ptrs with
        | some dm => .broadcast dm e
        | none => .shift (e.ptrs.headD 0) e
    else if m.opcode = 0x11 || m.opcode = 0x12 then
      if e.state = 2 then .askAll e
      else
        let others := e.ptrs.filter (· != m.src)
        if others.isEmpty then .nothing else .ask 1 others (e.owner.filter (· != m.src))
    else if e.state = 2 then .askAll e
    else if e.ptrs.isEmpty then .nothing else .ask 1 e.ptrs e.owner

/-- The entry of a line that a write, atomic or REDUCE has invalidated everywhere goes FREE (Table 5.6). -/
def Dev.freeWritten (d : Dev) (m : Msg) (line : Nat) : Dev :=
  if reqWrites m.opcode && m.opcode != 0x11 && m.opcode != 0x12 && (d.dirOf line).isSome then (d.dirDel line).repDir line else d

/-- Open the transaction of one line of a request. -/
def Dev.openFor (d : Dev) (m : Msg) (line : Nat) : Dev :=
  match d.needAt m line with
  | .ask op nodes owner => d.openTxn line (.serve m) nodes op owner
  | .askAll e => d.openMcTxn line (.serve m) e.group e.mask m.src
  | _ => d

/-- Every line's cache way can be had; the directory cache as it then stands (R124). -/
def Dev.cacheAll (d : Dev) : List Nat → Option Dev
  | [] => some d
  | l :: r =>
    match d.cacheTouch l with
    | none => none
    | some d => d.cacheAll r

/-- Serve a request whose lines are free of other transactions: at once, or after the snoops of Table 5.6. -/
def Dev.serve (d : Dev) (m : Msg) : Dev :=
  let lines := reqLines m
  let tracked := lines.filter fun l =>
    (d.dirOf l).isSome || (m.opcode == 0x10 || m.opcode == 0x11 || m.opcode == 0x12 || m.opcode == 0x15)
  match lines.find? fun l => d.needAt m l == .way with
  | some l => if d.isHeld m then d.evictFor l else (d.evictFor l).retry m
  | none =>
    match d.cacheAll tracked with
    | none => if d.isHeld m then d else d.retry m
    | some d =>
      let d := ((d.dedupOpen m).endReservation m)
      let asks := lines.filter fun l => match d.needAt m l with
        | .ask _ _ _ => true
        | .askAll _ => true
        | _ => false
      if !asks.isEmpty then forEach asks (fun l d => d.openFor m l) d
      else
        match d.needAt m (m.addr / 64) with
        | .broadcast dm e =>
          let g := tgetD d.coh.domains dm (0, 0)
          let e' := { e with state := 2, ptrs := [], domain := dm, group := g.1, mask := g.2 }
          ((d.dirPut (m.addr / 64) e').perform m [])
        | .shift v e =>
          let line := m.addr / 64
          let d := (d.dirPut line { e with ptrs := e.ptrs.drop 1 }).perform m []
          d.openTxn line .shift [v] 1 none
        | _ => (forEach lines (fun l d => d.freeWritten m l) d).perform m []

/-! ## Taking requests up -/

/-- The first line, in address order, whose check does not pass (R91). -/
def Dev.checkAll (d : Dev) (m : Msg) (skip : Bool) : List Nat → Verdict × Nat
  | [] => (.ok 0, 0)
  | l :: r =>
    let a := max (reqSpan m).1 (l * 64)
    let v := if originOf m = 2 || skip then d.find a (reqWrites m.opcode) else d.check m.src a (reqRights m.opcode) (reqWrites m.opcode)
    match v with
    | .ok _ => d.checkAll m skip r
    | v => (v, a)

/-- Park a request of a line that a migration is copying (R56): at most 64 a home, RETRY beyond. -/
def Dev.parkReq (d : Dev) (m : Msg) (addr : Nat) : Dev :=
  let h := homeOf (addr / 64)
  if (d.pool.parked.filter fun p => p.1 == h).length < 64 then
    { d with pool := { d.pool with parked := d.pool.parked ++ [(h, m)] } }
  else d.retry m

/-- The set of a line holds an entry of a reserved STATE (Table 5.9). -/
def Dev.setBad (d : Dev) (line : Nat) : Bool := (d.setEntries line).any fun e => 4 ≤ e.2.state

/-- The sets of lines are read: one with an entry of a reserved STATE is recalled (R130). -/
def Dev.readSets (d : Dev) (lines : List Nat) : Dev :=
  forEach (lines.filter d.setBad) (fun l d => d.recallStart (globalSet l) 0) d

/-- The skeins of the range of a request. -/
def reqSkein (a : Nat) (sk : Nat) : Bool := a / 65536 == sk

/-- The event of an EMT entry with a reserved KIND (R37, R481), where an extent has one. -/
def Dev.kindNote (d : Dev) (node a reqAddr : Nat) : Dev :=
  if 6 ≤ (d.emtOf (a / 2 ^ 25)).kind then
    d.log (0x0300 + 4 * homeOf (a / 64)) (origin := node) (arg0 := a / 2 ^ 25) (arg1 := reqAddr) else d

/-- A line that its home serves nobody now: its set is recalled, it is busy, another request has reserved it (unless `mine`), or a
stream-port access waits for it (R113, R117, R128, R130, R131). -/
def Dev.heldUp (d : Dev) (mine : Bool) (l : Nat) : Bool :=
  d.recalled l || d.busy l || (d.reservedFrom l && !mine) || nmem d.coh.portWaits l

/-- Take up a request that Table 2.6 does not refuse, `v` what it says of the line at `a`: everything that answers RETRY (R113), then
service. `mine`: the reservation is this request's, which is held and not answered (R128 step 1). -/
def Dev.takeUp (d : Dev) (m : Msg) (v : Verdict) (a : Nat) (mine : Bool) : Dev :=
  let block := fun (d : Dev) (again : Dev → Dev) => if mine then d else again d
  match v with
  | .fetch => block (d.startFetch (a / 65536) (loads m.opcode) false (reqSkein a)) (·.retryAt m a)
  | .copy =>
    match d.draftCopyStart (a / 2 ^ 25) with
    | (true, d) => block d (·.retry m)
    | (false, d) => (d.endReservation m).conclude d.mir.unacked.length m stDenied 2 0 none
  | .ok _ =>
    if originOf m = 0 && reqWrites m.opcode && d.backlogged then block d (·.retry m)
    else
      match (reqLines m).findSome? fun l =>
        match d.keyOf (l * 64) with
        | some k => if d.throttleLeft m.src (l * 64) k = 0 then none else some (d.throttleLeft m.src (l * 64) k)
        | none => none with
      | some t => block d fun d => if originOf m = 0 then d.refuse m stRetry (hintUnits t) else d.retry m
      | none => if (reqLines m).any (d.heldUp mine) then block d (·.retry m) else d.serve m
  | _ => block d (·.retryAt m a)

/-- Offer a request to the homes of its lines: Table 2.6, then what keeps it (R113), with the reservation where it is STARVING
(R128). A line of a set under recall answers RETRY whoever asks (R130). `held` marks the request the starvation reservation
holds. -/
def Dev.accept (d : Dev) (m : Msg) (held : Bool) : Dev :=
  let lines := reqLines m
  match d.checkAll m false lines with
  | (.no st det, a) => ((d.kindNote m.src a m.addr).endReservation m).conclude d.mir.unacked.length m st det 0 none
  | (.park, a) => if held || originOf m = 2 then d else d.parkReq m a
  | (v, a) =>
    let d := d.readSets lines
    if !held && lines.any d.recalled then d.retry m
    else
      let r := if starving m && !held then d.takeReservation m else (held, d)
      if starving m && !held && !r.1 then r.2.retry m else r.2.takeUp m v a r.1

/-- The checks of Table 2.6 that EVICT and WB_DIRTY keep: steps 1, 6, 7 (R115). A reserved KIND has its event (`kindNote`). -/
def Dev.looseCheck (d : Dev) (m : Msg) : Option (Nat × Nat) :=
  let ext := m.addr / 2 ^ 25
  let e := d.emtOf ext
  if e.kind = 0 || 5 ≤ e.kind then some (stDenied, 0) else d.viewCheck m.src ext e

/-- EVICT of a line its home serves: only the directory entry of a requester it records changes (R111, R115). -/
def Dev.evictServe (d : Dev) (m : Msg) : Dev :=
  let line := m.addr / 64
  let n := d.mir.unacked.length
  match d.dirOf line with
  | none => d.finish n m stDone
  | some e =>
    if e.state = 2 || !nmem e.ptrs m.src then (d.touch line).finish n m stDone
    else
      let rest := e.ptrs.filter (· != m.src)
      let d := if rest.isEmpty then d.dirDel line else (d.dirPut line { e with ptrs := rest }).touch line
      (d.repDir line).finish n m stDone

/-- The directory cache holds the entry of a line, if the line has one: none where every way of its cache set is busy (R124). -/
def Dev.cacheEntry (d : Dev) (line : Nat) : Option Dev := if (d.dirOf line).isSome then d.cacheTouch line else some d

/-- Take up an EVICT that Table 2.6 does not refuse; `mine` as in `takeUp`. -/
def Dev.evictAdmit (d : Dev) (m : Msg) (mine : Bool) : Dev :=
  let line := m.addr / 64
  let block := fun (d : Dev) (again : Dev → Dev) => if mine then d else again d
  if d.barred (line / 2 ^ 19) || d.heldUp mine line then block d (·.retry m)
  else
    match d.locate m.addr false with
    | .fetch => block (d.startFetch (m.addr / 65536) false false (fun _ => false)) (·.retryAt m m.addr)
    | .again => block d (·.retryAt m m.addr)
    | _ =>
      match d.cacheEntry line with
      | none => block d (·.retry m)
      | some d =>
        let d := if (d.emtOf (line / 2 ^ 19)).kind = 2 then d.countSkein (line / 1024) else d
        (d.endReservation m).evictServe m

/-- EVICT (R111, R115, R128). -/
def Dev.evictAccept (d : Dev) (m : Msg) (held : Bool) : Dev :=
  let line := m.addr / 64
  match d.looseCheck m with
  | some (st, det) => ((d.kindNote m.src m.addr m.addr).endReservation m).refuse m st det
  | none =>
    let d := d.readSets [line]
    if !held && d.recalled line then d.retry m
    else
      let r := if starving m && !held then d.takeReservation m else (held, d)
      if starving m && !held && !r.1 then r.2.retry m else r.2.evictAdmit m r.1

/-- Serve the request the reservation of a home holds, if its obstacles are gone (R128). -/
def Dev.serveHeld (d : Dev) (h : Nat) : Dev :=
  match (d.starveOf h).heldReq with
  | some m => if m.opcode = 0x14 then d.evictAccept m true else d.accept m true
  | none => d

/-- Serve the held requests of every home. -/
def Dev.serveAllHeld (d : Dev) : Dev :=
  forEach ((d.coh.starve.filter fun s => s.2.heldReq.isSome).map (·.1)) (fun h d => d.serveHeld h) d

/-! ## Closing a transaction -/

/-- The lines whose transactions serve the same request. -/
def Dev.partners (d : Dev) (m : Msg) : List (Nat × Txn) :=
  d.coh.txns.filter fun t => t.2.kind == .serve m

/-- A transaction has all its answers. -/
def Txn.done (t : Txn) : Bool := t.waits.isEmpty && (t.mcTag.isNone || t.mcLeft == 0)

/-- Remove the transaction of a line. -/
def Dev.dropTxn (d : Dev) (line : Nat) : Dev := { d with coh := { d.coh with txns := tdel d.coh.txns line } }

/-- An entry that no holder is left of is FREE (Table 5.6, R118, R120). -/
def Dev.freeGone (d : Dev) (line : Nat) : Dev :=
  match d.dirOf line with
  | some e => if e.ptrs.isEmpty && e.state != 2 && !d.busy line then (d.dirDel line).repDir line else d
  | none => d

/-- After a transaction closes: an entry without holders goes FREE, what operations in force order is back-invalidated, a demotion
goes on, and the request the reservation holds is served, but not ahead of a stream port that waits for the line (R131). -/
def Dev.afterClose (d : Dev) (line : Nat) : Dev :=
  let d := (d.freeGone line).sweepBeside line
  let d := if nmem d.far.demoting (line / 1024) && (d.ownedIn (line / 1024)).isEmpty &&
      d.coh.txns.all (fun t => t.1 / 1024 != line / 1024) then d.demote (line / 1024) else d
  if nmem d.coh.portWaits line then d else d.serveHeld (homeOf line)

/-- Write the dirty data of a transaction's line to memory. -/
def Dev.keepData (d : Dev) (line : Nat) (t : Txn) : Dev :=
  match t.data with
  | some b => d.writeBack line b
  | none => d

/-- Close the transaction of a line, whose answers are complete. -/
def Dev.closeTxn (d : Dev) (line : Nat) : Dev :=
  match tget d.coh.txns line with
  | none => d
  | some t =>
    if !t.done then d
    else
      match t.kind with
      | .serve m =>
        let ps := d.partners m
        if !ps.all (·.2.done) then d
        else
          let snap : Tbl (List Byte) := if isRead m.opcode then
            ps.foldl (fun s p => match p.2.data with
              | some b => tput s p.1 b
              | none => s) [] else []
          let d := if isRead m.opcode then d else forEach ps (fun p d => d.keepData p.1 p.2) d
          let d := forEach ps (fun p d => d.dropTxn p.1) d
          let d := if ps.any fun p => d.recalled p.1 then d.retry m
            else
              let d := forEach (reqLines m) (fun l d => d.freeWritten m l) d
              d.perform m snap
          forEach ps (fun p d => d.afterClose p.1) d
      | .evict => (((d.keepData line t).dropTxn line).dirDel line).afterClose line
      | .shift => ((d.keepData line t).dropTxn line).afterClose line
      | .drop whole =>
        let d := (d.keepData line t).dropTxn line
        let d := if whole then { d.dirDel line with coh := { (d.dirDel line).coh with sweepLines := ndel d.coh.sweepLines line } } else d
        (d.repDir line).afterClose line
      | .stash target =>
        let d := d.dropTxn line
        match t.accepted, d.dirOf line with
        | true, some e => (((d.dirPut line { e with ptrs := [target] }).touch line).repDir line).afterClose line
        | _, _ => (d.dirDel line).afterClose line

end Sys2Proof.Machine
end

