-- ==== Sys2Proof/Machine/Arrive.lean ====
section
/-! DEFINITION. A request reaching the device (R88 to R92): who it is for, what state refuses it, the checks of R90, the
ordered streams (R101) and the dedup window (R104). -/

namespace Sys2Proof.Machine

/-- The service ID this unit serves (R88). -/
def Dev.serviceId (d : Dev) : Option Nat := if d.mir.role = 1 then some (d.fld 0x680004 0 12) else none

/-- The message is addressed to this device (R88, R89), or is a multicast copy for it (R302). -/
def Dev.forUs (d : Dev) (m : Msg) : Bool :=
  m.mc || m.dst == d.ownNode || (m.dst == 0xFFF && m.cls == 0) || some m.dst == d.serviceId

/-- The device is entering, in or leaving a power-down state (R387). -/
def Dev.asleep (d : Dev) : Bool := 2 ≤ d.pm.state

/-- What the state of the device answers a request before anything else: RETRY before READY (R443), while entering Bank
or Ember (R387), and in HOLD (R316), never to a WB_DIRTY (R118); FENCED in Standby or Resync but for ECHO (R308). -/
def Dev.gate (d : Dev) (m : Msg) : Option (Nat × Nat × Nat) :=
  if !d.boot.ready && m.opcode ≠ 0x13 then some (stRetry, 0xFFFF, 0)
  else if d.asleep && m.opcode ≠ 0x13 then
    some (stRetry, clampN 1 0xFFFF (Config.freeHint d.free), 0)
  else if (d.mir.role = 2 || d.mir.role = 3) && m.opcode != 0xF0 then some (stFenced, 0, d.ownNode)
  else if d.mir.role = 1 && d.mir.phase = 1 && some m.dst = d.serviceId && m.opcode ≠ 0x13 then some (stRetry, 0xFFFF, 0)
  else none

/-- The checks of R90, in order: a status and its detail for the first that fails. -/
def Dev.sessionCheck (d : Dev) (m : Msg) : Option (Nat × Nat) :=
  if !knownRequest m.opcode then some (stUnsupported, 0xFFFF)
  else if m.opcode = 0xF0 || m.opcode = 0x39 then none
  else if (d.sessionOf m.src).isNone then some (stUnsupported, 0)
  else if !d.hasFeature m.src (requestFeature m.opcode) then some (stUnsupported, requestFeature m.opcode)
  else none

/-- MC 1 is accepted on WRITE alone, and needs MULTICAST (R92, R115). -/
def Dev.mcCheck (d : Dev) (m : Msg) : Option (Nat × Nat) :=
  if !m.mc then none
  else if m.opcode ≠ 3 then some (stDenied, 0x23)
  else if !d.hasFeature m.src 13 then some (stUnsupported, 13)
  else none

/-- Forget a message that waited at LOCAL. -/
def Dev.taken (d : Dev) (m : Msg) : Dev :=
  let same := fun (x : Msg) => x.cls == m.cls && x.opcode == m.opcode && x.src == m.src && x.tag == m.tag && x.xfer == m.xfer
  { d with router := { d.router with delivered := d.router.delivered.eraseP same } }

/-- Hold an ordered request at its place in the stream: after those that come before it. -/
def Ordered.hold (o : Ordered) (m : Msg) (at_ : Nat) : Ordered := { o with held := o.held.take at_ ++ m :: o.held.drop at_ }

/-- Take an ordered request through its stream: RETRY while an earlier one's retry is awaited, held while an earlier
one is not admitted (at most 256), and served otherwise. The retried request comes back to its own place. -/
def Dev.ordered (d : Dev) (m : Msg) (body : Dev → Dev) : Dev :=
  if !orderedMsg m then body d
  else
    let o := tgetD d.fab.ordered (ordKey m) {}
    let back := match o.retried with
      | some (t, _) => m.tag == t
      | none => false
    if o.retried.isSome && !back then d.turnAway m stRetry 0 0
    else
      let parked := d.pool.parked.any fun p => orderedMsg p.2 && ordKey p.2 == ordKey m
      let first := if back then o.before else o.held.length
      if parked || first ≠ 0 then
        if 256 ≤ o.held.length then let h := d.hint; h.2.turnAway m stRetry h.1 0
        else d.setStream m fun o => { (o.hold m first) with retried := none, before := 0 }
      else body (if back then d.setStream m fun o => { o with retried := none, before := 0 } else d)

/-- The answer a record gives: one that a partner sent is built for the request it answers (R309, R322). -/
def Dev.dedupAnswer (d : Dev) (r : DedupRec) (m a : Msg) : Msg :=
  if r.rep.isEmpty then a
  else
    let res := field a.data 0 8
    if m.opcode = 0x38 then
      d.datTo m a.opcode (msgDetail a) (if a.opcode = stStaleBase then res else 0) (natBytes 8 res ++ slice a.data 8 4 ++ zeros 4)
    else if isAtomic m.opcode && a.opcode = stDone then d.datTo m stDone (msgDetail a) 0 (natBytes (reqSpan m).2 res)
    else d.rspTo m a.opcode (msgDetail a) (if m.opcode = 0x32 then res else 0)

/-- Take a non-idempotent request through the dedup window of its home (R104). -/
def Dev.deduped (d : Dev) (m : Msg) (body : Dev → Dev) : Dev :=
  if originOf m ≠ 0 || !dedupCovers m then body d
  else
    let k := dedupKey (dedupHome m) m.src m.tag
    let full := fun (d : Dev) =>
      let rs := (d.dedupOf (dedupHome m)).filter fun e => e.1 != k
      if 8192 ≤ rs.length then
        match (rs.filterMap fun e => e.2.answer.map fun _ => e.2.expiry).foldl (fun b x => some (match b with
          | none => x
          | some y => min x y)) (none : Option Nat) with
        | some t => d.refuse m stRetry (hintUnits (t - d.now))
        | none => d.draw.2.refuse m stRetry (hintUnits (d.draw.1 + usTicks (d.fld 0x180100 0 12)))
      else body d
    match tget d.fab.dedup k with
    | none => full d
    | some r =>
      if !r.matchesMsg m then body { d with fab := { d.fab with dedup := tdel d.fab.dedup k } }
      else
        match r.answer with
        | none => let h := d.hint; h.2.turnAway m stRetry h.1 0
        | some a =>
          if d.mir.unacked.any fun x => x.release == some a then let h := d.hint; h.2.turnAway m stRetry h.1 0
          else
            ((d.bump 0x180108 0).countAnswer m.src a.opcode).sendMsg { d.dedupAnswer r m a with dst := m.src, src := d.answerSrc m, tc := m.tc }

/-- A request reaches LOCAL: gated, checked, ordered, deduplicated, and then served by `body`. -/
def Dev.arrive (d : Dev) (m : Msg) (body : Dev → Dev) : Dev :=
  if m.cls ≠ 0 || !d.forUs m then d
  else
    let d := (d.taken m).wakeLatch 2
    match d.gate m with
    | some (st, det, res) => ({ d with free := d.free + 1 } : Dev).turnAway m st det res
    | none =>
      match d.sessionCheck m with
      | some (st, det) => d.turnAway m st det 0
      | none =>
        match d.mcCheck m with
        | some (st, det) => d.turnAway m st det 0
        | none => d.ordered m fun d => d.deduped m body

/-- Refuse with DENIED and a detail (Table 4.4); a message of a write transfer counts as received and failing (R98). -/
def Dev.deny (d : Dev) (m : Msg) (det : Nat) : Dev := d.conclude d.mir.unacked.length m stDenied det 0 none

/-- The bytes of a request reach the device window or the end of the pool space (Table 4.4). -/
def spanBad (m : Msg) : Bool := 0xFFFFF0000000 ≤ (reqSpan m).1 || 0xFFFFF0000000 < (reqSpan m).1 + (reqSpan m).2

end Sys2Proof.Machine
end

