-- ==== Sys2Proof/Machine/Engine.lean ====
section
/-! DEFINITION. Accesses the device itself makes to the pool: rings, outputs and notify words of clients with their rights
(R71, R79, R480), movers, stream ports, lookups and walkers. Each line is checked as a request of the node would be
(Table 2.6), or not at all where the engine holds its rights already, and a line an agent owns is snooped first. An access that
must wait is answered `again`, and the engine makes it again. -/

namespace Sys2Proof.Machine

/-- What an access of the device gives. -/
inductive Got where
  /-- done; the bytes of a read -/
  | ok (b : List Byte)
  /-- a final status and its detail -/
  | no (st det : Nat)
  /-- RETRY with its hint -/
  | again (hint : Nat)
  deriving DecidableEq, Repr

/-- The verdict on a line: under Table 2.6 for a node, or of its place alone. -/
def Dev.verdict (d : Dev) (node : Option Nat) (addr need : Nat) (write : Bool) : Verdict :=
  if inWindow addr then .no stDenied 0
  else
    match node with
    | some n => d.check n addr need write
    | none => d.find addr write

/-- A RETRY to the engine. -/
def Dev.gotAgain (d : Dev) : Got × Dev := (.again d.hint.1, d.hint.2)

/-- A RETRY for a line whose skein may be on its way (R262). -/
def Dev.gotWait (d : Dev) (line : Nat) : Got × Dev :=
  match d.fetchHint (line / 1024) with
  | some h => (.again h, d)
  | none => d.gotAgain

/-- Ticks of a hint. -/
def hintTicks (h : Nat) : Nat := (h * 512 + 9) / 10

/-- The line is taken by another operation of its home (R113, R128, R130); a stream port waits for no reservation, and others
wait for it (R131). -/
def Dev.lineBlocked (d : Dev) (line : Nat) (stream : Bool := false) : Bool :=
  if stream then d.recalled line || d.busy line else d.heldUp false line

/-- A stream-port access waits for a line: it is served before anything else (R131). -/
def Dev.portAwaits (d : Dev) (line : Nat) (stream : Bool) : Dev :=
  if stream then { d with coh := { d.coh with portWaits := nadd d.coh.portWaits line } } else d

/-- The stream-port access that waited for a line has been served: the reservation's request is next (R131). -/
def Dev.portServed (d : Dev) (line : Nat) (stream : Bool) : Dev :=
  if stream && nmem d.coh.portWaits line then
    ({ d with coh := { d.coh with portWaits := ndel d.coh.portWaits line } } : Dev).serveHeld (homeOf line)
  else d

/-- A line an engine touches arrives at its stack, on behalf of the node it serves (R342). -/
def Dev.lineAccess (d : Dev) (node : Option Nat) (addr : Nat) (write : Bool) : Dev :=
  match d.keyOf addr with
  | some k => d.access (addr / 2 ^ 25) k (b2n write) 0 0 (node.getD 0xFFF) addr
  | none => d

/-- What a snoop returned for lines is used, or no longer wanted. -/
def Dev.forget (d : Dev) (lines : List Nat) : Dev :=
  { d with coh := { d.coh with fetched := d.coh.fetched.filter fun e => !nmem lines e.1 } }

/-- What a snoop returned for `n` bytes from `a` is no longer wanted: the work that asked for it has ended. -/
def Dev.forgetRun (d : Dev) (a n : Nat) : Dev :=
  { d with coh := { d.coh with fetched := d.coh.fetched.filter fun e => e.1 < a / 64 || (a + n + 63) / 64 ≤ e.1 } }

/-- The line has an owner that must be snooped first. -/
def Dev.ownedLine (d : Dev) (line : Nat) : Bool :=
  match d.dirOf line with
  | some e => e.state == 3 && !e.ptrs.isEmpty
  | none => false

/-- See one line: as `lineRead`, but what a snoop returned stays for the rest of a run. `load`: a skein's fetch counts as a miss
(R250); `stream`: for a stream port (R131). -/
def Dev.lineSee (d : Dev) (node : Option Nat) (line : Nat) (load stream : Bool) : Got × Dev :=
  match d.verdict node (line * 64) rightR false with
  | .no st det => (.no st det, d.kindNote (node.getD 0xFFF) (line * 64) (line * 64))
  | .fetch => (d.startFetch (line / 1024) load false (· == line / 1024)).gotWait line
  | .ok _ =>
    if d.lineBlocked line stream then (d.portAwaits line stream).gotAgain
    else
      match tget d.coh.fetched line with
      | some b => (.ok (slice b 0 64), d)
      | none =>
        if d.ownedLine line then
          let m : Msg := { cls := 0, opcode := 1, src := 0, dst := d.ownNode, tag := 0x2000, addr := line * 64, len := 63 }
          ((d.accept m false).portAwaits line stream).gotAgain
        else
          let d := if (d.emtOf (line / 2 ^ 19)).kind = 2 then d.countSkein (line / 1024) else d
          match ((d.touch line).lineAccess node (line * 64) false).loadLine line with
          | (.bytes b, d) => (.ok (slice b 0 64), d)
          | (.poisoned, d) => (.no stPoisoned 0, d)
          | (.wait, d) => d.gotAgain
  | _ => d.gotWait line

/-- A final answer: what was kept for the lines goes, and the stream port's wait is over. -/
def Got.settle (x : Got × Dev) (lines : List Nat) (stream : Bool) : Got × Dev :=
  match x with
  | (.again h, d) => (.again h, d)
  | (g, d) => (g, forEach lines (fun l d => d.portServed l stream) (d.forget lines))

/-- Read one line. -/
def Dev.lineRead (d : Dev) (node : Option Nat) (line : Nat) (load stream : Bool := false) : Got × Dev :=
  Got.settle (d.lineSee node line load stream) [line] stream

/-- Read the lines of a run in turn; the first that does not answer its bytes decides. -/
def Dev.linesSee (d : Dev) (node : Option Nat) (load : Bool) : List Nat → Got × Dev
  | [] => (.ok [], d)
  | l :: r =>
    match d.lineSee node l load false with
    | (.ok b, d) =>
      match d.linesSee node load r with
      | (.ok c, d) => (.ok (b ++ c), d)
      | x => x
    | x => x

/-- The lines of `n` bytes from `a`. -/
def linesOf (a n : Nat) : List Nat := if n = 0 then [] else (List.range ((a + n - 1) / 64 + 1 - a / 64)).map (a / 64 + ·)

/-- Read `n` bytes from `a`. -/
def Dev.readRun (d : Dev) (node : Option Nat) (a n : Nat) (load : Bool := false) : Got × Dev :=
  match Got.settle (d.linesSee node load (linesOf a n)) (linesOf a n) false with
  | (.ok b, d) => (.ok (slice b (a % 64) n), d)
  | x => x

/-- Write bytes inside one line, replicated (R309). Where agents hold the line they give it up first, and the write waits for
their answers (R117): it is done once memory has it. -/
def Dev.lineWrite (d : Dev) (node : Option Nat) (addr : Nat) (bs : List Byte) (load stream : Bool := false) : Got × Dev :=
  let line := addr / 64
  match d.verdict node addr rightW true with
  | .no st det => ((Got.no st det), (d.kindNote (node.getD 0xFFF) addr addr).portServed line stream)
  | .fetch => (d.startFetch (line / 1024) load false (· == line / 1024)).gotWait line
  | .copy =>
    match d.draftCopyStart (addr / 2 ^ 25) with
    | (true, d) => d.gotAgain
    | (false, d) => (.no stDenied 2, d)
  | .ok _ =>
    if d.lineBlocked line stream then (d.portAwaits line stream).gotAgain
    else
      match d.dirOf line with
      | some e => ((d.openInv line (.drop true) e (node.getD 0)).portAwaits line stream).gotAgain
      | none =>
        let d := if (d.emtOf (line / 2 ^ 19)).kind = 2 then d.countSkein (line / 1024) else d
        match (d.lineAccess node addr true).storeLine addr bs with
        | (.done, d) => (.ok [], (d.repWriteRun addr bs (node.getD 0) 0).portServed line stream)
        | (.poisoned, d) => (.no stPoisoned 0, d.portServed line stream)
        | (.wait, d) => d.gotAgain
  | _ => d.gotWait line

/-- Write a run line by line: how many bytes were written, and how it ended. -/
def Dev.writeRun (d : Dev) (node : Option Nat) (load : Bool) (a : Nat) (bs : List Byte) (done : Nat) : Nat → Nat × Got × Dev
  | 0 => (done, .ok [], d)
  | n + 1 =>
    if bs.isEmpty then (done, .ok [], d)
    else
      let k := min bs.length (64 - a % 64)
      match d.lineWrite node a (bs.take k) load with
      | (.ok _, d) => d.writeRun node load (a + k) (bs.drop k) (done + k) n
      | (x, d) => (done, x, d)

/-- Write a run of bytes. -/
def Dev.writeBytes (d : Dev) (node : Option Nat) (a : Nat) (bs : List Byte) (load : Bool := false) : Nat × Got × Dev :=
  d.writeRun node load a bs 0 (bs.length / 64 + 2)

end Sys2Proof.Machine
end

