-- ==== Sys2Proof/Machine/Rings.lean ====
section
/-! DEFINITION. Rings (R70 to R79): owners, the configuration record, enabling and disabling, doorbells, fetching and
starting descriptors, completion records with their signals, output writes (R480), and the completion of an operation
for whoever asked for it. -/

namespace Sys2Proof.Machine

/-! ## Owners and states (Tables 3.9, 3.11) -/

/-- A ring. -/
def Dev.ring (d : Dev) (n : Nat) : Ring := tgetD d.host.rings n {}

/-- Change a ring. -/
def Dev.setRing (d : Dev) (n : Nat) (f : Ring → Ring) : Dev :=
  { d with host := { d.host with rings := tput d.host.rings n (f (d.ring n)) } }

/-- A session's rings. -/
def Session.holds (s : Session) (n : Nat) : Bool := s.first ≤ n && n < s.first + s.count

/-- The owner of a ring: a management host, a session's node (an ended one until its rings have drained, R69), or 0. -/
def Dev.ringOwner (d : Dev) (n : Nat) : Nat :=
  if n < d.host.up0Count then 0xFF0
  else if n < d.host.up0Count + d.host.up1Count then 0xFF1
  else
    match (d.host.sessions ++ d.host.ending).find? fun s => s.2.holds n with
    | some s => s.2.node
    | none => 0

/-- Ring states (Table 3.11). -/
abbrev rsDisabled : Nat := 0
abbrev rsActive : Nat := 1
abbrev rsDraining : Nat := 2
abbrev rsFault : Nat := 3

/-- Slots of a ring. -/
def Ring.slots (r : Ring) : Nat := 2 ^ r.sizeLog

/-- PROD − CONS. -/
def Ring.used (r : Ring) : Nat := (r.prod + 2 ^ 32 - r.cons) % 2 ^ 32

/-- The PASID its accesses carry (R71). -/
def Ring.tag (r : Ring) : Option Nat := if r.pasidEn then some r.pasid else none

/-- A submission ring in use names completion ring c in DEF_CPL (R72). DESIGN CHOICE (log entry 56): a submission ring is enabled here in
every state but DISABLED, FAULT among them, since its started descriptors still owe records. -/
def Dev.namedBy (d : Dev) (c : Nat) : Bool :=
  d.host.rings.any fun e => e.2.kind == 0 && e.2.state != rsDisabled && e.2.defCpl == c && d.ringOwner e.1 == d.ringOwner c

/-- A ring moves to FAULT; vector 0 of its port carries the notice (R72, R79). -/
def Dev.ringFault (d : Dev) (n code : Nat) : Dev :=
  let d := d.setRing n fun r => { r with state := rsFault, fault := code }
  match nodePort (d.ringOwner n) with
  | some p => d.msix p 0
  | none => d

/-! ## Doorbells (R73) -/

/-- A doorbell its owner rings. -/
def Dev.ringDoorbell (d : Dev) (n v : Nat) : Dev :=
  let r := d.ring n
  if r.state ≠ rsActive then d
  else
    let cur := if r.kind = 0 then r.prod else r.cons
    let dd := (v % 2 ^ 32 + 2 ^ 32 - cur) % 2 ^ 32
    if dd = 0 then d
    else if 2 ^ 31 < dd then d.bump 0x800A0 0
    else
      let room := if r.kind = 0 then r.slots - r.used else r.used
      let d := if room < dd then d.clamped 2 0 else d
      let k := min room dd
      if r.kind = 0 then d.setRing n fun r => { r with prod := (r.prod + k) % 2 ^ 32 }
      else d.setRing n fun r => { r with cons := (r.cons + k) % 2 ^ 32 }

/-! ## Completion records (R77 to R79) -/

/-- Make the notify write of a ring with a value of PROD as its owner's own write (R79): a doorbell of the window, or pool memory,
after a RETRY again when the hint has elapsed. Every other end drops it. -/
def Dev.notifyWrite (d : Dev) (c prod : Nat) : Dev :=
  let r := d.ring c
  if inWindow r.notify then
    let n := (r.notify - 0xFFFFF0000000) / 0x1000
    if n < 1024 && r.notify % 0x1000 = 0 && d.ringOwner n = d.ringOwner c then d.ringDoorbell n prod else d
  else
    match d.lineWrite (some (d.ringOwner c)) r.notify (natBytes 4 prod) with
    | (.again h, d) => d.setRing c fun r => { r with notifyAt := some (d.now + hintTicks h, prod) }
    | (_, d) => d.setRing c fun r => { r with notifyAt := none }

/-- NOTIFY of a ring lies in a RING_CFG record of the window. -/
def Ring.notifiesCfg (r : Ring) : Bool := 0xFFFFF0400000 ≤ r.notify && r.notify < 0xFFFFF0410000

/-- Signal the owner of a ring (R79): its vector, or PROD at NOTIFY. DESIGN CHOICE (log entry 56): a notify write to a RING_CFG record of
the window is made at once after the signal, by NOTIFY_REISSUE, since the record may be that of the ring itself. -/
def Dev.ringSignal (d : Dev) (c : Nat) : Dev :=
  let d := d.setRing c fun r => { r with unsignalled := 0 }
  let r := d.ring c
  match nodePort (d.ringOwner c) with
  | some p => d.msix p r.vector
  | none =>
    if r.notify = 0 || 60 < r.notify % 64 then d
    else if r.notifiesCfg then d.setRing c fun r => { r with notifyAt := some (d.now, r.prod) }
    else d.notifyWrite c r.prod

/-- Count a record or entry written toward the next signal (R79). -/
def Dev.ringCount (d : Dev) (c : Nat) (noIrq : Bool) : Dev :=
  if noIrq then d
  else
    let d := d.setRing c fun r => { r with unsignalled := r.unsignalled + 1,
                                           unsigSince := if r.unsignalled = 0 then d.now else r.unsigSince }
    let r := d.ring c
    if r.coalCnt ≤ r.unsignalled || r.coalUs = 0 then d.ringSignal c else d

/-- Write 32 bytes into slot PROD of a ring of the device's (R77, R421). -/
def Dev.slotWrite (d : Dev) (c : Nat) (bs : List Byte) : Got × Dev :=
  let r := d.ring c
  let a := r.base + r.prod % r.slots * 32
  match nodePort (d.ringOwner c) with
  | some p => (.ok [], d.emit (.hostWrite p r.tag a bs))
  | none => d.lineWrite (some (d.ringOwner c)) a bs

/-- A record with PHASE of index `i` in bit 15 of SRC_RING (R77). -/
def phased (r : Ring) (i : Nat) (rec : List Byte) : List Byte :=
  overlay rec 2 (natBytes 2 (field rec 2 2 + (1 - i / r.slots % 2) * 2 ^ 15))

/-- Write the records that wait for their slots, in order; one answered RETRY stays, one that fails puts the ring into
FAULT and stays (R78). -/
def Dev.flushRecords (d : Dev) (c : Nat) : Nat → Dev
  | 0 => d
  | n + 1 =>
    let r := d.ring c
    match r.held with
    | [] => d
    | x :: rest =>
      if r.state ≠ rsActive && r.state ≠ rsDraining then d
      else
        match d.slotWrite c (if r.kind = 2 then x.bytes else phased r r.prod x.bytes) with
        | (.ok _, d) =>
          ((d.setRing c fun r => { r with held := rest, reserved := r.reserved - 1, last := some x,
                                          prod := (r.prod + 1) % 2 ^ 32 }).ringCount c x.noIrq).flushRecords c n
        | (.again _, d) => d
        | (.no _ _, d) => d.ringFault c 5

/-- Write whatever waits at a completion ring. -/
def Dev.flushRing (d : Dev) (c : Nat) : Dev := d.flushRecords c (d.ring c).held.length

/-- The bytes of a completion record, PHASE still 0 (Table 3.15). -/
def recordBytes (id ring st op det time progress result : Nat) : List Byte :=
  natBytes 2 id ++ natBytes 2 (ring % 1024) ++ natBytes 1 st ++ natBytes 1 op ++ natBytes 2 det ++ natBytes 8 time ++
  natBytes 4 progress ++ zeros 4 ++ natBytes 8 result

/-- Write what waits at every ring, once the homes that answered RETRY may take it (R78). -/
def Dev.flushRings (d : Dev) : Dev :=
  forEach ((d.host.rings.filter fun r => !r.2.held.isEmpty).map (·.1)) (fun c d => d.flushRing c) d

/-- The write of the record last written to a ring of a host has failed (R78): FAULT 0x05, and the record, with its slot, is held. -/
def Dev.recordLost (d : Dev) (c : Nat) : Dev :=
  let d := match (d.ring c).kind, (d.ring c).last with
    | 1, some x => d.setRing c fun r =>
        { r with held := x :: r.held, reserved := r.reserved + 1, prod := (r.prod + 2 ^ 32 - 1) % 2 ^ 32, last := none }
    | _, _ => d
  d.ringFault c 5

/-- Hand a record to its completion ring, whose slot is reserved. -/
def Dev.pushRecord (d : Dev) (c : Nat) (x : HeldRec) : Dev :=
  (d.setRing c fun r => { r with held := r.held ++ [x] }).flushRing c

/-- A started descriptor. -/
def Dev.startedAt (d : Dev) (ring idx : Nat) : Option Started := (d.ring ring).started.find? (·.idx == idx)

/-- An operation that has to wait gives its descriptor back: the command given again goes on with it. -/
def Dev.unclaim (d : Dev) (ring idx : Nat) : Dev :=
  d.setRing ring fun r => { r with started := r.started.map fun x => if x.idx = idx then { x with claimed := false } else x }

/-- Note how far a descriptor's operation has come. -/
def Dev.setDone (d : Dev) (ring idx n : Nat) (buf : List Byte) : Dev :=
  d.setRing ring fun r => { r with started := r.started.map fun x => if x.idx = idx then { x with done := n, buf := buf } else x }

/-- How far a descriptor's operation has come. -/
def Dev.doneOf (d : Dev) (ring idx : Nat) : Nat := ((d.startedAt ring idx).map (·.done)).getD 0

/-- The context a started descriptor keeps busy: that of an admitted JOB_RUN (R206). -/
def Started.busyCtx (s : Started) : Option Nat := if s.op = 0x20 && s.done ≠ 0 then some (dCtx s.bytes) else none

/-- Write the record of a started descriptor now (R77). -/
def Dev.recordNow (d : Dev) (ring idx st det result progress : Nat) : Dev :=
  match d.startedAt ring idx with
  | none => d
  | some s =>
    let d := d.setRing ring fun r => { r with started := r.started.filter (·.idx != idx) }
    d.pushRecord s.recRing
      { bytes := recordBytes (dId s.bytes) ring st s.op det d.now progress result, noIrq := dNoIrq s.bytes, ring := ring, idx := idx,
        ctx := s.busyCtx }

/-- The record of a descriptor is still to be written: it is started, or its record is held. -/
def Dev.recordOwed (d : Dev) (ring idx : Nat) : Bool :=
  (d.startedAt ring idx).isSome || d.host.rings.any fun r => r.2.held.any fun x => x.ring == ring && x.idx == idx

/-- Forget a started descriptor without a record: its reserved slot is free (R78, R196). -/
def Dev.forgetDesc (d : Dev) (ring idx : Nat) : Dev :=
  match d.startedAt ring idx with
  | none => d
  | some s =>
    (d.setRing ring fun r => { r with started := r.started.filter (·.idx != idx) }).setRing s.recRing fun r => { r with reserved := r.reserved - 1 }

/-- Complete a descriptor: its record is written once the partner has every replication record before it (R310). -/
def Dev.completeDesc (d : Dev) (ring idx st det result progress : Nat) : Dev :=
  match d.mir.unacked.getLast? with
  | none => d.recordNow ring idx st det result progress
  | some x =>
    let c : Completion := { ring := ring, idx := idx, st := st, det := det, result := result, progress := progress }
    { d with mir := { d.mir with unacked := d.mir.unacked.dropLast ++ [{ x with completes := x.completes ++ [c] }] } }

/-- The 16 bytes of a POOL_OP answer (R95). -/
def poolAnswer (result progress : Nat) : List Byte := natBytes 8 result ++ natBytes 4 progress ++ zeros 4

/-- Complete an operation for its caller: a record, or a POOL_OP answer (R95). -/
def Dev.complete (d : Dev) (c : Caller) (st det result progress : Nat) : Dev :=
  match c with
  | .desc ring idx => d.completeDesc ring idx st det result progress
  | .fab m =>
    d.reply 0 m st det (if st = stStaleBase then result else 0) (some (poolAnswer result progress))

/-- The requester of an operation. -/
def Dev.callerNode (d : Dev) (c : Caller) : Nat :=
  match c with
  | .desc ring _ => d.ringOwner ring
  | .fab m => m.src

/-- The 64 bytes of a caller's descriptor. -/
def Dev.callerBytes (d : Dev) (c : Caller) : List Byte :=
  match c with
  | .desc ring idx => ((d.startedAt ring idx).map (·.bytes)).getD []
  | .fab m => m.data

/-- The caller still waits for its completion. -/
def Dev.waits (d : Dev) (c : Caller) : Bool :=
  match c with
  | .desc ring idx => (d.startedAt ring idx).isSome
  | .fab _ => true

/-! ## Enabling and disabling (R72) -/

/-- The first failing check of Table 3.12, or 0. DESIGN CHOICE (log entry 56): the enabled completion ring of check 0x02 is one in ACTIVE. -/
def Dev.ringCheck (d : Dev) (n : Nat) : Nat :=
  let r := d.ring n
  let o := d.ringOwner n
  let poolOk := match nodePort o with
    | some _ => true
    | none =>
      let e := d.emtOf (r.base / 2 ^ 25)
      1 ≤ e.kind && e.kind ≤ 4 && (d.rightsCheck o (rightR + rightW) e).isNone
  if r.base % 4096 ≠ 0 || !poolOk then 1
  else if r.kind = 0 && !((d.ring r.defCpl).kind = 1 && (d.ring r.defCpl).state = rsActive && d.ringOwner r.defCpl = o) then 2
  else if !d.hasFeature o 0 || (r.kind = 2 && !d.hasFeature o 15) then 3
  else 0

/-- A write of ENABLE 1. DESIGN CHOICE (log entry 56): ENABLE then reads 1, also where the write has no other effect. -/
def Dev.ringOn (d : Dev) (n : Nat) : Dev :=
  let r := d.ring n
  if r.state = rsDisabled || (r.state = rsFault && r.kind = 1) then
    let code := d.ringCheck n
    let d := d.setRing n fun r => { r with enable := true }
    if code ≠ 0 then d.ringFault n code
    else
      (d.setRing n fun r => { r with state := rsActive, fault := 0, prod := 0, cons := 0, unsignalled := 0, notifyAt := none,
                                     ranges := [], samples := false, dropped := false }).flushRing n
  else d.setRing n fun r => { r with enable := true }

/-- A write of ENABLE 0. -/
def Dev.ringOff (d : Dev) (n : Nat) : Dev :=
  let r := d.ring n
  if r.state = rsActive then
    d.setRing n fun r => { r with enable := false, state := if r.kind = 2 then rsDisabled else rsDraining,
                                  held := if r.kind = 2 then [] else r.held }
  else if r.state = rsFault then
    if r.kind = 1 && (d.namedBy n || !r.held.isEmpty) then d
    else d.setRing n fun r => { r with enable := false, state := rsDisabled, fault := 0 }
  else d.setRing n fun r => { r with enable := false }

/-- A DRAINING ring has nothing left (R72). An ended session's submission ring whose DEF_CPL can take no record is done
too: its records are discarded (R78). -/
def Dev.drained (d : Dev) (n : Nat) : Bool :=
  let r := d.ring n
  r.state == rsDraining &&
  (if r.kind = 1 then !d.namedBy n && r.reserved == 0
   else
     (r.waiting.isNone && r.started.isEmpty && r.used == 0 && r.owed.isEmpty &&
       d.host.rings.all fun e => e.2.held.all fun h => h.ring != n || e.2.kind == 2) ||
     (d.host.ending.any (·.2.holds n) && r.started.isEmpty &&
       ((d.ring r.defCpl).state == rsDisabled || (d.ring r.defCpl).state == rsFault)))

/-- A ring of an ended session has done its part: DISABLED, its descriptors complete and their records written, but for records that
go to a ring in FAULT and are discarded with it (R78); or a completion ring in FAULT. -/
def Dev.ringEnded (d : Dev) (n : Nat) (r : Ring) : Bool :=
  let lost := (d.ring r.defCpl).state != rsActive && (d.ring r.defCpl).state != rsDraining
  (r.state == rsDisabled || (r.state == rsFault && r.kind == 1)) && r.started.isEmpty && (r.owed.isEmpty || lost) &&
  d.host.rings.all fun e => e.2.state == rsFault || e.2.held.all fun h => h.ring != n || e.2.kind == 2

/-- Ended sessions whose rings have all done their part give their rings back, which return to their reset values: DESIGN CHOICE (log
entry 56) for the fields of RING_CFG, of which R69 says nothing. -/
def Dev.reapSessions (d : Dev) : Dev :=
  let gone := d.host.ending.filter fun s => d.host.rings.all fun r => !s.2.holds r.1 || d.ringEnded r.1 r.2
  { d with host := { d.host with ending := d.host.ending.filter fun s => !gone.any (·.1 == s.1),
                                 rings := d.host.rings.filter fun r => !gone.any fun s => s.2.holds r.1 } }

/-! ## The configuration record (Table 3.10) -/

/-- RING_CTL as a number. -/
def Ring.ctl (r : Ring) : Nat :=
  r.pasid + r.kind * 2 ^ 20 + b2n r.pasidEn * 2 ^ 22 + r.sizeLog * 2 ^ 24 + b2n r.enable * 2 ^ 31

/-- The 64 bytes of a record as a read returns them. -/
def Dev.ringRecord (d : Dev) (n : Nat) : List Byte :=
  let r := d.ring n
  natBytes 8 r.base ++ natBytes 4 r.ctl ++ natBytes 4 r.defCpl ++
  natBytes 4 (r.vector + r.coalCnt * 2 ^ 12 + r.coalUs * 2 ^ 20) ++ natBytes 4 r.prod ++ natBytes 4 r.cons ++
  natBytes 4 (r.state + r.fault * 2 ^ 8 + d.ringOwner n * 2 ^ 20) ++ natBytes 8 r.notify ++ zeros 24

/-- Write bytes at an offset of a record: held fields only while DISABLED, RING_CTL's ENABLE last (R71). Clamps count for
the RING block (R15). -/
def Dev.ringWrite (d : Dev) (n off : Nat) (bs : List Byte) : Dev :=
  let new := overlay (d.ringRecord n) off bs
  let r := d.ring n
  let ctl := field new 8 4
  let size := bits ctl 24 5
  let kind := bits ctl 20 2
  let us := bits (field new 16 4) 20 10
  let hits := fun lo n => off < lo + n && lo < off + bs.length
  let free := r.state = rsDisabled
  let d := if free && hits 8 4 && clampN 4 16 size ≠ size then d.clamped 2 0 else d
  let d := if free && hits 8 4 && kind = 3 then d.clamped 2 0 else d
  let d := if hits 16 4 && 1000 < us then d.clamped 2 0 else d
  let d := d.setRing n fun r =>
    let r := if free then
        { r with base := field new 0 8, defCpl := field new 12 4 % 1024, sizeLog := clampN 4 16 size,
                 kind := if kind = 3 then 0 else kind, pasidEn := bit ctl 22, pasid := bits ctl 0 20 }
      else r
    { r with coalUs := min 1000 us, coalCnt := bits (field new 16 4) 12 8, vector := bits (field new 16 4) 0 8,
             notify := field new 32 8 }
  if hits 11 1 then if bit ctl 31 then d.ringOn n else d.ringOff n else d

/-- A write of `size` bytes at an offset of BAR2 from a management host, or of the doorbell pages of the window from a node (R74): only
four bytes at offset 0 of a page are a doorbell. -/
def Dev.doorbell (d : Dev) (who off size v : Nat) : Dev :=
  let port := (nodePort who).isSome
  if port && !d.portServes who then d
  else
    let d := d.wakeLatch (if port then 1 else 2)
    if !d.boot.ready || size ≠ 4 || off % 0x1000 ≠ 0 then d
    else if d.ringOwner (off / 0x1000) ≠ who then if port then d.bump 0x800A0 0 else d
    else d.ringDoorbell (off / 0x1000) v

/-! ## Fetching and starting (R76, R78) -/

/-- Descriptors start and are fetched: READY and in Run (R387, R388, R443). -/
def Dev.running (d : Dev) : Bool := d.boot.ready && d.pm.state == 1

/-- The ring's descriptors are fetched and started: a client's only by the unit that serves clients (R308). -/
def Dev.serves (d : Dev) (n : Nat) : Bool := d.running && ((nodePort (d.ringOwner n)).isSome || d.mir.role < 2)

/-- The record ring of a descriptor, and whether CPL_RING could not take it (R76). -/
def Dev.recordRing (d : Dev) (ring : Nat) (b : List Byte) : Nat × Bool :=
  let def_ := (d.ring ring).defCpl
  let c := dCplRing b
  let r := d.ring c
  if dDefCpl b then (def_, false)
  else if r.kind = 1 && d.ringOwner c = d.ringOwner ring && (r.state = rsActive || (r.state = rsDraining && c = def_)) then (c, false)
  else (def_, true)

/-- A completion ring has a free slot and is not in FAULT (R76). -/
def Dev.slotFor (d : Dev) (c : Nat) : Bool :=
  let r := d.ring c
  (r.state == rsActive || r.state == rsDraining) && r.used + r.reserved < r.slots

/-- Reserve a slot. -/
def Dev.reserveSlot (d : Dev) (c : Nat) : Dev := d.setRing c fun r => { r with reserved := r.reserved + 1 }

/-- TARGET_RING and TARGET_INDEX of an ABORT (Table 8.3). -/
def abortTarget (b : List Byte) : Nat × Nat := (field b 8 2 % 1024, field b 12 4)

/-- The waiting ABORTs that name a descriptor (R212). -/
def Dev.abortsOf (d : Dev) (ring idx : Nat) : List (Nat × Nat) :=
  d.jobs.abortWaits.filter fun a => abortTarget (d.callerBytes (.desc a.1 a.2)) == (ring, idx)

/-- Complete the waiting ABORTs that name a descriptor. -/
def Dev.endAborts (d : Dev) (ring idx st det : Nat) : Dev :=
  let l := d.abortsOf ring idx
  let d := { d with jobs := { d.jobs with abortWaits := d.jobs.abortWaits.filter fun a => !l.contains a } }
  forEach l (fun a d => d.completeDesc a.1 a.2 st det 0 0) d

/-- The ABORTs whose target's record has been written complete DONE (R213). -/
def Dev.settleAborts (d : Dev) : Dev :=
  forEach d.jobs.abortEnds (fun e d =>
    if d.recordOwed e.2.2.1 e.2.2.2 then d
    else ({ d with jobs := { d.jobs with abortEnds := d.jobs.abortEnds.filter (· != e) } } : Dev).completeDesc e.1 e.2.1 stDone 0 0 0) d

/-- An ABORT has won: it completes once the record of its target is written (R213). -/
def Dev.abortWon (d : Dev) (ring idx tring tidx : Nat) : Dev :=
  ({ d with jobs := { d.jobs with abortEnds := d.jobs.abortEnds ++ [(ring, idx, tring, tidx)] } } : Dev).settleAborts

/-- ABORT reaches a descriptor fetched and not started (R212): it completes ABORTED with detail 0x0001, once its completion ring has a
slot, and then the ABORTs that name it DONE. -/
def Dev.abortWaiting (d : Dev) (n : Nat) : Dev :=
  match (d.ring n).waiting with
  | none => d
  | some (i, b) =>
    let c := d.recordRing n b
    if !d.slotFor c.1 then d.setRing n fun r => { r with waitAborted := true }
    else
      let d := if knownOpcode (dOpcode b) || dOpcode b = 0 then d else d.clamped 2 0
      let s : Started := { idx := i, bytes := b, op := effOpcode b, recRing := c.1, claimed := true }
      let d := (d.setRing n fun r => { r with waiting := none, waitAborted := false, started := r.started ++ [s] }).reserveSlot c.1
      let l := d.abortsOf n i
      let d : Dev := { d with jobs := { d.jobs with abortWaits := d.jobs.abortWaits.filter (fun a => !l.contains a),
                                                    abortEnds := d.jobs.abortEnds ++ l.map fun a => (a.1, a.2, n, i) } }
      (d.completeDesc n i stAborted 1 0 0).settleAborts

/-- A descriptor cannot be read: FAULT 0x04; it and every later one published are owed a record (R78). -/
def Dev.fetchFailed (d : Dev) (n : Nat) : Dev :=
  let r := d.ring n
  let owed := (List.range r.used).map fun i =>
    ((r.cons + i) % 2 ^ 32 % r.slots, if i = 0 then stDeviceError else stAborted, if i = 0 then 0 else 2)
  let d := d.ringFault n 4
  let d := d.setRing n fun r => { r with owed := r.owed ++ owed, cons := r.prod }
  forEach (List.range r.used) (fun i d => d.endAborts n ((r.cons + i) % 2 ^ 32) stAlreadyDone 0) d

/-- A descriptor has been read: it waits to be started; an ABORT waiting for it learns whether it is one itself, and takes effect but on a
DRAINING ring, where R72 ends the descriptor first (R212). -/
def Dev.fetched (d : Dev) (n : Nat) (b : List Byte) : Dev :=
  let i := (d.ring n).cons
  let d := d.setRing n fun r => { r with waiting := some (i, slice b 0 64), cons := (r.cons + 1) % 2 ^ 32 }
  if dOpcode b = 0x21 then d.endAborts n i stDenied 0x37
  else if (d.ring n).state = rsActive && !(d.abortsOf n i).isEmpty then d.abortWaiting n
  else d

/-- Fetch the next descriptor of a ring: from host memory, whose answer is given, or from the pool as its owner. -/
def Dev.fetchDesc (d : Dev) (n : Nat) (host : Option (List Byte)) : Dev :=
  let r := d.ring n
  if !d.serves n || r.kind ≠ 0 || (r.state ≠ rsActive && r.state ≠ rsDraining) || r.waiting.isSome || r.used = 0 then d
  else
    match nodePort (d.ringOwner n) with
    | some _ =>
      match host with
      | some b => d.fetched n b
      | none => d.fetchFailed n
    | none =>
      match d.readRun (some (d.ringOwner n)) (r.base + r.cons % r.slots * 64) 64 with
      | (.ok b, d) => d.fetched n b
      | (.again _, d) => d
      | (.no _ _, d) => d.fetchFailed n

/-- Write one owed record, if DEF_CPL has a slot. -/
def Dev.payOwed (d : Dev) (n : Nat) : Dev :=
  let r := d.ring n
  match r.owed with
  | [] => d
  | (slot, st, det) :: rest =>
    if !d.slotFor r.defCpl then d
    else
      ((d.setRing n fun r => { r with owed := rest }).reserveSlot r.defCpl).pushRecord r.defCpl
        { bytes := recordBytes 0xFFFF n st 0 det d.now slot 0, ring := n, idx := 2 ^ 32 + slot }

/-- Start the fetched descriptor of a ring (R76): reserve its record, and perform it unless it is aborted, or its
CPL_RING could not take its record. A client ring's start is replicated (R309). DESIGN CHOICE (log entry 56): R76 chooses the record
ring after the fetch; while the descriptor waits, the model chooses it anew each time it tries to start, as a CPL_RING may be disabled
meanwhile. -/
def Dev.startDesc (d : Dev) (n : Nat) : Dev :=
  let r := d.ring n
  match r.waiting with
  | none => d.payOwed n
  | some (i, b) =>
    if r.waitAborted then d.abortWaiting n
    else if !d.serves n || (dFence b && !r.started.isEmpty) then d
    else
      let c := d.recordRing n b
      if !d.slotFor c.1 then d
      else
        let d := if knownOpcode (dOpcode b) || dOpcode b = 0 then d else d.clamped 2 0
        let s : Started := { idx := i, bytes := b, op := effOpcode b, recRing := c.1 }
        let d := (d.setRing n fun r => { r with waiting := none, started := r.started ++ [s] }).reserveSlot c.1
        let d := if s.op = 0x70 || s.op = 0x71 || s.op = 0x74 then { d with pm := { d.pm with queue := d.pm.queue ++ [(n, i)] } } else d
        if !(d.abortsOf n i).isEmpty then
          (d.completeDesc n i stAborted 1 0 0).endAborts n i stAlreadyDone 0
        else if r.state ≠ rsActive then d.completeDesc n i stAborted 1 0 0
        else if c.2 then d.completeDesc n i stDenied 0x10 0 0
        else if (nodePort (d.ringOwner n)).isNone then
          d.repStateEntry 2 (natBytes 2 n ++ natBytes 4 i ++ natBytes 2 (dId b) ++ natBytes 2 c.1 ++ natBytes 1 (effOpcode b)) (d.ringOwner n) 0
        else d

/-! ## Output writes (R480) -/

/-- The completion of an operation whose output has ended. -/
def OutJob.finish (o : OutJob) (d : Dev) (failed : Bool) : Dev :=
  let count := fun (unit v : Nat) => if unit = 0 then v else o.written / unit
  if failed then d.complete o.caller stDeviceError 1 (count o.resUnit o.result) (count o.unit o.progress)
  else d.complete o.caller o.st o.det o.result o.progress

/-- The ring tag (PASID) of a caller's host accesses. -/
def Dev.callerTag (d : Dev) (c : Caller) : Option Nat :=
  match c with
  | .desc ring _ => (d.ring ring).tag
  | .fab _ => none

/-- Write output, or go on writing it after a RETRY. DESIGN CHOICE (log entry 56): a write to a host is known to be taken when it comes to
its turn again (OUTPUT_WRITE_REISSUE, or time passing with no command waiting) before a completion timeout or error answer names it. -/
def Dev.outputGo (d : Dev) (o : OutJob) : Dev :=
  match nodePort (d.callerNode o.caller) with
  | some p =>
    if o.bytes.isEmpty || o.posted then o.finish d false
    else
      let d := d.emit (.hostWrite p (d.callerTag o.caller) o.addr o.bytes)
      { d with host := { d.host with outputs := d.host.outputs ++ [{ o with posted := true }] } }
  | none =>
    match d.writeBytes (some (d.callerNode o.caller)) (o.addr + o.written) (o.bytes.drop o.written) with
    | (_, .ok _, d) => o.finish d false
    | (k, .again h, d) =>
      let o' := { o with written := o.written + k, next := d.now + hintTicks h }
      { d with host := { d.host with outputs := d.host.outputs ++ [o'] } }
    | (k, .no _ _, d) => { o with written := o.written + k }.finish d true

/-- The output writes that hosts have taken end their operations. -/
def Dev.outputsTaken (d : Dev) : Dev :=
  let l := d.host.outputs.filter (·.posted)
  forEach l (fun o d => o.finish d false) { d with host := { d.host with outputs := d.host.outputs.filter (!·.posted) } }

/-- Write an operation's output and complete it. -/
def Dev.output (d : Dev) (c : Caller) (addr : Nat) (bs : List Byte) (st det result progress : Nat) (unit : Nat := 0)
    (resUnit : Nat := 0) : Dev :=
  d.outputGo { caller := c, addr := addr, bytes := bs, st := st, det := det, result := result, progress := progress,
               unit := unit, resUnit := resUnit, next := d.now }

end Sys2Proof.Machine
end

