-- ==== Sys2Proof/Machine/HostPort.lean ====
section
/-! DEFINITION. The commands of the upstream ports and rings (chapter 3): pool window, administration lease, negotiation,
rings, doorbells, descriptors, signals and the fabric device window. -/

namespace Sys2Proof.Machine

/-! ## Pool window (R63, R468) -/

/-- The message of a pool-window access: its XFER_IDX holds the time of its first issue. -/
def windowMsg (port addr len first : Nat) (data : Option (List Byte)) : Msg :=
  { cls := 0, opcode := if data.isSome then 3 else 1, src := portNode port, dst := 0xFFF, tag := 0x1000 + port,
    addr := addr, len := len - 1, xfer := first, data := data.getD [] }

/-- A pool-window access at its pool address (R308, R387, Table 3.4). -/
def Dev.windowIssue (d : Dev) (m : Msg) : Dev :=
  if d.mir.role = 2 || d.mir.role = 3 then d.refuse m stDenied 0
  else if d.asleep then d.retry m
  else d.accept m false

/-- A BAR4 access: ignored before READY (R443), unsupported without POOL_WINDOW or outside the pool space. -/
def Dev.windowAccess (d : Dev) (port off len : Nat) (data : Option (List Byte)) : Dev :=
  let base := d.fld (0xA80100 + port * 0x2000000) 0 18 * 2 ^ 30
  let m := windowMsg port (base + off) len d.now data
  if !d.boot.ready || !d.portUp port || (d.port port).barGib * 2 ^ 30 ≤ off || len = 0 then d
  else if !d.hasFeature (portNode port) 16 || spanBad m then d.windowEnd port data.isNone 0
  else d.windowIssue m

def execPoolWindowAccess (port off len : Nat) (data : Option (List Byte)) (s : State) :=
  liftDev (fun d => d.windowAccess port off len data) s

/-- The next access of a port that was answered RETRY goes again after its hint, or ends when RETRY_MS has passed. -/
def execPoolWindowReissue (port : Nat) (s : State) := liftDev (fun d =>
  match d.host.windowWaits.find? (·.port == port) with
  | none => d
  | some w =>
    let d := { d with host := { d.host with windowWaits := d.host.windowWaits.erase w } }
    let stop := w.first + msTicks (d.fld (0xA80100 + port * 0x2000000) 24 8)
    let m := windowMsg port w.addr w.len w.first w.data
    if stop < w.nextTry then (d.till stop).windowEnd port w.data.isNone 1
    else (d.till w.nextTry).windowIssue m) s

/-! ## Administration lease (R64) -/

/-- Change the lease. -/
def Dev.setLease (d : Dev) (l : LeaseSt) : Dev := { d with host := { d.host with lease := l } }

/-- The lease ends: free, with notices (R64 rules 3, 6). -/
def Dev.leaseEnd (d : Dev) : Dev :=
  (d.setLease { holder := 0, expiry := 0, lastAccepted := d.host.lease.lastAccepted }).msixBoth

def Dev.leaseAcquire (d : Dev) (p : Nat) : Dev :=
  if d.leaseHolder ≠ 0 then d
  else (d.setLease { holder := p + 1, expiry := d.now + msTicks 5000, lastAccepted := d.now }).msixBoth

def Dev.leaseRenew (d : Dev) (p : Nat) : Dev :=
  if d.leaseHolder ≠ p + 1 || d.now < d.host.lease.lastAccepted + msTicks 1000 then d
  else d.setLease { d.host.lease with expiry := d.now + msTicks 5000, lastAccepted := d.now }

def Dev.leaseRelease (d : Dev) (p : Nat) : Dev := if d.leaseHolder ≠ p + 1 then d else d.leaseEnd

/-- A BAR0 write to a register that needs the administration lease (R62), by a port or by a control core (0): refused before
READY outside the DEV block (R443), served in Run and in Bank, where it wakes the device (R388), and not in Ember. -/
def Dev.leasedWrite (d : Dev) (who : Nat) (devBlock : Bool) (f : Dev → Dev) : Dev :=
  if who = 0 then f d
  else if !d.portServes who then d
  else if !d.boot.ready && !devBlock then d.badAccess
  else if !d.hasLease who then (d.wakeLatch 1).badAccess
  else f (d.wakeLatch 1)

/-- A command of a register that needs no lease (RING_LEASE, RING_NEG_CTL), from a port whose writes are taken (R62, R388, R443). -/
def Dev.leaseCmd (d : Dev) (port : Nat) (f : Dev → Dev) : Dev :=
  if !d.portServes (portNode port) then d else if !d.boot.ready then d.badAccess else f (d.wakeLatch 1)

def execAcquire (port : Nat) (s : State) := liftDev (fun d => d.leaseCmd port (·.leaseAcquire port)) s
def execRenew (port : Nat) (s : State) := liftDev (fun d => d.leaseCmd port (·.leaseRenew port)) s
def execRelease (port : Nat) (s : State) := liftDev (fun d => d.leaseCmd port (·.leaseRelease port)) s
def execLeaseExpiry (s : State) := liftDev (fun d =>
  if d.host.lease.holder = 0 then d else (d.till d.host.lease.expiry).leaseEnd) s

/-! ## Negotiation (R65 to R67) -/

/-- The features offered to a management host and to a fabric client (Table 3.6). -/
def hostFeatures : Nat := 0xFFFF3
def clientFeatures : Nat := 0xAE2FF

/-- A root port works: a flue die is there. -/
def Dev.rootPorts (d : Dev) : Bool := d.boot.flueOff.length < 2

/-- The features withheld at this moment (Table 3.6). -/
def Dev.withheld (d : Dev) (f : Fuses) (ats : Bool) (b : Nat) : Bool :=
  if b = 4 || b = 19 then f.knitDisabled
  else if b = 7 || b = 18 then !d.rootPorts
  else if b = 8 then (List.range 24).all fun l => d.fld (0x400000 + 0x10000 * l) 28 2 != 2
  else if b = 9 then d.sec.state == 0 || d.sec.state == 5
  else if b = 10 then !ats
  else false

/-- The accepted set: wanted and offered, and not withheld. -/
def Dev.acceptSet (d : Dev) (f : Fuses) (ats : Bool) (wanted offered : Nat) : Nat :=
  (List.range 20).foldl (fun v b => if bit wanted b && bit offered b && !d.withheld f ats b then v + 2 ^ b else v) 0

/-- NEGOTIATE on a port (R67). -/
def Dev.negotiate (d : Dev) (f : Fuses) (p : Nat) : Dev :=
  let used := d.host.rings.any fun r => r.2.state != rsDisabled && d.ringOwner r.1 == portNode p
  let acc := d.acceptSet f (d.port p).atsEnabled (d.reg (0x80020 + p * 0x2000000)) hostFeatures
  let d := if used then d.setPort p fun s => { s with negStatus := 3 }
    else if !bit acc 0 then d.setPort p fun s => { s with negStatus := 2, accepted := 0 }
    else d.setPort p fun s => { s with negStatus := 1, accepted := acc }
  d.msix p 0

def execNegotiate (port : Nat) (s : State) := liftRead (fun f d => d.leaseCmd port (·.negotiate f port)) s

/-! ## Rings (R70 to R79) -/

/-- RING_PART takes effect when no ring whose owner it changes is in use or held by a session (R70). -/
def execRingPartApply (s : State) := liftDev (fun d =>
  let v := d.reg 0x80090
  let n0 := bits v 0 10
  let n1 := bits v 16 10
  let owner := fun n => if n < n0 then 0xFF0 else if n < n0 + n1 then 0xFF1 else 0
  let now0 := fun n => if n < d.host.up0Count then 0xFF0 else if n < d.host.up0Count + d.host.up1Count then 0xFF1 else 0
  let inUse := d.host.rings.any fun r => r.2.state != rsDisabled && owner r.1 != now0 r.1
  let held := (d.host.sessions ++ d.host.ending).any fun s => s.2.first < n0 + n1
  if inUse || held then d else { d with host := { d.host with up0Count := n0, up1Count := n1 } }) s

/-- A write of ENABLE from a node: only the owner's is taken (R62, R71). -/
def Dev.enableWrite (d : Dev) (who ring : Nat) (f : Dev → Dev) : Dev :=
  let port := (nodePort who).isSome
  if port && !d.portServes who then d
  else if port && !d.boot.ready then d.badAccess
  else if d.ringOwner ring ≠ who || 1024 ≤ ring then if port then d.badAccess else d
  else f (d.wakeLatch (if port then 1 else 2))

def execRingEnable (who ring : Nat) (s : State) := liftDev (fun d => d.enableWrite who ring (·.ringOn ring)) s
def execRingDisable (who ring : Nat) (s : State) := liftDev (fun d => d.enableWrite who ring (·.ringOff ring)) s

def execRingDrainDone (ring : Nat) (s : State) := liftDev (fun d =>
  if d.drained ring then
    (d.setRing ring fun r => { r with state := rsDisabled, fault := 0, waiting := none, waitAborted := false, owed := [],
                                      cons := if r.kind = 0 then r.prod else r.cons }).reapSessions
  else d.reapSessions) s

def execDoorbell (who off size value : Nat) (s : State) := liftDev (fun d => d.doorbell who off size value) s

def execDescriptorFetch (ring : Nat) (bytes : Option (List Byte)) (s : State) := liftDev (fun d => d.fetchDesc ring bytes) s

def execDescriptorStart (ring : Nat) (s : State) := liftDev (fun d => d.startDesc ring) s

def execCoalesceTimeout (ring : Nat) (s : State) := liftDev (fun d =>
  let r := d.ring ring
  if r.unsignalled = 0 then d else (d.till (r.unsigSince + usTicks r.coalUs)).ringSignal ring) s

def execNotifyReissue (ring : Nat) (s : State) := liftDev (fun d =>
  match (d.ring ring).notifyAt with
  | some (t, prod) =>
    let r := d.ring ring
    let d := (d.till t).setRing ring fun r => { r with notifyAt := none }
    if !r.notifiesCfg then d.notifyWrite ring prod
    else if d.ringOwner ((r.notify - 0xFFFFF0400000) / 0x40) ≠ d.ringOwner ring then d
    else d.ringWrite ((r.notify - 0xFFFFF0400000) / 0x40) (r.notify % 0x40) (natBytes 4 prod)
  | none => d) s

/-- Perform the operation of a started descriptor with this opcode, once. -/
def Dev.withDesc (d : Dev) (ring idx op : Nat) (f : List Byte → Dev → Dev) : Dev :=
  match d.startedAt ring idx with
  | none => d
  | some s =>
    if s.op ≠ op || s.claimed then d
    else
      f s.bytes (d.setRing ring fun r =>
        { r with started := r.started.map fun x => if x.idx = idx then { x with claimed := true } else x })

def execNop (ring idx : Nat) (s : State) := liftDev (fun d =>
  d.withDesc ring idx 0 fun _ d => d.completeDesc ring idx stDone 0 0 0) s

/-- An output write answered RETRY goes again (R480). A ring number from 1,024 on stands for the POOL_OP of node
`ring` − 1,024 with tag `idx`. -/
def execOutputWriteReissue (ring idx : Nat) (s : State) := liftDev (fun d =>
  let hit := fun (c : Caller) => match c with
    | .desc r i => r == ring && i == idx
    | .fab m => m.src + 1024 == ring && m.tag == idx
  match d.host.outputs.find? (fun o => hit o.caller) with
  | none => d
  | some o => (({ d with host := { d.host with outputs := d.host.outputs.erase o } }).till o.next).outputGo o) s

/-! ## The fabric device window (R71, R74, R482) -/

/-- A READ or WRITE whose bytes lie in the device window. -/
def Dev.windowServe (d : Dev) (m : Msg) : Dev :=
  let n := d.mir.unacked.length
  let off := m.addr - 0xFFFFF0000000
  let len := m.len + 1
  if 64 < m.addr % 64 + len then d.deny m 0x21
  else if 0x410000 ≤ off then d.deny m 0x24
  else
    let ring := if off < 0x400000 then off / 0x1000 else (off - 0x400000) / 0x40
    if d.ringOwner ring ≠ m.src then d.deny m 0
    else if off < 0x400000 then
      if m.opcode = 1 then d.finishData n m 0 (zeros len)
      else if off % 0x1000 = 0 && len = 4 then
        ((d.ringDoorbell ring (field m.data 0 4)).repWriteRun m.addr (slice m.data 0 4) m.src m.tag).finish n m stDone
      else d.finish n m stDone
    else if m.opcode = 1 then d.finishData n m 0 (slice (d.ringRecord ring) (off % 0x40) len)
    else
      let d := d.ringWrite ring (off % 0x40) (slice m.data 0 len)
      (d.repAdminOp (d.ringRecord ring) (natBytes 4 ring ++ zeros 8 ++ natBytes 4 1) [] m.src m.tag).finish n m stDone

def execWindowAccess (m : Msg) (s : State) := liftDev (fun d =>
  if (m.opcode ≠ 1 && m.opcode ≠ 3) || m.addr < 0xFFFFF0000000 then d
  else d.arrive m fun d => d.windowServe m) s

/-! ## MSI-X (R429) -/

/-- A vector is unmasked: a pending message is sent. -/
def Dev.msixUnmask (d : Dev) (p v : Nat) : Dev :=
  let s := d.port p
  let d := d.setPort p fun s => { s with unmasked := nadd s.unmasked v, pendingBits := ndel s.pendingBits v }
  if nmem s.pendingBits v && s.msixEnabled then d.emit (.msix p v) else d

def execMsixUnmask (port vector : Nat) (s : State) := liftDev (fun d =>
  if d.portServes (portNode port) then d.msixUnmask port vector else d) s

end Sys2Proof.Machine
end

