-- ==== Sys2Proof/Machine/Fabric.lean ====
section
/-! DEFINITION. Requests of fabric clients (chapter 4): reads, writes, transfers, atomics, ECHO, reserved opcodes, and the
timers of the transaction layer. -/

namespace Sys2Proof.Machine

/-- The bytes of a request cross a line (Table 4.4, 0x0021). -/
def crosses (m : Msg) : Bool := 64 < m.addr % 64 + m.len + 1

/-- READ and WRITE: one line, in the device window or in the pool (R91, R482). -/
def Dev.lineRequest (d : Dev) (m : Msg) : Dev :=
  if crosses m then d.deny m 0x21
  else if inWindow m.addr then d.windowServe m
  else if spanBad m then d.deny m 0x24
  else d.accept m false

/-- The member mask of a multicast copy goes before its data (R298). -/
def unmasked (m : Msg) : Msg := if m.mc then { m with data := m.data.drop 8 } else m

/-- A message of a write transfer (R98). -/
def Dev.bulkWrite (d : Dev) (m : Msg) : Dev :=
  if (tget d.fab.xfers (xferKey m)).isNone && 16384 ≤ d.fab.xfers.length then
    let oldest := d.fab.xfers.foldl (fun t e => min t e.2.time) d.now
    d.refuse m stRetry (hintUnits (oldest + usTicks (d.fld 0x180104 24 8) - d.now))
  else
    let d := d.xferArrives m
    if m.addr % 64 ≠ 0 then d.deny m 0x20
    else if (m.len + 1) % 64 ≠ 0 || (!m.last && m.len ≠ 255) then d.deny m 0x22
    else if spanBad m then d.deny m 0x24
    else d.accept m false

/-- Operand size of an atomic, and whether LEN fits it (Table 4.5). -/
def atomicSize (m : Msg) : Nat := if m.opcode = 0x0D then (m.len + 1) / 2 else m.len + 1
def atomicLenOk (m : Msg) : Bool :=
  if m.opcode = 0x0F then m.len == 3 else if m.opcode = 0x0D then m.len == 7 || m.len == 15 else m.len == 3 || m.len == 7

/-- An atomic (R93). -/
def Dev.atomic (d : Dev) (m : Msg) : Dev :=
  if !atomicLenOk m then d.deny m 0x22
  else if m.addr % atomicSize m ≠ 0 then d.deny m 0x20
  else if spanBad m then d.deny m 0x24
  else d.accept m false

/-- Message `i` of the answer to a READ_BULK of `n` bytes, as a read of its lines (R97). -/
def bulkPart (m : Msg) (n i : Nat) : Msg :=
  { m with addr := m.addr + 256 * i, len := min 256 (n - 256 * i) - 1, xfer := i, last := (n + 255) / 256 == i + 1, data := [] }

/-- READ_BULK (R91, R97). -/
def Dev.bulkRead (d : Dev) (m : Msg) : Dev :=
  let want := field m.data 0 4
  let n := clampGrain 64 64 262144 want
  if m.addr % 64 ≠ 0 then d.deny m 0x20
  else if m.len ≠ 3 then d.deny m 0x22
  else
    let d := if n = want then d else d.clamped 4 0
    if 0xFFFFF0000000 < m.addr + n then d.deny m 0x24
    else forEach (List.range ((n + 255) / 256)) (fun i d => d.accept (bulkPart m n i) false) d

/-- What an ordered request is served by, once its turn has come (R101). -/
def Dev.orderedBody (d : Dev) (m : Msg) : Dev :=
  if m.opcode = 4 then d.bulkWrite m else if isAtomic m.opcode then d.atomic m else d.lineRequest m

/-- A request of one opcode. -/
def Dev.opRequest (d : Dev) (op : Nat) (m : Msg) : Dev :=
  if m.opcode ≠ op then d else d.arrive m fun d => d.orderedBody m

def execRead (m : Msg) (s : State) := liftDev (fun d => d.opRequest 1 m) s
def execReadBulk (m : Msg) (s : State) := liftDev (fun d =>
  if m.opcode ≠ 2 then d else d.arrive m fun d => d.bulkRead m) s
def execWrite (m : Msg) (s : State) := liftDev (fun d => d.opRequest 3 (unmasked m)) s
def execWriteBulk (m : Msg) (s : State) := liftDev (fun d => d.opRequest 4 m) s
def execFetchAdd (m : Msg) (s : State) := liftDev (fun d => d.opRequest 0x08 m) s
def execFetchAnd (m : Msg) (s : State) := liftDev (fun d => d.opRequest 0x09 m) s
def execFetchOr (m : Msg) (s : State) := liftDev (fun d => d.opRequest 0x0A m) s
def execFetchXor (m : Msg) (s : State) := liftDev (fun d => d.opRequest 0x0B m) s
def execSwap (m : Msg) (s : State) := liftDev (fun d => d.opRequest 0x0C m) s
def execCas (m : Msg) (s : State) := liftDev (fun d => d.opRequest 0x0D m) s
def execFetchUmax (m : Msg) (s : State) := liftDev (fun d => d.opRequest 0x0E m) s
def execFadd32 (m : Msg) (s : State) := liftDev (fun d => d.opRequest 0x0F m) s

/-- ECHO: the payload unchanged (R91). -/
def execEcho (m : Msg) (s : State) := liftDev (fun d =>
  if m.opcode ≠ 0xF0 then d
  else d.arrive m fun d => d.finishData d.mir.unacked.length m 0 (slice m.data 0 m.data.length)) s

/-- A snoop with a reserved code reaches the device: UNSUPPORTED, 0xFFFF (R119). -/
def Dev.reservedSnoop (d : Dev) (m : Msg) : Dev :=
  if m.dst ≠ d.ownNode || (1 ≤ m.opcode && m.opcode ≤ 5) then d
  else (d.taken m).sendMsg { d.rspTo m stUnsupported 0xFFFF 0 with last := true }

/-- A request with a reserved opcode: UNSUPPORTED, 0xFFFF (R90); a snoop with one likewise. -/
def execReservedOpcode (m : Msg) (s : State) := liftDev (fun d =>
  if m.cls = 1 then d.reservedSnoop m
  else if knownRequest m.opcode then d else d.arrive m id) s

/-- The lowest index below 1,024 that has not arrived. -/
def Xfer.missing (x : Xfer) : Nat :=
  ((List.range 1024).find? fun i => !nmem x.received i && !nmem x.serving i).getD 1023

/-- Every index has arrived: what is left is the homes' part. -/
def Xfer.arrived (x : Xfer) : Bool :=
  match x.last with
  | some l => (List.range (l + 1)).all fun i => nmem x.received i || nmem x.serving i
  | none => false

/-- A write transfer has waited XFER_HOLD_US since its last message with an index missing (R98). -/
def execXferHoldTimeout (src tag : Nat) (s : State) := liftDev (fun d =>
  match tget d.fab.xfers (src * 4096 + tag) with
  | none => d
  | some x =>
    if x.arrived then d
    else
      let d := d.till (x.time + usTicks (d.fld 0x180104 24 8))
      let d := { d with fab := { d.fab with xfers := tdel d.fab.xfers (src * 4096 + tag) } }
      d.reply d.mir.unacked.length { x.first with xfer := 0 } stTimeout x.missing 0 none) s

/-- The hold of a dedup record has ended (R104). -/
def execDedupHoldExpiry (home src tag : Nat) (s : State) := liftDev (fun d =>
  let k := dedupKey home src tag
  match tget d.fab.dedup k with
  | none => d
  | some r =>
    if r.answer.isNone then d
    else let d := d.till r.expiry; { d with fab := { d.fab with dedup := tdel d.fab.dedup k } }) s

/-- The next held ordered request of a stream is admitted, once every earlier one has been; one that comes after a request answered
RETRY is answered RETRY with its hint (R101). -/
def Dev.admitOrdered (d : Dev) (key : Nat) : Dev :=
  let o := tgetD d.fab.ordered key {}
  match o.held with
  | [] => d
  | m :: rest =>
    if d.pool.parked.any fun p => orderedMsg p.2 && ordKey p.2 == key then d
    else
      let d := { d with fab := { d.fab with ordered := tput d.fab.ordered key { o with held := rest, before := o.before - 1 } } }
      if o.retried.isSome && o.before = 0 then d.turnAway m stRetry 0 0 else d.deduped m fun d => d.orderedBody m

def execOrderedAdmission (src tc : Nat) (s : State) := liftDev (fun d => d.admitOrdered (src * 8 + tc)) s

end Sys2Proof.Machine
end

