-- ==== Sys2Proof/Machine/KnitBase.lean ====
section
/-! DEFINITION. The Knit array and its jobs as other chapters meet them: stitches, panels, stream ports (R134, R140,
R160), events of the Knit range (R168), stopping a job (R209, R210) with the release of what it holds (R208), and the
checks of a segment (R198). -/

namespace Sys2Proof.Machine

/-! ## Parts of the array -/

/-- A stitch by array index 512p + 64c + k (R134). -/
def Dev.stitch (d : Dev) (k : Nat) : Stitch := tgetD d.knit.stitches k {}

/-- Change a stitch. -/
def Dev.setStitch (d : Dev) (k : Nat) (f : Stitch → Stitch) : Dev :=
  { d with knit := { d.knit with stitches := tput d.knit.stitches k (f (d.stitch k)) } }

/-- A panel. -/
def Dev.panel (d : Dev) (p : Nat) : Panel := tgetD d.knit.panels p {}

/-- Change a panel. -/
def Dev.setPanel (d : Dev) (p : Nat) (f : Panel → Panel) : Dev :=
  { d with knit := { d.knit with panels := tput d.knit.panels p (f (d.panel p)) } }

/-- A stream port. -/
def Dev.sport (d : Dev) (n : Nat) : StreamPort := tgetD d.knit.ports n {}

/-- Change a stream port. -/
def Dev.setSport (d : Dev) (n : Nat) (f : StreamPort → StreamPort) : Dev :=
  { d with knit := { d.knit with ports := tput d.knit.ports n (f (d.sport n)) } }

/-- Panel states (Table 6.10). -/
abbrev psOff : Nat := 0
abbrev psIdle : Nat := 1
abbrev psLoading : Nat := 2
abbrev psRunning : Nat := 3
abbrev psDraining : Nat := 4
abbrev psRetired : Nat := 5

/-! ## Jobs -/

/-- A job by its ID. -/
def Dev.job (d : Dev) (id : Nat) : Option Job := tget d.jobs.jobs id

/-- Change a job. -/
def Dev.setJob (d : Dev) (id : Nat) (f : Job → Job) : Dev :=
  { d with jobs := { d.jobs with jobs := tmod d.jobs.jobs id f } }

/-- A handshake of a job has completed (R139). -/
def Dev.progress (d : Dev) (id : Nat) : Dev := d.setJob id fun j => { j with progressAt := d.now }

/-- The job whose panel holds a stitch. -/
def Dev.jobOfPanel (d : Dev) (p : Nat) : Option (Nat × Job) :=
  match (d.panel p).job with
  | none => none
  | some id => (d.job id).map fun j => (id, j)

/-- The job-relative array index of a stitch (R134). -/
def Job.rel (j : Job) (k : Nat) : Nat := j.mask.idxOf (k / 512) * 512 + k % 512

/-- The stream ports of a job: 16s + p for its panels (R140). -/
def Job.ports (j : Job) : List Nat := ((List.range 6).map fun s => j.mask.map fun p => 16 * s + p).flatten

/-- The physical panel mask. -/
def Job.maskBits (j : Job) : Nat := j.mask.foldl (fun v p => v + 2 ^ p) 0

/-- The lines a job's stream ports have written (R211). -/
def Dev.jobLines (d : Dev) (j : Job) : Nat :=
  min 0xFFFFFFFF ((j.ports.map fun n => (d.sport n).written).foldl (· + ·) 0)

/-- An event of the Knit range about a job: ORIGIN its owner, CODE its ID (R211), ARG0 laid out as in R433 (log
entry 17). -/
def Dev.logKnit (d : Dev) (id : Nat) (j : Job) (status arg0 arg1 : Nat) : Dev :=
  let a := d.draw
  a.2.log (0x0400 + a.1 % 0xF0) (origin := j.owner) (code := id) (status := status) (arg0 := arg0) (arg1 := arg1)

/-- Every stitch of a panel that runs halts (R210). -/
def Dev.haltPanel (d : Dev) (p : Nat) : Dev :=
  { d with knit := { d.knit with stitches := d.knit.stitches.map fun e =>
      if e.1 / 512 = p && (e.2.run == .running || e.2.run == .blocked) then (e.1, { e.2 with run := .halted }) else e } }

/-- Lines a port is still to read or write. -/
def StreamPort.lines (q : StreamPort) : List Nat := (q.reads ++ q.writes).map (·.addr / 64)

/-- The ports of a panel stop: nothing more is issued or awaited, lines still in write buffers are discarded (R210). -/
def Dev.stopPorts (d : Dev) (p : Nat) : Dev :=
  let gone := ((List.range 6).map fun s => (d.sport (16 * s + p)).lines).flatten
  let d := ({ d with coh := { d.coh with portWaits := d.coh.portWaits.filter fun l => !nmem gone l } } : Dev).forget gone
  forEach (List.range 6) (fun s d => d.setSport (16 * s + p) fun q => { q with list := [], reads := [], writes := [], level := 0 }) d

/-- A panel leaves RUNNING for DRAINING (R160). -/
def Dev.drainPanel (d : Dev) (p : Nat) : Dev :=
  ((d.haltPanel p).stopPorts p).setPanel p fun q => { q with state := psDraining, owner := 0, job := none }

/-- A job is over: its panels drain, or, when it loaded nothing, are IDLE at once (R206); its frames are released
(R208). -/
def Dev.endJob (d : Dev) (id : Nat) (j : Job) : Dev :=
  let d := forEach j.mask (fun p d => d.drainPanel p) d
  let d := forEach j.frames (fun e d => d.releaseFrame e.2) d
  let d := (if bit j.flags 1 then d else d.forgetRun j.imageAddr j.imageLen).forgetRun j.argAddr j.argLen
  { d with jobs := { d.jobs with jobs := tdel d.jobs.jobs id, queue := ndel d.jobs.queue id } }

/-- End a job with its record; PROGRESS counts the lines that landed (R210, R211). -/
def Dev.jobEnd (d : Dev) (id st det result : Nat) : Dev :=
  match d.job id with
  | none => d
  | some j => (d.endJob id j).completeDesc j.ring j.idx st det result (d.jobLines j)

/-- End a job without a record (R196). -/
def Dev.jobDrop (d : Dev) (id : Nat) : Dev :=
  match d.job id with
  | none => d
  | some j => (d.endJob id j).forgetDesc j.ring j.idx

/-- RESULT with the job ID in [63:48]. -/
def idResult (id : Nat) : Nat := id * 2 ^ 48

/-! ## Segments (R197, R198) -/

/-- Steps 6 and 7 of Table 8.2 for one extent. A PIN extent admits RIGHTS of R alone. -/
def Dev.segExtent (d : Dev) (owner rights ext : Nat) : Option (Nat × Nat) :=
  let e := d.emtOf ext
  match d.grantOf owner e.handle with
  | none => some (stDenied, 0)
  | some g =>
    if !rightsOk g.rights (Nat.lor rights rightX) || (e.kind = 4 && Nat.land rights 30 ≠ 0) then some (stDenied, 0)
    else if !d.grantAdmits g owner e.handle e.index then some (stRevoked, 0)
    else d.viewCheck owner ext e

/-- The extents of a pool range. -/
def extentsOf (base len : Nat) : List Nat := (List.range ((base + len - 1) / 2 ^ 25 + 1 - base / 2 ^ 25)).map (base / 2 ^ 25 + ·)

/-- Steps 6 and 7 of Table 8.2: the status and detail of the first failure. -/
def Dev.segCheck (d : Dev) (owner : Nat) (s : Segment) : Option (Nat × Nat) :=
  let es := extentsOf s.poolBase s.length
  let h := (d.emtOf (s.poolBase / 2 ^ 25)).handle
  if !(es.all fun x => let e := d.emtOf x; (e.kind == 1 || e.kind == 4) && e.handle == h) then some (stDenied, 0x33)
  else es.findSome? (d.segExtent owner s.rights)

/-- A context. -/
def Dev.ctx (d : Dev) (c : Nat) : Option Context := tget d.jobs.contexts c

/-- The first segment of a running job's context whose rights are gone: its slot (R209). -/
def Dev.jobLost (d : Dev) (j : Job) : Option Nat :=
  match d.ctx j.ctx with
  | none => none
  | some c => (c.slots.find? fun e => ((extentsOf e.2.poolBase e.2.length).findSome? (d.segExtent j.owner e.2.rights)).isSome).map (·.1)

/-- Running jobs that have lost a right end REVOKED (R209). -/
def Dev.recheckJobs (d : Dev) : Dev :=
  forEach (d.jobs.jobs.filter (·.2.stage == 2)) (fun e d =>
    match d.jobLost e.2 with
    | some slot => d.jobEnd e.1 stRevoked slot (idResult e.1)
    | none => d) d

/-- An extent is mapped by a private segment of a running job (R144). -/
def Dev.jobHolds (d : Dev) (ext : Nat) : Bool := d.jobs.jobs.any fun e => e.2.frames.any (·.1 == ext)

/-- A context is busy (R196): a job that names it is admitted, or the record of one is still to be written (R206). -/
def Dev.ctxBusy (d : Dev) (c : Nat) : Bool :=
  let own := fun n => (d.ctx c).map (·.owner) == some (d.ringOwner n)
  d.jobs.jobs.any (·.2.ctx == c) ||
  d.host.rings.any fun r => (own r.1 && r.2.started.any fun s => s.busyCtx == some c) || r.2.held.any fun x => x.ctx == some c && own x.ring

/-- Whether a line lies in a pool range of a valid private segment of any context (R132). -/
def Dev.privateRanges (d : Dev) : List (Nat × Nat) :=
  (d.jobs.contexts.map fun c => (c.2.slots.filter (·.2.attr == 1)).map fun e =>
    (e.2.poolBase / 64, (e.2.poolBase + e.2.length) / 64 - 1)).flatten

/-- Take the ranges of the valid private segments into force. -/
def Dev.setPrivates (d : Dev) : Dev := { d with coh := { d.coh with privates := d.privateRanges } }

/-- A requester leaves: its jobs stop without records and its contexts are destroyed (R196). -/
def Dev.dropOwner (d : Dev) (node : Nat) : Dev :=
  let d := forEach ((d.jobs.jobs.filter (·.2.owner == node)).map (·.1)) (fun id d => d.jobDrop id) d
  ({ d with jobs := { d.jobs with contexts := d.jobs.contexts.filter (·.2.owner != node) } }).setPrivates

end Sys2Proof.Machine
end

