-- ==== Sys2Proof/Machine/Placement.lean ====
section
/-! DEFINITION. Where pool operations place what they make: free extent ranges (R45), far slots (R260), the frames kept for
skeins (R35), bind-off of freed frames and slots (R373), and the EMT entry as 16 bytes (R36). -/

namespace Sys2Proof.Machine

/-! ## Extent ranges -/

/-- The lowest range of `n` free numbers from `lo` on below `limit`, given the used ones in rising order. -/
def lowGap (n limit lo : Nat) : List Nat → Option Nat
  | [] => if lo + n ≤ limit then some lo else none
  | k :: r => if lo + n ≤ k then some lo else lowGap n limit (k + 1) r

/-- The highest range of `n` free numbers below `hi`, given the used ones in falling order. -/
def highGap (n hi : Nat) : List Nat → Option Nat
  | [] => if n ≤ hi then some (hi - n) else none
  | k :: r => if k + 1 + n ≤ hi then some (hi - n) else highGap n k r

/-- A free range of `n` contiguous extent numbers, by POOL_CTL.PLACEMENT (R45). -/
def Dev.freeRange (d : Dev) (n : Nat) : Option Nat :=
  let used := d.pool.emt.map (·.1)
  if d.fld 0x100000 1 3 = 1 then highGap n 0x7FFFF8 used.reverse else lowGap n 0x7FFFF8 0 used

/-- List entries under consecutive extent numbers. -/
def Dev.addEmts (d : Dev) (base : Nat) : List Emt → Dev
  | [] => d
  | e :: r => { d with pool := { d.pool with emt := tput d.pool.emt base e } }.addEmts (base + 1) r

/-- Remove the entries of a range. -/
def Dev.delEmts (d : Dev) (base n : Nat) : Dev :=
  { d with pool := { d.pool with emt := d.pool.emt.filter fun e => e.1 < base || base + n ≤ e.1 } }

/-- The 16 bytes of an EMT entry (Table 2.2). -/
def emtBytes (e : Emt) : List Byte :=
  natBytes 8 (e.kind * 2 ^ 61 + b2n e.fence * 2 ^ 60 + b2n e.mod * 2 ^ 59 + b2n e.repl * 2 ^ 58 + e.handle * 2 ^ 36 +
    e.index * 2 ^ 16 + e.frame) ++
  natBytes 8 (e.egen * 2 ^ 32 + e.drive * 2 ^ 27 + e.drive2 * 2 ^ 22 + e.slot * 2 ^ 3)

/-! ## Far slots (R260) -/

/-- The slots of a drive in use, promised to a copy, or not yet deallocated. -/
def Dev.usedSlots (d : Dev) (n : Nat) : List Nat :=
  let held := (d.pool.emt.filter fun e => (e.2.kind == 2 || (e.2.kind == 0 && e.2.frame == 0xFFFF)) && nmem e.2.drives n).map (·.2.slot)
  let moving := d.far.moves.filter fun r => nmem (r.drive :: r.targets) n || ((d.emtOf r.ext).repl && r.drive2 == n)
  let freeing := d.far.cmds.filter fun c => c.2.drive == n && c.2.kind == 3 && c.2.slot != 524288
  (held ++ moving.map (·.slot) ++ freeing.map (·.2.slot)).foldl nadd []

/-- Free slots of a drive. -/
def Dev.driveFree (d : Dev) (n : Nat) : Nat :=
  match d.drive n with
  | some v => v.slots - (d.usedSlots n).length
  | none => 0

/-- A slot is free on a drive. -/
def Dev.slotFreeAt (d : Dev) (n s : Nat) : Bool :=
  match d.drive n with
  | some v => s < v.slots && !nmem (d.usedSlots n) s
  | none => false

/-- The drives whose slots can be allocated: ACTIVE, and past the epoch that adds them (R55, R259). -/
def Dev.openDrives (d : Dev) : List Nat :=
  (d.far.drives.filter fun e => e.2.state == 3 && !nmem d.pool.addCapacity (32 + e.1)).map (·.1)

/-- The drive with the most free slots, the lowest number on a tie. -/
def Dev.bestDrive (d : Dev) (l : List Nat) : Option Nat :=
  l.foldl (fun b n => match b with
    | none => some n
    | some x => if d.driveFree x < d.driveFree n then some n else some x) none

/-- The lowest slot all these drives have free. -/
def Dev.lowSlot (d : Dev) (l : List Nat) : Option Nat :=
  let n := (l.map fun x => ((d.drive x).map (·.slots)).getD 0).foldl min 524288
  (List.range n).find? fun s => l.all fun x => d.slotFreeAt x s

/-- The root port of a drive. -/
def Dev.drivePort (d : Dev) (n : Nat) : Nat := ((d.drive n).map (·.port)).getD 0

/-- The best pair for a replicated extent where the first choice has no partner: the lowest slot free on two drives, then
different root ports, then the most free slots. -/
def Dev.bestPair (d : Dev) : Option (Nat × Nat × Nat) :=
  let ds := d.openDrives
  let pairs := (ds.map fun a => (ds.filter (a < ·)).map fun b => (a, b)).flatten
  let scored := pairs.filterMap fun p => (d.lowSlot [p.1, p.2]).map fun s =>
    ((s * 2 + b2n (d.drivePort p.1 == d.drivePort p.2)) * 2 ^ 32 + (2 ^ 31 - d.driveFree p.1 - d.driveFree p.2), p.1, p.2, s)
  (scored.foldl (fun b x => match b with
    | none => some x
    | some y => if x.1 < y.1 then some x else some y) (none : Option (Nat × Nat × Nat × Nat))).map (·.2)

/-- The drive, second drive and slot of a new extent. -/
def Dev.pickFar (d : Dev) (repl : Bool) : Option (Nat × Nat × Nat) :=
  match d.bestDrive (d.openDrives.filter fun n => 0 < d.driveFree n) with
  | none => none
  | some x =>
    match d.lowSlot [x] with
    | none => none
    | some s =>
      if !repl then some (x, 0, s)
      else
        let others := d.openDrives.filter fun n => n != x && d.slotFreeAt n s
        match (d.bestDrive (others.filter fun n => d.drivePort n != d.drivePort x)).or (d.bestDrive others) with
        | some y => some (x, y, s)
        | none => d.bestPair

/-- Take far slots for `n` extents of a new backed region, in index order; none when there are not enough. -/
def Dev.takeFar (d : Dev) (handle base i : Nat) (repl : Bool) : Nat → Option Dev
  | 0 => some d
  | n + 1 =>
    match d.pickFar repl with
    | none => none
    | some (x, y, s) =>
      let e : Emt := { kind := 2, handle := handle, index := i, repl := repl, drive := x, drive2 := y, slot := s }
      (d.addEmts (base + i) [e]).takeFar handle base (i + 1) repl n

/-! ## Frames kept for skeins (R35) -/

/-- FRAMES, the reservation asked for. -/
def Dev.cacheGoal (d : Dev) : Nat := d.fld 0x100008 0 14

/-- Reserve free frames until the reservation reaches FRAMES. -/
def Dev.fillCache (d : Dev) : Nat → Dev
  | 0 => d
  | n + 1 =>
    let c := d.choose d.frameLimit fun f => !d.frameUsed f
    match c.1 with
    | none => d
    | some f => { c.2 with pool := { c.2.pool with cacheFrames := c.2.pool.cacheFrames ++ [f] } }.fillCache n

/-- Take frames into the reservation as far as they go. -/
def Dev.topUpCache (d : Dev) : Dev := d.fillCache (min (d.cacheGoal - d.pool.cacheFrames.length) d.freeFrames)

/-- A frame of the reservation holds no skein. -/
def Dev.emptyCacheFrame (d : Dev) (f : Nat) : Bool := d.far.cached.all fun e => e.2.slot / 512 != f

/-- Give reserved frames above FRAMES back as they empty, and demote what the others of them hold. -/
def Dev.shrinkCache (d : Dev) : Dev :=
  let extra := d.pool.cacheFrames.drop d.cacheGoal
  let gone := extra.filter d.emptyCacheFrame
  let d := { d with pool := { d.pool with cacheFrames := d.pool.cacheFrames.filter (fun f => !nmem gone f),
                                          binding := gone.foldl nadd d.pool.binding } }
  let left := extra.filter fun f => !nmem gone f
  forEach ((d.far.cached.filter fun e => nmem left (e.2.slot / 512) && d.demotable e.1 e.2).map (·.1)) (fun sk d => d.demote sk) d

/-! ## Bind-off (R373) -/

/-- Forget stored codewords of a frame's lines that were not the encoding of their bytes. -/
def Dev.clearCodes (d : Dev) (f : Nat) : Dev := d.dropCodes (f * 2 ^ 19) (2 ^ 19)

/-- A frame under bind-off is written with zeros, and is free again, or reserved for skeins. -/
def Dev.frameFreed (d : Dev) (f : Nat) : Dev :=
  if !nmem d.pool.binding f then d
  else
    let d := { d with mem := memZero d.mem (f * 2 ^ 25) (2 ^ 25), poison := d.poison.filter fun l => l / 2 ^ 19 != f,
                      pool := { d.pool with binding := ndel d.pool.binding f,
                                            emt := d.pool.emt.filter fun e => e.2.kind != 0 || e.2.frame != f } }
    (d.clearCodes f).topUpCache

/-- Release the near or far storage of an extent of a freed region: its entry stays listed as FREE until its bind-off is
done. -/
def Dev.bindExtent (d : Dev) (ext : Nat) : Dev :=
  match tget d.pool.emt ext with
  | none => d
  | some e =>
    if e.kind = 1 then
      let d := d.releaseFrame e.frame
      { d with pool := { d.pool with emt := if nmem d.pool.binding e.frame then tput d.pool.emt ext { e with kind := 0, fence := false }
                                            else tdel d.pool.emt ext } }
    else if e.kind = 2 then
      let d := { d with far := { d.far with cached := d.far.cached.map fun c =>
                   if c.1 / 512 = ext && c.2.state = 0 then (c.1, { c.2 with cancelled := true }) else c } }
      let d := forEach ((d.far.cached.filter fun c => c.1 / 512 == ext && c.2.state != 0).map (·.1)) (fun sk d => d.dropSkein sk) d
      let served := e.drives.filter d.driveServes
      let d := { d with pool := { d.pool with emt := if served.isEmpty then tdel d.pool.emt ext
                                                     else tput d.pool.emt ext { e with kind := 0, fence := false, frame := 0xFFFF } } }
      forEach served (fun n d => d.nvmeIssue n 3 (ext * 512) e.slot 0) d
    else { d with pool := { d.pool with emt := tdel d.pool.emt ext } }

end Sys2Proof.Machine
end

