-- ==== Sys2Proof/Machine/Pool.lean ====
section
/-! DEFINITION. Pool operations (R44 to R57, R82): each as the effect it has once it is ordered, which the standby of a pair
applies from its record too, and as the operation with its checks, for a descriptor or a POOL_OP. -/

namespace Sys2Proof.Machine

/-! ## Regions, grants, exclusions -/

/-- Store a region. -/
def Dev.setRegion (d : Dev) (h : Nat) (r : Region) : Dev :=
  { d with pool := { d.pool with regions := tput d.pool.regions h r } }

/-- A region whose REGION_FREE has not been ordered (R47). -/
def Dev.liveRegion (d : Dev) (h : Nat) : Option Region := (d.regionOf h).filter fun r => !r.freeing

/-- An exclusion covers a grant (R483). -/
def Exclusion.covers (x : Exclusion) (key : Nat) (g : Grant) : Bool :=
  x.handle == key % 65536 && (x.host == none || x.host == some (key / 65536)) && g.born < x.rgen

/-- Exclusions that cover no grant go (R483). -/
def Dev.pruneExclusions (d : Dev) : Dev :=
  { d with pool := { d.pool with exclusions := d.pool.exclusions.filter fun x => d.pool.grants.any fun g => x.covers g.1 g.2 } }

/-- Set EGEN of a region's extents [first, last] (R54). -/
def Dev.setEgen (d : Dev) (r : Region) (first last gen : Nat) : Dev :=
  { d with pool := { d.pool with emt := d.pool.emt.map fun e =>
      if r.base + first ≤ e.1 && e.1 ≤ r.base + last then (e.1, { e.2 with egen := gen }) else e } }

/-- Close the view of a draft: its copies and base references are released, and its extents answer REVOKED until the next
epoch (R51, R52). -/
def Dev.closeView (d : Dev) (view count owner : Nat) : Dev :=
  let d := forEach ((List.range count).map fun i => (d.emtOf (view + i)).frame) (fun f d => d.releaseFrame f) d
  let gone := d.pool.draftCopies.filter fun c => view ≤ c.ext && c.ext < view + count
  let d := forEach gone (fun c d => d.releaseFrame c.dest) d
  { d with pool := { d.pool with closed := { view := view, count := count, owner := owner } :: d.pool.closed,
                                 draftCopies := d.pool.draftCopies.filter fun c => c.ext < view || view + count ≤ c.ext } }

/-- Discard a draft (Table 2.9). -/
def Dev.discardDraft (d : Dev) (id : Nat) : Dev :=
  match tget d.pool.drafts id with
  | none => d
  | some f => { d with pool := { d.pool with drafts := tdel d.pool.drafts id } }.closeView f.view f.count f.owner

/-- Close a pin (R52); jobs whose segments map its view end (R209). -/
def Dev.endPin (d : Dev) (id : Nat) : Dev :=
  match tget d.pool.pins id with
  | none => d
  | some p => ({ d with pool := { d.pool with pins := tdel d.pool.pins id } }.closeView p.view p.count p.owner).recheckJobs

/-- Discard the drafts of a host on a region (R46). -/
def Dev.dropDrafts (d : Dev) (h : Nat) (host : Option Nat) : Dev :=
  forEach ((d.pool.drafts.filter fun f => f.2.handle == h && (host == none || host == some f.2.owner)).map (·.1))
    (fun i d => d.discardDraft i) d

/-! ## Effects -/

/-- A new region (R45, R260). None when the near or far tier has no room. -/
def Dev.makeRegion (d : Dev) (h base count : Nat) (backed repl : Bool) : Option Dev :=
  let r : Region := { backed := backed, base := base, count := count }
  if backed then ((d.takeFar h base 0 repl count).map fun d => d.setRegion h r)
  else if d.freeFrames < count then none
  else
    let fs := d.takeFrames count
    let es := fs.1.zipIdx.map fun x => ({ kind := 1, handle := h, index := x.2, frame := x.1 } : Emt)
    some ((fs.2.addEmts base es).setRegion h r)

/-- An exclusion a revoke needs has no place in the carve-out (R483). -/
def Dev.noExclusion (d : Dev) (h : Nat) (host : Option Nat) (rgen : Nat) : Bool :=
  65536 ≤ d.pool.exclusions.length &&
  d.pool.grants.any fun g => ({ handle := h, host := host, first := 0, last := 0, rgen := rgen } : Exclusion).covers g.1 g.2

/-- REGION_FREE is ordered: as a REVOKE with ALL over every extent, with its drafts discarded and its pins ended (R54). -/
def Dev.orderFree (d : Dev) (h : Nat) (r : Region) : Dev :=
  let gen := r.rgen + 1
  let x : Exclusion := { handle := h, host := none, first := 0, last := r.count - 1, rgen := gen }
  let d := (d.setRegion h { r with rgen := gen, freeing := true }).setEgen r 0 (r.count - 1) gen
  let d := ({ d with pool := { d.pool with exclusions := x :: d.pool.exclusions } } : Dev).pruneExclusions
  let d := d.dropDrafts h none
  let d := forEach ((d.pool.pins.filter (·.2.handle == h)).map (·.1)) (fun i d => d.endPin i) d
  d.recheckJobs

/-- The region is gone: its grants and exclusions are removed, its storage goes to bind-off (R54, R373). -/
def Dev.endRegion (d : Dev) (h : Nat) : Dev :=
  match d.regionOf h with
  | none => d
  | some r =>
    let d := { d with pool := { d.pool with regions := tdel d.pool.regions h,
                                            grants := d.pool.grants.filter (fun g => g.1 % 65536 != h),
                                            exclusions := d.pool.exclusions.filter (fun x => x.handle != h) } }
    forEach ((List.range r.count).map (r.base + ·)) (fun e d => d.bindExtent e) d

/-- A grant made or replaced (R39, R46). -/
def Dev.putGrant (d : Dev) (h host rights : Nat) (r : Region) : Dev :=
  let had := ((d.grantOf host h).map (·.rights)).getD 0
  let g : Grant := { rights := rights, gen := r.rgen, born := r.rgen }
  let d : Dev := { d with pool := { d.pool with grants := tput d.pool.grants (host * 65536 + h) g } }
  let d := d.pruneExclusions
  (if Nat.land had rightP ≠ 0 && Nat.land rights rightP = 0 then d.dropDrafts h (some host) else d).recheckJobs

/-- A grant removed. -/
def Dev.delGrant (d : Dev) (h host : Nat) : Dev :=
  let d := { d with pool := { d.pool with grants := tdel d.pool.grants (host * 65536 + h) } }.pruneExclusions
  (d.dropDrafts h (some host)).recheckJobs

/-- The revoke point (R54 steps 1 and 2). -/
def Dev.revokePoint (d : Dev) (h : Nat) (host : Option Nat) (first last : Nat) (r : Region) : Dev :=
  let gen := r.rgen + 1
  let d := d.setRegion h { r with rgen := gen }
  let stays := fun (key : Nat) => key % 65536 == h && host != none && host != some (key / 65536)
  let x : Exclusion := { handle := h, host := host, first := first, last := last, rgen := gen }
  let d : Dev := { d with pool := { d.pool with exclusions := x :: d.pool.exclusions,
                                                grants := d.pool.grants.map fun g =>
                                                  if stays g.1 then (g.1, { g.2 with gen := gen }) else g } }
  ((d.setEgen r first last gen).pruneExclusions).recheckJobs

/-- The entries of a new view on a version: kind 3 of a draft, 4 of a pin, from the entries it shows; each frame is held
once more. -/
def Dev.makeView (d : Dev) (kind view : Nat) (from_ : Nat) (count : Nat) : Dev :=
  let es := (List.range count).map fun i => let e := d.emtOf (from_ + i); { e with kind := kind, mod := false, egen := 0 }
  forEach (es.map (·.frame)) (fun f d => d.holdFrame f) (d.addEmts view es)

/-- A draft opened (R48). -/
def Dev.putDraft (d : Dev) (id view h owner : Nat) (r : Region) : Dev :=
  let f : Draft := { owner := owner, handle := h, baseVer := r.version, view := view, count := r.count }
  let d : Dev := { d with pool := { d.pool with drafts := tput d.pool.drafts id f } }
  d.makeView 3 view r.base r.count

/-- A pin opened on the version that `from_` shows (R52). -/
def Dev.putPin (d : Dev) (id view h owner version from_ ms : Nat) (r : Region) : Dev :=
  let p : Pin := { owner := owner, handle := h, version := version, view := view, count := r.count, deadline := d.now + msTicks ms }
  let d : Dev := { d with pool := { d.pool with pins := tput d.pool.pins id p } }
  d.makeView 4 view from_ r.count

/-- The extents a draft has modified, by index. -/
def Dev.modified (d : Dev) (f : Draft) : List Nat := (List.range f.count).filter fun i => (d.emtOf (f.view + i)).mod

/-- Install a draft as a version: every modified extent's frame at once, the old ones released (R49, R51). -/
def Dev.installDraft (d : Dev) (h id version : Nat) : Dev :=
  match d.regionOf h, tget d.pool.drafts id with
  | some r, some f =>
    let d := forEach (d.modified f) (fun i d =>
      let new := d.emtOf (f.view + i)
      let old := d.emtOf (r.base + i)
      let d : Dev := { d with pool := { d.pool with emt := tput d.pool.emt (r.base + i) { old with frame := new.frame, fence := new.fence } } }
      (d.holdFrame new.frame).releaseFrame old.frame) d
    let d : Dev := { d with pool := { d.pool with drafts := tdel d.pool.drafts id } }
    (d.closeView f.view f.count f.owner).setRegion h { r with version := version, verOrd := version }
  | _, _ => d

/-- The version after `v` (R49). -/
def nextVersion (v : Nat) : Nat := if v = 0xFFFFFFFF then 1 else v + 1

/-! ## Answers -/

/-- Record and complete an operation that has had its effect, or refuse one: what changed state, and every answer a dedup
record keeps, goes to the partner (R309). -/
def Dev.poolEnd (d : Dev) (c : Caller) (b : List Byte) (st det result progress : Nat) : Dev :=
  let node := d.callerNode c
  let x := match c with
    | .fab m => (dedupTail m st det result, m.tag)
    | .desc _ _ => (zeros 8 ++ natBytes 1 st ++ [0] ++ natBytes 2 det ++ natBytes 8 result, 0)
  let keep := match c with
    | .fab _ => true
    | .desc _ _ => st == stDone || st == stStaleBase
  let d := if keep then d.repAdminOp b (natBytes 8 result ++ natBytes 4 progress ++ zeros 4) x.1 node x.2 else d
  d.complete c st det result progress

/-- Refuse with DENIED. -/
def Dev.poolDeny (d : Dev) (c : Caller) (b : List Byte) (det : Nat) : Dev := d.poolEnd c b stDenied det 0 0

/-- RETRY with a hint. -/
def Dev.poolRetry (d : Dev) (c : Caller) : Dev := let h := d.hint; h.2.complete c stRetry h.1 0 0

/-- Operations that need the administration lease (Table 2.9). -/
def leaseOp (op : Nat) : Bool := (0x08 ≤ op && op ≤ 0x0C) || op == 0x13 || op == 0x14

/-- The feature an operation needs (Table 2.9), 0 for none. -/
def poolFeature (op : Nat) : Nat := if op = 0x0D || op = 0x0F then 1 else if op = 0x10 then 17 else 0

/-- What refuses an operation before its own checks: Decommissioned (R451), a unit that is not the active (R308), its
feature, the lease (R44). -/
def Dev.poolGate (d : Dev) (node op : Nat) : Option (Nat × Nat) :=
  if d.sec.state = 5 && op ≤ 0x14 then some (stDenied, 0x80)
  else if (d.mir.role = 2 || d.mir.role = 3) && op ≤ 0x14 then some (stFenced, 0)
  else if poolFeature op ≠ 0 && !d.hasFeature node (poolFeature op) then some (stUnsupported, poolFeature op)
  else if leaseOp op && !d.hasLease node then some (stDenied, 8)
  else none

/-- Run an operation unless its gate refuses it. -/
def Dev.poolGated (d : Dev) (c : Caller) (b : List Byte) (op : Nat) (f : Dev → Dev) : Dev :=
  match d.poolGate (d.callerNode c) op with
  | some r => d.poolEnd c b r.1 r.2 0 0
  | none => f d

/-- Run an operation on the region its handle names (R47). -/
def Dev.withRegion (d : Dev) (c : Caller) (b : List Byte) (h : Nat) (f : Region → Dev → Dev) : Dev :=
  match d.liveRegion h with
  | none => d.poolDeny c b (if (nodePort (d.callerNode c)).isSome then 0x0A else 0)
  | some r => f r d

/-- A PUBLISH of the region is installing (R50). -/
def Dev.installing (d : Dev) (h : Nat) : Bool := d.pool.publishing.any (·.handle == h)

/-- Answer RETRY while a PUBLISH of the region installs (R50). -/
def Dev.whenStill (d : Dev) (c : Caller) (h : Nat) (f : Dev → Dev) : Dev := if d.installing h then d.poolRetry c else f d

/-- An extent of a range is fenced (R56). -/
def Dev.fencedIn (d : Dev) (base first last : Nat) : Bool :=
  d.pool.emt.any fun e => base + first ≤ e.1 && e.1 ≤ base + last && e.2.fence

/-- The running jobs that an operation has ended: ring and index of each. -/
def Dev.jobsEnded (before after : Dev) : List (Nat × Nat) :=
  (before.jobs.jobs.filter fun j => j.2.stage == 2 && (tget after.jobs.jobs j.1).isNone).map fun j => (j.2.ring, j.2.idx)

/-- Queue the drains of an operation that has had its effect since `before` (R54, R118, R209), and start them. -/
def Dev.drain (d before : Dev) (r : Draining) : Dev :=
  { d with pool := { d.pool with draining := d.pool.draining ++ [{ r with jobs := before.jobsEnded d }] } }.sweepAll

/-! ## The operations -/

/-- REGION_CREATE (R45, R260, R452). -/
def Dev.opCreate (d : Dev) (c : Caller) (b : List Byte) : Dev :=
  let kind := dKind b
  let n := clampN 1 1048576 (dCount b)
  let backed := kind = 1
  let repl := backed && bit (dCflags b) 1
  let d := if 1 < kind then d.clamped 3 0 else d
  let d := if n ≠ dCount b then d.clamped 3 0 else d
  if d.sec.state = 1 && d.sec.debugLevel = 2 then d.poolDeny c b 0x84
  else if backed && !d.hasFeature (d.callerNode c) 7 then d.poolEnd c b stUnsupported 7 0 0
  else if repl && !d.hasFeature (d.callerNode c) 18 then d.poolEnd c b stUnsupported 18 0 0
  else
    let pick := if bit (dCflags b) 0 then d.choose 65536 fun h => (d.regionOf h).isNone
      else (if (d.regionOf (dHandle b)).isSome then none else some (dHandle b), d)
    let d := pick.2
    match pick.1 with
    | none => d.poolDeny c b 4
    | some h =>
      if !backed && d.freeFrames < n then d.poolDeny c b 2
      else
        match d.freeRange n with
        | none => d.poolDeny c b 3
        | some base =>
          match d.makeRegion h base n backed repl with
          | none => d.poolDeny c b 2
          | some d => d.poolEnd c b stDone 0 (h + base * 65536) 1

/-- REGION_FREE (R54). DESIGN CHOICE (log entry 39): as the REVOKE it acts as, it needs a place for its exclusion under the limit of R483,
and without one it ends DENIED with detail 0x0004. -/
def Dev.opFree (d : Dev) (c : Caller) (b : List Byte) : Dev :=
  let h := dHandle b
  d.withRegion c b h fun r d => d.whenStill c h fun d =>
    if d.fencedIn r.base 0 (r.count - 1) then d.poolRetry c
    else if d.noExclusion h none (r.rgen + 1) then d.poolDeny c b 4
    else (d.orderFree h r).drain d { handle := h, host := none, first := 0, last := r.count - 1, rgen := r.rgen + 1, kind := 1, caller := c }

/-- From SEAL until the next Shared state a GRANT outside the tenant range is refused (R370). -/
def Dev.outsideTenant (d : Dev) (host : Nat) : Bool :=
  2 ≤ d.sec.state && d.sec.state ≤ 4 &&
  (if host = 0xFF0 || host = 0xFF1 then !bit d.sec.sealFlags 1 else host < d.sec.tenantLo || d.sec.tenantHi < host)

/-- GRANT (R46, R118, R370). -/
def Dev.opGrant (d : Dev) (c : Caller) (b : List Byte) : Dev :=
  let h := dHandle b
  let host := dHost b
  d.withRegion c b h fun r d =>
    if !grantable host then d.poolDeny c b 0x0B
    else if d.outsideTenant host then d.poolDeny c b 0x81
    else d.whenStill c h fun d =>
      if dVersion b ≠ r.rgen then d.poolEnd c b stRevoked 0 0 0
      else if (d.grantOf host h).isNone && 65536 ≤ d.pool.grants.length then d.poolDeny c b 4
      else
        let had := ((d.grantOf host h).map (·.rights)).getD 0
        let lost := Nat.land had 3 - Nat.land (Nat.land had 3) (dRights b)
        let d' := d.putGrant h host (dRights b) r
        if lost = 0 && (d.jobsEnded d').isEmpty then d'.poolEnd c b stDone 0 r.rgen 0
        else d'.drain d { handle := h, host := some host, first := 0, last := r.count - 1, rgen := r.rgen, kind := 3, caller := c }

/-- GRANT_REMOVE (R47, R118). -/
def Dev.opGrantRemove (d : Dev) (c : Caller) (b : List Byte) : Dev :=
  let h := dHandle b
  let host := dHost b
  d.withRegion c b h fun r d =>
    if !grantable host then d.poolDeny c b 0x0B
    else d.whenStill c h fun d =>
      if (d.grantOf host h).isNone then d.poolEnd c b stDone 0 0 0
      else
        (d.delGrant h host).drain d
          { handle := h, host := some host, first := 0, last := r.count - 1, rgen := r.rgen, kind := 2, caller := c }

/-- REVOKE (R47, R54, R56, R483). -/
def Dev.opRevoke (d : Dev) (c : Caller) (b : List Byte) : Dev :=
  let h := dHandle b
  let host := if dAll b then none else some (dHost b)
  d.withRegion c b h fun r d =>
    let first := dCount b
    let last := min (dLast b) (r.count - 1)
    if !dAll b && !grantable (dHost b) then d.poolDeny c b 0x0B
    else
      let d := if last ≠ dLast b then d.clamped 3 0 else d
      if last < first then d.poolDeny c b 0x0C
      else d.whenStill c h fun d =>
        if d.fencedIn r.base first last then d.poolRetry c
        else if dVersion b ≠ r.rgen then d.poolEnd c b stRevoked 0 r.rgen 0
        else if r.rgen = 0xFFFFFFFF then d.poolDeny c b 6
        else if d.noExclusion h host (r.rgen + 1) then d.poolDeny c b 4
        else (d.revokePoint h host first last r).drain d
          { handle := h, host := host, first := first, last := last, rgen := r.rgen + 1, kind := 0, caller := c }

/-- The descriptor of whoever waits for a drain. -/
def Dev.drainEnd (d : Dev) (r : Draining) : Dev :=
  let d := { d with pool := { d.pool with draining := d.pool.draining.erase r } }
  let b := d.callerBytes r.caller
  let d := if r.kind = 1 then d.endRegion r.handle else d
  d.poolEnd r.caller b stDone 0 (if r.kind = 0 || r.kind = 3 then r.rgen else 0) 0

/-- A drain is over: no line it must clear is held or busy (R54 step 4), and the records of the jobs it ended are written (R209). -/
def Dev.drainDone (d : Dev) (r : Draining) : Bool :=
  (r.jobs.all fun j => !d.recordOwed j.1 j.2) && d.swept fun l => match d.extOwner (l / 2 ^ 19) with
    | some (h, i) => h == r.handle && r.first ≤ i && i ≤ r.last
    | none => false

/-- The grant of a requester holds a right. -/
def Dev.holds (d : Dev) (node h right : Nat) : Bool :=
  match d.grantOf node h with
  | some g => rightsOk g.rights right
  | none => false

/-- DRAFT_OPEN (R48). -/
def Dev.opDraftOpen (d : Dev) (c : Caller) (b : List Byte) : Dev :=
  let h := dHandle b
  let node := d.callerNode c
  d.withRegion c b h fun r d =>
    if !d.holds node h rightP then d.poolDeny c b 0
    else if r.backed then d.poolDeny c b 1
    else d.whenStill c h fun d =>
      let pick := d.choose 4096 fun i => (tget d.pool.drafts i).isNone
      let d := pick.2
      if d.fld 0x100010 0 13 ≤ d.pool.drafts.length then d.poolDeny c b 4
      else
        match pick.1, d.freeRange r.count with
        | none, _ => d.poolDeny c b 4
        | some _, none => d.poolDeny c b 3
        | some id, some view => (d.putDraft id view h node r).poolEnd c b stDone 0 (id * 2 ^ 52 + view) r.version

/-- The open draft a requester's ID names. -/
def Dev.draftOf (d : Dev) (node id : Nat) : Option Draft := (tget d.pool.drafts id).filter (·.owner == node)

/-- The open pin a requester's ID names; one whose lease has expired is no longer open (R47). -/
def Dev.pinOf (d : Dev) (node id : Nat) : Option Pin := (tget d.pool.pins id).filter fun p => p.owner == node && d.now < p.deadline

/-- DRAFT_DISCARD (R47). -/
def Dev.opDiscard (d : Dev) (c : Caller) (b : List Byte) : Dev :=
  match d.draftOf (d.callerNode c) (dDraftId b) with
  | none => d.poolDeny c b 5
  | some f => d.whenStill c f.handle fun d => (d.discardDraft (dDraftId b)).poolEnd c b stDone 0 0 0

/-- The publisher's grant fails the check for a modified extent: the status of the first (R50). -/
def Dev.publishCheck (d : Dev) (node : Nat) (f : Draft) (r : Region) : Option (Nat × Nat) :=
  (d.modified f).findSome? fun i => d.rightsCheck node rightP (d.emtOf (r.base + i))

/-- PUBLISH (R49, R50, R56): refused, or its publish point, after which the barrier drains the homes. -/
def Dev.opPublish (d : Dev) (c : Caller) (b : List Byte) : Dev :=
  let h := dHandle b
  let id := dDraftId b
  let node := d.callerNode c
  d.withRegion c b h fun r d =>
    if !d.holds node h rightP then d.poolDeny c b 0
    else
      match (d.draftOf node id).filter (·.handle == h) with
      | none => d.poolDeny c b 5
      | some f =>
        if f.baseVer ≠ dVersion b then d.poolDeny c b 7
        else if f.baseVer ≠ r.verOrd then d.poolEnd c b stStaleBase 0 r.verOrd 0
        else d.whenStill c h fun d =>
          if (d.modified f).any (fun i => (d.emtOf (r.base + i)).fence || (d.emtOf (f.view + i)).fence) then d.poolRetry c
          else
            match d.publishCheck node f r with
            | some x => d.poolEnd c b x.1 x.2 0 0
            | none =>
              let v := nextVersion r.verOrd
              let gone := d.pool.draftCopies.filter fun x => f.view ≤ x.ext && x.ext < f.view + f.count
              let d := forEach gone (fun x d => d.releaseFrame x.dest) d
              let p : Publishing := { handle := h, draft := id, version := v, caller := c }
              let d := d.setRegion h { r with verOrd := v }
              { d with pool := { d.pool with publishing := d.pool.publishing ++ [p],
                                             draftCopies := d.pool.draftCopies.filter fun x => !gone.contains x } }.sweepAll

/-- The lease of a pin in ms (R52), and whether it was clamped. -/
def Dev.pinMs (d : Dev) (b : List Byte) : Nat := if dLeaseMs b = 0 then d.fld 0x10000C 0 22 else clampN 1000 3600000 (dLeaseMs b)

/-- Count a clamped LEASE_MS. -/
def Dev.countLease (d : Dev) (b : List Byte) : Dev :=
  if dLeaseMs b ≠ 0 && clampN 1000 3600000 (dLeaseMs b) ≠ dLeaseMs b then d.clamped 3 0 else d

/-- PIN_OPEN (R52). -/
def Dev.opPinOpen (d : Dev) (c : Caller) (b : List Byte) : Dev :=
  let h := dHandle b
  let node := d.callerNode c
  let d := d.countLease b
  d.withRegion c b h fun r d =>
    if !d.holds node h rightR then d.poolDeny c b 0
    else if r.backed then d.poolDeny c b 1
    else d.whenStill c h fun d =>
      let v := if dVersion b = 0 then r.version else dVersion b
      let source := if v = r.version then some r.base
        else (d.pool.pins.find? fun p => p.2.handle == h && p.2.version == v).map (·.2.view)
      match source with
      | none => d.poolEnd c b stStaleBase 0 r.version 0
      | some from_ =>
        let pick := d.choose 4096 fun i => (tget d.pool.pins i).isNone
        let d := pick.2
        if d.fld 0x100010 16 13 ≤ d.pool.pins.length then d.poolDeny c b 4
        else
          match pick.1, d.freeRange r.count with
          | none, _ => d.poolDeny c b 4
          | some _, none => d.poolDeny c b 3
          | some id, some view =>
            (d.putPin id view h node v from_ (d.pinMs b) r).poolEnd c b stDone 0 (id * 2 ^ 52 + view) v

/-- PIN_RENEW (R52). -/
def Dev.opPinRenew (d : Dev) (c : Caller) (b : List Byte) : Dev :=
  let d := d.countLease b
  match d.pinOf (d.callerNode c) (dDraftId b) with
  | none => d.poolDeny c b 5
  | some p => d.whenStill c p.handle fun d =>
    { d with pool := { d.pool with pins := tput d.pool.pins (dDraftId b) { p with deadline := d.now + msTicks (d.pinMs b) } } }.poolEnd
      c b stDone 0 0 0

/-- PIN_CLOSE (R52). -/
def Dev.opPinClose (d : Dev) (c : Caller) (b : List Byte) : Dev :=
  match d.pinOf (d.callerNode c) (dDraftId b) with
  | none => d.poolDeny c b 5
  | some p => d.whenStill c p.handle fun d => (d.endPin (dDraftId b)).poolEnd c b stDone 0 0 0

/-- REGION_QUERY (R82). -/
def Dev.opRegionQuery (d : Dev) (c : Caller) (b : List Byte) : Dev :=
  let h := dHandle b
  let node := d.callerNode c
  d.withRegion c b h fun r d =>
    if (nodePort node).isNone && ((d.grantOf node h).map (·.rights)).getD 0 = 0 then d.poolDeny c b 0
    else
      let out := natBytes 2 h ++ natBytes 1 (b2n r.backed) ++ zeros 1 ++ natBytes 4 r.count ++ natBytes 4 r.base ++ natBytes 4 r.version ++
        natBytes 4 r.rgen ++ natBytes 2 (d.pool.drafts.filter (·.2.handle == h)).length ++
        natBytes 2 (d.pool.pins.filter (·.2.handle == h)).length ++ zeros 8
      d.output c (dOutAddr b) out stDone 0 r.version r.rgen

/-- EXTENT_QUERY (R47, R82). -/
def Dev.opExtentQuery (d : Dev) (c : Caller) (b : List Byte) : Dev :=
  let h := dHandle b
  let node := d.callerNode c
  d.withRegion c b h fun r d =>
    let first := dCount b
    let last := min (dLast b) (r.count - 1)
    let len := clampGrain 16 16 16777216 (dOutLen b)
    if (nodePort node).isNone && ((d.grantOf node h).map (·.rights)).getD 0 = 0 then d.poolDeny c b 0
    else
      let d := if last ≠ dLast b then d.clamped 3 0 else d
      let d := if len ≠ dOutLen b then d.clamped 3 0 else d
      if last < first then d.poolDeny c b 0x0C
      else
        let n := min (last + 1 - first) (len / 16)
        let out := ((List.range n).map fun i => emtBytes (d.emtOf (r.base + first + i))).flatten
        d.output c (dOutAddr b) out stDone 0 0 n (unit := 16)

/-! ## Retiring and returning a stack (R57, R329, R330) -/

/-- The frames in use: held, reserved for skeins, under bind-off, or promised to a migration. -/
def Dev.framesInUse (d : Dev) : Nat :=
  d.pool.frameRefs.length + d.pool.cacheFrames.length + d.pool.binding.length + (d.pool.migrations.filter fun g => !g.done).length

/-- One pending migration for every frame in use by an extent, under its lowest extent number, and one for every backed
extent with cached skeins. -/
def Dev.migrateAll (d : Dev) : Dev :=
  let add := fun (l : List Migration) (e : Nat × Emt) =>
    if e.2.kind = 2 then
      if d.far.cached.any (fun c => c.1 / 512 == e.1) then l ++ [{ ext := e.1, src := 0xFFFF, dst := 0xFFFF }] else l
    else if (e.2.kind = 1 || e.2.kind = 3 || e.2.kind = 4) && (tget d.pool.frameRefs e.2.frame).isSome && !l.any (·.src == e.2.frame) then
      l ++ [{ ext := e.1, src := e.2.frame, dst := 0xFFFF }]
    else l
  { d with pool := { d.pool with migrations := d.pool.migrations ++ d.pool.emt.foldl add [] } }

/-- A stack changes state, with its event (R330). -/
def Dev.stackState (d : Dev) (s st : Nat) : Dev :=
  if (d.stack s).state = st then d else (d.setStack s fun k => { k with state := st }).log (0x0200 + 16 * s) (code := st)

/-- Frames reserved for skeins that the five-stack map does not have move to frames it has. -/
def Dev.moveCache (d : Dev) (limit : Nat) : Dev :=
  forEach (d.pool.cacheFrames.filter (limit ≤ ·)) (fun f d =>
    let c := d.choose limit fun g => !d.frameUsed g
    match c.1 with
    | none => c.2
    | some g =>
      let d := c.2.copyRun (f * 2 ^ 25) (g * 2 ^ 25) (2 ^ 25)
      let d : Dev := { d with mem := memZero d.mem (f * 2 ^ 25) (2 ^ 25), poison := d.poison.filter fun l => l / 2 ^ 19 != f }.clearCodes f
      { d with pool := { d.pool with cacheFrames := d.pool.cacheFrames.map fun x => if x = f then g else x },
               far := { d.far with cached := d.far.cached.map fun e =>
                 if e.2.slot / 512 = f then (e.1, { e.2 with slot := g * 512 + e.2.slot % 512 }) else e } }) d

/-- Extents that came into frames the five-stack map does not have, by a draft copy that was under way as the retirement began, migrate
too. -/
def Dev.migrateLate (d : Dev) : Dev :=
  let add := fun (l : List Migration) (e : Nat × Emt) =>
    if (e.2.kind = 1 || e.2.kind = 3 || e.2.kind = 4) && 12768 ≤ e.2.frame && !l.any (·.src == e.2.frame) then
      l ++ [{ ext := e.1, src := e.2.frame, dst := 0xFFFF }]
    else l
  { d with pool := { d.pool with migrations := d.pool.migrations ++ d.pool.emt.foldl add [] } }

/-- The last migration of a retirement or return has ended: the maps change, and its operation completes. A retirement waits for draft
copies into frames the five-stack map does not have, and for their migrations. -/
def Dev.stackMoveDone (d : Dev) : Dev :=
  match d.pool.stackMove with
  | none => d
  | some m =>
    let d := if m.retire && d.pool.migrations.all (·.done) then d.migrateLate else d
    if d.pool.migrations.any (fun g => !g.done) || (m.retire && d.pool.draftCopies.any (12768 ≤ ·.dest)) then d
    else
      let d := { d with pool := { d.pool with stackMove := none } }
      let d := if m.retire then
          let d := (d.moveCache 12768).stackState m.stack 5
          { d with pool := { d.pool with totalFrames := 12800 }, ecc := { d.ecc with odd := [], writeBacks := [] } }
        else
          let d := d.stackState m.stack 2
          { d with pool := { d.pool with addCapacity := nadd d.pool.addCapacity 100 }, ecc := { d.ecc with odd := [], writeBacks := [] } }
      d.poolEnd m.caller (d.callerBytes m.caller) stDone 0 0 m.total

/-- STACK_RETIRE (R57). A stack already RETIRED has nothing to move; a second stack cannot be retired (log entry 18). -/
def Dev.opRetire (d : Dev) (c : Caller) (b : List Byte) : Dev :=
  let s := dStack b
  if 6 ≤ s then d.poolDeny c b 0
  else if d.pool.stackMove.isSome then d.poolRetry c
  else if d.retired = some s then d.poolEnd c b stDone 0 0 0
  else if d.retired.isSome then d.poolDeny c b 9
  else if 12768 < d.framesInUse then d.poolEnd c b stDenied 9 (d.framesInUse - 12768) 0
  else
    { d with pool := { d.pool with stackMove := some { stack := s, retire := true, total := 0, caller := c } } }.migrateAll.stackMoveDone

/-- STACK_RETURN (R57, R330, R355): whether the stack's training passes is a free value (log entry 5). -/
def Dev.opReturn (d : Dev) (c : Caller) (b : List Byte) : Dev :=
  let s := dStack b
  if 6 ≤ s then d.poolDeny c b 0
  else if d.pool.stackMove.isSome then d.poolRetry c
  else if (d.stack s).state ≠ 5 then d.poolEnd c b stDone 0 0 0
  else
    let x := d.draw
    let d := x.2.stackState s 1
    if x.1 % 2 = 1 then (d.stackState s 5).poolEnd c b stDeviceError 1 0 0
    else { d with pool := { d.pool with stackMove := some { stack := s, retire := false, total := 0, caller := c } } }.migrateAll.stackMoveDone

/-- Perform a pool operation for its caller. -/
def Dev.poolRun (d : Dev) (c : Caller) (b : List Byte) (op : Nat) : Dev :=
  d.poolGated c b op fun d =>
    if op = 0x08 then d.opCreate c b
    else if op = 0x09 then d.opFree c b
    else if op = 0x0A then d.opGrant c b
    else if op = 0x0B then d.opGrantRemove c b
    else if op = 0x0C then d.opRevoke c b
    else if op = 0x0D then d.opDraftOpen c b
    else if op = 0x0E then d.opDiscard c b
    else if op = 0x0F then d.opPublish c b
    else if op = 0x10 then d.opPinOpen c b
    else if op = 0x11 then d.opPinRenew c b
    else if op = 0x12 then d.opPinClose c b
    else if op = 0x13 then d.opRetire c b
    else if op = 0x14 then d.opReturn c b
    else if op = 0x15 then d.opRegionQuery c b
    else d.opExtentQuery c b

/-- Perform the pool operation of a started descriptor. -/
def Dev.poolDesc (d : Dev) (ring idx op : Nat) : Dev := d.withDesc ring idx op fun b d => d.poolRun (.desc ring idx) b op

end Sys2Proof.Machine
end

