-- ==== Sys2Proof/Machine/PoolCmds.lean ====
section
/-! DEFINITION. The commands of the pool model (chapter 2): the pool administration descriptors and POOL_OP (R95), the ends
of drains, copies, publishes, leases and migrations, and the re-weave epoch (R55). -/

namespace Sys2Proof.Machine

def execRegionCreate (ring idx : Nat) (s : State) := liftDev (fun d => d.poolDesc ring idx 0x08) s
def execRegionFree (ring idx : Nat) (s : State) := liftDev (fun d => d.poolDesc ring idx 0x09) s
def execGrant (ring idx : Nat) (s : State) := liftDev (fun d => d.poolDesc ring idx 0x0A) s
def execGrantRemove (ring idx : Nat) (s : State) := liftDev (fun d => d.poolDesc ring idx 0x0B) s
def execRevoke (ring idx : Nat) (s : State) := liftDev (fun d => d.poolDesc ring idx 0x0C) s
def execDraftOpen (ring idx : Nat) (s : State) := liftDev (fun d => d.poolDesc ring idx 0x0D) s
def execDraftDiscard (ring idx : Nat) (s : State) := liftDev (fun d => d.poolDesc ring idx 0x0E) s
def execPublish (ring idx : Nat) (s : State) := liftDev (fun d => d.poolDesc ring idx 0x0F) s
def execPinOpen (ring idx : Nat) (s : State) := liftDev (fun d => d.poolDesc ring idx 0x10) s
def execPinRenew (ring idx : Nat) (s : State) := liftDev (fun d => d.poolDesc ring idx 0x11) s
def execPinClose (ring idx : Nat) (s : State) := liftDev (fun d => d.poolDesc ring idx 0x12) s
def execStackRetire (ring idx : Nat) (s : State) := liftDev (fun d => d.poolDesc ring idx 0x13) s
def execStackReturn (ring idx : Nat) (s : State) := liftDev (fun d => d.poolDesc ring idx 0x14) s
def execRegionQuery (ring idx : Nat) (s : State) := liftDev (fun d => d.poolDesc ring idx 0x15) s
def execExtentQuery (ring idx : Nat) (s : State) := liftDev (fun d => d.poolDesc ring idx 0x16) s

/-- The opcode of a POOL_OP's descriptor after clamping: a code outside Table 3.17 is NOP (R80, R95). -/
def poolOpcode (b : List Byte) : Nat := if 0x08 ≤ dOpcode b && dOpcode b ≤ 0x16 then dOpcode b else 0

/-- POOL_OP (R95): the operation of its payload for the sending node. -/
def Dev.poolRequest (d : Dev) (m : Msg) : Dev :=
  let op := poolOpcode m.data
  if m.len ≠ 63 then d.deny m 0x22
  else if d.backlogged && 0x08 ≤ op && op ≤ 0x14 then d.retry m
  else
    let d := if op = 0 && dOpcode m.data ≠ 0 then d.clamped 4 0 else d
    let d := d.dedupOpen m
    if op = 0 then d.complete (.fab m) stDone 0 0 0 else d.poolRun (.fab m) m.data op

def execPoolOp (m : Msg) (s : State) := liftDev (fun d =>
  if m.opcode ≠ 0x38 then d else d.arrive m fun d => d.poolRequest m) s

/-! ## Drains, copies, installs, leases -/

def execRevokeDrainDone (handle rgen : Nat) (s : State) := liftDev (fun d =>
  match d.pool.draining.find? fun r => r.handle == handle && r.rgen == rgen && d.drainDone r with
  | none => d
  | some r => d.drainEnd r) s

/-- Lines copied from a failed stack that nothing else holds are lost: POISONED in the copy (R58, R358). `addr` and `src` are the pool
address and the key of the run copied, `dst` its place. -/
def Dev.loseRun (d : Dev) (addr src dst lines : Nat) : Dev :=
  if d.mirrors || (List.range 6).all (fun s => (d.stack s).state != 4) then d
  else forEach (List.range lines) (fun i d =>
    if d.onFailed (addr + 64 * i) (src + 64 * i) then d.poisonLine (addr / 2 ^ 25) (dst + 64 * i) else d) d

/-- The copy of a draft extent ends, its lines read through their homes (R48): a line that a caching agent owns is snooped first, and what
its owner holds is what the copy gets. False while an owner's answer is awaited. -/
def Dev.draftCopyLines (d : Dev) (ext dest base : Nat) : List Nat → Bool × Dev
  | [] =>
    let src := (d.emtOf ext).frame
    (true, (d.draftCopyEnd ext dest).loseRun (base * 2 ^ 25) (src * 2 ^ 25) (dest * 2 ^ 25) (2 ^ 19))
  | l :: r =>
    match d.lineSee none l false false with
    | (.again _, d) => (false, d)
    | (.ok b, d) =>
      match d.draftCopyLines ext dest base r with
      | (true, d) => (true, (d.writeLine ext (dest * 2 ^ 25 + l % 2 ^ 19 * 64) (ext * 2 ^ 25 + l % 2 ^ 19 * 64) b).2)
      | x => x
    | (.no _ _, d) => d.draftCopyLines ext dest base r

/-- The region's own extent that an extent of a view shows. -/
def Dev.baseExt (d : Dev) (ext : Nat) : Nat :=
  let e := d.emtOf ext
  match d.regionOf e.handle with
  | some r => r.base + e.index
  | none => ext

def execDraftCopyDone (ext : Nat) (s : State) := liftDev (fun d =>
  match d.pool.draftCopies.find? (·.ext == ext) with
  | none => d
  | some c =>
    let owned := ((d.coh.dir.map (·.1)).filter fun l => l / 2 ^ 19 == d.baseExt ext && d.ownedLine l)
    match d.draftCopyLines ext c.dest (d.baseExt ext) owned with
    | (true, d) => (d.forget owned).stackMoveDone
    | (false, d) => d) s

/-- Every home has drained the lines of a publish: none is held or busy (R50). -/
def Dev.barrierDone (d : Dev) : Bool := d.swept fun l => d.barred (l / 2 ^ 19)

def execPublishInstall (handle : Nat) (s : State) := liftDev (fun d =>
  match d.pool.publishing.find? (·.handle == handle) with
  | none => d
  | some p =>
    if !d.barrierDone then d
    else
      let d := d.installDraft handle p.draft p.version
      let d := { d with pool := { d.pool with publishing := d.pool.publishing.erase p } }
      d.poolEnd p.caller (d.callerBytes p.caller) stDone 0 p.version 0) s

def execPinLeaseExpiry (pin : Nat) (s : State) := liftDev (fun d =>
  match tget d.pool.pins pin with
  | none => d
  | some p => (d.till p.deadline).endPin pin) s

def execFrameFreed (frame : Nat) (s : State) := liftDev (fun d => d.frameFreed frame) s

/-! ## Migrations (R56, Table 2.13) -/

/-- Requests parked under a fence go again, in their order. -/
def Dev.unpark (d : Dev) : Dev :=
  let l := d.pool.parked
  forEach l (fun p d => d.accept p.2 false) { d with pool := { d.pool with parked := [] } }

/-- The next skein a migration copies: the lowest not copied; of a backed extent, the lowest resident one. -/
def Dev.nextSkein (d : Dev) (g : Migration) : Option Nat :=
  (List.range 512).find? fun k => !nmem g.copied k &&
    (g.src != 0xFFFF || (match tget d.far.cached (g.ext * 512 + k) with
      | some s => s.state == 1 || s.state == 3
      | none => false))

/-- Set or clear FENCE on the extents a migration covers. -/
def Dev.setFence (d : Dev) (g : Migration) (on : Bool) : Dev :=
  { d with pool := { d.pool with emt := d.pool.emt.map fun e =>
      if e.1 = g.ext || (g.src ≠ 0xFFFF && e.2.kind ≠ 2 && e.2.kind ≠ 0 && e.2.frame = g.src) then (e.1, { e.2 with fence := on }) else e } }

/-- Replace a migration. -/
def Dev.setMigration (d : Dev) (g g' : Migration) : Dev :=
  { d with pool := { d.pool with migrations := d.pool.migrations.map fun x => if x.ext = g.ext then g' else x } }

/-- A skein has been copied. -/
def Dev.skeinCopied (d : Dev) (g : Migration) (k : Nat) : Dev :=
  let off := k * 65536
  if g.src = 0xFFFF || g.src = g.dst then d
  else (d.copyRun (g.src * 2 ^ 25 + off) (g.dst * 2 ^ 25 + off) 65536).loseRun (g.ext * 2 ^ 25 + off) (g.src * 2 ^ 25 + off)
    (g.dst * 2 ^ 25 + off) 1024

/-- The last skein of a migration has been copied: NEAR_FRAME is the destination, FENCE 0, and the source frame waits for
the next epoch (R55 step 2, R56). -/
def Dev.migrationDone (d : Dev) (g : Migration) : Dev :=
  let d := d.setFence g false
  let d := d.setMigration g { g with done := true, copying := none }
  let refs := tgetD d.pool.frameRefs g.src 1
  let d := if g.src = 0xFFFF || g.src = g.dst then d
    else { d with pool := { d.pool with
             frameRefs := tput (tput d.pool.frameRefs g.dst refs) g.src 1,
             emt := d.pool.emt.map fun e =>
               if e.2.kind ≠ 2 && e.2.kind ≠ 0 && e.2.frame = g.src then (e.1, { e.2 with frame := g.dst }) else e } }
  let more := fun (m : StackMove) => { m with total := m.total + 1 }
  ({ d with pool := { d.pool with stackMove := d.pool.stackMove.map more } } : Dev).stackMoveDone

/-- The skein a migration copies is done, and the next one begins; a skein written meanwhile begins again (R118). -/
def execMigrationSkeinCopied (ext : Nat) (s : State) := liftDev (fun d =>
  match d.pool.migrations.find? fun g => g.ext == ext && g.started && !g.done with
  | none => d
  | some g =>
    let go := fun (d : Dev) (g' : Migration) =>
      match d.nextSkein g' with
      | some k => (d.setMigration g { g' with copying := some k }).unpark
      | none => ((d.setMigration g { g' with copying := none }).migrationDone { g' with copying := none }).unpark
    match g.copying with
    | none => go d g
    | some k => go (d.skeinCopied g k) { g with copied := k :: g.copied }) s

/-! ## The re-weave epoch (R55) -/

/-- Step 1: views closed before the epoch return to FREE. -/
def Dev.freeViews (d : Dev) : Dev :=
  { forEach d.pool.closed (fun v d => d.delEmts v.view v.count) d with
    pool := { (forEach d.pool.closed (fun v d => d.delEmts v.view v.count) d).pool with closed := [] } }

/-- Step 2: source frames of completed migrations. -/
def Dev.freeSources (d : Dev) : Dev :=
  let done := d.pool.migrations.filter (·.done)
  let d := { d with pool := { d.pool with migrations := d.pool.migrations.filter fun g => !g.done } }
  forEach (done.filter fun g => g.src != 0xFFFF && g.src != g.dst) (fun g d => d.releaseFrame g.src) d

/-- Step 3: added capacity: panels, drives, a returned stack; at the first epoch, stacks that failed training at start-up
leave five in service (R330). -/
def Dev.addCapacities (d : Dev) : Dev :=
  let d := forEach (d.pool.addCapacity.filter (· < 16)) (fun p d =>
    d.setPanel p fun q => { q with state := psIdle, uncorr := 0, retireWish := false }) d
  let d := if nmem d.pool.addCapacity 100 then { d with pool := { d.pool with totalFrames := 15360 } } else d
  let d := { d with pool := { d.pool with addCapacity := [] } }
  let failed := (List.range 6).find? fun s => (d.stack s).state == 4
  match failed with
  | some s =>
    if d.pool.epochs = 0 && d.retired.isNone then
      let d := d.stackState s 5
      { d with pool := { d.pool with totalFrames := 12800 } }
    else d
  | none => d

/-- An extent's migration may start: no running job reads it through a private segment (R144). -/
def Dev.movable (d : Dev) (g : Migration) : Bool :=
  !d.jobHolds g.ext && d.jobs.jobs.all fun j => j.2.frames.all fun f => f.2 != g.src

/-- Start a pending migration: its destination frame, and FENCE 1. -/
def Dev.startMigration (d : Dev) (g : Migration) : Dev :=
  let c := d.choose (min 12768 d.frameLimit) fun f => !d.frameUsed f
  let d := c.2
  let dst := if g.src = 0xFFFF then 0xFFFF else if g.src < 12768 then c.1.getD g.src else c.1.getD 0xFFFF
  if g.src ≠ 0xFFFF && dst = 0xFFFF then d
  else
    let g' := { g with dst := dst, started := true }
    let d := (d.setMigration g g').setFence g' true
    match d.nextSkein g' with
    | some k => d.setMigration g { g' with copying := some k }
    | none => d.migrationDone g'

/-- Step 4: at most 8 extents at a time. -/
def Dev.startMigrations (d : Dev) : Dev :=
  let busy := (d.pool.migrations.filter fun g => g.started && !g.done).length
  forEach ((d.pool.migrations.filter fun g => !g.started && d.movable g).take (8 - busy)) (fun g d => d.startMigration g) d

/-- The payload of a filter update (Table 2.8). -/
def Dev.filterPayload (d : Dev) (i : Nat) (r : SwitchRec) : List Byte :=
  natBytes 2 r.port ++ natBytes 2 (if r.entry < 64 then r.entry else i) ++ natBytes 2 (r.srcLo % 4096) ++ natBytes 2 (r.srcHi % 4096) ++
  natBytes 8 r.addrBase ++ natBytes 8 r.addrLimit ++ natBytes 4 (d.pool.epochs % 2 ^ 32) ++ natBytes 1 (b2n r.valid) ++ zeros 3

/-- Pending switch filter updates: at an epoch (step 5), and as POOL_CTL turns them on (R43). -/
def Dev.sendFilters (d : Dev) : Dev :=
  if d.fld 0x100000 0 1 = 0 then d
  else forEach d.pool.switches (fun w d =>
    if w.2.nonFiltering then d
    else forEach (w.2.recs.zipIdx.filter (·.1.pending)) (fun r d =>
      if d.fab.devReqs.any (fun q => q.2.purpose == 1 && q.2.index == w.1 * 64 + r.2) ||
        d.fab.waitReqs.any (fun q => q.2.1 == 1 && q.2.2 == w.1 * 64 + r.2) then d
      else (d.request { cls := 0, opcode := 0x3D, src := d.ownNode, dst := w.2.node, tag := 0, len := 31, data := d.filterPayload r.2 r.1 }
        1 (w.1 * 64 + r.2)).2) d) d

/-- Domains in force become those of HOME_SDOM and HOME_NODE_DOM; SHARED_BCAST entries of a changed domain are converted
under the settings they were made with (R127). -/
def Dev.newDomains (d : Dev) : Tbl (Nat × Nat) :=
  (List.range 32).filterMap fun i =>
    if d.fld (0x180400 + 16 * i) 31 1 = 1 then some (i, d.fld (0x180400 + 16 * i) 0 12, d.reg (0x180408 + 16 * i)) else none

def Dev.newNodeDoms (d : Dev) : Tbl Nat :=
  ((d.regs.filter fun e => 0x181000 ≤ e.1 && e.1 < 0x182000).map fun e =>
    (List.range 4).filterMap fun k => if bit e.2 (8 * k + 7) then some (e.1 - 0x181000 + k, bits e.2 (8 * k) 5) else none).flatten

def Dev.applyDomains (d : Dev) : Dev :=
  let ds := d.newDomains
  let ns := d.newNodeDoms
  let members := fun (t : Tbl Nat) (i : Nat) => (t.filter fun e => e.2 == i).map fun e => e.1
  let changed := fun (i : Nat) => tget d.coh.domains i != tget ds i || members d.coh.nodeDom i != members ns i
  let lines := (d.coh.dir.filter fun e => e.2.state == 2 && changed e.2.domain).map (·.1)
  let d := { d with coh := { d.coh with domains := ds, nodeDom := ns, sweepLines := lines.foldl nadd d.coh.sweepLines } }
  d.sweepAll

/-- One re-weave epoch, its steps in order (R55). -/
def Dev.reweave (d : Dev) : Dev :=
  let d := d.till d.pool.nextEpoch
  let d := (((d.freeViews.freeSources.addCapacities).startMigrations).sendFilters).applyDomains.shrinkCache.topUpCache.demoteLow (fun _ => false)
  { d with pool := { d.pool with epochs := d.pool.epochs + 1, nextEpoch := d.now + msTicks (d.fld 0x100004 0 4) } }

/-- Epochs follow one another while the device runs. -/
def execReweaveEpoch (s : State) := liftDev (fun d => if d.running then d.reweave else d) s

/-! ## Switch filters (R43) -/

/-- Change a switch's entry. -/
def Dev.setSwitch (d : Dev) (k : Nat) (f : Switch → Switch) : Dev :=
  { d with pool := { d.pool with switches := tmod d.pool.switches k f } }

/-- The switch is marked non-filtering and sent nothing more. -/
def Dev.notFiltering (d : Dev) (k : Nat) (w : Switch) : Dev :=
  (d.setSwitch k fun w => { w with nonFiltering := true }).logOpen 0x0300 192 (origin := w.node)

/-- The answer of switch `k` to the outstanding update of its record `i`, or none. -/
def Dev.filterAnswer (d : Dev) (k i : Nat) (status : Option Nat) : Dev :=
  match tget d.pool.switches k, d.fab.devReqs.find? fun q => q.2.purpose == 1 && q.2.index == k * 64 + i with
  | some w, some (key, _) =>
    let d := d.endReq key
    match status with
    | none =>
      if 3 ≤ w.unanswered + 1 then (d.setSwitch k fun w => { w with unanswered := w.unanswered + 1 }).notFiltering k w
      else d.setSwitch k fun w => { w with unanswered := w.unanswered + 1 }
    | some st =>
      let d := d.setSwitch k fun w => { w with unanswered := 0 }
      if st = stDone then
        d.setSwitch k fun w => { w with recs := w.recs.zipIdx.map fun r => if r.2 = i then { r.1 with pending := false } else r.1 }
      else if st = stUnsupported then d.notFiltering k w
      else d
  | _, _ => d

def execFilterUpdateAnswer (switch record : Nat) (status : Option Nat) (s : State) := liftDev (fun d =>
  d.filterAnswer switch record status) s

end Sys2Proof.Machine
end

