-- ==== Sys2Proof/Machine/Stitch.lean ====
section
/-! DEFINITION. A stitch executing its program (R162 to R184): the instruction word, registers and stores, loops and
branches, faults, and what each class of instruction makes of its stitch. -/

namespace Sys2Proof.Machine

/-! ## The instruction word (R166) -/

/-- The 64-bit word of an instruction (Table 7.1). -/
def stitchWord (cls minor : Nat) (f : StitchFields) : BitVec 64 :=
  BitVec.ofNat 6 cls ++ BitVec.ofNat 6 minor ++ f.dst ++ f.src1 ++ f.src2 ++ f.imm

/-- CLASS, MINOR and the fields of a word. -/
def wordClass (w : BitVec 64) : Nat := (w.extractLsb' 58 6).toNat
def wordMinor (w : BitVec 64) : Nat := (w.extractLsb' 52 6).toNat
def wordFields (w : BitVec 64) : StitchFields :=
  { dst := w.extractLsb' 47 5, src1 := w.extractLsb' 42 5, src2 := w.extractLsb' 37 5, imm := w.extractLsb' 0 37 }

/-- SYNC.HALT (R184). -/
def haltWord : BitVec 64 := 0x1C00000000000000#64

/-- The word a class and minor code make an instruction of: others are ILLEGAL_INSTRUCTION (R167). -/
def definedOp (cls minor : Nat) : Bool :=
  (cls == 0 && minor ≤ 0x09) || (cls == 1 && (minor ≤ 0x0E || (0x20 ≤ minor && minor ≤ 0x2E))) || (cls == 2 && minor ≤ 0x07) ||
  (cls == 3 && minor ≤ 0x04) || (cls == 4 && minor ≤ 0x03) || (cls == 5 && minor ≤ 0x08) || (cls == 6 && minor ≤ 0x20) ||
  (cls == 7 && minor ≤ 0x06)

/-- Fault codes (Table 7.3). -/
abbrev fcInstruction : Nat := 1
abbrev fcOperand : Nat := 2
abbrev fcAddress : Nat := 3
abbrev fcChannel : Nat := 4
abbrev fcBusOrder : Nat := 5
abbrev fcLoopDepth : Nat := 6
abbrev fcWeights : Nat := 7
abbrev fcStoreEcc : Nat := 8

/-! ## Registers and stores (Table 6.1) -/

/-- The instruction word at an address; words not loaded are HALT (R188). -/
def Stitch.word (st : Stitch) (a : Nat) : BitVec 64 := tgetD st.code a haltWord

/-- s[r]; s0 reads zero. -/
def Stitch.s (st : Stitch) (r : BitVec 5) : BitVec 32 := if r = 0#5 then 0#32 else tgetD st.sregs r.toNat 0#32

/-- s[r] written; a write to s0 is discarded. -/
def Stitch.setS (st : Stitch) (r : BitVec 5) (v : BitVec 32) : Stitch :=
  if r = 0#5 then st else { st with sregs := tput st.sregs r.toNat v }

/-- The 32 lanes of v[r]. -/
def Stitch.v (st : Stitch) (r : BitVec 5) : List (BitVec 32) :=
  (List.range 32).map fun i => tgetD st.vregs (32 * r.toNat + i) 0#32

/-- v[r] written whole. -/
def Stitch.setV (st : Stitch) (r : BitVec 5) (l : List (BitVec 32)) : Stitch :=
  { st with vregs := (List.range 32).foldl (fun t i => tput t (32 * r.toNat + i) (l.getD i 0#32)) st.vregs }

/-- Lanes as bytes, little-endian, and back. -/
def lanesBytes (l : List (BitVec 32)) : List Byte := (l.map fun x => natBytes 4 x.toNat).flatten
def bytesLanes (b : List Byte) : List (BitVec 32) := (List.range 32).map fun i => BitVec.ofNat 32 (field b (4 * i) 4)

/-- Data-store bytes. -/
def Stitch.load (st : Stitch) (a n : Nat) : List Byte := (List.range n).map fun i => tgetD st.ds (a + i) 0
def Stitch.store (st : Stitch) (a : Nat) (bs : List Byte) : Stitch :=
  { st with ds := bs.zipIdx.foldl (fun t x => tput t (a + x.2) x.1) st.ds }

/-- A v register field above 7, or a tile field above 3 (R167, R176). -/
def badV (r : BitVec 5) : Bool := 7 < r.toNat
def badA (r : BitVec 5) : Bool := 3 < r.toNat

/-- Element [j][t] of a tile. -/
def Stitch.acc1 (st : Stitch) (tile j t : Nat) : BitVec 32 := tgetD st.acc (1024 * tile + 32 * j + t) 0#32

/-- Column t of a tile written. -/
def Stitch.setCol (st : Stitch) (tile t : Nat) (l : List (BitVec 32)) : Stitch :=
  { st with acc := (List.range 32).foldl (fun m j => tput m (1024 * tile + 32 * j + t) (l.getD j 0#32)) st.acc }

/-! ## Program counter and loops (R163, R169, R170) -/

/-- The address after the instruction at `pc`, and the loops then active: at the end of the innermost loop its body begins
again or the loop ends, loops of one end innermost first. -/
def afterPc (pc : Nat) : List LoopRec → Nat × List LoopRec
  | [] => (pc + 1, [])
  | l :: r =>
    if pc ≠ l.stop then (pc + 1, l :: r)
    else if 0 < l.left then (l.start + 1, { l with left := l.left - 1 } :: r)
    else afterPc pc r

/-- A target lies in a loop's body. -/
def LoopRec.inBody (l : LoopRec) (t : Nat) : Bool := l.start < t && t ≤ l.stop

/-- The loops left active by a branch to `t`: one it leaves ends, with every loop nested inside it. -/
def loopsAt (t : Nat) (loops : List LoopRec) : List LoopRec := (loops.reverse.takeWhile (·.inBody t)).reverse

/-- What an instruction comes to. -/
inductive Ran where
  /-- complete; the next instruction follows -/
  | next (st : Stitch)
  /-- complete; a branch or jump is taken -/
  | jump (st : Stitch) (target : Nat)
  /-- a loop is entered or, with count 0, passed -/
  | loop (st : Stitch) (count stop : Nat)
  | halt (st : Stitch)
  | fault (code : Nat)
  | block (st : Stitch)

/-- A stitch faults (R168): its event, and the end of its job (Table 8.7). -/
def Dev.stitchFault (d : Dev) (id : Nat) (j : Job) (k code addr : Nat) : Dev :=
  let d := d.setStitch k fun s => { s with run := .faulted code addr }
  let d := d.logKnit id j stDeviceError (j.rel k + addr * 2 ^ 13 + code * 2 ^ 24) 0
  d.jobEnd id stDeviceError (0x0200 + code) (addr * 65536 + j.rel k)

/-- Tag an instruction that completes (R433). -/
def Dev.tagStitch (d : Dev) (id : Nat) (j : Job) (k addr : Nat) (w : BitVec 64) : Dev :=
  if !bit (d.reg 0x70000) 30 then d
  else
    let a := d.draw
    if a.1 % 2 ^ d.fld 0x70000 20 5 ≠ 0 then a.2
    else
      let b := a.2.draw
      b.2.sampleEntry { time := d.now, source := 0x04F0, origin := j.owner, code := id, arg0 := j.rel k + addr * 2 ^ 13,
                        arg1 := wordClass w * 2 ^ 58 + wordMinor w * 2 ^ 52 + b.1 % 2 ^ 32 }

/-- A stitch reaches an address: past the store, or at a reserved word, it faults (R167). -/
def Dev.enterPc (d : Dev) (id : Nat) (j : Job) (k : Nat) (st : Stitch) (pc : Nat) (loops : List LoopRec) : Dev :=
  let st := { st with loops := loops, transfers := 0, busWait := false, run := .running }
  if 1023 < pc then (d.setStitch k fun _ => { st with pc := 1023 }).stitchFault id j k fcInstruction 1023
  else
    let d := d.setStitch k fun _ => { st with pc := pc }
    let w := st.word pc
    if definedOp (wordClass w) (wordMinor w) then d else d.stitchFault id j k fcInstruction pc

/-- The instruction completes handshakes of the MAC array or of the shadow path (R139, R151, R152): MAC.STEP, MAC.WLD. -/
def handshakes (w : BitVec 64) : Bool := wordClass w == 5 && (wordMinor w == 1 || wordMinor w == 4)

/-- A job whose stitch has completed such an instruction makes progress. -/
def Dev.handshook (d : Dev) (id : Nat) (w : BitVec 64) : Dev :=
  let d := if handshakes w then d.progress id else d
  if wordClass w = 5 && wordMinor w = 4 then { d with knit := { d.knit with lastMac := some d.now } } else d

/-- Carry out what an instruction at `pc` came to. DESIGN CHOICES (log entry 55), where R170 does not say: a loop of count 0 whose end
address is also that of an enclosing loop goes on as that loop does at its end; a branch or jump taken, or a LOOP entered, at the
end address of an active loop goes to its target without the loop's test. -/
def Dev.ranTo (d : Dev) (id : Nat) (j : Job) (k : Nat) (st : Stitch) (r : Ran) : Dev :=
  let pc := st.pc
  let tag := fun (d : Dev) => d.tagStitch id j k pc (st.word pc)
  let done := fun (d : Dev) => tag (d.handshook id (st.word pc))
  match r with
  | .next s => let n := afterPc pc st.loops; done (d.enterPc id j k s n.1 n.2)
  | .jump s t => done (d.enterPc id j k s t (loopsAt t st.loops))
  | .loop s count stop =>
    if stop ≤ pc then d.stitchFault id j k fcOperand pc
    else if count = 0 then let n := afterPc stop st.loops; done (d.enterPc id j k s n.1 n.2)
    else if 4 ≤ st.loops.length then d.stitchFault id j k fcLoopDepth pc
    else done (d.enterPc id j k s (pc + 1) ({ start := pc, stop := stop, left := count - 1 } :: st.loops))
  | .halt s => tag (d.setStitch k fun _ => { s with run := .halted })
  | .fault code => d.stitchFault id j k code pc
  | .block s => d.setStitch k fun _ => { s with run := .blocked }

/-- The job of a running stitch. -/
def Dev.stitchJob (d : Dev) (k : Nat) : Option (Nat × Job) := (d.jobOfPanel (k / 512)).filter (·.2.stage == 2)

/-- Execute an instruction: where the stitch runs and that word stands at its program counter. -/
def Dev.stitchRun (d : Dev) (k cls minor : Nat) (f : StitchFields) (body : Stitch → Ran) : Dev :=
  match d.stitchJob k with
  | none => d
  | some (id, j) =>
    let st := d.stitch k
    if st.run ≠ .running || st.word st.pc ≠ stitchWord cls minor f then d else d.ranTo id j k st (body st)

/-! ## CTRL (R169, R170) -/

/-- IMM[9:0]. -/
def immTarget (f : StitchFields) : Nat := (f.imm.extractLsb' 0 10).toNat

/-- A branch on a comparison of s[SRC1] and s[SRC2]. -/
def Dev.branch (d : Dev) (k minor : Nat) (f : StitchFields) (c : BitVec 32 → BitVec 32 → Bool) : Dev :=
  d.stitchRun k 0 minor f fun st => if c (st.s f.src1) (st.s f.src2) then .jump st (immTarget f) else .next st

/-! ## SALU (R171) -/

/-- A scalar operation; minor codes from 0x20 take IMM[31:0] as the second operand. -/
def Dev.salu (d : Dev) (k minor : Nat) (f : StitchFields) (op : BitVec 32 → BitVec 32 → BitVec 32) : Dev :=
  d.stitchRun k 1 minor f fun st =>
    .next (st.setS f.dst (op (st.s f.src1) (if minor < 0x20 then st.s f.src2 else f.imm.setWidth 32)))

def shl32 (a b : BitVec 32) : BitVec 32 := a <<< (b.toNat % 32)
def shr32 (a b : BitVec 32) : BitVec 32 := a >>> (b.toNat % 32)
def sra32 (a b : BitVec 32) : BitVec 32 := a.sshiftRight (b.toNat % 32)
def min32 (a b : BitVec 32) : BitVec 32 := if b.slt a then b else a
def max32 (a b : BitVec 32) : BitVec 32 := if a.slt b then b else a
def minu32 (a b : BitVec 32) : BitVec 32 := if b.ult a then b else a
def maxu32 (a b : BitVec 32) : BitVec 32 := if a.ult b then b else a
def slt32 (a b : BitVec 32) : BitVec 32 := truth32 (a.slt b)
def sltu32 (a b : BitVec 32) : BitVec 32 := truth32 (a.ult b)

/-! ## LSL (R172) -/

/-- ea = s[SRC1] + IMM[14:0], modulo 2^32. -/
def Stitch.ea (st : Stitch) (f : StitchFields) : Nat := (st.s f.src1 + (f.imm.extractLsb' 0 15).setWidth 32).toNat

/-- Quarter q in IMM[16:15]. -/
def immQuarter (f : StitchFields) : Nat := (f.imm.extractLsb' 15 2).toNat

/-- A load or store at ea with its alignment; `bad` marks an illegal register field. -/
def Dev.local_ (d : Dev) (k minor : Nat) (f : StitchFields) (align : Nat) (bad : Bool) (op : Stitch → Nat → Stitch) : Dev :=
  d.stitchRun k 2 minor f fun st =>
    if bad then .fault fcOperand
    else if 32768 ≤ st.ea f || st.ea f % align ≠ 0 || 32768 < st.ea f + (if minor = 2 || minor = 3 then 128 else 1) then .fault fcAddress
    else .next (op st (st.ea f))

/-- A quarter of a vector register replaced (R172, R173). -/
def Stitch.setQuarter (st : Stitch) (r : BitVec 5) (q : Nat) (bs : List Byte) : Stitch :=
  st.setV r (bytesLanes (overlay (lanesBytes (st.v r)) (32 * q) (slice bs 0 32)))

/-- A quarter of a vector register. -/
def Stitch.quarter (st : Stitch) (r : BitVec 5) (q : Nat) : List Byte := slice (lanesBytes (st.v r)) (32 * q) 32

/-! ## Weight sets (R176 to R180) -/

/-- A format pair the MAC array supports (Table 6.6). -/
def macPair (w a : Nat) : Bool :=
  [(0, 2), (1, 2), (2, 2), (3, 4), (3, 5), (4, 4), (4, 5), (5, 4), (5, 5), (6, 6)].contains (w, a)

/-- Bytes of a weight row (R178). -/
def rowBytes (wfmt : Nat) : Nat := 4 * fmtBits wfmt

/-- WLD and BWLD: rows [j, j + n) from the bytes of their source; none where the operands are illegal. -/
def WeightSet.loadRows (s : WeightSet) (f : StitchFields) (bs : List Byte) : Option WeightSet :=
  let j := (f.imm.extractLsb' 0 5).toNat
  let n := (f.imm.extractLsb' 5 5).toNat + 1
  let b := rowBytes s.wfmt
  if 128 / b < n || 32 < j + n then none
  else
    some ((List.range n).foldl (fun s i => { s with rows := tput s.rows (j + i) (field bs (b * i) b), mask := nadd s.mask (j + i) }) s)

/-- The shadow set is complete (R179). -/
def WeightSet.complete (s : WeightSet) : Bool :=
  (List.range 32).all (nmem s.mask) && (!fmtScaled s.wfmt || s.scaleLoaded)

/-- W[j][i]. -/
def WeightSet.weight (s : WeightSet) (j i : Nat) : Nat := element (tgetD s.rows j 0) (fmtBits s.wfmt) i

/-- The pair accumulates integers (Table 6.6). -/
def macInt (w a : Nat) : Bool := (w == 1 || w == 2) && a == 2

/-- The value of an element code as an integer. -/
def fmtInt (f c : Nat) : Int := twos (fmtBits f) c

/-- One output of a MAC step (R153, R154): the new accumulator element, and whether it saturated. -/
def WeightSet.macRow (s : WeightSet) (x : Nat) (sx j : Nat) (a : BitVec 32) : BitVec 32 × Bool :=
  let idx := List.range 32
  let xe := fun i => element x (fmtBits s.afmt) i
  if macInt s.wfmt s.afmt then
    sat32 (a.toInt + (idx.map fun i => fmtInt s.wfmt (s.weight j i) * fmtInt s.afmt (xe i)).foldl (· + ·) 0)
  else
    let sw := if fmtScaled s.wfmt then scaleOf (s.scales.getD j 127) else scaleOf 127
    let sa := if fmtScaled s.afmt then scaleOf sx else scaleOf 127
    -- a product of integers has no −0 (Table 6.7)
    let prod := fun (w x : Num) => if s.wfmt ≤ 2 && s.afmt ≤ 2 && (w.mul x).isZero then .fin false 0 0 else w.mul x
    let ps := idx.map fun i => ((prod (ofFmt s.wfmt (s.weight j i)) (ofFmt s.afmt (xe i))).mul sw).mul sa
    (toF32 (ps.foldl Num.add (ofF32 a)), false)

/-- A MAC step into column t of a tile (R151, R180). -/
def Stitch.macStep (st : Stitch) (f : StitchFields) : Stitch :=
  let tile := f.dst.toNat
  let t := (f.imm.extractLsb' 0 5).toNat
  let x := field (lanesBytes (st.v f.src1)) 0 (4 * fmtBits st.active.afmt)
  let sx := ((st.s f.src2).extractLsb' 0 8).toNat
  let outs := (List.range 32).map fun j => st.active.macRow x sx j (st.acc1 tile j t)
  let st := st.setCol tile t (outs.map (·.1))
  if outs.any (·.2) then { st with sat := satSet st.sat tile } else st

/-! ## VEC (R181 to R183) -/

/-- A vector operation with the sources it reads: `useB` whether v[SRC2] is one. -/
def Dev.vec (d : Dev) (k minor : Nat) (f : StitchFields) (useB : Bool)
    (op : List (BitVec 32) → List (BitVec 32) → List (BitVec 32) → List (BitVec 32)) : Dev :=
  d.stitchRun k 6 minor f fun st =>
    if badV f.dst || badV f.src1 || (useB && badV f.src2) then .fault fcOperand
    else .next (st.setV f.dst (op (st.v f.dst) (st.v f.src1) (st.v f.src2)))

/-- Lane by lane on a and b. -/
def Dev.vec2 (d : Dev) (k minor : Nat) (f : StitchFields) (op : BitVec 32 → BitVec 32 → BitVec 32) : Dev :=
  d.vec k minor f true fun _ a b => (a.zip b).map fun p => op p.1 p.2

/-- Lane by lane on a. -/
def Dev.vec1 (d : Dev) (k minor : Nat) (f : StitchFields) (op : BitVec 32 → BitVec 32) : Dev :=
  d.vec k minor f false fun _ a _ => a.map op

/-- Lane by lane on v[DST], a and b. -/
def zip3 (c a b : List (BitVec 32)) (op : BitVec 32 → BitVec 32 → BitVec 32 → BitVec 32) : List (BitVec 32) :=
  ((c.zip a).zip b).map fun p => op p.1.1 p.1.2 p.2

/-- Shift count or lane IMM[4:0]. -/
def immLane (f : StitchFields) : Nat := (f.imm.extractLsb' 0 5).toNat

/-- A reduction of a's lanes to s[DST]. -/
def Dev.vecReduce (d : Dev) (k minor : Nat) (f : StitchFields) (op : List (BitVec 32) → BitVec 32) : Dev :=
  d.stitchRun k 6 minor f fun st => if badV f.src1 then .fault fcOperand else .next (st.setS f.dst (op (st.v f.src1)))

/-- The sums of neighbouring lanes. -/
def pairSums : List (BitVec 32) → List (BitVec 32)
  | a :: b :: r => fadd a b :: pairSums r
  | l => l

/-- FSUM: five levels of pairs (R182). -/
def fsumTree (l : List (BitVec 32)) : BitVec 32 := (pairSums (pairSums (pairSums (pairSums (pairSums l))))).headD 0#32

/-- FMT and RND of a conversion. -/
def immFmt (f : StitchFields) : Nat := (f.imm.extractLsb' 0 4).toNat
def immRnd (f : StitchFields) : Nat := (f.imm.extractLsb' 4 2).toNat

/-- A packed number as the low bytes of a vector, the rest zero. -/
def packedLanes (n : Nat) : List (BitVec 32) := bytesLanes (natBytes 128 n)

/-- CVT (R155). -/
def Stitch.cvt (st : Stitch) (f : StitchFields) : Stitch :=
  let fmt := immFmt f
  let rs := rndSeq (immRnd f) st.lfsr 32
  let cs := ((st.v f.src1).zip rs.1).map fun p => toFmt fmt p.2 (ofF32 p.1)
  let st := st.setV f.dst (packedLanes (pack (fmtBits fmt) (cs.map (·.1))))
  { st with lfsr := rs.2, nanLost := st.nanLost || cs.any (·.2) }

/-- UNPK. -/
def Stitch.unpk (st : Stitch) (f : StitchFields) : Stitch :=
  let fmt := immFmt f
  let n := leNat (lanesBytes (st.v f.src1))
  let sc := if fmtScaled fmt then scaleOf ((st.s f.src2).extractLsb' 0 8).toNat else scaleOf 127
  st.setV f.dst ((List.range 32).map fun i => toF32 ((ofFmt fmt (element n (fmtBits fmt) i)).mul sc))

/-- QBLK (R156): its codes to v[DST], its scale code to s[IMM[10:6]]. -/
def Stitch.qblk (st : Stitch) (f : StitchFields) : Stitch :=
  let fmt := immFmt f
  let rs := rndSeq (immRnd f) st.lfsr 32
  let q := quantBlock fmt (((st.v f.src1).map ofF32).zip rs.1)
  let st := (st.setV f.dst (packedLanes (pack (fmtBits fmt) q.1))).setS (f.imm.extractLsb' 6 5) (BitVec.ofNat 32 q.2.1)
  { st with lfsr := rs.2, nanLost := st.nanLost || q.2.2 }

/-- A conversion with its legal formats. -/
def Dev.vecConv (d : Dev) (k minor : Nat) (f : StitchFields) (legal : Nat → Bool) (rnd : Bool) (op : Stitch → Stitch) : Dev :=
  d.stitchRun k 6 minor f fun st =>
    if badV f.dst || badV f.src1 || !legal (immFmt f) || (rnd && immRnd f == 3) then .fault fcOperand else .next (op st)

/-- The noise register loaded with a value, or with 0x8000_0001 for zero (R157, R184). -/
def seedReg (v : BitVec 32) : BitVec 32 := if v = 0#32 then 0x80000001#32 else v

end Sys2Proof.Machine
end

