-- ==== Sys2Proof/Machine/Array.lean ====
section
/-! DEFINITION. Transfers inside the array and with the stacks: neighbour channels (R137, R173), course buses (R140, R174,
R175), stream ports (R141 to R147) and the blocked stitches that wait on them (Table 7.9). -/

namespace Sys2Proof.Machine

/-! ## Neighbour channels -/

/-- The stitch beside one in a direction: 0 north, 1 east, 2 south, 3 west (R137, R138). -/
def neighbour (k dir : Nat) : Option Nat :=
  if dir = 0 then if 64 ≤ k then some (k - 64) else none
  else if dir = 1 then if k % 64 < 63 then some (k + 1) else none
  else if dir = 2 then if k + 64 < 8192 then some (k + 64) else none
  else if 0 < k % 64 then some (k - 1) else none

/-- Key of an outbound channel. -/
def chanKey (k dir : Nat) : Nat := 4 * k + dir

/-- Key of an inbound channel: the neighbour's outbound one. -/
def inboundKey (k dir : Nat) : Option Nat := (neighbour k dir).map fun n => chanKey n ((dir + 2) % 4)

/-- Entries of a channel, oldest first. -/
def Dev.chan (d : Dev) (key : Nat) : List (List Byte) := tgetD d.knit.channels key []

/-- Change a channel. -/
def Dev.setChan (d : Dev) (key : Nat) (l : List (List Byte)) : Dev :=
  { d with knit := { d.knit with channels := if l.isEmpty then tdel d.knit.channels key else tput d.knit.channels key l } }

/-- What a channel instruction moves next: receive into, or send from, a quarter. -/
structure ChanStep where
  send : Bool
  key : Nat
  quarter : Nat

/-- IMM fields of a CHN instruction (R173). -/
def immDir (f : StitchFields) : Nat := (f.imm.extractLsb' 0 2).toNat
def immQ (f : StitchFields) : Nat := (f.imm.extractLsb' 2 2).toNat
def immN (f : StitchFields) : Nat := (f.imm.extractLsb' 4 2).toNat + 1
def immOdir (f : StitchFields) : Nat := (f.imm.extractLsb' 6 2).toNat

/-- The operands of a CHN instruction are illegal (R167, R173). -/
def chanBad (minor : Nat) (f : StitchFields) : Bool :=
  (minor < 3 && 3 < immQ f + immN f - 1) || (minor == 0 && badV f.src1) || ((minor == 1 || minor == 2) && badV f.dst)

/-- The channels it uses are declared: none where one is absent or not declared. -/
def Dev.chanKeys (d : Dev) (k minor : Nat) (f : StitchFields) : Option (Option Nat × Option Nat) :=
  let outDir := if minor = 2 then immOdir f else immDir f
  let out := if minor = 0 || minor = 2 || minor = 3 then some (chanKey k outDir) else none
  let inb := if minor = 1 || minor = 2 || minor = 4 then some (inboundKey k (immDir f)) else none
  let ok := fun x => nmem d.knit.declared x
  match inb with
  | some none => none
  | some (some i) => if ok i && out.all ok then some (some i, out) else none
  | none => if out.all ok then some (none, out) else none

/-- The transfers of a CHN instruction, in order. -/
def chanSteps (minor : Nat) (f : StitchFields) (inb out : Option Nat) : List ChanStep :=
  let n := if minor < 3 then immN f else 1
  let rx := fun i => (inb.map fun key => ({ send := false, key := key, quarter := immQ f + i } : ChanStep)).toList
  let tx := fun i => (out.map fun key => ({ send := true, key := key, quarter := immQ f + i } : ChanStep)).toList
  ((List.range n).map fun i => rx i ++ tx i).flatten

/-- Carry out the transfers from the first not yet made on; each takes effect as it completes (R163). -/
def Dev.chanGo (d : Dev) (id k minor : Nat) (f : StitchFields) : List ChanStep → Dev × Bool
  | [] => (d, true)
  | x :: r =>
    let st := d.stitch k
    let q := d.chan x.key
    if x.send then
      if 4 ≤ q.length then (d, false)
      else
        let bs := if minor = 3 then natBytes 4 (st.s f.src1).toNat ++ zeros 28
          else st.quarter (if minor = 2 then f.dst else f.src1) x.quarter
        (((d.setChan x.key (q ++ [bs])).setStitch k fun s => { s with transfers := s.transfers + 1 }).progress id).chanGo id k minor f r
    else
      match q with
      | [] => (d, false)
      | bs :: rest =>
        let take := fun (s : Stitch) =>
          let s := if minor = 4 then s.setS f.dst (BitVec.ofNat 32 (field bs 0 4)) else s.setQuarter f.dst x.quarter bs
          { s with transfers := s.transfers + 1 }
        (((d.setChan x.key rest).setStitch k take).progress id).chanGo id k minor f r

/-- A CHN instruction of a stitch, begun or resumed. -/
def Dev.chanRun (d : Dev) (id : Nat) (j : Job) (k minor : Nat) (f : StitchFields) : Dev :=
  let st := d.stitch k
  if chanBad minor f then d.ranTo id j k st (.fault fcOperand)
  else
    match d.chanKeys k minor f with
    | none => d.ranTo id j k st (.fault fcChannel)
    | some (inb, out) =>
      let r := d.chanGo id k minor f ((chanSteps minor f inb out).drop st.transfers)
      let s := r.1.stitch k
      r.1.ranTo id j k s (if r.2 then .next s else .block s)

/-- Run an instruction that reaches beyond its stitch, where it stands at the program counter. -/
def Dev.stitchReach (d : Dev) (k cls minor : Nat) (f : StitchFields) (go : Nat → Job → Dev → Dev) : Dev :=
  match d.stitchJob k with
  | none => d
  | some (id, j) =>
    let st := d.stitch k
    if st.run ≠ .running || st.word st.pc ≠ stitchWord cls minor f then d else go id j d

/-- A channel instruction. -/
def Dev.chn (d : Dev) (k minor : Nat) (f : StitchFields) : Dev := d.stitchReach k 3 minor f fun id j d => d.chanRun id j k minor f

/-- SYNC.DRAIN: every entry the stitch wrote has been read (R184). -/
def Dev.drainRun (d : Dev) (id : Nat) (j : Job) (k : Nat) : Dev :=
  let st := d.stitch k
  d.ranTo id j k st (if (List.range 4).all fun dir => (d.chan (chanKey k dir)).isEmpty then .next st else .block st)

/-- A blocked stitch goes on: a channel transfer that can now be made, or a drain that is over (R163, Table 7.9). A bus
instruction goes on with its slot. -/
def Dev.resume (d : Dev) (k : Nat) : Dev :=
  match d.stitchJob k with
  | none => d
  | some (id, j) =>
    let st := d.stitch k
    let w := st.word st.pc
    if st.run ≠ .blocked then d
    else if wordClass w = 3 then d.chanRun id j k (wordMinor w) (wordFields w)
    else if wordClass w = 7 && wordMinor w = 4 then d.drainRun id j k
    else d

/-! ## Course buses -/

/-- A bus by array row 8p + c. -/
def Dev.bus (d : Dev) (row : Nat) : Bus := tgetD d.knit.buses row {}

/-- The bus participations of position `pos`, in slot order: the slot and whether it writes (R174). -/
def Bus.parts (b : Bus) (pos : Nat) : List (Nat × Bool) :=
  (b.slots.zipIdx.filter fun x => x.1.writer == pos || nmem x.1.readers pos).map fun x => (x.2, x.1.writer == pos)

/-- The next participation of a stitch. -/
def Dev.nextPart (d : Dev) (k : Nat) : Option (Nat × Bool) :=
  let ps := (d.bus (k / 64)).parts (k % 64)
  ps[(d.stitch k).busNext % (max 1 ps.length)]?

/-- An STR instruction: it must match the next participation, and waits for its slot (R174). -/
def Dev.strRun (d : Dev) (k minor : Nat) (f : StitchFields) : Dev :=
  d.stitchReach k 4 minor f fun id j d =>
    let st := d.stitch k
    let bad := (minor = 0 && badV f.src1) || (minor = 1 && badV f.dst) || (minor = 2 && (st.shadow.loadRows f (zeros 128)).isNone)
    if bad then d.ranTo id j k st (.fault fcOperand)
    else
      match d.nextPart k with
      | none => d.ranTo id j k st (.fault fcBusOrder)
      | some (_, writes) =>
        if writes ≠ decide (minor = 0) then d.ranTo id j k st (.fault fcBusOrder)
        else d.setStitch k fun s => { s with busWait := true, run := .blocked }

/-! ## Stream ports -/

/-- The address and ATTR of a job virtual address under its context. -/
def Dev.translate (d : Dev) (j : Job) (v : Nat) : Option (Nat × Nat) :=
  match d.ctx j.ctx with
  | none => none
  | some c => (c.slots.find? fun e => e.2.vbase ≤ v && v < e.2.vbase + e.2.length).map fun e => (e.2.poolBase + (v - e.2.vbase), e.2.attr)

/-- Lines a transfer covers, all repetitions. -/
def Transfer.total (t : Transfer) : Nat := t.lines * (t.repeats + 1)

/-- The virtual address of line `i` a transfer covers (R191). -/
def Transfer.vline (t : Transfer) (i : Nat) : Nat :=
  ((t.vaddr : Int) + ((i / t.lines : Nat) : Int) * t.stride + 64 * ((i % t.lines : Nat) : Int)).toNat

/-- The stack a pool line lies on (R326, R327). -/
def Dev.lineStack (d : Dev) (line : Nat) : Nat := (d.place (line / 2 ^ 19) 0 (line % 2 ^ 19)).1

/-- The first line from number `i` on that a transfer places on stack `s`: its number, pool address and ATTR. -/
def Dev.nextLine (d : Dev) (j : Job) (t : Transfer) (s i : Nat) : Nat → Option (Nat × Nat × Nat)
  | 0 => none
  | n + 1 =>
    if t.total ≤ i then none
    else
      match d.translate j (t.vline i) with
      | none => d.nextLine j t s (i + 1) n
      | some (a, attr) => if d.lineStack (a / 64) = s then some (i, a, attr) else d.nextLine j t s (i + 1) n

/-- The next line of a transfer on the port's stack. -/
def Dev.portLine (d : Dev) (j : Job) (n : Nat) (t : Transfer) (i : Nat) : Option (Nat × Nat × Nat) :=
  d.nextLine j t (n / 16) i (t.total - i)

/-- The transfer the bus consumes or fills, with its next line; transfers without one are over. -/
def Dev.busAt (d : Dev) (j : Job) (n : Nat) (q : StreamPort) : Nat → Option (Nat × Transfer × Nat × Nat × Nat)
  | 0 => none
  | fuel + 1 =>
    match q.list[q.busXfer]? with
    | none => none
    | some t =>
      match d.portLine j n t q.busLine with
      | some x => some (q.busXfer, t, x)
      | none => d.busAt j n { q with busXfer := q.busXfer + 1, busLine := 0 } fuel

/-- The bus side of a port. -/
def Dev.portBus (d : Dev) (j : Job) (n : Nat) : Option (Nat × Transfer × Nat × Nat × Nat) :=
  let q := d.sport n
  d.busAt j n q (q.list.length + 1)

/-- The port has finished its transfer list and its writes (R165). -/
def Dev.portDone (d : Dev) (j : Job) (n : Nat) : Bool := (d.portBus j n).isNone && (d.sport n).writes.isEmpty

/-- Data of the line numbered `i` of transfer `x` in the FIFO. -/
def StreamPort.have (q : StreamPort) (x i : Nat) : Option (List Byte) :=
  (q.reads.find? fun l => l.xfer == x && l.idx == i).bind (·.data)

/-- The urgency level of a port (Table 6.3). -/
def Dev.urgency (d : Dev) (j : Job) (n : Nat) : Nat :=
  let q := d.sport n
  let p := n % 16
  let me := 64 + n / 16
  let cur := d.portBus j n
  let noLine := match cur with
    | some (x, _, i, _, _) => (q.have x i).isNone
    | none => true
  let slots := (List.range 8).filterMap fun c => let b := d.bus (8 * p + c); b.slots[b.token]?
  let waiting := slots.any fun s => (s.writer == me && noLine) || (nmem s.readers me && 256 ≤ q.writes.length)
  if waiting then 2
  else
    let stored := (q.reads.filter (·.data.isSome)).length
    let free := 256 - q.writes.length
    if (cur.isSome || !q.writes.isEmpty) && (stored < 16 * d.fld 0x200004 0 6 || free < 16 * d.fld 0x200004 16 4) then 1 else 0

/-- Renew the urgency level of a port, counting entries into URGENT and PANIC (R146, R147). -/
def Dev.setUrgency (d : Dev) (j : Job) (n : Nat) : Dev :=
  let l := d.urgency j n
  if l = (d.sport n).level then d
  else
    let d := if l = 2 then d.bump (0x200200 + 4 * n) 16 else if l = 1 then d.bump (0x200200 + 4 * n) 0 else d
    d.setSport n fun q => { q with level := l }

/-- Renew the levels of a panel's ports. -/
def Dev.setUrgencies (d : Dev) (j : Job) (p : Nat) : Dev := forEach (List.range 6) (fun s d => d.setUrgency j (16 * s + p)) d

/-- The near-tier key of a line of a private segment: the frame it was resolved to (R143, R208). -/
def Job.privateKey (j : Job) (a : Nat) : Option Nat :=
  (j.frames.find? (·.1 == a / 2 ^ 25)).map fun e => e.2 * 2 ^ 25 + a % 2 ^ 25

/-- A line that lies on a failed stack and nowhere else (Table 2.14). -/
def Dev.lineLost (d : Dev) (a : Nat) : Bool := (d.stack (d.lineStack (a / 64))).state == 4 && !d.mirrors

/-- Read a line for a port. -/
def Dev.portRead (d : Dev) (j : Job) (n a attr : Nat) : Got × Dev :=
  if attr = 1 then
    match j.privateKey a with
    | none => (.no stPoisoned 0, d)
    | some key =>
      if d.lineLost a then (.no stPoisoned 0, d)
      else if (d.stack (d.dataStack (a / 2 ^ 25) key)).state = 3 then (.again 0, d)
      else
        match (d.access (a / 2 ^ 25) key 0 1 n j.owner a).readLine (a / 2 ^ 25) key a with
        | (some b, d) => (.ok b, d)
        | (none, d) => (.no stPoisoned 0, d)
  else d.lineRead none (a / 64) true true

/-- Write a line for a port: waits where a request would be answered RETRY (R143, R313). -/
def Dev.portWrite (d : Dev) (j : Job) (n a attr : Nat) (bs : List Byte) : Got × Dev :=
  if d.backlogged then (.again 0, d)
  else if attr = 1 then
    match j.privateKey a with
    | none => (.no stPoisoned 0, d)
    | some key =>
      if d.lineLost a then (.no stPoisoned 0, d)
      else if (d.stack (d.dataStack (a / 2 ^ 25) key)).state = 3 then (.again 0, d)
      else
        match (d.access (a / 2 ^ 25) key 1 1 n j.owner a).writeLine (a / 2 ^ 25) key a bs with
        | (true, d) => (.ok [], d.repWriteRun a bs 0 0)
        | (false, d) => (.no stPoisoned 0, d)
  else d.lineWrite none a bs true true

/-- The job of a port. -/
def Dev.portJob (d : Dev) (n : Nat) : Option (Nat × Job) := (d.jobOfPanel (n % 16)).filter (·.2.stage == 2)

/-- A poisoned line ends the job (R145): the port's job-relative number and the line's address. -/
def Dev.portPoisoned (d : Dev) (id : Nat) (j : Job) (n a : Nat) : Dev :=
  (d.logKnit id j stPoisoned n a).jobEnd id stPoisoned (6 * j.mask.idxOf (n % 16) + n / 16) a

/-- Write the oldest buffered line (R142). -/
def Dev.portFlush (d : Dev) (id : Nat) (j : Job) (n : Nat) : Dev :=
  match (d.sport n).writes with
  | [] => d
  | w :: rest =>
    let attr := match (d.sport n).list[w.xfer]? with
      | some t => ((d.translate j (t.vline w.idx)).map (·.2)).getD 0
      | none => 0
    match d.portWrite j n w.addr attr (slice (w.data.getD []) 0 64) with
    | (.ok _, d) =>
      (d.setSport n fun q => { q with writes := rest, written := q.written + 1 }).setJob id fun j => { j with lastWrite := d.now, progressAt := d.now }
    | (.again _, d) => d
    | (.no _ _, d) => d.portPoisoned id j n w.addr

/-- Issue the next read: of the transfer in turn, not past a write transfer that is not over (log entry 20). -/
def Dev.portIssue (d : Dev) (j : Job) (n : Nat) : Nat → Dev
  | 0 => d
  | fuel + 1 =>
    let q := d.sport n
    match q.list[q.issueXfer]? with
    | none => d
    | some t =>
      let pass := d.setSport n fun q => { q with issueXfer := q.issueXfer + 1, issueLine := 0 }
      if t.write then
        let past := match d.portBus j n with
          | some (x, _) => q.issueXfer < x
          | none => true
        if past && q.writes.all (q.issueXfer < ·.xfer) then pass.portIssue j n fuel else d
      else
        match d.portLine j n t q.issueLine with
        | none => pass.portIssue j n fuel
        | some (i, a, _) =>
          if 1024 ≤ q.reads.length then d
          else d.setSport n fun q => { q with issueLine := i + 1, reads := q.reads ++ [{ addr := a, xfer := q.issueXfer, idx := i }] }

/-- A port's step at its stack: one buffered write, one read issued (R141, R142). -/
def Dev.portStep (d : Dev) (n : Nat) : Dev :=
  match d.portJob n with
  | none => d
  | some (id, j) =>
    let d := d.portFlush id j n
    if (d.job id).isNone then d else (d.portIssue j n ((d.sport n).list.length + 1)).setUrgency j n

/-- A stack returns a line of the FIFO (R142, R145). -/
def Dev.portReturn (d : Dev) (n i : Nat) : Dev :=
  match d.portJob n, (d.sport n).reads[i]? with
  | some (id, j), some l =>
    if l.data.isSome then d
    else
      let attr := match (d.sport n).list[l.xfer]? with
        | some t => ((d.translate j (t.vline l.idx)).map (·.2)).getD 0
        | none => 0
      match d.portRead j n l.addr attr with
      | (.ok b, d) =>
        ((d.setSport n fun q => { q with reads := q.reads.set i { l with data := some (slice b 0 64) } }).progress id).setUrgency j n
      | (.again _, d) => d
      | (.no _ _, d) => d.portPoisoned id j n l.addr
  | _, _ => d

/-! ## A bus slot's transfer (R140, R174, R175) -/

/-- The 128 bytes a stitch writer drives, once it waits in its BWR. -/
def Dev.stitchDrives (d : Dev) (k : Nat) : Option (List Byte) :=
  let st := d.stitch k
  if st.busWait && st.run = .blocked then some (lanesBytes (st.v (wordFields (st.word st.pc)).src1)) else none

/-- The lines a port's current transfer moves next for a course: at most two. -/
def Dev.portNext (d : Dev) (j : Job) (n course : Nat) (write : Bool) : Option (Nat × List (Nat × Nat)) :=
  match d.portBus j n with
  | none => none
  | some (x, t, i, a, _) =>
    if t.write ≠ write || t.course ≠ course then none
    else
      match d.portLine j n t (i + 1) with
      | some (i', a', _) => some (x, [(i, a), (i', a')])
      | none => some (x, [(i, a)])

/-- The 128 bytes a port writer drives, once its FIFO holds the lines. -/
def Dev.portDrives (d : Dev) (j : Job) (n course : Nat) : Option (Nat × List Nat × List Byte) :=
  match d.portNext j n course false with
  | none => none
  | some (x, ls) =>
    let bs := ls.map fun l => (d.sport n).have x l.1
    if bs.all (·.isSome) then some (x, ls.map (·.1), slice ((bs.filterMap id).flatten) 0 128) else none

/-- A reader is ready to take the slot. -/
def Dev.readerReady (d : Dev) (j : Job) (row r : Nat) : Bool :=
  if r < 64 then let st := d.stitch (64 * row + r); st.busWait && st.run == .blocked
  else
    let n := 16 * (r - 64) + row / 8
    match d.portNext j n (row % 8) true with
    | some (_, ls) => (d.sport n).writes.length + ls.length ≤ 256
    | none => false

/-- A stitch's bus instruction completes. -/
def Dev.strDone (d : Dev) (id : Nat) (j : Job) (k : Nat) (bs : List Byte) : Dev :=
  if (d.job id).isNone then d else
  let st := d.stitch k
  let w := st.word st.pc
  let f := wordFields w
  let s := if wordMinor w = 1 then st.setV f.dst (bytesLanes bs)
    else if wordMinor w = 2 then { st with shadow := (st.shadow.loadRows f bs).getD st.shadow }
    else st
  d.ranTo id j k st (.next { s with busNext := s.busNext + 1, busWait := false })

/-- A port takes the slot's bytes into its write buffer, or has delivered its lines. -/
def Dev.portTakes (d : Dev) (j : Job) (n course : Nat) (bs : List Byte) : Dev :=
  match d.portNext j n course true with
  | none => d
  | some (x, ls) =>
    let new : List PortLine := ls.zipIdx.map fun l => { addr := l.1.2, xfer := x, idx := l.1.1, data := some (slice bs (64 * l.2) 64) }
    d.setSport n fun q => { q with writes := q.writes ++ new, busXfer := x, busLine := (ls.getLast?.map (·.1)).getD 0 + 1 }

def Dev.portGave (d : Dev) (n x : Nat) (is : List Nat) : Dev :=
  d.setSport n fun q => { q with reads := q.reads.filter fun l => l.xfer != x || !nmem is l.idx,
                                 busXfer := x, busLine := is.getLast?.getD 0 + 1 }

/-- The slot that holds the token transfers, when its writer drives it and every reader can take it. -/
def Dev.busSlot (d : Dev) (row : Nat) : Dev :=
  match (d.jobOfPanel (row / 8)).filter (·.2.stage == 2) with
  | none => d
  | some (id, j) =>
    let b := d.bus row
    match b.slots[b.token]? with
    | none => d
    | some s =>
      let port := 16 * (s.writer - 64) + row / 8
      let drive := if s.writer < 64 then (d.stitchDrives (64 * row + s.writer)).map fun x => (0, [], x)
        else d.portDrives j port (row % 8)
      match drive with
      | none => d
      | some (x, is, bs) =>
        if !s.readers.all (d.readerReady j row) then d
        else
          let d := { d with knit := { d.knit with buses := tput d.knit.buses row { b with token := (b.token + 1) % b.slots.length } } }
          let d := d.progress id
          let d := if s.writer < 64 then d.strDone id j (64 * row + s.writer) bs else d.portGave port x is
          let d := forEach s.readers (fun r d =>
            if r < 64 then d.strDone id j (64 * row + r) bs else d.portTakes j (16 * (r - 64) + row / 8) (row % 8) bs) d
          if (d.job id).isNone then d else d.setUrgencies j (row / 8)

end Sys2Proof.Machine
end

