-- ==== Sys2Proof/Machine/Sha256.lean ====
section
/-! DEFINITION. SHA-256, which the DIGEST of a KNT1 image uses (R187). -/

namespace Sys2Proof.Machine

/-- The round constants. -/
def shaK : List (BitVec 32) :=
  [0x428A2F98#32, 0x71374491#32, 0xB5C0FBCF#32, 0xE9B5DBA5#32, 0x3956C25B#32, 0x59F111F1#32, 0x923F82A4#32, 0xAB1C5ED5#32,
   0xD807AA98#32, 0x12835B01#32, 0x243185BE#32, 0x550C7DC3#32, 0x72BE5D74#32, 0x80DEB1FE#32, 0x9BDC06A7#32, 0xC19BF174#32,
   0xE49B69C1#32, 0xEFBE4786#32, 0x0FC19DC6#32, 0x240CA1CC#32, 0x2DE92C6F#32, 0x4A7484AA#32, 0x5CB0A9DC#32, 0x76F988DA#32,
   0x983E5152#32, 0xA831C66D#32, 0xB00327C8#32, 0xBF597FC7#32, 0xC6E00BF3#32, 0xD5A79147#32, 0x06CA6351#32, 0x14292967#32,
   0x27B70A85#32, 0x2E1B2138#32, 0x4D2C6DFC#32, 0x53380D13#32, 0x650A7354#32, 0x766A0ABB#32, 0x81C2C92E#32, 0x92722C85#32,
   0xA2BFE8A1#32, 0xA81A664B#32, 0xC24B8B70#32, 0xC76C51A3#32, 0xD192E819#32, 0xD6990624#32, 0xF40E3585#32, 0x106AA070#32,
   0x19A4C116#32, 0x1E376C08#32, 0x2748774C#32, 0x34B0BCB5#32, 0x391C0CB3#32, 0x4ED8AA4A#32, 0x5B9CCA4F#32, 0x682E6FF3#32,
   0x748F82EE#32, 0x78A5636F#32, 0x84C87814#32, 0x8CC70208#32, 0x90BEFFFA#32, 0xA4506CEB#32, 0xBEF9A3F7#32, 0xC67178F2#32]

/-- The initial hash value. -/
def shaInit : List (BitVec 32) :=
  [0x6A09E667#32, 0xBB67AE85#32, 0x3C6EF372#32, 0xA54FF53A#32, 0x510E527F#32, 0x9B05688C#32, 0x1F83D9AB#32, 0x5BE0CD19#32]

/-- A big-endian 32-bit word of four bytes. -/
def shaWord (l : List Byte) : BitVec 32 := BitVec.ofNat 32 (l.foldl (fun v b => 256 * v + b.toNat) 0)

/-- A byte run cut into pieces of `k` bytes, at most `n` of them. -/
def shaCut (k : Nat) : Nat → List Byte → List (List Byte)
  | 0, _ => []
  | n + 1, l => if l.isEmpty then [] else l.take k :: shaCut k n (l.drop k)

/-- The padded message: 0x80, zeros, and the length in bits as 64 big-endian bits. -/
def shaPad (l : List Byte) : List Byte :=
  let n := l.length
  l ++ [0x80#8] ++ List.replicate ((119 - n % 64) % 64) 0#8 ++
    ((List.range 8).map fun i => BitVec.ofNat 8 (8 * n / 256 ^ (7 - i)))

/-- Extend the message schedule by one word: the last 16 words, newest first, give the next. -/
def shaNext (w : List (BitVec 32)) : BitVec 32 :=
  let x := w.getD 14 0#32
  let y := w.getD 1 0#32
  let s0 := x.rotateRight 7 ^^^ x.rotateRight 18 ^^^ (x >>> 3)
  let s1 := y.rotateRight 17 ^^^ y.rotateRight 19 ^^^ (y >>> 10)
  w.getD 15 0#32 + s0 + w.getD 6 0#32 + s1

/-- The 64 schedule words, newest first. -/
def shaSchedule (block : List Byte) : List (BitVec 32) :=
  (List.range 48).foldl (fun w _ => shaNext w :: w) (((shaCut 4 16 block).map shaWord).reverse)

/-- The working variables a to h. -/
structure ShaVars where
  (a b c d e f g h : BitVec 32)

/-- One round with a schedule word and a round constant. -/
def shaRound (v : ShaVars) (w k : BitVec 32) : ShaVars :=
  let s1 := v.e.rotateRight 6 ^^^ v.e.rotateRight 11 ^^^ v.e.rotateRight 25
  let ch := (v.e &&& v.f) ^^^ (~~~v.e &&& v.g)
  let t1 := v.h + s1 + ch + k + w
  let s0 := v.a.rotateRight 2 ^^^ v.a.rotateRight 13 ^^^ v.a.rotateRight 22
  let maj := (v.a &&& v.b) ^^^ (v.a &&& v.c) ^^^ (v.b &&& v.c)
  { a := t1 + (s0 + maj), b := v.a, c := v.b, d := v.c, e := v.d + t1, f := v.e, g := v.f, h := v.g }

/-- The compression of one block. -/
def shaBlock (h : List (BitVec 32)) (block : List Byte) : List (BitVec 32) :=
  let x := fun i => h.getD i 0#32
  let v : ShaVars := { a := x 0, b := x 1, c := x 2, d := x 3, e := x 4, f := x 5, g := x 6, h := x 7 }
  let r := ((shaSchedule block).reverse.zip shaK).foldl (fun v p => shaRound v p.1 p.2) v
  [x 0 + r.a, x 1 + r.b, x 2 + r.c, x 3 + r.d, x 4 + r.e, x 5 + r.f, x 6 + r.g, x 7 + r.h]

/-- The SHA-256 digest of a byte run: 32 bytes. -/
def sha256 (l : List Byte) : List Byte :=
  let p := shaPad l
  let h := (shaCut 64 (p.length / 64) p).foldl shaBlock shaInit
  (h.map fun x => (List.range 4).map fun i => BitVec.ofNat 8 (x.toNat / 256 ^ (3 - i))).flatten

end Sys2Proof.Machine
end

