-- ==== Sys2Proof/Machine/Crypto.lean ====
section
/-! DEFINITION. The cryptographic functions the spec names by their standards and whose keys the model can hold (log entry 7): HMAC and
HKDF over SHA-256 (RFC 2104, RFC 5869; R287, R371), AES-256 and its Galois/counter mode (FIPS 197, SP 800-38D; R288, R372), and the
verification of HSS signatures (RFC 8554; R194, R363). -/

namespace Sys2Proof.Machine

/-- The bytes of an ASCII text. -/
def ascii (t : String) : List Byte := t.toList.map fun c => BitVec.ofNat 8 c.toNat

/-- The `n` big-endian bytes of a number, and the number of a big-endian run. -/
def beBytes (n v : Nat) : List Byte := (natBytes n v).reverse
def beNat (l : List Byte) : Nat := leNat l.reverse

/-- Two runs combined by exclusive or, as long as the first. -/
def maskBytes (a b : List Byte) : List Byte := a.zipIdx.map fun e => e.1 ^^^ b.getD e.2 0

/-! ## HMAC and HKDF -/

/-- HMAC-SHA-256. -/
def hmac (key msg : List Byte) : List Byte :=
  let k := slice (if 64 < key.length then sha256 key else key) 0 64
  sha256 (k.map (· ^^^ 0x5C) ++ sha256 (k.map (· ^^^ 0x36) ++ msg))

/-- HKDF-SHA-256 with an output of 32 bytes (R371). -/
def hkdf (ikm salt info : List Byte) : List Byte := hmac (hmac salt ikm) (info ++ [1])

/-- The two 32-byte keys that HKDF-SHA-256 with an output of 64 bytes gives (R287). -/
def hkdfPair (ikm salt info : List Byte) : List Byte × List Byte :=
  let prk := hmac salt ikm
  let first := hmac prk (info ++ [1])
  (first, hmac prk (first ++ info ++ [2]))

/-! ## AES-256 -/

/-- Multiplication by x, and multiplication, in the field of AES. -/
def aesTwice (b : Byte) : Byte := (b <<< 1) ^^^ (if b.msb then 0x1B else 0)
def aesMul (a b : Byte) : Byte :=
  ((List.range 8).foldl (fun (r : Byte × Byte) i => (if b.getLsbD i then r.1 ^^^ r.2 else r.1, aesTwice r.2)) (0, a)).1

/-- The inverse as the 254th power, and the S-box. -/
def aesInv (b : Byte) : Byte :=
  ((List.range 7).foldl (fun (r : Byte × Byte) _ => let s := aesMul r.2 r.2; (aesMul r.1 s, s)) (1, b)).1
def aesSub (b : Byte) : Byte :=
  let x := aesInv b
  x ^^^ x.rotateLeft 1 ^^^ x.rotateLeft 2 ^^^ x.rotateLeft 3 ^^^ x.rotateLeft 4 ^^^ 0x63

/-- The next word of the key schedule, from the eight before it, oldest first. -/
def aesWord (i : Nat) (w : List (List Byte)) : List Byte :=
  let t := w.getD 7 []
  let t :=
    if i % 8 = 0 then maskBytes ((t.drop 1 ++ t.take 1).map aesSub) [(List.range (i / 8 - 1)).foldl (fun b _ => aesTwice b) 1]
    else if i % 8 = 4 then t.map aesSub else t
  maskBytes (w.getD 0 []) t

/-- The fifteen round keys of a 32-byte key. -/
def aesKeys (key : List Byte) : List (List Byte) :=
  let first := (List.range 8).map fun i => slice key (4 * i) 4
  let words := (List.range 52).foldl (fun (w : List (List Byte)) i => w ++ [aesWord (i + 8) (w.drop i)]) first
  (List.range 15).map fun i => ((words.drop (4 * i)).take 4).flatten

/-- SubBytes and ShiftRows of a 16-byte state, and MixColumns of one. -/
def aesShift (s : List Byte) : List Byte := (List.range 16).map fun k => aesSub (s.getD ((k + 4 * (k % 4)) % 16) 0)
def aesMix (s : List Byte) : List Byte :=
  (List.range 16).map fun k =>
    let x := fun i => s.getD (4 * (k / 4) + (k + i) % 4) 0
    aesTwice (x 0) ^^^ aesTwice (x 1) ^^^ x 1 ^^^ x 2 ^^^ x 3

/-- One block enciphered with its round keys. -/
def aesBlock (keys : List (List Byte)) (b : List Byte) : List Byte :=
  let s := (List.range 13).foldl (fun s i => maskBytes (aesMix (aesShift s)) (keys.getD (i + 1) [])) (maskBytes b (keys.getD 0 []))
  maskBytes (aesShift s) (keys.getD 14 [])

/-! ## Galois/counter mode -/

/-- A product in GF(2^128), its elements as 128-bit numbers with the first bit highest. -/
def gcmMul (x y : Nat) : Nat :=
  ((List.range 128).foldl (fun (r : Nat × Nat) i =>
    (if x / 2 ^ (127 - i) % 2 = 1 then Nat.xor r.1 r.2 else r.1,
     if r.2 % 2 = 1 then Nat.xor (r.2 / 2) (0xE1 * 2 ^ 120) else r.2 / 2)) (0, y)).1

/-- The hash of a run of bytes from a value, in blocks of 16 bytes. -/
def gcmHash (h : Nat) (y : Nat) (l : List Byte) : Nat :=
  (List.range ((l.length + 15) / 16)).foldl (fun y i => gcmMul (Nat.xor y (beNat (slice l (16 * i) 16))) h) y

/-- Counter block `n` of a 12-byte IV. -/
def gcmCounter (iv : List Byte) (n : Nat) : List Byte := slice iv 0 12 ++ beBytes 4 n

/-- Encipher or decipher a run that starts `skip` bytes into its operation. -/
def gcmStream (key iv : List Byte) (skip : Nat) (text : List Byte) : List Byte :=
  let keys := aesKeys key
  let blocks := (List.range (text.length / 16 + 2)).flatMap fun i => aesBlock keys (gcmCounter iv (2 + skip / 16 + i))
  maskBytes text (blocks.drop (skip % 16))

/-- The tag of a ciphertext and its additional data. -/
def gcmTag (key iv aad ct : List Byte) : List Byte :=
  let keys := aesKeys key
  let h := beNat (aesBlock keys (zeros 16))
  let y := gcmHash h (gcmHash h 0 aad) ct
  maskBytes (beBytes 16 (gcmMul (Nat.xor y (8 * aad.length * 2 ^ 64 + 8 * ct.length)) h)) (aesBlock keys (gcmCounter iv 1))

/-- Decrypt a ciphertext with its tag, none where the tag does not verify. -/
def gcmOpen (key iv aad ct tag : List Byte) : Option (List Byte) :=
  if gcmTag key iv aad ct = tag then some (gcmStream key iv 0 ct) else none

/-! ## HSS signatures (R363) -/

/-- Width, chain count and checksum shift of an LM-OTS type code: SHA-256, N32, W1 to W8. -/
def otsParams (t : Nat) : Option (Nat × Nat × Nat) :=
  if t = 1 then some (1, 265, 7) else if t = 2 then some (2, 133, 6) else if t = 3 then some (4, 67, 4)
  else if t = 4 then some (8, 34, 0) else none

/-- Height of an LMS type code: SHA-256, M32, heights 5 to 25. -/
def lmsHeight (t : Nat) : Option Nat := if 5 ≤ t && t ≤ 9 then some (5 * (t - 4)) else none

/-- The length of an LMS signature under the type codes of a 56-byte LMS public key. -/
def lmsLen (pub : List Byte) : Option Nat :=
  match lmsHeight (beNat (slice pub 0 4)), otsParams (beNat (slice pub 4 4)) with
  | some h, some o => some (12 + 32 * (o.2.1 + 1) + 32 * h)
  | _, _ => none

/-- Digit `i` of a run in digits of `w` bits. -/
def otsDigit (s : List Byte) (w i : Nat) : Nat :=
  (s.getD (i * w / 8) 0).toNat / 2 ^ (8 - w - w * (i % (8 / w))) % 2 ^ w

/-- The public key an LM-OTS signature of a message leads to. -/
def otsPublic (id : List Byte) (q : Nat) (o : Nat × Nat × Nat) (msg sig : List Byte) : List Byte :=
  let w := o.1
  let pre := id ++ beBytes 4 q
  let h := sha256 (pre ++ beBytes 2 0x8181 ++ slice sig 4 32 ++ msg)
  let sum := ((List.range (256 / w)).map fun i => 2 ^ w - 1 - otsDigit h w i).sum
  let s := h ++ beBytes 2 (sum * 2 ^ o.2.2)
  let ends := (List.range o.2.1).map fun i =>
    let a := otsDigit s w i
    (List.range (2 ^ w - 1 - a)).foldl (fun y j => sha256 (pre ++ beBytes 2 i ++ beBytes 1 (a + j) ++ y)) (slice sig (36 + 32 * i) 32)
  sha256 (pre ++ beBytes 2 0x8080 ++ ends.flatten)

/-- An LMS signature of the right length bears the type codes of its public key and a leaf of its tree. -/
def lmsTyped (pub sig : List Byte) : Bool :=
  match lmsHeight (beNat (slice pub 0 4)), otsParams (beNat (slice pub 4 4)) with
  | some h, some o =>
    slice sig 4 4 == slice pub 4 4 && slice sig (8 + 32 * (o.2.1 + 1)) 4 == slice pub 0 4 && beNat (slice sig 0 4) < 2 ^ h
  | _, _ => false

/-- The tree's root an LMS signature of a message leads to is the public key's. -/
def lmsRooted (pub msg sig : List Byte) : Bool :=
  match lmsHeight (beNat (slice pub 0 4)), otsParams (beNat (slice pub 4 4)) with
  | some h, some o =>
    let id := slice pub 8 16
    let q := beNat (slice sig 0 4)
    let leaf := sha256 (id ++ beBytes 4 (2 ^ h + q) ++ beBytes 2 0x8282 ++ otsPublic id q o msg (sig.drop 4))
    let path := 12 + 32 * (o.2.1 + 1)
    let root := (List.range h).foldl (fun t i =>
      let n := (2 ^ h + q) / 2 ^ i
      let p := slice sig (path + 32 * i) 32
      sha256 (id ++ beBytes 4 (n / 2) ++ beBytes 2 0x8383 ++ if n % 2 = 1 then p ++ t else t ++ p)) leaf
    root == slice pub 24 32
  | _, _ => false

/-- The levels of an HSS signature below an LMS public key, top first: each public key with the message it signs and its signature.
None where a type code is not one of R363 or the length disagrees with the type codes. -/
def hssLevels : Nat → List Byte → List Byte → List Byte → Option (List (List Byte × List Byte × List Byte))
  | n, pub, msg, sig =>
    match lmsLen pub with
    | none => none
    | some k =>
      let s := sig.take k
      if !lmsTyped pub s then none
      else match n with
        | 0 => if sig.length = k then some [(pub, msg, s)] else none
        | n + 1 =>
          if sig.length < k + 56 then none
          else (hssLevels n (slice sig k 56) msg (sig.drop (k + 56))).map fun r => (pub, slice sig k 56, s) :: r

/-- The levels of a signature under a 60-byte HSS public key of 1 to 8 levels. -/
def hssParse (key msg sig : List Byte) : Option (List (List Byte × List Byte × List Byte)) :=
  let l := beNat (slice key 0 4)
  if key.length ≠ 60 || l < 1 || 8 < l || beNat (slice sig 0 4) + 1 ≠ l then none else hssLevels (l - 1) (slice key 4 56) msg (sig.drop 4)

/-- An HSS signature of a message verifies under a public key (R363). -/
def hssVerify (key msg sig : List Byte) : Bool :=
  match hssParse key msg sig with
  | some r => r.all fun e => lmsRooted e.1 e.2.1 e.2.2
  | none => false

/-- A 60-byte public key has a number of levels and type codes that R363 admits (R380). -/
def hssKeyOk (key : List Byte) : Bool :=
  key.length == 60 && 1 ≤ beNat (slice key 0 4) && beNat (slice key 0 4) ≤ 8 && (lmsLen (slice key 4 56)).isSome

/-- A signature whose type codes and length could pass under some public key of R363: the levels it says it has follow one another, each
with the type codes its own first signature bears. -/
def hssShaped (sig : List Byte) : Bool :=
  let ots := slice sig 8 4
  match otsParams (beNat ots) with
  | none => false
  | some o =>
    let pub := slice sig (12 + 32 * (o.2.1 + 1)) 4 ++ ots ++ zeros 48
    beNat (slice sig 0 4) < 8 && (hssLevels (beNat (slice sig 0 4)) pub [] (sig.drop 4)).isSome

end Sys2Proof.Machine
end

