-- ==== Sys2Proof/Machine/Image.lean ====
section
/-! DEFINITION. KNT1 pattern images: the header, the sections, and the load checks in their order (R185 to R195). An
image is its bytes. -/

namespace Sys2Proof.Machine

/-! ## Header and sections (R185, R186) -/

def imgPanels (g : List Byte) : Nat := field g 6 2
def imgFeatures (g : List Byte) : Nat := field g 8 32
def imgBytes (g : List Byte) : Nat := field g 40 4
def imgSeed (g : List Byte) : Nat := field g 44 4
def imgContig (g : List Byte) : Bool := bit (field g 50 2) 0

/-- Section entry `i`: offset, length, CRC. -/
def secOff (g : List Byte) (i : Nat) : Nat := field g (68 + 16 * i) 4
def secLen (g : List Byte) (i : Nat) : Nat := field g (72 + 16 * i) 4
def secCrc (g : List Byte) (i : Nat) : Nat := field g (76 + 16 * i) 4

/-- The bytes of a section: 0 CODE, 1 DATA, 2 CHAN, 3 STREAM, 4 SEG, 5 PARAM, 6 SIG. -/
def sec (g : List Byte) (i : Nat) : List Byte := slice g (secOff g i) (secLen g i)

/-- The sections present. -/
def secs (g : List Byte) : List Nat := (List.range 7).filter fun i => secLen g i != 0

/-- Checks 0x01 to 0x04 of Table 7.16: the code of the first failure, or 0. -/
def headCheck (g : List Byte) (supplied panels accepted : Nat) : Nat :=
  if slice g 0 4 ≠ [0x4B, 0x4E, 0x54, 0x31] ∨ field g 4 2 ≠ 1 then 1
  else if imgBytes g < 256 ∨ 536870912 < imgBytes g ∨ supplied < imgBytes g then 2
  else if imgPanels g ≠ panels then 3
  else if !rightsOk accepted (imgFeatures g) then 4
  else 0

/-- Check 0x05 (R186). -/
def sectionsOk (g : List Byte) : Bool :=
  ((List.range 7).all fun i => field g (64 + 16 * i) 1 == i + 1) && nmem (secs g) 0 &&
  ((secs g).all fun i => secOff g i % 64 == 0 && 256 ≤ secOff g i && secOff g i + secLen g i ≤ imgBytes g &&
    (secs g).all fun k => k ≤ i || secOff g i + secLen g i ≤ secOff g k || secOff g k + secLen g k ≤ secOff g i) &&
  (secLen g 6 == 0 || secOff g 6 + secLen g 6 == imgBytes g)

/-- Check 0x06. -/
def crcOk (g : List Byte) : Bool := (secs g).all fun i => crc32c (sec g i) == secCrc g i

/-- Check 0x07 (R187). -/
def digestOk (g : List Byte) : Bool := sha256 (overlay (slice g 0 (imgBytes g - secLen g 6)) 176 (zeros 32)) == slice g 176 32

/-- KEY_ID and signature of a SIG section (R194). -/
def sigKeyId (g : List Byte) : List Byte := slice (sec g 6) 0 32
def sigBytes (g : List Byte) : List Byte := slice (sec g 6) 40 (field (sec g 6) 32 4)

/-- The signature over DIGEST verifies under one of these public keys, which its KEY_ID names. -/
def sigOk (g : List Byte) (keys : List (List Byte)) : Bool :=
  40 + field (sec g 6) 32 4 ≤ secLen g 6 && keys.any fun k => sha256 k == sigKeyId g && hssVerify k (slice g 176 32) (sigBytes g)

/-! ## CODE and DATA (R188, R189) -/

/-- Blocks of CODE or DATA: count, and directory entry `b` as offset and its two 16-bit fields. -/
def blocks (s : List Byte) : Nat := field s 0 4
def blockDir (s : List Byte) (b : Nat) : Nat × Nat × Nat := (field s (8 + 8 * b) 4, field s (12 + 8 * b) 2, field s (14 + 8 * b) 2)

/-- The block a job-relative stitch names, and the end of the map. -/
def blockOf (s : List Byte) (i : Nat) : Nat := field s (8 + 8 * blocks s + 2 * i) 2
def mapEnd (s : List Byte) (panels : Nat) : Nat := 8 + 8 * blocks s + 1024 * panels

/-- Map indices lie in the directory, or name no block. -/
def mapOk (s : List Byte) (panels : Nat) : Bool :=
  (List.range (512 * panels)).all fun i => blockOf s i == 0xFFFF || blockOf s i < blocks s

/-- Check 0x09. -/
def codeOk (g : List Byte) : Bool :=
  let s := sec g 0
  1 ≤ blocks s && blocks s ≤ 8192 && mapEnd s (imgPanels g) ≤ s.length && mapOk s (imgPanels g) &&
  (List.range (blocks s)).all fun b =>
    match blockDir s b with
    | (off, n, entry) => off % 8 == 0 && mapEnd s (imgPanels g) ≤ off && 1 ≤ n && n ≤ 1024 && entry < n && off + 8 * n ≤ s.length

/-- Check 0x0A. -/
def dataOk (g : List Byte) : Bool :=
  let s := sec g 1
  s.isEmpty || (8 ≤ s.length && blocks s ≤ 8192 && mapEnd s (imgPanels g) ≤ s.length && mapOk s (imgPanels g) &&
    (List.range (blocks s)).all fun b =>
      match blockDir s b with
      | (off, n, base) => off % 8 == 0 && mapEnd s (imgPanels g) ≤ off && 1 ≤ n && n ≤ 4096 && base + n ≤ 4096 && off + 8 * n ≤ s.length)

/-! ## CHAN (R190) -/

/-- The outbound-channel mask of a job-relative stitch. -/
def chanMask (s : List Byte) (i : Nat) : Nat := bits (field s (i / 2) 1) (4 * (i % 2)) 4

/-- The declared channels of a placement: physical stitch and direction. -/
def chanDecls (g : List Byte) (mask : List Nat) : List (Nat × Nat) :=
  let s := sec g 2
  if s.isEmpty then []
  else ((List.range (512 * imgPanels g)).map fun i =>
    ((List.range 4).filter (bit (chanMask s i))).map fun dir => (mask.getD (i / 512) 0 * 512 + i % 512, dir)).flatten

/-- A declared channel exists and is enabled under the placement (R138). -/
def chanExists (mask : List Nat) (k dir : Nat) : Bool :=
  match neighbour k dir with
  | none => false
  | some n => nmem mask (n / 512)

/-- Slots of a course in job-relative row order: their count and offset. -/
def courseDir (g : List Byte) (row : Nat) : Nat × Nat :=
  let s := sec g 2
  (field s (256 * imgPanels g + 8 * row) 2, field s (256 * imgPanels g + 8 * row + 4) 4)

/-- WRITER and READERS of a slot record. -/
def slotWriter (s : List Byte) (at_ : Nat) : Nat := field s at_ 1
def slotReaders (s : List Byte) (at_ : Nat) : Nat := field s (at_ + 2) 9

/-- A legal slot record. -/
def slotOk (s : List Byte) (at_ : Nat) : Bool :=
  slotWriter s at_ < 70 && slotReaders s at_ < 2 ^ 70 && slotReaders s at_ != 0 && !bit (slotReaders s at_) (slotWriter s at_)

/-- Check 0x0B. -/
def chanOk (g : List Byte) (mask : List Nat) : Bool :=
  let s := sec g 2
  s.isEmpty || (320 * imgPanels g ≤ s.length && ((chanDecls g mask).all fun x => chanExists mask x.1 x.2) &&
    (List.range (8 * imgPanels g)).all fun row =>
      match courseDir g row with
      | (n, off) => n ≤ 4096 && off + 16 * n ≤ s.length && (List.range n).all fun i => slotOk s (off + 16 * i))

/-- The slot list of a course. -/
def courseSlots (g : List Byte) (row : Nat) : List BusSlot :=
  let s := sec g 2
  if s.isEmpty then []
  else match courseDir g row with
    | (n, off) => (List.range n).map fun i =>
        { writer := slotWriter s (off + 16 * i), readers := (List.range 70).filter (bit (slotReaders s (off + 16 * i))) }

/-! ## STREAM, SEG and PARAM (R191 to R193) -/

/-- A declared segment: first and end address, RIGHTS, ATTR. -/
structure SegDecl where
  first : Nat
  length : Nat
  rights : Nat
  attr : Nat
  deriving DecidableEq, Repr

/-- The declared segments. -/
def segDecls (g : List Byte) : List SegDecl :=
  let s := sec g 4
  if s.isEmpty then []
  else (List.range (min 8 (field s 0 4))).map fun i =>
    { first := field s (8 + 32 * i) 8, length := field s (16 + 32 * i) 8, rights := field s (24 + 32 * i) 1 % 8,
      attr := field s (25 + 32 * i) 1 }

/-- A signed 64-bit number. -/
def signed64 (v : Nat) : Int := if v < 2 ^ 63 then v else (v : Int) - 2 ^ 64

/-- Transfer record at a place of STREAM. -/
def transferAt (s : List Byte) (at_ : Nat) : Transfer :=
  { vaddr := field s at_ 8, lines := field s (at_ + 8) 4, repeats := field s (at_ + 12) 4, stride := signed64 (field s (at_ + 16) 8),
    write := field s (at_ + 24) 1 == 1, course := field s (at_ + 25) 1 }

/-- Count and offset of a job-relative port's list, and the list. -/
def portDir (g : List Byte) (q : Nat) : Nat × Nat := (field (sec g 3) (8 * q) 4, field (sec g 3) (8 * q + 4) 4)
def portList (g : List Byte) (q : Nat) : List Transfer :=
  if (sec g 3).isEmpty then []
  else (List.range (portDir g q).1).map fun r => transferAt (sec g 3) ((portDir g q).2 + 32 * r)

/-- The address range of repetition `r` of a transfer. -/
def Transfer.range (t : Transfer) (r : Nat) : Int × Int :=
  let a := (t.vaddr : Int) + r * t.stride
  (a, a + 64 * (t.lines : Int))

/-- A stretch of addresses lies line by line inside declared segments with a right. -/
def declCovers (l : List SegDecl) (right : Nat) (lo hi : Int) : Nat → Bool
  | 0 => false
  | n + 1 =>
    if hi ≤ lo then true
    else
      match l.find? fun x => rightsOk x.rights right && decide ((x.first : Int) ≤ lo) && decide (lo < (x.first : Int) + x.length) with
      | none => false
      | some x => declCovers l right ((x.first : Int) + (x.length / 64 * 64 : Nat)) hi n

/-- A legal transfer record (Table 7.15). -/
def transferOk (l : List SegDecl) (s : List Byte) (at_ : Nat) : Bool :=
  let t := transferAt s at_
  t.vaddr % 64 == 0 && t.vaddr < 2 ^ 48 && 1 ≤ t.lines && t.lines ≤ 16777216 && t.repeats ≤ 65535 && t.stride % 64 == 0 &&
  field s (at_ + 24) 1 ≤ 1 && t.course ≤ 7 &&
  (List.range (t.repeats + 1)).all fun r => declCovers l (if t.write then rightW else rightR) (t.range r).1 (t.range r).2 9

/-- Check 0x0C. -/
def streamOk (g : List Byte) : Bool :=
  let s := sec g 3
  s.isEmpty || (48 * imgPanels g ≤ s.length && (List.range (6 * imgPanels g)).all fun q =>
    match portDir g q with
    | (n, off) => n ≤ 65536 && off + 32 * n ≤ s.length && (List.range n).all fun r => transferOk (segDecls g) s (off + 32 * r))

/-- Check 0x0D. -/
def segOk (g : List Byte) : Bool :=
  let s := sec g 4
  let n := field s 0 4
  s.isEmpty || (1 ≤ n && n ≤ 8 && 8 + 32 * n ≤ s.length &&
    ((segDecls g).all fun x => x.first % 65536 == 0 && x.length % 65536 == 0 && 65536 ≤ x.length && x.attr ≤ 2) &&
    (List.range n).all fun i => (List.range i).all fun k =>
      match (segDecls g)[i]?, (segDecls g)[k]? with
      | some x, some y => x.first + x.length ≤ y.first || y.first + y.length ≤ x.first
      | _, _ => true)

/-- ARG_BYTES and ARG_OFFSET of PARAM; 0 where it is absent. -/
def argBytes (g : List Byte) : Nat := field (sec g 5) 0 2
def argOffset (g : List Byte) : Nat := field (sec g 5) 2 2

/-- Check 0x0E. -/
def paramOk (g : List Byte) : Bool :=
  let s := sec g 5
  s.isEmpty || (argBytes g % 8 == 0 && argBytes g ≤ 256 && argOffset g % 8 == 0 && argOffset g + argBytes g ≤ 32768 &&
    field s 4 4 ≤ 64 && 8 + 24 * field s 4 4 ≤ s.length)

/-- Every check of Table 7.16 in its order: the code of the first failure, or 0. `signature` decides check 0x08. -/
def imageCheck (g : List Byte) (supplied panels accepted : Nat) (mask : List Nat) (signature : Bool) : Nat :=
  let h := headCheck g supplied panels accepted
  let contig := (List.range (mask.length - 1)).all fun i => mask.getD (i + 1) 0 == mask.getD i 0 + 1
  if h ≠ 0 ∧ h < 3 then h
  else if h = 3 ∨ (imgContig g && !contig) then 3
  else if h ≠ 0 then h
  else if !sectionsOk g then 5
  else if !crcOk g then 6
  else if !digestOk g then 7
  else if !signature then 8
  else if !codeOk g then 9
  else if !dataOk g then 10
  else if !chanOk g mask then 11
  else if !streamOk g then 12
  else if !segOk g then 13
  else if !paramOk g then 14
  else 0

/-! ## What a stitch is loaded with (R157, R188, R189, R193) -/

/-- Entry and instruction words of a job-relative stitch. -/
def loadCode (g : List Byte) (i : Nat) : Nat × Tbl (BitVec 64) :=
  let s := sec g 0
  if blockOf s i = 0xFFFF then (0, [])
  else match blockDir s (blockOf s i) with
    | (off, n, entry) => (entry, (List.range n).map fun a => (a, BitVec.ofNat 64 (field s (off + 8 * a) 8)))

/-- A stitch as a job starts it, before it reaches its entry: its blocks, the arguments, its noise register. -/
def loadStitch (g : List Byte) (args : List Byte) (seed i : Nat) : Stitch :=
  let s := sec g 1
  let st : Stitch := { code := (loadCode g i).2, lfsr := seedReg (BitVec.ofNat 32 (Nat.xor seed i)), run := .running }
  let st := if s.isEmpty || blockOf s i = 0xFFFF then st
    else match blockDir s (blockOf s i) with
      | (off, n, base) => st.store (8 * base) (slice s off (8 * n))
  st.store (argOffset g) (slice args 0 (argBytes g))

end Sys2Proof.Machine
end

