-- ==== Sys2Proof/Machine/Stock.lean ====
section
/-! DEFINITION. Stock patterns (R229 to R233): the catalogue's records, operands and arguments, the KV pages and token trees they read, and
what each family computes. The order in which FP32 sums run, and the stochastic steps, are free values (log entry 58). -/

namespace Sys2Proof.Machine

/-! ## The catalogue (R229, Table 9.5) -/

/-- Family and dimension `i` of a catalogue record. -/
def stockFamily (rec : List Byte) : Nat := field rec 0 2 / 4096
def stockDim (rec : List Byte) (i : Nat) : Nat := field rec (8 + 4 * i) 4

/-- The dimensions are those of the record's family. -/
def stockDimsOk (rec : List Byte) : Bool :=
  let x := stockDim rec
  match stockFamily rec with
  | 1 => (x 0 == 64 || x 0 == 128 || x 0 == 256) && (x 1 == 4 || x 1 == 6)
  | 2 => x 0 % 32 == 0 && x 1 % 32 == 0 && (x 2 == 0 || x 2 == 3 || x 2 == 4 || x 2 == 6) && x 3 == 128 && x 4 == 0
  | 3 => x 3 == 4 || x 3 == 6
  | 4 => x 1 ≤ 64 && x 2 == 128 && x 3 == 0 && x 4 == 0
  | 5 => x 0 % 32 == 0 && x 1 ≤ 8 && x 2 ≤ 8 && x 3 == 0 && x 4 == 0
  | _ => false

/-- Operands of a family (Table 9.6). -/
def stockOperandCount (family : Nat) : Nat := match family with
  | 1 => 5
  | 2 => 3
  | 3 => 4
  | 4 => 2
  | 5 => 2
  | _ => 0

/-- A catalogue record as R229 lays it out: 32 bytes, its reserved bytes zero. -/
def stockRecordOk (rec : List Byte) : Bool :=
  rec.length == 32 && stockDimsOk rec && field rec 6 1 == stockOperandCount (stockFamily rec) && field rec 7 1 == 0 && field rec 28 4 == 0

/-- The records the device holds, and the one of a STOCK_ID. -/
def stockRecords : List (List Byte) := Config.stockCatalogue.filter stockRecordOk
def stockRecord (id : Nat) : Option (List Byte) := stockRecords.find? fun r => field r 0 2 == id

/-! ## Operands (R230, Table 9.6) -/

/-- Bytes of `n` elements of a format in the split layout: the elements packed, then the scales of a scaled format (R150). -/
def splitBytes (fmt n : Nat) : Nat := (n * fmtBits fmt + 7) / 8 + if fmtScaled fmt then (n + 31) / 32 else 0

/-- Bytes of one position's K or V vector in a tree operand. -/
def kvBytes (rec : List Byte) : Nat := splitBytes (stockDim rec 1) (stockDim rec 0)

/-- The activation format a weight format goes with (Table 6.6): of two that it goes with, the one the variant has (log entry 58). -/
def stockAct (rec : List Byte) : Nat :=
  let w := stockDim rec 2
  if w = 0 then 2 else if w = 6 then 6 else if Config.stockActivation (field rec 0 2) then 5 else 4

/-- An operand of a stock pattern: its length before rounding, whether it is written, and ATTR (0 coherent, 1 private, 2 either). -/
structure StockOperand where
  bytes : Nat
  write : Bool
  attr : Nat
  deriving DecidableEq, Repr

/-- The operands of a record, in order. -/
def stockOperands (rec : List Byte) : List StockOperand :=
  let x := stockDim rec
  match stockFamily rec with
  | 1 =>
    let q := 128 * x 2 * x 4 * x 0 * 2
    [⟨q, false, 2⟩, ⟨x 2 * x 3 * 65536, false, 1⟩, ⟨128 * 8, false, 2⟩, ⟨q, true, 0⟩, ⟨x 2 * 128 * (2 * kvBytes rec), false, 2⟩]
  | 2 => [⟨x 0 * splitBytes (x 2) (x 1), false, 1⟩, ⟨128 * splitBytes (stockAct rec) (x 1), false, 2⟩, ⟨128 * x 0 * 4, true, 0⟩]
  | 3 =>
    [⟨x 4 * x 0 * 2, false, 2⟩, ⟨x 1 * splitBytes (x 3) (x 0), false, 1⟩, ⟨x 2 * splitBytes (x 3) (x 1), false, 1⟩, ⟨x 4 * x 2 * 2, true, 0⟩]
  | 4 => [⟨128 * x 0 * 4, false, 2⟩, ⟨128 * (8 + 8 * x 1), true, 0⟩]
  | 5 => [⟨splitBytes (x 1) (x 0), false, 2⟩, ⟨splitBytes (x 2) (x 0), true, 2⟩]
  | _ => []

/-- The job virtual address of operand `k`, and its length rounded up to 64 KiB. -/
def operandBase (k : Nat) : Nat := k * 2 ^ 40
def StockOperand.span (o : StockOperand) : Nat := (o.bytes + 65535) / 65536 * 65536

/-! ## Arguments (R231, Table 9.7) -/

/-- Positions per KV page (Table 9.8): head dimension, and FP8 or BF16. -/
def kvCap (dim fmt : Nat) : Nat :=
  if fmt = 4 then (if dim = 64 then 496 else if dim = 128 then 240 else 112) else if dim = 64 then 256 else if dim = 128 then 128 else 64

/-- A stock argument field clamped to a range, and whether it was. -/
def clampArg (a : List Byte) (i n lo hi : Nat) : List Byte × Nat :=
  let v := field a i n
  (overlay a i (natBytes n (clampN lo hi v)), b2n (clampN lo hi v != v))

/-- A FP32 argument: NaN becomes 1.0, and with bounds a value outside them becomes the nearer one. -/
def clampFloat (a : List Byte) (i : Nat) (bounds : Bool) : List Byte × Nat :=
  let v := BitVec.ofNat 32 (field a i 4)
  let r := if ofF32 v = .nan then 0x3F800000#32
    else if bounds && flt v 0x3A800000#32 then 0x3A800000#32 else if bounds && flt 0x44800000#32 v then 0x44800000#32 else v
  (overlay a i (natBytes 4 r.toNat), b2n (r != v))

/-- Clamp in turn, adding the counts. -/
def clampSeq (a : List Byte) : List (List Byte → List Byte × Nat) → List Byte × Nat
  | [] => (a, 0)
  | f :: r => let x := f a; let y := clampSeq x.1 r; (y.1, x.2 + y.2)

/-- The arguments of a stock pattern in range, and how many were clamped. -/
def stockArgs (rec : List Byte) (args : List Byte) : List Byte × Nat :=
  let dim := stockDim rec
  let a := slice args 0 256
  match stockFamily rec with
  | 1 => clampSeq a [fun a => clampArg a 0 4 0 (kvCap (dim 0) (dim 1) * dim 3), fun a => clampArg a 4 2 1 128, fun a => clampFloat a 8 false]
  | 2 => clampArg a 0 4 1 128
  | 3 => clampArg a 0 4 1 (dim 4)
  | 4 => clampSeq a [fun a => clampArg a 0 2 1 128, fun a => clampArg a 2 2 1 (dim 1), fun a => clampFloat a 4 true]
  | 5 => if 2 < field a 0 1 then (overlay a 0 [0], 1) else (a, 0)
  | _ => (a, 0)

/-! ## Numbers -/

/-- Element `i` of a run of packed elements with a run of scales, as an exact number. -/
def splitNum (fmt : Nat) (els scales : List Byte) (i : Nat) : Num :=
  let x := ofFmt fmt (element (leNat els) (fmtBits fmt) i)
  if fmtScaled fmt then x.mul (scaleOf (field scales (i / 32) 1)) else x

/-- The `n` elements of a vector in the split layout that begins at byte `off`. -/
def splitRow (fmt n : Nat) (b : List Byte) (off : Nat) : List Num :=
  let e := (n * fmtBits fmt + 7) / 8
  (List.range n).map (splitNum fmt (slice b off e) (slice b (off + e) ((n + 31) / 32)))

/-- FP32 lanes as exact numbers, and as bytes; BF16 bytes of lanes, to nearest even. -/
def nums (l : List (BitVec 32)) : List Num := l.map ofF32
def f32Bytes (l : List (BitVec 32)) : List Byte := l.flatMap fun x => natBytes 4 x.toNat
def bf16Bytes (l : List (BitVec 32)) : List Byte := l.flatMap fun x => natBytes 2 (toFmt 6 .even (ofF32 x)).1

/-- a ÷ b in FP32, rounded once. -/
def fquot (a b : BitVec 32) : BitVec 32 :=
  match ofF32 a, ofF32 b with
  | .fin p m e, .fin q n f =>
    if n = 0 then (if m = 0 then 0x7FC00000#32 else toF32 (.inf (p != q)))
    else let x := quotient m (e - f) n; toF32 (.fin (p != q) x.1 x.2)
  | .fin p _ _, .inf q => if p != q then 0x80000000#32 else 0#32
  | .inf p, .fin q _ _ => toF32 (.inf (p != q))
  | _, _ => 0x7FC00000#32

/-- Put an item into a list that rises by a key. -/
def insertBy (x : Nat × α) : List (Nat × α) → List (Nat × α)
  | [] => [x]
  | y :: r => if x.1 ≤ y.1 then x :: y :: r else y :: insertBy x r

/-- A list in an order of the pattern's choice (log entry 58): `k` says which sum it is. -/
def inSomeOrder (seed k : Nat) (l : List α) : List α :=
  ((l.zipIdx.foldr (fun x r => insertBy (Config.stockStep seed (k * 2 ^ 32 + x.2), x.1) r) []).map (·.2))

/-- The sum of FP32 lanes in some order. -/
def someSum (seed k : Nat) (l : List (BitVec 32)) : BitVec 32 := (inSomeOrder seed k l).foldl fadd 0#32

/-- A dot product as the MAC array forms it (R154): 32 products at a time, each batch added exactly and rounded once, the batches in
some order. -/
def someDot (seed k : Nat) (w x : List Num) : BitVec 32 :=
  let batches := (List.range ((w.length + 31) / 32)).map fun i => ((w.drop (32 * i)).take 32).zip ((x.drop (32 * i)).take 32)
  (inSomeOrder seed k batches).foldl (fun acc b => toF32 (b.foldl (fun s p => s.add (p.1.mul p.2)) (ofF32 acc))) 0#32

/-- softmax of FP32 lanes: each lane less the largest, its power of e by FEXP2, over the sum (log entry 58). -/
def softmax (seed k : Nat) (l : List (BitVec 32)) : List (BitVec 32) :=
  let top := l.foldl fmax 0xFF800000#32
  let e := l.map fun x => fexp2 (fmul (fsub x top) 0x3FB8AA3B#32)
  let s := someSum seed k e
  e.map fun x => fquot x s

/-! ## KV pages and token trees (R232, R233) -/

/-- K (half 0) or V (half 1) of position `p` of KV head `h` in the pages of a pattern. -/
def kvAt (rec pages : List Byte) (h half p : Nat) : List Num :=
  let dim := stockDim rec 0
  let fmt := stockDim rec 1
  let cap := kvCap dim fmt
  let base := (h * stockDim rec 3 + p / cap) * 65536 + half * 32768
  let slot := p % cap
  let w := dim * fmtBits fmt / 8
  (List.range dim).map (splitNum fmt (slice pages (base + slot * w) w) (slice pages (base + cap * dim + slot * (dim / 32)) (dim / 32)))

/-- K (half 0) or V (half 1) of a node of the tree for KV head `h`. -/
def treeKv (rec treeBytes : List Byte) (h half node : Nat) : List Num :=
  splitRow (stockDim rec 1) (stockDim rec 0) treeBytes ((h * 128 + node) * (2 * kvBytes rec) + half * kvBytes rec)

/-- PARENT and DEPTH of a node record. -/
def nodeParent (tree : List Byte) (t : Nat) : Nat := field tree (8 * t + 4) 2
def nodeDepth (tree : List Byte) (t : Nat) : Nat := field tree (8 * t + 6) 2

/-- A node record keeps the rules of R233. -/
def nodeOk (tree : List Byte) (t : Nat) : Bool :=
  if t = 0 then nodeParent tree 0 == 0xFFFF && nodeDepth tree 0 == 0
  else nodeParent tree t < t && nodeDepth tree t == nodeDepth tree (nodeParent tree t) + 1

/-- The nodes a node attends to: itself and its ancestors; one that breaks the rules is a root. -/
def ancestors (tree : List Byte) : Nat → Nat → List Nat
  | 0, t => [t]
  | n + 1, t => t :: if t = 0 || !nodeOk tree t then [] else ancestors tree n (nodeParent tree t)

/-- The position a node takes: CONTEXT_LEN + DEPTH. -/
def nodePosition (tree : List Byte) (contextLen t : Nat) : Nat := contextLen + nodeDepth tree t

/-- The records among the first `n` that break the rules. -/
def badNodes (tree : List Byte) (n : Nat) : Nat := ((List.range n).filter fun t => !nodeOk tree t).length

/-! ## What the families compute (R231) -/

/-- Bytes an output operand receives: the operand, the byte it begins at, and the bytes. -/
abbrev StockWrite := Nat × Nat × List Byte

/-- ATTN_DECODE of one node and query head: softmax(SCALE × q·k) over the positions and ancestors it attends to, and the weighted sum of V. -/
def attnVector (rec args : List Byte) (seed : Nat) (op : Nat → List Byte) (node head query : Nat) : List (BitVec 32) :=
  let dim := stockDim rec 0
  let at_ := (node * stockDim rec 2 + head) * stockDim rec 4 + query
  let q := splitRow 6 dim (op 0) (at_ * dim * 2)
  let kv := fun half => ((List.range (field args 0 4)).map (kvAt rec (op 1) head half)) ++
    (ancestors (op 2) 128 node).map (treeKv rec (op 4) head half)
  let logits := (kv 0).zipIdx.map fun k => fmul (BitVec.ofNat 32 (field args 8 4)) (someDot seed (at_ * 2 ^ 24 + k.2 + 1) k.1 q)
  let p := softmax seed (at_ * 2 ^ 24) logits
  (List.range dim).map fun i =>
    (inSomeOrder seed (at_ * 2 ^ 24 + 2 ^ 23 + i) (p.zip (kv 1))).foldl (fun acc x => ffma acc x.1 (toF32 (x.2.getD i .nan))) 0#32

def attnDecode (rec args : List Byte) (seed : Nat) (op : Nat → List Byte) : List StockWrite :=
  [(3, 0, (List.range (field args 4 2)).flatMap fun t => (List.range (stockDim rec 2)).flatMap fun h =>
    (List.range (stockDim rec 4)).flatMap fun g => bf16Bytes (attnVector rec args seed op t h g))]

/-- TREE_MATVEC: Y = W × X for nodes [0, NODES). -/
def treeMatvec (rec args : List Byte) (seed : Nat) (op : Nat → List Byte) : List StockWrite :=
  let rows := stockDim rec 0
  let cols := stockDim rec 1
  let w := fun r => splitRow (stockDim rec 2) cols (op 0) (r * splitBytes (stockDim rec 2) cols)
  let x := fun t => splitRow (stockAct rec) cols (op 1) (t * splitBytes (stockAct rec) cols)
  [(2, 0, (List.range (field args 0 4)).flatMap fun t => f32Bytes ((List.range rows).map fun r => someDot seed (t * rows + r) (w r) (x t)))]

/-- EMB_MLP: W2 × max(0, W1 × x) for rows [0, NODES). -/
def embMlp (rec args : List Byte) (seed : Nat) (op : Nat → List Byte) : List StockWrite :=
  let x := stockDim rec
  let w := fun k n r => splitRow (x 3) n (op k) (r * splitBytes (x 3) n)
  [(3, 0, (List.range (field args 0 4)).flatMap fun t =>
    let input := splitRow 6 (x 0) (op 0) (t * x 0 * 2)
    let hidden := (List.range (x 1)).map fun r => fmax 0#32 (someDot seed (t * 2 ^ 40 + r) (w 1 (x 0) r) input)
    bf16Bytes ((List.range (x 2)).map fun r => someDot seed (t * 2 ^ 40 + 2 ^ 39 + r) (w 2 (x 1) r) (nums hidden)))]

/-- Put a token with its logit into a list in descending order, a lower token before an equal one. -/
def insertLogit (x : Nat × BitVec 32) : List (Nat × BitVec 32) → List (Nat × BitVec 32)
  | [] => [x]
  | y :: r => if flt y.2 x.2 || (!flt x.2 y.2 && x.1 < y.1) then x :: y :: r else y :: insertLogit x r

/-- The K largest logits of a run, with their tokens. -/
def topLogits (k : Nat) (l : List (BitVec 32)) : List (Nat × BitVec 32) :=
  l.zipIdx.foldl (fun acc x => (insertLogit (x.2, x.1) acc).take k) []

/-- TOPK of one node: the sampled token and its probability, then the K tokens and theirs. A token of probability 0 is not sampled. -/
def topkRecord (k : Nat) (temp : BitVec 32) (seed node : Nat) (logits : List (BitVec 32)) : List Byte :=
  let top := topLogits k logits
  let p := softmax seed node (top.map fun x => fquot x.2 temp)
  let all := top.zip p
  let live := all.filter fun e => flt 0#32 e.2
  let pick := (live.getD (Config.stockStep seed (2 ^ 64 + node) % live.length) ((all.headD ((0, 0#32), 0#32))))
  let entry := fun (e : (Nat × BitVec 32) × BitVec 32) => natBytes 4 e.1.1 ++ natBytes 4 e.2.toNat
  entry pick ++ all.flatMap entry

def topk (rec args : List Byte) (seed : Nat) (op : Nat → List Byte) : List StockWrite :=
  let v := stockDim rec 0
  (List.range (field args 0 2)).map fun t =>
    (1, t * (8 + 8 * stockDim rec 1), topkRecord (field args 2 2) (BitVec.ofNat 32 (field args 4 4)) seed t
      ((List.range v).map fun i => BitVec.ofNat 32 (field (op 0) ((t * v + i) * 4) 4)))

/-- An FP32 lane as a code of an unscaled format. -/
def laneCode (fmt : Nat) (r : Rnd) (x : BitVec 32) : Nat :=
  if fmt = 7 then x.toNat else if fmt = 8 then (ftoi x).1.toNat else (toFmt fmt r (ofF32 x)).1

/-- CONVERT: R155, and R156 for a scaled output. -/
def convert (rec args : List Byte) (seed : Nat) (op : Nat → List Byte) : List StockWrite :=
  let n := stockDim rec 0
  let out := stockDim rec 2
  let lanes := (splitRow (stockDim rec 1) n (op 0) 0).map toF32
  let mode := field args 0 1
  let rnd := fun i => if mode = 1 then Rnd.zero else if mode = 2 then .noise (Config.stockStep seed i % 65536) else .even
  let w := lanes.zipIdx.map fun x => (x.1, rnd x.2)
  let pad := fun codes => natBytes ((codes.length * fmtBits out + 7) / 8) (pack (fmtBits out) codes)
  if fmtScaled out then
    let q := (List.range ((n + 31) / 32)).map fun b => quantBlock out (((w.drop (32 * b)).take 32).map fun x => (ofF32 x.1, x.2))
    [(1, 0, pad (q.flatMap (·.1)) ++ q.flatMap fun x => natBytes 1 x.2.1)]
  else [(1, 0, pad (w.map fun x => laneCode out x.2 x.1))]

/-- The writes of a stock pattern, from its record, arguments, seed and operands. -/
def stockWrites (rec args : List Byte) (seed : Nat) (op : Nat → List Byte) : List StockWrite :=
  match stockFamily rec with
  | 1 => attnDecode rec args seed op
  | 2 => treeMatvec rec args seed op
  | 3 => embMlp rec args seed op
  | 4 => topk rec args seed op
  | 5 => convert rec args seed op
  | _ => []

/-- Malformed records of the tree a pattern reads, among its NODES (R233). -/
def stockBadNodes (rec args : List Byte) (op : Nat → List Byte) : Nat :=
  if stockFamily rec = 1 then badNodes (op 2) (field args 4 2) else 0

/-! ## Reaching operands through the job's segments -/

/-- What an operand access came to: done, again later, or failed at a pool address of a port. -/
inductive StockGot where
  | ok (b : List Byte)
  | again
  | failed (port addr : Nat)
  deriving DecidableEq, Repr

/-- The pool address, ATTR and port of a job virtual address. -/
def Dev.jobPlace (d : Dev) (j : Job) (v : Nat) : Nat × Nat × Nat :=
  let x := (d.translate j v).getD (0, 0)
  (x.1, x.2, 16 * d.lineStack (x.1 / 64) + j.mask.headD 0)

/-- Read `n` lines of the job's address space from `v` on. -/
def Dev.jobRead (d : Dev) (j : Job) (v : Nat) (acc : List Byte) : Nat → StockGot × Dev
  | 0 => (.ok acc, d)
  | n + 1 =>
    let x := d.jobPlace j v
    let r := if x.2.1 = 1 then d.portRead j x.2.2 x.1 1 else d.lineRead none (x.1 / 64) true false
    match r with
    | (.ok b, d) => d.jobRead j (v + 64) (acc ++ b) n
    | (.again _, d) => (.again, d)
    | (.no _ _, d) => (.failed x.2.2 x.1, d)

/-- Write a run of bytes at a line-aligned job virtual address. -/
def Dev.jobWrite (d : Dev) (j : Job) (v : Nat) (bs : List Byte) : Nat → StockGot × Dev
  | 0 => (.ok [], d)
  | n + 1 =>
    if bs.isEmpty then (.ok [], d)
    else
      let x := d.jobPlace j v
      let r := if x.2.1 = 1 then d.portWrite j x.2.2 x.1 1 (bs.take (64 - v % 64)) else d.lineWrite none x.1 (bs.take (64 - v % 64)) true false
      match r with
      | (.ok _, d) => d.jobWrite j (v + (64 - v % 64)) (bs.drop (64 - v % 64)) n
      | (.again _, d) => (.again, d)
      | (.no _ _, d) => (.failed x.2.2 x.1, d)

/-- Read the operands a pattern reads, in order; the others are empty. -/
def Dev.operandsRead (d : Dev) (j : Job) (k : Nat) (acc : List (List Byte)) : List StockOperand → (StockGot × List (List Byte)) × Dev
  | [] => ((.ok [], acc), d)
  | o :: r =>
    if o.write then d.operandsRead j (k + 1) (acc ++ [[]]) r
    else
      match d.jobRead j (operandBase k) [] ((o.bytes + 63) / 64) with
      | (.ok b, d) => d.operandsRead j (k + 1) (acc ++ [b]) r
      | (x, d) => ((x, acc), d)

/-- Make the writes of a pattern. -/
def Dev.operandsWrite (d : Dev) (j : Job) : List StockWrite → StockGot × Dev
  | [] => (.ok [], d)
  | w :: r =>
    match d.jobWrite j (operandBase w.1 + w.2.1) w.2.2 (w.2.2.length / 64 + 2) with
    | (.ok _, d) => d.operandsWrite j r
    | x => x

/-- What a stock job has computed stands in its outputs when it completes: its operands as they are then, its arguments and its seed. -/
def Dev.stockRun (d : Dev) (j : Job) (rec : List Byte) : StockGot × Dev :=
  match d.operandsRead j 0 [] (stockOperands rec) with
  | ((.ok _, ops), d) =>
    let op := fun k => ops.getD k []
    match d.operandsWrite j (stockWrites rec j.args j.seed op) with
    | (.ok b, d) => (.ok b, (List.range (stockBadNodes rec j.args op)).foldl (fun d _ => d.clamped 5 0) d)
    | x => x
  | ((x, _), d) => (x, d)

end Sys2Proof.Machine
end

