-- ==== Sys2Proof/Machine/Jobs.lean ====
section
/-! DEFINITION. The dispatcher (chapter 8): compute contexts and segments, admission and placement of jobs, the bound
check, loading, and how jobs end (R196 to R211). ABORT stands in its own file. -/

namespace Sys2Proof.Machine

/-- What refuses a descriptor before its own checks: Decommissioned (R451), and, for one that would change pool state, a
unit that is not the active (R308); then the feature it needs. -/
def Dev.descGate (d : Dev) (ring : Nat) (changes : Bool) (features : List Nat) : Option (Nat × Nat) :=
  if d.sec.state = 5 then some (stDenied, 0x80)
  else if changes && (d.mir.role = 2 || d.mir.role = 3) then some (stFenced, 0)
  else
    match features.find? fun f => !d.hasFeature (d.ringOwner ring) f with
    | some f => some (stUnsupported, f)
    | none => none

/-- Run a descriptor's operation past its gate. -/
def Dev.gated (d : Dev) (ring idx : Nat) (changes : Bool) (features : List Nat) (f : Dev → Dev) : Dev :=
  match d.descGate ring changes features with
  | some r => d.completeDesc ring idx r.1 r.2 0 0
  | none => f d

/-! ## Contexts and segments (R196 to R199) -/

/-- Replace a context's slots. -/
def Dev.setCtx (d : Dev) (c : Nat) (x : Context) : Dev := { d with jobs := { d.jobs with contexts := tput d.jobs.contexts c x } }

/-- Context and segment administration goes to the partner (R309; log entry 15). -/
def Dev.repCtx (d : Dev) (ring : Nat) (b : List Byte) (result : Nat) : Dev :=
  d.repAdminOp b (natBytes 8 result ++ zeros 4 ++ natBytes 4 4) [] (d.ringOwner ring) 0

/-- Run `f` on a context the submitter owns, not busy where that matters; DENIED 0x0005 or 0x0034. -/
def Dev.withCtx (d : Dev) (ring idx : Nat) (b : List Byte) (free : Bool) (f : Context → Dev → Dev) : Dev :=
  match d.ctx (dCtx b) with
  | none => d.completeDesc ring idx stDenied 5 0 0
  | some x =>
    if x.owner ≠ d.ringOwner ring then d.completeDesc ring idx stDenied 5 0 0
    else if free && d.ctxBusy (dCtx b) then d.completeDesc ring idx stDenied 0x34 0 0
    else f x d

/-- CTX_CREATE. In Sealed personality no host outside the tenant range can be given a context (R215). DESIGN CHOICE (log entry 56): one
that asks is refused as a GRANT to it is, DENIED with detail 0x0081. -/
def execCtxCreate (ring idx : Nat) (s : State) := liftDev (fun d =>
  d.withDesc ring idx 0x22 fun b d => d.gated ring idx false [4] fun d =>
    if d.outsideTenant (d.ringOwner ring) then d.completeDesc ring idx stDenied 0x81 0 0
    else
    let c := d.choose 1024 fun i => (d.ctx i).isNone
    match c.1 with
    | none => c.2.completeDesc ring idx stDenied 4 0 0
    | some i => ((c.2.setCtx i { owner := d.ringOwner ring }).repCtx ring b i).completeDesc ring idx stDone 0 i 0) s

def execCtxDestroy (ring idx : Nat) (s : State) := liftDev (fun d =>
  d.withDesc ring idx 0x23 fun b d => d.gated ring idx false [4] fun d =>
    d.withCtx ring idx b true fun _ d =>
      let d := { d with jobs := { d.jobs with contexts := tdel d.jobs.contexts (dCtx b) } }
      ((d.setPrivates).repCtx ring b 0).completeDesc ring idx stDone 0 0 0) s

/-- The segment of a record in a descriptor, its LENGTH and ATTR clamped (Table 8.1). -/
def segOf (b : List Byte) : Segment :=
  { vbase := field b 16 8, length := clampGrain 65536 65536 35184372088832 (field b 24 8), poolBase := field b 32 8,
    rights := field b 40 1 % 8, attr := if field b 41 1 = 1 then 1 else 0 }

/-- Clamped fields of a segment record. -/
def segClamps (b : List Byte) : Nat := b2n ((segOf b).length != field b 24 8) + b2n (1 < field b 41 1)

/-- Steps 3 to 7 of Table 8.2. -/
def Dev.segRefused (d : Dev) (owner slot : Nat) (x : Context) (s : Segment) : Option (Nat × Nat) :=
  if s.vbase % 65536 ≠ 0 ∨ s.poolBase % 65536 ≠ 0 then some (stDenied, 0x20)
  else if 2 ^ 48 < s.vbase + s.length ∨ 0xFFFFF0000000 < s.poolBase + s.length then some (stDenied, 0x24)
  else if x.slots.any fun e => e.1 != slot && e.2.vbase < s.vbase + s.length && s.vbase < e.2.vbase + e.2.length then some (stDenied, 0x36)
  else d.segCheck owner s

/-- A private segment's directory sweep is over (R132, R198). -/
def Dev.privateSwept (d : Dev) (s : Segment) : Bool :=
  s.attr == 0 || d.swept fun l => s.poolBase / 64 ≤ l && l < (s.poolBase + s.length) / 64

/-- An installed segment: SEG_SET completes once the sweep of a private one is over, and until then the command given again goes on
waiting. -/
def Dev.segSweep (d : Dev) (ring idx : Nat) (b : List Byte) : Dev :=
  let d := if (segOf b).attr = 1 then d.sweepAll else d
  if d.privateSwept (segOf b) then (d.repCtx ring b 0).completeDesc ring idx stDone 0 0 0 else d.unclaim ring idx

/-- SEG_SET: its checks, made once, and the segment in its slot. -/
def execSegSet (ring idx : Nat) (s : State) := liftDev (fun d =>
  d.withDesc ring idx 0x24 fun b d =>
    if d.doneOf ring idx = 1 then d.segSweep ring idx b
    else d.gated ring idx false [4] fun d => d.withCtx ring idx b true fun x d =>
      let d := (List.range (segClamps b)).foldl (fun d _ => d.clamped 5 0) d
      match d.segRefused (d.ringOwner ring) (dSlot b) x (segOf b) with
      | some r => d.completeDesc ring idx r.1 r.2 0 0
      | none =>
        (((d.setCtx (dCtx b) { x with slots := tput x.slots (dSlot b) (segOf b) }).setPrivates).setDone ring idx 1 []).segSweep ring idx b) s

def execSegClear (ring idx : Nat) (s : State) := liftDev (fun d =>
  d.withDesc ring idx 0x25 fun b d => d.gated ring idx false [4] fun d =>
    d.withCtx ring idx b true fun x d =>
      (((d.setCtx (dCtx b) { x with slots := tdel x.slots (dSlot b) }).setPrivates).repCtx ring b 0).completeDesc ring idx stDone 0 0 0) s

/-- The 32 bytes of a slot as CTX_QUERY writes it (Table 8.1). -/
def segBytes : Option Segment → List Byte
  | none => zeros 32
  | some s => natBytes 8 s.vbase ++ natBytes 8 s.length ++ natBytes 8 s.poolBase ++ natBytes 1 s.rights ++ natBytes 1 s.attr ++
      natBytes 1 1 ++ zeros 5

def execCtxQuery (ring idx : Nat) (s : State) := liftDev (fun d =>
  d.withDesc ring idx 0x26 fun b d => d.gated ring idx false [4] fun d =>
    d.withCtx ring idx b false fun x d =>
      d.output (.desc ring idx) (field b 48 8) (((List.range 8).map fun i => segBytes (tget x.slots i)).flatten) stDone 0 0 x.slots.length) s

/-! ## Panels (R202 to R205, R383) -/

/-- Panels the envelope profile powers (Table 18.1, R383): none outside Run. -/
def Dev.profilePanels (d : Dev) : Nat := if d.pm.profile = 0 then 0 else if d.pm.profile = 1 then 4 else if d.pm.profile = 2 then 8 else 16

/-- Panels that are not RETIRED. -/
def Dev.goodPanels (d : Dev) : List Nat := (List.range 16).filter fun p => (d.panel p).state != psRetired

/-- The panels powered now. -/
def Dev.poweredPanels (d : Dev) : List Nat := if d.pm.state = 1 then d.goodPanels.take d.profilePanels else []

/-- Panels a host holds, with its running and loading jobs. -/
def Dev.heldPanels (d : Dev) (owner : Nat) : Nat :=
  ((d.jobs.jobs.filter fun e => e.2.owner == owner && e.2.stage == 2).map (·.2.panels)).foldl (· + ·) 0

/-- The quota of a host (R202). -/
def Dev.quotaOf (d : Dev) (owner : Nat) : Nat :=
  match (List.range 64).find? fun i => bit (d.reg (0x200500 + 4 * i)) 31 && d.fld (0x200500 + 4 * i) 12 12 == owner with
  | some i => d.fld (0x200500 + 4 * i) 0 5
  | none => d.fld 0x200400 0 5

/-- The detail with which R202 refuses a panel count under a quota, or none. -/
def Dev.panelsRefused (d : Dev) (quota n : Nat) : Option Nat :=
  if quota < n then some 0x30
  else if d.goodPanels.length < n then some 0x31
  else if (d.goodPanels.take d.profilePanels).length < n then some 0x32
  else none

/-- After a change that powers fewer panels, the queued jobs that R202 would now refuse end (R204), each under the quota it was admitted
with (R214). -/
def Dev.refuseQueued (d : Dev) : Dev :=
  let refused := d.jobs.jobs.filter fun j => j.2.stage == 0 && (d.panelsRefused j.2.quota j.2.panels).isSome
  forEach (refused.map (·.1)) (fun id d => d.jobEnd id stDenied 0x32 (idResult id)) d

/-- The store test that RETURN runs has ended: its result stands in TEST_BIST_STAT, and event 0x0921 tells of it (R205, R462). How many
words failed is a free value (log entry 5). -/
def Dev.panelTested (d : Dev) (p : Nat) (pass : Bool) : Dev :=
  let x := d.draw
  let r := if pass then 1 else 2
  let fails := if pass then 0 else 1 + x.1 % 0xFFFF
  { x.2 with test := { x.2.test with bistResult := r, bistFails := fails } }.log 0x0921 (code := r) (arg0 := p)

/-- PANEL_ADMIN: RETIRE, which takes back a RETURN that waits for its epoch, or RETURN with the outcome of the panel's store test. -/
def execPanelAdmin (ring idx : Nat) (testPass : Bool) (s : State) := liftDev (fun d =>
  d.withDesc ring idx 0x27 fun b d => d.gated ring idx false [4] fun d =>
    let p := field b 10 1 % 16
    let act := field b 11 1
    let d := if 1 < act then d.clamped 5 0 else d
    if !d.hasLease (d.ringOwner ring) then d.completeDesc ring idx stDenied 8 0 0
    else if act = 0 then
      let d := if (d.panel p).state = psRetired then d
        else if (d.panel p).state = psRunning || (d.panel p).state = psDraining || (d.panel p).state = psLoading then
          d.setPanel p fun q => { q with retireWish := true }
        else d.setPanel p fun q => { q with state := psRetired }
      ({ d with pool := { d.pool with addCapacity := ndel d.pool.addCapacity p } } : Dev).completeDesc ring idx stDone 0 0 0
    else if (d.panel p).state ≠ psRetired then d.completeDesc ring idx stDone 0 0 0
    else
      let d := d.panelTested p testPass
      if testPass then
        ({ (d.setPanel p fun q => { q with uncorr := 0, retireWish := false }) with
            pool := { d.pool with addCapacity := nadd d.pool.addCapacity p } }).completeDesc ring idx stDone 0 0 0
      else d.completeDesc ring idx stDeviceError 1 0 0) s

/-- A drained panel is zeroed; it is RETIRED where that was asked, OFF where it has no power, and IDLE otherwise (R160,
R205). -/
def Dev.panelDrained (d : Dev) (p : Nat) : Dev :=
  let k := d.knit
  let d := { d with knit := { k with
    stitches := k.stitches.filter fun e => e.1 / 512 != p,
    channels := k.channels.filter fun e => e.1 / 2048 != p,
    declared := k.declared.filter fun e => e / 2048 != p,
    buses := k.buses.filter fun e => e.1 / 8 != p,
    ports := k.ports.filter fun e => e.1 % 16 != p } }
  let wish := (d.panel p).retireWish
  let on := nmem d.poweredPanels p
  d.setPanel p fun q => { q with retireWish := false, state := if wish then psRetired else if on then psIdle else psOff }

def execPanelDrainDone (panel : Nat) (s : State) := liftDev (fun d =>
  if (d.panel panel).state = psDraining then d.panelDrained panel else d) s

/-! ## Admission (Table 8.5 steps 1 and 2) -/

/-- The image runs as a stock pattern. -/
def Job.stock (j : Job) : Bool := bit j.flags 1

/-- A job from its descriptor, fields clamped (Table 8.4). -/
def jobOf (owner ring idx : Nat) (b : List Byte) : Job :=
  { owner := owner, ring := ring, idx := idx, ctx := dCtx b, panels := clampN 1 16 (field b 10 1), flags := field b 11 1 % 4,
    stockId := field b 12 2, argLen := clampGrain 8 0 256 (field b 14 2), imageAddr := field b 16 8,
    imageLen := clampGrain 64 256 536870912 (field b 24 4), seed := field b 28 4, argAddr := field b 32 8,
    limitMs := clampN 0 3600000 (field b 40 4) }

/-- How many fields were clamped. -/
def jobClamps (b : List Byte) : Nat :=
  let j := jobOf 0 0 0 b
  b2n (j.panels != field b 10 1) + b2n (j.argLen != field b 14 2) + b2n (!j.stock && j.imageLen != field b 24 4) + b2n (j.limitMs != field b 40 4)

/-- Step 1: the status and detail of the first failure. -/
def Dev.jobRefused (d : Dev) (j : Job) : Option (Nat × Nat) :=
  match d.ctx j.ctx with
  | none => some (stDenied, 5)
  | some x =>
    if x.owner ≠ j.owner then some (stDenied, 5)
    else
      match d.panelsRefused (d.quotaOf j.owner) j.panels with
      | some det => some (stDenied, det)
      | none =>
        if (!j.stock && j.imageAddr % 64 ≠ 0) || j.argAddr % 8 ≠ 0 then some (stDenied, 0x20)
        else if j.stock && (stockRecord j.stockId).isNone then some (stDenied, 0x35)
        else if d.fld 0x200400 16 9 ≤ (d.jobs.jobs.filter (·.2.stage == 0)).length then some (stRetry, 0)
        else none

/-- Bytes of a job's image: the device's own for a stock pattern, else read under the owner's rights. -/
def Dev.imageRead (d : Dev) (j : Job) (n : Nat) : Got × Dev :=
  if j.stock then (.ok (slice (Config.stockImage j.stockId j.panels) 0 n), d) else d.readRun (some j.owner) j.imageAddr n

/-- Bytes supplied: a stock image supplies itself. -/
def Job.supplied (j : Job) (head : List Byte) : Nat := if j.stock then imgBytes head else j.imageLen

/-- Checks 0x01 to 0x04; a stock pattern without a variant for the panel count fails check 0x03 (R229). -/
def Dev.jobHead (d : Dev) (j : Job) (head : List Byte) : Nat :=
  let c := headCheck head (j.supplied head) j.panels (d.features j.owner)
  let lacks := match stockRecord j.stockId with
    | some r => j.stock && !bit (field r 2 2) (j.panels - 1)
    | none => false
  if lacks && (c = 0 || 3 < c) then 3 else c

/-- Step 2 for an admitted job: its header, read and checked; then it waits in the queue. A read that meets RETRY is made again when the
command is given again. -/
def Dev.jobHeader (d : Dev) (b : List Byte) (id : Nat) (j : Job) : Dev :=
  match d.imageRead j 256 with
  | (.again _, d) => d.unclaim j.ring j.idx
  | (.no st det, d) => d.jobEnd id st det (idResult id)
  | (.ok head, d) =>
    let code := d.jobHead j head
    if code ≠ 0 then d.jobEnd id stDenied (0x100 + code) (idResult id)
    else
      let j := { j with contig := imgContig head }
      let d := { d with jobs := { d.jobs with jobs := tput d.jobs.jobs id j, queue := d.jobs.queue ++ [id] } }
      d.repAdminOp b (natBytes 8 (idResult id) ++ zeros 4 ++ natBytes 4 5) [] j.owner 0

/-- JOB_RUN: admission, which gives the job its ID and its quota, and the header checks. -/
def execJobRun (ring idx : Nat) (s : State) := liftDev (fun d =>
  d.withDesc ring idx 0x20 fun b d =>
    match tfind d.jobs.jobs fun _ j => j.ring == ring && j.idx == idx with
    | some (id, j) => d.jobHeader b id j
    | none =>
      let j := jobOf (d.ringOwner ring) ring idx b
      d.gated ring idx true (if j.stock then [4, 19] else [4]) fun d =>
        let d := (List.range (jobClamps b)).foldl (fun d _ => d.clamped 5 0) d
        match d.jobRefused j with
        | some r => d.completeDesc ring idx r.1 r.2 0 0
        | none =>
          let c := d.choose 65536 fun i => (d.job i).isNone
          let j := { j with quota := d.quotaOf j.owner }
          (({ c.2 with jobs := { c.2.jobs with jobs := tput c.2.jobs.jobs (c.1.getD 0) j } } : Dev).setDone ring idx 1 []).jobHeader b
            (c.1.getD 0) j) s

/-! ## The bound check (R207) -/

/-- The image's declared segment of a virtual address. -/
def declAt (l : List SegDecl) (v : Int) : Option SegDecl :=
  l.find? fun x => decide ((x.first : Int) ≤ v) && decide (v < (x.first : Int) + x.length)

/-- Table 8.6 for a stretch of addresses of a tile, line by line: the detail of the first failure. -/
def boundRun (slots : List Segment) (decls : List SegDecl) (right : Nat) (lo hi : Int) : Nat → Option Nat
  | 0 => none
  | n + 1 =>
    if hi ≤ lo then none
    else
      match slots.find? fun x => decide ((x.vbase : Int) ≤ lo) && decide (lo < (x.vbase : Int) + x.length) with
      | none => some 0
      | some x =>
        if !rightsOk x.rights right then some 1
        else
          let e : Int := x.vbase + x.length
          match declAt decls lo with
          | none => boundRun slots decls right e hi n
          | some y =>
            if y.attr ≠ 2 && y.attr ≠ x.attr then some 2
            else boundRun slots decls right (min e (y.first + y.length)) hi n

/-- The failure of one tile. -/
def boundTile (slots : List Segment) (decls : List SegDecl) (t : Transfer) : Option Nat :=
  (List.range (t.repeats + 1)).findSome? fun r =>
    boundRun slots decls (if t.write then rightW else rightR) (t.range r).1 (t.range r).2 17

/-- The first tile that fails, in ascending tile index: its index and detail. -/
def boundCheck (slots : List Segment) (g : List Byte) : Option (Nat × Nat) :=
  (List.range (6 * imgPanels g)).findSome? fun q =>
    (portList g q).zipIdx.findSome? fun x => (boundTile slots (segDecls g) x.1).map fun det => (q * 65536 + x.2, det)

/-- Valid segments of a job. -/
def Dev.jobSlots (d : Dev) (j : Job) : List Segment := ((d.ctx j.ctx).map fun x => x.slots.map (·.2)).getD []

/-- The failure of an operand of a stock pattern: one left unmapped, or mapped with the wrong right or attribute (R230). -/
def Dev.stockBound (d : Dev) (j : Job) (rec : List Byte) : Option Nat :=
  (stockOperands rec).zipIdx.findSome? fun o =>
    let lo := operandBase o.2
    boundRun (d.jobSlots j) [{ first := lo, length := o.1.span, rights := 3, attr := o.1.attr }] (if o.1.write then rightW else rightR)
      lo (lo + o.1.span : Nat) 17

/-- The first check of Table 8.6 to fail: the tiles of the image, then the operands of a stock pattern. Of the tile at which an operand
fails the spec says nothing beyond the image, and RESULT is a free value (log entry 58). -/
def Dev.jobBound (d : Dev) (j : Job) (g : List Byte) : Option (Nat × Nat) × Dev :=
  match boundCheck (d.jobSlots j) g, (if j.stock then stockRecord j.stockId else none) with
  | some r, _ => (some r, d)
  | none, some rec =>
    match d.stockBound j rec with
    | some det => let x := d.draw; (some (x.1 % 2 ^ 32, det), x.2)
    | none => (none, d)
  | none, none => (none, d)

/-- The arguments a job's stitches receive, clamps counted. -/
def Dev.jobArgs (d : Dev) (j : Job) (args : List Byte) : List Byte × Dev :=
  match stockRecord j.stockId with
  | some r => if j.stock then let x := stockArgs r args; (x.1, (List.range x.2).foldl (fun d _ => d.clamped 5 0) d) else (args, d)
  | none => (args, d)

/-! ## Placement and loading (Table 8.5 steps 3 to 9) -/

/-- The panels a job is placed on: the lowest-numbered IDLE ones, or the lowest run of adjacent IDLE ones. -/
def Dev.placeOn (d : Dev) (j : Job) : Option (List Nat) :=
  let idle := (List.range 16).filter fun p => (d.panel p).state == psIdle
  if j.contig then
    ((List.range 16).find? fun p => (List.range j.panels).all fun i => nmem idle (p + i)).map fun p => (List.range j.panels).map (p + ·)
  else if j.panels ≤ idle.length then some (idle.take j.panels) else none

/-- A SIG section satisfies R194 and the sealed personality (R370): the tenant's key then, and stock patterns only with
ALLOW_STOCK. A stock image is signed by Krytber. -/
def Dev.signatureOk (d : Dev) (j : Job) (g : List Byte) : Bool :=
  let sealed := 2 ≤ d.sec.state && d.sec.state ≤ 4
  if j.stock then !sealed || bit d.sec.sealFlags 0
  else if sealed then secLen g 6 != 0 && sigOk g [d.sec.tenantKey]
  else secLen g 6 == 0 || sigOk g ((d.sec.keys.filter (·.owner == j.owner)).map (·.key))

/-- Step 5: the first valid segment that fails steps 6 and 7 of Table 8.2, as the job's status and detail. -/
def Dev.segsLost (d : Dev) (j : Job) : Option (Nat × Nat) :=
  match d.ctx j.ctx with
  | none => none
  | some x => x.slots.findSome? fun e =>
      (d.segCheck j.owner e.2).map fun r => if r.1 = stRevoked then (stRevoked, e.1) else (stDenied, 0x40 + e.1)

/-- The frames of the private segments, each with a reference (R208). -/
def Dev.privateFrames (d : Dev) (j : Job) : List (Nat × Nat) :=
  (((d.jobSlots j).filter (·.attr == 1)).map fun s => (extentsOf s.poolBase s.length).map fun e => (e, (d.emtOf e).frame)).flatten

/-- Put an image into its panels: stitches, declared channels, slot lists, transfer lists. -/
def Dev.loadPanels (d : Dev) (j : Job) (g args : List Byte) (seed : Nat) : Dev :=
  let phys := fun i => j.mask.getD (i / 512) 0 * 512 + i % 512
  let d := forEach (List.range (512 * j.panels)) (fun i d => d.setStitch (phys i) fun _ => loadStitch g args seed i) d
  let d := { d with knit := { d.knit with declared := d.knit.declared ++ (chanDecls g j.mask).map fun x => chanKey x.1 x.2 } }
  let d := forEach (List.range (8 * j.panels)) (fun row d =>
    { d with knit := { d.knit with buses := tput d.knit.buses (8 * j.mask.getD (row / 8) 0 + row % 8) { slots := courseSlots g row } } }) d
  forEach (List.range (6 * j.panels)) (fun q d =>
    d.setSport (16 * (q % 6) + j.mask.getD (q / 6) 0) fun _ => { list := portList g q }) d

/-- Steps 7 to 9: references, panels loaded and RUNNING, every stitch at its entry. -/
def Dev.jobStart (d : Dev) (id : Nat) (j : Job) (g args : List Byte) : Dev :=
  let frames := d.privateFrames j
  let d := forEach frames (fun e d => d.holdFrame e.2) d
  let seed := if bit j.flags 0 then j.seed else imgSeed g
  let j := { j with stage := 2, startAt := d.now, progressAt := d.now, lastWrite := d.now, frames := frames, args := args, seed := seed }
  let d := { d with jobs := { d.jobs with jobs := tput d.jobs.jobs id j, queue := ndel d.jobs.queue id } }
  let d := forEach j.mask (fun p d => d.setPanel p fun q => { q with state := psRunning, owner := j.owner, job := some id }) d
  let d := d.loadPanels j g args seed
  let d := forEach (List.range (512 * j.panels)) (fun i d =>
    let k := j.mask.getD (i / 512) 0 * 512 + i % 512
    if (d.job id).isNone then d else d.enterPc id j k (d.stitch k) (loadCode g i).1 []) d
  if (d.job id).isNone then d else forEach j.mask (fun p d => d.setUrgencies j p) d

/-- The private segments of a job can be resolved to frames: the sweep of each is over (R132), and no extent of one is being migrated (R144).
DEDUCED (log entry 56): the job waits for a migration under way, since none may go on while it runs. -/
def Dev.privatesReady (d : Dev) (j : Job) : Bool :=
  (d.jobSlots j).all d.privateSwept &&
  (d.privateFrames j).all fun e => d.pool.migrations.all fun g => !g.started || g.done || (g.ext != e.1 && g.src != e.2)

/-- Steps 4 to 7 for a job with its panels. Where a read meets RETRY the job stays where it is, and is taken again. -/
def Dev.jobLoad (d : Dev) (id : Nat) (j : Job) : Dev :=
  let fail := fun (st det res : Nat) (d : Dev) => d.jobEnd id st det res
  let jid := idResult id
  match d.imageRead j 256 with
  | (.again _, d) => d
  | (.no st det, d) => fail st det jid d
  | (.ok head, d) =>
    let c := d.jobHead j head
    if c ≠ 0 then fail stDenied (0x100 + c) jid d
    else
      match d.imageRead j (imgBytes head) with
      | (.again _, d) => d
      | (.no st det, d) => fail st det jid d
      | (.ok g, d) =>
        let c := imageCheck g (j.supplied g) j.panels (d.features j.owner) j.mask (d.signatureOk j g)
        if c ≠ 0 then fail stDenied (0x100 + c) jid d
        else
          match d.segsLost j with
          | some r => fail r.1 r.2 jid d
          | none =>
            match d.jobBound j g with
            | (some r, d) => fail stBound r.2 r.1 d
            | (none, d) =>
              if !d.privatesReady j then d
              else
              match d.readRun (some j.owner) j.argAddr j.argLen with
              | (.again _, d) => d
              | (.no st det, d) => fail st det jid d
              | (.ok args, d) => let a := d.jobArgs j args; a.2.jobStart id j g a.1

/-- The first queued job whose owner's quota has room (R203). -/
def Dev.nextJob (d : Dev) : Option (Nat × Job) :=
  d.jobs.queue.findSome? fun id =>
    match d.job id with
    | some j => if d.heldPanels j.owner + j.panels ≤ j.quota then some (id, j) else none
    | none => none

def execJobPlace (s : State) := liftDev (fun d =>
  if d.resetting 8 then d
  else
  match d.nextJob with
  | none => d
  | some (id, j) =>
    match d.placeOn j with
    | none => d
    | some mask => d.jobLoad id { j with mask := mask }) s

/-! ## How jobs end (R139, R209 to R211) -/

/-- A running job by its ID. -/
def Dev.runningJob (d : Dev) (id : Nat) : Option Job := (d.job id).filter (·.stage == 2)

/-- The job's stitches by array index. -/
def Job.stitches (j : Job) : List Nat := (j.mask.map fun p => (List.range 512).map (512 * p + ·)).flatten

/-- Every stitch has halted and every port has finished (R165). -/
def Dev.jobDone (d : Dev) (j : Job) : Bool :=
  (j.stitches.all fun k => (d.stitch k).run == .halted) && j.ports.all (d.portDone j)

/-- RESULT of a job that ends DONE (R211). -/
def Dev.jobResult (d : Dev) (job : Nat) : Nat :=
  match d.job job with
  | none => 0
  | some j => idResult job + j.maskBits * 2 ^ 32 + min 0xFFFFFFFF ((j.lastWrite - j.startAt) / 800)

/-- The results of a stock pattern stand in its outputs (R231). It waits where one of its accesses does, and ends where one fails (R145). -/
def Dev.stockEnd (d : Dev) (job : Nat) (j : Job) (rec : List Byte) : Dev :=
  match d.stockRun j rec with
  | (.ok _, d) => d.jobEnd job stDone 0 (d.jobResult job)
  | (.again, d) => d
  | (.failed port addr, d) => d.portPoisoned job j port addr

def execJobNaturalCompletion (job : Nat) (s : State) := liftDev (fun d =>
  match d.runningJob job with
  | none => d
  | some j =>
    if !d.jobDone j then d
    else
      match if j.stock then stockRecord j.stockId else none with
      | some rec => d.stockEnd job j rec
      | none => d.jobEnd job stDone 0 (d.jobResult job)) s

def execJobLimitTimeout (job : Nat) (s : State) := liftDev (fun d =>
  match d.runningJob job with
  | none => d
  | some j => if j.limitMs = 0 then d else (d.till (j.startAt + msTicks j.limitMs)).jobEnd job stTimeout 0 (idResult job)) s

/-- A port has an access outstanding: a read not returned, or a buffered line. -/
def Dev.portBusy (d : Dev) (n : Nat) : Bool := (d.sport n).reads.any (·.data.isNone) || !(d.sport n).writes.isEmpty

/-- A stall (R139). Where no stitch is blocked the spec names no stitch, and the place is a free value. -/
def execJobStall (job : Nat) (s : State) := liftDev (fun d =>
  match d.runningJob job with
  | none => d
  | some j =>
    if d.jobDone j || j.ports.any d.portBusy then d
    else
      let d := d.till (j.progressAt + msTicks (d.fld 0x200000 0 8))
      let x := d.draw
      match j.stitches.find? fun k => (d.stitch k).run == .blocked with
      | some k =>
        let a := (d.stitch k).pc
        (d.logKnit job j stDeviceError (j.rel k + a * 2 ^ 13) 0).jobEnd job stDeviceError 0x300 (a * 65536 + j.rel k)
      | none => (x.2.logKnit job j stDeviceError (x.1 % 2 ^ 23) 0).jobEnd job stDeviceError 0x300 (x.1 / 8192 % 1024 * 65536 + x.1 % 8192)) s

end Sys2Proof.Machine
end

