-- ==== Sys2Proof/Machine/Lookups.lean ====
section
/-! DEFINITION. The gather-reduce units (chapter 9): lookups from messages and descriptors, rows as they arrive, the
pooled vector, REDUCE from messages and descriptors, and the stock catalogue (R216 to R229). -/

namespace Sys2Proof.Machine

/-! ## Parameters (Table 4.6, R218 to R220) -/

/-- The format of lookup rows and of the pooled vector after clamping. -/
def lookIn (c : Nat) : Nat := if c ≤ 7 then c else 7
def lookOut (c : Nat) : Nat := if 4 ≤ c && c ≤ 7 then c else 7

/-- ROW_BYTES after clamping: a scaled row holds at least one block. -/
def lookRow (rb fmt : Nat) : Nat :=
  let r := clampGrain 16 16 4096 rb
  if fmtScaled fmt then max r ((4 * fmtBits fmt + 1 + 15) / 16 * 16) else r

/-- Elements of a row (R219). -/
def rowElems (fmt rowBytes : Nat) : Nat :=
  if fmtScaled fmt then rowBytes / (4 * fmtBits fmt + 1) * 32 else 8 * rowBytes / fmtBits fmt

/-- A lookup's parameters, before its lists. -/
structure LookParams where
  rowBytes : Nat
  stride : Nat
  pool : Nat
  inFmt : Nat
  outFmt : Nat
  count : Nat
  clamps : Nat

/-- The parameter block, with the most entries the request can hold. -/
def lookParams (p : List Byte) (most : Nat) : LookParams :=
  let inF := lookIn (field p 5 1)
  let outF := lookOut (field p 6 1)
  let rb := lookRow (field p 0 2) inF
  let st := clampGrain 16 rb 16777216 (field p 8 4)
  let pool := if field p 4 1 ≤ 3 then field p 4 1 else 0
  let n := clampN 1 (min most 4096) (field p 2 2)
  { rowBytes := rb, stride := st, pool := pool, inFmt := inF, outFmt := outF, count := n,
    clamps := b2n (rb != field p 0 2) + b2n (n != field p 2 2) + b2n (3 < field p 4 1) + b2n (inF != field p 5 1) +
      b2n (outF != field p 6 1) + b2n (st != field p 8 4) }

/-! ## The pooled vector (R223, R225) -/

/-- The FP32 lanes of a row. -/
def rowLanes (fmt rowBytes : Nat) (b : List Byte) : List (BitVec 32) :=
  let w := fmtBits fmt
  let v := leNat b
  let k := rowElems fmt rowBytes / 32
  (List.range (rowElems fmt rowBytes)).map fun i =>
    let x := ofFmt fmt (element v w i)
    toF32 (if fmtScaled fmt then x.mul (scaleOf (field b (4 * w * k + i / 32) 1)) else x)

/-- The accumulator before the first row. -/
def poolZero (pool n : Nat) : List (BitVec 32) := if pool = 2 then [] else List.replicate n 0#32

/-- One row pooled (Table 9.3). -/
def poolRow (pool : Nat) (acc : List (BitVec 32)) (row : List (BitVec 32)) (w : BitVec 32) : List (BitVec 32) :=
  if pool = 2 then if acc.isEmpty then row.map fun x => fmax x x else (acc.zip row).map fun p => fmax p.1 p.2
  else if pool = 3 then (acc.zip row).map fun p => ffma p.1 w p.2
  else (acc.zip row).map fun p => fadd p.1 p.2

/-- The pooled lanes of a whole list. -/
def poolEndLanes (pool count : Nat) (acc : List (BitVec 32)) : List (BitVec 32) :=
  if pool = 1 then acc.map fun x => fdivNat x count else acc

/-- The bytes of the pooled vector (R225). -/
def poolBytes (outFmt : Nat) (acc : List (BitVec 32)) : List Byte :=
  if outFmt = 7 then (acc.map fun x => natBytes 4 x.toNat).flatten
  else if outFmt = 6 then (acc.map fun x => natBytes 2 (toFmt 6 .even (ofF32 x)).1).flatten
  else
    let q := (List.range ((acc.length + 31) / 32)).map fun b => quantBlock outFmt (((acc.drop (32 * b)).take 32).map fun x => (ofF32 x, .even))
    ((q.map fun x => (x.1.map (natBytes 1 ·)).flatten).flatten) ++ (q.map fun x => natBytes 1 x.2.1).flatten

/-! ## Answers -/

/-- DETAIL of a lookup (Table 9.2). -/
def lookDetail (source position : Nat) : Nat := source * 2 ^ 14 + position % 4096

/-- The pooled vector as a read transfer (R94, R97). -/
def Dev.lookAnswer (d : Dev) (m : Msg) (v : List Byte) : Dev :=
  let n := (v.length + 255) / 256
  forEach (List.range n) (fun i d =>
    d.respond d.mir.unacked.length { d.datTo m stDone 0 0 ((v.drop (256 * i)).take 256) with xfer := i, last := i + 1 == n })
    ((d.countAnswer m.src stDone).sample m stDone)

/-- End a lookup without a vector. -/
def Dev.lookFail (d : Dev) (c : Caller) (st det rows : Nat) : Dev :=
  match c with
  | .desc ring idx => d.completeDesc ring idx st det 0 rows
  | .fab m => d.refuse m st det

/-- The GRUs in service (R216). -/
def Dev.gruList (d : Dev) : List Nat := (List.range 48).filter fun g => (d.stack (g / 8)).state != 5

/-- The GRU of a lookup: by ring, or by SRC XOR TAG. -/
def Dev.gruFor (d : Dev) (c : Caller) : Nat :=
  let l := d.gruList
  l.getD ((match c with
    | .desc ring _ => ring
    | .fab m => Nat.xor m.src m.tag) % l.length) 0

/-- Forget a lookup, counting it for its GRU (Table 9.10). -/
def Dev.lookDrop (d : Dev) (k : Nat) (l : Lookup) (retried : Bool) : Dev :=
  let d := forEach l.left (fun pos d => d.forgetRun (l.base + l.idx.getD pos 0 * l.stride) l.rowBytes) d
  { d.bump (0x280100 + 4 * l.gru) (if retried then 0 else 16) with
    gru := { (d.bump (0x280100 + 4 * l.gru) (if retried then 0 else 16)).gru with lookups := tdel d.gru.lookups k } }

/-- Change a lookup. -/
def Dev.setLookup (d : Dev) (k : Nat) (l : Lookup) : Dev := { d with gru := { d.gru with lookups := tput d.gru.lookups k l } }

/-- A lookup goes as far as it can: it fails once every row before its first failing one is in, and ends once every row
is (R221). -/
def Dev.lookStep (d : Dev) (k : Nat) : Dev :=
  match tget d.gru.lookups k with
  | none => d
  | some l =>
    let failNow := match l.failed with
      | some f => !l.left.any (· < f.1)
      | none => false
    match l.failed with
    | some f => if failNow then (d.lookDrop k l false).lookFail l.caller f.2 (lookDetail 0 f.1) l.seen else d
    | none =>
      if !l.left.isEmpty || l.lists.isSome then d
      else
        match l.missHint with
        | some h => (d.lookDrop k l true).lookFail l.caller stRetry h l.seen
        | none =>
          let d := d.lookDrop k l false
          let v := poolBytes l.outFmt (poolEndLanes l.pool l.idx.length l.acc)
          match l.caller with
          | .desc _ _ => d.output l.caller l.outAddr v stDone 0 v.length l.seen (resUnit := 1)
          | .fab m => d.lookAnswer m v

/-! ## Reading lists and rows -/

/-- Read a list of 4-byte elements line by line: bytes, or what stopped it and the element it stopped at. What snoops return stays until
the lists are in. -/
def Dev.listRead (d : Dev) (node addr : Nat) (acc : List Byte) : List Nat → (Got × Nat) × Dev
  | [] => ((.ok acc, 0), d)
  | l :: r =>
    match d.lineSee (some node) l true false with
    | (.ok b, d) => d.listRead node addr (acc ++ b) r
    | (x, d) => ((x, (max addr (l * 64) - addr) / 4), d)

/-- The list elements of a run. -/
def listElems (addr n : Nat) (b : List Byte) : List Nat := (List.range n).map fun i => field (b.drop (addr % 64)) (4 * i) 4

/-- Read the lists of a lookup (R220); where a read meets RETRY they are read again after the hint. -/
def Dev.readLists (d : Dev) (k : Nat) (l : Lookup) : Dev :=
  match l.lists with
  | none => d
  | some (n, ia, wa) =>
    let bad := fun (source : Nat) (x : Got × Nat) (d : Dev) => match x.1 with
      | .again h => d.setLookup k { l with listsAt := d.now + hintTicks h }
      | .no st _ => (((d.forgetRun ia (4 * n)).forgetRun wa (4 * n)).lookDrop k l false).lookFail l.caller st (lookDetail source x.2) 0
      | .ok _ => d
    match d.listRead l.node ia [] (linesOf ia (4 * n)) with
    | ((.ok ib, _), d) =>
      let go := fun (w : List (BitVec 32)) (d : Dev) =>
        ((d.forgetRun ia (4 * n)).forgetRun wa (4 * n)).setLookup k { l with lists := none, idx := listElems ia n ib, weights := w, left := List.range n }
      if l.pool = 3 then
        match d.listRead l.node wa [] (linesOf wa (4 * n)) with
        | ((.ok wb, _), d) => go ((listElems wa n wb).map (BitVec.ofNat 32 ·)) d
        | (x, d) => bad 2 x d
      else go [] d
    | (x, d) => bad 1 x d

/-- A line waits for a skein that is not resident (R221). -/
def Dev.lineMissing (d : Dev) (line : Nat) : Bool :=
  (d.emtOf (line / 2 ^ 19)).kind == 2 &&
  match tget d.far.cached (line / 1024) with
  | some s => s.state == 0
  | none => true

/-- The row at a list position is read: pooled, missed, to be reissued, or failed (R221). -/
def Dev.rowRead (d : Dev) (k pos : Nat) (l : Lookup) : Dev :=
  let a := l.base + l.idx.getD pos 0 * l.stride
  let done := { l with left := l.left.erase pos, reissue := l.reissue.filter (·.1 != pos) }
  let fail := fun (st : Nat) (l : Lookup) => match l.failed with
    | some f => if f.1 < pos then l else { l with failed := some (pos, st) }
    | none => { l with failed := some (pos, st) }
  if 2 ^ 48 < a + l.rowBytes then (d.setLookup k (fail stDenied done)).lookStep k
  else
    let lines := linesOf a l.rowBytes
    match d.readRun (some l.node) a l.rowBytes true with
    | (.ok b, d) =>
      let row := rowLanes l.inFmt l.rowBytes b
      let acc := if l.seen = 0 then poolZero l.pool row.length else l.acc
      (d.setLookup k { done with acc := poolRow l.pool acc row (l.weights.getD pos 0#32), seen := l.seen + 1 }).lookStep k
    | (.no st _, d) => (d.setLookup k (fail st done)).lookStep k
    | (.again h, d) =>
      if lines.any d.lineMissing then
        let d := forEach (lines.filter d.lineMissing) (fun x d => (d.lineRead (some l.node) x true).2) d
        (d.setLookup k { done with missHint := some (max h (l.missHint.getD 0)) }).lookStep k
      else d.setLookup k { l with reissue := l.reissue.filter (·.1 != pos) ++ [(pos, d.now + hintTicks h)] }

/-- A lookup begins: refused for its addresses, answered RETRY when its GRU is full, or in progress. -/
def Dev.lookStart (d : Dev) (c : Caller) (base : Nat) (p : LookParams) (idx : List Nat) (w : List (BitVec 32))
    (lists : Option (Nat × Nat × Nat)) (outAddr : Nat) : Dev :=
  let d := (List.range p.clamps).foldl (fun d _ => d.clamped 6 0) d
  let bad := base % 16 ≠ 0 || match lists with
    | some (_, ia, wa) => ia % 4 != 0 || (p.pool == 3 && wa % 4 != 0)
    | none => false
  let g := d.gruFor c
  if bad then d.lookFail c stDenied (lookDetail 3 0x20) 0
  else if d.resetting 9 || d.fld 0x280000 0 5 ≤ (d.gru.lookups.filter (·.2.gru == g)).length then
    let h := d.hint
    (h.2.bump (0x280100 + 4 * g) 0).lookFail c stRetry h.1 0
  else
    let k := d.gru.nextLookup
    let l : Lookup := { gru := g, caller := c, node := d.callerNode c, base := base, rowBytes := p.rowBytes, stride := p.stride, pool := p.pool,
                        inFmt := p.inFmt, outFmt := p.outFmt, idx := idx, weights := w, outAddr := outAddr, lists := lists,
                        left := List.range idx.length }
    let d := { d with gru := { d.gru with lookups := tput d.gru.lookups k l, nextLookup := k + 1 } }
    if lists.isSome then d.readLists k l else d

/-! ## The commands -/

/-- A LOOKUP message: lists inline. -/
def Dev.lookupInline (d : Dev) (m : Msg) : Dev :=
  let ws := field m.data 4 1 == 3
  let room := (m.len + 1 - 16) / (if ws then 8 else 4)
  if room = 0 then d.refuse m stDenied (lookDetail 3 0x22)
  else
    let p := lookParams m.data room
    let at_ := fun i => field m.data (16 + i) 4
    if ws then d.lookStart (.fab m) m.addr p ((List.range p.count).map fun i => at_ (8 * i))
        ((List.range p.count).map fun i => BitVec.ofNat 32 (at_ (8 * i + 4))) none 0
    else d.lookStart (.fab m) m.addr p ((List.range p.count).map fun i => at_ (4 * i)) [] none 0

/-- A LOOKUP_REF message: lists by reference. -/
def Dev.lookupByRef (d : Dev) (m : Msg) : Dev :=
  if m.len + 1 < (if field m.data 4 1 = 3 then 32 else 24) then d.refuse m stDenied (lookDetail 3 0x22)
  else
    let p := lookParams m.data 4096
    d.lookStart (.fab m) m.addr p [] [] (some (p.count, field m.data 16 8, field m.data 24 8)) 0

def execLookup (m : Msg) (s : State) := liftDev (fun d => if m.opcode ≠ 0x30 then d else d.arrive m fun d => d.lookupInline m) s
def execLookupRef (m : Msg) (s : State) := liftDev (fun d => if m.opcode ≠ 0x31 then d else d.arrive m fun d => d.lookupByRef m) s

/-- A lookup by descriptor. Table 9.4 gives it no field for the table base, which is a free value (log entry 21). -/
def execLookupDescriptor (ring idx : Nat) (s : State) := liftDev (fun d =>
  d.withDesc ring idx 0x40 fun b d => d.gated ring idx false [5] fun d =>
    let p := lookParams (slice b 8 16) 4096
    let a := d.draw
    a.2.lookStart (.desc ring idx) (a.1 % 2 ^ 44 * 16) p [] [] (some (p.count, field b 24 8, field b 32 8)) (field b 40 8)) s

/-- The row is among the 256 its GRU has outstanding at homes (R217). DESIGN CHOICE (log entry 54): a GRU issues rows lookup by
lookup, in list order. -/
def Dev.rowIssued (d : Dev) (k pos : Nat) (l : Lookup) : Bool :=
  let earlier := (d.gru.lookups.filter fun e => e.1 < k && e.2.gru == l.gru).map (·.2.left.length)
  earlier.foldl (· + ·) 0 + (l.left.filter (· < pos)).length < 256

/-- A row's lines have come back to a GRU. -/
def execGruRowReadAnswer (lookup pos : Nat) (s : State) := liftDev (fun d =>
  match tget d.gru.lookups lookup with
  | none => d
  | some l =>
    if nmem l.left pos && !l.reissue.any (·.1 == pos) && l.lists.isNone && d.rowIssued lookup pos l then d.rowRead lookup pos l else d) s

/-- A read answered RETRY goes again, a row's or, while they are not in, the lists'. -/
def execGruReissue (lookup pos : Nat) (s : State) := liftDev (fun d =>
  match tget d.gru.lookups lookup with
  | none => d
  | some l =>
    if l.lists.isSome then (d.till l.listsAt).readLists lookup l
    else
      match l.reissue.find? (·.1 == pos) with
      | some x => (d.till x.2).rowRead lookup pos l
      | none => d) s

/-! ## REDUCE (R226 to R228) -/

/-- Format fields of a REDUCE that are clamped. -/
def reduceClamps (row vec : Nat) : Nat := b2n (reduceFmt row != row) + b2n (reduceFmt vec != vec)

/-- A REDUCE message. -/
def Dev.reduceMsg (d : Dev) (m : Msg) : Dev :=
  let vb := fmtBits (reduceVec m) / 8
  let d := (List.range (reduceClamps (field m.data 0 1) (field m.data 2 1))).foldl (fun d _ => d.clamped 6 0) d
  if m.len + 1 ≤ 8 || (m.len + 1 - 8) % vb ≠ 0 then d.deny m 0x22
  else if m.addr % (fmtBits (reduceRow m) / 8) ≠ 0 then d.deny m 0x20
  else if spanBad m then d.deny m 0x24
  else if d.resetting 9 then d.retry m
  else d.accept m false

def execReduce (m : Msg) (s : State) := liftDev (fun d => if m.opcode ≠ 0x32 then d else d.arrive m fun d => d.reduceMsg m) s

/-- The REDUCE a descriptor stands for. -/
def reduceOf (node : Nat) (b vec : List Byte) : Msg :=
  { cls := 0, opcode := 0x32, src := node, dst := 0xFFF, tag := 0x2000, addr := field b 8 8, len := 7 + vec.length,
    data := slice b 16 1 ++ slice b 17 1 ++ slice b 18 1 ++ zeros 5 ++ vec }

/-- The first line of a segment that its owner may not change, or that cannot be served yet. -/
def Dev.reduceCheck (d : Dev) (node : Nat) : List Nat → Option Got × Dev
  | [] => (none, d)
  | l :: r =>
    match d.verdict (some node) (l * 64) rightA true with
    | .ok _ => d.reduceCheck node r
    | .no st det => (some (.no st det), d.kindNote node (l * 64) (l * 64))
    | .fetch => let x := (d.startFetch (l / 1024) false false (· == l / 1024)).gotWait l; (some x.1, x.2)
    | .copy =>
      match d.draftCopyStart (l / 2 ^ 19) with
      | (true, d) => let x := d.gotAgain; (some x.1, x.2)
      | (false, d) => (some (.no stDenied 2), d)
    | _ => let x := d.gotAgain; (some x.1, x.2)

/-- Update the lines left, each once no agent holds it; where one must wait the descriptor is given back. -/
def Dev.reduceGo (d : Dev) (ring idx : Nat) (m : Msg) (vec : List Byte) (n : Nat) : List Nat → Dev
  | [] => d.completeDesc ring idx stDone 0 0 n
  | l :: r =>
    if d.lineBlocked l then (d.setDone ring idx n vec).unclaim ring idx
    else
      match d.dirOf l with
      | some e => ((d.openInv l (.drop true) e m.src).setDone ring idx n vec).unclaim ring idx
      | none =>
        match d.reduceLines m (gruOfHome (homeOf (m.addr / 64))) [l] with
        | (.done, d) => d.reduceGo ring idx m vec (n + 1) r
        | (.poisoned, d) => d.completeDesc ring idx stPoisoned 0 0 n
        | (.wait, d) => (d.setDone ring idx n vec).unclaim ring idx

/-- REDUCE by descriptor: `vec` is what host memory answers a management host's vector read. A descriptor that had to
wait goes on when the command is given again. -/
def execReduceDescriptor (ring idx : Nat) (vec : List Byte) (s : State) := liftDev (fun d =>
  d.withDesc ring idx 0x41 fun b d => d.gated ring idx true [6] fun d =>
    let st := d.startedAt ring idx
    let node := d.ringOwner ring
    let vf := reduceFmt (field b 18 1)
    let g := fmtBits vf / 8
    let n := clampGrain g 1 1048576 (field b 20 4)
    let done := (st.map (·.done)).getD 0
    let buf := (st.map (·.buf)).getD []
    let got : Got × Dev := if !buf.isEmpty then (.ok buf, d)
      else if (nodePort node).isSome then (.ok (slice vec 0 n), d) else d.readRun (some node) (field b 24 8) n
    if d.resetting 9 then d.unclaim ring idx
    else
    match got with
    | (.again _, d) => d.unclaim ring idx
    | (.no st det, d) => d.completeDesc ring idx st det 0 0
    | (.ok v, d) =>
      let m := reduceOf node b v
      let d := if buf.isEmpty then (List.range (reduceClamps (field b 16 1) (field b 18 1) + b2n (n != field b 20 4))).foldl (fun d _ => d.clamped 6 0) d
        else d
      if n % g ≠ 0 then d.completeDesc ring idx stDenied 0x22 0 0
      else if m.addr % (fmtBits (reduceRow m) / 8) ≠ 0 then d.completeDesc ring idx stDenied 0x20 0 0
      else if spanBad m then d.completeDesc ring idx stDenied 0x24 0 0
      else if done ≠ 0 then d.reduceGo ring idx m v done ((reqLines m).drop done)
      else
        match d.reduceCheck node (reqLines m) with
        | (none, d) => d.reduceGo ring idx m v 0 (reqLines m)
        | (some (.no st det), d) => d.completeDesc ring idx st det 0 0
        | (some _, d) => (d.setDone ring idx 0 v).unclaim ring idx) s

/-- The stock catalogue (R229). -/
def execStockList (ring idx : Nat) (s : State) := liftDev (fun d =>
  d.withDesc ring idx 0x42 fun b d => d.gated ring idx false [19] fun d =>
    let n := clampGrain 32 32 1048576 (field b 48 4)
    let d := if n = field b 48 4 then d else d.clamped 6 0
    let l := stockRecords.take (n / 32)
    d.output (.desc ring idx) (field b 40 8) ((l.map fun r => slice r 0 32).flatten) stDone 0 stockRecords.length l.length (unit := 32)) s

end Sys2Proof.Machine
end

