-- ==== Sys2Proof/Machine/Movers.lean ====
section
/-! DEFINITION. The movers (chapter 10): steps and their accesses, translation with its cache and walkers, page faults,
invalidation (R235 to R248). A PCIe request other than a write leaves as `Out.pcie` with code 0 ATS Translation Request,
1 Page Request, 2 Invalidate Completion, 3 memory read at a translated address, and its fields as arguments. A mover's writes to a host
leave as `Out.hostStore`, at translated addresses too (R241). -/

namespace Sys2Proof.Machine

/-! ## Movers and their work -/

/-- A mover, and changing it. -/
def Dev.mover (d : Dev) (k : Nat) : Mover := tgetD d.mov.movers k {}
def Dev.setMover (d : Dev) (k : Nat) (f : Mover → Mover) : Dev :=
  { d with mov := { d.mov with movers := tput d.mov.movers k (f (d.mover k)) } }

/-- Change the work of a mover. -/
def Dev.setWork (d : Dev) (k : Nat) (w : MoverWork) : Dev := d.setMover k fun m => { m with work := some w }

/-- A translation context. -/
def Dev.xctxOf (d : Dev) (c : Nat) : Option Xctx := tget d.mov.xctx c

/-- The address of the current step on a side: 0 source, 1 destination. -/
def MoverWork.sideAddr (w : MoverWork) (side : Nat) : Nat := if side = 0 then w.src + w.offset else w.dst + w.dstDone

/-- Bytes the source gives in all: SEAL_LOAD reads a tag with every 65,536 bytes (R372). -/
def MoverWork.srcTotal (w : MoverWork) : Nat := if w.kind = 2 then w.length / 65536 * 65552 else w.length

/-- A side is HOST memory. -/
def MoverWork.isHost (w : MoverWork) (side : Nat) : Bool := if side = 0 then w.srcKind == 1 else w.dstKind == 1

/-- Bytes of the step at the current offset (R238). -/
def MoverWork.stepLen (w : MoverWork) : Nat :=
  let n := min 4096 (w.srcTotal - w.offset)
  let n := if w.isHost 0 then min n (4096 - (w.src + w.offset) % 4096) else n
  if w.isHost 1 then min n (4096 - (w.dst + w.dstDone) % 4096) else n

/-- PROGRESS: the resume point in 64-byte units (R238). -/
def MoverWork.progress (w : MoverWork) : Nat := (w.dstDone + w.wrote) / 64

/-- A mover has ended a step: invalidations no longer wait for it (R248). -/
def Dev.moverAck (d : Dev) (k : Nat) : Dev :=
  { d with mov := { d.mov with invs := d.mov.invs.map fun e => (e.1, { e.2 with movers := ndel e.2.movers k }) } }

/-- Forget the fabric requests a mover has outstanding. -/
def Dev.dropMoverReqs (d : Dev) (k : Nat) : Dev :=
  { d with fab := { d.fab with devReqs := d.fab.devReqs.filter fun r => r.2.purpose != 2 || r.2.index != k,
                               waitReqs := d.fab.waitReqs.filter fun w => w.2.1 != 2 || w.2.2 != k } }

/-! ## Translation (R241, R242) -/

/-- The translation-cache entry that grants an access. -/
def Dev.xlookup (d : Dev) (c va : Nat) (write : Bool) : Option Nat :=
  (d.mov.cache.find? fun e => e.ctx == c && e.page ≤ va && va < e.page + e.size && (if write then e.write else e.read)).map
    fun e => e.host + (va - e.page)

/-- Hold a translation: at most 8,192 entries, the newest first. -/
def Dev.xinsert (d : Dev) (e : XEntry) : Dev :=
  { d with mov := { d.mov with cache := (e :: d.mov.cache.filter fun x => !(x.ctx == e.ctx && x.page == e.page && x.size == e.size)).take 8192 } }

/-- Where a side of the step lies: its host address, or its own address where no translation is needed. -/
def Dev.sideGrant (d : Dev) (w : MoverWork) (side : Nat) : Option Nat :=
  if w.isHost side then d.xlookup w.xctx (w.sideAddr side) (side == 1) else some (w.sideAddr side)

/-- PASID argument of a PCIe message: 0 for none, else the PASID plus 2^20. -/
def pasidArg (x : Xctx) : Nat := if x.pasidEn then 2 ^ 20 + x.pasid else 0

/-- Send an ATS Translation Request for the page a mover wants. -/
def Dev.atsRequest (d : Dev) (k : Nat) (x : Xctx) (va : Nat) (write : Bool) : Dev :=
  (d.setMover k fun m => { m with atsOut := true, stale := false, walk := none }).emit (.pcie x.port 0 [k, pasidArg x, va / 4096 * 4096, b2n write])

/-- Walks in progress (R241). -/
def Dev.walks (d : Dev) : Nat := (d.mov.movers.filter fun m => (m.2.walk.map fun w => !w.waiting).getD false).length

/-- Walks that wait for a walker get one while any of the 16 is free. -/
def Dev.walksGo (d : Dev) : Dev :=
  forEach (List.range 32) (fun k d =>
    match (d.mover k).walk with
    | some w => if w.waiting && d.walks < 16 then d.setMover k fun m => { m with walk := some { w with waiting := false } } else d
    | none => d) d

/-- A miss is served (Table 10.5): by ATS, or by a walk, which waits while all 16 walkers are busy. -/
def Dev.missStart (d : Dev) (k : Nat) (w : MoverWork) (x : Xctx) (side : Nat) : Dev :=
  let va := w.sideAddr side
  let d := (d.bump 0x300010 0).setWork k { w with wantSide := side, phase := 0 }
  if x.service = 0 then d.atsRequest k x va (side == 1)
  else d.setMover k fun m => { m with walk := some { level := 4, table := x.root, va := va, write := side == 1, waiting := 16 ≤ d.walks },
                                        atsOut := false, stale := false }

/-! ## Steps (R238, R239) -/

/-- Issue the reads of a step: to the host, or to a client; a pool source is read when the step's data is due. -/
def Dev.issueRead (d : Dev) (k : Nat) (w : MoverWork) : Dev :=
  if w.srcKind = 1 then
    match d.xctxOf w.xctx with
    | some x => d.emit (.pcie x.port 3 [k, w.srcHost, w.stepLen])
    | none => d
  else if w.srcKind = 2 then
    (d.setWork k { w with parts := [] }).request
      { cls := 0, opcode := 2, src := d.ownNode, dst := w.srcNode, tag := 0, addr := w.src + w.offset, len := 3,
        data := natBytes 4 w.stepLen } 2 k |>.2
  else d

/-- Begin the step at the current offset: translate both sides, then read. -/
def Dev.moverBegin (d : Dev) (k : Nat) (w : MoverWork) (gone : Dev → Dev) : Dev :=
  let reset := fun (w : MoverWork) (side : Nat) => if w.wantSide = side then { w with rounds := 0 } else w
  match d.xctxOf w.xctx, w.isHost 0 || w.isHost 1 with
  | none, true => gone d
  | x, _ =>
    match d.sideGrant w 0 with
    | none => d.missStart k w (x.getD { port := 0, service := 0, faultPath := 2, pasid := 0, pasidEn := false, root := 0 }) 0
    | some a =>
      let w := reset w 0
      match d.sideGrant w 1 with
      | none => d.missStart k w (x.getD { port := 0, service := 0, faultPath := 2, pasid := 0, pasidEn := false, root := 0 }) 1
      | some b =>
        let w := { reset w 1 with phase := 1, srcHost := a, dstHost := b, retryAt := none, stuck := false }
        (d.setWork k w).issueRead k w

/-- Give waiting work to idle movers, and begin it. -/
def Dev.moverAssign (d : Dev) : Nat → Dev
  | 0 => d
  | n + 1 =>
    if d.boot.inReset.any fun e => e.1 == 10 then d
    else
    match d.mov.waitingWork with
    | [] => d
    | w :: rest =>
      let c := d.choose 32 fun k => (d.mover k).work.isNone
      match c.1 with
      | none => d
      | some k =>
        let d := { c.2 with mov := { c.2.mov with waitingWork := rest } }
        let d := (d.setMover k fun _ => { work := some w }).moverBegin k w fun d =>
          let side := if w.isHost 0 then 0 else 1
          (d.setMover k fun _ => {}).completeDesc w.ring w.idx stDenied (0x51 + side * 32768) (w.sideAddr side) w.progress
        d.moverAssign n

/-- Hand work to the movers. -/
def Dev.moverTake (d : Dev) (w : MoverWork) : Dev :=
  if nmem d.boot.dead 10 then d.completeDesc w.ring w.idx stDeviceError 0x400 0 w.progress
  else
    let d := { d with mov := { d.mov with waitingWork := d.mov.waitingWork ++ [w] } }
    d.moverAssign 32

/-- A mover's descriptor ends; the mover takes the next. -/
def Dev.moverEnd (d : Dev) (k : Nat) (st det res : Nat) : Dev :=
  match (d.mover k).work with
  | none => d
  | some w =>
    let d := ((d.moverAck k).dropMoverReqs k).setMover k fun _ => {}
    let d := if w.srcKind = 0 then d.forgetRun (w.src + w.offset) w.stepLen else d
    (d.completeDesc w.ring w.idx st det res w.progress).moverAssign 32

/-- A step fails on a side: the cause, the SIDE bit and the step's address there (R239). -/
def Dev.moverFail (d : Dev) (k side st cause : Nat) : Dev :=
  match (d.mover k).work with
  | none => d
  | some w => d.moverEnd k st (cause % 32768 + side * 32768) (w.sideAddr side)

/-- Begin a mover's next step; where its context has been cleared it ends as an admission without one would. -/
def Dev.moverNext (d : Dev) (k : Nat) : Dev :=
  match (d.mover k).work with
  | none => d
  | some w => d.moverBegin k w fun d => d.moverFail k (if w.isHost 0 then 0 else 1) stDenied 0x51

/-- A step has been written: the next begins, or the descriptor is done. -/
def Dev.stepEnd (d : Dev) (k : Nat) : Dev :=
  match (d.mover k).work with
  | none => d
  | some w =>
    let n := if w.kind = 2 then 0 else w.stepLen
    let w := { w with offset := w.offset + n, dstDone := w.dstDone + (if w.kind = 2 then 65536 else n), phase := 0, buffer := [], wrote := 0 }
    let d := (d.moverAck k).setWork k w
    if w.length ≤ w.dstDone then d.moverEnd k stDone 0 0 else d.moverNext k

/-- The messages of a WRITE_BULK transfer. -/
def bulkWrites (own dst addr tag : Nat) (bs : List Byte) : List Msg :=
  let n := (bs.length + 255) / 256
  (List.range n).map fun i =>
    let b := (bs.drop (256 * i)).take 256
    { cls := 0, opcode := 4, src := own, dst := dst, tag := tag, addr := addr + 256 * i, len := b.length - 1, xfer := i, last := i + 1 == n, data := b }

/-- Send the messages of a transfer that follow its first, under its tag. -/
def Dev.sendRest (d : Dev) (k tag : Nat) : Dev :=
  match (d.mover k).work with
  | none => d
  | some w => forEach ((bulkWrites d.ownNode w.dstNode (w.dst + w.dstDone) tag w.buffer).drop 1) (fun m d => d.sendMsg m) d

/-- Offer the `n` bytes of whole lines that a mover has just written from `a` on, if its descriptor asks for it (R129, R236). -/
def Dev.moverStash (d : Dev) (w : MoverWork) (a n : Nat) : Dev :=
  if !w.stash then d
  else forEach (List.range (n / 64)) (fun i d => d.offerStash (a / 64 + i) w.target (slice w.buffer (w.wrote + 64 * i) 64)) d

/-- Write what a step has read (R238). -/
def Dev.moverWrite (d : Dev) (k : Nat) : Dev :=
  match (d.mover k).work with
  | none => d
  | some w =>
    if w.dstKind = 1 then
      match d.xctxOf w.xctx with
      | some x => (d.emit (.hostStore x.port w.dstHost w.buffer)).stepEnd k
      | none => d.moverFail k 1 stDenied 0x51
    else if w.dstKind = 2 then
      match bulkWrites d.ownNode w.dstNode (w.dst + w.dstDone) 0 w.buffer with
      | m :: _ =>
        if !d.canSend (m, 2, k) then d.setWork k { w with retryAt := some (d.now + hintTicks 1) }
        else let x := d.request m 2 k; x.2.sendRest k x.1
      | [] => d
    else
      let a := w.dst + w.dstDone + w.wrote
      match d.writeBytes (some w.node) a (w.buffer.drop w.wrote) true with
      | (n, .ok _, d) => (d.moverStash w a n).stepEnd k
      | (n, .again h, d) => (d.moverStash w a n).setWork k { w with wrote := w.wrote + n, retryAt := some (d.now + hintTicks h) }
      | (n, .no st det, d) => ((d.moverStash w a n).setWork k { w with wrote := w.wrote + n }).moverFail k 1 st det

/-- IV of a SEAL_LOAD chunk (R372). -/
def chunkIv (n : Nat) : List Byte := zeros 4 ++ (natBytes 8 n).reverse

/-- The bytes of a step have come, so that invalidations wait for its host source no longer (R248): they are written; a SEAL_LOAD first completes its chunk and decrypts it. -/
def Dev.gotData (d : Dev) (k : Nat) (bs : List Byte) : Dev :=
  match (d.mover k).work with
  | none => d
  | some w =>
    let d := if w.isHost 0 && !w.isHost 1 then d.moverAck k else d
    if w.kind ≠ 2 then (d.setWork k { w with phase := 2, buffer := bs, wrote := 0, parts := [] }).moverWrite k
    else
      let w := { w with offset := w.offset + bs.length, buffer := w.buffer ++ bs, parts := [] }
      if w.buffer.length < 65552 then ((d.moverAck k).setWork k { w with phase := 0 }).moverNext k
      else
        match gcmOpen d.sec.weightKey (chunkIv (w.chunkBase + w.dstDone / 65536)) [] (w.buffer.take 65536) (slice w.buffer 65536 16) with
        | none => (d.setWork k w).moverEnd k stDenied 0x85 (w.src + (w.offset - 65552))
        | some plain => (d.setWork k { w with phase := 2, buffer := slice plain 0 65536, wrote := 0 }).moverWrite k

/-- Read a pool source, or make the fill pattern. -/
def Dev.moverRead (d : Dev) (k : Nat) : Dev :=
  match (d.mover k).work with
  | none => d
  | some w =>
    if w.kind = 1 then
      let n := w.stepLen
      d.gotData k ((List.range n).map fun i => (natBytes 8 w.src).getD ((w.offset + i) % 8) 0)
    else
      match d.readRun (some w.node) (w.src + w.offset) w.stepLen true with
      | (.ok b, d) => d.gotData k b
      | (.again h, d) => d.setWork k { w with retryAt := some (d.now + hintTicks h) }
      | (.no st det, d) => d.moverFail k 0 st det

/-- The reads of a step return: from the pool, or from the host as answered; a client's come as responses. -/
def execMoverStepData (mover : Nat) (answer : StepAnswer) (s : State) := liftDev (fun d =>
  match (d.mover mover).work with
  | none => d
  | some w =>
    if w.phase ≠ 1 || w.retryAt.isSome || w.srcKind = 2 then d
    else if w.srcKind = 1 then
      match answer with
      | .data b => d.gotData mover (slice b 0 w.stepLen)
      | .failed => d.moverFail mover 0 stDeviceError 2
    else d.moverRead mover) s

/-- An access answered RETRY goes again (R239). -/
def execMoverReissue (mover : Nat) (s : State) := liftDev (fun d =>
  match (d.mover mover).work with
  | none => d
  | some w =>
    match w.retryAt with
    | none => d
    | some t =>
      let w := { w with retryAt := none }
      let d := (d.till t).setWork mover w
      if w.phase = 2 then d.moverWrite mover else if w.srcKind = 2 then d.issueRead mover w else d.moverRead mover) s

/-- A client answers a mover's transfer (R237, R239). -/
def Dev.moverAnswer (d : Dev) (m : Msg) (key : Nat) (r : DevReq) : Dev :=
  let k := r.index
  match (d.mover k).work with
  | none => d.endReq key
  | some w =>
    if r.m.opcode = 4 then
      let d := d.endReq key
      if m.opcode = stDone then d.stepEnd k
      else if m.opcode = stRetry then d.setWork k { w with retryAt := some (d.now + hintTicks (msgDetail m)) }
      else d.moverFail k 1 m.opcode (msgDetail m)
    else
      let parts := tput w.parts m.xfer m
      let w := { w with parts := parts }
      let whole := match parts.find? (·.2.last) with
        | some l => (List.range (l.1 + 1)).all fun i => (tget parts i).isSome
        | none => false
      if !whole then d.setWork k w
      else
        let d := (d.endReq key).setWork k { w with parts := [] }
        match parts.find? fun p => p.2.opcode != stDone && p.2.opcode != stRetry with
        | some p => d.moverFail k 0 p.2.opcode (msgDetail p.2)
        | none =>
          match parts.find? fun p => p.2.opcode == stRetry with
          | some p => d.setWork k { w with parts := [], retryAt := some (d.now + hintTicks (msgDetail p.2)) }
          | none => d.gotData k (slice (parts.map fun p => p.2.data).flatten 0 w.stepLen)

/-- A client never answered (R239). -/
def Dev.moverLost (d : Dev) (k : Nat) : Dev :=
  match (d.mover k).work with
  | none => d
  | some w => d.moverFail k (if w.phase = 2 then 1 else 0) stTimeout 0

/-! ## Faults (R243 to R247) -/

/-- PRI of a port. -/
def Dev.pri (d : Dev) (p : Nat) : PriSt := if p = 0 then d.mov.pri0 else d.mov.pri1
def Dev.setPri (d : Dev) (p : Nat) (f : PriSt → PriSt) : Dev :=
  if p = 0 then { d with mov := { d.mov with pri0 := f d.mov.pri0 } } else { d with mov := { d.mov with pri1 := f d.mov.pri1 } }

/-- The access a fault record needs, as the flags it is raised with: bit 0 read, bit 1 write. -/
def FaultRec.need (f : FaultRec) : Nat := b2n f.read + 2 * b2n f.write

/-- Page requests outstanding on a port. -/
def Dev.priOut (d : Dev) (p : Nat) : Nat :=
  (d.mov.faults.filter fun f => f.2.path == 0 && f.2.raised.isSome && f.2.port == p).length

/-- End a waiting descriptor FAULTED (Table 10.8). -/
def Dev.workFaulted (d : Dev) (w : MoverWork) (cause : Nat) : Dev :=
  d.completeDesc w.ring w.idx stFaulted (cause + w.wantSide * 32768) (w.sideAddr w.wantSide / 4096 * 4096) w.progress

/-- Raise an open record on its path: a Page Request within the allocation, or an event (R244; the event's fields: log
entry 22). -/
def Dev.raiseFault (d : Dev) (i : Nat) : Dev :=
  match tget d.mov.faults i with
  | none => d
  | some f =>
    let p := f.port
    let limit := d.now + msTicks (d.fld 0x300000 16 16)
    let now := { d with mov := { d.mov with faults := tput d.mov.faults i { f with raised := some limit } } }
    let pasid := ((d.xctxOf f.ctx).map pasidArg).getD 0
    if f.raised.isSome then d
    else if f.path = 0 then
      if (d.pri p).allocation ≤ d.priOut p then d else now.emit (.pcie p 1 [i, pasid, f.page * 4096, f.need])
    else now.log (0x0500 + i / 32) (origin := portNode p) (code := i) (arg0 := f.ctx + f.need * 256) (arg1 := f.page * 4096)

/-- A record closes: each waiter has been dealt with, faults waiting for the allocation are raised, and movers that hold
a descriptor for want of a record try again. -/
def Dev.recordClosed (d : Dev) : Dev :=
  let d := forEach (d.mov.faults.filter fun f => f.2.path == 0 && f.2.raised.isNone) (fun f d =>
    if (d.pri f.2.port).stopped then
      let d := { d with mov := { d.mov with faults := tdel d.mov.faults f.1 } }
      forEach f.2.waiters (fun w d => d.workFaulted w 3) d
    else d.raiseFault f.1) d
  let d := d.moverAssign 32
  forEach (List.range 32) (fun k d => if ((d.mover k).work.map (·.stuck)).getD false then d.moverNext k else d) d

/-- The waiters of a record go on: each translates its step again. -/
def Dev.resumeRecord (d : Dev) (i : Nat) : Dev :=
  match tget d.mov.faults i with
  | none => d
  | some f =>
    let ws := f.waiters.map fun w => { w with rounds := w.rounds + 1 }
    { d with mov := { d.mov with faults := tdel d.mov.faults i, waitingWork := ws ++ d.mov.waitingWork } }.recordClosed

/-- The waiters of a record complete FAULTED. -/
def Dev.failRecord (d : Dev) (i cause : Nat) : Dev :=
  match tget d.mov.faults i with
  | none => d
  | some f =>
    let d := { d with mov := { d.mov with faults := tdel d.mov.faults i } }
    (forEach f.waiters (fun w d => d.workFaulted w cause) d).recordClosed

/-- Descriptors waiting on faults. -/
def Dev.faultWaiters (d : Dev) : Nat := (d.mov.faults.map fun f => f.2.waiters.length).foldl (· + ·) 0

/-- End a mover's descriptor FAULTED. -/
def Dev.moverFaulted (d : Dev) (k cause : Nat) : Dev :=
  match (d.mover k).work with
  | none => d
  | some w => d.moverEnd k stFaulted (cause + w.wantSide * 32768) (w.sideAddr w.wantSide / 4096 * 4096)

/-- A step faults (R243). -/
def Dev.moverFault (d : Dev) (k : Nat) : Dev :=
  match (d.mover k).work with
  | none => d
  | some w =>
    match d.xctxOf w.xctx with
    | none => d.moverNext k
    | some x =>
      let page := w.sideAddr w.wantSide / 4096
      let wr := w.wantSide == 1
      let d := d.setMover k fun m => { m with walk := none, atsOut := false, stale := false }
      if x.faultPath = 2 then d.moverFaulted k 5
      else if d.fld 0x300000 0 4 ≤ w.rounds then d.moverFaulted k 6
      else if x.faultPath = 0 && (d.pri x.port).stopped then d.moverFaulted k 3
      else
        let stuck := d.setWork k { w with stuck := true }
        let wait : MoverWork := { w with stuck := false, phase := 0, retryAt := none }
        let free := fun (d : Dev) => (d.moverAck k).setMover k fun _ => {}
        if 1024 ≤ d.faultWaiters then stuck
        else
          match d.mov.faults.find? fun f => f.2.ctx == w.xctx && f.2.page == page with
          | some (i, f) =>
            let f' : FaultRec := { f with waiters := f.waiters ++ [wait], read := f.read || !wr, write := f.write || wr }
            (free { d with mov := { d.mov with faults := tput d.mov.faults i f' } }).moverAssign 32
          | none =>
            let c := d.choose 256 fun i => (tget d.mov.faults i).isNone
            match c.1 with
            | none => stuck
            | some i =>
              let f : FaultRec := { ctx := w.xctx, page := page, read := !wr, write := wr, waiters := [wait], path := x.faultPath,
                                    port := x.port, raised := none }
              let d := { c.2 with mov := { c.2.mov with faults := tput c.2.mov.faults i f } }
              ((free (d.bump 0x300010 16)).raiseFault i).moverAssign 32

/-! ## Answers to translations -/

/-- A translation has been inserted or refused: the step goes on if it is granted, and otherwise faults. -/
def Dev.translated (d : Dev) (k : Nat) : Dev :=
  match (d.mover k).work with
  | none => d
  | some w =>
    let d := d.setMover k fun m => { m with walk := none, atsOut := false, stale := false }
    if (d.sideGrant w w.wantSide).isSome then d.moverNext k else d.moverFault k

/-- The page sizes held. -/
def pageSize (n : Nat) : Nat := if 2 ^ 30 ≤ n then 2 ^ 30 else if 2 ^ 21 ≤ n then 2 ^ 21 else 4096

/-- Hold an ATS translation of an address: one larger than 1 GiB as the 1 GiB page of the address. -/
def Dev.holdTranslation (d : Dev) (c va : Nat) (t : Translation) : Dev :=
  let p := pageSize t.size
  d.xinsert { ctx := c, page := va / p * p, size := p, host := t.addr + (va / p * p - va / t.size * t.size), read := t.read, write := t.write }

def execAtsTranslationCompletion (mover : Nat) (answer : Option Translation) (s : State) := liftDev (fun d =>
  match (d.mover mover).work with
  | none => d
  | some w =>
    if !(d.mover mover).atsOut then d
    else
      match d.xctxOf w.xctx with
      | none => d.moverNext mover
      | some x =>
        let va := w.sideAddr w.wantSide
        if (d.mover mover).stale then d.atsRequest mover x va (w.wantSide == 1)
        else
          match answer with
          | some t => (d.holdTranslation w.xctx va t).translated mover
          | none => d.translated mover) s

/-- A walk does not grant: ATS follows with SERVICE Both, else a fault (Table 10.5). -/
def Dev.walkRefused (d : Dev) (k : Nat) (x : Xctx) (wk : Walk) : Dev :=
  if x.service = 2 then d.atsRequest k x wk.va wk.write else d.moverFault k

/-- An entry of a walk has been read (Table 10.6). -/
def Dev.walkEntry (d : Dev) (k : Nat) (w : MoverWork) (x : Xctx) (wk : Walk) (e : Nat) : Dev :=
  let size := if wk.level = 3 then 2 ^ 30 else if wk.level = 2 then 2 ^ 21 else 4096
  let leaf := wk.level = 1 || (wk.level < 4 && bit e 2)
  let addr := bits e 12 40 * 4096
  let bad := !bit e 0 || bits e 52 12 ≠ 0 || bits e 3 9 ≠ 0 || (wk.level = 4 && bit e 2) ||
    (if leaf then addr % size ≠ 0 else 2 ^ 48 ≤ addr)
  if bad then d.walkRefused k x wk
  else if leaf then
    let ent : XEntry := { ctx := w.xctx, page := wk.va / size * size, size := size, host := addr, read := true, write := wk.allW && bit e 1 }
    let d := d.xinsert ent
    if wk.write && !ent.write then d.walkRefused k x wk else d.translated k
  else d.setMover k fun m => { m with walk := some { wk with level := wk.level - 1, table := addr, allW := wk.allW && bit e 1, retryAt := none } }

/-- Read the entry a walk stands at, as the owning port (R242). -/
def Dev.walkRead (d : Dev) (k : Nat) : Dev :=
  match (d.mover k).work, (d.mover k).walk with
  | some w, some wk =>
    match d.xctxOf w.xctx with
    | none => d.moverNext k
    | some x =>
      let at_ := wk.table + 8 * bits wk.va (12 + 9 * (wk.level - 1)) 9
      match d.lineRead (some (portNode x.port)) (at_ / 64) true with
      | (.ok b, d) => d.walkEntry k w x wk (field b (at_ % 64) 8)
      | (.again h, d) => d.setMover k fun m => { m with walk := some { wk with retryAt := some (d.now + hintTicks h) } }
      | (.no _ _, d) => d.moverFaulted k 7
  | _, _ => d

def execWalkerReadAnswer (mover : Nat) (s : State) := liftDev (fun d =>
  match (d.mover mover).walk with
  | some wk => if wk.retryAt.isSome || wk.waiting then d else (d.walkRead mover).walksGo
  | none => d) s

def execWalkerReissue (mover : Nat) (s : State) := liftDev (fun d =>
  match (d.mover mover).walk with
  | some wk =>
    match wk.retryAt with
    | some t => ((d.till t).walkRead mover).walksGo
    | none => d
  | none => d) s

def execPriGroupResponse (port index code : Nat) (s : State) := liftDev (fun d =>
  match tget d.mov.faults index with
  | none => d
  | some f =>
    if f.path ≠ 0 || f.raised.isNone || f.port ≠ port then d
    else if code = 0 then d.resumeRecord index
    else if code = 1 then d.failRecord index 2
    else (d.setPri port fun p => { p with stopped := true }).failRecord index 3) s

def execFaultTimeout (record : Nat) (s : State) := liftDev (fun d =>
  match tget d.mov.faults record with
  | none => d
  | some f =>
    match f.raised with
    | some t => (d.till t).failRecord record 1
    | none => d) s

/-- PRI Enable written in the port's PRI capability: set, it lets a stopped port raise again (R244). -/
def execPriEnableWrite (port : Nat) (enable : Bool) (allocation : Nat) (s : State) := liftDev (fun d =>
  (d.setPri port fun p => { p with enabled := enable, allocation := allocation, stopped := p.stopped && !(enable && !p.enabled) }).recordClosed) s

/-! ## Admission of COPY and FILL (R236, R237) -/

/-- An endpoint kind after clamping. -/
def epKind (c : Nat) : Nat := if c ≤ 2 then c else 0

/-- The work of a COPY or FILL descriptor. -/
def moverOf (ring idx node : Nat) (fill : Bool) (b : List Byte) : MoverWork :=
  { ring := ring, idx := idx, node := node, kind := b2n fill, src := field b 8 8, dst := field b 16 8,
    length := clampGrain 64 64 274877906880 (field b 24 8), srcKind := if fill then 3 else epKind (field b 32 1),
    dstKind := epKind (field b 33 1), srcNode := field b 34 2 % 4096, dstNode := field b 36 2 % 4096, xctx := field b 38 1,
    stash := bit (field b 39 1) 0, target := field b 40 2 % 4096 }

/-- Fields of a COPY or FILL that are clamped. -/
def moverClamps (fill : Bool) (b : List Byte) : Nat :=
  b2n (clampGrain 64 64 274877906880 (field b 24 8) != field b 24 8) + b2n (!fill && 2 < field b 32 1) + b2n (2 < field b 33 1)

/-- A range of an endpoint is out of bounds (Table 10.3 step 5). -/
def rangeBad (kind a n : Nat) : Bool := if kind = 1 then 2 ^ 48 < a + n else if kind = 3 then false else 0xFFFFF0000000 < a + n

/-- Table 10.3: the detail of the first failure. -/
def Dev.moverRefused (d : Dev) (w : MoverWork) : Option Nat :=
  let client := (nodePort w.node).isNone
  let host := w.isHost 0 || w.isHost 1
  let clientOk := fun (kind n : Nat) => kind != 2 || (if client then n == w.node else 1 ≤ n && n ≤ 0xEFF)
  if (w.kind ≠ 1 && w.src % 64 ≠ 0) || w.dst % 64 ≠ 0 then some 0x20
  else if client && host then some 0x50
  else if host && (match d.xctxOf w.xctx with
      | some x => portNode x.port != w.node
      | none => true) then some 0x51
  else if !clientOk w.srcKind w.srcNode || !clientOk w.dstKind w.dstNode then some 0x52
  else if rangeBad w.srcKind w.src w.srcTotal || rangeBad w.dstKind w.dst w.length then some 0x24
  else none

/-- A descriptor's work, once its checks pass. -/
def Dev.moverAdmit (d : Dev) (w : MoverWork) (clamps : Nat) : Dev :=
  let d := (List.range clamps).foldl (fun d _ => d.clamped 7 0) d
  match d.moverRefused w with
  | some det => d.completeDesc w.ring w.idx stDenied det 0 0
  | none => d.moverTake w

/-- The unit may not change pool state through this descriptor: a pool destination on a standby (R308). -/
def Dev.moverGated (d : Dev) (ring idx : Nat) (w : MoverWork) (f : Dev → Dev) : Dev := d.gated ring idx (w.dstKind == 0) [] f

def execCopy (ring idx : Nat) (s : State) := liftDev (fun d =>
  d.withDesc ring idx 0x30 fun b d =>
    let w := moverOf ring idx (d.ringOwner ring) false b
    d.moverGated ring idx w fun d => d.moverAdmit w (moverClamps false b)) s

def execFill (ring idx : Nat) (s : State) := liftDev (fun d =>
  d.withDesc ring idx 0x31 fun b d =>
    let w := moverOf ring idx (d.ringOwner ring) true b
    d.moverGated ring idx w fun d => d.moverAdmit w (moverClamps true b)) s

/-! ## Contexts and invalidation (R240, R248) -/

/-- Two address ranges meet. -/
def meets (a n b m : Nat) : Bool := a < b + m && b < a + n

/-- The current step of a mover still makes accesses under translations of a context in a range: its reads, until they have returned, and
its writes. -/
def MoverWork.touches (w : MoverWork) (ctxs : List Nat) (base len : Nat) : Bool :=
  nmem ctxs w.xctx && ((w.isHost 0 && w.phase == 1 && meets (w.sideAddr 0) (max 1 w.stepLen) base len) ||
    (w.isHost 1 && w.phase != 0 && meets (w.sideAddr 1) (max 1 w.stepLen) base len))

/-- Start an invalidation: entries removed, walks restarted, translations under way marked, movers with accesses under a
removed entry awaited. -/
def Dev.invalidate (d : Dev) (ctxs : List Nat) (base len port : Nat) (caller : Option Caller) (count : Bool) : Dev :=
  let gone := d.mov.cache.filter fun e => nmem ctxs e.ctx && meets e.page e.size base len
  let d := { d with mov := { d.mov with cache := d.mov.cache.filter fun e => !(nmem ctxs e.ctx && meets e.page e.size base len) } }
  let movers := (List.range 32).filter fun k => ((d.mover k).work.map fun w => w.touches ctxs base len).getD false
  let d := forEach (List.range 32) (fun k d =>
    match (d.mover k).work with
    | some w =>
      if !nmem ctxs w.xctx then d
      else
        d.setMover k fun m => { m with
          stale := m.stale || m.atsOut,
          walk := m.walk.map fun wk => if meets (wk.va / 4096 * 4096) 4096 base len then
            { level := 4, table := ((d.xctxOf w.xctx).map (·.root)).getD 0, va := wk.va, write := wk.write, waiting := wk.waiting }
            else wk }
    | none => d) d
  let v : Invalidation := { caller := caller, port := port, removed := if count then gone.length else 0, movers := movers }
  { d with mov := { d.mov with invs := tput d.mov.invs d.mov.nextInv v, nextInv := d.mov.nextInv + 1 } }

def execInvalidationDone (inv : Nat) (s : State) := liftDev (fun d =>
  match tget d.mov.invs inv with
  | none => d
  | some v =>
    if !v.movers.isEmpty then d
    else
      let d := { d with mov := { d.mov with invs := tdel d.mov.invs inv } }
      match v.caller with
      | some c => d.complete c stDone 0 0 v.removed
      | none => d.emit (.pcie v.port 2 [inv])) s

/-- INVALIDATE: contexts the submitting port owns. -/
def execInvalidate (ring idx : Nat) (s : State) := liftDev (fun d =>
  d.withDesc ring idx 0x33 fun b d => d.gated ring idx false [] fun d =>
    let node := d.ringOwner ring
    let c := field b 8 1
    let all := bit (field b 9 1) 0
    let n := clampGrain 4096 4096 (2 ^ 48) (field b 24 8)
    let d := if n = field b 24 8 || all then d else d.clamped 7 0
    match nodePort node with
    | none => d.completeDesc ring idx stDenied 0x50 0 0
    | some p =>
      if ((d.xctxOf c).map (·.port)) ≠ some p then d.completeDesc ring idx stDenied 0x51 0 0
      else if !all && field b 16 8 % 4096 ≠ 0 then d.completeDesc ring idx stDenied 0x20 0 0
      else if all then d.invalidate [c] 0 (2 ^ 64) p (some (.desc ring idx)) true
      else d.invalidate [c] (field b 16 8) n p (some (.desc ring idx)) true) s

def execAtsInvalidateRequest (port : Nat) (pasid : Option Nat) (base length : Nat) (s : State) := liftDev (fun d =>
  let ctxs := (d.mov.xctx.filter fun e => e.2.port == port && match pasid with
    | some p => e.2.pasidEn && e.2.pasid == p
    | none => true).map (·.1)
  d.invalidate ctxs base length port none true) s

/-- Table 10.4: the status and detail of the first failure. -/
def Dev.xctxRefused (d : Dev) (node c : Nat) (x : Xctx) : Option (Nat × Nat) :=
  let walks := x.service ≠ 0
  if (nodePort node).isNone then some (stDenied, 0x50)
  else if (match d.xctxOf c with
      | some y => y.port != x.port
      | none => false) then some (stDenied, 0x51)
  else if x.service ≠ 1 && !d.hasFeature node 10 then some (stDenied, 0x53)
  else if walks && !d.hasFeature node 11 then some (stDenied, 0x53)
  else if (x.faultPath = 0 && !(d.hasFeature node 10 && (d.pri x.port).enabled)) || (x.faultPath = 1 && !d.hasFeature node 15) then some (stDenied, 0x53)
  else if !walks then none
  else if x.root % 4096 ≠ 0 then some (stDenied, 0x20)
  else
    match d.rightsCheck node rightR (d.emtOf (x.root / 2 ^ 25)) with
    | some r => some r
    | none => d.viewCheck node (x.root / 2 ^ 25) (d.emtOf (x.root / 2 ^ 25))

/-- XCTX_SET. -/
def execXctxSet (ring idx : Nat) (s : State) := liftDev (fun d =>
  d.withDesc ring idx 0x32 fun b d => d.gated ring idx false [] fun d =>
    let node := d.ringOwner ring
    let c := field b 8 1
    let valid := field b 11 1 ≠ 0
    let x : Xctx := { port := (nodePort node).getD 0, service := if field b 9 1 ≤ 2 then field b 9 1 else 0,
                      faultPath := if field b 10 1 ≤ 2 then field b 10 1 else 2, pasid := field b 12 4 % 2 ^ 20,
                      pasidEn := bit (field b 12 4) 31, root := field b 16 8 }
    let n := b2n (2 < field b 9 1) + b2n (2 < field b 10 1) + b2n (1 < field b 11 1)
    let d := (List.range n).foldl (fun d _ => d.clamped 7 0) d
    match d.xctxRefused node c x with
    | some r => d.completeDesc ring idx r.1 r.2 0 0
    | none =>
      let d := { d with mov := { d.mov with xctx := if valid then tput d.mov.xctx c x else tdel d.mov.xctx c } }
      d.invalidate [c] 0 (2 ^ 64) x.port (some (.desc ring idx)) false) s

/-- FAULT_RESOLVE (R245). -/
def execFaultResolve (ring idx : Nat) (s : State) := liftDev (fun d =>
  d.withDesc ring idx 0x34 fun b d => d.gated ring idx false [15] fun d =>
    let i := field b 8 2 % 256
    let act := field b 10 1
    let d := if 1 < act then d.clamped 7 0 else d
    match tget d.mov.faults i with
    | none => d.completeDesc ring idx stDenied 0x54 0 0
    | some f =>
      if f.path ≠ 1 || f.raised.isNone || ((d.xctxOf f.ctx).map fun x => portNode x.port) ≠ some (d.ringOwner ring) then
        d.completeDesc ring idx stDenied 0x54 0 0
      else if act = 0 then (d.resumeRecord i).completeDesc ring idx stDone 0 0 f.waiters.length
      else (d.failRecord i 4).completeDesc ring idx stDone 0 0 0) s

/-! ## Tier hints and decay (R249, R250, R253) -/

/-- Skeins of a range of a region's extents. -/
def rangeSkeins (base first last : Nat) : List Nat :=
  (List.range ((last + 1 - first) * 512)).map ((base + first) * 512 + ·)

/-- A skein a hint still works on: a fetch not installed, or a demotion under way. -/
def Dev.hintPending (d : Dev) (promote : Bool) (sk : Nat) : Bool :=
  match tget d.far.cached sk with
  | some s => if promote then s.state == 0 else s.state == 2 || nmem d.far.demoting sk
  | none => promote && (d.emtOf (sk / 512)).kind == 2

/-- A cached skein that DEMOTE cannot demote for as long as nothing else changes it: dirty, with no drive to take it or with poisoned lines
(R264, R358). -/
def Dev.keptDirty (d : Dev) (sk : Nat) (s : Skein) : Bool :=
  s.dirty && !(d.writable (d.emtOf (sk / 512)) && !d.poisonedIn (s.slot * 65536) 1024)

/-- A hint's own skeins: those of its region's extents from FIRST to LAST (R253). -/
def Dev.hintOwn (d : Dev) (b : List Byte) (sk : Nat) : Bool :=
  let e := d.emtOf (sk / 512)
  match d.regionOf (dHandle b) with
  | some r => e.kind == 2 && e.handle == dHandle b && min (field b 16 4) (r.count - 1) ≤ e.index && e.index ≤ field b 20 4
  | none => false

/-- A DEMOTE begins with what it has waited for: a skein that was being written back, or held by a fence or a fault record, is demoted as
soon as that is over (R251, R252). -/
def Dev.hintDemote (d : Dev) (h : TierHint) : TierHint × Dev :=
  h.todo.foldl (fun x sk =>
    match tget x.2.far.cached sk with
    | some s =>
      if x.2.demotable sk s then ({ x.1 with todo := ndel x.1.todo sk, left := x.1.left ++ [sk] }, x.2.demote sk)
      else if x.2.keptDirty sk s && s.state = 1 then ({ x.1 with todo := ndel x.1.todo sk }, x.2)
      else x
    | none => ({ x.1 with todo := ndel x.1.todo sk }, x.2)) (h, d)

/-- Hints go on: fetches and demotions that could not begin are tried again, and hints whose skeins are all done complete. -/
def Dev.hintsGo (d : Dev) : Dev :=
  forEach d.mov.hints (fun h d =>
    let b := d.callerBytes (.desc h.ring h.idx)
    let promote := field b 24 1 == 0
    let x := if promote then (h, forEach (h.left.filter (d.hintPending true)) (fun sk d => d.startFetch sk false true (d.hintOwn b)) d)
      else d.hintDemote h
    let d := x.2
    let h := { x.1 with left := x.1.left.filter (d.hintPending promote) }
    let hs := d.mov.hints.filter fun x => !(x.ring == h.ring && x.idx == h.idx)
    if h.left.isEmpty && h.todo.isEmpty then ({ d with mov := { d.mov with hints := hs } } : Dev).completeDesc h.ring h.idx stDone 0 0 h.total
    else { d with mov := { d.mov with hints := hs ++ [h] } }) d

/-- TIER_HINT. -/
def execTierHint (ring idx : Nat) (s : State) := liftDev (fun d =>
  d.withDesc ring idx 0x35 fun b d => d.gated ring idx false [7] fun d =>
    let node := d.ringOwner ring
    let h := dHandle b
    let act := if field b 24 1 ≤ 2 then field b 24 1 else 2
    let d := if 2 < field b 24 1 then d.clamped 7 0 else d
    match d.liveRegion h with
    | none => d.completeDesc ring idx stDenied (if (nodePort node).isSome then 0x0A else 0) 0 0
    | some r =>
      let first := min (field b 16 4) (r.count - 1)
      let last := min (field b 20 4) (r.count - 1)
      let d := if first ≠ field b 16 4 then d.clamped 7 0 else d
      let d := if last ≠ field b 20 4 then d.clamped 7 0 else d
      if !d.holds node h rightR then d.completeDesc ring idx stDenied 0 0 0
      else if !r.backed then d.completeDesc ring idx stDenied 1 0 0
      else
        let all := rangeSkeins r.base first last
        if act = 2 then
          let l := all.filter fun sk => (tget d.far.cached sk).isSome
          { d with mov := { d.mov with counters := l.foldl (fun t sk => tput t sk 0xFFFF) d.mov.counters } }.completeDesc
            ring idx stDone 0 0 l.length
        else if act = 1 then
          let l := all.filter fun sk => match tget d.far.cached sk with
            | some s => s.state != 0 && !(s.state == 1 && d.keptDirty sk s)
            | none => false
          let busy := l.filter (d.hintPending false)
          let h : TierHint := { ring := ring, idx := idx, left := busy, todo := l.filter fun sk => !nmem busy sk, total := l.length }
          { d with mov := { d.mov with hints := d.mov.hints ++ [h] } }.hintsGo
        else
          let l := all.filter fun sk => match tget d.far.cached sk with
            | some s => s.state == 0
            | none => true
          let h : TierHint := { ring := ring, idx := idx, left := l, total := l.length }
          { d with mov := { d.mov with hints := d.mov.hints ++ [h] } }.hintsGo) s

/-- Halve a table of counters; zeros are not listed. -/
def halve (t : Tbl Nat) : Tbl Nat := (t.map fun e => (e.1, e.2 / 2)).filter fun e => e.2 != 0

def execCounterDecay (s : State) := liftDev (fun d =>
  let d := d.till d.mov.nextDecay
  { d with mov := { d.mov with counters := halve d.mov.counters, sketch := halve d.mov.sketch,
                               nextDecay := d.now + msTicks (d.fld 0x300008 16 16) } }) s

end Sys2Proof.Machine
end

