-- ==== Sys2Proof/Machine/FarRows.lean ====
section
/-! DEFINITION. The far tier's commands and events (chapter 11): drives and their states, adoption, retirement, failure and
rebuild, and what an NVMe command's end does (R255 to R268). The NVMe event rows themselves stand in NvmeRows, after the
mirror, whose standby goes on where a fetch ends. -/

namespace Sys2Proof.Machine

/-! ## Drives and their states (R256) -/

/-- The event of a change of a drive's state: its other fields are open. -/
def Dev.driveEvent (d : Dev) (k : Nat) : Dev := d.logSrc (if k < 32 then 0x0580 + k else 0x05A0)

/-- Put a drive in a state. -/
def Dev.driveState (d : Dev) (k st : Nat) : Dev :=
  match d.drive k with
  | none => d
  | some v =>
    if v.state = st then d
    else ({ d with far := { d.far with drives := tput d.far.drives k { v with state := st } } }).driveEvent k

/-- A drive becomes ABSENT: its number, or its place among the found ones, is free. -/
def Dev.driveAbsent (d : Dev) (k : Nat) : Dev :=
  if (d.drive k).isNone then d else ({ d with far := { d.far with drives := tdel d.far.drives k } }).driveEvent k

/-- An adopted drive is FOUND again. Its number stays bound to it until it becomes ABSENT (R256). -/
def Dev.driveFound (d : Dev) (k : Nat) : Dev :=
  match d.drive k with
  | none => d
  | some v =>
    ({ d with far := { d.far with drives := tput d.far.drives k { v with state := 1, fails := 0, times := [] } },
              pool := { d.pool with addCapacity := ndel d.pool.addCapacity (32 + k) } }).driveEvent k

/-- Extents with a copy on a drive. -/
def Dev.driveExtents (d : Dev) (k : Nat) : List Nat := (d.pool.emt.filter fun e => e.2.kind == 2 && nmem e.2.drives k).map (·.1)

/-- Extents that depend on a drive alone (R266, Table 11.7). -/
def Dev.soleExtents (d : Dev) (k : Nat) : List Nat :=
  (d.driveExtents k).filter fun e => (d.emtOf e).drives.all fun x => x == k || !d.driveServes x

/-! ## What drives hold (R261; log entry 13) -/

/-- The first byte of a slot of a drive. -/
def mediaKey (drive slot : Nat) : Nat := (drive * 2 ^ 19 + slot) * 2 ^ 25

/-- What a 4,096-byte unit of the media decrypts to under a tweak, as cells of the media (R261): zeros where it has not been written since
it was deallocated, its plaintext under the tweak it was encrypted with, and under another tweak a free value, as the memory key is
secret. -/
def Dev.unitPlain (d : Dev) (u tweak : Nat) : List Host.Cell :=
  let cells := d.far.media.filter fun c => u * 4096 ≤ c.1 && c.1 < u * 4096 + 4096
  match tget d.far.tweaks u with
  | none => cells
  | some t =>
    if t = tweak then cells
    else ((List.range 4096).map fun i => (u * 4096 + i, Config.misdecrypted t tweak (memRead cells (u * 4096) 4096) i)).filter (·.2 != 0)

/-- What a skein of a slot decrypts to: the tweak of a unit is its pool address shifted right by 12 (R261). -/
def Dev.skeinPlain (d : Dev) (drive slot sk : Nat) : List Host.Cell :=
  ((List.range 16).map fun j => d.unitPlain (mediaKey drive slot / 4096 + sk % 512 * 16 + j) (sk * 16 + j)).flatten

/-- The units of a run of the media are encrypted under the tweaks of a pool address on. -/
def Dev.setTweaks (d : Dev) (key addr n : Nat) : Dev :=
  { d with far := { d.far with tweaks := (List.range n).foldl (fun t j => tput t (key / 4096 + j) (addr / 4096 + j)) d.far.tweaks } }

/-- Read a skein from a slot into the near tier. -/
def Dev.loadSkein (d : Dev) (drive slot sk near : Nat) : Dev :=
  let from_ := mediaKey drive slot + sk % 512 * 65536
  let to_ := near * 65536
  let cells := (d.skeinPlain drive slot sk).map fun c => (c.1 - from_ + to_, c.2)
  let mem : List Host.Cell := cells.foldl (fun m c => memPut m c.1 c.2) (memZero d.mem to_ 65536)
  { d with mem := mem }.unpoisonRun to_ 1024

/-- Write a skein to a slot: poisoned lines, whose bytes are zero, as zeros (R358). -/
def Dev.storeSkein (d : Dev) (drive slot sk near : Nat) : Dev :=
  let from_ := near * 65536
  let to_ := mediaKey drive slot + sk % 512 * 65536
  let cells := (d.mem.filter fun c => from_ ≤ c.1 && c.1 < from_ + 65536).map fun c => (c.1 - from_ + to_, c.2)
  ({ d with far := { d.far with media := cells.foldl (fun m c => memPut m c.1 c.2) (memZero d.far.media to_ 65536) } } : Dev).setTweaks
    to_ (sk * 65536) 16

/-- Copy a whole slot to another. -/
def Dev.copySlot (d : Dev) (drive slot drive' slot' : Nat) : Dev :=
  let from_ := mediaKey drive slot
  let to_ := mediaKey drive' slot'
  let cells := (d.far.media.filter fun c => from_ ≤ c.1 && c.1 < from_ + 2 ^ 25).map fun c => (c.1 - from_ + to_, c.2)
  let tweaks := (d.far.tweaks.filter fun t => from_ / 4096 ≤ t.1 && t.1 < from_ / 4096 + 8192).map fun t => (t.1 - from_ / 4096 + to_ / 4096, t.2)
  let rest := d.far.tweaks.filter fun t => t.1 < to_ / 4096 || to_ / 4096 + 8192 ≤ t.1
  { d with far := { d.far with media := cells.foldl (fun m c => memPut m c.1 c.2) (memZero d.far.media to_ (2 ^ 25))
                               tweaks := tweaks.foldl (fun t x => tput t x.1 x.2) rest } }

/-- Deallocated slots read as zeros; slot 524,288 stands for the whole namespace. -/
def Dev.clearSlot (d : Dev) (drive slot : Nat) : Dev :=
  let lo := if slot = 524288 then mediaKey drive 0 else mediaKey drive slot
  let n := if slot = 524288 then 2 ^ 44 else 2 ^ 25
  { d with far := { d.far with media := memZero d.far.media lo n
                               tweaks := d.far.tweaks.filter fun t => t.1 < lo / 4096 || (lo + n) / 4096 ≤ t.1 } }

/-- The skein number of a deallocation that serves no extent. -/
abbrev noSkein : Nat := 2 ^ 40

/-! ## Skeins (R262, R263, R312) -/

/-- A skein read from its drive is resident, and the fetch is counted. -/
def Dev.installSkein (d : Dev) (sk : Nat) : Dev :=
  match tget d.far.cached sk with
  | none => d
  | some s => (d.settleSkein sk s).bump 0x380004 16

/-- Skeins read whose residency records the partner has acknowledged, or that have no partner any more, are installed. -/
def Dev.installReady (d : Dev) : Dev :=
  let due := d.far.cached.filter fun e => e.2.ready && (!d.mirrors || (match e.2.owed with
    | some q => d.mir.unacked.all fun r => r.seq != q
    | none => true))
  if due.isEmpty then d else (forEach due (fun e d => d.installSkein e.1) d).hintsGo

/-- A Read of a skein has succeeded. -/
def Dev.skeinRead (d : Dev) (c : NvmeCmd) : Dev :=
  match tget d.far.cached c.skein, d.drive c.drive with
  | some s, some v =>
    let times := ((d.now - c.issued) :: v.times).take 64
    let d := { d with far := { d.far with drives := tput d.far.drives c.drive { v with times := times } } }
    if s.state ≠ 0 then d
    else if s.cancelled || (d.emtOf (c.skein / 512)).kind ≠ 2 then d.dropSkein c.skein
    else
      let d := d.loadSkein c.drive c.slot c.skein s.slot
      ({ d with far := { d.far with cached := tput d.far.cached c.skein { s with ready := true } } }).installReady
  | _, _ => d

/-! ## Copies between drives (R265, R266) -/

/-- The best of the drives that have a slot free: another root port than `other` first (R260). -/
def Dev.pickTarget (d : Dev) (others : List Nat) (slot : Nat) : Option Nat :=
  let l := d.openDrives.filter fun n => !nmem others n && d.slotFreeAt n slot
  (d.bestDrive (l.filter fun n => others.all fun o => d.drivePort n != d.drivePort o)).or (d.bestDrive l)

/-- The lowest slot free on all of `with_` and on one more drive, and that drive. -/
def Dev.pickSlot (d : Dev) (with_ others : List Nat) : Option (Nat × Nat) :=
  let l := (d.openDrives.filter fun n => !nmem others n && !nmem with_ n).filterMap fun n => (d.lowSlot (n :: with_)).map (·, n)
  l.foldl (fun b x => match b with
    | none => some x
    | some y => if x.1 < y.1 || (x.1 == y.1 && d.driveFree y.2 < d.driveFree x.2) then some x else some y) none

/-- Where an extent of a retiring drive goes (R266). -/
def Dev.planRetire (d : Dev) (ext n : Nat) : Option FarMove :=
  let e := d.emtOf ext
  let swap := fun (x t : Nat) => if x = n then t else x
  if !e.repl then
    (d.pickFar false).map fun p =>
      { ext := ext, src := n, srcSlot := e.slot, targets := [p.1], drive := p.1, drive2 := 0, slot := p.2.2, fenced := true }
  else
    let other := if e.drive = n then e.drive2 else e.drive
    match d.pickTarget [other] e.slot with
    | some t => some { ext := ext, src := n, srcSlot := e.slot, targets := [t], drive := swap e.drive t, drive2 := swap e.drive2 t,
                       slot := e.slot, fenced := true }
    | none =>
      let stay := if d.driveServes other then [other] else []
      (d.pickSlot stay [other]).map fun p =>
        { ext := ext, src := n, srcSlot := e.slot, targets := p.2 :: stay, drive := swap e.drive p.2, drive2 := swap e.drive2 p.2,
          slot := p.1, fenced := true }

/-- How a replicated extent that lost a drive is made whole (R265): a copy on another drive, or first a move of the
survivor to a slot that another drive has free too. -/
def Dev.planRebuild (d : Dev) (ext n : Nat) : Option FarMove :=
  let e := d.emtOf ext
  let live := if e.drive = n then e.drive2 else e.drive
  if !d.driveServes live || e.fence then none
  else
    match d.pickTarget [live] e.slot with
    | some t => some { ext := ext, src := live, srcSlot := e.slot, targets := [t], drive := live, drive2 := t, slot := e.slot, fenced := false }
    | none =>
      (d.pickSlot [live] []).map fun p =>
        { ext := ext, src := live, srcSlot := e.slot, targets := [live], drive := e.drive, drive2 := e.drive2, slot := p.1, fenced := true }

/-- Set FENCE of an extent. -/
def Dev.fenceExt (d : Dev) (ext : Nat) (on : Bool) : Dev :=
  { d with pool := { d.pool with emt := tmod d.pool.emt ext fun e => { e with fence := on } } }

/-- Take up a move. -/
def Dev.addMove (d : Dev) (g : FarMove) : Dev :=
  let d := { d with far := { d.far with moves := d.far.moves ++ [g] } }
  if g.fenced then d.fenceExt g.ext true else d

/-- Drop a move, its data staying where it was. -/
def Dev.dropMove (d : Dev) (g : FarMove) : Dev :=
  let d := { d with far := { d.far with moves := d.far.moves.filter fun x => x.ext != g.ext,
                                        cmds := d.far.cmds.filter fun c => !(5 ≤ c.2.kind && c.2.skein / 512 == g.ext) } }
  if g.fenced then (d.fenceExt g.ext false).unpark else d

/-- A copy command of a move is outstanding. -/
def Dev.moveBusy (d : Dev) (g : FarMove) : Bool := d.far.cmds.any fun c => 5 ≤ c.2.kind && c.2.skein / 512 == g.ext

/-- The first move goes on with its next skein. -/
def Dev.moveNext (d : Dev) : Dev :=
  match d.far.moves with
  | [] => d
  | g :: _ => if d.moveBusy g then d else d.nvmeIssue g.src 5 (g.ext * 512 + g.skein) g.srcSlot 0

/-- A move has copied its last skein: the extent has its new places, and the slots it left are deallocated. -/
def Dev.moveEnd (d : Dev) (g : FarMove) : Dev :=
  let e := d.emtOf g.ext
  let d := forEach g.targets (fun t d => d.copySlot g.src g.srcSlot t g.slot) d
  let d := { d with pool := { d.pool with emt := tput d.pool.emt g.ext { e with drive := g.drive, drive2 := g.drive2, slot := g.slot } } }
  let left := e.drives.filter fun x => ((d.drive x).map (·.state)) == some 3 && !(nmem [g.drive, g.drive2] x && g.slot == e.slot)
  let d := forEach left (fun x d => d.nvmeIssue x 3 noSkein e.slot 0) d
  d.dropMove g

/-- A skein of a move has been written to every target: the next follows. -/
def Dev.moveStep (d : Dev) (ext : Nat) : Dev :=
  match d.far.moves.find? (·.ext == ext) with
  | none => d
  | some g =>
    if d.moveBusy g then d
    else if (d.emtOf ext).kind ≠ 2 then d.dropMove g
    else if g.skein = 511 then
      let more := fun (o : FarOp) => if o.drive = some g.src && !o.adopt then { o with done := o.done + 1 } else o
      let d := { d with far := { d.far with ops := d.far.ops.map more } }
      d.moveEnd g
    else
      ({ d with far := { d.far with moves := d.far.moves.map fun (x : FarMove) => if x.ext = ext then { x with skein := x.skein + 1 } else x } }).unpark

/-! ## Operations in progress: FAR_FLUSH, DRIVE_RETIRE, DRIVE_ADOPT -/

/-- Replace an operation. -/
def Dev.setOp (d : Dev) (o : FarOp) : Dev :=
  { d with far := { d.far with ops := d.far.ops.map fun x => if x.ring = o.ring && x.idx = o.idx then o else x } }

/-- Remove an operation. -/
def Dev.dropOp (d : Dev) (o : FarOp) : Dev :=
  { d with far := { d.far with ops := d.far.ops.filter fun x => !(x.ring == o.ring && x.idx == o.idx) } }

/-- Issue a command an operation waits for. -/
def Dev.opIssue (d : Dev) (o : FarOp) (drive kind slot : Nat) : Dev :=
  let n := d.far.nextCmd
  (d.setOp { o with cmds := n :: o.cmds }).nvmeIssue drive kind noSkein slot 0

/-- Issue Flush to each drive of a list. -/
def Dev.opFlush (d : Dev) (o : FarOp) : List Nat → Dev
  | [] => d
  | x :: r =>
    match d.far.ops.find? fun y => y.ring == o.ring && y.idx == o.idx with
    | some o' => (d.opIssue o' x 2 0).opFlush o r
    | none => d

/-- A retirement cannot go on: the drive is ACTIVE again. -/
def Dev.retireBack (d : Dev) (o : FarOp) (n : Nat) : Dev :=
  let d := forEach (d.far.moves.filter (·.src == n)) (fun g d => d.dropMove g) d
  let d := d.dropOp o
  if ((d.drive n).map (·.state)) = some 4 then d.driveState n 3 else d

/-- One operation goes as far as it can. -/
def Dev.opGo (d : Dev) (o : FarOp) : Nat → Dev
  | 0 => d
  | k + 1 =>
    let setGo := fun (d : Dev) (o : FarOp) => (d.setOp o).opGo o k
    if !o.cmds.isEmpty then d
    else
      match o.drive with
      | none =>
        if o.stage = 0 then
          if !o.skeins.isEmpty then d
          else
            let o := { o with stage := 2 }
            let d := d.setOp o
            let l := o.drives.filter d.driveServes
            if l.isEmpty then d.opGo o k else d.opFlush o l
        else (d.dropOp o).completeDesc o.ring o.idx (if o.bad then stDeviceError else stDone) (if o.bad then 1 else 0) 0 o.done
      | some n =>
        if o.adopt then
          if o.bad then ((d.dropOp o).driveFound n).completeDesc o.ring o.idx stDeviceError 1 0 0
          else
            let slots := ((d.drive n).map (·.slots)).getD 0
            let d := (d.dropOp o).driveState n 3
            ({ d with pool := { d.pool with addCapacity := nadd d.pool.addCapacity (32 + n) } }).completeDesc o.ring o.idx stDone 0 slots 0
        else if o.stage = 0 then if o.skeins.isEmpty then setGo d { o with stage := 1 } else d
        else if o.stage = 1 then
          if d.far.moves.any (·.src == n) then d
          else
            match d.driveExtents n with
            | [] =>
              let o := { o with stage := 2 }
              (d.setOp o).opIssue o n 2 0
            | e :: rest =>
              match d.planRetire e n with
              | some g => d.addMove g
              | none => (d.retireBack o n).completeDesc o.ring o.idx stDenied 2 (rest.length + 1) o.done
        else if o.stage = 2 then
          let o := { o with stage := 3 }
          (d.setOp o).opIssue o n 3 524288
        else
          let d := { d with pool := { d.pool with emt := d.pool.emt.filter fun e => !(e.2.kind == 0 && e.2.frame == 0xFFFF && e.2.drives == [n]) } }
          ((d.dropOp o).driveFound n).completeDesc o.ring o.idx stDone 0 0 o.done

/-- While REBUILD is 1, replicated extents that have lost a drive are made whole as soon as there is room (R265). -/
def Dev.rebuildAll (d : Dev) : Dev :=
  let failed := (d.far.drives.filter (·.2.state == 5)).map (·.1)
  if d.fld 0x380000 0 1 = 0 || failed.isEmpty then d
  else forEach d.pool.emt (fun e d =>
    match e.2.drives.find? (nmem failed) with
    | some n =>
      if e.2.kind ≠ 2 || !e.2.repl || d.far.moves.any (·.ext == e.1) then d
      else
        match d.planRebuild e.1 n with
        | some g => d.addMove g
        | none => d
    | none => d) d

/-- Everything the far tier has in hand goes on. -/
def Dev.farGo (d : Dev) : Dev :=
  let d := forEach d.far.ops (fun o d => match d.far.ops.find? (fun x => x.ring == o.ring && x.idx == o.idx) with
    | some o => d.opGo o 4
    | none => d) d
  d.rebuildAll.moveNext.hintsGo.wantedGo

/-- An NVMe command is over: operations no longer wait for it, and one that waits for the drive may be sent. -/
def Dev.cmdOver (d : Dev) (i : Nat) : Dev :=
  let drive := ((tget d.far.cmds i).map (·.drive)).getD 0
  ({ d with far := { d.far with cmds := tdel d.far.cmds i, ops := d.far.ops.map fun o => { o with cmds := ndel o.cmds i } } } : Dev).nvmeGo drive

/-! ## Write-back (R264, R358) -/

/-- A skein is no longer waited for; `counted` if its write-back succeeded, `bad` if it failed for good. -/
def Dev.skeinSettled (d : Dev) (sk : Nat) (counted bad : Bool) : Dev :=
  let settle := fun (o : FarOp) =>
    if !nmem o.skeins sk then o
    else { o with skeins := ndel o.skeins sk, done := o.done + b2n (counted && o.drive.isNone), bad := o.bad || bad }
  { d with far := { d.far with ops := d.far.ops.map settle } }

/-- The last Write of a skein's write-back has ended. -/
def Dev.writeBackEnd (d : Dev) (sk : Nat) : Dev :=
  match tget d.far.cached sk with
  | none => d.skeinSettled sk false false
  | some s =>
    if d.far.cmds.any (fun c => c.2.kind == 1 && c.2.skein == sk) || (s.state ≠ 2 && s.state ≠ 3) then d
    else
      let poisoned := d.poisonedIn (s.slot * 65536) 1024
      let wanted := d.far.ops.any fun o => nmem o.skeins sk
      let stay := { d with far := { d.far with cached := tput d.far.cached sk { s with state := 1, cancelled := false, dirty := s.cancelled || poisoned } } }
      if s.cancelled then
        if wanted && d.writable (d.emtOf (sk / 512)) then stay.writeBackStart sk 3 else stay.skeinSettled sk false true
      else
        let d := (stay.bump 0x380004 0).skeinSettled sk true false
        if s.state = 2 && !poisoned then d.demoted sk else d

/-- A Write of a write-back has succeeded: the slot holds the skein, if its extent still lies there. -/
def Dev.skeinWritten (d : Dev) (c : NvmeCmd) : Dev :=
  match tget d.far.cached c.skein with
  | none => d.skeinSettled c.skein false false
  | some s =>
    let e := d.emtOf (c.skein / 512)
    if e.kind = 2 && nmem e.drives c.drive && e.slot = c.slot then (d.storeSkein c.drive c.slot c.skein s.slot).writeBackEnd c.skein
    else
      ({ d with far := { d.far with cached := tput d.far.cached c.skein { s with cancelled := true } } }).writeBackEnd c.skein

/-! ## Commands that fail, drives that fail (R263 to R265) -/

/-- A command failed for good. -/
def Dev.cmdLost (d : Dev) (c : NvmeCmd) : Dev :=
  if c.kind = 0 then
    match tget d.far.cached c.skein with
    | none => d
    | some s =>
      let e := d.emtOf (c.skein / 512)
      if s.cancelled || e.kind ≠ 2 then d.dropSkein c.skein
      else
        match (d.replica e).filter (· != c.drive) with
        | some x => if c.attempt < 2 then d.nvmeIssue x 0 c.skein e.slot 2 else d.installLost c.skein
        | none => d.installLost c.skein
  else if c.kind = 1 then
    let d := d.skeinSettled c.skein false true
    ({ d with far := { d.far with cached := tmod d.far.cached c.skein fun s => { s with cancelled := true } } }).writeBackEnd c.skein
  else if c.kind = 4 then
    match c.caller with
    | some x => d.complete x stDeviceError 1 0 0
    | none => d
  else d

/-- A command goes with its drive, which has failed: a write-back goes on with the extent's other drive, and succeeds if that one's Write has
(R264). -/
def Dev.cmdGone (d : Dev) (c : NvmeCmd) : Dev :=
  if c.kind = 1 && (d.emtOf (c.skein / 512)).drives.any fun x => x != c.drive && d.driveServes x then d.writeBackEnd c.skein
  else d.cmdLost c

/-- Delete a drive's I/O queues (R257, R265), submission queues first. -/
def Dev.deleteQueues (d : Dev) (n : Nat) : Dev :=
  match d.drive n with
  | none => d
  | some v =>
    let io := v.pairs.filter (·.queue != 0)
    let d := forEach io (fun q d => d.emit (.nvme n 0x100 0 [q.queue])) d
    let d := forEach io (fun q d => d.emit (.nvme n 0x104 0 [q.queue])) d
    { d with far := { d.far with drives := tmod d.far.drives n fun v => { v with pairs := [] } } }

/-- A drive fails: its queues go, and with them its commands. -/
def Dev.driveFailed (d : Dev) (n : Nat) : Dev :=
  let cs := d.far.cmds.filter (·.2.drive == n)
  let d := (d.driveState n 5).deleteQueues n
  let d := { d with pool := { d.pool with addCapacity := ndel d.pool.addCapacity (32 + n) } }
  let d := forEach (d.far.moves.filter fun g => g.src == n || nmem g.targets n) (fun g d => d.dropMove g) d
  let d := forEach (d.far.ops.filter fun o => o.drive == some n) (fun o d =>
    (d.dropOp o).completeDesc o.ring o.idx stDeviceError 1 0 o.done) d
  let d := forEach cs (fun c d => d.cmdOver c.1) d
  let d := forEach cs (fun c d => d.cmdGone c.2) d
  let d := { d with pool := { d.pool with emt := d.pool.emt.filter fun e =>
    !(e.2.kind == 0 && e.2.frame == 0xFFFF && nmem e.2.drives n && e.2.drives.all fun x => !d.driveServes x) } }
  d.farGo

/-- The extent whose slots a deallocation frees is FREE once the last one is done (R373). -/
def Dev.extentFreed (d : Dev) (ext : Nat) : Dev :=
  if (d.emtOf ext).kind ≠ 0 || d.far.cmds.any (fun c => c.2.kind == 3 && c.2.skein == ext * 512) then d
  else { d with pool := { d.pool with emt := tdel d.pool.emt ext } }

/-- A command has failed or timed out: it is reissued once, copies and deallocations until the drive fails. -/
def Dev.cmdFailed (d : Dev) (i : Nat) (c : NvmeCmd) : Dev :=
  let d := d.bump 0x380008 16
  match d.drive c.drive with
  | none => d.cmdOver i
  | some v =>
    let d : Dev := { d with far := { d.far with drives := tput d.far.drives c.drive { v with fails := v.fails + 1 } } }
    if (v.state = 3 || v.state = 4) && d.fld 0x380000 12 4 ≤ v.fails + 1 then d.driveFailed c.drive
    else
    let d := d.cmdOver i
    let op := d.far.ops.find? fun o => o.drive == some c.drive && o.adopt
    let waits := d.far.ops.find? fun o => o.cmds.isEmpty && (o.stage == 2 || o.stage == 3)
    if c.kind = 4 then (d.cmdLost c).farGo
    else if c.kind = 3 && op.isSome && 0 < c.attempt then
      (match op with
       | some o => d.setOp { o with bad := true }
       | none => d).farGo
    else if c.kind = 0 || c.kind = 1 then
      if c.attempt % 2 = 0 then d.nvmeIssue c.drive c.kind c.skein c.slot (c.attempt + 1) else (d.cmdLost c).farGo
    else
      let n := d.far.nextCmd
      let d := match op.or waits with
        | some o => if c.skein = noSkein && (c.kind = 2 || c.slot = 524288) then d.setOp { o with cmds := n :: o.cmds } else d
        | none => d
      d.nvmeIssue c.drive c.kind c.skein c.slot (c.attempt + 1)

/-- A command has succeeded; `page` is what a Get Log Page returned. -/
def Dev.cmdDone (d : Dev) (i : Nat) (c : NvmeCmd) (page : List Byte) : Dev :=
  let d := (d.cmdOver i)
  let d := { d with far := { d.far with drives := tmod d.far.drives c.drive fun v => { v with fails := 0 } } }
  if c.kind = 0 then (d.skeinRead c).farGo
  else if c.kind = 1 then (d.skeinWritten c).farGo
  else if c.kind = 3 then
    let d := d.clearSlot c.drive c.slot
    (if c.skein = noSkein then d else d.extentFreed (c.skein / 512)).farGo
  else if c.kind = 5 then
    match d.far.moves.find? (·.ext == c.skein / 512) with
    | some g => forEach g.targets (fun t d => d.nvmeIssue t 6 c.skein g.slot 0) d
    | none => d
  else if c.kind = 6 then (d.moveStep (c.skein / 512)).farGo
  else if c.kind = 4 then
    match c.caller with
    | some x => (d.output x (dOutAddr (d.callerBytes x)) (slice page 0 512) stDone 0 0 512 (unit := 1)).farGo
    | none => d.farGo
  else d.farGo

/-! ## Discovery (R255) -/

/-- A root port's link comes up at 64 GT/s and x4, or what its partner can do of it (R255); with no partner it is down. -/
def Dev.dnTrain (d : Dev) (port : Nat) (partner : Option (Nat × Nat)) : Dev :=
  let widthOf := fun (w : Nat) => if 4 ≤ w then 4 else if 2 ≤ w then 2 else 1
  { d with far := { d.far with dn := match partner with
                                     | some x => tput d.far.dn port (clampN 1 6 x.1, widthOf x.2)
                                     | none => tdel d.far.dn port } }

/-- A controller comes into sight, and is identified (R255, R257). -/
def Dev.driveSeen (d : Dev) (port : Nat) (i : DriveInfo) : Dev :=
  let n := d.far.nextFound
  let v : Drive := { state := 1, port := port, rid := i.rid, serial := i.serial, usable := i.usable, link := i.link, queues := i.queues,
                     spaces := i.spaces }
  let d := (({ d with far := { d.far with drives := tput d.far.drives n v, nextFound := n + 1 } }).driveEvent n).emit (.nvme n 0x106 0 [1, 0])
  forEach i.spaces (fun x d => d.emit (.nvme n 0x106 0 [0, x.nsid])) (d.emit (.nvme n 0x106 0 [2, 0]))

/-- The controller of a drive is enumerated, or no longer is. -/
def Dev.drivePresent (d : Dev) (k : Nat) (on : Bool) : Dev :=
  { d with far := { d.far with drives := tmod d.far.drives k fun v => { v with present := on } } }

/-- A drive has gone from its port. -/
def Dev.driveGone (d : Dev) (k : Nat) (v : Drive) : Dev :=
  if v.state = 3 || v.state = 4 then (d.drivePresent k false).driveFailed k
  else if v.state = 2 then
    let d := forEach (d.far.ops.filter fun o => o.drive == some k) (fun o d => (d.dropOp o).completeDesc o.ring o.idx stDeviceError 1 0 0) d
    ({ d with far := { d.far with cmds := d.far.cmds.filter (·.2.drive != k) } }).driveAbsent k
  else if v.state = 1 then d.driveAbsent k
  else d.drivePresent k false

/-- A root port serves: its flue die is in service, and no loopback has it (R21, R460). -/
def Dev.rootServes (d : Dev) (port : Nat) : Bool := !nmem d.boot.flueOff (port / 2) && !nmem d.boot.dnDown (port + 2)

/-- The link of a root port and the controllers now behind it: `partner` is the rate code and width its link partner can do. -/
def execPresenceChange (port : Nat) (partner : Option (Nat × Nat)) (found : List DriveInfo) (s : State) := liftDev (fun d =>
  if !d.rootServes port then d
  else
  let found := if partner.isSome then found else []
  let d := d.dnTrain port partner
  let same := fun (v : Drive) (i : DriveInfo) => v.rid == i.rid && v.serial == i.serial
  let here := d.far.drives.filter (·.2.port == port)
  let gone := here.filter fun e => e.2.present && !(found.any (same e.2))
  let new_ := found.filter fun i => !(here.any fun e => same e.2 i)
  let d := forEach gone (fun e d => d.driveGone e.1 e.2) d
  let back := here.filter fun e => !e.2.present && found.any (same e.2)
  let d := forEach back (fun e d => d.drivePresent e.1 true) d
  forEach new_ (fun i d => d.driveSeen port i) d) s

/-! ## Descriptors (R268) -/

/-- Run a far-tier descriptor of a management host. -/
def Dev.farDesc (d : Dev) (ring idx op : Nat) (lease : Bool) (f : List Byte → Dev → Dev) : Dev :=
  d.withDesc ring idx op fun b d => d.gated ring idx false [7] fun d =>
    if (nodePort (d.ringOwner ring)).isNone then d.completeDesc ring idx stDenied 0x50 0 0
    else if lease && !d.hasLease (d.ringOwner ring) then d.completeDesc ring idx stDenied 8 0 0
    else f b d

/-- The record of a drive (Table 11.7). -/
def Dev.driveRecord (d : Dev) (k : Nat) (v : Drive) : List Byte :=
  let on := 2 ≤ v.state
  let num := fun (x : Nat) => if on then x else 0
  natBytes 1 (if k < 32 then k else 0xFF) ++ natBytes 1 v.state ++ natBytes 1 v.port ++ natBytes 1 v.link ++ natBytes 2 v.rid ++ zeros 2 ++
  natBytes 4 (num v.nsid) ++ natBytes 4 (num v.lba) ++ natBytes 4 (num v.slots) ++ natBytes 4 (num (d.driveFree k)) ++
  natBytes 4 (d.soleExtents k).length ++ natBytes 20 v.serial ++ zeros 16

def execDriveList (ring idx : Nat) (s : State) := liftDev (fun d =>
  d.farDesc ring idx 0x50 false fun b d =>
    let len := clampGrain 64 64 4096 (field b 48 4)
    let d := if len = field b 48 4 then d else d.clamped 8 0
    let l := d.far.drives.take (len / 64)
    d.output (.desc ring idx) (dOutAddr b) ((l.map fun e => d.driveRecord e.1 e.2).flatten) stDone 0 l.length l.length (unit := 64)) s

/-- The namespace a DRIVE_ADOPT names: NSID, or the lowest active one. -/
def Drive.space (v : Drive) (nsid : Nat) : Option NsInfo :=
  if nsid ≠ 0 then v.spaces.find? (·.nsid == nsid)
  else v.spaces.foldl (fun b x => match b with
    | none => some x
    | some y => if x.nsid < y.nsid then some x else some y) none

/-- Far slots of a namespace (R259). -/
def nsSlots (x : NsInfo) : Nat := min (x.bytes / 2 ^ 25) 524288

/-- The first failing step of Table 11.3, for an enumerated controller and a wanted number. DESIGN CHOICE (log entry 57): the number a FOUND
drive still has (R256) counts as ABSENT for that drive. -/
def Dev.adoptRefused (d : Dev) (k : Nat) (v : Drive) (num nsid : Nat) : Option Nat :=
  if v.state ≠ 1 || (num ≠ k && (d.drive num).isSome) || 32 ≤ (d.far.drives.filter fun e => e.1 < k).length then some 1
  else
    match v.space nsid with
    | none => some 2
    | some x =>
      if (x.lbaSize ≠ 512 && x.lbaSize ≠ 4096) || x.metaSize ≠ 0 || x.protected_ then some 3
      else if !v.usable then some 4
      else if nsSlots x = 0 then some 5
      else if v.queues = 0 then some 6
      else none

/-- The queue pairs of a drive being adopted (R258): the admin pair and at most 4 I/O pairs, each with a vector of its own. Which carve-out
frame a pair lies in is a free value (log entry 5). -/
def Dev.makePairs (d : Dev) (v : Drive) : List QueuePair × Dev :=
  let x := d.draw
  let frame := fun (q : Nat) => d.carveOut + (x.1 + q) % 16
  ({ queue := 0, entries := 32, frame := frame 0, vector := none } ::
    ((List.range (min v.queues 4)).map fun q => { queue := q + 1, entries := 256, frame := frame (q + 1), vector := some (q + 1) }), x.2)

/-- Set a drive up for adoption (R257): features, then its I/O queues, completion queues first. -/
def Dev.driveSetUp (d : Dev) (num : Nat) (v : Drive) (x : NsInfo) : Dev :=
  let p := d.makePairs v
  let v' := { v with state := 2, fails := 0, nsid := x.nsid, lba := x.lbaSize, slots := nsSlots x, pairs := p.1 }
  let d : Dev := { p.2 with far := { p.2.far with drives := tput p.2.far.drives num v' } }
  let d := forEach [[7, 0x30003], [6, 1], [8, 0]] (fun a d => d.emit (.nvme num 0x109 0 a)) d
  let d := d.emit (.nvme num 0x10A 0 [7])
  let io := p.1.filter (·.queue != 0)
  let d := forEach io (fun q d => d.emit (.nvme num 0x105 0 [q.queue, 255, q.vector.getD 0])) d
  forEach io (fun q d => d.emit (.nvme num 0x101 0 [q.queue, 255])) d

/-- The drive of key `k` is set up under its number. -/
def Dev.driveAt (d : Dev) (k num : Nat) (x : NsInfo) : Dev :=
  match d.drive k with
  | none => d
  | some v => ({ d with far := { d.far with drives := tdel d.far.drives k } } : Dev).driveSetUp num v x

def execDriveAdopt (ring idx : Nat) (s : State) := liftDev (fun d =>
  d.farDesc ring idx 0x51 true fun b d =>
    let num := field b 12 1 % 32
    match tfind d.far.drives fun _ v => v.port == field b 8 1 % 4 && v.rid == field b 10 2 && v.present with
    | none => d.completeDesc ring idx stDenied 0x60 0 0
    | some (k, v) =>
      match d.adoptRefused k v num (field b 16 4), v.space (field b 16 4) with
      | some step, _ => d.completeDesc ring idx stDenied (0x70 + step) 0 0
      | none, none => d.completeDesc ring idx stDenied 0x72 0 0
      | none, some x =>
        let d := ((d.deleteQueues k).driveAt k num x).driveEvent num
        let o : FarOp := { ring := ring, idx := idx, drive := some num, adopt := true, stage := 3 }
        ({ d with far := { d.far with ops := d.far.ops ++ [o] } }).opIssue o num 3 524288) s

/-- DRIVE_RETIRE of a FAILED drive: its number is free once nothing depends on it alone. -/
def Dev.retireFailed (d : Dev) (ring idx n : Nat) : Dev :=
  let sole := (d.soleExtents n).length
  if sole ≠ 0 then d.completeDesc ring idx stDenied 9 sole 0
  else
    let fix := fun (e : Emt) => if e.kind = 2 && nmem e.drives n then
      { e with repl := false, drive := if e.drive = n then e.drive2 else e.drive, drive2 := 0 } else e
    let d := { d with pool := { d.pool with emt := d.pool.emt.map fun (e : Nat × Emt) => (e.1, fix e.2) } }
    (d.driveAbsent n).completeDesc ring idx stDone 0 0 0

def execDriveRetire (ring idx : Nat) (s : State) := liftDev (fun d =>
  d.farDesc ring idx 0x52 true fun b d =>
    let n := field b 12 1 % 32
    match d.drive n with
    | none => d.completeDesc ring idx stDenied 0x60 0 0
    | some v =>
      if v.state = 5 then d.retireFailed ring idx n
      else if v.state ≠ 3 then d.completeDesc ring idx stDenied 9 0 0
      else
        let d := d.driveState n 4
        let dirty := d.far.cached.filter fun e => e.2.dirty && 0 < e.2.state && nmem (d.emtOf (e.1 / 512)).drives n
        let o : FarOp := { ring := ring, idx := idx, drive := some n, skeins := dirty.map (·.1) }
        let d := { d with far := { d.far with ops := d.far.ops ++ [o] } }
        (forEach (dirty.filter (·.2.state == 1)) (fun e d => d.writeBackStart e.1 3) d).farGo) s

/-- DRIVE_LOG: Get Log Page is issued, and its page is the output. A FAILED drive has no queues to ask. -/
def execDriveLog (ring idx : Nat) (s : State) := liftDev (fun d =>
  d.farDesc ring idx 0x53 false fun b d =>
    let log := if field b 13 1 = 1 then 1 else 2
    let d := if field b 13 1 = 1 || field b 13 1 = 2 then d else d.clamped 8 0
    match d.drive (field b 12 1 % 32) with
    | none => d.completeDesc ring idx stDenied 0x60 0 0
    | some v =>
      if v.state = 5 then d.completeDesc ring idx stDeviceError 1 0 0
      else d.nvmeIssue (field b 12 1 % 32) 4 noSkein log 0 (some (.desc ring idx))) s

/-- Write back the dirty skeins of a region, then flush the drives involved; ring 1024 stands for no descriptor: a standby
flushing as its active does. -/
def Dev.flushRegion (d : Dev) (ring idx : Nat) (r : Region) : Dev :=
  let inside := fun (sk : Nat) => r.base ≤ sk / 512 && sk / 512 < r.base + r.count
  let dirty := d.far.cached.filter fun e => e.2.dirty && 0 < e.2.state && inside e.1
  let can := dirty.filter fun e => d.writable (d.emtOf (e.1 / 512))
  let drives := (dirty.map fun e => (d.emtOf (e.1 / 512)).drives).flatten.foldl nadd []
  let o : FarOp := { ring := ring, idx := idx, skeins := can.map (·.1), drives := drives, bad := can.length != dirty.length }
  let d := { d with far := { d.far with ops := d.far.ops ++ [o] } }
  (forEach (can.filter (·.2.state == 1)) (fun e d => d.writeBackStart e.1 3) d).farGo

def execFarFlush (ring idx : Nat) (s : State) := liftDev (fun d =>
  d.farDesc ring idx 0x54 false fun b d =>
    match d.liveRegion (dHandle b) with
    | none => d.completeDesc ring idx stDenied 0x0A 0 0
    | some r =>
      if !d.holds (d.ringOwner ring) (dHandle b) rightW then d.completeDesc ring idx stDenied 0 0 0
      else if !r.backed then d.completeDesc ring idx stDenied 1 0 0
      else (d.repAdminOp b (zeros 12 ++ natBytes 4 6) [] (d.ringOwner ring) 0).flushRegion ring idx r) s

end Sys2Proof.Machine
end

