-- ==== Sys2Proof/Machine/Abort.lean ====
section
/-! DEFINITION. ABORT (R212, R213): stopping an abortable operation, whichever unit works on it. -/

namespace Sys2Proof.Machine

/-- The opcodes some chapter declares abortable: JOB_RUN, COPY, FILL, TIER_HINT, REDUCE, DRIVE_RETIRE, SEAL_LOAD. -/
def abortable (op : Nat) : Bool := [0x20, 0x30, 0x31, 0x35, 0x41, 0x52, 0x64].contains op

/-- Stop the mover work of a descriptor, wherever it is: in a mover, waiting for one, or waiting on a fault record, which
stays open (R247). -/
def Dev.stopMover (d : Dev) (ring idx det : Nat) : Dev :=
  let mine := fun (w : MoverWork) => w.ring == ring && w.idx == idx
  match (List.range 32).find? fun k => ((d.mover k).work.map mine).getD false with
  | some k => d.moverEnd k stAborted det 0
  | none =>
    match d.mov.waitingWork.find? mine with
    | some w =>
      ({ d with mov := { d.mov with waitingWork := d.mov.waitingWork.filter fun x => !mine x } }).completeDesc ring idx stAborted det 0 w.progress
    | none =>
      let drop := fun (f : FaultRec) => { f with waiters := f.waiters.filter fun x => !mine x }
      let p := ((d.mov.faults.map fun f => f.2.waiters).flatten.find? mine).map (·.progress)
      ({ d with mov := { d.mov with faults := d.mov.faults.map fun (f : Nat × FaultRec) => (f.1, drop f.2) } }).completeDesc
        ring idx stAborted det 0 (p.getD 0)

/-- Stop an abortable operation that has started, with its ABORTED record: `det` says why. -/
def Dev.stopOp (d : Dev) (ring idx det : Nat) : Dev :=
  match d.startedAt ring idx with
  | none => d
  | some s =>
    if s.op = 0x20 then
      match tfind d.jobs.jobs fun _ j => j.ring == ring && j.idx == idx with
      | some (id, j) => if j.stage = 2 then d.jobEnd id stAborted det (idResult id) else d.jobEnd id stAborted 1 0
      | none => d.completeDesc ring idx stAborted 1 0 0
    else if s.op = 0x41 then (d.forgetRun (field s.bytes 24 8) (field s.bytes 20 4)).completeDesc ring idx stAborted det 0 s.done
    else if s.op = 0x35 then
      let h := d.mov.hints.find? fun h => h.ring == ring && h.idx == idx
      let hs := d.mov.hints.filter fun h => !(h.ring == ring && h.idx == idx)
      ({ d with mov := { d.mov with hints := hs } }).completeDesc ring idx stAborted det 0 ((h.map fun (h : TierHint) => h.total - h.left.length - h.todo.length).getD 0)
    else if s.op = 0x52 then
      match d.far.ops.find? fun o => o.ring == ring && o.idx == idx with
      | some o => (d.retireBack o (o.drive.getD 0)).completeDesc ring idx stAborted det 0 o.done
      | none => d.completeDesc ring idx stAborted det 0 0
    else d.stopMover ring idx det

/-- A descriptor's completion has been claimed: its record waits for the partner only (R213, R310). -/
def Dev.claimedEnd (d : Dev) (ring idx : Nat) : Bool :=
  d.mir.unacked.any fun r => r.completes.any fun c => c.ring == ring && c.idx == idx

/-- ABORT. A target not yet fetched is waited for; one fetched and not started, or stopped, ends ABORTED, and the ABORT DONE after its
record is written. -/
def execAbort (ring idx : Nat) (s : State) := liftDev (fun d =>
  d.withDesc ring idx 0x21 fun b d => d.gated ring idx false [] fun d =>
    let t := abortTarget b
    let r := d.ring t.1
    let ahead := (r.prod + 2 ^ 32 - t.2) % 2 ^ 32
    let wait := { d with jobs := { d.jobs with abortWaits := d.jobs.abortWaits ++ [(ring, idx)] } }
    if r.kind ≠ 0 || d.ringOwner t.1 ≠ d.ringOwner ring then d.completeDesc ring idx stDenied 5 0 0
    else if ahead = 0 || 2 ^ 31 < ahead then d.completeDesc ring idx stDenied 0x37 0 0
    else if ahead ≤ r.used then wait
    else if (r.waiting.map (·.1)) = some t.2 then
      if (r.waiting.map fun w => dOpcode w.2) = some 0x21 then d.completeDesc ring idx stDenied 0x37 0 0 else wait.abortWaiting t.1
    else
      match d.startedAt t.1 t.2 with
      | none => d.completeDesc ring idx stAlreadyDone 0 0 0
      | some s =>
        if s.op = 0x21 then d.completeDesc ring idx stDenied 0x37 0 0
        else if d.claimedEnd t.1 t.2 then d.completeDesc ring idx stAlreadyDone 0 0 0
        else if !abortable s.op then d.completeDesc ring idx stDenied 0x38 0 0
        else (d.stopOp t.1 t.2 3).abortWon ring idx t.1 t.2) s

end Sys2Proof.Machine
end

