-- ==== Sys2Proof/Machine/Cells.lean ====
section
/-! DEFINITION. The 48 bytes of a cell (R6, R84, R85, R277): link field, content and CRC-32C, and the cells of a message. -/

namespace Sys2Proof.Machine

/-- The link field: SEQ, VC, KIND and CTL (R7). -/
def linkField (seq vc kind ctl : Nat) : Nat := seq % 4096 * 16 + vc % 2 * 8 + kind % 4 * 2 + ctl % 2

/-- A cell's bytes in the order they go onto a link: the link field, bytes 2 to 43, and CRC-32C over bytes 0 to 43 (Table 4.1). -/
def cellBytes (fld : Nat) (body : List Byte) : List Byte :=
  let b := natBytes 2 fld ++ slice body 0 42
  b ++ natBytes 4 (crc32c b)

/-- SEQ, VC, KIND and content of a received cell, and its CRC check. -/
def seqOf (c : Cell) : Nat := field c.bytes 0 2 / 16
def chanOf (c : Cell) : Nat := field c.bytes 0 2 / 8 % 2
def kindOf (c : Cell) : Nat := field c.bytes 0 2 / 2 % 4
def bodyOf (c : Cell) : List Byte := slice c.bytes 2 42
def cellCrcOk (c : Cell) : Bool := crc32c (slice c.bytes 0 44) == field c.bytes 44 4

/-- KIND of cell `i` of a message of `n` (R86): 0 single, 1 head, 2 body, 3 tail. -/
def kindAt (n i : Nat) : Nat := if n = 1 then 0 else if i = 0 then 1 else if i + 1 = n then 3 else 2

/-- Bytes 2 to 43 of cell `i` of a message: its header and payload, 42 bytes a cell, zeros past the end. -/
def msgBody (m : Msg) (i : Nat) : List Byte := slice (natBytes 16 (headerOf m) ++ m.data) (42 * i) 42

/-- A link control cell (Table 12.6): ACK_SEQ in the place of SEQ, TYPE, FLOW and the fields of its type. -/
def controlBytes (ack type flow : Nat) (fields : List Byte) : List Byte :=
  cellBytes (linkField ack 0 0 1) ([BitVec.ofNat 8 type, BitVec.ofNat 8 flow] ++ fields)

/-- The fields of a PARAM cell (R274). -/
def paramFields (p : ParamCell) : List Byte :=
  natBytes 2 p.node ++ natBytes 1 p.role ++ natBytes 1 p.cls ++ natBytes 1 p.width ++ natBytes 1 p.rate ++ natBytes 2 p.stamp ++ natBytes 2 p.echo

/-- The fields of an AUTH cell (Table 12.7). -/
def authFields (first count group : Nat) (tag : List Byte) : List Byte :=
  natBytes 2 first ++ natBytes 1 count ++ [0] ++ natBytes 8 group ++ tag

end Sys2Proof.Machine
end

