-- ==== Sys2Proof/Machine/Coherence.lean ====
section
/-! DEFINITION. Coherent requests, snoop answers and timeouts, the reservation's timer, set recalls, and snoops that reach
the device (R115 to R130). -/

namespace Sys2Proof.Machine

/-- The length of a coherent request (Table 5.3). -/
def coherentLen (op : Nat) : Nat := if op = 0x15 then 67 else 63

/-- A coherent request that Table 2.6 checks in full. -/
def Dev.coherent (d : Dev) (op : Nat) (m : Msg) : Dev :=
  if m.opcode ≠ op then d
  else d.arrive m fun d =>
    if m.len ≠ coherentLen op then d.deny m 0x22
    else if spanBad m then d.deny m 0x24
    else d.accept m false

def execRdShared (m : Msg) (s : State) := liftDev (fun d => d.coherent 0x10 m) s
def execRdOwn (m : Msg) (s : State) := liftDev (fun d => d.coherent 0x11 m) s
def execUpgrade (m : Msg) (s : State) := liftDev (fun d => d.coherent 0x12 m) s
def execStashWrite (m : Msg) (s : State) := liftDev (fun d => d.coherent 0x15 m) s

/-- A draft extent without its own copy gets it at once when an owner writes a line of it back (log entry 16). -/
def Dev.ownCopyNow (d : Dev) (ext : Nat) : Bool × Dev :=
  let e := d.emtOf ext
  if e.kind ≠ 3 || e.mod then (true, d)
  else
    match d.pool.draftCopies.find? fun c => c.ext == ext with
    | some c => (true, d.draftCopyEnd ext c.dest)
    | none =>
      match d.takeFrame with
      | (some f, d) => (true, d.draftCopyEnd ext f)
      | (none, d) => (false, d)

/-- WB_DIRTY (Table 5.6, R118): accepted whatever the line's state; written only for the recorded owner. -/
def Dev.wbDirty (d : Dev) (m : Msg) : Dev :=
  let line := m.addr / 64
  let n := d.mir.unacked.length
  let data := slice m.data 0 64
  let owner := match d.dirOf line with
    | some e => e.state == 3 && e.ptrs == [m.src]
    | none => false
  if (d.looseCheck m).isSome || !owner then (d.kindNote m.src m.addr m.addr).finish n m stDone
  else
    let d := if (d.emtOf (line / 2 ^ 19)).kind = 2 then d.countSkein (line / 1024) else d
    let c := d.ownCopyNow (line / 2 ^ 19)
    let d := if c.1 then c.2.writeBack line data else c.2
    let d := d.reqCount m.src 2 64
    match tget d.coh.txns line, d.dirOf line with
    | some t, some e =>
      let t' := { t with data := some data, owner := none }
      let d := { d with coh := { d.coh with txns := tput d.coh.txns line t' } }
      (d.dirPut line { e with ptrs := [] }).finish n m stDone
    | _, _ => ((d.dirDel line).repDir line).finish n m stDone

def execWbDirty (m : Msg) (s : State) := liftDev (fun d =>
  if m.opcode ≠ 0x13 then d
  else d.arrive m fun d =>
    if m.len ≠ 63 then d.deny m 0x22 else if spanBad m then d.deny m 0x24 else d.wbDirty m) s

def execEvict (m : Msg) (s : State) := liftDev (fun d =>
  if m.opcode ≠ 0x14 then d
  else d.arrive m fun d =>
    if m.len ≠ 63 then d.deny m 0x22 else if spanBad m then d.deny m 0x24 else d.evictAccept m false) s

/-! ## Snoop answers (R117, R120) -/

/-- Note one node's answer in the transaction of a line: its data, whether it took a stash offer, and that it is heard. What it says
of its copy (HAD_COPY) changes nothing: the directory over-approximates the holders (R111). -/
def Dev.noteAnswer (d : Dev) (line key node : Nat) (data : Option (List Byte)) (accepted : Bool) : Dev :=
  match tget d.coh.txns line with
  | none => d
  | some t =>
    let mc := 2 ^ 24 ≤ key
    let dup := mc && nmem t.mcSeen node
    let t := if mc then
        if dup then t else { t with mcSeen := node :: t.mcSeen, mcLeft := t.mcLeft - 1 }
      else { t with waits := t.waits.filter fun w => w.1 != node }
    let t := { t with accepted := t.accepted || accepted,
                      owner := if t.owner = some node then none else t.owner,
                      data := if t.data.isSome then t.data else data }
    let d := { d with coh := { d.coh with txns := tput d.coh.txns line t } }
    let d := match t.kind, d.dirOf line with
      | .drop false, some e =>
        let rest := e.ptrs.filter (· != node)
        if rest.isEmpty && e.state != 2 then d.dirDel line else d.dirPut line { e with ptrs := rest }
      | _, _ => d
    let d := if mc then if t.mcLeft = 0 then d.endReq key else d else d.endReq key
    d.closeTxn line

/-- A node that is treated as holding no copy is no longer recorded (R120). -/
def Dev.forgetHolder (d : Dev) (line node : Nat) : Dev :=
  match d.dirOf line with
  | some e => if nmem e.ptrs node then d.dirPut line { e with ptrs := e.ptrs.filter (· != node) } else d
  | none => d

/-- A node is treated as holding no copy (R120): an owned line is poisoned, with a journal entry. -/
def Dev.snoopLost (d : Dev) (line key node : Nat) : Dev :=
  let d := d.bump 0x180208 0
  match tget d.coh.txns line with
  | none => d.endReq key
  | some t =>
    let d := if t.owner = some node then
        let d := match d.keyOf (line * 64) with
          | some k => d.poisonLine (line / 2 ^ 19) k
          | none => d
        d.log (0x0300 + 4 * homeOf line + 2) (origin := node) (status := stPoisoned) (arg1 := line * 64)
      else d
    (d.forgetHolder line node).noteAnswer line key node none false

/-- An answer to a snoop of the device: an RSP or DAT DONE, a PRUNED notice of a multicast (R120, R300), or another
status, which counts as no answer. -/
def Dev.snoopAnswered (d : Dev) (m : Msg) (key : Nat) (r : DevReq) : Dev :=
  let line := r.index
  if m.cls = 2 && m.opcode = stFenced && bit (msgResult m) 31 then
    match tget d.coh.txns line with
    | none => d
    | some t =>
      let b := msgResult m % 64
      if nmem t.mcPruned b then d
      else
        let t := { t with mcPruned := b :: t.mcPruned, mcLeft := t.mcLeft - 1 }
        let d := { d with coh := { d.coh with txns := tput d.coh.txns line t } }
        (if t.mcLeft = 0 then d.endReq key else d).closeTxn line
  else if m.opcode = stRetry then
    d.reqAgain key r (msgDetail m)
  else if m.opcode ≠ stDone then d.snoopLost line key m.src
  else if m.cls = 3 then d.noteAnswer line key m.src (some (slice m.data 0 64)) false
  else d.noteAnswer line key m.src none (bit (msgResult m) 1)

/-- A response whose status the device cannot have (R102): a code of 0x0F or more, or data with a status other than DONE. -/
def badResponse (m : Msg) (r : DevReq) : Bool := 0x0F ≤ m.opcode || (m.cls == 3 && m.opcode != stDone && r.m.opcode != 0x38)

/-- A malformed message of a link is counted (R86, R102). -/
def Dev.malformed (d : Dev) (l : Nat) : Dev := d.bump (0x400024 + 0x10000 * l) 16

/-- A malformed response: counted, and reported with its link, its tag and its class. -/
def Dev.responseMalformed (d : Dev) (link : Nat) (m : Msg) : Dev :=
  (d.malformed link).log (0x0620 + link) (origin := m.src) (code := m.opcode % 256) (status := stDeviceError) (arg0 := m.tag % 4096 + m.cls % 4 * 4096)

/-- A response to a snoop: one with a status the device cannot have is DEVICE_ERROR, counted and reported with the link it came
in on, in the place of the answer (R102). -/
def Dev.vetted (d : Dev) (link : Nat) (m : Msg) (r : DevReq) : Msg × Dev :=
  if badResponse m r then ({ m with cls := 2, opcode := stDeviceError }, d.responseMalformed link m) else (m, d)

/-- SNOOP_ANSWER, with the link it came in on. -/
def execSnoopAnswer (link : Nat) (m : Msg) (s : State) := liftDev (fun d =>
  match d.matchReq m.src m.tag with
  | some (k, r) =>
    if r.purpose = 3 && (m.cls = 2 || m.cls = 3) then let v := d.vetted link m r; v.2.snoopAnswered v.1 k r else d
  | none => d) s

/-- A snoop's timeout expires: it is resent, or after the last resend its nodes hold no copy (R103, R120). -/
def Dev.snoopTimedOut (d : Dev) (key : Nat) (r : DevReq) : Dev :=
  if d.mayResend r then d.resend key r
  else if r.m.mc then
    match tget d.coh.txns r.index with
    | none => d.endReq key
    | some t =>
      let d := d.bumps 0x180208 0 t.mcLeft
      let d := { d with coh := { d.coh with txns := tput d.coh.txns r.index { t with mcLeft := 0 } } }
      (d.endReq key).closeTxn r.index
  else d.snoopLost r.index key r.m.dst

def execReservationTimeout (home : Nat) (s : State) := liftDev (fun d =>
  let st := d.starveOf home
  if st.holder.isSome && st.heldReq.isNone then (d.till st.deadline).nextHolder home else d) s

/-! ## Set recalls (R130) -/

/-- A node's part of a recall is done; with the last one the set is 16 FREE ways, and a request held meanwhile is served. -/
def Dev.recallDone (d : Dev) (set node : Nat) : Dev :=
  match tget d.coh.recalls set with
  | none => d
  | some r =>
    let left := r.nodes.filter (·.1 != node)
    let d := match tfind d.fab.devReqs fun _ q => q.purpose == 6 && q.index == set && q.m.dst == node with
      | some q => d.endReq q.1
      | none => d
    if left.isEmpty then
      (({ d with coh := { d.coh with recalls := tdel d.coh.recalls set } } : Dev).wipeSet set).serveAllHeld
    else { d with coh := { d.coh with recalls := tput d.coh.recalls set { r with nodes := left } } }

/-- A node gives no answer to a recall: nothing can be attributed to it (R130). -/
def Dev.recallLost (d : Dev) (set node : Nat) : Dev :=
  ((d.bump 0x180208 0).log (0x0300 + 4 * (set / 43690) + 3) (origin := node) (arg0 := set)).recallDone set node

/-- A recall transfer message: a dirty line, or the final RSP with its index (R130). -/
def Dev.recallMsg (d : Dev) (m : Msg) (key : Nat) (q : DevReq) : Dev :=
  match tget d.coh.recalls q.index with
  | none => d
  | some r =>
    if m.opcode = stRetry then d.reqAgain key q (msgDetail m)
    else if m.opcode ≠ stDone then d.recallLost q.index m.src
    else
      let isLine := m.cls = 3
      let d := if isLine then d.writeBack (field m.data 0 8 / 64 % 2 ^ 42) (slice m.data 8 64) else d
      let r := { r with got := if r.got.any (· == (m.src, m.xfer)) then r.got else (m.src, m.xfer) :: r.got,
                        finals := if isLine then r.finals else (m.src, m.xfer) :: r.finals }
      let d := { d with coh := { d.coh with recalls := tput d.coh.recalls q.index r } }
      let d := { d with fab := { d.fab with devReqs := tput d.fab.devReqs key { q with deadline := d.reqDeadline } } }
      match r.finals.find? (·.1 == m.src) with
      | some f => if (List.range (f.2 + 1)).all fun i => r.got.any (· == (m.src, i)) then d.recallDone q.index m.src else d
      | none => d

/-- A recall snoop's timeout expires: it is resent, or its node gives no answer (R120, R130). -/
def Dev.recallTimedOut (d : Dev) (key : Nat) (r : DevReq) : Dev :=
  if d.mayResend r then d.resend key r
  else d.recallLost r.index r.m.dst

/-- SNOOP_TIMEOUT; its operand is the key of the outstanding snoop: node × 4096 + tag, or 2^24 + tag for a
multicast. -/
def execSnoopTimeout (tag : Nat) (s : State) := liftDev (fun d =>
  match tget d.fab.devReqs tag with
  | some r =>
    if r.purpose = 3 then (d.till r.deadline).snoopTimedOut tag r
    else if r.purpose = 6 then (d.till r.deadline).recallTimedOut tag r else d
  | none => d) s

/-- RECALL_TRANSFER, with the link it came in on. -/
def execRecallTransfer (link : Nat) (m : Msg) (s : State) := liftDev (fun d =>
  match d.matchReq m.src m.tag with
  | some (k, r) =>
    if r.purpose = 6 && (m.cls = 2 || m.cls = 3) then let v := d.vetted link m r; v.2.recallMsg v.1 k r else d
  | none => d) s

/-! ## Snoops that reach the device (R119) -/

/-- Answer a snoop addressed to this device as an agent that holds no copy. -/
def Dev.snoopHere (d : Dev) (op : Nat) (m : Msg) : Dev :=
  if m.cls ≠ 1 || m.opcode ≠ op || m.dst ≠ d.ownNode then d
  else (d.taken m).sendMsg { d.rspTo m stDone 0 0 with last := true }

def execSnpInv (m : Msg) (s : State) := liftDev (fun d => d.snoopHere 1 m) s
def execSnpShare (m : Msg) (s : State) := liftDev (fun d => d.snoopHere 2 m) s
def execSnpRead (m : Msg) (s : State) := liftDev (fun d => d.snoopHere 3 m) s
def execSnpStash (m : Msg) (s : State) := liftDev (fun d => d.snoopHere 4 m) s
def execSnpRecall (m : Msg) (s : State) := liftDev (fun d => d.snoopHere 5 m) s

end Sys2Proof.Machine
end

