-- ==== Sys2Proof/Machine/Sessions.lean ====
section
/-! DEFINITION. Client sessions: CLIENT_OPEN and CLIENT_CLOSE (R68, R69), and what a node leaves behind when its session ends
or it is fenced (R120, R196, R304). -/

namespace Sys2Proof.Machine

/-- A session ends: its rings are disabled and drain, its jobs stop and its contexts are destroyed (R69, R196). -/
def Dev.endSession (d : Dev) (n : Nat) : Dev :=
  match tget d.host.sessions n with
  | none => d
  | some s =>
    let d := d.dropOwner s.node
    let d := { d with host := { d.host with sessions := tdel d.host.sessions n, ending := tput d.host.ending n s } }
    (forEach ((d.host.rings.map (·.1)).filter s.holds) (fun r d => d.ringOff r) d).reapSessions

/-- A home treats a node as holding no copy: snoops it has not answered are lost, and lines it is recorded for lose its
pointer; a line it owned is poisoned (R120, R304). -/
def Dev.nodeGone (d : Dev) (node : Nat) : Dev :=
  let snoops := d.fab.devReqs.filter fun r => r.2.purpose == 3 && !r.2.m.mc && r.2.m.dst == node
  let d := forEach snoops (fun r d => d.snoopLost r.2.index r.1 node) d
  let mine := d.coh.dir.filter fun e => nmem e.2.ptrs node && e.2.state != 2
  forEach mine (fun e d =>
    if e.2.state = 3 then
      let d := match d.keyOf (e.1 * 64) with
        | some k => d.poisonLine (e.1 / 2 ^ 19) k
        | none => d
      let d := d.log (0x0300 + 4 * homeOf e.1 + 2) (origin := node) (status := stPoisoned) (arg1 := e.1 * 64)
      (d.dirDel e.1).repDir e.1
    else
      let ps := ndel e.2.ptrs node
      (if ps.isEmpty then d.dirDel e.1 else d.dirPut e.1 { e.2 with ptrs := ps }).repDir e.1) d

/-- The answer of an open session (Table 3.8). -/
def sessionAnswer (n : Nat) (s : Session) : List Byte :=
  natBytes 32 s.accepted ++ natBytes 2 s.first ++ natBytes 2 s.count ++ natBytes 4 (n + 1) ++
  natBytes 8 (0xFFFFF0000000 + 0x1000 * s.first)

/-- The lowest range of `k` contiguous client rings that no session but `but` holds (R68, R69). -/
def Dev.ringRange (d : Dev) (k : Nat) (but : Option Nat) : Option Nat :=
  let lo := d.host.up0Count + d.host.up1Count
  let held := (d.host.sessions.filter fun s => some s.1 != but) ++ d.host.ending
  ((List.range (1025 - lo - k)).map (lo + ·)).find? fun a => lo + k ≤ 1024 && held.all fun s => a + k ≤ s.2.first || s.2.first + s.2.count ≤ a

/-- What refuses a CLIENT_OPEN before rings are looked for: LEN, security state, node range, tenant range, debug level
(R68, R370, R451, R452). -/
def Dev.openRefused (d : Dev) (m : Msg) : Option Nat :=
  if m.len ≠ 39 then some 0x22
  else if d.sec.state = 0 || d.sec.state = 5 then some 0x80
  else if m.src = 0 || 0xEFF < m.src then some 0x26
  else if (d.sec.state = 2 || d.sec.state = 3) && (m.src < d.sec.tenantLo || d.sec.tenantHi < m.src) then some 0x81
  else if d.sec.state = 1 && d.sec.debugLevel = 2 then some 0x84
  else none

/-- Answer a CLIENT_OPEN with a session. -/
def Dev.openAnswer (d : Dev) (m : Msg) (n : Nat) (s : Session) : Dev :=
  d.finishData d.mir.unacked.length m 0 (sessionAnswer n s)

/-- Open a session, in place of `old` if that is given. DESIGN CHOICE (log entry 56): the rings of a replaced session return to their reset
values, RING_CFG among them, of which R69 says nothing. -/
def Dev.openSession (d : Dev) (f : Fuses) (m : Msg) (old : Option Nat) : Dev :=
  let want := field m.data 32 2
  let k := clampN 2 64 want
  let d := if k = want then d else d.clamped 2 0
  let c := d.choose 512 fun i => (tget d.host.sessions i).isNone && (tget d.host.ending i).isNone
  match d.ringRange k old, old.or c.1 with
  | some a, some n =>
    let d := if old.isSome then d else c.2
    let d := match old.bind (tget d.host.sessions) with
      | some s => { d with host := { d.host with rings := d.host.rings.filter fun r => !s.holds r.1 } }.dropOwner s.node
      | none => d
    let acc := d.acceptSet f false (field m.data 0 32) clientFeatures
    let s : Session := { node := m.src, first := a, count := k, accepted := acc }
    let u := d.mir.unacked.length
    let d := { d with host := { d.host with sessions := tput d.host.sessions n s } }
    let d := d.repAdminOp (natBytes 32 acc) (natBytes 4 n ++ natBytes 2 a ++ natBytes 2 k ++ zeros 4 ++ natBytes 4 2) [] m.src m.tag
    d.finishData u m 0 (sessionAnswer n s)
  | _, _ => d.deny m 4

def execClientOpen (m : Msg) (s : State) := liftRead (fun f d =>
  if m.opcode ≠ 0x39 then d
  else d.arrive m fun d =>
    match d.openRefused m with
    | some det => d.deny m det
    | none =>
      match d.sessionOf m.src with
      | none => d.openSession f m none
      | some (n, x) =>
        if d.host.rings.any fun r => x.holds r.1 && r.2.state != rsDisabled then d.openAnswer m n x
        else d.openSession f m (some n)) s

def execClientClose (m : Msg) (s : State) := liftDev (fun d =>
  if m.opcode ≠ 0x3A then d
  else d.arrive m fun d =>
    if m.len ≠ 0 then d.deny m 0x22
    else
      match d.sessionOf m.src with
      | none => d
      | some (n, _) =>
        let u := d.mir.unacked.length
        let d := d.repAdminOp [] (natBytes 8 n ++ zeros 4 ++ natBytes 4 3) [] m.src m.tag
        (d.endSession n).finish u m stDone) s

end Sys2Proof.Machine
end

