-- ==== Sys2Proof/Machine/Router.lean ====
section
/-! DEFINITION. The router (chapter 13): ingress filter and meters (R42, R106 to R109), route lookup, multicast, fences. A
message waits for its lookup in `inputs` (from a link) or `localq` (from LOCAL), and for its output in `queues`; those
for LOCAL are handed over by OUTPUT_SEND of output 24. -/

namespace Sys2Proof.Machine

/-! ## Links as the router sees them -/

/-- A link, and changing it. -/
def Dev.link (d : Dev) (l : Nat) : Link := tgetD d.links l {}
def Dev.setLink (d : Dev) (l : Nat) (f : Link → Link) : Dev := { d with links := tput d.links l (f (d.link l)) }

/-- A field of a GL register of a link. -/
def Dev.glFld (d : Dev) (l off lo n : Nat) : Nat := d.fld (0x400000 + 0x10000 * l + off) lo n

/-- Free input-buffer entries of a virtual channel (R284). -/
def Link.free (k : Link) (vc : Nat) : Nat := 2048 - if vc = 0 then k.used0 else k.used1

/-- Send a control cell with the current ACK_SEQ and FLOW: its type and the bytes of its fields (R277). -/
def Dev.control (d : Dev) (l type : Nat) (fields : List Byte) : Dev :=
  let k := d.link l
  (d.setLink l fun k => { k with uncovered := 0 }).emit
    (.cell l (controlBytes ((k.expected + 4095) % 4096) type (b2n k.xoff0 + 2 * b2n k.xoff1) fields))

/-- Set and clear XOFF as the free entries of a channel ask; a change sends a control cell at once (R285). -/
def Dev.flowCheck (d : Dev) (l vc : Nat) : Dev :=
  let k := d.link l
  let was := if vc = 0 then k.xoff0 else k.xoff1
  let is := if was then k.free vc < d.glFld l 0x14 16 12 else k.free vc < d.glFld l 0x14 0 12
  if is = was then d
  else (d.setLink l fun k => if vc = 0 then { k with xoff0 := is } else { k with xoff1 := is }).control l 0 []

/-- Free the input-buffer cells of a message. -/
def Dev.freeCells (d : Dev) (l : Nat) (m : Msg) : Dev :=
  if 24 ≤ l then d
  else
    let n := cellsOf m.data.length
    let v := vcOf m.cls
    (d.setLink l fun k => if v = 0 then { k with used0 := k.used0 - n } else { k with used1 := k.used1 - n }).flowCheck l v

/-! ## Meters (R107) -/

/-- What a message is charged, in eighths of a byte. -/
def meterCharge (reg : Nat) (m : Msg) : Nat := 8 * (48 * cellsOf m.data.length + bits reg 35 6)

/-- A bucket filled up to this moment: RATE eighths of a byte a tick. -/
def Dev.bucketNow (d : Dev) (b : Bucket) (reg : Nat) : Bucket :=
  { tokens := min (8 * 1024 * bits reg 41 12) (b.tokens + (d.now - b.at_) * bits reg 53 10), at_ := d.now }

/-- A bucket of a table: full where none is listed. -/
def Dev.bucket (d : Dev) (t : Tbl Bucket) (key reg : Nat) : Bucket :=
  d.bucketNow (tgetD t key { tokens := 8 * 1024 * bits reg 41 12, at_ := d.now }) reg

/-- Police a REQ entering a port: none if it conforms, else the hint, in units of 64 ns: what it lacks, in eighths of a byte, comes at RATE
eighths in 1.25 ns (R108). -/
def Dev.police (d : Dev) (p : Nat) (m : Msg) : Option Nat × Dev :=
  let reg := d.reg (0x604000 + 64 * p + 8 * m.tc)
  if !bit reg 63 || m.cls ≠ 0 || m.opcode = 0x13 then (none, d)
  else
    let key := p * 8 + m.tc
    let b := d.bucket d.fab.policers key reg
    let c := meterCharge reg m
    let put := fun (b : Bucket) => { d with fab := { d.fab with policers := tput d.fab.policers key b } }
    if c ≤ b.tokens then (none, put { b with tokens := b.tokens - c })
    else (some (clampN 1 0xFFFF ((5 * (c - b.tokens) + 256 * bits reg 53 10 - 1) / (256 * bits reg 53 10))), put b)

/-- A message conforms to the shaper of its output. -/
def Dev.shapes (d : Dev) (p : Nat) (m : Msg) : Bool :=
  let reg := d.reg (0x605000 + 64 * p + 8 * m.tc)
  !bit reg 63 || meterCharge reg m ≤ (d.bucket d.fab.shapers (p * 8 + m.tc) reg).tokens

/-- Charge the shaper of an output. -/
def Dev.shape (d : Dev) (p : Nat) (m : Msg) : Dev :=
  let reg := d.reg (0x605000 + 64 * p + 8 * m.tc)
  if !bit reg 63 then d
  else
    let b := d.bucket d.fab.shapers (p * 8 + m.tc) reg
    { d with fab := { d.fab with shapers := tput d.fab.shapers (p * 8 + m.tc) { b with tokens := b.tokens - meterCharge reg m } } }

/-! ## The ingress filter (R42) -/

/-- The valid entries of a port that accept a source. -/
def Dev.igfEntries (d : Dev) (p src : Nat) : List Nat :=
  ((List.range 16).map fun n => d.reg (0x601000 + 0x80 * p + 8 * n)).filter fun e => bit e 63 && bits e 51 12 ≤ src && src ≤ bits e 39 12

/-- An entry admits an address. -/
def igfAddr (e addr : Nat) : Bool := bits e 21 18 ≤ addr / 2 ^ 30 && addr / 2 ^ 30 ≤ bits e 3 18

/-- The filter admits a message entering a port. -/
def Dev.igfAdmits (d : Dev) (p : Nat) (m : Msg) : Bool :=
  m.src != 0 && m.src < 0xFF0 &&
  (d.igfEntries p m.src).any fun e => m.cls != 0 || m.mc || !(d.forUs m) || igfAddr e m.addr

/-- Count a refusal (RT_IGF_DROP). -/
def Dev.igfDrop (d : Dev) (p : Nat) : Dev := { d with router := { d.router with igfDrop := tupd d.router.igfDrop p 0 (· + 1) } }

/-! ## Routes (R291 to R295) -/

/-- DIR of a port is UP. -/
def Dev.isUp (d : Dev) (p : Nat) : Bool := d.fld (0x600100 + 4 * p) 0 2 == 1

/-- A router turn-back loopback holds the port (GLADOR depth 5, R460). -/
def Dev.turnsBack (d : Dev) (p : Nat) : Bool :=
  match d.test.loopback with
  | some (0, 5, l, _) => l == p
  | _ => false

/-- An output is usable for a message that came in at `entry` (R293, R295). -/
def Dev.usable (d : Dev) (entry out : Nat) : Bool :=
  out == 24 ||
  (out < 24 && !d.turnsBack out && (d.link out).state == 6 && (d.link out).peerRole != 2 && out != entry && (24 ≤ entry || !d.isUp entry || !d.isUp out))

/-- An output is in XOFF on a channel. -/
def Dev.outXoff (d : Dev) (out vc : Nat) : Bool :=
  out < 24 && (if vc = 0 then (d.link out).peerXoff0 else (d.link out).peerXoff1)

/-- Messages queued at an output. -/
def Dev.queue (d : Dev) (out : Nat) : List Queued := tgetD d.router.queues out []

/-- Cells queued at an output on a channel. -/
def Dev.queuedCells (d : Dev) (out vc : Nat) : Nat :=
  (((d.queue out).filter fun q => vcOf q.m.cls == vc).map fun q => cellsOf q.m.data.length).foldl (· + ·) 0

/-- PRIMARY, ALTERNATE and the candidates of a destination: its entry, or its attached ports (AUTO_ADJ). -/
def Dev.routeOf (d : Dev) (dst : Nat) : Option (Nat × Nat × List Nat) :=
  let e := d.reg (0x610000 + 8 * dst)
  if bit e 63 then
    some (bits e 58 5, bits e 53 5, ([bits e 45 5, bits e 40 5, bits e 35 5, bits e 30 5]).take (min 4 (bits e 50 3)))
  else if d.fld 0x600000 0 1 = 1 then
    match (List.range 24).filter fun p => (d.link p).state == 6 && (d.link p).peerRole != 2 && (d.link p).peerNode == dst with
    | [] => none
    | p :: r => some (p, r.headD 31, (p :: r).take 4)
  else none

/-- PRIMARY, else ALTERNATE. -/
def Dev.fixedRoute (d : Dev) (entry a b : Nat) : Option Nat := if d.usable entry a then some a else if d.usable entry b then some b else none

/-- The output of a unicast message (R293). -/
def Dev.chooseOut (d : Dev) (entry : Nat) (m : Msg) : Option Nat :=
  match d.routeOf m.dst with
  | none => none
  | some (a, b, cs) =>
    if m.ord && m.cls = 0 && ordHonoured m.opcode then d.fixedRoute entry a b
    else
      let vc := vcOf m.cls
      let ok := cs.filter fun c => d.usable entry c && !d.outXoff c vc
      match ok.foldl (fun x c => match x with
        | none => some c
        | some y => if d.queuedCells c vc < d.queuedCells y vc then some c else some y) (none : Option Nat) with
      | some c => some c
      | none => d.fixedRoute entry a b

/-- Queue a message at an output; a re-injected one goes ahead of those not started (R296). -/
def Dev.enqueue (d : Dev) (out entry : Nat) (m : Msg) (ahead : Bool) : Dev :=
  let q : Queued := { input := entry, m := m, at_ := d.now, ahead := ahead }
  let l := d.queue out
  let l' := if ahead then l.filter (·.ahead) ++ [q] ++ l.filter (!·.ahead) else l ++ [q]
  { d with router := { d.router with queues := tput d.router.queues out l' } }

/-- The input buffer whose entries a message holds: none for one sent again after a break (R296). -/
def bufferOf (entry : Nat) (ahead : Bool) : Nat := if ahead then 24 else entry

/-- Free a message's input buffer once no output holds a copy of it. -/
def Dev.leftInput (d : Dev) (entry : Nat) (m : Msg) : Dev :=
  let same := fun (x : Msg) => x.cls == m.cls && x.opcode == m.opcode && x.src == m.src && x.tag == m.tag && x.xfer == m.xfer
  if d.router.queues.any fun o => o.2.any fun q => q.input == entry && !q.ahead && same q.m then d else d.freeCells entry m

/-- A message has no route: discarded and counted. -/
def Dev.noRoute (d : Dev) (entry : Nat) (m : Msg) : Dev := (d.bump 0x600010 16).freeCells entry m

/-! ## Multicast (R299, R300) -/

/-- The reach mask of a group and an output. -/
def Dev.reachOf (d : Dev) (group out : Nat) : Nat := tgetD d.router.reach (group * 32 + out) 0

/-- Send the PRUNED notices of member bits. -/
def Dev.pruned (d : Dev) (m : Msg) (mask : Nat) : Dev :=
  forEach ((List.range 64).filter (bit mask)) (fun b d =>
    (d.bump 0x600014 0).sendMsg { cls := 2, opcode := stFenced, src := d.ownNode, dst := m.src, tag := m.tag, tc := m.tc,
                                  addr := 2 ^ 31 + m.dst * 2 ^ 12 + b }) d

/-- A message with its member mask replaced. -/
def withMask (m : Msg) (mask : Nat) : Msg := { m with data := natBytes 8 mask ++ m.data.drop 8 }

/-- The node behind a port is fenced. -/
def Dev.partnerFenced (d : Dev) (p : Nat) : Bool := p < 24 && nmem d.router.fenced (d.link p).peerNode

/-- The copy for one output, or its pruning. -/
def Dev.mcBranch (d : Dev) (entry : Nat) (m : Msg) (ahead : Bool) (out mask : Nat) : Dev :=
  let send := fun (o : Nat) (d : Dev) =>
    if o = 24 && entry < 24 && m.cls = 0 && !((d.igfEntries entry m.src).any fun e => igfAddr e m.addr) then
      (d.igfDrop entry).sendMsg { d.rspTo m stDenied 0x25 0 with src := d.ownNode }
    else d.enqueue o entry (withMask m mask) ahead
  if mask = 0 then d
  else if out = entry then d.pruned m mask
  else if d.usable entry out then if d.partnerFenced out then d.pruned m mask else send out d
  else
    let alt := d.fld (0x600100 + 4 * out) 8 5
    if d.usable entry alt && !d.partnerFenced alt then send alt d else d.pruned m mask

/-- Take the outputs in turn; what is left of the mask at the end is pruned. -/
def Dev.mcOutputs (d : Dev) (entry : Nat) (m : Msg) (ahead : Bool) (left : Nat) : List Nat → Dev
  | [] => d.pruned m left
  | o :: r =>
    let rp := Nat.land (d.reachOf m.dst o) left
    (d.mcBranch entry m ahead o rp).mcOutputs entry m ahead (Nat.xor left rp) r

/-- Replicate a multicast message. -/
def Dev.multicast (d : Dev) (entry : Nat) (m : Msg) (ahead : Bool) : Dev :=
  (d.mcOutputs entry m ahead (field m.data 0 8) (List.range 25)).leftInput (bufferOf entry ahead) m

/-! ## The lookup (R291, R304) -/

/-- Route a message past filter and police; `ahead` is one sent again after a break, which no longer holds the input buffer (R296). While
NODE is 0 no DST is this device's own (R467). -/
def Dev.route (d : Dev) (entry : Nat) (m : Msg) (ahead : Bool) : Dev :=
  let buf := bufferOf entry ahead
  if m.mc then d.multicast entry m ahead
  else if (m.dst = d.ownNode && m.dst ≠ 0) || m.dst = 0xFFF then
    if m.dst = 0xFFF && m.cls ≠ 0 then d.noRoute buf m else d.enqueue 24 entry m ahead
  else if some m.dst = d.serviceId then d.enqueue 24 entry m ahead
  else if nmem d.router.fenced m.dst then
    if m.cls = 0 then (d.freeCells buf m).sendMsg { d.rspTo m stFenced 0 m.dst with src := d.ownNode }
    else (d.bump 0x600018 16).freeCells buf m
  else if m.dst = 0 || 0xFF0 ≤ m.dst || (m.dst = d.fld 0x680004 0 12) then d.noRoute buf m
  else
    match d.chooseOut entry m with
    | some o => d.enqueue o entry m ahead
    | none => d.noRoute buf m

/-- The router answers a request RETRY: a request to this device counts in its ordered stream, whose hint it carries (R101, R108). -/
def Dev.policed (d : Dev) (m : Msg) (h : Nat) : Dev :=
  let h := if d.forUs m then d.streamHint m h else h
  (if d.forUs m then d.noteLate m h else d).sendMsg (d.responseFor m stRetry h 0 none)

/-- A message reaches the lookup: a fenced source, the filter and the policer come first. -/
def Dev.lookupMsg (d : Dev) (entry : Nat) (m : Msg) : Dev :=
  if d.turnsBack entry then
    { d with test := { d.test with lbChecked := min 0xFFFFFFFF (d.test.lbChecked + 1) } }.enqueue entry entry { m with src := m.dst, dst := m.src } false
  else if entry < 24 && nmem d.router.fenced m.src then (d.bump 0x600018 16).freeCells entry m
  else if entry < 24 && !d.igfAdmits entry m then
    let d := (d.igfDrop entry).freeCells entry m
    if m.cls = 0 then d.sendMsg (d.responseFor m stDenied 0x25 0 none) else d
  else
    match (if entry < 24 then d.police entry m else (none, d)) with
    | (some h, d) => (d.freeCells entry m).policed m h
    | (none, d) => d.route entry m false

/-- A message head reaches the lookup: the oldest of its port and channel, or of LOCAL. -/
def execRouterLookup (port : Nat) (m : Msg) (s : State) := liftDev (fun d =>
  if port = 24 then
    match d.router.localq with
    | x :: r => if x = m then ({ d with router := { d.router with localq := r } }).lookupMsg 24 m else d
    | [] => d
  else
    match d.router.inputs.find? fun e => e.1 == port && vcOf e.2.cls == vcOf m.cls with
    | some e => if e.2 = m then ({ d with router := { d.router with inputs := d.router.inputs.erase e } }).lookupMsg port m else d
    | none => d) s

/-- Remove an entry of an output queue. -/
def Dev.unqueue (d : Dev) (out i : Nat) : Dev := { d with router := { d.router with queues := tput d.router.queues out ((d.queue out).eraseIdx i) } }

/-- A head has waited HOLD_US for its output (R294). -/
def execHeadHoldTimeout (output entry : Nat) (s : State) := liftDev (fun d =>
  match (d.queue output)[entry]? with
  | none => d
  | some q =>
    if ((d.queue output).take entry).any fun x => x.input == q.input && vcOf x.m.cls == vcOf q.m.cls then d
    else
      let d := d.till (q.at_ + usTicks (d.fld 0x600000 16 5))
      (((d.unqueue output entry).bump 0x600010 0)).leftInput (bufferOf q.input q.ahead) q.m) s

/-! ## Fences (R303, R304) -/

/-- A command to fence a node, or to lift its fence. -/
def Dev.fenceCommand (d : Dev) (node : Nat) (on : Bool) : Dev :=
  if node = 0 || 0xEFF < node || d.router.fenceCmd.isSome then d
  else { d with router := { d.router with fenceCmd := some (on, node) } }

def execFence (who node : Nat) (s : State) := liftDev (fun d => d.leasedWrite who false fun d => d.fenceCommand node true) s
def execUnfence (who node : Nat) (s : State) := liftDev (fun d => d.leasedWrite who false fun d => d.fenceCommand node false) s

/-- Multicast copies queued at ports of a fenced partner are pruned. -/
def Dev.pruneQueued (d : Dev) (node : Nat) : Dev :=
  forEach ((List.range 24).filter fun p => (d.link p).state == 6 && (d.link p).peerNode == node) (fun p d =>
    forEach ((d.queue p).filter (·.m.mc)) (fun q d =>
      let d := { d with router := { d.router with queues := tput d.router.queues p ((d.queue p).erase q) } }
      (d.pruned q.m (field q.m.data 0 8)).leftInput (bufferOf q.input q.ahead) q.m) d) d

/-- The fence point: no message for the node is left at an output. -/
def execFencePoint (s : State) := liftDev (fun d =>
  match d.router.fenceCmd with
  | none => d
  | some (on, n) =>
    if d.router.queues.any fun o => o.1 < 24 && o.2.any fun q => !q.m.mc && q.m.dst == n then d
    else
      let d := if on then d.pruneQueued n else d
      let d := { d with router := { d.router with
                   fenced := if on then nadd d.router.fenced n else ndel d.router.fenced n,
                   fenceCmd := none, lastNode := n, fenceEpoch := (d.router.fenceEpoch + 1) % 2 ^ 32 } }
      if on then
        let d := d.nodeGone n
        match d.sessionOf n with
        | some (i, _) => d.endSession i
        | none => d
      else d) s

end Sys2Proof.Machine
end

