-- ==== Sys2Proof/Machine/Links.lean ====
section
/-! DEFINITION. Glador links (chapter 12): training, the receive path, acknowledgement and replay, broken links, flow control,
link-domain encryption, and the start of a message on its output (R109). A message starts whole, and a replay pass is
sent whole at its start (log entry 23). -/

namespace Sys2Proof.Machine

/-! ## The mirror's view of its links (R306, R315) -/

/-- A unit recognises that its partner may have failed (Table 14.5). -/
def Dev.mirSuspect (d : Dev) (cause : Nat) : Dev :=
  if (d.mir.role = 1 || d.mir.role = 2) && d.mir.phase = 0 then
    ({ d with mir := { d.mir with phase := if d.mir.role = 1 then 1 else 2, cause := cause } }.logSrc (0x0700 + cause)).msixBoth
  else d

/-- The links in role MIRROR that are ACTIVE with the partner, lowest first. -/
def Dev.mirrorLinks (d : Dev) : List Nat :=
  (List.range 24).filter fun l => (d.link l).state == 6 && (d.link l).peerRole == 2 && (d.link l).peerNode == d.fld 0x680004 16 12

/-- The carrying links follow the state of the MIRROR links: a lost one is replaced by a spare, and records outstanding on a
link that does not carry are sent again (R306, R310). -/
def Dev.carryUpdate (d : Dev) : Dev :=
  if d.mir.role = 0 then d
  else
    let live := d.mirrorLinks
    let kept := d.mir.carrying.filter fun l => nmem live l
    let c := kept ++ (live.filter fun l => !nmem kept l).take (2 - kept.length)
    let had := !d.mir.carrying.isEmpty
    let d := { d with mir := { d.mir with carrying := c } }
    match c with
    | [] => if had then d.mirSuspect 3 else d
    | h :: _ =>
      let stray := d.mir.unacked.filter fun r => !nmem c r.link
      let d := { d with mir := { d.mir with unacked := d.mir.unacked.map fun (r : RepRec) => if nmem c r.link then r else { r with link := h } } }
      forEach stray (fun r d => d.queueOn h r.m) d

/-! ## Link states and events (R273) -/

/-- The event of an entry into ACTIVE or BROKEN, or of a failed training: the state is its CODE, its ORIGIN the partner as PARAM made it
known. -/
def Dev.linkEvent (d : Dev) (l peer code : Nat) : Dev :=
  let k := d.link l
  d.log (0x0600 + l) (origin := if peer = 0 then 0xFFF else peer) (code := code)
    (arg0 := k.reason + k.width * 16 + k.rate * 128)

/-- A link that is held in DISABLED: the profile does not power it, its flue die is disabled, or its rail failed (R21, R383,
R396). -/
def Dev.linkHeld (d : Dev) (l : Nat) : Bool :=
  nmem d.pm.linksOff l || nmem d.boot.flueOff (l / 12) || d.pm.railFaults.any fun r => r == 6 || r == 7

/-- GL_LINK_CTL of a link, which a training takes as it begins (R272). -/
def Dev.ctlNow (d : Dev) (l : Nat) : Nat := d.glFld l 0 0 32

/-- A link begins training: numbers, replay buffer, partial messages and keys are gone, and RATE, MAX_WIDTH, LANE_DIS and ROLE are taken
for this training (R272). -/
def Dev.linkDetect (d : Dev) (l : Nat) : Dev :=
  let k := d.link l
  let first := if d.linkHeld l then 0 else 1
  let d := d.setLink l fun _ =>
    { state := first, reason := k.reason, failedOnce := k.failedOnce, stepAt := d.now, ctl := d.ctlNow l, lowered := k.lowered, used0 := k.used0, used1 := k.used1 }
  d.carryUpdate

/-- A training step fails: REASON is recorded, and the link is back in DETECT; the first failure since ACTIVE writes an
event. -/
def Dev.trainFail (d : Dev) (l reason : Nat) : Dev :=
  let k := d.link l
  let d := (d.linkDetect l).setLink l fun k => { k with reason := reason, failedOnce := true }
  if k.failedOnce then d else d.linkEvent l k.peerNode 1

/-- A link is ACTIVE (Table 12.4 step 6). -/
def Dev.linkActive (d : Dev) (l : Nat) : Dev :=
  let d := d.setLink l fun k => { k with state := 6, reason := 0, failedOnce := false, expected := 0, nextSeq := 0, oldest := 0, replay := [] }
  (d.linkEvent l (d.link l).peerNode 6).carryUpdate

/-! ## Breaking a link (R282, R283, R296, R298) -/

/-- The messages with cells in the replay buffer, in order, each with the port it entered by. -/
def Link.unsent (k : Link) : List (Nat × Msg) :=
  (k.replay.foldl (fun (acc : List SentCell) c => if acc.any (·.first == c.first) then acc else acc ++ [c]) []).map fun c => (c.input, c.m)

/-- A link is declared broken: its unacknowledged messages are routed again, unless they are mirror traffic, and messages
partly accepted are truncated. -/
def Dev.linkBreak (d : Dev) (l reason : Nat) : Dev :=
  let k := d.link l
  if k.state ≠ 6 then d
  else
    let d := (d.control l 6 []).bump (0x40002C + 0x10000 * l) 16
    let d := d.bumps 0x600018 0 (b2n (!k.partial0.isEmpty) + b2n (!k.partial1.isEmpty))
    let d := d.setLink l fun k => { k with state := 7, reason := reason, brokenAt := d.now, replay := [], heldCells := [], openGroup := 0, groupFields := [], groupText := [],
                                           partial0 := [], partial1 := [], stray0 := false, stray1 := false, used0 := k.used0 - k.partial0.length, used1 := k.used1 - k.partial1.length }
    let d := d.linkEvent l k.peerNode 7
    if k.peerRole = 2 then
      ({ d with router := { d.router with queues := tdel d.router.queues l } }).carryUpdate
    else
      forEach k.unsent (fun e d => (d.bump 0x600014 16).route e.1 e.2 true) d

/-! ## Training (Table 12.4) -/

/-- Lanes of a link that training may use. -/
def Dev.lanesOf (d : Dev) (l lanes : Nat) : Nat := Nat.land (lanes % 16) (15 - bits (d.link l).ctl 16 4)

def execSignalDetect (link lanes : Nat) (s : State) := liftDev (fun d =>
  if (d.link link).state = 1 && d.lanesOf link lanes ≠ 0 then d.setLink link fun k => { k with state := 2, stepAt := d.now } else d) s

/-- DETECT repeats. DEDUCED (log entry 23): each repeat is a training begun anew, and takes GL_LINK_CTL anew. -/
def execDetectRetry (link : Nat) (s : State) := liftDev (fun d =>
  if (d.link link).state ≠ 1 then d
  else
    let d := d.till ((d.link link).stepAt + msTicks 10)
    d.setLink link fun k => { k with stepAt := d.now, ctl := d.ctlNow link }) s

/-- The lanes of the widest width that passed, no wider than MAX_WIDTH. -/
def widest (lanes most : Nat) : Nat :=
  if most = 2 && lanes = 15 then 15
  else if 1 ≤ most && Nat.land lanes 3 = 3 then 3
  else if 1 ≤ most && Nat.land lanes 12 = 12 then 12
  else (((List.range 4).find? (bit lanes)).map (2 ^ ·)).getD 0

/-- The number of lanes in a mask. -/
def laneCount (lanes : Nat) : Nat := ((List.range 4).filter (bit lanes)).length

/-- A link has passed EQUALISE: it is due for retraining no longer, and its retraining has ended (R410). -/
def Dev.equalised (d : Dev) (l : Nat) : Dev :=
  let d := if d.age.retraining = some l then
    { d with age := { d.age with retraining := none } }.log 0x0142 (code := l) (arg0 := 1) else d
  { d with age := { d.age with retrainDue := ndel d.age.retrainDue l } }

def execEqualiseDone (link lanes : Nat) (s : State) := liftDev (fun d =>
  if (d.link link).state ≠ 2 then d
  else
    let c := (d.link link).ctl
    let w := widest (d.lanesOf link lanes) (bits c 26 2)
    if w = 0 then d.trainFail link 1
    else (d.equalised link).setLink link fun k => { k with state := 3, stepAt := d.now, lanes := w, width := laneCount w, rate := bits c 25 1 }) s

/-- Send a PARAM cell that returns the STAMP last received; its own STAMP is the timebase (R274). -/
def Dev.sendParam (d : Dev) (l echo : Nat) : Dev :=
  let k := d.link l
  let stamp := d.now % 65536
  (d.setLink l fun k => { k with stamps := k.stamps ++ [stamp] }).control l 3
    (paramFields { node := d.ownNode, role := bits k.ctl 28 2, cls := 2, width := k.width, rate := k.rate, stamp := stamp, echo := echo })

def execAlignDone (link : Nat) (s : State) := liftDev (fun d =>
  if (d.link link).state ≠ 3 then d
  else if d.ownNode = 0 then d.trainFail link 9
  else (d.setLink link fun k => { k with state := 4, stepAt := d.now }).sendParam link 0) s

/-- The maximum of the step a link is in, in ticks, and the reason recorded when it is exceeded. -/
def stepLimit (state : Nat) : Nat × Nat :=
  if state = 2 then (msTicks 150, 1) else if state = 3 then (msTicks 5, 2) else if state = 4 then (msTicks 1, 3) else (msTicks 1, 7)

def execTrainingStepTimeout (link : Nat) (s : State) := liftDev (fun d =>
  let k := d.link link
  if k.state < 2 || 5 < k.state then d
  else (d.till (k.stepAt + (stepLimit k.state).1)).trainFail link (stepLimit k.state).2) s

/-! ## Acknowledgement (R279, R280) -/

/-- Cells sent and not acknowledged. -/
def Link.outstanding (k : Link) : Nat := (k.nextSeq + 4096 - k.oldest) % 4096

/-- ACK_SEQ and FLOW of a control cell. -/
def Dev.applyAck (d : Dev) (l ack flow : Nat) : Dev :=
  let k := d.link l
  if k.state ≠ 6 then d
  else
    let d := d.setLink l fun k => { k with peerXoff0 := bit flow 0, peerXoff1 := bit flow 1 }
    let n := (ack + 4096 - k.oldest) % 4096
    if k.outstanding ≤ n then d
    else
      let o := (ack + 1) % 4096
      let past := (k.passStart + 4096 - k.oldest) % 4096
      d.setLink l fun k => { k with oldest := o, oldestAt := d.now, replay := k.replay.filter fun c => n < (c.seq + 4096 - k.oldest) % 4096,
                                    passes := if past ≤ n then 0 else k.passes }

/-! ## Encryption (R288) -/

/-- The IV of a group: the sender's SALT and GROUP. -/
def groupIv (salt group : Nat) : List Byte := natBytes 4 salt ++ beBytes 8 group

/-- Close the open group: its AUTH cell, with the tag over the group. -/
def Dev.groupClose (d : Dev) (l : Nat) : Dev :=
  let k := d.link l
  if k.openGroup = 0 then d
  else
    let tag := gcmTag k.sendKey (groupIv k.salt k.sendGroup) k.groupFields k.groupText
    (d.control l 5 (authFields k.groupFirst k.openGroup k.sendGroup tag)).setLink l fun k =>
      { k with openGroup := 0, groupFields := [], groupText := [], sendGroup := k.sendGroup + 1 }

/-- Transmit a cell of a message: on an encrypted link as one of a group of at most 32 cells, its bytes 2 to 43 enciphered (R288). -/
def Dev.transmit (d : Dev) (l : Nat) (c : SentCell) : Dev :=
  let k := d.link l
  let i := (c.seq + 4096 - c.first) % 4096
  let fld := linkField c.seq (vcOf c.m.cls) (kindAt (cellsOf c.m.data.length) i) 0
  let body := msgBody c.m i
  if !k.encrypted then d.emit (.cell l (cellBytes fld body))
  else
    let text := gcmStream k.sendKey (groupIv k.salt k.sendGroup) (42 * k.openGroup) body
    let d := (d.emit (.cell l (cellBytes fld text))).setLink l fun k =>
      { k with groupFirst := if k.openGroup = 0 then c.seq else k.groupFirst, openGroup := k.openGroup + 1,
               groupFields := k.groupFields ++ natBytes 2 fld, groupText := k.groupText ++ text }
    if (d.link l).openGroup = 32 then d.groupClose l else d

def execGroupClose (link : Nat) (s : State) := liftDev (fun d =>
  if (d.link link).state = 6 then d.groupClose link else d) s

/-! ## Replay (R281) -/

/-- Start a replay pass from a sequence number: the cells not acknowledged go again, as of a new group (R288); a ninth consecutive pass breaks the
link. -/
def Dev.replayPass (d : Dev) (l start : Nat) : Dev :=
  let k := d.link l
  if 8 ≤ k.passes then d.linkBreak l 8
  else
    let d := d.groupClose l
    let n := (k.nextSeq + 4096 - start) % 4096
    let d := (d.bump (0x400028 + 0x10000 * l) 16).setLink l fun k => { k with passes := k.passes + 1, passAt := d.now, passStart := start }
    forEach (k.replay.filter fun c => (c.seq + 4096 - start) % 4096 < n) (fun c d => d.transmit l c) d

/-- Ask for a replay from E, once until a cell is accepted or REPLAY_NS has passed (R276). -/
def Dev.askReplay (d : Dev) (l : Nat) (always : Bool) : Dev :=
  let k := d.link l
  let quiet := match k.replaySent with
    | some t => d.now < t + nsTicks (d.glFld l 0x10 14 13)
    | none => false
  if quiet && !always then d else (d.setLink l fun k => { k with replaySent := some d.now }).control l 2 (natBytes 2 k.expected)

/-! ## Reception (R275, R276, R86, R87) -/

/-- The payload bytes an opcode and LEN imply, where they do (R86). A multicast SNP_INV has CAUSE after its member mask (R119). -/
def impliedLen (m : Msg) : Option Nat :=
  let base : Option Nat :=
    if m.cls = 2 then some (if m.opcode = 0x45 then 12 else 0)
    else if m.cls = 3 then none
    else if m.cls = 1 then
      (if m.opcode = 4 then some 64 else if m.opcode = 1 then some (if m.mc then 2 else 0)
       else if 1 ≤ m.opcode && m.opcode ≤ 5 then some 0 else none)
    else if m.opcode = 1 || m.opcode = 0x10 || m.opcode = 0x11 || m.opcode = 0x12 || m.opcode = 0x14 || m.opcode = 0x3A then some 0
    else if m.opcode = 2 then some 4
    else if knownRequest m.opcode || m.opcode = 0x3C || m.opcode = 0x3D || (0x40 ≤ m.opcode && m.opcode ≤ 0x47) then some (m.len + 1)
    else none
  base.map fun n => if m.mc then n + 8 else n

/-- The data message `xfer` of an answer has, as its request asked for it: what a READ_BULK has left at that index, the line of a snoop
or of a fetch, the 72 bytes of a recalled line, and none otherwise (R86, R97, R130). -/
def askedLen (r : Msg) (xfer : Nat) : Nat :=
  if r.cls = 1 then (if r.opcode = 5 then 72 else 64)
  else if r.opcode = 2 then min 256 (field r.data 0 4 - 256 * xfer)
  else if r.opcode = 1 || r.opcode = 0x46 then r.len + 1
  else 0

/-- The payload length of a received message, where the device knows it: that of a DAT only where the request it answers is the device's
own. -/
def Dev.payloadLen (d : Dev) (m : Msg) : Option Nat :=
  if m.cls = 3 && d.forUs m then (d.matchReq m.src m.tag).map fun r => askedLen r.2.m m.xfer else impliedLen m

/-- The message its cells spell: header and payload. -/
def Dev.cellsMsg (d : Dev) (cells : List Cell) : Msg :=
  let bs := (cells.map bodyOf).flatten
  let m := ofHeader (leNat (bs.take 16)) []
  { m with data := match d.payloadLen m with
      | some n => slice bs 16 n
      | none => (bs.drop 16).take 256 }

/-- Forget cells of a virtual channel. -/
def Dev.dropCells (d : Dev) (l vc n : Nat) : Dev :=
  (d.setLink l fun k => if vc = 0 then { k with used0 := k.used0 - n } else { k with used1 := k.used1 - n }).flowCheck l vc

/-- A message is complete: checked, and put into the router's input. -/
def Dev.msgIn (d : Dev) (l vc : Nat) (cells : List Cell) : Dev :=
  let m := d.cellsMsg cells
  let bad := (match d.payloadLen m with
    | some n => cells.length != cellsOf n || 256 < n
    | none => 7 < cells.length) || vcOf m.cls != vc
  if bad then (d.malformed l).dropCells l vc cells.length
  else { d with router := { d.router with inputs := d.router.inputs ++ [(l, m)] } }

/-- Set the cells of a channel's unfinished message, and whether stray cells have come. -/
def Dev.setPart (d : Dev) (l vc : Nat) (p : List Cell) (stray : Bool) : Dev :=
  d.setLink l fun k => if vc = 0 then { k with partial0 := p, stray0 := stray } else { k with partial1 := p, stray1 := stray }

/-- Put an accepted cell into its channel's message. Bodies and a tail that follow no head are one message whose KIND sequence is wrong:
it is counted at its tail, or where the next message begins (R86). -/
def Dev.cellNext (d : Dev) (l : Nat) (c : Cell) : Dev :=
  let k := d.link l
  let vc := chanOf c
  let part := if vc = 0 then k.partial0 else k.partial1
  let stray := if vc = 0 then k.stray0 else k.stray1
  if kindOf c ≤ 1 then
    let d := if part.isEmpty && !stray then d else ((d.setPart l vc [] false).malformed l).dropCells l vc part.length
    if kindOf c = 0 then d.msgIn l vc [c] else d.setPart l vc [c] false
  else if part.isEmpty then
    (if kindOf c = 3 then (d.setPart l vc [] false).malformed l else d.setPart l vc [] true).dropCells l vc 1
  else if kindOf c = 2 then d.setPart l vc (part ++ [c]) false
  else (d.setPart l vc [] false).msgIn l vc (part ++ [c])

/-- An acknowledgement that is due: ACK where a sequenced cell waits, IDLE otherwise (Table 12.7). -/
def Dev.ackCell (d : Dev) (l : Nat) : Dev := d.control l (b2n !(d.queue l).isEmpty) []

/-- The sequence check and acceptance (R276, R279, R284 to R286). -/
def Dev.cellSeq (d : Dev) (l : Nat) (c : Cell) : Dev :=
  let k := d.link l
  let dd := (seqOf c + 4096 - k.expected) % 4096
  if 2048 ≤ dd then (d.bump (0x400028 + 0x10000 * l) 0).ackCell l
  else if dd ≠ 0 then d.askReplay l false
  else if k.free (chanOf c) = 0 then d.bump (0x400024 + 0x10000 * l) 0
  else
    let d := d.setLink l fun k =>
      { k with expected := (k.expected + 1) % 4096, uncovered := k.uncovered + 1, replaySent := none,
               uncoveredAt := if k.uncovered = 0 then d.now else k.uncoveredAt,
               used0 := if chanOf c = 0 then k.used0 + 1 else k.used0, used1 := if chanOf c = 0 then k.used1 else k.used1 + 1 }
    let d := (d.flowCheck l (chanOf c)).cellNext l c
    if d.glFld l 0x10 0 7 ≤ (d.link l).uncovered then d.ackCell l else d

/-- A group fails, by its tag or by the CRC of one of its cells: its held cells go, and E is asked for; the AUTH of the first group of a
training, or 16 failures in a row, end the link (R282, R288, Table 12.5). -/
def Dev.groupFail (d : Dev) (l : Nat) (byTag : Bool) : Dev :=
  let k := d.link l
  let d := (d.bump (0x40002C + 0x10000 * l) 0).setLink l fun k => { k with heldCells := [], groupBad := !byTag, authFails := k.authFails + 1 }
  if byTag && k.recvGroup = 0 then d.linkBreak l 7
  else if 16 ≤ k.authFails + 1 then d.linkBreak l 8
  else d.askReplay l true

/-- A sequenced cell. -/
def execCellReceive (link : Nat) (c : Cell) (s : State) := liftDev (fun d =>
  let k := d.link link
  if k.state ≠ 6 then d
  else if !c.fecOk then d.bump (0x400020 + 0x10000 * link) 0
  else if !cellCrcOk c then
    let d := d.bump (0x400020 + 0x10000 * link) 16
    if k.encrypted && !k.groupBad then d.groupFail link false else d
  else if k.groupBad then d
  else if k.encrypted then d.setLink link fun k => { k with heldCells := k.heldCells ++ [c] }
  else d.cellSeq link c) s

/-! ## Control cells (R277) -/

def execIdle (link ack flow : Nat) (s : State) := liftDev (fun d => d.applyAck link ack flow) s
def execAck (link ack flow : Nat) (s : State) := liftDev (fun d => d.applyAck link ack flow) s

def execReplay (link ack flow fromSeq : Nat) (s : State) := liftDev (fun d =>
  let d := d.applyAck link ack flow
  let k := d.link link
  if k.state = 6 && (fromSeq % 4096 + 4096 - k.oldest) % 4096 < k.outstanding then d.replayPass link (fromSeq % 4096) else d) s

/-- The codes a PARAM cell spells: a reserved ROLE is FABRIC, a reserved CLASS a client (R274). -/
def paramRole (p : ParamCell) : Nat := if p.role ≤ 2 then p.role else 0
def paramClass (p : ParamCell) : Nat := if p.cls ≤ 2 then p.cls else 0

/-- Why a PARAM cell does not match, as REASON (R274, Table 12.5). -/
def Dev.paramRefused (d : Dev) (l : Nat) (p : ParamCell) : Option Nat :=
  let k := d.link l
  let own := bits k.ctl 28 2
  if p.width ≠ k.width || p.rate ≠ k.rate || p.node = d.ownNode || p.node = 0 then some 4
  else if paramRole p ≠ own || (own ≠ 0 && paramClass p ≠ 2) then some 5
  else none

/-- KEYING begins with this end's KEY cell, of numbers from the security core (R287). -/
def Dev.keying (d : Dev) (l : Nat) : Dev :=
  let a := d.draw
  let b := a.2.draw
  let nonce := a.1 % 2 ^ 256
  let salt := b.1 % 2 ^ 32
  (b.2.setLink l fun k => { k with state := 5, stepAt := d.now, nonce := nonce, salt := salt }).control l 4 (natBytes 32 nonce ++ natBytes 4 salt)

/-- The round trips of a training are measured: their mean in ns, and ACTIVE or KEYING where it is in reach (R274, Table 12.5). A tick
is 1.25 ns. -/
def Dev.paramEnd (d : Dev) (l : Nat) : Dev :=
  let sum := (d.link l).trips.sum
  if 900 * 64 < 5 * sum then d.trainFail l 6
  else
    let d := d.setLink l fun k => { k with rttNs := 5 * sum / 64 }
    if bits (d.link l).ctl 28 2 = 0 then d.linkActive l else d.keying l

/-- A PARAM cell in PARAM: the partner, whether the two ends agree, and a round trip where it returns a STAMP of this training. It is
answered at once; the step ends with the sixteenth round trip (R274, log entry 23). -/
def execParam (link ack flow : Nat) (p : ParamCell) (s : State) := liftDev (fun d =>
  let d := d.applyAck link ack flow
  if (d.link link).state ≠ 4 then d
  else
    let refused := d.paramRefused link p
    let d := d.setLink link fun k => { k with peerRole := paramRole p, peerClass := paramClass p, peerNode := p.node }
    match refused with
    | some reason => d.trainFail link reason
    | none =>
      let d := (d.setLink link fun k =>
        { k with trips := if nmem k.stamps p.echo then k.trips ++ [(d.now + 65536 - p.echo) % 65536] else k.trips }).sendParam link p.stamp
      if (d.link link).trips.length < 16 then d else d.paramEnd link) s

/-- The session keys of a link whose two ends have sent these nonces: of the direction from the lower node ID, and of the other (R287). -/
def linkKeys (own peer nonce peerNonce : Nat) : List Byte × List Byte :=
  let low := own < peer
  hkdfPair Config.linkDomainKey (natBytes 32 (if low then nonce else peerNonce) ++ natBytes 32 (if low then peerNonce else nonce))
    (ascii "GLADOR-LINK" ++ natBytes 2 (min own peer) ++ natBytes 2 (max own peer))

/-- A KEY cell in KEYING makes the session keys (R287); in ACTIVE it is malformed (Table 12.7). -/
def execKey (link ack flow nonce salt : Nat) (agrees : Bool) (s : State) := liftDev (fun d =>
  let d := d.applyAck link ack flow
  let k := d.link link
  if k.state = 5 then
    if !agrees then d.trainFail link 7
    else
      let keys := linkKeys d.ownNode k.peerNode k.nonce nonce
      let low := d.ownNode < k.peerNode
      (d.setLink link fun k => { k with encrypted := true, peerNonce := nonce, peerSalt := salt, sendGroup := 0, recvGroup := 0,
                                        sendKey := if low then keys.1 else keys.2, recvKey := if low then keys.2 else keys.1,
                                        openGroup := 0, groupFields := [], groupText := [], authFails := 0 }).linkActive link
  else if k.state = 6 then d.malformed link
  else d) s

/-- The cells of a group, deciphered, none where they are not the group an AUTH cell names or its tag does not verify (R288). -/
def Link.opened (k : Link) (first count group : Nat) (tag : List Byte) : Option (List Cell) :=
  if group ≠ k.recvGroup || k.heldCells.head?.map seqOf ≠ some first || k.heldCells.length ≠ count then none
  else
    (gcmOpen k.recvKey (groupIv k.peerSalt group) (k.heldCells.flatMap fun c => slice c.bytes 0 2) (k.heldCells.flatMap bodyOf) tag).map
      fun text => k.heldCells.zipIdx.map fun e => { e.1 with bytes := slice e.1.bytes 0 2 ++ slice text (42 * e.2) 42 ++ slice e.1.bytes 44 4 }

/-- An AUTH cell: the held cells of its group are accepted in order, or discarded; of a group that has failed already it only ends the
discarding. -/
def execAuth (link ack flow first count group : Nat) (tag : List Byte) (s : State) := liftDev (fun d =>
  let d := d.applyAck link ack flow
  let k := d.link link
  if k.state ≠ 6 || !k.encrypted then (if k.state = 6 then d.malformed link else d)
  else
  if k.groupBad then
    d.setLink link fun k => { k with recvGroup := max k.recvGroup (group + 1), groupBad := group < k.recvGroup }
  else
  match k.opened first count group tag with
  | some cells =>
    let d := d.setLink link fun k => { k with heldCells := [], authFails := 0, recvGroup := group + 1 }
    forEach cells (fun c d => if (d.link link).state = 6 then d.cellSeq link c else d) d
  | none =>
    let d := d.groupFail link true
    d.setLink link fun k => { k with recvGroup := max k.recvGroup (group + 1) }) s

def execReset (link ack flow : Nat) (s : State) := liftDev (fun d => (d.applyAck link ack flow).linkBreak link 8) s

def execReservedControlCell (link ack flow type : Nat) (s : State) := liftDev (fun d =>
  if type < 7 then d
  else
    let d := d.applyAck link ack flow
    if (d.link link).state = 6 then d.malformed link else d) s

/-! ## Timers and causes of a break (Table 12.9) -/

def execAckTimerExpiry (link : Nat) (s : State) := liftDev (fun d =>
  let k := d.link link
  if k.state ≠ 6 || k.uncovered = 0 then d
  else (d.till (k.uncoveredAt + nsTicks (d.glFld link 0x10 7 7))).ackCell link) s

def execReplayTimerExpiry (link : Nat) (s : State) := liftDev (fun d =>
  let k := d.link link
  if k.state ≠ 6 || k.outstanding = 0 then d
  else (d.till (max k.oldestAt k.passAt + nsTicks (d.glFld link 0x10 14 13))).replayPass link k.oldest) s

def execCreditTimerExpiry (link : Nat) (s : State) := liftDev (fun d =>
  let k := d.link link
  if k.state ≠ 6 || k.outstanding = 0 then d
  else (d.till (k.oldestAt + usTicks (d.glFld link 0x10 27 5))).linkBreak link 8) s

def execLockLoss (link : Nat) (s : State) := liftDev (fun d => d.linkBreak link 8) s

def execAutoRetrain (link : Nat) (s : State) := liftDev (fun d =>
  let k := d.link link
  if k.state ≠ 7 || d.glFld link 0 30 1 = 0 then d else (d.till (k.brokenAt + usTicks 1)).linkDetect link) s

/-- GL_LINK_CTL.RESET: an ACTIVE link breaks, a broken one that does not retrain of itself goes to DETECT (R282, R283). -/
def Dev.linkReset (d : Dev) (l : Nat) : Dev :=
  if (d.link l).state = 6 then d.linkBreak l 8
  else if (d.link l).state = 7 then d.linkDetect l
  else d

/-- GL_LINK_CTL.ENABLE: 0 breaks an ACTIVE link and disables it, 1 starts training (R282). -/
def Dev.linkEnable (d : Dev) (l : Nat) (on : Bool) : Dev :=
  let off := 0x400000 + 0x10000 * l
  let d := d.setReg off (setBits (d.reg off) 31 1 (b2n on))
  if on then if (d.link l).state = 0 then d.linkDetect l else d
  else if (d.link l).state = 0 then d
  else
    let d := (d.linkBreak l 8).linkDetect l
    d.setLink l fun k => { k with state := 0 }

def execLinkCtlReset (who link : Nat) (s : State) := liftDev (fun d => d.leasedWrite who false fun d => d.linkReset link) s
def execLinkCtlEnable (who link : Nat) (enable : Bool) (s : State) := liftDev (fun d => d.leasedWrite who false fun d => d.linkEnable link enable) s

/-! ## Sending (R109, R280, R294) -/

/-- A message may start on a link now: its channel is not in XOFF, its cells have credits, and its shaper conforms. -/
def Dev.maySend (d : Dev) (l : Nat) (m : Msg) : Bool :=
  !d.outXoff l (vcOf m.cls) && (d.link l).outstanding + cellsOf m.data.length ≤ 2048 && d.shapes l m

/-- The message a port sends next, by its place: re-injected ones first, then the highest traffic class, virtual channel 1
before 0, and of those the oldest. -/
def Dev.sendNext (d : Dev) (l : Nat) : Option (Nat × Queued) :=
  let q := (d.queue l).zipIdx.map fun e => (e.2, e.1)
  let heads := q.filter fun e => (q.filter fun x => x.1 < e.1 && x.2.m.tc == e.2.m.tc && vcOf x.2.m.cls == vcOf e.2.m.cls).isEmpty
  let ok := heads.filter fun e => d.maySend l e.2.m
  let rank := fun (e : Nat × Queued) => (if e.2.ahead then 16 else 0) + e.2.m.tc * 2 + vcOf e.2.m.cls
  ok.foldl (fun b e => match b with
    | none => some e
    | some x => if rank x < rank e then some e else some x) none

/-- Send a message that entered by a port on a link: its cells take sequence numbers and replay slots. -/
def Dev.sendOn (d : Dev) (l input : Nat) (m : Msg) : Dev :=
  let n := cellsOf m.data.length
  let d := d.shape l m
  let k := d.link l
  let cells := (List.range n).map fun i => ({ seq := (k.nextSeq + i) % 4096, first := k.nextSeq, input := input, m := m } : SentCell)
  let d := d.setLink l fun k => { k with nextSeq := (k.nextSeq + n) % 4096, replay := k.replay ++ cells, lowered := false,
                                         oldestAt := if k.outstanding = 0 then d.now else k.oldestAt }
  forEach cells (fun c d => d.transmit l c) d

/-- A waiting message starts on its output; at output 24 it is delivered to LOCAL. -/
def execOutputSend (output : Nat) (s : State) := liftDev (fun d =>
  if output = 24 then
    match d.queue 24 with
    | [] => d
    | q :: _ =>
      let d := d.unqueue 24 0
      ({ d with router := { d.router with delivered := d.router.delivered ++ [q.m] } }).leftInput (bufferOf q.input q.ahead) q.m
  else if (d.link output).state ≠ 6 then d
  else
    match d.sendNext output with
    | none => d
    | some (i, q) => ((d.unqueue output i).sendOn output q.input q.m).leftInput (bufferOf q.input q.ahead) q.m) s

end Sys2Proof.Machine
end

