-- ==== Sys2Proof/Machine/Security.lean ====
section
/-! DEFINITION. The security core (chapter 17, R449 to R453): security states and debug levels with their events, sealing and key
release, the bind-offs, attestation, firmware staging, debug tokens. A management host's key, ciphertext, token or image
is the command's operand; a fabric client's key or ciphertext is read from the pool as its own request, and a read that
fails ends the descriptor as an output write that fails does (log entry 24). -/

namespace Sys2Proof.Machine

/-! ## States, levels and their events (R381) -/

/-- Enter a security state; KEY_STATE follows it (report byte 405). -/
def Dev.secState (d : Dev) (st : Nat) : Dev :=
  if d.sec.state = st then d
  else ({ d with sec := { d.sec with state := st, keyState := if st = 2 then 1 else if st = 3 then 2 else 0 } }.logSrc (0x0010 + st)).msixBoth

/-- Enter a debug level. -/
def Dev.debugTo (d : Dev) (lv expiry : Nat) : Dev :=
  let ch := d.sec.debugLevel != lv
  let d := { d with sec := { d.sec with debugLevel := lv, debugExpiry := expiry, debugOpened := d.sec.debugOpened || lv == 2 } }
  if ch then (d.logSrc (0x0018 + lv)).msixBoth else d

/-- ECC test modes off: MODE NONE, REMAIN 0, flip masks zero (R360). -/
def Dev.eccDisarm (d : Dev) : Dev :=
  let v := d.reg 0x900080
  let d := d.setReg 0x900080 (setBits (setBits v 0 2 0) 8 8 0)
  { d with regs := d.regs.filter fun e => e.1 < 0x900100 || 0x900148 ≤ e.1 }

/-! ## Bind-off (R373, Table 17.6) -/

/-- Every region goes, with its drafts and pins; publishes that were installing end REVOKED. -/
def Dev.dropRegions (d : Dev) : Dev :=
  let d := forEach d.pool.publishing (fun (p : Publishing) d => d.poolEnd p.caller (d.callerBytes p.caller) stRevoked 0 0 0)
    { d with pool := { d.pool with publishing := [] } }
  let d := forEach (d.pool.drafts.map (·.1)) (fun i d => d.discardDraft i) d
  let d := forEach (d.pool.pins.map (·.1)) (fun i d => d.endPin i) d
  forEach (d.pool.regions.map (·.1)) (fun h d => d.endRegion h) d

/-- The Unsealing bind-off begins: sessions and jobs end, everything a tenant made is removed, the keys are gone. -/
def Dev.unsealBind (d : Dev) : Dev :=
  let d := forEach (d.host.sessions.map (·.1)) (fun n d => d.endSession n) d
  let d := forEach (d.jobs.jobs.map (·.1)) (fun i d => d.jobEnd i stAborted 3 (idResult i)) d
  let d := { d with jobs := { d.jobs with contexts := [] } }.setPrivates
  let d := d.dropRegions
  { d with pool := { d.pool with grants := [], exclusions := [] },
           fab := { d.fab with dedup := [] },
           sec := { d.sec with weightKey := [], tenantLo := 0, tenantHi := 0, sealFlags := 0, tenantKey := [], sealNonce := [], keys := [] } }

/-- Every frame and far slot has been bound off and the carve-out tables are empty: what still waited for a line of them is
answered REVOKED. -/
def Dev.bindRest (d : Dev) : Dev :=
  let waiting := (d.coh.txns.filterMap fun e => match e.2.kind with
    | .serve m => some m
    | _ => none) ++ d.pool.parked.map (·.2)
  let d := { d with coh := { d.coh with txns := [], dir := [], cache := [], cacheNru := [], sweepLines := [], recalls := [], fetched := [] },
                    pool := { d.pool with parked := [], emt := [], closed := [], frameRefs := [], binding := [], migrations := [], draftCopies := [] },
                    far := { d.far with cached := d.far.cached.filter (·.2.state == 0), wanted := [], demoting := [], moves := [], refetched := [] },
                    mem := [], poison := [], ecc := { d.ecc with odd := [], writeBacks := [] } }
  (forEach waiting (fun m d => d.refuse m stRevoked 0) d).topUpCache

/-- The bind-off of Unsealing is complete: no deallocation is outstanding. -/
def execBindOffDone (s : State) := liftDev (fun d =>
  if d.sec.state ≠ 4 || d.far.cmds.any (fun c => c.2.kind == 3 && c.2.skein != noSkein) then d
  else
    let n := d.frameLimit
    let d := d.bindRest.secState 1
    match d.sec.unsealer with
    | none => d
    | some c => { d with sec := { d.sec with unsealer := none } }.complete c stDone 0 0 n) s

/-! ## Sealing (R370 to R373) -/

/-- The weight key of a ciphertext: its ML-KEM-1024 shared secret is a free value of the ciphertext (log entry 7). -/
def weightKeyOf (ct nonce : List Byte) : List Byte :=
  hkdf (slice (Config.digestOf 20 ct) 0 32) nonce (ascii "PX480-WEIGHTS" ++ natBytes 8 Config.deviceId)

/-- Draw a SEAL_NONCE, and take a tenant range, flags and pattern key into force (R370). -/
def Dev.sealWith (d : Dev) (lo hi flags : Nat) (key : List Byte) : Dev :=
  let x := d.drawBytes 32
  let d := x.2
  ({ d with sec := { d.sec with tenantLo := lo, tenantHi := hi, sealFlags := flags % 4,
                                tenantKey := key, sealNonce := x.1 } }.secState 2).eccDisarm

/-- Run a security descriptor that needs the lease. -/
def Dev.secLease (d : Dev) (ring idx op : Nat) (changes : Bool) (features : List Nat) (f : List Byte → Dev → Dev) : Dev :=
  d.withDesc ring idx op fun b d => d.gated ring idx changes features fun d =>
    if !d.hasLease (d.ringOwner ring) then d.completeDesc ring idx stDenied 8 0 0 else f b d

/-- SEAL and UNSEAL go to the partner (R380; codes of log entry 15): the tenant's key follows in a record of its own. -/
def Dev.repSeal (d : Dev) (ring kind : Nat) (b : List Byte) : Dev :=
  d.repAdminOp b (zeros 12 ++ natBytes 4 kind) [] (d.ringOwner ring) 0

/-- SEAL. A bound of the tenant range outside [0x001, 0xEFF] is refused, not clamped (R16, R370); DESIGN CHOICE (log entry 56): with the
detail 0x0026 that node IDs outside that range get elsewhere (R68), after the other checks. -/
def execSeal (ring idx : Nat) (key : List Byte) (s : State) := liftDev (fun d =>
  d.secLease ring idx 0x62 true [9] fun b d =>
    if d.sec.state ≠ 1 || !d.pool.regions.isEmpty || !d.host.sessions.isEmpty then d.completeDesc ring idx stDenied 0x80 0 0
    else if !hssKeyOk (slice key 0 60) then d.completeDesc ring idx stDenied 0x82 0 0
    else
      let lo := field b 8 2 % 4096
      let hi := field b 10 2 % 4096
      let node := fun n => 1 ≤ n && n ≤ 0xEFF
      if !node lo || !node hi then d.completeDesc ring idx stDenied 0x26 0 0
      else
        let d := (d.debugTo 0 0).sealWith lo hi (field b 12 1) (slice key 0 60)
        (((d.repSeal ring 7 b).repSeal ring 8 (slice key 0 60)).completeDesc ring idx stDone 0 0 0)) s

/-- Bytes a descriptor has the device read: the operand from a management host, the pool's from a client. -/
def Dev.inputRead (d : Dev) (ring idx a n : Nat) (host : List Byte) (f : List Byte → Dev → Dev) : Dev :=
  match nodePort (d.ringOwner ring) with
  | some _ => f (slice host 0 n) d
  | none =>
    match d.readRun (some (d.ringOwner ring)) a n with
    | (.ok b, d) => f b d
    | (.again _, d) => d.unclaim ring idx
    | (.no _ _, d) => d.completeDesc ring idx stDeviceError 1 0 0

def execKeyRelease (ring idx : Nat) (ciphertext : List Byte) (s : State) := liftDev (fun d =>
  d.withDesc ring idx 0x63 fun b d => d.gated ring idx false [9] fun d =>
    let o := d.ringOwner ring
    if d.sec.state ≠ 2 then d.completeDesc ring idx stDenied 0x80 0 0
    else if !(d.hasLease o || (d.sec.tenantLo ≤ o && o ≤ d.sec.tenantHi)) then d.completeDesc ring idx stDenied 0x81 0 0
    else d.inputRead ring idx (field b 40 8) 1568 ciphertext fun ct d =>
      let wk := weightKeyOf ct d.sec.sealNonce
      if (sha256 (ascii "KCV" ++ wk)).take 8 = slice b 16 8 then
        ({ d with sec := { d.sec with weightKey := wk } }.secState 3).completeDesc ring idx stDone 0 0 0
      else { d with sec := { d.sec with weightKey := [] } }.completeDesc ring idx stDenied 0x83 0 0) s

/-- The work of a SEAL_LOAD descriptor (Table 17.13). -/
def sealLoadOf (ring idx node : Nat) (b : List Byte) : MoverWork :=
  { ring := ring, idx := idx, node := node, kind := 2, src := field b 8 8, dst := field b 16 8,
    length := clampGrain 65536 65536 274877906944 (field b 24 8), srcKind := epKind (field b 32 1), dstKind := 0,
    srcNode := field b 34 2 % 4096, dstNode := 0, xctx := field b 38 1, chunkBase := field b 40 8 }

def execSealLoad (ring idx : Nat) (s : State) := liftDev (fun d =>
  d.withDesc ring idx 0x64 fun b d => d.gated ring idx true [9] fun d =>
    if d.sec.state ≠ 3 then d.completeDesc ring idx stDenied 0x80 0 0
    else d.moverAdmit (sealLoadOf ring idx (d.ringOwner ring) b)
      (b2n (clampGrain 65536 65536 274877906944 (field b 24 8) != field b 24 8) + b2n (2 < field b 32 1))) s

def execUnseal (ring idx : Nat) (s : State) := liftDev (fun d =>
  d.secLease ring idx 0x65 true [9] fun b d =>
    if d.sec.state ≠ 2 && d.sec.state ≠ 3 then d.completeDesc ring idx stDenied 0x80 0 0
    else
      let d := (d.repSeal ring 9 b).unsealBind
      { d with sec := { d.sec with unsealer := some (.desc ring idx) } }.secState 4) s

/-! ## Pattern keys and the encapsulation key (R380) -/

/-- KEY_ID of a pattern key: its first 8 bytes as RESULT. -/
def keyResult (id : List Byte) : Nat := field id 0 8

def execKeyRegister (ring idx : Nat) (key : List Byte) (s : State) := liftDev (fun d =>
  d.withDesc ring idx 0x66 fun b d => d.gated ring idx false [] fun d =>
    let o := d.ringOwner ring
    let slot := field b 8 1 % 4
    let d := if 1 < field b 9 1 then d.clamped 14 0 else d
    let others := d.sec.keys.filter fun k => !(k.owner == o && k.slot == slot)
    if d.sec.state = 2 || d.sec.state = 3 then d.completeDesc ring idx stDenied 0x80 0 0
    else if field b 9 1 ≠ 0 then
      let id := ((d.sec.keys.find? fun k => k.owner == o && k.slot == slot).map fun k => sha256 k.key).getD []
      { d with sec := { d.sec with keys := others } }.completeDesc ring idx stDone 0 (keyResult id) 0
    else d.inputRead ring idx (field b 40 8) 60 key fun k d =>
      if !hssKeyOk k then d.completeDesc ring idx stDenied 0x82 0 0
      else if 1024 ≤ others.length then d.completeDesc ring idx stDenied 4 0 0
      else
        let x : PatternKey := { owner := o, slot := slot, key := k }
        { d with sec := { d.sec with keys := x :: others } }.completeDesc ring idx stDone 0 (keyResult (sha256 k)) 0) s

def execKemPubkey (ring idx : Nat) (s : State) := liftDev (fun d =>
  d.withDesc ring idx 0x61 fun b d => d.gated ring idx false [] fun d =>
    d.output (.desc ring idx) (dOutAddr b) (slice Config.kemPublic 0 1568) stDone 0 1568 0 (resUnit := 1)) s

/-! ## Attestation (R365, R366, R374, R375) -/

/-- Links in a role that are not in a partial reset: flue A carries links 0 to 11, flue B 12 to 23. -/
def Dev.linksIn (d : Dev) (role : Nat) : Nat :=
  ((List.range 24).filter fun l => d.glFld l 0 28 2 == role && !d.boot.inReset.any (·.1 == 6 + l / 12)).foldl (fun v l => v + 2 ^ l) 0

/-- Sum of bits at the numbers of a list. -/
def bitSet (l : List Nat) : Nat := l.foldl (fun v i => v + 2 ^ i) 0

/-- The inactive slot. -/
def SecSt.spare (s : SecSt) : FwSlot := if s.activeSlot = 0 then s.slotB else s.slotA

/-- The digest of the loader (1) or the runtime (2) in use: of the running slot's image, or of the one the part came with. -/
def SecSt.runDigest (s : SecSt) (k : Nat) : List Byte :=
  let x := if s.activeSlot = 0 then s.slotA else s.slotB
  if x.digest.isEmpty then Config.bootDigest k else if k = 1 then x.loader else x.runtime

/-- The control fuses of Table 17.1, in its order. -/
def fuseFlags (f : Fuses) : Nat := b2n f.decommissioned + 2 * b2n f.openBarred + 4 * b2n f.knitDisabled + 8 * b2n f.provisioned

/-- PERSONALITY (R29): 0 none, 1 Shared, 2 Sealed. -/
def Dev.personality (d : Dev) : Nat := if d.sec.state = 1 then 1 else if 2 ≤ d.sec.state && d.sec.state ≤ 4 then 2 else 0

/-- The report body (Table 17.7): its fields by offset. -/
def Dev.reportFields (d : Dev) (f : Fuses) (nonce : List Byte) (lowLeft : Nat) : List (Nat × List Byte) :=
  let s := d.sec
  let sealed := s.state = 2 || s.state = 3
  let inForce := fun (b : List Byte) => if sealed then b else []
  let paired := d.mir.role ≠ 0
  let st := s.spare
  let up := bitSet ((List.range 6).filter fun k => (d.stack k).state == 2 || (d.stack k).state == 3)
  let layout := ((List.range 384).map fun i => natBytes 8 (d.reg (0x601000 + 8 * i))).flatten ++
    ((List.range 64).map fun i => natBytes 4 (d.reg (0x200500 + 4 * i))).flatten
  [ (0, ascii "KATR"), (4, natBytes 2 1), (6, natBytes 2 512), (8, natBytes 8 Config.deviceId), (16, slice nonce 0 32), (48, natBytes 8 d.now),
    (56, natBytes 2 f.topUsed), (60, natBytes 4 lowLeft), (64, slice Config.identityPub 0 60),
    (124, natBytes 4 (Config.certificate.take 8192).length), (128, slice (Config.bootDigest 0) 0 32),
    (160, slice (s.runDigest 1) 0 32), (192, slice (s.runDigest 2) 0 32), (224, natBytes 4 s.runningSvn), (228, natBytes 4 f.svn),
    (232, natBytes 1 s.activeSlot), (233, natBytes 1 (b2n s.staged)), (236, if s.staged then slice st.digest 0 32 else zeros 32),
    (268, natBytes 4 (if s.staged then st.svn else 0)), (272, natBytes 1 s.state), (273, natBytes 1 d.personality),
    (274, natBytes 1 s.debugLevel), (275, natBytes 1 (b2n s.debugOpened)), (276, natBytes 1 d.mir.role),
    (278, natBytes 2 (if paired then d.fld 0x680004 16 12 else 0)), (280, natBytes 2 (if paired then d.fld 0x680004 0 12 else 0)),
    (284, natBytes 4 d.age.plan.version), (288, natBytes 4 (fuseFlags f)), (320, natBytes 1 up),
    (321, natBytes 1 (bitSet ((List.range 4).filter fun p => !nmem d.boot.flueOff (p / 2)))), (322, natBytes 2 (if f.knitDisabled then 0 else bitSet d.goodPanels)),
    (324, natBytes 4 (d.linksIn 2)), (328, natBytes 4 (d.linksIn 1)), (332, natBytes 2 (bitSet (d.boot.inReset.map (·.1)))),
    (336, sha256 layout), (368, slice (inForce s.sealNonce) 0 32), (400, natBytes 2 (if sealed then s.tenantLo else 0)),
    (402, natBytes 2 (if sealed then s.tenantHi else 0)), (404, natBytes 1 s.sealFlags), (405, natBytes 1 s.keyState),
    (408, if sealed then sha256 s.tenantKey else zeros 32), (440, sha256 (slice Config.kemPublic 0 1568)) ]

/-- The 512 bytes of a report body. -/
def Dev.reportBody (d : Dev) (f : Fuses) (nonce : List Byte) (lowLeft : Nat) : List Byte :=
  (d.reportFields f nonce lowLeft).foldl (fun b x => overlay b x.1 x.2) (zeros 512)

/-- OUT_LEN of an ATTEST. -/
def attestLen (b : List Byte) : Nat := clampGrain 64 6144 16384 (field b 48 4)

def execAttest (ring idx : Nat) (s : State) := liftDev (fun d =>
  d.withDesc ring idx 0x60 fun b d =>
    let d := if attestLen b = field b 48 4 then d else d.clamped 14 0
    if d.sec.state = 5 then d.completeDesc ring idx stDeviceError 0x86 0 0
    else if 64 ≤ d.sec.attests.length then d.completeDesc ring idx stRetry 0xFFFF 0 0
    else { d with sec := { d.sec with attests := d.sec.attests ++ [{ ring := ring, idx := idx, since := d.now }] } }) s

/-- An operation that no stable point falls into is between its start and its completion (R375). -/
def Dev.secBusy (d : Dev) : Bool :=
  d.sec.unsealer.isSome || d.host.rings.any fun r => r.2.started.any fun x => [0x62, 0x63, 0x65, 0x67].contains x.op

/-- Make a lower tree: a top-tree fuse is burned first (R365). -/
def makeTree (f : Fuses) (d : Dev) : Fuses × Dev :=
  ({ f with topUsed := f.topUsed + 1 }, { d with sec := { d.sec with lowerTree := true, lowNext := 0 } })

/-- Sign the report at the head of the queue with leaf q, and write it. -/
def Dev.signReport (d : Dev) (f : Fuses) (a : AttestReq) (b : List Byte) : Dev :=
  let body := d.reportBody f (slice b 8 32) (1048576 - d.sec.lowNext - 1)
  let d := { d with sec := { d.sec with lowNext := d.sec.lowNext + 1, lastSign := d.now } }
  let x := d.drawBytes 5556
  let cert := Config.certificate.take 8192
  let all := body ++ x.1 ++ cert
  x.2.output (.desc a.ring a.idx) (dOutAddr b) (all.take (attestLen b)) stDone 0 all.length 0 (resUnit := 1)

/-- The next signature: at most one every 10 ms, at a stable point; a component in partial reset is waited for at most
2 s. -/
def execAttestSign (s : State) := liftFuse (fun f d =>
  match d.sec.attests with
  | [] => (f, d)
  | a :: rest =>
    if d.secBusy then (f, d)
    else
      let d := if d.sec.lastSign = 0 then d else d.till (d.sec.lastSign + msTicks 10)
      let d := if d.boot.inReset.isEmpty then d else d.till (a.since + msTicks 2000)
      let d := { d with sec := { d.sec with attests := rest } }
      match d.startedAt a.ring a.idx with
      | none => (f, d)
      | some x =>
        if d.sec.lowerTree && d.sec.lowNext < 1048576 then (f, d.signReport f a x.bytes)
        else if f.topUsed < 32768 then
          let t := makeTree f d
          (t.1, t.2.signReport t.1 a x.bytes)
        else (f, d.completeDesc a.ring a.idx stDeviceError 0x86 0 0)) s

/-! ## Firmware (R367, R368) -/

/-- The body of an Amusk image: loader and runtime, after its header (Table 17.3). -/
def imageBody (img : List Byte) : List Byte := slice img 128 (field img 8 4)

/-- An image of IMAGE_LEN bytes is valid but for its SVN (R363, R367). `sigOk` says that KEY_ID is the firmware root digest and that the
signature over bytes 0 to 83 leads to that key; its type codes and length are checked here. -/
def imageOk (img : List Byte) (len : Nat) (sigOk : Bool) : Bool :=
  let n := field img 8 4
  let g := field img 80 4
  img.take 4 == ascii "AMSK" && n ≤ 15597568 && field img 12 4 ≤ n && 128 + n + g ≤ len &&
    sigOk && hssShaped (slice img (128 + n) g) && sha256 (imageBody img) == slice img 16 32

/-- The slot a good image leaves: its SVN, its DIGEST, and the digests of its loader, at the start of the body, and of its runtime. -/
def slotOf (img : List Byte) : FwSlot :=
  let k := field img 12 4
  { valid := true, svn := field img 4 4, digest := slice img 16 32, loader := sha256 ((imageBody img).take k), runtime := sha256 ((imageBody img).drop k) }

/-- Replace the slot that is not running. -/
def SecSt.setSpare (s : SecSt) (x : FwSlot) (staged : Bool) : SecSt :=
  if s.activeSlot = 0 then { s with slotB := x, staged := staged } else { s with slotA := x, staged := staged }

def execFwStage (ring idx : Nat) (image : List Byte) (sigOk : Bool) (s : State) := liftRead (fun f d =>
  d.secLease ring idx 0x67 false [] fun b d =>
    let act := field b 8 1
    let len := clampGrain 64 128 15728640 (field b 48 4)
    let d := if 1 < act then d.clamped 14 0 else d
    if act ≠ 0 then
      let d := if d.sec.staged then { d with sec := d.sec.setSpare { valid := false, svn := 0 } false } else d
      d.completeDesc ring idx stDone 0 0 0
    else
      let d := if len = field b 48 4 then d else d.clamped 14 0
      let d := { d with sec := d.sec.setSpare { valid := false, svn := 0 } false }
      if !imageOk image len sigOk then d.completeDesc ring idx stDenied 0x82 0 len
      else if field image 4 4 < f.svn then d.completeDesc ring idx stDenied 0x87 0 len
      else { d with sec := d.sec.setSpare (slotOf image) true }.completeDesc ring idx stDone 0 0 len) s

/-! ## Debug (R378, R379) -/

/-- The first failing check of R379, as its detail. `sigOk` says that the token's KEY_ID is the debug root digest and that its signature leads
to that key; type codes and length of the signature are checked here (R363). -/
def Dev.tokenRefused (d : Dev) (f : Fuses) (t : List Byte) (sigOk : Bool) : Option Nat :=
  let lv := field t 5 1
  if t.take 4 ≠ ascii "KDBG" || field t 4 1 ≠ 1 || field t 8 8 ≠ Config.deviceId % 2 ^ 64 || slice t 16 32 ≠ slice d.sec.debugNonce 0 32 then some 0x88
  else if !sigOk || 16384 < field t 84 4 || !hssShaped (slice t 128 (field t 84 4)) then some 0x82
  else if lv = 1 && d.sec.state = 1 then none
  else if lv = 2 && d.sec.state = 1 && d.pool.regions.isEmpty && !f.openBarred then none
  else if lv = 3 && d.sec.state ≠ 5 then none
  else some 0x84

/-- DECOMMISSION: MIRROR links break (R451), everything is bound off, and the fuses are burned. -/
def Dev.decommission (d : Dev) : Dev :=
  let d := if d.mir.role = 0 then d else forEach d.mirrorLinks (fun l d => d.linkBreak l 8) d
  ((d.unsealBind.bindRest).debugTo 0 0).secState 5

/-- A token is tried; a new nonce is drawn whatever comes of it. -/
def execDebugUnlock (ring idx : Nat) (token : List Byte) (sigOk : Bool) (s : State) := liftFuse (fun f d =>
  let refused := d.tokenRefused f token sigOk
  let lv := field token 5 1
  let run := (d.startedAt ring idx).any fun x => x.op == 0x68 && !x.claimed && d.sec.state != 5 && d.hasLease (d.ringOwner ring)
  let d := d.secLease ring idx 0x68 false [] fun _ d =>
    let n := d.drawBytes 32
    let d := { n.2 with sec := { n.2.sec with debugNonce := n.1 } }
    match refused with
    | some det => d.completeDesc ring idx stDenied det 0 0
    | none =>
      if lv = 3 then (d.decommission).completeDesc ring idx stDone 0 5 0
      else
        let life := field token 48 4
        (d.debugTo lv (if life = 0 then 0 else d.now + msTicks (1000 * life))).completeDesc ring idx stDone 0 lv 0
  (if run && refused.isNone && lv = 3 then { f with decommissioned := true } else f, d)) s

/-- SEC_CTL.RELOCK: served in Run and in Bank (R450). -/
def Dev.relock (d : Dev) : Dev := d.debugTo 0 0

def execRelock (who : Nat) (s : State) := liftDev (fun d => d.leasedWrite who false (·.relock)) s

/-- The lifetime of a token runs out. -/
def execDebugLifetimeExpiry (s : State) := liftDev (fun d =>
  if d.sec.debugExpiry = 0 then d else (d.till d.sec.debugExpiry).debugTo 0 0) s

end Sys2Proof.Machine
end

