-- ==== Sys2Proof/Machine/Mirror.lean ====
section
/-! DEFINITION. Mirror pairing (chapter 14): forming a pair, what the standby makes of each record, acknowledgement, digests, the
witness, resynchronisation, time (R306 to R323, R454). The layouts the spec leaves open, among them how the tables reach
a unit in COPY, are those of log entry 15. -/

namespace Sys2Proof.Machine

/-! ## Messages to the partner -/

/-- PARTNER of MIR_ID. -/
def Dev.partner (d : Dev) : Nat := d.fld 0x680004 16 12

/-- Send a message to the partner on a carrying link. -/
def Dev.mirOut (d : Dev) (m : Msg) : Dev := (d.emit (.msg m)).queueOn (d.mir.carrying.headD 24) m

/-- A mirror message that is no record: TERM in ADDR[47:16], its payload without a record header. -/
def Dev.mirSend (d : Dev) (op : Nat) (body : List Byte) : Dev :=
  let a := d.draw
  a.2.mirOut { cls := 0, opcode := op, src := d.ownNode, dst := d.partner, tag := a.1 % 4096, addr := d.mir.term % 2 ^ 32 * 65536,
               len := body.length - 1, data := body }

/-- REP_ACK: the highest SEQ applied and TERM; a shortfall as its DETAIL (R310, R311). -/
def Dev.mirAck (d : Dev) (det : Nat) : Dev :=
  d.mirOut { cls := 2, opcode := 0x45, src := d.ownNode, dst := d.partner, tag := 0, addr := det % 65536 * 2 ^ 32, len := 11,
             data := natBytes 8 d.mir.applied ++ natBytes 4 d.mir.term }

/-- TERM of a mirror message. -/
def mirTerm (m : Msg) : Nat := if m.opcode = 0x45 then field m.data 8 4 else bits m.addr 16 32

/-! ## Digest items (R314) -/

/-- CRC-32C of a run that another one of known CRC precedes. -/
def crcMore (c : Nat) (bs : List Byte) : Nat := Nat.xor (bs.foldl crc32cByte (Nat.xor c 0xFFFFFFFF)) 0xFFFFFFFF

/-- The 24 bytes of an item. -/
def itemBytes (seq st det res crc : Nat) : List Byte :=
  natBytes 8 seq ++ natBytes 1 st ++ [0] ++ natBytes 2 det ++ natBytes 8 res ++ natBytes 4 crc

/-- Add the item of a record: records of one opcode, requester and tag whose bytes follow one another are one operation, whose
item stands at its last record. -/
def Dev.noteItem (d : Dev) (m : Msg) (addr : Nat) (bs : List Byte) (st det res : Nat) : Dev :=
  let seq := field m.data 0 8
  let ep := field m.data 8 4
  let origin := field m.data 12 2
  let otag := field m.data 14 2
  let old := d.mir.run.filter fun r => r.op == m.opcode && r.origin == origin && r.otag == otag && r.next == addr && !bs.isEmpty
  let crc := if bs.isEmpty then 0 else crcMore ((old.map (·.crc)).getD 0) bs
  let items := if old.isSome then d.mir.items.map fun (e : Nat × List (List Byte)) => (e.1, e.2.filter fun i => field i 0 8 != seq - 1) else d.mir.items
  let items := tupd items ep [] fun l => l ++ [itemBytes seq st det res crc]
  let run : RepRun := { op := m.opcode, origin := origin, otag := otag, first := (old.map (·.first)).getD addr, next := addr + bs.length, crc := crc }
  { d with mir := { d.mir with items := items, run := some run } }

/-- The item of a record as its content gives it: what a REP_ATOMIC or REP_ADMIN carries in its dedup tail and outcome; a
REP_STATE is no operation and has none. `kept` reads the bytes written, at the standby its own. -/
def Dev.itemOf (d : Dev) (m : Msg) (kept : Nat → List Byte → List Byte) (answer : Option Msg) : Dev :=
  let b := m.data
  let st := fun (x : Nat) => (answer.map (·.opcode)).getD x
  let det := fun (x : Nat) => (answer.map msgDetail).getD x
  if m.opcode = 0x40 then d.noteItem m (field b 16 8) (kept (field b 16 8) (b.drop 24)) (st 0) (det 0) 0
  else if m.opcode = 0x41 then
    d.noteItem m (field b 16 8) (kept (field b 16 8) (slice b 24 64)) (st (field b 96 1)) (det (field b 98 2)) (field b 100 8)
  else if m.opcode = 0x42 then d.noteItem m 0 [] (st (field b 104 1)) (det (field b 106 2)) (field b 80 8)
  else { d with mir := { d.mir with run := none } }

/-- Items and digest of an epoch. -/
def Dev.digestOf (d : Dev) (k : Nat) : Nat × Nat :=
  let l := tgetD d.mir.items (k % 2 ^ 32) []
  (l.length, crc64 0 l.flatten)

/-- Send the DIGEST of an epoch. -/
def Dev.sendDigest (d : Dev) (k : Nat) : Dev :=
  let x := d.digestOf k
  d.mirSend 0x44 (natBytes 8 k ++ natBytes 8 x.1 ++ natBytes 8 x.2)

/-- Digests are compared: a pair is formed, and neither unit is alone or copying. -/
def Dev.digesting (d : Dev) : Bool := (d.mir.role == 1 && d.mir.phase ≤ 1) || (d.mir.role == 2 && (d.mir.phase == 0 || d.mir.phase == 2))

/-- The active sends the digests of the epochs whose operations have all completed (R315). -/
def Dev.digestsDue (d : Dev) : Dev :=
  if !(d.mir.role = 1 && d.digesting) then d
  else
    let stop := match d.mir.unacked with
      | [] => d.epochNow
      | r :: _ => min d.epochNow r.epoch
    let d' := forEach ((List.range (stop - d.mir.digestNext)).map (d.mir.digestNext + ·)) (fun k d =>
      { d with mir := { d.mir with heldEpochs := d.mir.heldEpochs ++ [k] } }.sendDigest k) d
    { d' with mir := { d'.mir with digestNext := max d.mir.digestNext stop } }

/-! ## Roles -/

/-- Begin a pairing: numbers, items and records of an earlier one are gone (R307, R319). -/
def Dev.mirFresh (d : Dev) (role phase cause : Nat) : Dev :=
  let k := d.mir
  let m : MirrorSt := { role := role, phase := phase, cause := cause, term := k.term, carrying := k.carrying, digestNext := d.epochNow,
                        missedNext := d.epochNow, stepDue := true }
  { d with mir := m }

/-- A unit with a lower TERM is no longer what it was (Table 14.5). -/
def Dev.mirDeposed (d : Dev) : Dev :=
  if d.mir.role = 1 || d.mir.role = 2 then ((d.mirFresh 3 4 5).logSrc 0x0705).msixBoth else d

/-- Discard what the unit holds before it takes the active's copy, with bind-off (R307, R319). -/
def Dev.mirDiscard (d : Dev) : Dev :=
  let d := forEach (d.host.sessions.map (·.1)) (fun n d => d.endSession n) d
  let d := d.dropRegions
  { d with pool := { d.pool with grants := [], exclusions := [] }, fab := { d.fab with dedup := [] } }

/-- Security at entry into COPY (R454): the active's state is not told to the command, and is a free value (log entry 25). -/
def Dev.copySecurity (d : Dev) : Dev :=
  let a := d.draw
  let d := a.2
  let other := 1 + a.1 % 4
  if other = d.sec.state then d
  else
    let d := if 2 ≤ d.sec.state && d.sec.state ≤ 4 then (d.unsealBind.bindRest).secState 1 else d
    if other = 2 || other = 3 then
      let x := d.draw
      let y := x.2.draw
      let k := y.2.drawBytes 60
      k.2.sealWith (x.1 % 4096) (x.1 / 4096 % 4096) y.1 k.1
    else d

/-- Enter COPY. -/
def Dev.copyEnter (d : Dev) : Dev := ((d.mirFresh 3 5 d.mir.cause).mirDiscard).copySecurity

/-! ## The active's copy for a unit in COPY (R319) -/

/-- The lines of a range of a byte list that hold something, by line. -/
def heldLines (m : List Host.Cell) (from_ n : Nat) : List Nat :=
  ((m.filter fun c => from_ ≤ c.1 && c.1 < from_ + n).map fun c => c.1 / 64).foldl
    (fun l k => if l.head? = some k then l else k :: l) [] |>.reverse

/-- Copy the lines of 2^25 bytes or a skein of stored bytes to pool addresses from `addr` on. -/
def Dev.copyOut (d : Dev) (m : List Host.Cell) (from_ n addr : Nat) : Dev :=
  forEach (heldLines m from_ n) (fun l d => d.repWriteRun (addr + (l * 64 - from_)) (memRead m (l * 64) 64) 0 0) d

/-- Copy one extent: a resident one, the modified extents of a view, or a backed one skein by skein. -/
def Dev.copyExtent (d : Dev) (ext : Nat) (e : Emt) : Dev :=
  if e.kind = 1 || (e.kind = 3 && e.mod) then d.copyOut d.mem (e.frame * 2 ^ 25) (2 ^ 25) (ext * 2 ^ 25)
  else if e.kind = 2 then
    forEach (List.range 512) (fun k d =>
      let a := ext * 2 ^ 25 + k * 65536
      match tget d.far.cached (ext * 512 + k) with
      | some s =>
        if s.state = 0 then d.copyOut (d.skeinPlain e.drive e.slot (ext * 512 + k)) (mediaKey e.drive e.slot + k * 65536) 65536 a
        else d.copyOut d.mem (s.slot * 65536) 65536 a
      | none => d.copyOut (d.skeinPlain e.drive e.slot (ext * 512 + k)) (mediaKey e.drive e.slot + k * 65536) 65536 a) d
  else d

/-- Send the tables: regions, grants, exclusions, sessions and their rings, contexts, views. -/
def Dev.copyTables (d : Dev) : Dev :=
  let rec_ := fun (d : Dev) (kind result progress origin : Nat) (b : List Byte) =>
    d.repAdminOp b (natBytes 8 result ++ natBytes 4 progress ++ natBytes 4 kind) [] origin 0
  let d := forEach d.pool.regions (fun r d =>
    rec_ d 10 r.1 r.2.rgen 0 (natBytes 4 r.2.base ++ natBytes 4 r.2.count ++ natBytes 4 r.2.version ++
      natBytes 1 (b2n r.2.backed + 2 * b2n (d.emtOf r.2.base).repl))) d
  let d := forEach d.pool.grants (fun g d => rec_ d 11 g.1 0 0 (natBytes 4 g.2.rights ++ natBytes 4 g.2.gen ++ natBytes 4 g.2.born)) d
  let d := forEach d.pool.exclusions (fun x d =>
    rec_ d 12 x.handle x.rgen 0 (natBytes 4 (x.host.getD 0xFFFF) ++ natBytes 4 x.first ++ natBytes 4 x.last)) d
  let d := forEach d.host.sessions (fun s d =>
    rec_ d 2 (s.1 + (s.2.first + s.2.count * 65536) * 2 ^ 32) 0 s.2.node (natBytes 32 s.2.accepted)) d
  let d := forEach (d.host.rings.filter fun r => (nodePort (d.ringOwner r.1)).isNone) (fun r d => rec_ d 1 r.1 0 0 (d.ringRecord r.1)) d
  let d := forEach d.jobs.contexts (fun c d =>
    let d := rec_ d 4 c.1 0 c.2.owner (natBytes 1 0x22)
    forEach c.2.slots (fun g d =>
      rec_ d 4 0 0 c.2.owner (natBytes 8 0x24 ++ natBytes 2 c.1 ++ natBytes 1 g.1 ++ zeros 5 ++ segBytes (some g.2))) d) d
  let d := forEach d.pool.drafts (fun f d =>
    rec_ d 0 (f.1 * 2 ^ 52 + f.2.view) 0 f.2.owner (natBytes 8 0x0D ++ natBytes 2 f.2.handle)) d
  let d := forEach d.pool.pins (fun p d =>
    rec_ d 0 (p.1 * 2 ^ 52 + p.2.view) p.2.version p.2.owner (natBytes 8 0x10 ++ natBytes 2 p.2.handle ++ zeros 22 ++ natBytes 4 0)) d
  if d.sec.state = 2 || d.sec.state = 3 then
    rec_ (rec_ d 7 0 0 0 (natBytes 8 0x62 ++ natBytes 2 d.sec.tenantLo ++ natBytes 2 d.sec.tenantHi ++ natBytes 1 d.sec.sealFlags)) 8 0 0 0 d.sec.tenantKey
  else d

/-- Stream everything to a partner in COPY; from then on records are replicated to it. -/
def Dev.copyStream (d : Dev) : Dev :=
  let d : Dev := { d with mir := { d.mir with copying := true, nextSeq := 1, unacked := [] } }
  let d := d.copyTables
  let d := forEach d.pool.emt (fun e d => d.copyExtent e.1 e.2) d
  forEach (d.coh.dir.map (·.1)) (fun l d => d.repDir l) d

/-! ## Pairing (R306, R307, R451) -/

/-- SERVICE_ID and PARTNER are legal (R306). -/
def Dev.mirIdsOk (d : Dev) : Bool :=
  let s := d.fld 0x680004 0 12
  0xF00 ≤ s && s ≤ 0xFEF && 1 ≤ d.partner && d.partner ≤ 0xEFF && d.partner != d.ownNode

/-- MIRROR_PAIR: two Solo units take their roles, or a unit in Resync finds its Active partner, or an Active in ALONE its
partner in Resync. -/
def execMirrorPair (partnerHoldsRegion partnerPref : Bool) (s : State) := liftDev (fun d =>
  if d.fld 0x680000 31 1 = 0 || d.sec.state = 0 || d.sec.state = 5 || !d.boot.ready then d
  else if d.mir.role = 0 && !d.mirIdsOk then { d with mir := { d.mir with cause := 6 } }
  else if d.mirrorLinks.isEmpty then d
  else
    let d := { d with mir := { d.mir with carrying := d.mirrorLinks.take 2 } }
    let mine := !d.pool.regions.isEmpty
    if d.mir.role = 0 then
      if mine && partnerHoldsRegion then { d with mir := { d.mir with cause := 7, carrying := [] } }
      else if mine then ((d.mirFresh 1 3 0).copyStream)
      else if partnerHoldsRegion then d.copyEnter
      else
        let active := if Config.mirrorPref = partnerPref then d.ownNode < d.partner else Config.mirrorPref
        d.mirFresh (if active then 1 else 2) 0 0
    else if d.mir.role = 3 && d.mir.phase = 4 then d.copyEnter
    else if d.mir.role = 1 && d.mir.phase = 3 && !d.mir.copying then
      { d with mir := { d.mir with stepDue := true } }.copyStream
    else d) s

/-- The last extent has been copied (R319). -/
def execResyncCopyDone (activeTerm : Nat) (s : State) := liftDev (fun d =>
  let fresh := fun (k : MirrorSt) => { k with phase := 0, cause := 0, extentsLeft := 0, copying := false, digestNext := d.epochNow, missedNext := d.epochNow,
                                              items := [], heldEpochs := [], missed := 0, run := none }
  if d.mir.role = 3 && d.mir.phase = 5 then
    { d with mir := { fresh d.mir with role := 2, term := activeTerm % 2 ^ 32 } }
  else if d.mir.role = 1 && d.mir.copying then { d with mir := fresh d.mir }
  else d) s

/-! ## What a record does at the standby (R309 to R312) -/

/-- Where its bytes go when no skein holds them: the drives of the extent. -/
def Dev.farPut (d : Dev) (addr : Nat) (bs : List Byte) : Dev :=
  let e := d.emtOf (addr / 2 ^ 25)
  forEach (e.drives.filter d.driveServes) (fun n d =>
    ({ d with far := { d.far with media := memWrite d.far.media (mediaKey n e.slot + addr % 2 ^ 25) bs } } : Dev).setTweaks
      (mediaKey n e.slot + addr % 2 ^ 25) addr 1) d

/-- Store bytes inside one line; a draft extent still without a copy of its own gets it first (R48). -/
def Dev.putLine (d : Dev) (addr : Nat) (bs : List Byte) : Dev :=
  let ext := addr / 2 ^ 25
  let e := d.emtOf ext
  let d := if e.kind = 3 && !e.mod then
      match d.draftCopyStart ext with
      | (true, d) =>
        match d.pool.draftCopies.find? (·.ext == ext) with
        | some c => d.draftCopyEnd ext c.dest
        | none => d
      | (false, d) => d
    else d
  if e.kind = 2 && (d.keyOf addr).isNone then d.farPut addr bs else (d.storeLine addr bs).2

/-- Store a byte run. -/
def Dev.putRun (d : Dev) (addr : Nat) (bs : List Byte) : Nat → Dev
  | 0 => d
  | n + 1 =>
    if bs.isEmpty then d
    else
      let k := min bs.length (64 - addr % 64)
      (d.putLine addr (bs.take k)).putRun (addr + k) (bs.drop k) n

/-- The bytes memory holds at a pool address, where it holds any (R314). -/
def Dev.keptBytes (d : Dev) (addr : Nat) (bs : List Byte) : List Byte :=
  match d.keyOf addr with
  | some k => memRead d.mem k bs.length
  | none => bs

/-- A completion record written into a client ring: its ring advances, and its start record has its completion (R318). -/
def Dev.completionSeen (d : Dev) (addr : Nat) (bs : List Byte) : Dev :=
  match d.host.rings.find? fun r => r.2.kind == 1 && bs.length == 32 && r.2.base + r.2.prod % r.2.slots * 32 == addr with
  | none => d
  | some (n, _) =>
    let d := d.setRing n fun r => { r with prod := (r.prod + 1) % 2 ^ 32 }
    let mine := fun (x : Nat × Nat × Nat × Nat) => x.1 == field bs 2 2 % 1024 && x.2.1 == field bs 0 2
    { d with mir := { d.mir with starts := d.mir.starts.eraseP mine } }

/-- REP_WRITE. -/
def Dev.applyWrite (d : Dev) (addr : Nat) (bs : List Byte) : Dev :=
  if inWindow addr then d.ringDoorbell ((addr - 0xFFFFF0000000) / 0x1000) (field bs 0 4)
  else (d.putRun addr bs (bs.length / 64 + 2)).completionSeen addr bs

/-- Take the record of a dedup tail over (R309, R322): its answer is rebuilt when the request comes again. -/
def Dev.dedupTake (d : Dev) (home origin otag progress : Nat) (tail : List Byte) : Dev :=
  if (tail.take 8).all (· == 0) then d
  else
    let a : Msg := { cls := 2, opcode := field tail 8 1, src := d.ownNode, dst := origin, tag := otag, addr := field tail 10 2 * 2 ^ 32,
                     data := slice tail 12 8 ++ natBytes 4 progress }
    let r : DedupRec := { op := 0, addr := 0, len := 0, crc := 0, rep := tail.take 8, answer := some a,
                          expiry := d.now + usTicks (d.fld 0x180100 0 12) }
    { d with fab := { d.fab with dedup := tput d.fab.dedup (dedupKey home origin otag) r } }

/-- A pool operation that succeeded at the active (R311, R322): its frames, slots and drives are this unit's own. The number is
the detail of a shortfall. -/
def Dev.applyPool (d : Dev) (b : List Byte) (origin result progress : Nat) : Nat × Dev :=
  let op := dOpcode b
  let h := dHandle b
  let id := result / 2 ^ 52
  let view := result % 2 ^ 52
  if op = 0x08 then
    if (d.regionOf (result % 65536)).isSome then (0, d)
    else
      match d.makeRegion (result % 65536) (result / 65536) (clampN 1 1048576 (dCount b)) (dKind b == 1) (dKind b == 1 && bit (dCflags b) 1) with
      | some d => (0, d)
      | none => (2, d)
  else
    match d.regionOf h with
    | none => (0, d)
    | some r =>
      if op = 0x09 then (0, (d.orderFree h r).endRegion h)
      else if op = 0x0A then (0, d.putGrant h (dHost b) (dRights b) r)
      else if op = 0x0B then (0, d.delGrant h (dHost b))
      else if op = 0x0C then (0, d.revokePoint h (if dAll b then none else some (dHost b)) (dCount b) (min (dLast b) (r.count - 1)) r)
      else if op = 0x0D then if (tget d.pool.drafts id).isSome then (4, d) else (0, d.putDraft id view h origin r)
      else if op = 0x0F then (0, d.installDraft h (dDraftId b) result)
      else if op = 0x10 then
        if (tget d.pool.pins id).isSome then (4, d) else (0, d.putPin id view h origin progress r.base (d.pinMs b) r)
      else (0, d)

/-- Operations that name no region. -/
def Dev.applyByDraft (d : Dev) (b : List Byte) : Dev :=
  let id := dDraftId b
  if dOpcode b = 0x0E then d.discardDraft id
  else if dOpcode b = 0x12 then d.endPin id
  else if dOpcode b = 0x11 then
    { d with pool := { d.pool with pins := tmod d.pool.pins id fun p => { p with deadline := d.now + msTicks (d.pinMs b) } } }
  else d

/-- A ring record (Table 3.10). -/
def Dev.applyRing (d : Dev) (n : Nat) (b : List Byte) : Dev :=
  let ctl := field b 8 4
  let v := field b 16 4
  let st := field b 28 4
  d.setRing n fun r =>
    { r with base := field b 0 8, defCpl := field b 12 4, sizeLog := bits ctl 24 5, kind := bits ctl 20 2, pasidEn := bit ctl 22, pasid := bits ctl 0 20,
             enable := bit ctl 31, vector := bits v 0 8, coalCnt := bits v 12 8, coalUs := bits v 20 10, prod := field b 20 4, cons := field b 24 4,
             state := bits st 0 3, fault := bits st 8 4, notify := field b 32 8 }

/-- REP_ADMIN, by the kind of log entry 15. -/
def Dev.applyAdmin (d : Dev) (b : List Byte) (origin result progress kind st : Nat) : Nat × Dev :=
  if st ≠ 0 then (0, d)
  else if kind = 0 then
    if dOpcode b = 0x0E || dOpcode b = 0x11 || dOpcode b = 0x12 then (0, d.applyByDraft b) else d.applyPool b origin result progress
  else if kind = 1 then (0, d.applyRing (result % 1024) b)
  else if kind = 2 then
    let x : Session := { node := origin, first := bits result 32 16, count := bits result 48 16, accepted := field b 0 32 }
    (0, { d with host := { d.host with sessions := tput d.host.sessions (result % 2 ^ 32) x } })
  else if kind = 3 then (0, d.endSession result)
  else if kind = 4 then
    let c := dCtx b
    if dOpcode b = 0x22 then if (d.ctx result).isSome then (4, d) else (0, d.setCtx result { owner := origin })
    else if dOpcode b = 0x23 then (0, { d with jobs := { d.jobs with contexts := tdel d.jobs.contexts c } }.setPrivates)
    else
      match d.ctx c with
      | none => (0, d)
      | some x =>
        let slots := if dOpcode b = 0x24 then tput x.slots (dSlot b) (segOf b) else tdel x.slots (dSlot b)
        (0, (d.setCtx c { x with slots := slots }).setPrivates)
  else if kind = 6 then
    match d.liveRegion (dHandle b) with
    | some r => (0, d.flushRegion 1024 d.mir.applied r)
    | none => (0, d)
  else if kind = 7 then (0, d.sealWith (field b 8 2 % 4096) (field b 10 2 % 4096) (field b 12 1) d.sec.tenantKey)
  else if kind = 8 then (0, { d with sec := { d.sec with tenantKey := slice b 0 60 } })
  else if kind = 9 then (0, if d.sec.state = 2 || d.sec.state = 3 then d.unsealBind.secState 4 else d)
  else if kind = 10 then
    match d.makeRegion result (field b 0 4) (field b 4 4) (bit (field b 12 1) 0) (bit (field b 12 1) 1) with
    | none => (2, d)
    | some d =>
      let left := d.mir.extentsLeft + field b 4 4
      (0, { d with mir := { d.mir with extentsLeft := left },
                   pool := { d.pool with regions := tmod d.pool.regions result fun r =>
                     { r with version := field b 8 4, verOrd := field b 8 4, rgen := progress } } })
  else if kind = 11 then
    let g : Grant := { rights := field b 0 4, gen := field b 4 4, born := field b 8 4 }
    (0, { d with pool := { d.pool with grants := tput d.pool.grants result g } })
  else if kind = 12 then
    let host := if field b 0 4 = 0xFFFF then none else some (field b 0 4)
    let x : Exclusion := { handle := result, host := host, first := field b 4 4, last := field b 8 4, rgen := progress }
    (0, { d with pool := { d.pool with exclusions := d.pool.exclusions ++ [x] } })
  else (0, d)

/-- A directory entry as the active left it (Table 14.8). -/
def Dev.applyDir (d : Dev) (b : List Byte) : Dev :=
  let w0 := field b 0 8
  let w1 := field b 8 8
  let line := w1 / 2 ^ 22
  let st := bits w0 61 2
  if st = 0 then d.dirDel line
  else
    let dm := bits w0 52 5
    let g := tgetD d.coh.domains dm (0, 0)
    let e : DirEntry := { state := st, ptrs := (List.range (bits w0 57 3)).map fun i => bits w0 (12 * i) 12, domain := dm, group := g.1, mask := g.2,
                          nru := bit w1 21, way := (((d.dirOf line).map (·.way)).or (d.freeWay line)).getD 0 }
    d.dirPut line e

/-- A residency change (R312): a skein to be resident is applied once this unit has fetched it, none until then. -/
def Dev.applySkein (d : Dev) (b : List Byte) (force : Bool) : Option Dev :=
  let sk := field b 0 8 / 65536
  if field b 8 1 = 1 then
    match tget d.far.cached sk with
    | some s => if s.state = 0 && !force then none else some d
    | none =>
      if (d.emtOf (sk / 512)).kind ≠ 2 then some d
      else
        let d' := d.startFetch sk false (bit (field b 9 1) 0) (fun _ => false)
        match tget d'.far.cached sk with
        | some s => if s.state = 0 && !force then none else some d'
        | none => if d'.far.wanted.any (·.1 == sk) && !force then none else some d'
  else some (d.demote sk)

/-- The fetch that a residency record waits for is under way. -/
def Dev.skeinStart (d : Dev) (b : List Byte) : Dev :=
  let sk := field b 0 8 / 65536
  if field b 8 1 = 1 && (tget d.far.cached sk).isNone && (d.emtOf (sk / 512)).kind = 2 then
    d.startFetch sk false (bit (field b 9 1) 0) (fun _ => false)
  else d

/-- REP_STATE. -/
def Dev.applyState (d : Dev) (b : List Byte) (force : Bool) : Option Dev :=
  let kind := field b 16 1
  let e := slice b 24 16
  if kind = 0 then some (d.applyDir e)
  else if kind = 1 then d.applySkein e force
  else if kind = 2 then
    let ring := field e 0 2
    let d := d.setRing ring fun r => { r with cons := (field e 2 4 + 1) % 2 ^ 32 }
    some { d with mir := { d.mir with starts := d.mir.starts ++ [(ring, field e 6 2, field e 10 1, field e 8 2)] } }
  else if kind = 3 then some { d with mir := { d.mir with handover := true } }
  else some d

/-- Apply one record, or none while its skein is being fetched: the detail of a shortfall, and the unit after it with the
record's digest item (R310, R311, R314). -/
def Dev.applyRecord (d : Dev) (m : Msg) (force : Bool) : Option (Nat × Dev) :=
  let b := m.data
  let origin := field b 12 2
  let otag := field b 14 2
  let item := fun (d : Dev) => d.itemOf m d.keptBytes none
  if m.opcode = 0x40 then some (0, item (d.applyWrite (field b 16 8) (b.drop 24)))
  else if m.opcode = 0x41 then
    let a := field b 16 8
    let d := item (d.putRun a (slice b 24 64) 2)
    let first := (d.mir.run.map (·.first)).getD a
    some (0, d.dedupTake (homeOf (first / 64)) origin otag 0 (slice b 88 24))
  else if m.opcode = 0x42 then
    let x := d.applyAdmin (slice b 16 64) origin (field b 80 8) (field b 88 4) (field b 92 4) (field b 104 1)
    some (x.1, (item x.2).dedupTake (field b 24 2 % 48) origin otag (field b 88 4) (slice b 96 24))
  else (d.applyState b force).map fun d => (0, item d)

/-- Apply the records that are next in SEQ order (R310). -/
def Dev.applyAhead (d : Dev) (force : Bool) : Nat → Nat → Nat × Dev
  | _, 0 => (0, d)
  | det, n + 1 =>
    if det ≠ 0 then (det, d)
    else
      match d.mir.ahead.find? fun m => field m.data 0 8 == d.mir.applied + 1 with
      | none => (det, d)
      | some m =>
        match d.applyRecord m force with
        | none => (det, d.skeinStart (slice m.data 24 16))
        | some (x, d) =>
          let d := { d with mir := { d.mir with applied := d.mir.applied + 1, ahead := d.mir.ahead.filter fun y => field y.data 0 8 != d.mir.applied + 1 } }
          if x ≠ 0 then (x, d) else d.applyAhead force x n

/-- Go on with the records held, and acknowledge what was applied. -/
def Dev.mirGo (d : Dev) : Dev :=
  let before := d.mir.applied
  let x := d.applyAhead false 0 (d.mir.ahead.length + 1)
  if x.2.mir.applied = before then x.2 else x.2.mirAck x.1

/-! ## Mirror messages (Table 14.4) -/

/-- A mirror message reaches LOCAL: on a link of another role its opcode is reserved (R309); a higher TERM deposes this unit, a
lower one is answered with this unit's (Table 14.5, R318). -/
def Dev.mirrorMsg (d : Dev) (link : Nat) (m : Msg) (op : Nat) (body : Dev → Dev) : Dev :=
  if m.opcode ≠ op || m.dst ≠ d.ownNode || (m.cls ≠ 0 && m.cls ≠ 2) then d
  else if d.glFld link 0 28 2 ≠ 2 then if m.cls = 0 then d.arrive m fun d => d else d.taken m
  else
    let d := d.taken m
    if !d.boot.ready || d.mir.role = 0 || (m.cls = 2) ≠ (op = 0x45) then d
    else if d.mir.role = 3 then body d
    else if d.mir.term < mirTerm m then d.mirDeposed
    else if mirTerm m < d.mir.term then if m.cls = 0 then d.mirAck 0 else d
    else body d

/-- A record reaches the standby, or a unit in COPY. -/
def Dev.mirRecord (d : Dev) (m : Msg) : Dev :=
  if !(d.mir.role = 2 || (d.mir.role = 3 && d.mir.phase = 5)) then d
  else
    let seq := field m.data 0 8
    if seq ≤ d.mir.applied then d.mirAck 0
    else if d.mir.ahead.any fun x => field x.data 0 8 == seq then d
    else { d with mir := { d.mir with ahead := d.mir.ahead ++ [m] } }.mirGo

def execRepWrite (link : Nat) (m : Msg) (s : State) := liftDev (fun d => d.mirrorMsg link m 0x40 fun d => d.mirRecord m) s
def execRepAtomic (link : Nat) (m : Msg) (s : State) := liftDev (fun d => d.mirrorMsg link m 0x41 fun d => d.mirRecord m) s
def execRepAdmin (link : Nat) (m : Msg) (s : State) := liftDev (fun d => d.mirrorMsg link m 0x42 fun d => d.mirRecord m) s
def execRepState (link : Nat) (m : Msg) (s : State) := liftDev (fun d => d.mirrorMsg link m 0x43 fun d => d.mirRecord m) s

/-- Leave HOLD or SUSPECT when the partner answers again and every digest held matches (R316). -/
def Dev.holdOver (d : Dev) : Dev :=
  if d.mir.role = 1 && d.mir.phase = 1 && 2 ≤ d.mir.cause && d.mir.cause ≤ 4 && d.mir.heldEpochs.isEmpty && d.mir.unacked.isEmpty &&
     !d.mir.carrying.isEmpty then
    { d with mir := { d.mir with phase := 0, cause := 0, missed := 0 } }
  else d

/-- DIGEST: compared, and answered by the standby (R315). -/
def execDigest (link : Nat) (m : Msg) (s : State) := liftDev (fun d => d.mirrorMsg link m 0x44 fun d =>
  let k := field m.data 0 8
  let same := d.digestOf k == (field m.data 8 8, field m.data 16 8)
  if !d.digesting || k < d.mir.missedNext then d
  else
    let d := { d with mir := { d.mir with peerDigests := (tput d.mir.peerDigests k (field m.data 8 8, field m.data 16 8)).filter fun e => k < e.1 + 8 } }
    let d := if d.mir.role = 2 then d.sendDigest k else d
    let d := { d with mir := { d.mir with items := d.mir.items.filter fun e => k % 2 ^ 32 < e.1 || e.1 + 8 < k % 2 ^ 32 } }
    if !same then (d.bump 0x680018 16).mirSuspect 1
    else
      let d := { d with mir := { d.mir with missed := 0, heldEpochs := ndel d.mir.heldEpochs k } }
      if d.mir.role = 2 then if d.mir.phase = 2 then { d with mir := { d.mir with phase := 0, cause := 0 } } else d
      else d.holdOver) s

/-- A digest has not arrived GRACE_US after the end of the next epoch. -/
def execDigestMissed (epoch : Nat) (s : State) := liftDev (fun d =>
  if !d.digesting || epoch < d.mir.missedNext || (tget d.mir.peerDigests epoch).isSome then d
  else
    let d := (d.till ((epoch + 2) * 204800 + usTicks (d.fld 0x680000 16 8))).bump 0x680018 0
    let d := { d with mir := { d.mir with missed := d.mir.missed + 1, missedNext := epoch + 1 } }
    if d.mir.missed = 3 then d.mirSuspect 2 else d) s

/-- An epoch ends: digests that are due go out, and records waiting for three epochs are noticed (R314, R315). -/
def execEpochEnd (s : State) := liftDev (fun d =>
  let d := (d.till ((d.epochNow + 1) * 204800)).digestsDue
  if d.mirrors && d.mir.unacked.any fun r => r.epoch + 3 ≤ d.epochNow then d.mirSuspect 4 else d) s

/-! ## Acknowledgement (R310, R311) -/

/-- Undo what an operation took that the partner cannot provide: neither unit changes (R311). -/
def Dev.undoAdmin (d : Dev) (m : Msg) : Dev :=
  let b := slice m.data 16 64
  let result := field m.data 80 8
  let kind := field m.data 92 4
  let free := fun (d : Dev) (base n : Nat) =>
    let fs := (List.range n).map fun i => (d.emtOf (base + i)).frame
    let drop := fun (t : Tbl Nat) (f : Nat) => if tgetD t f 0 ≤ 1 then tdel t f else tput t f (tgetD t f 0 - 1)
    let d := { d with pool := { d.pool with frameRefs := fs.foldl drop d.pool.frameRefs } }
    d.delEmts base n
  if m.opcode ≠ 0x42 then d
  else if kind = 0 && dOpcode b = 0x08 then
    match d.regionOf (result % 65536) with
    | some r => { (free d r.base r.count) with pool := { (free d r.base r.count).pool with regions := tdel d.pool.regions (result % 65536) } }
    | none => d
  else if kind = 0 && dOpcode b = 0x0D then
    match tget d.pool.drafts (result / 2 ^ 52) with
    | some f => free { d with pool := { d.pool with drafts := tdel d.pool.drafts (result / 2 ^ 52) } } f.view f.count
    | none => d
  else if kind = 0 && dOpcode b = 0x10 then
    match tget d.pool.pins (result / 2 ^ 52) with
    | some p => free { d with pool := { d.pool with pins := tdel d.pool.pins (result / 2 ^ 52) } } p.view p.count
    | none => d
  else if kind = 4 && dOpcode b = 0x22 then { d with jobs := { d.jobs with contexts := tdel d.jobs.contexts result } }
  else d

/-- The answer of an operation refused for the partner's shortfall. -/
def refusedAnswer (r : Msg) (det : Nat) : Msg :=
  { r with opcode := stDenied, addr := det * 2 ^ 32, data := if r.data.isEmpty then [] else zeros r.data.length }

/-- A record is acknowledged: its operation completes, with the detail of a shortfall if there is one. -/
def Dev.repAcked (d : Dev) (r : RepRec) (det : Nat) : Dev :=
  let d := if det = 0 then d else d.undoAdmin r.m
  let ans := r.release.map fun a => if det = 0 then a else refusedAnswer a det
  let d := d.itemOf r.m (fun _ b => b) ans
  let fix := fun (x : DedupRec) => if det ≠ 0 && x.answer.isSome && x.answer == r.release then { x with answer := ans } else x
  let d := if det = 0 then d else { d with fab := { d.fab with dedup := d.fab.dedup.map fun e => (e.1, fix e.2) } }
  let d := match ans with
    | some a => d.sendMsg a
    | none => d
  forEach r.completes (fun c d =>
    if det = 0 then d.recordNow c.ring c.idx c.st c.det c.result c.progress else d.recordNow c.ring c.idx stDenied det 0 0) d

/-- The HANDOVER record of a demoted unit. -/
def Dev.sendHandover (d : Dev) : Dev :=
  let role := d.mir.role
  let phase := d.mir.phase
  let d := { d with mir := { d.mir with role := 1, phase := 0, handoverDue := false } }.repStateEntry 3 [] 0 0
  { d with mir := { d.mir with role := role, phase := phase } }

/-- REP_ACK: every record it covers completes, in order. -/
def execRepAck (link : Nat) (m : Msg) (s : State) := liftDev (fun d => d.mirrorMsg link m 0x45 fun d =>
  let seq := field m.data 0 8
  let det := msgDetail m
  let done := d.mir.unacked.takeWhile (·.seq ≤ seq)
  let d := { d with mir := { d.mir with unacked := d.mir.unacked.dropWhile (·.seq ≤ seq) } }
  let d := forEach done (fun r d => d.repAcked r (if r.seq = seq then det else 0)) d
  let d := ((d.installReady).digestsDue).holdOver
  if d.mir.handoverDue && d.mir.unacked.isEmpty then d.sendHandover else d) s

/-! ## FETCH and TIME (R312, R321) -/

/-- The answer of 1 to 4 lines from this unit's memory. -/
def Dev.fetchAnswer (d : Dev) (m : Msg) (addr n : Nat) : Dev :=
  let got := (List.range n).foldl (fun (x : Option (List Byte) × Dev) i =>
    match x.1, x.2.keyOf (addr + 64 * i) with
    | some b, some k =>
      match x.2.readLine (addr / 2 ^ 25) k (addr + 64 * i) with
      | (some c, d) => (some (b ++ c), d)
      | (none, d) => (none, d)
    | _, _ => (none, x.2)) (some [], d)
  match got.1 with
  | some b => got.2.mirOut (got.2.datTo m stDone 0 0 b)
  | none => got.2.mirOut (got.2.rspTo m stPoisoned 0 0)

/-- FETCH: a line, or a skein in 256 messages numbered by XFER_IDX; a skein that is not resident is fetched first. -/
def execFetch (link : Nat) (m : Msg) (s : State) := liftDev (fun d => d.mirrorMsg link m 0x46 fun d =>
  let a := field m.data 0 8 / 64 * 64
  match d.keyOf a with
  | none =>
    if (d.emtOf (a / 2 ^ 25)).kind ≠ 2 then d.mirOut (d.rspTo m stDenied 0 0)
    else
      let d := d.startFetch (a / 65536) false false (fun _ => false)
      let h := d.hint
      h.2.mirOut (h.2.rspTo m stRetry h.1 0)
  | some _ =>
    if field m.data 8 1 = 0 then d.fetchAnswer m a 1
    else forEach (List.range 256) (fun i d =>
      d.fetchAnswer { m with opcode := 2, xfer := i, last := i == 255 } (a / 65536 * 65536 + 256 * i) 4) d) s

/-- TIME: the first of a pair is answered with its STAMP echoed; an echo gives the round trip and with it the offset. The unit
whose count is lower steps forward once after pairing or on entry into COPY; a standby keeps the offset it slews away. -/
def execTime (link : Nat) (m : Msg) (s : State) := liftDev (fun d => d.mirrorMsg link m 0x47 fun d =>
  let stamp := field m.data 0 8
  let echo := field m.data 8 8
  let d := { d with mir := { d.mir with lastStamp := stamp } }
  if echo = 0 then d.mirSend 0x47 (natBytes 8 d.now ++ natBytes 8 stamp)
  else
    let there := stamp + (d.now - echo) / 2
    let d := if d.mir.role = 2 then { d with mir := { d.mir with alignNs := ((there : Int) - (d.now : Int)) * 5 / 4 } } else d
    if d.mir.stepDue then { d.till there with mir := { (d.till there).mir with stepDue := false, alignNs := 0 } } else d) s

/-! ## The witness (R317, R318) -/

/-- A witness command with the unit's TERM, from the lease holder that has accepted MIRROR. -/
def Dev.witness (d : Dev) (port term : Nat) (f : Dev → Dev) : Dev :=
  d.leasedWrite (portNode port) false fun d =>
    if d.hasFeature (portNode port) 8 && term = d.mir.term then f d else d

/-- The completion records of the operations that the failed active had started (R318 step 4). -/
def Dev.failStarts (d : Dev) : Dev :=
  let l := d.mir.starts
  forEach l (fun x d =>
    (d.reserveSlot x.2.2.2).pushRecord x.2.2.2 { bytes := recordBytes x.2.1 x.1 stDeviceError x.2.2.1 0x0701 d.now 0 0, ring := x.1, idx := 2 ^ 33 + x.2.1 })
    { d with mir := { d.mir with starts := [] } }

/-- Promotion, in its order (R318, R360). -/
def Dev.promote (d : Dev) : Dev :=
  let d := (d.applyAhead true 0 (d.mir.ahead.length + 1)).2
  let k : MirrorSt := { role := 1, phase := 3, cause := d.mir.cause, term := (d.mir.term + 1) % 2 ^ 32, carrying := d.mir.carrying, starts := d.mir.starts }
  let d := ({ d with mir := k }).failStarts
  let e := d.now + usTicks (d.fld 0x180100 0 12)
  { d with fab := { d.fab with dedup := d.fab.dedup.map fun (x : Nat × DedupRec) => (x.1, { x.2 with expiry := e }) } }.eccDisarm

/-- PROMOTE: a standby in SUSPECT, or after HANDOVER. -/
def Dev.witnessPromote (d : Dev) : Dev := if d.mir.role = 2 && (d.mir.phase = 2 || d.mir.handover) then d.promote else d

/-- SOLO: replication stops, and what waited for an acknowledgement completes. -/
def Dev.goAlone (d : Dev) : Dev :=
  let l := d.mir.unacked
  (forEach l (fun r d => d.repAcked r 0) { d with mir := { d.mir with unacked := [], phase := 3, copying := false } }).installReady

/-- SOLO: an active in HOLD. -/
def Dev.witnessSolo (d : Dev) : Dev := if d.mir.role = 1 && d.mir.phase = 1 then d.goAlone else d

/-- DEMOTE: an active in any phase. -/
def Dev.witnessDemote (d : Dev) : Dev :=
  if d.mir.role ≠ 1 then d
  else
    let d := { d with mir := { d.mir with role := 3, phase := 4, copying := false, handoverDue := true } }
    if d.mir.unacked.isEmpty then d.sendHandover else d

def execPromote (port term : Nat) (s : State) := liftDev (fun d => d.witness port term (·.witnessPromote)) s
def execSolo (port term : Nat) (s : State) := liftDev (fun d => d.witness port term (·.witnessSolo)) s
def execDemote (port term : Nat) (s : State) := liftDev (fun d => d.witness port term (·.witnessDemote)) s

end Sys2Proof.Machine
end

