-- ==== Sys2Proof/Machine/NvmeRows.lean ====
section
/-! DEFINITION. What the drives report (R257, R263 to R265): the end of an NVMe command, its timeout, and asynchronous events.
A standby whose fetch has ended goes on with the records that waited for it (R312). -/

namespace Sys2Proof.Machine

/-- A standby goes on with the records it holds. -/
def Dev.mirResume (d : Dev) : Dev := if d.mir.role = 2 || d.mir.role = 3 then d.mirGo else d

/-- The drive answers a command; `page` is what a Get Log Page returned. -/
def execNvmeCompletion (cmd : Nat) (ok : Bool) (page : List Byte) (s : State) := liftDev (fun d =>
  match tget d.far.cmds cmd with
  | none => d
  | some c => if !c.sent then d else (if ok then d.cmdDone cmd c page else d.cmdFailed cmd c).mirResume) s

/-- A command exceeds the CMD_TIMEOUT_MS it was issued with (R269): it counts as failed. -/
def execNvmeCommandTimeout (cmd : Nat) (s : State) := liftDev (fun d =>
  match tget d.far.cmds cmd with
  | none => d
  | some c => if !c.sent then d else ((d.till c.deadline).cmdFailed cmd c).mirResume) s

/-- An asynchronous event of an adopted drive: its log pages are read; a critical warning other than temperature fails an
ACTIVE or RETIRING drive. -/
def execNvmeAsyncEvent (drive : Nat) (critical : Bool) (s : State) := liftDev (fun d =>
  match d.drive drive with
  | none => d
  | some v =>
    if v.state < 2 || 4 < v.state then d
    else
      let d := (d.nvmeIssue drive 4 noSkein 1 0).nvmeIssue drive 4 noSkein 2 0
      if critical && (v.state = 3 || v.state = 4) then (d.driveFailed drive).mirResume else d) s

end Sys2Proof.Machine
end

