-- ==== Sys2Proof/Machine/Stacks.lean ====
section
/-! DEFINITION. The stack controllers (chapter 15) and the scrubber and test modes (chapter 16): scheduling, row disturbance,
refresh, power-down and temperature. The bytes of an access are read and written when its home or engine performs it;
the queue holds when and for whom its row is activated (log entry 26). -/

namespace Sys2Proof.Machine

/-- Offset of a MEM register of stack s. -/
def memOff (s off : Nat) : Nat := 0x700000 + 0x40000 * s + off

/-- A bank and a row of it as one number. -/
def rowKey (bank row : Nat) : Nat := bank * 32768 + row

/-- The class of a queued access (Table 15.5). -/
def Dev.accessClass (d : Dev) (s : Nat) (x : Access) : Nat :=
  if x.source = 1 then (let l := (d.sport x.port).level; if l = 2 then 3 else if l = 1 then 2 else 1)
  else if x.source = 0 then if nsTicks (d.fld (memOff s 4) 10 10) < d.now - x.arrived then 2 else 1
  else 0

/-- A throttle holds the access back now (R344). -/
def Dev.heldBack (d : Dev) (s : Nat) (x : Access) : Bool :=
  (d.stack s).throttles.any fun t =>
    t.origin == x.origin && t.bank == bankOf x.a && t.row == rowOf x.a && d.now < t.expiry &&
      d.now < t.lastAct + nsTicks (d.fld (memOff s 0xC) 6 10)

/-- The accesses a bank may serve now: not held back, in arrival order to one line, and writes only when the write queue
drains (R336). -/
def Dev.servable (d : Dev) (s bank : Nat) : List Access :=
  let q := (d.stack s).queue
  let mine := q.filter fun x => bankOf x.a == bank && !d.heldBack s x
  let mine := mine.filter fun x => !(q.any fun y => y.a == x.a && y.id < x.id)
  let pcWrites := (q.filter fun x => bankOf x.a / 64 == bank / 64 && x.kind == 1).length
  let pcReads := q.any fun x => bankOf x.a / 64 == bank / 64 && x.kind == 0 && !d.heldBack s x
  if 48 ≤ pcWrites || !pcReads then mine else mine.filter (·.kind == 0)

/-! ### The near-tier cap (R384) -/

/-- Bytes the near-tier cap of a profile admits in 1 µs (Table 18.1). -/
def capBytes (profile : Nat) : Nat := if profile = 0 then 3840000 else if profile = 1 then 7680000 else 15360000

/-- A stack's share of the cap in 1 µs: the stacks in service, ACTIVE or in self-refresh, share it equally. -/
def Dev.stackShare (d : Dev) : Nat :=
  capBytes d.pm.profile / ((List.range 6).filter fun s => (d.stack s).state == 2 || (d.stack s).state == 3).length

/-- What a stack has moved in the 1 µs that ends now. -/
def Dev.movedNow (d : Dev) (s : Nat) : List (Nat × Nat) := (d.stack s).moved.filter fun e => d.now < e.1 + usTicks 1

/-- Lines a stack may still move now. -/
def Dev.shareLeft (d : Dev) (s : Nat) : Nat := (d.stackShare - ((d.movedNow s).map (·.2)).sum) / 64

/-- A stack moves `n` lines. -/
def Dev.moveLines (d : Dev) (s n : Nat) : Dev :=
  d.setStack s fun st => { st with moved := d.movedNow s ++ [(d.now, 64 * n)] }

/-- The access served next: the oldest past MAX_WAIT_NS, else the oldest of the highest class (R334, R335). Beyond the stack's share of
the near-tier cap every access waits (R384). -/
def Dev.nextAccess (d : Dev) (s bank : Nat) : Option (Access × Bool) :=
  if d.shareLeft s = 0 then none
  else
  let q := (d.stack s).queue
  let late := q.find? fun x =>
    bankOf x.a == bank && !d.heldBack s x && nsTicks (d.fld (memOff s 4) 20 12) < d.now - x.arrived && !(q.any fun y => y.a == x.a && y.id < x.id)
  match late with
  | some x => some (x, true)
  | none =>
    ((d.servable s bank).foldl (fun b x => match b with
      | none => some x
      | some y => if d.accessClass s y < d.accessClass s x then some x else some y) none).map fun x => (x, false)

/-- The majority vote for a row's candidate origin (R342). -/
def RowTrack.vote (t : RowTrack) (origin : Nat) : RowTrack :=
  if t.candidate = origin then { t with votes := t.votes + 1 }
  else if t.votes = 0 then { t with candidate := origin, votes := 1 }
  else { t with votes := t.votes - 1 }

/-- The tracker of a bank after an activation (R342): the row's entry, and the others. -/
def trackRow (l : List RowTrack) (row origin : Nat) : RowTrack × List RowTrack :=
  match l.find? (·.row == row) with
  | some t => ({ t.vote origin with count := t.count + 1 }, l.filter (·.row != row))
  | none =>
    let low := if l.length < 16 then 0 else l.foldl (fun b t => min b t.count) ((l.headD { row := 0, count := 0, candidate := 0 }).count)
    let rest := if l.length < 16 then l else l.eraseP (·.count == low)
    ({ row := row, count := low + 1, candidate := origin }, rest)

/-- Mitigation of a row (R343), and the throttle of its candidate at the THROTTLE_AT-th in a window (R344, R345). -/
def Dev.mitigate (d : Dev) (s bank row candidate addr : Nat) : Dev :=
  let k := rowKey bank row
  let n := tgetD (d.stack s).mitigated k 0 + 1
  let d := (d.bump (memOff s 0x24) 16).setStack s fun st => { st with mitigated := tput st.mitigated k n }
  if n ≠ d.fld (memOff s 0xC) 16 4 then d
  else
    let ms := d.fld (memOff s 0xC) 0 6
    let t : Throttle := { origin := candidate, bank := bank, row := row, expiry := d.now + msTicks ms, lastAct := d.now }
    let d := (d.bump (memOff s 0x24) 0).setStack s fun st => { st with throttles := st.throttles ++ [t] }
    (d.reqCount candidate 7 1).log (0x0202 + 16 * s) (origin := candidate) (arg0 := ms) (arg1 := addr)

/-- Activate a row on an access's behalf: wake the rank, track the row, mitigate at MITIGATE (R340 to R344). -/
def Dev.activate (d : Dev) (s : Nat) (x : Access) : Dev :=
  let bank := bankOf x.a
  let row := rowOf x.a
  let r := trackRow (tgetD (d.stack s).trackers bank []) row x.origin
  let full := d.fld (memOff s 0xC) 20 12 ≤ r.1.count
  let e := if full then { r.1 with count := 0 } else r.1
  let touch := fun (t : Throttle) =>
    if t.origin = x.origin && t.bank = bank && t.row = row then { t with lastAct := d.now } else t
  let d := d.setStack s fun st =>
    { st with down := ndel st.down (4 * (bank / 64) + bank % 64 / 16), trackers := tput st.trackers bank (e :: r.2),
              throttles := st.throttles.map touch }
  if full then d.mitigate s bank row r.1.candidate x.addr else d

/-- Serve an access with every queued one to its row, at most 16 (R333), as far as the stack's share goes (R384). -/
def Dev.serveRow (d : Dev) (s : Nat) (x : Access) (late : Bool) : Dev :=
  let q := (d.stack s).queue
  let held := q.filter (d.heldBack s)
  let same := q.filter fun y => bankOf y.a == bankOf x.a && rowOf y.a == rowOf x.a && y.id != x.id && !d.heldBack s y &&
    !held.any fun z => z.a == y.a && z.id < y.id
  let batch := x :: same.take (min 15 (d.shareLeft s - 1))
  let panics := (batch.filter fun y => y.source == 1 && d.accessClass s y == 3).length
  let d := if late then d.bump (memOff s 0x20) 16 else d
  let d := ((d.bumps (memOff s 0x28) 0 panics).activate s x).moveLines s batch.length
  d.setStack s fun st => { st with queue := st.queue.filter fun y => !batch.any fun z => z.id == y.id }

/-- Refreshes a bank owes. -/
def Dev.owedBy (d : Dev) (s bank : Nat) : Nat := tgetD (d.stack s).owed bank 0

/-- A refresh wakes the rank of its bank (R340). -/
def Dev.wakeRank (d : Dev) (s bank : Nat) : Dev :=
  d.setStack s fun st => { st with down := ndel st.down (4 * (bank / 64) + bank % 64 / 16) }

/-- Write back a corrected codeword of a bank, in class 0 (R350). -/
def Dev.demandWrite (d : Dev) (s bank : Nat) : Dev :=
  match d.ecc.writeBacks.find? fun e => e.2 / 2 ^ 32 == s && bankOf (e.2 % 2 ^ 32) == bank && d.shareLeft s != 0 with
  | none => d
  | some e => { d.moveLines s 1 with ecc := { d.ecc with odd := tdel d.ecc.odd e.1, writeBacks := tdel d.ecc.writeBacks e.1 } }

/-- A bank makes up the refreshes it owes: none of its queued accesses is of class 1 or above (R338). -/
def Dev.makesUp (d : Dev) (s bank : Nat) : Bool :=
  0 < d.owedBy s bank && !(d.stack s).queue.any fun x => bankOf x.a == bank && 1 ≤ d.accessClass s x

/-- What a bank of an ACTIVE stack does next (R333 to R343): a refresh at its limit, an access past its wait, the refreshes it
owes, another access, or a write-back of a corrected line. A command may go unanswered, and 16 in a row fail the stack (R331). -/
def Dev.bankTurn (d : Dev) (s bank : Nat) : Dev :=
  let r := d.draw
  if r.1 % 2 = 1 then
    let n := (d.stack s).badCommands + 1
    let d := r.2.setStack s fun st => { st with badCommands := n }
    if 16 ≤ n then d.failStack s 3 else d
  else
    let d := r.2.setStack s fun st => { st with badCommands := 0 }
    if 8 ≤ d.owedBy s bank then (d.wakeRank s bank).setStack s fun st => { st with owed := tput st.owed bank (d.owedBy s bank - 1) }
    else
      match d.nextAccess s bank with
      | some (x, true) => d.serveRow s x true
      | next =>
        if d.makesUp s bank then
          ((d.wakeRank s bank).bump (memOff s 0x20) 0).setStack s fun st => { st with owed := tdel st.owed bank }
        else
          match next with
          | some (x, _) => d.serveRow s x false
          | none => d.demandWrite s bank

def execDramCommandIssue (stack bank : Nat) (s : State) := liftDev (fun d =>
  if (d.stack stack).state ≠ 2 then d else d.bankTurn stack bank) s

def execThrottleExpiry (stack : Nat) (s : State) := liftDev (fun d =>
  match (d.stack stack).throttles.foldl (fun b t => some (match b with
    | none => t.expiry
    | some x => min x t.expiry)) (none : Option Nat) with
  | none => d
  | some t => (d.till t).setStack stack fun st => { st with throttles := st.throttles.filter fun x => t < x.expiry }) s

/-! ## Refresh, temperature and power-down (R337 to R340) -/

/-- The refresh interval of a bank elapses (R338, R339). Postponing while a class 2 or 3 access waits is the controller's
choice. -/
def Dev.refreshDue (d : Dev) (s bank : Nat) : Dev :=
  if (d.stack s).modeNow = 1 then
    d.setStack s fun st => { st with down := st.down.filter fun r => r / 4 != bank / 64 }
  else
    let busy := (d.stack s).queue.any fun x => bankOf x.a == bank && 2 ≤ d.accessClass s x
    let r := d.draw
    if busy && r.1 % 2 = 1 then r.2.setStack s fun st => { st with owed := tput st.owed bank (min 8 (d.owedBy s bank + 1)) }
    else r.2.wakeRank s bank

def execRefreshDue (stack bank : Nat) (s : State) := liftDev (fun d =>
  if (d.stack stack).state = 2 then d.refreshDue stack bank else d) s

def execRefreshWindow (stack : Nat) (s : State) := liftDev (fun d =>
  if (d.stack stack).state ≠ 2 then d
  else
    let mode := d.fld (memOff stack 8) 0 1
    let q := d.age.aim.refQ.getD stack 4
    let change := mode != (d.stack stack).modeNow || q != (d.stack stack).marginQ
    d.setStack stack fun st =>
      { st with trackers := [], mitigated := [], modeNow := mode, marginQ := q, owed := if change then [] else st.owed }) s

/-- The thermal factor's code after a reading (Table 15.7). -/
def thermNext (t temp : Nat) : Nat :=
  if 95 < temp || (t = 2 && 93 < temp) then 2
  else if 85 < temp || (1 ≤ t && 83 < temp) then 1
  else 0

/-- A reading of a stack's temperature; without one for 10 ms the stack fails (R331, R337). -/
def Dev.stackTemp (d : Dev) (s : Nat) (temp : Option Nat) : Dev :=
  let d := d.till ((d.stack s).tempAt + msTicks 1)
  let d := d.setStack s fun st => { st with tempAt := d.now }
  match temp with
  | none =>
    let since := (d.stack s).unreadableSince.getD d.now
    let d := d.setStack s fun st => { st with unreadableSince := some since }
    if since + msTicks 10 ≤ d.now then d.failStack s 4 else d
  | some c =>
    let old := (d.stack s).therm
    let t := thermNext old c
    let d := d.setStack s fun st => { st with tempC := c, therm := t, unreadableSince := none }
    if t = old then d else d.log (0x0203 + 16 * s) (code := t) (arg0 := c)

def execStackTempRead (stack : Nat) (temp : Option Nat) (s : State) := liftDev (fun d =>
  if (d.stack stack).state = 2 || (d.stack stack).state = 3 then d.stackTemp stack temp else d) s

def execRankPowerDown (stack rank : Nat) (s : State) := liftDev (fun d =>
  let inRank := fun b => 4 * (b / 64) + b % 64 / 16 == rank
  if (d.stack stack).state ≠ 2 || d.fld (memOff stack 4) 0 10 = 0 || 256 ≤ rank ||
     ((d.stack stack).queue.any fun x => inRank (bankOf x.a)) || ((d.stack stack).owed.any fun e => inRank e.1 && e.2 != 0) then d
  else d.setStack stack fun st => { st with down := nadd st.down rank }) s

/-! ## Lines by their place (R326) -/

/-- The extent and key of the line a stack line address holds: of an extent with a frame of its own, or of a cached skein. -/
def Dev.lineAt (d : Dev) (s a : Nat) : Option (Nat × Nat) :=
  let own := d.pool.emt.findSome? fun e =>
    if e.2.kind = 0 || e.2.kind = 2 || 5 ≤ e.2.kind then none
    else (d.keyAt e.1 s a).bind fun k => if k / 2 ^ 25 = e.2.frame then some (e.1, k) else none
  match own with
  | some x => some x
  | none => d.far.cached.findSome? fun c =>
      (d.keyAt (c.1 / 512) s a).bind fun k => if c.2.state ≠ 0 && k / 65536 = c.2.slot then some (c.1 / 512, k) else none

/-- The pool address of the line with a key in an extent. -/
def Dev.addrAt (d : Dev) (e k : Nat) : Nat :=
  match d.far.cached.find? fun c => (d.emtOf e).kind == 2 && c.1 / 512 == e && c.2.slot == k / 65536 with
  | some c => c.1 * 65536 + k % 65536
  | none => e * 2 ^ 25 + k % 2 ^ 25

/-- What a read of 72 symbols at A gives when none are wrong (none), or the flipped ones `err`: the line it decodes to, and whether it
corrected any; none when it is uncorrectable (R348, R349). -/
def readWith (a : Nat) (data err : List Byte) : Option (List Byte × Bool) :=
  if err.isEmpty then some (data, false)
  else
    match decodeLine a (xorBytes (encodeLine a data 0) err) with
    | some (w, changed) => if w.getD 64 0 = 0 then some (w.take 64, changed) else none
    | none => none

/-- The bytes of a quarter of a set: four ways (Table 5.8). -/
def Dev.setBytes (d : Dev) (set q : Nat) : List Byte :=
  ((List.range 4).map fun k =>
    match d.coh.dir.find? fun e => globalSet e.1 == set && e.2.way == 4 * q + k with
    | some e => dirBytes e.1 e.2
    | none => zeros 16).flatten

/-- A way of a set reads as other bytes than were written (R348): a reserved STATE recalls the set (Table 5.9); an entry of
another set is never found. What the directory cache holds busy is not read. -/
def Dev.wayRead (d : Dev) (set way : Nat) (b : List Byte) : Dev :=
  let old := (d.coh.dir.find? fun e => globalSet e.1 == set && e.2.way == way).map (·.1)
  let w0 := field b 0 8
  let w1 := field b 8 8
  let line := bits w1 22 42
  if (old.map d.busy).getD false then d
  else if 4 ≤ bits w0 61 3 then d.recallStart set 0
  else
    let d := match old with
      | some l => d.dirDel l
      | none => d
    if bits w0 61 3 = 0 || globalSet line ≠ set || (d.dirOf line).isSome then d
    else
      let g := tgetD d.coh.domains (bits w0 52 5) (0, 0)
      d.dirPut line { state := bits w0 61 3, ptrs := (List.range (min 4 (bits w0 57 3))).map fun k => bits w0 (12 * k) 12,
                      domain := bits w0 52 5, group := g.1, mask := g.2, nru := bit w1 21, way := way }

/-- A line of a directory set is read (R121, R130, R354): uncorrectable, it destroys the set. `fix` is what a corrected line
counts as. -/
def Dev.setRead (d : Dev) (s a set q : Nat) (err : List Byte) (fix : Dev → Dev) : Dev :=
  match readWith a (d.setBytes set q) err with
  | none => (d.ueNote s a 0 true).setDestroyed set
  | some (b, changed) =>
    let old := d.setBytes set q
    let d := if changed then fix d else d
    forEach ((List.range 4).filter fun k => slice b (16 * k) 16 != slice old (16 * k) 16)
      (fun k d => d.wayRead set (4 * q + k) (slice b (16 * k) 16)) d

/-- A line that no extent holds is read: of a directory set, or another line of the carve-out, which R328 serves from its other
copy and writes again (log entry 53). -/
def Dev.tableRead (d : Dev) (s a : Nat) (err : List Byte) (fix : Dev → Dev) : Dev :=
  match (d.setLineAt s a).bind fun x => (d.setOfLive x.1).map fun set => (set, x.2) with
  | some (set, q) => d.setRead s a set q err fix
  | none =>
    match readWith a (zeros 64) err with
    | some (_, changed) => if changed then fix d else d
    | none => d.ueNote s a 0 true

/-- The symbols `err` of a pool line's stored codeword are flipped; a poisoned line that still decodes stays poisoned. -/
def Dev.upset (d : Dev) (ext key : Nat) (err : List Byte) : Dev :=
  if err.isEmpty then d else d.putCodeword ext key (xorBytes (d.codeword ext key) err)

/-- The count of a corrected read of stack s (R350). -/
def Dev.readFixed (s : Nat) (d : Dev) : Dev := d.bump (0x900040 + 8 * s) 16

def execStackReadComplete (stack line : Nat) (err : List Byte) (s : State) := liftDev (fun d =>
  if (d.stack stack).state ≠ 2 then d
  else
    match d.lineAt stack line with
    | none => d.tableRead stack line err (Dev.readFixed stack)
    | some (e, k) => ((d.upset e k err).readLine e k (d.addrAt e k)).2) s

/-! ## Scrubbing (R356) -/

/-- Lines of a stack that the scrubber reads: every line, or those the five-stack map places on it. -/
def Dev.scrubLines (d : Dev) : Nat := if d.retired.isSome then 12800 * 104859 else 20481 * 65536

/-- A corrected line is rewritten and counted for its row; at CE_ROW_LIMIT the row is reported. -/
def Dev.scrubFixed (s a : Nat) (d : Dev) : Dev :=
  let rk := s * 2 ^ 32 + rowKey (bankOf a) (rowOf a)
  let n := tgetD d.ecc.rowCorr rk 0 + 1
  let d := ({ d with ecc := { d.ecc with rowCorr := tput d.ecc.rowCorr rk n } }).bump (0x900040 + 8 * s) 0
  if n = d.fld 0x900000 8 8 then d.log (0x0260 + s) (arg0 := a % 64 + a / 1024 % 64 * 64 + rowOf a * 4096) else d

/-- The scrubber reads a pool line: a poisoned one is skipped. -/
def Dev.scrubPool (d : Dev) (s a e k : Nat) : Dev :=
  match tget d.ecc.odd (k / 64) with
  | none => d
  | some w =>
    match decodeLine a w with
    | none => d.uncorrectable e k (d.addrAt e k)
    | some (w', changed) =>
      let m := (w'.getD 64 0).toNat
      if m = 128 then d
      else if m ≠ 0 then d.uncorrectable e k (d.addrAt e k)
      else if changed then
        { d with ecc := { d.ecc with odd := tdel d.ecc.odd (k / 64), writeBacks := tdel d.ecc.writeBacks (k / 64) } }.scrubFixed s a
      else d

/-- The scrubber reads the line at its position. -/
def Dev.scrubLine (d : Dev) (s a : Nat) (err : List Byte) : Dev :=
  match d.lineAt s a with
  | none => d.tableRead s a err (Dev.scrubFixed s a)
  | some (e, k) => (d.upset e k err).scrubPool s a e k

def execScrubRead (stack : Nat) (err : List Byte) (s : State) := liftDev (fun d =>
  if (d.stack stack).state ≠ 2 || d.fld 0x900000 0 1 = 0 then d
  else
    let a := tgetD d.ecc.pos stack 0
    let d := d.scrubLine stack a err
    if a + 1 < d.scrubLines then { d with ecc := { d.ecc with pos := tput d.ecc.pos stack (a + 1) } }
    else
      let rows := d.ecc.rowCorr.filter fun e => e.1 / 2 ^ 32 != stack
      ({ d with ecc := { d.ecc with pos := tput d.ecc.pos stack 0, rowCorr := rows } }).bump (0x900044 + 8 * stack) 16) s

/-! ## Test modes (R359, R360, R457) -/

/-- MODE may not be other than NONE: Sealing, Sealed, Unsealing, Decommissioned, or a unit of a pair. -/
def Dev.eccBarred (d : Dev) : Bool := (2 ≤ d.sec.state && d.sec.state ≤ 5) || d.mir.role != 0

/-- A write of ECC_TEST_CTL. -/
def Dev.eccTestWrite (d : Dev) (val : Nat) : Dev :=
  let remain := clampN 1 255 (bits val 8 8)
  let mode := if d.eccBarred then 0 else bits val 0 2
  let d := if remain = bits val 8 8 then d else d.clamped 13 0
  let d := if mode = bits val 0 2 then d else d.clamped 13 0
  d.setReg 0x900080 (bits val 16 16 * 65536 + remain * 256 + mode)

def execEccTestCtlWrite (who val : Nat) (s : State) := liftDev (fun d => d.leasedWrite who false (·.eccTestWrite val)) s

end Sys2Proof.Machine
end

