-- ==== Sys2Proof/Machine/Ageing.lean ====
section
/-! DEFINITION. Ageing gauges and the margin plan (chapter 19). A gauge's reading is the operand of GAUGE_READ, already
compared with its time-zero value (log entry 27). -/

namespace Sys2Proof.Machine

/-- Ticks of an hour. -/
def hourTicks : Nat := 2880000000000

/-- The descriptor of the power manager's queue that is served now: the oldest one not yet completed (R385, R407). -/
def Dev.pmHead (d : Dev) : Option (Nat × Nat) := d.pm.queue.find? fun q => (d.startedAt q.1 q.2).isSome

/-- Power-on hours now (R414). -/
def Dev.hours (d : Dev) : Nat := d.age.pohHours + (d.now - d.age.pohAt) / hourTicks

/-! ## Gauges (R405, Table 19.1): rings 0 to 511, SRAM 512 to 607, canaries 608 to 991, eyes 992 to 1119, paths 1120 to 1143 -/

/-- The worst reading of a period, with one more: the least of eyes, the greatest of the others. -/
def worse (gauge old new : Nat) : Nat := if 992 ≤ gauge && gauge < 1120 then min old new else max old new

def execGaugeRead (gauge reading : Nat) (s : State) := liftDev (fun d =>
  if d.pm.state ≠ 1 || 1144 ≤ gauge then d
  else
    let w := match tget d.age.worst gauge with
      | some x => worse gauge x reading
      | none => reading
    { d with age := { d.age with raw := tput d.age.raw gauge reading, worst := tput d.age.worst gauge w } }) s

/-- The greatest worst reading of a range of instances, 0 where none was read. -/
def Dev.mostIn (d : Dev) (lo n : Nat) : Nat :=
  (d.age.worst.filter fun e => lo ≤ e.1 && e.1 < lo + n).foldl (fun b e => max b e.2) 0

/-- The least worst reading of a range of instances. -/
def Dev.leastIn (d : Dev) (lo n : Nat) : Nat :=
  (d.age.worst.filter fun e => lo ≤ e.1 && e.1 < lo + n).foldl (fun b e => min b e.2) 0xFFFF

/-- Quotient rounded up. -/
def ceilDiv (a b : Nat) : Nat := (a + b - 1) / b

/-- VDD_CORE before margins of a profile in mV (Table 18.1). -/
def profileMv (p : Nat) : Nat := if p = 0 then 650 else if p = 1 then 700 else 750

/-- A bit set from a test. -/
def bitsOf (n : Nat) (p : Nat → Bool) : Nat := ((List.range n).filter p).foldl (fun v i => v + 2 ^ i) 0

/-! ## Computing a plan (R406 to R408) -/

/-- CORE_GB_MV before its bounds (Table 19.2). -/
def Dev.coreWanted (d : Dev) : Nat :=
  max (if d.fld 0x40000 0 1 = 1 then 0 else 5 * ceilDiv (d.mostIn 0 512) 8700) (d.age.plan.coreGb - 5)

/-- The bound on CORE_GB_MV: MAX_GB_MV, and VDD_CORE at most 0.90 V (R408). -/
def Dev.coreBound (d : Dev) : Nat := min (d.fld 0x40000 24 8) (900 - profileMv d.pm.profile)

/-- The plan the readings of the period give (Table 19.2), with the version after the installed one. -/
def Dev.planNow (d : Dev) (trigger : Nat) : Plan :=
  let lane := fun (i n : Nat) => d.leastIn (992 + i) n < d.fld 0x40000 16 8
  let rise := d.mostIn 1120 24
  { version := d.age.plan.version + 1, poh := d.hours, trigger := trigger, policy := d.fld 0x40000 0 1,
    coreGb := min d.coreWanted d.coreBound,
    sramGb := min 100 (5 * ceilDiv (d.mostIn 512 96 + 60 - 800) 5),
    knitCap := if rise ≤ d.fld 0x40004 16 16 then 0 else 920000 / (1000 + rise),
    refQ := (List.range 6).map fun s => min 8 (4 + ceilDiv (d.mostIn (608 + 64 * s) 64) (d.fld 0x40004 0 8)),
    retrainLinks := bitsOf 24 fun l => lane (4 * l) 4,
    retrainPcie := bitsOf 6 fun p => if p < 2 then lane (96 + 8 * p) 8 else lane (104 + 4 * p) 4,
    ringPpm := d.mostIn 0 512, vmin := d.mostIn 512 96, canaryMax := d.mostIn 608 384, eyeMin := d.leastIn 992 128, rise := rise }

/-- The 128-byte record of a plan (Table 19.3). -/
def planRecord (p : Plan) : List Byte :=
  let b := natBytes 4 0x47524D4B ++ natBytes 4 p.version ++ natBytes 4 p.poh ++ natBytes 1 p.trigger ++ natBytes 1 p.policy ++ zeros 2 ++
    natBytes 2 p.coreGb ++ natBytes 2 p.sramGb ++ natBytes 2 p.knitCap ++ zeros 2 ++ ((List.range 6).map fun s => natBytes 1 (p.refQ.getD s 4)).flatten ++
    zeros 2 ++ natBytes 4 p.retrainLinks ++ natBytes 1 p.retrainPcie ++ zeros 3 ++ natBytes 4 p.ringPpm ++ natBytes 2 p.vmin ++
    natBytes 1 p.canaryMax ++ zeros 1 ++ natBytes 2 p.eyeMin ++ natBytes 2 p.rise ++ zeros 72
  b ++ natBytes 4 (crc32c b)

/-! ## Installing it (R409) -/

/-- The margins of a plan. -/
def Plan.margins (p : Plan) : Margins := { coreGb := p.coreGb, sramGb := p.sramGb, knitCap := p.knitCap, refQ := p.refQ }

/-- A Knit cap that tightens another. -/
def capTightens (old new : Nat) : Bool := new != 0 && (old == 0 || new < old)

/-- What may take effect in Run: the outputs that tighten (R409). -/
def Margins.tighten (m n : Margins) : Margins :=
  { coreGb := max m.coreGb n.coreGb, sramGb := max m.sramGb n.sramGb,
    knitCap := if capTightens m.knitCap n.knitCap then n.knitCap else m.knitCap,
    refQ := (m.refQ.zip n.refQ).map fun x => max x.1 x.2 }

/-- Links that a plan names for retraining. -/
def dueLinks (mask : Nat) (due : List Nat) : List Nat := (List.range 24).filter fun l => bit mask l || nmem due l

/-- Install a plan: into the boot flash over the older copy, then its margins (R409, R412). -/
def Dev.planInstall (d : Dev) (p : Plan) (ex : Bool) : Dev :=
  let v := fun (c : Option Plan) => (c.map (·.version)).getD 0
  let first := v d.age.copy0 ≤ v d.age.copy1
  let aim := d.age.aim.tighten p.margins
  let a := { d.age with plan := p, copy0 := if first then some p else d.age.copy0, copy1 := if first then d.age.copy1 else some p,
                        aim := aim, pending := aim != p.margins, exhausted := d.age.exhausted || ex,
                        retrainDue := dueLinks p.retrainLinks d.age.retrainDue, worst := [] }
  let d := ({ d with age := a }.log 0x0140 (code := p.trigger) (arg0 := p.version)).msixBoth
  if ex then (d.logSrc 0x0143).msixBoth else d

/-- Compute a plan and install it. -/
def Dev.planRun (d : Dev) (trigger : Nat) : Dev := d.planInstall (d.planNow trigger) (d.coreBound < d.coreWanted)

/-- A wake or a start-up: every margin of the plan is in force; relaxed ones among them are reported (R409). -/
def Dev.planRelax (d : Dev) : Dev :=
  let m := d.age.plan.margins
  let was := d.age.pending
  let d := { d with age := { d.age with aim := m, force := m, pending := false } }
  if was then d.logSrc 0x0141 else d

def execPlanSchedule (s : State) := liftDev (fun d =>
  let due := d.now + (d.age.plan.poh + d.fld 0x40000 4 12 - d.age.pohHours) * hourTicks - (d.now - d.age.pohAt)
  if !d.boot.ready || d.pmHead.isSome then d
  else if d.pm.state = 1 then (d.till due).planRun 1
  else { d.till due with age := { (d.till due).age with planDue := true } }) s

/-- The plan of start-up, installed when an output tightens (R412). -/
def execStartUpPlan (s : State) := liftDev (fun d =>
  if !d.age.startPlan || d.pm.state ≠ 1 || d.pmHead.isSome then d
  else
    let d := { d with age := { d.age with startPlan := false } }
    let p := d.planNow 3
    let m := d.age.plan.margins
    let new := p.retrainLinks != Nat.land p.retrainLinks d.age.plan.retrainLinks || p.retrainPcie != Nat.land p.retrainPcie d.age.plan.retrainPcie
    if m.tighten p.margins = m && !new then d else d.planRun 3) s

/-! ## Descriptors (R413) -/

/-- AGE_PLAN. -/
def execAgePlan (ring idx : Nat) (s : State) := liftDev (fun d =>
  if d.pmHead ≠ some (ring, idx) || d.pm.state ≠ 1 then d
  else
    d.withDesc ring idx 0x74 fun b d => d.gated ring idx false [] fun d =>
      if !d.hasLease (d.ringOwner ring) then d.completeDesc ring idx stDenied 8 0 0
      else
        let act := field b 8 1
        let d := if 1 < act then d.clamped 1 1 else d
        let p := d.planNow 2
        let d := if act = 0 then d.planRun 2 else d
        d.output (.desc ring idx) (field b 40 8) (planRecord p) stDone 0 p.version 0) s

/-- Write a record, which a fabric client does not get in Shared personality. -/
def Dev.ageOut (d : Dev) (ring idx op : Nat) (p : Dev → Plan) (result : Nat) : Dev :=
  d.withDesc ring idx op fun b d => d.gated ring idx false [] fun d =>
    if (nodePort (d.ringOwner ring)).isNone && d.personality = 1 then d.completeDesc ring idx stDenied 0x50 0 0
    else d.output (.desc ring idx) (field b 40 8) (planRecord (p d)) stDone 0 result 0

def execAgeRead (ring idx : Nat) (s : State) := liftDev (fun d => d.ageOut ring idx 0x75 (fun d => { d.planNow 2 with version := 0 }) 0) s
def execAgeRecord (ring idx : Nat) (s : State) := liftDev (fun d => d.ageOut ring idx 0x76 (fun d => d.age.plan) d.age.plan.version) s

/-- Ten power-on hours have passed: the count is written to the flash. -/
def execPohUpdate (s : State) := liftDev (fun d =>
  if !d.pm.aonGood then d
  else
    let d := d.till (d.age.pohAt + 10 * hourTicks)
    { d with age := { d.age with pohHours := d.age.pohHours + 10, pohAt := d.age.pohAt + 10 * hourTicks, flashPoh := d.age.pohHours + 10 } }) s

/-! ## Retraining (R410) -/

/-- A due link may be retrained now. -/
def Dev.retrainable (d : Dev) (l : Nat) : Bool :=
  (d.link l).state != 0 &&
  (d.glFld l 0 28 2 != 2 || (d.mir.phase == 0 && (List.range 24).any fun k => k != l && d.glFld k 0 28 2 == 2 && (d.link k).state == 6))

/-- A due link is retrained by a full reset: it goes through BROKEN, and on to DETECT even where AUTO_RETRAIN is 0 (R283, R410). -/
def execRetrainStart (s : State) := liftDev (fun d =>
  if d.fld 0x40000 1 1 = 0 || d.pm.state ≠ 1 || d.age.retraining.isSome then d
  else
    match (List.range 24).find? fun l => nmem d.age.retrainDue l && d.retrainable l with
    | none => d
    | some l =>
      let d := d.till d.age.retrainNext
      let d := { d with age := { d.age with retraining := some l, retrainNext := d.now + msTicks 10000 } }
      let d := (d.log 0x0142 (code := l)).linkReset l
      if (d.link l).state = 7 && d.glFld l 0 30 1 = 0 then d.linkReset l else d) s

end Sys2Proof.Machine
end

