-- ==== Sys2Proof/Machine/Testing.lean ====
section
/-! DEFINITION. Port resets (R447), die-to-die modules and flue dies (R21), loopbacks and self-tests (chapter 23), and the test
access port (R463, R464). Flue A is 0 and flue B is 1; modules 0 to 7 belong to A and 8 to 15 to B (log entry 28). -/

namespace Sys2Proof.Machine

/-! ## Port reset (R447) -/

/-- An offset of the port-local registers (R62): the feature and negotiation registers and the window. -/
def portLocal (off : Nat) : Bool := (0x80000 ≤ off && off < 0x80080) || (0xA80000 ≤ off && off < 0xB00000)

/-- The work of a mover belongs to a port: its descriptor's ring is the port's, or it uses a translation context of it. -/
def Dev.workOfPort (d : Dev) (p : Nat) (w : MoverWork) : Bool :=
  d.ringOwner w.ring == portNode p || ((w.isHost 0 || w.isHost 1) && ((d.xctxOf w.xctx).map (·.port)) == some p)

/-- The movers drop a port's work without records, its contexts, translations and fault records. -/
def Dev.movePortReset (d : Dev) (p : Nat) : Dev :=
  let drop := fun (w : MoverWork) (d : Dev) => d.forgetDesc w.ring w.idx
  let mine := (List.range 32).filter fun k => ((d.mover k).work.map (d.workOfPort p)).getD false
  let waiting := d.mov.waitingWork.filter (d.workOfPort p)
  let faults := d.mov.faults.filter fun f => f.2.port == p
  let ctxs := (d.mov.xctx.filter (·.2.port == p)).map (·.1)
  let d := forEach mine (fun k d =>
    match (d.mover k).work with
    | some w => drop w (((d.moverAck k).dropMoverReqs k).setMover k fun _ => {})
    | none => d) d
  let d := forEach waiting drop d
  let d := forEach ((faults.map fun f => f.2.waiters).flatten) drop d
  { d with mov := { d.mov with
      waitingWork := d.mov.waitingWork.filter fun w => !waiting.contains w
      faults := d.mov.faults.filter fun f => !faults.any fun g => g.1 == f.1
      xctx := d.mov.xctx.filter (·.2.port != p), cache := d.mov.cache.filter fun e => !nmem ctxs e.ctx
      invs := d.mov.invs.filter (·.2.port != p) } }.setPri p fun _ => {}

/-- The port's registers, lease, rings, contexts and window accesses after a port reset. -/
def Dev.portClear (d : Dev) (p : Nat) : Dev :=
  let node := portNode p
  let d := if d.host.lease.holder = p + 1 then d.leaseEnd else d
  let d := ((d.dropOwner node).movePortReset p).setPort p fun _ => {}
  let mine := fun (ring : Nat) => d.ringOwner ring == node
  let lost := fun (c : Caller) => match c with
    | .desc ring _ => mine ring
    | .fab _ => false
  { d with
      regs := d.regs.filter fun e => !(e.1 / 0x2000000 == p && portLocal (e.1 % 0x2000000))
      host := { d.host with rings := d.host.rings.filter fun r => !mine r.1
                            windowWaits := d.host.windowWaits.filter (·.port != p)
                            outputs := d.host.outputs.filter fun o => !lost o.caller }
      mov := { d.mov with hints := d.mov.hints.filter fun h => !mine h.ring }
      jobs := { d.jobs with abortWaits := d.jobs.abortWaits.filter (fun a => !mine a.1), abortEnds := d.jobs.abortEnds.filter fun a => !mine a.1 }
      sec := { d.sec with attests := d.sec.attests.filter fun a => !mine a.ring } }

/-! ## Loopbacks (R459 to R461) -/

/-- A loopback is over: its interface returns to service, and the end is reported. A D2D module that failed stays disabled (R460);
DESIGN CHOICE (log entry 56): so does one whose loopback was ABORTED, which has not passed, until the next cold start. -/
def Dev.loopOver (d : Dev) (result reason errors checked : Nat) : Dev :=
  match d.test.loopback with
  | none => d
  | some (kind, depth, i, _, port) =>
    let d := { d with test := { d.test with loopback := none, lbResult := result, lbReason := reason, lbErrors := errors, lbChecked := checked } }
    let d := if kind = 0 && depth ≠ 5 then d.linkDetect i
      else if kind = 1 then { d with boot := { d.boot with dnDown := ndel d.boot.dnDown i } }
      else if kind = 3 && result = 1 then { d with boot := { d.boot with d2dOff := ndel d.boot.d2dOff i } }
      else d
    (d.log 0x0920 (code := result) (arg0 := reason)).msix port 0

/-- A running loopback is ended ABORTED. -/
def Dev.loopAbort (d : Dev) (reason : Nat) : Dev := d.loopOver 4 reason d.test.lbErrors d.test.lbChecked

/-- A port reset, which ends a loopback that the port started (R461). -/
def Dev.portReset (d : Dev) (p : Nat) : Dev :=
  let d := match d.test.loopback with
    | some (_, _, _, _, q) => if q = p then d.loopAbort 5 else d
    | none => d
  d.portClear p

def execPortReset (port : Nat) (s : State) := liftDev (fun d => if 1 < port then d else d.portReset port) s

/-! ## Die-to-die modules and flue dies (R21) -/

/-- The modules of a flue die in service. -/
def Dev.modulesUp (d : Dev) (flue : Nat) : Nat := ((List.range 8).filter fun i => !nmem d.boot.d2dOff (8 * flue + i)).length

/-- A flue die is disabled, with its links, its upstream port and its root ports. -/
def Dev.flueDown (d : Dev) (flue : Nat) : Dev :=
  if nmem d.boot.flueOff flue then d
  else
    let d := { d with boot := { d.boot with flueOff := nadd d.boot.flueOff flue } }
    let d := forEach ((List.range 12).map (12 * flue + ·)) (fun l d => if (d.link l).state = 0 then d else (d.linkBreak l 8).linkDetect l) d
    let gone := d.far.drives.filter fun e => e.2.port / 2 == flue
    let d := forEach [2 * flue, 2 * flue + 1] (fun n d => d.dnTrain n none) d
    let d := forEach gone (fun e d => d.driveGone e.1 e.2) (d.portReset flue)
    let s := d.draw
    s.2.log (0x0900 + s.1 % 0xC0) (code := flue)

/-- A module is disabled: an event names it, and its flue die goes when fewer than four are left. -/
def Dev.moduleOut (d : Dev) (i : Nat) : Dev :=
  let s := { d with boot := { d.boot with d2dOff := nadd d.boot.d2dOff i } }.draw
  let d := s.2.log (0x0900 + s.1 % 0xC0) (code := i)
  if d.modulesUp (i / 8) < 4 then d.flueDown (i / 8) else d

/-- A module in service fails. -/
def Dev.moduleFail (d : Dev) (i : Nat) : Dev := if 16 ≤ i || nmem d.boot.d2dOff i then d else d.moduleOut i

def execD2dModuleFail (module : Nat) (s : State) := liftDev (fun d => if d.boot.phase = 0 then d else d.moduleFail module) s

/-! ## Starting and ending a loopback -/

/-- The precondition of Table 23.1. That the partner has asked for GLADOR 4 is not the device's to see: a free value. -/
def Dev.loopAllowed (d : Dev) (kind depth i : Nat) : Bool :=
  let noDrive := fun (dn : Nat) => !d.far.drives.any fun e => e.2.port == dn && (e.2.state == 3 || e.2.state == 4)
  if kind = 0 then
    if depth = 5 then (d.link i).state == 6 && d.glFld i 0 28 2 == 0
    else
      (d.glFld i 0 28 2 != 2 || (d.link i).state != 6 ||
        (List.range 24).any fun k => k != i && d.glFld k 0 28 2 == 2 && (d.link k).state == 6) &&
      (depth != 4 || Config.freeNumber d.free % 2 == 1)
  else if kind = 1 then
    if 2 ≤ i then noDrive (i - 2) else depth == 2 && d.leaseHolder != i + 1
  else if kind = 2 then (d.stack i).state == 4 || (d.stack i).state == 5 || d.boot.testEn
  else !nmem d.boot.d2dOff i && 5 ≤ d.modulesUp (i / 8)

/-- Take the interface out of service (R460). -/
def Dev.loopEnter (d : Dev) (kind depth i : Nat) : Dev :=
  if kind = 0 then
    if depth = 5 then d
    else ((if (d.link i).state = 6 then d.linkBreak i 8 else d).linkDetect i).setLink i fun k => { k with state := 8 }
  else if kind = 1 then
    { (if i < 2 then d.portReset i else d) with boot := { (if i < 2 then d.portReset i else d).boot with dnDown := nadd d.boot.dnDown i } }
  else if kind = 3 then { d with boot := { d.boot with d2dOff := nadd d.boot.d2dOff i } }
  else d

/-- The fields of TEST_LB_CTL, clamped by KIND and stored (Table 23.2). -/
def Dev.loopFields (d : Dev) (val : Nat) : Dev :=
  let kind := bits val 28 2
  let depth := clampN 1 (if kind = 0 then 5 else if kind = 1 then 2 else if kind = 2 then 4 else 1) (bits val 24 4)
  let i := min (bits val 16 8) (if kind = 0 then 23 else if kind = 3 then 15 else 5)
  let ms := clampN 1 4000 (bits val 0 12)
  let n := b2n (depth != bits val 24 4) + b2n (i != bits val 16 8) + b2n (ms != bits val 0 12)
  let d := (List.range n).foldl (fun d _ => d.clamped 0 6) d
  d.setReg 0xA00000 (kind * 2 ^ 28 + depth * 2 ^ 24 + i * 65536 + ms)

/-- TEST_LB_CTL with START 1: the loopback its fields name is begun or refused. -/
def Dev.loopStart (d : Dev) (who val : Nat) : Dev :=
  let d := d.loopFields val
  let kind := d.fld 0xA00000 28 2
  let depth := d.fld 0xA00000 24 4
  let i := d.fld 0xA00000 16 8
  let end_ := fun (d : Dev) (result reason : Nat) => { d with test := { d.test with lbResult := result, lbReason := reason } }
  if d.test.loopback.isSome then end_ d 3 1
  else if !d.loopAllowed kind depth i then end_ d.draw.2 3 2
  else
    let d := d.draw.2.loopEnter kind depth i
    { d with test := { d.test with loopback := some (kind, depth, i, d.now + msTicks (d.fld 0xA00000 0 12), (nodePort who).getD 0),
                                   lbResult := 0, lbReason := 0, lbErrors := 0, lbChecked := 0 } }

/-- A write of TEST_LB_CTL. -/
def Dev.loopWrite (d : Dev) (who val : Nat) : Dev :=
  let d := if bit val 30 then d.loopAbort 6 else d
  if bit val 31 then d.loopStart who val else d.loopFields val

def execLoopbackStart (who val : Nat) (s : State) := liftDev (fun d => d.leasedWrite who d.boot.testEn (·.loopStart who val)) s
def execLoopbackStop (who : Nat) (s : State) := liftDev (fun d => d.leasedWrite who d.boot.testEn (·.loopAbort 6)) s

/-- A loopback passes (Table 23.1). -/
def loopPasses (kind depth errors checked : Nat) : Bool :=
  if kind = 0 && depth = 1 then errors ≤ checked * 10 else if kind = 0 && 4 ≤ depth then true else errors == 0

def execLoopbackEnd (errors checked : Nat) (lockLost : Bool) (s : State) := liftDev (fun d =>
  match d.test.loopback with
  | none => d
  | some (kind, depth, i, stop, _) =>
    let failed := fun (d : Dev) => if kind = 3 then d.moduleOut i else d
    let d := if kind = 2 && 3 ≤ depth then d else d.till stop
    let e := min errors 0xFFFFFFFF
    let c := if kind = 0 && depth = 4 then 0 else if kind = 0 && depth = 5 then d.test.lbChecked else min checked 0xFFFFFFFF
    if lockLost then failed (d.loopOver 2 3 e c)
    else if loopPasses kind depth errors checked then d.loopOver 1 0 e c
    else failed (d.loopOver 2 0 e c)) s

/-! ## Built-in self-tests (R462) -/

/-- TARGET of TEST_BIST_CTL, clamped and stored; START keeps its value. -/
def Dev.bistTarget (d : Dev) (target : Nat) : Dev :=
  let t := min target 18
  (if t = target then d else d.clamped 0 6).setReg 0xA00010 (d.reg 0xA00010 / 2 ^ 31 * 2 ^ 31 + t)

/-- TEST_BIST_CTL with START 1. The bit is set (Table 0.2) and reads 1 from then on: DEDUCED (log entry 56), as nothing in Table 23.6
clears it. -/
def Dev.bistStart (d : Dev) (target : Nat) : Dev :=
  let d := d.bistTarget target
  let t := d.reg 0xA00010 % 2 ^ 31
  let d := d.setReg 0xA00010 (2 ^ 31 + t)
  if d.test.bist.isSome || !(d.boot.testEn || (t < 16 && (d.panel t).state == psRetired)) then { d with test := { d.test with bistResult := 3 } }
  else { d with test := { d.test with bist := some t, bistResult := 0, bistFails := 0 } }

def execBistStart (who target : Nat) (s : State) := liftDev (fun d => d.leasedWrite who d.boot.testEn (·.bistStart target)) s

def execBistEnd (fails : Nat) (cacheSets : List Nat) (s : State) := liftDev (fun d =>
  match d.test.bist with
  | none => d
  | some t =>
    let r := if fails = 0 then 1 else 2
    let d := { d with test := { d.test with bist := none, bistResult := r, bistFails := min fails 0xFFFF } }.log 0x0921 (code := r) (arg0 := t)
    if fails = 0 then d
    else if t < 16 then d.setPanel t fun q => { q with state := psRetired }
    else if 17 ≤ t then d.flueDown (t - 17)
    else forEach cacheSets (fun c d => d.cacheSpare c) d) s

/-! ## Sideband and test access port (R461, R463, R464) -/

def execMctpEcho (payload : List Byte) (s : State) := liftDev (fun d => if d.pm.aonGood then d.emit (.sideband payload) else d) s

/-- Load an instruction: without TEST_EN and outside Open every one but IDCODE acts as BYPASS. -/
def Dev.jtag (d : Dev) (code pins : Nat) (wrapper : Option Nat) : Dev :=
  if code = 1 || code = 0xFF || d.boot.testEn || d.sec.debugLevel = 2 then { d with test := { d.test with ir := code, pins := pins, wrapper := wrapper } }
  else { d with test := { d.test with ir := 0xFF, pins := 0, wrapper := none } }

/-- The identification code (Table 23.7). -/
def idCode : Nat := 1 * 2 ^ 28 + 0x0480 * 2 ^ 12 + Config.manufacturer % 2048 * 2 + 1

def execIdcode (s : State) := liftDev (fun d => (d.jtag 1 0 none).emit (.sideband (natBytes 4 idCode))) s
def execSamplePreload (s : State) := liftDev (fun d => d.jtag 2 0 none) s
def execExtest (s : State) := liftDev (fun d => d.jtag 3 1 none) s
def execExtestPulse (s : State) := liftDev (fun d => d.jtag 4 1 none) s
def execExtestTrain (s : State) := liftDev (fun d => d.jtag 5 1 none) s
def execHighz (s : State) := liftDev (fun d => d.jtag 6 2 none) s
def execClampInstruction (s : State) := liftDev (fun d => d.jtag 7 3 none) s
def execWirStack (stack : Nat) (s : State) := liftDev (fun d => d.jtag (0x10 + stack) 0 (if d.boot.testEn then some stack else none)) s
def execBypass (code : Nat) (s : State) := liftDev (fun d => if code < 0x100 then d.jtag 0xFF 0 none else d) s

end Sys2Proof.Machine
end

