-- ==== Sys2Proof/Machine/Power.lean ====
section
/-! DEFINITION. Power and clocks (chapter 18, with R470 to R474): the held device, profiles, power states, wake, the damper,
regulators, trips, the root PLL and the island clocks. -/

namespace Sys2Proof.Machine

/-! ## The held device (R392, R439) -/

/-- The device with everything outside the always-on domain in reset. The boot flash, the drives' media, the security core
and the always-on records stay; a weight key is discarded, and the debug level is Closed until the next start-up (R369,
R440; log entry 29). -/
def Dev.hold (d : Dev) (lastStop : Nat) : Dev :=
  { now := d.now, free := d.free, out := d.out,
    far := { media := d.far.media, tweaks := d.far.tweaks }, irq := { inputs := d.irq.inputs },
    sec := { d.sec with weightKey := [], attests := [], unsealer := none, debugLevel := 0, debugExpiry := 0 },
    pm := { aonGood := d.pm.aonGood, oscWait := d.pm.oscWait, oscAt := d.pm.oscAt, oscDone := d.pm.oscDone,
            rootLocked := d.pm.rootLocked, tbFromRef := d.pm.tbFromRef, alert := d.pm.alert, tripped := d.pm.tripped }
    age := { copy0 := d.age.copy0, copy1 := d.age.copy1, flashPoh := d.age.flashPoh, pohHours := d.hours, pohAt := d.now }
    boot := { lastStop := lastStop, perst0 := d.boot.perst0, perst1 := d.boot.perst1 } }

/-- A power-fault stop: the device waits for PERST# or for the removal of power (R396, R474). -/
def Dev.powerFaultStop (d : Dev) : Dev := { d.hold 2 with pm := { (d.hold 2).pm with powerFault := true, txOff := true } }

def execThermalTrip (junction : Nat) (s : State) := liftDev (fun d =>
  if junction < 115 || !d.pm.aonGood then d
  else
    let h := d.hold 1
    ({ h with pm := { h.pm with tripped := true, txOff := true, junction := junction } }).emit (.board 1 0 0)) s

def execRailMonitorFall (rail : Nat) (s : State) := liftDev (fun d =>
  let needed := (d.pm.state == 1 || d.pm.state == 2 || d.pm.state == 4) && (rail == 0 || rail == 1 || rail == 3) || (d.pm.state == 3 && rail == 3)
  if d.pm.aonGood && needed then d.powerFaultStop else d) s

def execPowerLoss (s : State) := liftDev (fun d =>
  let h := d.hold 0
  { h with pm := {}, boot := {}, irq := {}, age := { h.age with pohHours := h.age.flashPoh }
           sec := { h.sec with lowerTree := false, lowNext := 0, lastSign := 0, debugOpened := false } }) s

def execAlwaysOnPowerGood (oscWait : Nat) (s : State) := liftDev (fun d =>
  if d.pm.aonGood then d else { d with pm := { d.pm with aonGood := true, oscWait := oscWait % 8, oscAt := d.now } }) s

/-! ## Root PLL and island clocks (R398 to R400) -/

def execOscWaitExpiry (s : State) := liftDev (fun d =>
  if !d.pm.aonGood || d.pm.oscDone then d
  else
    let d := d.till (d.pm.oscAt + msTicks (2 ^ d.pm.oscWait))
    { d with pm := { d.pm with oscDone := true } }) s

/-- The clock of an island runs in Run (Table 18.9). -/
def Dev.islandRun (d : Dev) (i : Nat) : Bool :=
  if i < 24 then !d.linkHeld i && (d.link i).state != 0
  else if i < 26 then !nmem d.boot.flueOff (i - 24)
  else if i < 30 then !nmem d.boot.flueOff ((i - 26) / 2) && !d.pm.railFaults.contains 8
  else if i < 36 then (d.stack (i - 30)).state == 1 || (d.stack (i - 30)).state == 2
  else if i < 52 then !nmem d.boot.d2dOff (i - 36) && !nmem d.boot.flueOff ((i - 36) / 8)
  else i == 52

/-- In Bank: the stacks' islands are off. -/
def Dev.islandBank (d : Dev) (i : Nat) : Bool := !(30 ≤ i && i < 36) && d.islandRun i

/-- In Ember: the timebase alone, from the reference. -/
def islandEmber (i : Nat) : Bool := i == 52

/-- The clock of an island runs now. -/
def Dev.islandOn (d : Dev) (i : Nat) : Bool :=
  if !d.pm.rootLocked || d.boot.phase = 0 then false
  else if d.pm.state = 2 then d.islandBank i
  else if d.pm.state = 3 then false
  else d.islandRun i

/-- Divisor of an island (Table 1.3). -/
def islandDiv (i : Nat) : Nat := if i < 36 then 4 else if i < 52 then 2 else 8

/-- Store an island's divisor, 0 gated. -/
def Dev.setDivisor (d : Dev) (i v : Nat) : Dev :=
  { d with pm := { d.pm with divisors := if v = 0 then tdel d.pm.divisors i else tput d.pm.divisors i v, rampAt := tput d.pm.rampAt i d.now } }

/-- The next divisor on the way from one to another (R400): 64 first, halved up to full rate, doubled down to the gate. -/
def nextDivisor (cur target : Nat) : Nat :=
  if target = 0 then if 64 ≤ cur then 0 else 2 * cur
  else if cur = 0 then 64
  else max target (cur / 2)

def execClockRampStep (island : Nat) (s : State) := liftDev (fun d =>
  let cur := tgetD d.pm.divisors island 0
  let target := if d.islandOn island then islandDiv island else 0
  if 53 ≤ island || cur = target || !d.pm.rootLocked then d
  else (d.till (tgetD d.pm.rampAt island 0 + nsTicks (d.fld 0x30004 0 16))).setDivisor island (nextDivisor cur target)) s

/-- The root PLL is locked: the timebase leaves the reference, and the islands that run start at divisor 64. -/
def Dev.rootLock (d : Dev) : Dev :=
  let d := { d with pm := { d.pm with rootLocked := true, tbFromRef := false } }
  forEach ((List.range 53).filter d.islandOn) (fun i d => d.setDivisor i 64) d

def execRootPllLock (s : State) := liftDev (fun d =>
  if d.pm.oscDone && !d.pm.rootLocked && d.pm.state ≠ 3 then d.rootLock else d) s

/-- Loss of lock: every derived clock stops, and links break; the loss is taken to last more than 1 µs (log entry 30). -/
def execRootPllLockLoss (s : State) := liftDev (fun d =>
  if !d.pm.rootLocked then d
  else
    let d := { d with pm := { d.pm with rootLocked := false, tbFromRef := true, divisors := [] } }
    let d := forEach ((List.range 24).filter fun l => (d.link l).state == 6) (fun l d => d.linkBreak l 8) d
    if d.pm.state = 0 then d else d.logSrc 0x0106) s

/-! ## Envelope profiles (R382 to R385) -/

/-- Power limit of a profile in W, and the links it powers (Table 18.1). -/
def profileWatts (p : Nat) : Nat := if p = 0 then 150 else if p = 1 then 350 else if p = 2 then 500 else 700
def profileLinks (p : Nat) : Nat := if p = 0 then 12 else if p = 1 then 16 else 24

/-- The links a profile powers: MIRROR and PEER ones, then the preferred, then the others (R383). -/
def Dev.poweredLinks (d : Dev) (p : Nat) : List Nat :=
  let role := fun l => d.glFld l 0 28 2 != 0
  let pref := fun l => bit (d.reg 0x20014) l
  let all := List.range 24
  (all.filter role ++ all.filter (fun l => !role l && pref l) ++ all.filter fun l => !role l && !pref l).take (profileLinks p)

/-- The links follow the profile: one that loses power breaks and is held in DISABLED, one that gains it trains. -/
def Dev.linksFollow (d : Dev) : Dev :=
  let on := d.poweredLinks d.pm.profile
  let was := d.pm.linksOff
  let off := (List.range 24).filter fun l => !nmem on l
  let d := { d with pm := { d.pm with linksOff := off } }
  let d := forEach (off.filter fun l => (d.link l).state != 0) (fun l d => (d.linkBreak l 8).linkDetect l) d
  forEach (on.filter fun l => nmem was l && (d.link l).state == 0 && bit (d.reg (0x400000 + 0x10000 * l)) 31) (fun l d => d.linkDetect l) d

/-- The panels follow power: an OFF panel that has it is zeroed and IDLE, and an IDLE one without it OFF (R204, R383). Jobs
on panels that lose it end ABORTED. -/
def Dev.panelsFollow (d : Dev) : Dev :=
  let on := d.poweredPanels
  let d := forEach ((d.jobs.jobs.filter fun j => j.2.mask.any fun p => !nmem on p).map (·.1)) (fun id d => d.jobEnd id stAborted 4 (idResult id)) d
  forEach (List.range 16) (fun p d =>
    let st := (d.panel p).state
    if st = psOff && nmem on p then (d.panelDrained p).setPanel p fun q => { q with state := psIdle }
    else if st = psIdle && !nmem on p then d.setPanel p fun q => { q with state := psOff }
    else d) d

/-- The set-point of VDD_CORE with the guardband in force (R395). -/
def Dev.coreSet (d : Dev) : Nat := clampN 600 900 ((profileMv d.pm.profile + d.age.force.coreGb) / 5 * 5)

/-- Change the profile. Where it powers fewer panels, queued jobs that no longer fit are refused (R204). -/
def Dev.profileTo (d : Dev) (p : Nat) : Dev :=
  let was := d.profilePanels
  let d := ({ d with pm := { d.pm with profile := p } }).panelsFollow.linksFollow
  let d := { d with pm := { d.pm with vcoreMv := d.coreSet } }
  let d := if d.profilePanels < was then d.refuseQueued else d
  d.log 0x0101 (code := p)

/-- Serve a descriptor of the power manager: in Run, in its turn, from the lease holder. -/
def Dev.pmDesc (d : Dev) (ring idx op : Nat) (f : List Byte → Dev → Dev) : Dev :=
  if d.pmHead ≠ some (ring, idx) || d.pm.state ≠ 1 then d
  else
    d.withDesc ring idx op fun b d => d.gated ring idx false [] fun d =>
      if !d.hasLease (d.ringOwner ring) then d.completeDesc ring idx stDenied 8 0 0 else f b d

def execProfileSet (ring idx : Nat) (s : State) := liftDev (fun d =>
  d.pmDesc ring idx 0x71 fun b d =>
    let want := field b 8 1 % 4
    let p := min want Config.maxProfile
    let d := (if p = want then d else d.clamped 1 0).profileTo p
    d.completeDesc ring idx stDone 0 p d.poweredPanels.length) s

/-! ## Entering Bank and Ember (R386, R387) -/

/-- Something POWER_STATE may not interrupt is in progress (Table 18.3 step 3). -/
def Dev.entryBarred (d : Dev) : Bool :=
  d.pool.stackMove.isSome || d.pool.migrations.any (fun g => !g.done) || !d.far.moves.isEmpty || d.far.ops.any (·.drive.isSome) || d.sec.state == 4 ||
  d.host.rings.any fun r => r.2.started.any fun x => x.claimed && [0x13, 0x14, 0x51, 0x52, 0x67].contains x.op

/-- Entry begins (Table 18.4 points 1 and 2). -/
def Dev.entryBegin (d : Dev) (target timer : Nat) (c : Caller) : Dev :=
  let d := { d with pm := { d.pm with state := 4, entry := some (target, d.now, timer, c), entryLate := false } }
  let d := if d.test.loopback.isSome then d.loopAbort 4 else d
  forEach ((d.jobs.jobs.filter fun j => 1 ≤ j.2.stage).map (·.1)) (fun id d => d.jobEnd id stAborted 4 (idResult id)) d

def execPowerState (ring idx : Nat) (s : State) := liftDev (fun d =>
  d.pmDesc ring idx 0x70 fun b d =>
    let target := if field b 8 1 = 2 then 3 else 2
    let timer := min (field b 12 4) 86400000
    let d := if field b 8 1 = 1 || field b 8 1 = 2 then d else d.clamped 1 0
    let d := if timer = field b 12 4 then d else d.clamped 1 0
    if d.mir.role ≠ 0 then d.completeDesc ring idx stDenied 0x90 0 0
    else if d.entryBarred then d.completeDesc ring idx stDenied 0x91 0 0
    else if target = 3 && d.fld 0x20018 0 2 = 0 && timer = 0 then d.completeDesc ring idx stDenied 0x92 0 0
    else d.entryBegin target timer (.desc ring idx)) s

/-- Descriptors that entry waits for: started, not those the power manager holds, and not jobs still queued. -/
def Dev.entryWaits (d : Dev) : List (Nat × Nat × Nat) :=
  let queued := fun (r i : Nat) => d.jobs.queue.any fun id => match d.job id with
    | some j => j.ring == r && j.idx == i
    | none => false
  ((d.host.rings.map fun r => (r.2.started.filter fun x =>
    !(d.pm.queue.contains (r.1, x.idx)) && !(x.op == 0x20 && (!x.claimed || queued r.1 x.idx)) && x.op != 0x21).map fun x => (r.1, x.idx, x.op)).flatten)

def execEntryTimeout (s : State) := liftDev (fun d =>
  match d.pm.entry with
  | none => d
  | some (_, since, _, _) =>
    if d.pm.state ≠ 4 || d.pm.entryLate then d
    else
      let d := d.till (since + msTicks (d.fld 0x20000 16 8))
      let d := { d with pm := { d.pm with entryLate := true } }
      forEach (d.entryWaits.filter fun x => abortable x.2.2) (fun x d => d.stopOp x.1 x.2.1 4) d) s

/-- Everything in progress has finished (Table 18.4 points 3 and 4). -/
def Dev.entryDrained (d : Dev) (target : Nat) : Bool :=
  d.entryWaits.isEmpty && d.far.cmds.isEmpty && (d.far.cached.all fun c => c.2.state != 0) && d.fab.devReqs.isEmpty && d.fab.waitReqs.isEmpty &&
  d.coh.txns.isEmpty && d.coh.recalls.isEmpty && d.gru.lookups.isEmpty && d.host.outputs.isEmpty && d.pool.parked.isEmpty &&
  (target != 3 || d.fab.dedup.all fun e => e.2.answer.isSome)

/-- The last hold of a dedup record. -/
def Dev.dedupEnd (d : Dev) : Nat := d.fab.dedup.foldl (fun t e => max t e.2.expiry) d.now

/-- The stacks enter self-refresh with nothing queued and nothing owed (R341). -/
def Dev.stacksSleep (d : Dev) : Dev :=
  forEach (List.range 6) (fun s d =>
    if (d.stack s).state ≠ 2 then d
    else (d.stackState s 3).setStack s fun k => { k with queue := [], owed := [], throttles := [], down := [] }) d

/-- What Ember loses: link and upstream sessions' keys, translations, the directory cache and the dedup windows; clocks and
transmitters stop (R390, Table 18.4 point 7). -/
def Dev.emberDown (d : Dev) : Dev :=
  let d := forEach ((List.range 24).filter fun l => (d.link l).state != 0) (fun l d =>
    let d := if (d.link l).state = 6 then d.linkBreak l 8 else d
    d.setLink l fun k => { state := 0, reason := k.reason }) d
  { d with fab := { d.fab with dedup := [] }, mov := { d.mov with cache := [] },
           coh := { d.coh with cache := [], cacheNru := [] },
           pm := { d.pm with txOff := true, rootLocked := false, tbFromRef := true, divisors := [] } }

/-- The state is entered (Table 18.4 points 5 to 7): the last record, self-refresh, and a wake at once if a source has
arrived. -/
def Dev.entryDone (d : Dev) (target timer : Nat) (c : Caller) : Dev :=
  let d := if target = 3 then (d.till d.dedupEnd) else d
  let d := (d.complete c stDone 0 0 0).eccDisarm.log 0x0100 (code := target) (arg0 := d.pm.wakeSrc)
  let d := d.stacksSleep
  let v := d.draw
  let d : Dev := { v.2 with pm := { v.2.pm with state := target, entry := none, wakeAt := (if timer = 0 then none else some (d.now + msTicks timer)),
                                                vcoreMv := (if target = 2 then 600 + v.1 % 61 * 5 else 0), depth := 0 } }
  let d := d.panelsFollow.refuseQueued
  let d := if target = 3 then d.emberDown else d
  if d.pm.wakeDue = 0 then d
  else { d with pm := { d.pm with state := 5, wakeFrom := target, wakeSrc := d.pm.wakeDue, wakeDue := 0, wakeAt := none } }

def execEntryDrained (s : State) := liftDev (fun d =>
  match d.pm.entry with
  | none => d
  | some (target, _, timer, c) => if d.pm.state = 4 && d.entryDrained target then d.entryDone target timer c else d) s

def execLinkTxPowerLower (link : Nat) (s : State) := liftDev (fun d =>
  if d.pm.state = 2 && (d.link link).state = 6 && (d.queue link).isEmpty then d.setLink link fun k => { k with lowered := true } else d) s

/-! ## Waking (R388 to R391, R448) -/

/-- The source's enable, and the states it can arrive in (Table 18.5). -/
def Dev.wakeSource (d : Dev) (src : Nat) : Bool :=
  if src = 1 || src = 2 then d.pm.state != 3
  else if src = 3 then bit (d.reg 0x20018) 0
  else if src = 4 then bit (d.reg 0x20018) 1
  else false

def execWake (source : Nat) (s : State) := liftDev (fun d => if d.wakeSource source then d.wakeLatch source else d) s

def execWakeTimer (s : State) := liftDev (fun d =>
  match d.pm.wakeAt with
  | none => d
  | some t =>
    if d.pm.state ≠ 2 && d.pm.state ≠ 3 then d
    else let d := (d.till t).wakeLatch 5; { d with pm := { d.pm with wakeAt := none } }) s

/-- Blocks whose registers an Ember wake leaves alone: those of the always-on domain, and the counters, which TB_COUNT and
PERF_CNT are not part of here (R390, R448; log entry 31). -/
def alwaysOn (off : Nat) : Bool := off < 0x20000 || (0x50000 ≤ off && off < 0x60000) || (0x980000 ≤ off && off < 0xA00000)

/-- RC fields of the other blocks return to 0, as do the RO values that are stored (R448). -/
def Dev.emberRegs (d : Dev) : Dev :=
  let clear := fun (e : Nat × Nat) =>
    let o := e.1 % 0x2000000
    if alwaysOn o then e
    else match regAt o with
      | some r => (e.1, (r.flds.filter (·.acc == .rc)).foldl (fun v f => setBits v f.lo f.n 0) e.2)
      | none => e
  { d with regs := d.regs.map clear, ecc := { d.ecc with pos := [], castonRows := [] },
           age := { d.age with retrainDue := [], exhausted := false } }

/-- Ember's own part of a wake: registers, regulator list, drives by serial number, links. -/
def Dev.emberUp (d : Dev) (found : List Nat) : Dev :=
  let d := d.emberRegs
  let d := { d with pm := { d.pm with txOff := false, rootLocked := true, tbFromRef := false,
                                      regsNow := (List.range 16).map fun k => (k, d.reg (0x20100 + 4 * k)) } }
  let d := forEach ((List.range 53).filter d.islandOn) (fun i d => d.setDivisor i 64) d
  let d := forEach (d.far.drives.filter fun e => !nmem found e.1) (fun e d => d.driveGone e.1 e.2) d
  forEach ((List.range 24).filter fun l => bit (d.reg (0x400000 + 0x10000 * l)) 31 && !d.linkHeld l) (fun l d => d.linkDetect l) d

/-- The device is back in Run; a stack whose self-refresh exit fails is FAILED (R331). The runtime copy that fails its check is reloaded, which takes longer and changes nothing
else. -/
def Dev.wakeDone (d : Dev) (found exitFailed : List Nat) : Dev :=
  let ember := d.pm.wakeFrom = 3
  let d := forEach (List.range 6) (fun s d =>
    if (d.stack s).state ≠ 3 then d
    else if nmem exitFailed s then d.failStack s 1
    else (d.stackState s 2).setStack s fun k => { k with owed := [], trackers := [], mitigated := [], badCommands := 0 }) d
  let d := { d with pm := { d.pm with state := 1, wakeAt := none } }
  let d := if ember then d.emberUp found else d
  let d := d.planRelax
  let d := { d with pm := { d.pm with vcoreMv := d.coreSet, vsramMv := 800 + d.age.force.sramGb } }
  let d := d.panelsFollow.log 0x0100 (code := 1) (arg0 := d.pm.wakeSrc)
  if d.age.planDue then { d with age := { d.age with planDue := false } }.planRun 1 else d

def execWakeDone (_runtimeOk : Bool) (drivesFound exitFailed : List Nat) (s : State) := liftDev (fun d =>
  if d.pm.state = 5 then d.wakeDone drivesFound exitFailed else d) s

/-! ## The damper (R393, R394) -/

/-- LIMIT_W: the least of the profile's limit, the alert limit and the thermal term. -/
def Dev.limitW (d : Dev) : Nat :=
  let base := profileWatts d.pm.profile
  let hot := d.pm.junction - d.fld 0x2000C 24 8
  let therm := if hot = 0 then base else max 100 (base * (100 - 5 * hot) / 100)
  min (min base therm) (if d.pm.alert then d.fld 0x20008 16 16 else base)

/-- The damper engages: counted, and reported at most once a millisecond (R403). -/
def Dev.damp (d : Dev) : Dev :=
  let d := if d.pm.depth = 0 then d.bump 0x20020 16 else d
  let due := match d.pm.dampEvent with
    | some t => t + msTicks 1 ≤ d.now
    | none => true
  let new := d.pm.depth == 0
  let d := { d with pm := { d.pm with depth := 16, releaseAt := d.now + usTicks 20 } }
  if new && due then { d.log 0x0102 with pm := { d.pm with dampEvent := some d.now } } else d

/-- One cycle of the damper on an estimate in W: it holds past the limit, and 2 % or more below it gives back a sixteenth of
its depth every 20 µs. The Knit cap of the plan is applied here (R409). -/
def Dev.damperCycle (d : Dev) (watts : Nat) : Dev :=
  let d := { d with age := { d.age with force := { d.age.force with knitCap := d.age.aim.knitCap } } }
  if d.limitW < watts then d.damp
  else if d.pm.depth = 0 then d
  else if d.limitW * 98 < watts * 100 then { d with pm := { d.pm with releaseAt := d.now + usTicks 20 } }
  else if d.pm.releaseAt ≤ d.now then { d with pm := { d.pm with depth := d.pm.depth - 1, releaseAt := d.now + usTicks 20 } }
  else d

def execDamperCycle (watts : Nat) (s : State) := liftDev (fun d => if d.pm.state = 1 then d.damperCycle watts else d) s

/-- PWR_ALERT_N is asserted or released (R394, R403). -/
def Dev.alertTo (d : Dev) (on : Bool) : Dev :=
  if d.pm.alert = on || !d.pm.aonGood then d
  else
    let d := { d with pm := { d.pm with alert := on } }
    (if on then d.bump 0x20020 0 else d).log 0x0103 (code := b2n on)

def execPwrAlert (s : State) := liftDev (fun d => d.alertTo true) s
def execPwrAlertRelease (s : State) := liftDev (fun d => d.alertTo false) s

/-! ## Regulators (R395, R396) -/

/-- A rail has a regulator in the list in force. -/
def Dev.railListed (d : Dev) (rail : Nat) : Bool := d.pm.regsNow.any fun e => bit e.2 31 && bits e.2 24 4 == rail

/-- The interfaces on a failed rail are disabled: Glador links, PCIe ports, or the die-to-die modules. -/
def Dev.railDown (d : Dev) (rail : Nat) : Dev :=
  let d := { d with pm := { d.pm with railFaults := nadd d.pm.railFaults rail } }
  if rail = 6 || rail = 7 then
    forEach ((List.range 24).filter fun l => (d.link l).state != 0) (fun l d => (d.linkBreak l 8).linkDetect l) d
  else if rail = 8 then forEach d.far.drives (fun e d => d.driveGone e.1 e.2) ((d.portReset 0).portReset 1)
  else if rail = 2 then (d.flueDown 0).flueDown 1
  else d

/-- A reading of a regulator and of the sensors (R394 to R396). -/
def Dev.regulatorRead (d : Dev) (rail : Nat) (faulty : Bool) (junction watts : Nat) : Dev :=
  let hot := d.fld 0x2000C 24 8 < junction
  let change := hot != d.pm.throttle
  let d := { d with pm := { d.pm with junction := junction, watts := watts, throttle := hot } }
  let d := if change then d.log 0x0104 (code := b2n hot) (arg0 := junction) else d
  if !faulty then d
  else
    let d := ({ d with pm := { d.pm with faultBit := true } }).log 0x0105 (code := rail)
    if rail = 0 || rail = 1 || (3 ≤ rail && rail ≤ 5) then d.powerFaultStop else d.railDown rail

def execRegulatorPoll (rail : Nat) (faulty : Bool) (junction watts : Nat) (s : State) := liftDev (fun d =>
  if d.boot.ready && (d.pm.state = 1 || d.pm.state = 2 || d.pm.state = 4) && d.railListed rail then d.regulatorRead rail faulty junction watts
  else d) s

def execAvsUpdate (s : State) := liftDev (fun d =>
  if d.pm.state ≠ 1 then d
  else
    let f := { d.age.force with coreGb := d.age.aim.coreGb, sramGb := d.age.aim.sramGb }
    let d := { d with age := { d.age with force := f } }
    let d := { d with pm := { d.pm with vcoreMv := d.coreSet, vsramMv := 800 + f.sramGb } }
    d.emit (.board 0 0 d.pm.vcoreMv)) s

end Sys2Proof.Machine
end

