-- ==== Sys2Proof/Machine/Events.lean ====
section
/-! DEFINITION. Events, interrupts of the control cores, board inputs and counters (chapter 20). -/

namespace Sys2Proof.Machine

/-! ## The journal (R418, R419) -/

/-- The 32 bytes of an entry (Table 20.2) with journal index `i`. -/
def Event.bytes (e : Event) (i : Nat) : List Byte :=
  natBytes 8 e.time ++ natBytes 4 i ++ natBytes 2 e.source ++ natBytes 2 e.origin ++ natBytes 2 e.code ++ natBytes 1 e.status ++
  natBytes 1 e.flags ++ natBytes 4 e.arg0 ++ natBytes 8 e.arg1

/-- A sample entry (R421). -/
def Event.isSample (e : Event) : Bool := e.source == 0x04F0 || e.source == 0x09F0

/-- A row-disturbance throttle (R345). -/
def Event.isThrottle (e : Event) : Bool := 0x0200 ≤ e.source && e.source < 0x0260 && e.source % 16 == 2

/-- The origin lies in the tenant range. -/
def Dev.inTenant (d : Dev) (n : Nat) : Bool := d.sec.tenantLo ≤ n && n ≤ d.sec.tenantHi

/-- The management hosts' view is that of the tenant, or everything (R376). -/
def Dev.mgmtExact (d : Dev) : Bool := d.personality != 2 || bit d.sec.sealFlags 1

/-- What a reader gets of an entry (R345, R420, Table 20.3). -/
def Dev.viewEvent (d : Dev) (node : Nat) (e : Event) : Option Event :=
  let vendor := 0x09C0 ≤ e.source && e.source ≤ 0x09EF
  if vendor && !(d.personality != 2 && 1 ≤ d.sec.debugLevel) then none
  else if e.isSample && !d.hasFeature node 14 then none
  else if (nodePort node).isSome then
    if d.mgmtExact then some e
    else if e.isSample then none
    else if d.inTenant e.origin then some { e with origin := 0, code := 0, arg0 := 0, arg1 := 0, flags := Nat.lor e.flags 2 }
    else some e
  else if e.origin = node then some e
  else if d.personality = 2 && !e.isThrottle && (d.inTenant e.origin || e.origin = 0xFFF) then some e
  else none

/-- A ring's filter admits the source (R421). -/
def Ring.filters (r : Ring) (e : Event) : Bool :=
  (!e.isSample || r.samples) && (r.ranges.isEmpty || r.ranges.any fun x => x.1 ≤ e.source && e.source ≤ x.2)

/-- Copy an entry to an event ring: lost and counted where the ring is full or in FAULT. -/
def Dev.copyEvent (d : Dev) (n i : Nat) (e : Event) : Dev :=
  let r := d.ring n
  if !r.filters e then d
  else if r.state = rsFault then (d.bump 0x60008 0).setRing n fun r => { r with dropped := true }
  else if r.state ≠ rsActive then d
  else if r.slots ≤ r.used + r.held.length then (d.bump 0x60008 0).setRing n fun r => { r with dropped := true }
  else
    let e := if r.dropped then { e with flags := Nat.lor e.flags 1 } else e
    (d.setRing n fun r => { r with dropped := false, held := r.held ++ [{ bytes := e.bytes i, ring := 1024, idx := i }] }).flushRing n

/-- Send an entry to a session's node that has accepted EVENT_RING and enabled no event ring (R96). -/
def Dev.sendEvent (d : Dev) (node i : Nat) (e : Event) : Dev :=
  let has := d.host.rings.any fun r => r.2.kind == 2 && r.2.enable && d.ringOwner r.1 == node
  if e.origin ≠ node || !d.hasFeature node 15 || has then d
  else (d.request { cls := 0, opcode := 0x3C, src := d.ownNode, dst := node, tag := 0, addr := 0, len := 31, data := e.bytes i } 0 i).2

/-- Deliver an entry to its readers. -/
def Dev.deliverEvent (d : Dev) (i : Nat) (e : Event) : Dev :=
  let rings := (d.host.rings.filter fun r => r.2.kind == 2).map (·.1)
  let d := forEach rings (fun n d =>
    match d.viewEvent (d.ringOwner n) e with
    | some x => d.copyEvent n i x
    | none => d) d
  forEach (d.host.sessions.map (·.2.node)) (fun node d =>
    match d.viewEvent node e with
    | some x => d.sendEvent node i x
    | none => d) d

/-- The state of a distributor input (Table 20.4). -/
def Dev.inputState (d : Dev) (n : Nat) : Nat := tgetD d.irq.state n 0
def Dev.setInput (d : Dev) (n st : Nat) : Dev :=
  { d with irq := { d.irq with state := if st = 0 then tdel d.irq.state n else tput d.irq.state n st } }

/-- Raise an input: INACTIVE becomes PENDING, ACTIVE becomes ACTIVE_AND_PENDING. -/
def Dev.raiseInput (d : Dev) (n : Nat) : Dev :=
  d.setInput n (if d.inputState n = 0 then 1 else if d.inputState n = 2 then 3 else d.inputState n)

/-- The input a source raises (R422). -/
def inputOf (source : Nat) : Nat := source / 256 * 24 + source % 256 % 24

/-- Write the first held entry: into the journal, to its readers, and to the distributor. -/
def Dev.journalWrite (d : Dev) : Dev :=
  let e := { d.evt with held := d.evt.buffer.foldl (fun h x => insertEvent x h) d.evt.held, buffer := [] }
  match e.held with
  | [] => { d with evt := e }
  | x :: rest =>
    let x := if e.lost then { x with flags := Nat.lor x.flags 1 } else x
    let kept := if 65536 ≤ e.head then tdel e.journal (e.head - 65536) else e.journal
    let d := ({ d with evt := { e with held := rest, lost := false, head := e.head + 1,
                                       journal := tput kept e.head x } }).till (x.time + usTicks 2)
    let d := d.deliverEvent e.head x
    if x.source / 256 < 10 then d.raiseInput (inputOf x.source) else d

def execJournalWrite (s : State) := liftDev (fun d => if d.stacksServing then d.journalWrite else d) s

/-! ## Interrupts of the control cores (R422 to R426) -/

/-- The core-side state of a core. -/
def Dev.core (d : Dev) (c : Nat) : CoreSt := tgetD d.irq.cores c {}
def Dev.setCore (d : Dev) (c : Nat) (f : CoreSt → CoreSt) : Dev :=
  { d with irq := { d.irq with cores := tput d.irq.cores c (f (d.core c)) } }

/-- IRQ_SRC_CFG of an input: priority, target, class. -/
def Dev.inPrio (d : Dev) (n : Nat) : Nat := d.fld (0x50000 + 4 * n) 0 4
def Dev.inCore (d : Dev) (n : Nat) : Nat := d.fld (0x50000 + 4 * n) 4 3
def Dev.inFast (d : Dev) (n : Nat) : Bool := bit (d.reg (0x50000 + 4 * n)) 7

/-- A fast handler runs, and the running priority (R423). -/
def CoreSt.inFast (c : CoreSt) : Bool := c.handlers.any (·.fast)
def CoreSt.prio (c : CoreSt) : Nat := match c.handlers with
  | [] => 0
  | h :: _ => h.prio

/-- A pending input qualifies on its core. -/
def Dev.qualifies (d : Dev) (c n : Nat) : Bool :=
  let k := d.core c
  d.inputState n == 1 && d.inCore n == c && d.inPrio n != 0 && d.fld (0x50400 + 0x10 * c) 0 4 < d.inPrio n && !k.inFast &&
  (d.inFast n || k.prio < d.inPrio n)

/-- Of several inputs the one with the highest priority, the lowest number on a tie. -/
def Dev.bestInput (d : Dev) (l : List Nat) : Option Nat :=
  l.foldl (fun b n => match b with
    | none => some n
    | some m => if d.inPrio m < d.inPrio n then some n else some m) none

/-- A core takes an input: it jumps to the vector (R424), and the input is ACTIVE; one that is taken again after its EOI is so already, and a
raising since then stays pending (R426). -/
def Dev.takeInput (d : Dev) (c n : Nat) : Dev :=
  let vec := d.fld (0x50400 + 0x10 * c) 13 19 * 8192 + (if d.inFast n then 0x1000 else 0) + n * 16
  (if nmem (d.core c).again n then d else d.setInput n 2).setCore c fun k =>
    { k with pc := vec, handlers := { input := n, fast := d.inFast n, prio := d.inPrio n } :: k.handlers, again := ndel k.again n }

/-- What a core takes next: a re-entry, unless an input of higher priority qualifies (R423, R426). -/
def Dev.nextInput (d : Dev) (c : Nat) : Option Nat :=
  let new := d.bestInput ((List.range 256).filter (d.qualifies c))
  match d.bestInput ((List.range 256).filter fun n => nmem (d.core c).again n), new with
  | some a, some n => if d.inPrio a < d.inPrio n then some n else some a
  | some a, none => some a
  | none, x => x

def execIrqTake (core : Nat) (s : State) := liftDev (fun d =>
  if 8 ≤ core then d
  else
    match d.nextInput core with
    | some n => d.takeInput core n
    | none => d) s

/-- A write of IRQ_CORE_EOI (R426). -/
def Dev.eoi (d : Dev) (c n : Nat) : Dev :=
  let k := d.core c
  if !k.handlers.any (·.input == n) then d
  else
    let st := d.inputState n
    (d.setInput n (if st = 3 then 2 else 0)).setCore c fun k =>
      { k with handlers := k.handlers.eraseP (·.input == n), again := if st = 3 then nadd k.again n else k.again }

def execIrqCoreEoi (core input : Nat) (s : State) := liftDev (fun d => if core < 8 then d.eoi core (input % 256) else d) s
def execIrqSwi (raise : Nat) (s : State) := liftDev (fun d =>
  forEach ((List.range 8).filter (bit raise)) (fun j d => d.raiseInput (248 + j)) d) s

/-! ## Board inputs (R427, R428) -/

/-- A board input: 0 to 3 IRQ_IN_N, 4 WAKE_IN_N, 5 PWR_ALERT_N. -/
def Dev.boardInput (d : Dev) (i : Nat) : BoardInput := tgetD d.irq.inputs i {}
def Dev.setBoard (d : Dev) (i : Nat) (b : BoardInput) : Dev := { d with irq := { d.irq with inputs := tput d.irq.inputs i b } }

def execBoardInputEdge (input : Nat) (s : State) := liftDev (fun d =>
  let b := d.boardInput input
  if 6 ≤ input || !d.pm.aonGood || b.latched || d.now < b.rearmAt then d
  else d.setBoard input { b with latched := true, edgeAt := d.now }) s

/-- An accepted edge raises its input and acts as its chapter says. -/
def Dev.edgeAccepted (d : Dev) (i : Nat) : Dev :=
  let d := d.raiseInput (if i < 4 then 240 + i else 240 + i)
  if i = 4 then if d.wakeSource 3 then d.wakeLatch 3 else d
  else if i = 5 then d.alertTo true
  else d

/-- The input has been low for a number of 10 ns ticks since its edge. -/
def execFilterAccept (input lowTicks : Nat) (s : State) := liftDev (fun d =>
  let b := d.boardInput input
  let n := d.fld (0x50500 + 4 * input) 0 8
  if 6 ≤ input || !b.latched then d
  else if n ≤ lowTicks then
    let d := d.till (b.edgeAt + 8 * n)
    (d.setBoard input { latched := false, edgeAt := b.edgeAt, rearmAt := d.now + 8 * n }).edgeAccepted input
  else (d.setBoard input { b with latched := false }).bump (0x50500 + 4 * input) 8) s

/-! ## Counters and their descriptors (R430, R431, R435) -/

/-- Blocks of a counter group (Table 20.6). -/
def groupBlocks (g : Nat) : Nat := if g = 0 then 7 else if g = 1 || g = 2 then 2 else if g = 15 then 0 else 1

/-- Every counter that exists: index and KIND, ascending (R430). -/
def counterList : List (Nat × Nat) :=
  ((List.range 15).map fun g =>
    ((List.range (groupBlocks g)).map fun k => (64 * g + k, 0)) ++
    ((List.range (mirrorFields g).length).map fun k => (64 * g + 8 + k, 1))).flatten ++
  (List.range 8).map fun i => (960 + i, if i = 1 || i = 2 then 2 else 1)

/-- A reader's view of device-wide counts is coarsened (R376, R377). -/
def Dev.coarse (d : Dev) (node : Nat) : Bool := if (nodePort node).isSome then !d.mgmtExact else node != 0 && d.personality == 1

/-- A count as a reader sees it: rounded down to a multiple of 2^K in a coarsened view. -/
def Dev.seenCount (d : Dev) (node v : Nat) : Nat :=
  if d.coarse node then v / 2 ^ d.fld 0x980008 0 5 * 2 ^ d.fld 0x980008 0 5 else v

/-- The 8 bytes PERF_READ gives for a counter. -/
def Dev.counterBytes (d : Dev) (node i : Nat) : List Byte :=
  natBytes 8 (d.seenCount node (tgetD d.perf.counts i 0) + b2n (nmem d.perf.ovf i) * 2 ^ 63)

def execEvtFilter (ring idx : Nat) (s : State) := liftDev (fun d =>
  d.withDesc ring idx 0x78 fun b d => d.gated ring idx false [15] fun d =>
    let n := field b 8 2 % 1024
    if (d.ring n).kind ≠ 2 || d.ringOwner n ≠ d.ringOwner ring then d.completeDesc ring idx stDenied 0xA0 0 0
    else
      let k := min 4 (field b 10 1)
      let raw := (List.range k).map fun i => (field b (16 + 4 * i) 2, field b (18 + 4 * i) 2)
      let bad := (raw.filter fun r => r.2 < r.1).length + b2n (k != field b 10 1) + b2n (1 < field b 11 1)
      let d := (List.range bad).foldl (fun d _ => d.clamped 0 4) d
      (d.setRing n fun r => { r with ranges := raw.map fun x => (x.1, max x.1 x.2), samples := field b 11 1 == 1 }).completeDesc ring idx stDone 0 0 0) s

/-- The entries a reader gets from a journal index on, at most `room`, and the index after the last one looked at. -/
def Dev.readJournal (d : Dev) (node room : Nat) : List (Nat × Event) → Nat → List (List Byte) × Nat
  | [], next => ([], next)
  | (i, e) :: r, next =>
    if room = 0 then ([], next)
    else
      match d.viewEvent node e with
      | some x => let t := d.readJournal node (room - 1) r (i + 1); (x.bytes i :: t.1, t.2)
      | none => d.readJournal node room r (i + 1)

def execEvtRead (ring idx : Nat) (s : State) := liftDev (fun d =>
  d.withDesc ring idx 0x79 fun b d => d.gated ring idx false [15] fun d =>
    let len := clampGrain 32 32 2097152 (field b 48 4)
    let d := if len = field b 48 4 then d else d.clamped 0 4
    let from_ := max (field b 16 8) (d.evt.head - 65536)
    let x := d.readJournal (d.ringOwner ring) (len / 32) (d.evt.journal.filter fun e => from_ ≤ e.1) (min from_ (max from_ d.evt.head))
    d.output (.desc ring idx) (field b 40 8) x.1.flatten stDone 0 x.2 x.1.length (unit := 32)) s

/-- A record of PERF_LIST; the NAME bytes are the device's (log entry 32). -/
def execPerfList (ring idx : Nat) (s : State) := liftDev (fun d =>
  d.withDesc ring idx 0x7A fun b d => d.gated ring idx false [] fun d =>
    let len := clampGrain 16 16 16384 (field b 48 4)
    let d := if len = field b 48 4 then d else d.clamped 0 5
    let recs := (counterList.take (len / 16)).map fun c =>
      natBytes 2 c.1 ++ natBytes 1 (c.1 / 64) ++ natBytes 1 c.2 ++ (List.range 12).map fun i => Config.freeByte (c.1 + 1024 * i) i
    d.output (.desc ring idx) (field b 40 8) recs.flatten stDone 0 counterList.length recs.length (unit := 16)) s

def execPerfRead (ring idx : Nat) (s : State) := liftDev (fun d =>
  d.withDesc ring idx 0x7B fun b d => d.gated ring idx false [] fun d =>
    let node := d.ringOwner ring
    if bit (field b 8 1) 0 then
      let own := ((List.range 8).map fun i => natBytes 8 (tgetD d.perf.requester (node * 8 + i) 0)).flatten
      d.output (.desc ring idx) (field b 40 8) own stDone 0 d.now 8 (unit := 8)
    else
      let lo := field b 16 2 % 1024
      let n := clampN 1 1024 (field b 18 2)
      let d := if n = field b 18 2 then d else d.clamped 0 5
      let n := min n (1024 - lo)
      d.output (.desc ring idx) (field b 40 8) ((List.range n).map fun i => d.counterBytes node (lo + i)).flatten stDone 0 d.now n (unit := 8)) s

def execPtmDialogue (port master : Nat) (s : State) := liftDev (fun d =>
  if 1 < port || !d.boot.ready then d
  else (d.setReg (0x10010 + 0x10 * port) d.now).setReg (0x10018 + 0x10 * port) (master % 2 ^ 64)) s

end Sys2Proof.Machine
end

