-- ==== Sys2Proof/Machine/Boot.lean ====
section
/-! DEFINITION. Start-up, PERST#, partial resets and the node ID (chapters 21 and 22, R466, R467). START_UP runs points 0 to 10 of
Table 21.3 at once and leaves the device in phase LINKS; READY is point 11. -/

namespace Sys2Proof.Machine

/-! ## PERST# (R438, R439) -/

/-- PERST# is asserted on every enabled port. -/
def Dev.allPerst (d : Dev) : Bool := (d.boot.perst0 || !portEnabled 0) && (d.boot.perst1 || !portEnabled 1)

/-- The code LAST_STOP holds after holding (Table 21.7). -/
def Dev.stopKept (d : Dev) : Nat := if d.boot.ready then 0 else if d.boot.phase = 9 then 3 else d.boot.lastStop

def execPerstAssert (port : Nat) (s : State) := liftDev (fun d =>
  if !portEnabled port || (if port = 0 then d.boot.perst0 else d.boot.perst1) then d
  else
    let d := { d with boot := if port = 0 then { d.boot with perst0 := true } else { d.boot with perst1 := true } }
    if d.allPerst || d.pm.state = 2 || d.pm.state = 3 || d.pm.state = 5 then d.hold d.stopKept
    else if d.boot.ready then d.portReset port
    else d) s

/-! ## Start-up (R440 to R445) -/

/-- Start-up stops: the device serves configuration requests and the DEV block only (R444). -/
def Dev.bootStop (d : Dev) (code : Nat) : Dev :=
  { d with boot := { d.boot with phase := 9, stop := code, testEn := code == 6 }
           links := [], far := { media := d.far.media, tweaks := d.far.tweaks } }.log 0x0901 (code := code)

/-- The slot the ROM chooses with BOOT_SEL 0: the valid one with the higher SVN, A when the two are equal (R367). -/
def bootSlot (f : Fuses) (c : SecSt) (b : BootInfo) : Option Nat :=
  let a := c.slotA.valid && b.slotAOk && f.svn ≤ c.slotA.svn
  let z := c.slotB.valid && b.slotBOk && f.svn ≤ c.slotB.svn
  if a && (!z || c.slotB.svn ≤ c.slotA.svn) then some 0 else if z then some 1 else none

/-- The plan restored at start-up: the copy with the higher VERSION, or the factory plan (R412). -/
def AgeSt.restored (a : AgeSt) : Plan :=
  match a.copy0, a.copy1 with
  | some p, some q => if q.version < p.version then p else q
  | some p, none => p
  | none, some q => q
  | none, none => { version := 1 }

/-- Point 0: every register at its reset value, the board record's list and node ID loaded, the timebase at 0. -/
def Dev.bootBegin (d : Dev) : Dev :=
  let h := d.hold d.boot.lastStop
  let list := (List.range 16).map fun k => (0x20100 + 4 * k, Config.boardReg k)
  { h with now := 0, regs := list, evt := {}
           boot := { h.boot with phase := 1, perst0 := false, perst1 := false, nodeId := Config.boardNodeId }
           pm := { h.pm with regsNow := (List.range 16).map fun k => (k, Config.boardReg k) }
           age := { h.age with pohAt := 0 }
           sec := { h.sec with debugLevel := 0, debugOpened := false } }

/-- Training and cast-on of one stack (R329, R353, R354): ACTIVE, or FAILED with its event. -/
def Dev.bootStack (d : Dev) (ok : List Nat) (rows : List Nat) (s : Nat) : Dev :=
  let n := rows.getD s 0
  let d := if n = 0 || !nmem ok s then d
    else { d with ecc := { d.ecc with castonRows := tput d.ecc.castonRows s n } }.logSrc (0x0270 + s)
  if nmem ok s && n ≤ 64 then d.stackState s 2 else (d.stackState s 4).logSrc (0x0204 + 16 * s)

/-- Sets with a line that failed cast-on, and cache sets that failed their test, get spares; a directory set for which none remains is
recalled (R121, R354). -/
def Dev.bootSets (d : Dev) (b : BootInfo) : Dev :=
  let d := forEach (b.castonSets.filter (2097120 ≤ ·)) (fun g d => { d with coh := { d.coh with deadSets := nadd d.coh.deadSets g } }) d
  let d := forEach (b.castonSets.filter (· < 2097120)) (fun g d =>
    let r := d.spareFor g
    if r.1 then r.2 else r.2.recallStart g 2) d
  forEach b.cacheSets (fun c d => d.cacheSpare c) d

/-- The stacks ACTIVE after cast-on. -/
def Dev.stacksActive (d : Dev) : List Nat := (List.range 6).filter fun s => (d.stack s).state == 2

/-- Points 7 to 10: the carve-out tables, the margin record, the profile, the drives, the bind-off and the links. -/
def Dev.bootRun (d : Dev) (b : BootInfo) : Dev :=
  let d := { d with boot := { d.boot with phase := 7, stacksUp := d.stacksActive }
                    pool := { d.pool with nextEpoch := msTicks (d.fld 0x100004 0 4) }
                    mov := { d.mov with nextDecay := msTicks (d.fld 0x300008 16 16) }
                    pm := { d.pm with profile := Config.maxProfile }
                    age := { d.age with plan := d.age.restored, startPlan := true } }.planRelax.topUpCache
  let d := { d with pm := { d.pm with vcoreMv := d.coreSet, vsramMv := 800 + d.age.force.sramGb,
                                      linksOff := (List.range 24).filter fun l => !nmem (d.poweredLinks Config.maxProfile) l } }
  let d := forEach (b.dnLinks.filter fun x => x.1 < 4 && d.rootServes x.1) (fun x d => d.dnTrain x.1 (some x.2)) d
  let d := forEach (b.drives.filter fun x => x.1 < 4 && d.rootServes x.1) (fun x d => d.driveSeen x.1 x.2) d
  let d := if d.sec.state = 0 then d.debugTo 2 0
    else if 2 ≤ d.sec.state && d.sec.state ≤ 4 then ((d.secState 4).unsealBind.bindRest).secState 1
    else d
  forEach ((List.range 24).filter fun l => bit (d.reg (0x400000 + 0x10000 * l)) 31 && !d.linkHeld l) (fun l d => d.linkDetect l) d

/-- The upstream links come up with the rate and width they trained to (R60). -/
def Dev.portsTrain (d : Dev) (l : List (Nat × Nat × Nat)) : Dev :=
  forEach (l.filter fun x => portEnabled x.1) (fun x d => d.setPort x.1 fun p => { p with rate := x.2.1, width := x.2.2 }) d

/-- Every flue die that holds an enabled upstream port is disabled. -/
def Dev.noFlue (d : Dev) : Bool := (List.range 2).all fun p => !portEnabled p || nmem d.boot.flueOff p

/-- The sequence of Table 21.3 up to point 10, or to the first stop of Table 21.5. -/
def Dev.bootUp (f : Fuses) (d : Dev) (b : BootInfo) : Fuses × Dev :=
  let d := forEach b.d2dFailed (fun i d => d.moduleFail i) (d.bootBegin.portsTrain b.upLinks)
  if d.noFlue then (f, d.bootStop 3)
  else
    match bootSlot f d.sec b with
    | none => (f, d.bootStop 1)
    | some k =>
      let svn := if k = 0 then d.sec.slotA.svn else d.sec.slotB.svn
      let staged := d.sec.staged && d.sec.activeSlot == k
      let d := { d with sec := { d.sec with activeSlot := k, runningSvn := svn, staged := staged } }
      let d := forEach (List.range 6) (fun s d => d.bootStack b.stacksOk b.castonRows s) d
      let d := if d.stacksActive.length < 5 then d else d.bootSets b
      if d.stacksActive.length < 5 then (f, { d.bootStop 2 with boot := { (d.bootStop 2).boot with stacksUp := d.stacksActive } })
      else if d.sec.state = 5 || 32768 ≤ f.topUsed then (f, d.bootRun b)
      else
        let t := makeTree f d
        (t.1, t.2.bootRun b)

/-- PERST# deasserts on a port while another serves: the port comes back, its registers at their reset values since the port reset that the
assertion was (R439, R447). -/
def Dev.perstRelease (d : Dev) (l : List (Nat × Nat × Nat)) : Dev :=
  let d := { d with boot := { d.boot with perst0 := d.boot.perst0 && !l.any (·.1 == 0), perst1 := d.boot.perst1 && !l.any (·.1 == 1) } }
  d.portsTrain l

def execStartUp (b : BootInfo) (s : State) := liftFuse (fun f d =>
  if d.boot.phase = 0 && d.pm.aonGood && d.pm.rootLocked && !d.pm.tripped && !d.pm.powerFault && d.allPerst then d.bootUp f b
  else if d.boot.ready && !d.allPerst then (f, d.perstRelease b.upLinks)
  else (f, d)) s

/-- Point 11: SVN fuses up to the running image's are burned, and READY is set in Run. -/
def execReady (s : State) := liftFuse (fun f d =>
  if d.boot.phase ≠ 7 then (f, d)
  else
    let d := { d with boot := { d.boot with phase := 8, ready := true }, pm := { d.pm with state := 1 } }
    ({ f with svn := max f.svn (min 64 d.sec.runningSvn) }, d.panelsFollow.log 0x0100 (code := 1))) s

/-- A stop of Table 21.5 at a point START_UP has passed, or loss of patience with the root PLL before point 0. -/
def execStartupStop (code : Nat) (s : State) := liftDev (fun d =>
  let late := 1 ≤ d.boot.phase && d.boot.phase ≤ 7 && 1 ≤ code && code ≤ 6
  let lock := code = 4 && d.boot.phase = 0 && d.pm.aonGood && d.pm.oscDone && !d.pm.rootLocked
  if late || lock then d.bootStop code else d) s

/-! ## Partial resets (R446, Table 21.9) -/

/-- The links of a flue die. -/
def flueLinks (f : Nat) : List Nat := (List.range 12).map (12 * f + ·)

/-- What waits at an output is lost, and leaves its input buffers. -/
def Dev.dropQueue (d : Dev) (l : Nat) : Dev :=
  forEach (d.queue l) (fun q d => d.leftInput (bufferOf q.input q.ahead) q.m) { d with router := { d.router with queues := tdel d.router.queues l } }

/-- The input buffers of links are lost, with every copy of a message that one of them still holds. -/
def Dev.dropInputs (d : Dev) (ls : List Nat) : Dev :=
  let kept := fun (q : Queued) => !nmem ls (bufferOf q.input q.ahead)
  { d with router := { d.router with inputs := d.router.inputs.filter fun e => !nmem ls e.1,
                                     queues := d.router.queues.map fun o => (o.1, o.2.filter kept) } }

/-- A flue die goes into reset: what its router buffers and replay buffers held is lost, its links break, its port resets. -/
def Dev.resetFlue (d : Dev) (f : Nat) : Dev :=
  let d := (forEach (flueLinks f) (fun l d => d.dropQueue l) d).dropInputs (flueLinks f)
  let d := forEach (flueLinks f) (fun l d => (d.setLink l fun k => { k with replay := [], used0 := 0, used1 := 0 }).linkBreak l 8) d
  d.portReset f

/-- Lookups in progress are answered RETRY; REDUCE descriptors that have updated a line end DEVICE_ERROR. -/
def Dev.resetGru (d : Dev) : Dev :=
  let d := forEach d.gru.lookups (fun e d =>
    let h := d.hint
    (h.2.lookDrop e.1 e.2 true).lookFail e.2.caller stRetry h.1 e.2.seen) d
  let part := (d.host.rings.map fun r => (r.2.started.filter fun x => x.op == 0x41 && x.done != 0).map fun x => (r.1, x.idx, x.done)).flatten
  forEach part (fun (x : Nat × Nat × Nat) d => d.completeDesc x.1 x.2.1 stDeviceError 0x400 0 x.2.2) d

/-- The movers stop: running and waiting descriptors end DEVICE_ERROR, fault records close, and the cache empties. -/
def Dev.resetMovers (d : Dev) : Dev :=
  let waiting := d.mov.waitingWork ++ (d.mov.faults.map fun f => f.2.waiters).flatten
  let d := { d with mov := { d.mov with waitingWork := [], faults := [], cache := [] } }
  let d := forEach (List.range 32) (fun k d => d.moverEnd k stDeviceError 0x400 0) d
  forEach waiting (fun w d => d.completeDesc w.ring w.idx stDeviceError 0x400 0 w.progress) d

/-- A running loopback on an interface of the component is ended (R461). -/
def Dev.resetLoop (d : Dev) (c : Nat) : Dev :=
  match d.test.loopback with
  | some (kind, _, i, _, _) =>
    let of_ := if kind = 0 then 6 + i / 12 else if kind = 1 then (if i < 2 then 6 + i else 6 + (i - 2) / 2) else if kind = 2 then i else 6 + i / 8
    if of_ = c then d.loopAbort 5 else d
  | none => d

/-- Work in flight (Table 21.9). -/
def Dev.resetWork (d : Dev) (c : Nat) : Dev :=
  if c < 6 then (if (d.stack c).state = 2 then d.stackState c 3 else d).eccDisarm
  else if c < 8 then d.resetFlue (c - 6)
  else if c = 8 then forEach ((d.jobs.jobs.filter fun j => j.2.stage == 2).map (·.1)) (fun id d => d.jobEnd id stDeviceError 0x400 (idResult id)) d
  else if c = 9 then d.resetGru
  else if c = 10 then d.resetMovers
  else if c = 12 then forEach d.mirrorLinks (fun l d => d.linkBreak l 8) d
  else d

/-- A partial reset begins, in Run after READY. -/
def Dev.resetStart (d : Dev) (c : Nat) : Dev :=
  if 12 < c || !d.running || d.boot.inReset.any (·.1 == c) then d
  else
    let d := ({ d with boot := { d.boot with inReset := d.boot.inReset ++ [(c, d.now)] } }.bump 0x18 0).log (0x0910 + c) (code := 1)
    (d.resetLoop c).resetWork c

/-- A write of COMPONENT: 13 to 30 become 31, which names none. -/
def Dev.resetWrite (d : Dev) (c : Nat) : Dev :=
  let c := c % 32
  if 13 ≤ c && c ≤ 30 then d.clamped 0 0 else d.resetStart c

def execPartialReset (who component : Nat) (s : State) := liftDev (fun d => d.leasedWrite who true (·.resetWrite component)) s

/-- Amusk resets a component that has made no progress for 100 ms. -/
def execProgressWatchdog (component : Nat) (s : State) := liftDev (fun d => d.resetStart component) s

/-- NVMe commands are issued again, each once. -/
def Dev.nvmeAgain (d : Dev) (p : NvmeCmd → Bool) : Dev :=
  let mine := d.far.cmds.filter fun c => p c.2
  let d := { d with far := { d.far with cmds := d.far.cmds.map fun c => if p c.2 then (c.1, { c.2 with issued := d.now }) else c } }
  forEach mine (fun c d =>
    let k := c.2.kind
    let opcode := if k = 0 || k = 5 then 2 else if k = 1 || k = 6 then 1 else if k = 2 then 0 else if k = 3 then 9 else 0x102
    d.emit (.nvme c.2.drive opcode c.1 [c.2.skein, c.2.slot])) d

/-- The component is back. -/
def Dev.resetGood (d : Dev) (c : Nat) : Dev :=
  if c < 6 then
    if (d.stack c).state = 3 then (d.stackState c 2).setStack c fun k => { k with owed := [], trackers := [], mitigated := [] } else d
  else if c < 8 then
    let d := forEach ((flueLinks (c - 6)).filter fun l => (d.link l).state != 0) (fun l d => d.linkDetect l) d
    d.nvmeAgain fun k => ((d.drive k.drive).map fun v => v.port / 2 == c - 6).getD false
  else if c = 10 then d.moverAssign 32
  else if c = 11 then d.nvmeAgain fun _ => true
  else d

/-- The component does not come back (the last column of Table 21.9). -/
def Dev.resetBad (d : Dev) (c : Nat) : Dev :=
  if c < 6 then d.failStack c 1
  else if c < 8 then d.flueDown (c - 6)
  else if c = 8 then forEach (List.range 16) (fun p d => d.setPanel p fun q => { q with state := psRetired }) d
  else if c = 9 then { d with boot := { d.boot with dead := nadd d.boot.dead 9 } }
  else if c = 10 then { d with boot := { d.boot with dead := nadd d.boot.dead 10 } }.resetMovers
  else if c = 11 then forEach ((d.far.drives.filter fun e => e.2.state == 3 || e.2.state == 4).map (·.1)) (fun n d => d.driveFailed n) d
  else { d with mir := {} }

def execPartialResetEnd (component : Nat) (ok : Bool) (s : State) := liftDev (fun d =>
  if !d.boot.inReset.any (·.1 == component) then d
  else
    let d := { d with boot := { d.boot with inReset := d.boot.inReset.filter (·.1 != component) } }
    let d := if ok then d.resetGood component else d.resetBad component
    d.log (0x0910 + component)) s

/-! ## The node ID (R466, R467) -/

/-- A write of DEV_NODE_ID.NODE. -/
def Dev.nodeIdWrite (d : Dev) (v : Nat) : Dev :=
  let n := v % 4096
  if n = 0 || 0xEFF < n || !d.host.sessions.isEmpty || (List.range 24).any fun l => (d.link l).state == 6 then d.badAccess
  else { d with boot := { d.boot with nodeId := n } }

def execNodeIdWrite (who val : Nat) (s : State) := liftDev (fun d => d.leasedWrite who true (·.nodeIdWrite val)) s

end Sys2Proof.Machine
end

