-- ==== Sys2Proof/Machine/Answers.lean ====
section
/-! DEFINITION. What answers the device's own requests (R99, R100, R102, R103): responses received on a link, their timeouts, and
the completion timeouts of the device's PCIe requests. -/

namespace Sys2Proof.Machine

/-! ## Responses (R100, R102) -/

/-- An EVENT that its node did not take is dropped (R96). -/
def Dev.eventDropped (d : Dev) (key : Nat) : Dev :=
  { d.endReq key with evt := { (d.endReq key).evt with eventDrops := (d.endReq key).evt.eventDrops + 1 } }

/-- The partner answers FETCH (R312): a line of a failed stack is kept for the access that waits for it; a lost line is
rewritten where it is still POISONED; without data it stays lost at both units. -/
def Dev.fetchAnswered (d : Dev) (m : Msg) (key line : Nat) : Dev :=
  let d := d.endReq key
  if m.cls ≠ 3 then d
  else
    match d.keyOf (line * 64) with
    | none => d
    | some k =>
      if d.onFailed (line * 64) k then { d with coh := { d.coh with fetched := tput d.coh.fetched line (slice m.data 0 64) } }
      else if nmem d.poison (k / 64) then (d.writeLine (line / 2 ^ 19) k (line * 64) (slice m.data 0 64)).2
      else d

/-- An answer to an outstanding request, by what the request serves. -/
def Dev.responseTo (d : Dev) (m : Msg) (key : Nat) (r : DevReq) : Dev :=
  if r.purpose = 0 then
    if m.opcode = stDone then d.endReq key else if m.opcode = stRetry then d.reqAgain key r (msgDetail m) else d.eventDropped key
  else if r.purpose = 1 then
    if m.opcode = stRetry then d.reqAgain key r (msgDetail m) else d.filterAnswer (r.index / 64) (r.index % 64) (some m.opcode)
  else if r.purpose = 2 then d.moverAnswer m key r
  else if r.purpose = 3 then d.snoopAnswered m key r
  else if r.purpose = 5 then
    if m.opcode = stRetry then d.reqAgain key r (msgDetail m) else d.fetchAnswered m key r.index
  else if r.purpose = 6 then d.recallMsg m key r
  else d.endReq key

/-- A response arrives: matched by its source and tag, or stale (R100). In Ember no link brings one. DESIGN CHOICE (log entry 54): a
stale response is only counted, whatever its status, as R100 discards it. -/
def Dev.responseIn (d : Dev) (link : Nat) (m : Msg) : Dev :=
  if (m.cls ≠ 2 && m.cls ≠ 3) || d.pm.state = 3 then d
  else if m.dst = 0xFFF then d.bump 0x600010 16
  else
    match d.matchReq m.src m.tag with
    | none => d.bump 0x180108 16
    | some (key, r) =>
      let v := d.vetted link m r
      v.2.responseTo v.1 key r

def execResponseReceive (link : Nat) (m : Msg) (s : State) := liftDev (fun d => d.responseIn link m) s

/-! ## Timeouts (R103) -/

/-- A request has failed: the timeout after its last resend has expired. -/
def Dev.requestFailed (d : Dev) (key : Nat) (r : DevReq) : Dev :=
  if r.purpose = 0 then d.eventDropped key
  else if r.purpose = 1 then d.filterAnswer (r.index / 64) (r.index % 64) none
  else if r.purpose = 2 then (d.endReq key).moverLost r.index
  else d.endReq key

/-- A request's timeout expires; a transfer is sent again with all its messages. Its operand is the key of the request. -/
def Dev.requestTimedOut (d : Dev) (key : Nat) (r : DevReq) : Dev :=
  if r.purpose = 3 then d.snoopTimedOut key r
  else if r.purpose = 6 then d.recallTimedOut key r
  else if !d.mayResend r then d.requestFailed key r
  else
    let d := d.resend key r
    if r.purpose = 2 && r.m.opcode = 4 then d.sendRest r.index r.m.tag else d

def execDeviceRequestTimeout (tag : Nat) (s : State) := liftDev (fun d =>
  match tget d.fab.devReqs tag with
  | some r => (d.till r.deadline).requestTimedOut tag r
  | none => d) s

/-! ## PCIe completion timeouts (R78, R239, R480) -/

/-- A mover's host read or translation request is not answered. -/
def Dev.moverUnanswered (d : Dev) (k : Nat) : Dev :=
  match (d.mover k).work with
  | none => d
  | some w =>
    if w.phase = 1 && w.srcKind = 1 && w.retryAt.isNone then d.moverFail k 0 stDeviceError 2
    else if (d.mover k).atsOut then d.moverFail k w.wantSide stDeviceError 2
    else d

/-- An output write of a host's descriptor is not taken (R480). -/
def Dev.outputLost (d : Dev) (ring idx : Nat) : Dev :=
  match d.host.outputs.find? fun o => o.caller == .desc ring idx with
  | none => d
  | some o => o.finish { d with host := { d.host with outputs := d.host.outputs.filter fun x => x.caller != .desc ring idx } } true

def execPcieCompletionTimeout (port : Nat) (target : PcieTarget) (s : State) := liftDev (fun d =>
  match target with
  | .ringFetch n => if nodePort (d.ringOwner n) = some port then d.fetchDesc n none else d
  | .recordWrite n => if nodePort (d.ringOwner n) = some port && (d.ring n).kind ≠ 0 && ((d.ring n).state = rsActive || (d.ring n).state = rsDraining) then d.recordLost n else d
  | .output n i => if nodePort (d.ringOwner n) = some port then d.outputLost n i else d
  | .mover k => d.moverUnanswered k) s

end Sys2Proof.Machine
end

