-- ==== Sys2Proof/Machine/RegView.lean ====
section
/-! DEFINITION. What the registers read as (R9 to R12, R465): the stored fields with the fields the device computes, and the reads
of BAR0. Each register's computed part is a list of fields: lowest bit, width, value. -/

namespace Sys2Proof.Machine

/-- Fields laid over a value. -/
def layOver (v : Nat) (l : List (Nat × Nat × Nat)) : Nat := l.foldl (fun v f => setBits v f.1 f.2.1 f.2.2) v

/-- A temperature and a power as a coarsened view gives them (R377). -/
def Dev.seenTemp (d : Dev) (node c : Nat) : Nat := if d.coarse node then c / 5 * 5 else c
def Dev.seenPower (d : Dev) (node w : Nat) : Nat := if d.coarse node then w / 10 * 10 else w

/-- DEV, TB, CLK, IRQ, EVT, PERF and TEST: the computed fields of the register at `off`, instance `i` of its row. -/
def Dev.viewDev (d : Dev) (node base i : Nat) : List (Nat × Nat × Nat) :=
  if base = 0x008 then [(0, 64, Config.deviceId)]
  else if base = 0x010 then
    [(31, 1, b2n d.boot.ready), (24, 4, d.boot.lastStop), (16, 6, bitSet d.boot.stacksUp), (8, 4, d.boot.stop), (0, 4, d.boot.phase)]
  else if base = 0x014 then [(0, 5, 0)]
  else if base = 0x018 then [(16, 13, bitSet (d.boot.inReset.map (·.1)))]
  else if base = 0x01C then [(0, 12, d.boot.nodeId)]
  else if base = 0x10000 then [(0, 64, d.now)]
  else if base = 0x10040 then [(0, 32, if d.mir.role = 2 then (d.mir.alignNs % (2 ^ 32 : Int)).toNat else 0)]
  else if base = 0x30000 then [(31, 1, b2n d.pm.rootLocked), (30, 1, b2n d.pm.tbFromRef), (0, 3, d.pm.oscWait)]
  else if base = 0x30100 then [(2, 1, b2n (islandEmber i)), (1, 1, b2n (d.islandBank i)), (0, 1, b2n (d.islandRun i))]
  else if base = 0x50000 then [(8, 2, d.inputState i)]
  else if base = 0x50404 then
    match (d.core i).handlers with
    | h :: _ => [(8, 8, h.input), (4, 1, b2n h.fast), (0, 4, h.prio)]
    | [] => []
  else if base = 0x60000 then [(0, 64, d.evt.head)]
  else if base = 0x72000 then [(63, 1, b2n (nmem d.perf.ovf i)), (0, 48, d.seenCount node (tgetD d.perf.counts i 0))]
  else if base = 0xA00004 then [(31, 1, b2n d.test.loopback.isSome), (28, 3, d.test.lbResult), (24, 4, d.test.lbReason)]
  else if base = 0xA00008 then [(0, 32, d.test.lbErrors)]
  else if base = 0xA0000C then [(0, 32, d.test.lbChecked)]
  else if base = 0xA00014 then [(31, 1, b2n d.test.bist.isSome), (28, 3, d.test.bistResult), (0, 16, d.test.bistFails)]
  else []

/-- PM and AGE. -/
def Dev.viewPower (d : Dev) (node base i : Nat) : List (Nat × Nat × Nat) :=
  if base = 0x20000 then [(8, 2, Config.maxProfile)]
  else if base = 0x20004 then
    [(29, 3, d.pm.state), (27, 2, d.pm.profile), (26, 1, 0), (25, 1, b2n (d.pm.depth != 0)), (24, 1, b2n d.pm.alert), (23, 1, b2n d.pm.throttle),
     (22, 1, b2n d.pm.faultBit), (8, 8, d.pm.wakeSrc)]
  else if base = 0x20008 then [(0, 16, d.limitW)]
  else if base = 0x2000C then [(0, 8, d.seenTemp node d.pm.junction)]
  else if base = 0x20010 then [(16, 16, d.pm.vcoreMv), (0, 16, d.seenPower node d.pm.watts)]
  else if base = 0x40008 then [(31, 1, 0), (30, 1, b2n d.age.pending), (29, 1, b2n d.age.exhausted), (0, 24, bitSet d.age.retrainDue)]
  else if base = 0x4000C then [(0, 32, d.age.plan.version)]
  else if base = 0x40010 then [(0, 32, d.hours)]
  else if base = 0x40014 then [(16, 16, d.age.force.coreGb), (0, 16, d.age.force.sramGb)]
  else if base = 0x40018 then [(16, 16, d.age.force.knitCap)]
  else if base = 0x41000 then [(0, 32, if d.sec.debugLevel = 0 || d.personality = 2 then 0 else tgetD d.age.raw i 0)]
  else []

/-- RING and POOL; `port` is the reading port. DESIGN CHOICE (log entry 56): REMAIN_MS counts whole milliseconds, rounded down. -/
def Dev.viewHost (d : Dev) (port base i : Nat) : List (Nat × Nat × Nat) :=
  if base = 0x80000 then [(0, 32, if i = 0 then hostFeatures else 0)]
  else if base = 0x80040 then [(0, 32, if i = 0 then (d.port port).accepted else 0)]
  else if base = 0x80060 then [(1, 3, (d.port port).negStatus), (0, 1, 0)]
  else if base = 0x80080 then
    let h := d.leaseHolder
    [(16, 16, if h = 0 then 0 else (d.host.lease.expiry - d.now) / msTicks 1), (2, 1, b2n (h == port + 1)), (0, 2, h)]
  else if base = 0x80094 then [(16, 10, d.host.up1Count), (0, 10, d.host.up0Count)]
  else if base = 0x100020 then [(16, 16, d.pool.totalFrames), (0, 16, d.freeFrames)]
  else if base = 0x100028 then [(0, 64, d.pool.epochs)]
  else []

/-- KNIT, MOV, FAR and GL. MSTEP_MHZ is a rate of the array's own time: a free value (log entry 5), but 0 when no stitch completed a
MAC step in the last millisecond (Table 6.13). -/
def Dev.viewUnits (d : Dev) (base i : Nat) : List (Nat × Nat × Nat) :=
  if base = 0x200008 then
    let recent := match d.knit.lastMac with
      | some t => decide (d.now < t + msTicks 1)
      | none => false
    [(0, 16, if recent then Config.freeNumber d.free else 0)]
  else if base = 0x200100 then
    let q := d.panel i
    [(12, 12, q.owner), (4, 4, min 15 q.uncorr), (0, 3, q.state)]
  else if base = 0x200404 then [(16, 9, d.jobs.queue.length), (0, 5, (d.jobs.jobs.filter fun j => 1 ≤ j.2.stage).length)]
  else if base = 0x300018 then [(16, 11, d.faultWaiters), (0, 9, d.mov.faults.length)]
  else if base = 0x380010 then [(0, 32, bitSet ((d.far.drives.filter fun e => e.1 < 32 && (e.2.state == 3 || e.2.state == 4)).map (·.1)))]
  else if base = 0x400004 then
    let k := d.link i
    [(28, 4, k.state), (24, 4, k.reason), (21, 3, k.width), (20, 1, k.rate), (16, 4, k.lanes), (15, 1, b2n k.encrypted)]
  else if base = 0x400008 then
    let k := d.link i
    [(16, 16, k.rttNs), (14, 2, k.peerRole), (12, 2, k.peerClass), (0, 12, k.peerNode)]
  else []

/-- RT, MIR, MEM, ECC and SEC. -/
def Dev.viewRest (d : Dev) (f : Fuses) (node base i : Nat) : List (Nat × Nat × Nat) :=
  if base = 0x600024 then [(31, 1, b2n d.router.fenceCmd.isSome), (0, 12, d.router.lastNode)]
  else if base = 0x600028 then [(0, 32, d.router.fenceEpoch)]
  else if base = 0x600038 then [(0, 64, tgetD d.router.reach (d.fld 0x600030 0 12 * 32 + d.fld 0x600030 12 5) 0)]
  else if base = 0x602000 then [(0, 32, bitSet ((d.router.fenced.filter fun n => n / 32 == i).map (· % 32)))]
  else if base = 0x680008 then [(29, 3, d.mir.role), (26, 3, d.mir.phase), (22, 4, d.mir.cause)]
  else if base = 0x68000C then [(0, 32, d.mir.term)]
  else if base = 0x68001C then [(16, 16, min 0xFFFF (d.backlogNs / 1000))]
  else if base = 0x680020 then [(0, 23, d.mir.extentsLeft)]
  else if base = 0x700000 then [(29, 3, (d.stack i).state), (25, 4, (d.stack i).cause), (0, 8, d.seenTemp node (d.stack i).tempC)]
  else if base = 0x700008 then [(8, 4, (d.stack i).marginQ), (4, 2, (d.stack i).therm)]
  else if base = 0x900010 then [(0, 32, tgetD d.ecc.pos i 0)]
  else if base = 0x900044 then [(0, 16, min 0xFFFF (tgetD d.ecc.castonRows i 0))]
  else if base = 0x980000 then [(8, 3, d.sec.state), (4, 2, d.personality), (2, 2, d.sec.debugLevel), (0, 2, d.sec.keyState)]
  else if base = 0x980010 then
    [(16, 16, min 0xFFFF (32768 - f.topUsed)), (0, 16, if d.sec.lowerTree then min 0xFFFF ((1048576 - d.sec.lowNext) / 1024) else 0)]
  else if base = 0x980014 then
    [(24, 8, d.sec.runningSvn), (16, 8, f.svn), (2, 1, b2n d.sec.staged), (1, 1, d.sec.activeSlot), (0, 1, b2n f.openBarred)]
  else if base = 0x980040 then [(0, 32, field d.sec.debugNonce (4 * i) 4)]
  else []

/-- The offset a requester's copy of a register is stored at: the port-local ones of UP1 stand apart (R62). -/
def copyAt (who off : Nat) : Nat :=
  let local_ := (0x80000 ≤ off && off < 0x80064) || (0xA80000 ≤ off && off < 0xB00000)
  if local_ && who = 0xFF1 then off + 0x2000000 else off

/-- The value of a register as a requester reads it: its RC counts in the reader's view, its write-only bits
zero, and those a write of 1 sets where the device clears them at once (Tables 3.7, 17.16, 20.10, 23.2); TEST_BIST_CTL.START keeps its
value. -/
def Dev.regValue (d : Dev) (f : Fuses) (who : Nat) (r : RegRow) (off : Nat) : Nat :=
  let i := if r.stride = 0 then 0 else (off - r.base) / r.stride
  let v := d.reg (copyAt who off)
  let v := r.flds.foldl (fun v x =>
    if x.acc == .rc then setBits v x.lo x.n (d.seenCount who (bits v x.lo x.n))
    else if x.acc == .wo || (x.acc == .w1s && r.base != 0xA00010) then setBits v x.lo x.n 0 else v) v
  layOver v (d.viewDev who r.base i ++ d.viewPower who r.base i ++ d.viewHost ((nodePort who).getD 2) r.base i ++ d.viewUnits r.base i ++
    d.viewRest f who r.base i)

/-- A read clears the RC fields it covers: those of the word at byte `lo` of a 64-bit register, or all of it. -/
def Dev.clearRc (d : Dev) (who : Nat) (r : RegRow) (off : Nat) : Dev :=
  let rc := r.flds.filter (·.acc == .rc)
  if rc.isEmpty then d else d.setReg (copyAt who off) (rc.foldl (fun v x => setBits v x.lo x.n 0) (d.reg (copyAt who off)))

/-- The MSI-X table and pending-bit array of a port (R429): 16 bytes a vector, the mask in bit 0 of its last word. -/
def Dev.msixWord (d : Dev) (p off : Nat) : Nat :=
  if off < 0xA91000 then
    let v := (off - 0xA90000) / 16
    if off % 16 = 12 then b2n (!nmem (d.port p).unmasked v) else d.reg (off + p * 0x2000000)
  else bitSet (((d.port p).pendingBits.filter fun v => v / 32 == (off - 0xA91000) / 4).map (· % 32))

/-- An offset of the MSI-X structures. -/
def inMsix (off : Nat) : Bool := 0xA90000 ≤ off && off < 0xA91020

/-- An offset of the ring records. -/
def inRings (off : Nat) : Bool := 0x90000 ≤ off && off < 0xA0000

/-- Offsets a BAR0 access reaches before READY: the DEV block, and after a TEST stop the TEST block (R437, R443). -/
def Dev.reaches (d : Dev) (off : Nat) : Bool := d.boot.ready || off < 0x10000 || (d.boot.testEn && 0xA00000 ≤ off && off < 0xA80000)

/-! ## Beside BAR0: BAR2, and the configuration space of a port (R60, R61, R74; log entry 35)

The operands of a port's register commands count BAR0 from 0, BAR2 from 0x2000000 and the configuration space from 0x4000000. -/

def bar2Base : Nat := 0x2000000
def cfgBase : Nat := 0x4000000

/-- An offset of BAR2, which is 4 MiB. -/
def inBar2 (off : Nat) : Bool := bar2Base ≤ off && off < bar2Base + 0x400000

/-- An offset of the configuration space. -/
def inCfg (off : Nat) : Bool := cfgBase ≤ off && off < cfgBase + 0x1000

/-- A word of a port's configuration space: identity and class code (R60), then the capabilities of Table 3.1 at places that are
PRESUMED (log entry 35), and zero elsewhere: no structure stands there for what the device does not support. -/
def Dev.cfgWord (d : Dev) (p off : Nat) : Nat :=
  let s := d.port p
  if off = 0x000 then Config.vendorId % 65536 + 0x0480 * 65536
  else if off = 0x008 then Config.revisionId % 256 + 0x058000 * 256
  else if off = 0x070 then 0x10 + 2 * 65536                                                  -- PCI Express
  else if off = 0x07C then 6 + 8 * 2 ^ 4 + 2 * 2 ^ 10                                         -- 64 GT/s, x8, ASPM L1 only
  else if off = 0x080 then s.rate % 16 * 2 ^ 16 + s.width % 64 * 2 ^ 20                       -- the link as trained
  else if off = 0x0B0 then 0x11 + 255 * 2 ^ 16 + b2n s.msixEnabled * 2 ^ 31                   -- MSI-X, 256 vectors
  else if off = 0x100 then 0x0001 + 0x14000000 + 2 * 65536                                    -- AER
  else if off = 0x140 then 0x000F + 0x15000000 + 1 * 65536                                    -- ATS
  else if off = 0x144 then b2n s.atsEnabled * 2 ^ 31
  else if off = 0x150 then 0x0013 + 0x16000000 + 1 * 65536                                    -- PRI
  else if off = 0x160 then 0x001B + 0x17000000 + 1 * 65536                                    -- PASID
  else if off = 0x164 then 20 * 2 ^ 8
  else if off = 0x170 then 0x001F + 0x18000000 + 1 * 65536                                    -- PTM, a requester
  else if off = 0x174 then 1
  else if off = 0x180 then 0x0015 + 1 * 65536                                                 -- resizable BAR: BAR4, 1 to 256 GiB
  else if off = 0x184 then (2 ^ 9 - 1) * 2 ^ 14
  else if off = 0x188 then 4 + 1 * 2 ^ 5 + (10 + Nat.log2 s.barGib) * 2 ^ 8
  else 0

/-- A write of a word of the configuration space: the enables of MSI-X and ATS, and the size of BAR4 in a power of two from 1 to 256 GiB. -/
def Dev.cfgWrite (d : Dev) (p off v : Nat) : Dev :=
  if off = 0x0B0 then d.setPort p fun s => { s with msixEnabled := bit v 31 }
  else if off = 0x144 then d.setPort p fun s => { s with atsEnabled := bit v 31 }
  else if off = 0x188 && 10 ≤ bits v 8 6 && bits v 8 6 ≤ 18 then d.setPort p fun s => { s with barGib := 2 ^ (bits v 8 6 - 10) }
  else d

/-- Read one 32-bit word: its value, and the device with the RC fields read cleared. -/
def Dev.readWord (d : Dev) (f : Fuses) (who off : Nat) : Nat × Dev :=
  if (nodePort who).isSome && !d.reaches off then (0, d)
  else if inRings off then (field (d.ringRecord ((off - 0x90000) / 64)) (off % 64) 4, d)
  else if inMsix off then ((match nodePort who with
    | some p => d.msixWord p off
    | none => 0), d)
  else
    match regAt off with
    | some r => (d.regValue f who r off % 2 ^ 32, d.clearRc who r off)
    | none =>
      match regUpper off with
      | some r => (d.regValue f who r (off - 4) / 2 ^ 32, d)
      | none => (0, d)

/-- A read of BAR0, or of a register by a control core: aligned words, or an aligned pair, lower one first (R8, R9). -/
def Dev.regRead (d : Dev) (f : Fuses) (who off size : Nat) : Dev :=
  if who ≠ 0 && !d.portServes who then d
  else
    let answer := fun (d : Dev) (n v : Nat) => match nodePort who with
      | some p => d.emit (.readData p (natBytes n v) false)
      | none => d
    if who ≠ 0 && inBar2 off then answer d size 0
    else if who ≠ 0 && inCfg off && size = 4 && off % 4 = 0 then answer d 4 (d.cfgWord ((nodePort who).getD 0) (off - cfgBase))
    else if (size ≠ 4 && size ≠ 8) || off % size ≠ 0 || 0x2000000 ≤ off then answer d.badAccess size 0
    else if size = 4 then let x := d.draw.2.readWord f who off; answer x.2 4 x.1
    else
      let x := d.draw.2.readWord f who off
      let y := x.2.readWord f who (off + 4)
      answer y.2 8 (x.1 + y.1 * 2 ^ 32)

def execRcRegisterRead (who off size : Nat) (s : State) := liftRead (fun f d => d.regRead f who off size) s

end Sys2Proof.Machine
end

