-- ==== Sys2Proof/Machine/Registers.lean ====
section
/-! DEFINITION. Writes of registers (R8 to R16, R62): the rule of each access code, clamping, the halves of 64-bit registers, and the
action of a register that has one; a register with a row of its own shares that row's action. -/

namespace Sys2Proof.Machine

/-! ## Clamping (R14) -/

/-- What a written field value becomes. -/
def Clamp.apply (c : Clamp) (v : Nat) : Nat :=
  match c with
  | .none => v
  | .range lo hi => clampN lo hi v
  | .codes first dflt => if first ≤ v then dflt else v
  | .grain g lo hi => clampGrain g lo hi v

/-- The stored value after a write of `v`, and how many fields were clamped: RW fields store, the others keep (Table 0.2). -/
def RegRow.store (r : RegRow) (old v : Nat) : Nat × Nat :=
  r.flds.foldl (fun (acc : Nat × Nat) x =>
    if x.acc == .rw then
      let w := bits v x.lo x.n
      (setBits acc.1 x.lo x.n (x.clamp.apply w), acc.2 + b2n (x.clamp.apply w != w))
    else acc) (old, 0)

/-- Clamps that depend on other fields of the write, the register's place or the writer: the value as clamped by them. -/
def Dev.crossClamp (d : Dev) (who : Nat) (r : RegRow) (off v : Nat) : Nat :=
  let i := if r.stride = 0 then 0 else (off - r.base) / r.stride
  if r.base = 0x20100 then if 9 ≤ bits v 24 4 && bits v 24 4 ≠ 15 then setBits v 24 4 15 else v
  else if r.base = 0x300004 then
    let p := clampN 16 65535 (bits v 16 16)
    if p ≤ bits v 0 16 then setBits v 0 16 (p - 1) else v
  else if r.base = 0x400014 then
    let low := clampN 256 2040 (bits v 0 12) + 8
    if bits v 16 12 < low then setBits v 16 12 low else v
  else if r.base = 0x600100 then if bits v 8 5 = i && i ≠ 31 then setBits v 8 5 31 else v
  else if r.base = 0x700008 then if bit v 0 && who ≠ 0 && !d.hasFeature who 12 then setBits v 0 1 0 else v
  else v

/-- Store a register's RW fields as clamped, counting each clamp for its block (R15). -/
def Dev.storeReg (d : Dev) (who : Nat) (r : RegRow) (off v : Nat) : Dev :=
  let w := d.crossClamp who r off v
  let at_ := copyAt who off
  let x := r.store (d.reg at_) w
  let d := (List.range (x.2 + b2n (w != v))).foldl (fun d _ => d.clamped r.group r.pos) d
  d.setReg at_ x.1

/-! ## Registers with a row of their own -/

/-- The entry may be stored (R41). -/
def igfLegal (v : Nat) : Bool :=
  let lo := bits v 51 12
  let hi := bits v 39 12
  1 ≤ lo && lo ≤ 0xFEF && 1 ≤ hi && hi ≤ 0xFEF && lo ≤ hi && bits v 21 18 ≤ bits v 3 18

/-- A write of RT_IGF_ENTRY: refused whole where it is illegal. -/
def Dev.igfWrite (d : Dev) (off v : Nat) : Dev := if igfLegal v then d.setReg off (v / 8 * 8) else d.badAccess

/-- A write of POOL_CACHE_FRAMES: free frames are reserved at once; the rest follow as they become free, and a lower value gives
frames back over the following epochs (R35). -/
def Dev.cacheFramesWrite (d : Dev) (v : Nat) : Dev :=
  let n := min 12768 (v % 16384)
  let d := if n = v % 16384 then d else d.clamped 3 0
  (d.setReg 0x100008 n).topUpCache

/-- A command of RING_LEASE (Table 3.5). -/
def Dev.leaseWrite (d : Dev) (p v : Nat) : Dev :=
  let c := bits v 8 2
  if c = 1 then d.leaseAcquire p else if c = 2 then d.leaseRenew p else if c = 3 then d.leaseRelease p else d

/-- A write of RT_FENCE_CMD. -/
def Dev.fenceWrite (d : Dev) (v : Nat) : Dev :=
  let a := bits v 12 2
  if a = 1 then d.fenceCommand (bits v 0 12) true
  else if a = 2 then d.fenceCommand (bits v 0 12) false
  else if a = 3 then d.clamped 10 0
  else d

/-- A write of MIR_WITNESS_CMD (Table 14.6). -/
def Dev.witnessWrite (d : Dev) (who v : Nat) : Dev :=
  let a := bits v 0 3
  let p := (nodePort who).getD 2
  let term := bits v 32 32
  if a = 1 then d.witness p term (·.witnessPromote)
  else if a = 2 then d.witness p term (·.witnessSolo)
  else if a = 3 then d.witness p term (·.witnessDemote)
  else if 4 ≤ a then d.clamped 11 0
  else d

/-- A write of GL_LINK_CTL: its settings, then ENABLE, then RESET. -/
def Dev.linkWrite (d : Dev) (who : Nat) (r : RegRow) (off v : Nat) : Dev :=
  let l := (off - 0x400000) / 0x10000
  let on := d.fld off 31 1
  let d := (d.storeReg who r off (setBits v 31 1 on)).linkEnable l (bit v 31)
  if bit v 24 then d.linkReset l else d

/-- A write of a meter (R107): the tokens are counted to this moment at the old rate, and the bucket is full where EN becomes 1. -/
def Dev.meterWrite (d : Dev) (who : Nat) (r : RegRow) (off v : Nat) : Dev :=
  let old := d.reg off
  let key := (off - r.base) / 8
  let settle := fun (t : Tbl Bucket) => if bit old 63 && bit v 63 then tput t key (d.bucket t key old) else tdel t key
  let f := if r.base = 0x604000 then { d.fab with policers := settle d.fab.policers } else { d.fab with shapers := settle d.fab.shapers }
  ({ d with fab := f } : Dev).storeReg who r off v

/-- A write of HOME_NODE_DOM: the bytes of the nodes 0x000 and 0xF00 to 0xFFF are not there (R133). -/
def Dev.nodeDomWrite (d : Dev) (who : Nat) (r : RegRow) (off v : Nat) : Dev :=
  d.storeReg who r off (if off = r.base then v / 256 * 256 else if 960 ≤ (off - r.base) / 4 then 0 else v)

/-- A write of POOL_CTL: filter updates that wait go out where it turns them on (R43). -/
def Dev.poolCtlWrite (d : Dev) (who : Nat) (r : RegRow) (off v : Nat) : Dev :=
  let on := d.fld 0x100000 0 1 = 0 && v % 2 = 1
  let d := d.storeReg who r off v
  if on then d.sendFilters else d

/-- A write of KNIT_SP_CTL: the levels of the ports of running jobs follow at once (R146, R161). -/
def Dev.streamWrite (d : Dev) (who : Nat) (r : RegRow) (off v : Nat) : Dev :=
  forEach ((d.storeReg who r off v).jobs.jobs.filter fun j => j.2.stage == 2) (fun e d =>
    forEach e.2.mask (fun p d => d.setUrgencies e.2 p) d) (d.storeReg who r off v)

/-- The IRQ registers: read-only from BAR0 but for the filters (R436). -/
def Dev.irqWrite (d : Dev) (who : Nat) (r : RegRow) (off v : Nat) : Dev :=
  if r.base = 0x50500 then d.storeReg who r off v
  else if who ≠ 0 then d
  else if r.base = 0x5040C then d.eoi ((off - 0x5040C) / 0x10) (v % 256)
  else if r.base = 0x50520 then forEach ((List.range 8).filter (bit v)) (fun j d => d.raiseInput (248 + j)) d
  else d.storeReg who r off v

/-- What a write of a whole register does. -/
def Dev.regAction (d : Dev) (f : Fuses) (who : Nat) (r : RegRow) (off v : Nat) : Dev :=
  if r.base = 0x014 then d.resetWrite (v % 32)
  else if r.base = 0x01C then d.nodeIdWrite v
  else if 0x50000 ≤ r.base && r.base < 0x60000 then d.irqWrite who r off v
  else if r.base = 0x72000 then
    if bit v 63 then { d with perf := { d.perf with ovf := ndel d.perf.ovf ((off - 0x72000) / 8) } } else d
  else if r.base = 0xA00000 then d.loopWrite who v
  else if r.base = 0xA00010 then if bit v 31 then d.bistStart (v % 32) else d.bistTarget (v % 32)
  else if r.base = 0x80020 then if off = 0x80020 then d.setReg (copyAt who off) (v % 2 ^ 20) else d
  else if r.base = 0x80060 then if bit v 0 then d.negotiate f ((nodePort who).getD 0) else d
  else if r.base = 0x80080 then match nodePort who with
    | some p => d.leaseWrite p v
    | none => d
  else if r.base = 0x100000 then d.poolCtlWrite who r off v
  else if r.base = 0x100008 then d.cacheFramesWrite v
  else if r.base = 0x400000 then d.linkWrite who r off v
  else if r.base = 0x600020 then d.fenceWrite v
  else if r.base = 0x600038 then
    { d with router := { d.router with reach := tput d.router.reach (d.fld 0x600030 0 12 * 32 + d.fld 0x600030 12 5) (v % 2 ^ 64) } }
  else if r.base = 0x601000 then d.igfWrite off v
  else if r.base = 0x604000 || r.base = 0x605000 then d.meterWrite who r off v
  else if r.base = 0x181000 then d.nodeDomWrite who r off v
  else if r.base = 0x200004 then d.streamWrite who r off v
  else if r.base = 0x300004 || r.base = 0x300008 then (d.storeReg who r off v).demoteLow (fun _ => false)
  else if r.base = 0x380000 then (d.storeReg who r off v).farGo
  else if r.base = 0x680010 then d.witnessWrite who v
  else if r.base = 0x900080 then d.eccTestWrite v
  else if r.base = 0x980004 then if bit v 0 then d.relock else d
  else d.storeReg who r off v

/-! ## Who may write (R62, R443) -/

/-- Port-local registers and RING_LEASE need no lease. -/
def leaseFree (off : Nat) : Bool := (0x80000 ≤ off && off < 0x80064) || off = 0x80080 || (0xA80000 ≤ off && off < 0xB00000)

/-- A register a control core has no copy of. -/
def portOnly (off : Nat) : Bool := leaseFree off || inRings off

/-- A writer's access is admitted, or counted as refused. -/
def Dev.mayWrite (d : Dev) (who off : Nat) (f : Dev → Dev) : Dev :=
  if who = 0 then if portOnly off then d else f d
  else if !d.reaches off then d.badAccess
  else if leaseFree off then f d
  else if inRings off then if d.ringOwner ((off - 0x90000) / 64) = who then f d else d.badAccess
  else if d.hasLease who then f d
  else d.badAccess

/-! ## Words and halves (R8, R9) -/

/-- Key of a held lower half. -/
def halfKey (who off : Nat) : Nat := who * 2 ^ 32 + off

/-- Apply a write of a whole 64-bit register; the requester's held half is discarded. -/
def Dev.writeWide (d : Dev) (who off : Nat) (act : Dev → Dev) : Dev := act { d with halves := tdel d.halves (halfKey who off) }

/-- A half of a 64-bit register whose lower word is at `base`: the lower one is held, the upper one applies both. -/
def Dev.writeHalf (d : Dev) (who base off v : Nat) (act : Nat → Dev → Dev) : Dev :=
  if off = base then { d with halves := tput d.halves (halfKey who base) v }
  else
    match tget d.halves (halfKey who base) with
    | some lo => d.writeWide who base (act (lo + v * 2 ^ 32))
    | none => d.badAccess

/-- A word of the MSI-X structures: unmasking sends what was pending; the pending bits are read-only (R429). -/
def Dev.msixWrite (d : Dev) (p off v : Nat) : Dev :=
  if 0xA91000 ≤ off then d
  else if off % 16 = 12 then
    let n := (off - 0xA90000) / 16
    if bit v 0 then d.setPort p fun s => { s with unmasked := ndel s.unmasked n } else d.msixUnmask p n
  else d.setReg (off + p * 0x2000000) v

/-- A ring record's 64-bit registers. -/
def ringWide (off : Nat) : Bool := off % 64 / 8 = 0 || off % 64 / 8 = 4

/-- A 32-bit write. -/
def Dev.writeWord (d : Dev) (f : Fuses) (who off v : Nat) : Dev :=
  d.mayWrite who off fun d =>
    if inRings off then
      let ring := (off - 0x90000) / 64
      if ringWide off then d.writeHalf who (off / 8 * 8) off v fun x d => d.ringWrite ring (off / 8 * 8 % 64) (natBytes 8 x)
      else d.ringWrite ring (off % 64) (natBytes 4 v)
    else if inMsix off then d.msixWrite ((nodePort who).getD 0) off v
    else
      match regAt off with
      | some r => if r.wide then d.writeHalf who off off v fun x d => d.regAction f who r off x else d.regAction f who r off v
      | none =>
        match regUpper off with
        | some r => d.writeHalf who (off - 4) off v fun x d => d.regAction f who r (off - 4) x
        | none => d

/-- An aligned 64-bit write: one update of a 64-bit register or of a ring record, or two words, lower one first. -/
def Dev.writePair (d : Dev) (f : Fuses) (who off v : Nat) : Dev :=
  if inRings off then d.mayWrite who off fun d => d.writeWide who off fun d => d.ringWrite ((off - 0x90000) / 64) (off % 64) (natBytes 8 v)
  else
    match (regAt off).filter (·.wide) with
    | some r => d.mayWrite who off fun d => d.writeWide who off fun d => d.regAction f who r off v
    | none => (d.writeWord f who off (v % 2 ^ 32)).writeWord f who (off + 4) (v / 2 ^ 32)

/-- A write of BAR0 by a port, which wakes the device from Bank (R388), of BAR2 or of the port's configuration space, or of a register by
a control core. -/
def Dev.regWrite (d : Dev) (f : Fuses) (who off size val : Nat) : Dev :=
  if who ≠ 0 && !d.portServes who then d
  else if who ≠ 0 && inBar2 off then d.doorbell who (off - bar2Base) size val
  else if who ≠ 0 && inCfg off && size = 4 && off % 4 = 0 then d.cfgWrite ((nodePort who).getD 0) (off - cfgBase) val
  else
    let d := if who = 0 then d else d.wakeLatch 1
    if (size ≠ 4 && size ≠ 8) || off % size ≠ 0 || 0x2000000 ≤ off then d.badAccess
    else if size = 4 then d.writeWord f who off (val % 2 ^ 32)
    else d.writePair f who off (val % 2 ^ 64)

def execRegisterWrite (who off size val : Nat) (s : State) := liftRead (fun f d => d.regWrite f who off size val) s

/-- IGF_ENTRY_WRITE: a write of one of the ingress filter entries. -/
def execIgfEntryWrite (who off size val : Nat) (s : State) := liftRead (fun f d =>
  if 0x601000 ≤ off && off < 0x601C00 then d.regWrite f who off size val else d) s

def execPoolCacheFramesWrite (who val : Nat) (s : State) := liftDev (fun d => d.leasedWrite who false (·.cacheFramesWrite val)) s

end Sys2Proof.Machine
end

