-- ==== Sys2Proof/Machine/StitchCmds.lean ====
section
/-! DEFINITION. The stitch instructions (R169 to R184), one meaning each, and the commands that move blocked stitches,
buses and stream ports. -/

namespace Sys2Proof.Machine

/-! ## CTRL (Table 7.4) -/

def execCtrlNop (k : Nat) (f : StitchFields) (s : State) := liftDev (fun d => d.stitchRun k 0 0x00 f .next) s
def execCtrlJmp (k : Nat) (f : StitchFields) (s : State) := liftDev (fun d => d.stitchRun k 0 0x01 f fun st => .jump st (immTarget f)) s
def execCtrlBeq (k : Nat) (f : StitchFields) (s : State) := liftDev (fun d => d.branch k 0x02 f fun a b => a == b) s
def execCtrlBne (k : Nat) (f : StitchFields) (s : State) := liftDev (fun d => d.branch k 0x03 f fun a b => a != b) s
def execCtrlBlt (k : Nat) (f : StitchFields) (s : State) := liftDev (fun d => d.branch k 0x04 f fun a b => a.slt b) s
def execCtrlBge (k : Nat) (f : StitchFields) (s : State) := liftDev (fun d => d.branch k 0x05 f fun a b => !a.slt b) s
def execCtrlBltu (k : Nat) (f : StitchFields) (s : State) := liftDev (fun d => d.branch k 0x06 f fun a b => a.ult b) s
def execCtrlBgeu (k : Nat) (f : StitchFields) (s : State) := liftDev (fun d => d.branch k 0x07 f fun a b => !a.ult b) s
def execCtrlLoop (k : Nat) (f : StitchFields) (s : State) := liftDev (fun d => d.stitchRun k 0 0x08 f fun st => .loop st (st.s f.src1).toNat (immTarget f)) s
def execCtrlLoopi (k : Nat) (f : StitchFields) (s : State) := liftDev (fun d => d.stitchRun k 0 0x09 f fun st => .loop st (f.imm.extractLsb' 10 16).toNat (immTarget f)) s

/-! ## SALU (Table 7.5) -/

def execSaluAdd (k : Nat) (f : StitchFields) (s : State) := liftDev (fun d => d.salu k 0x00 f (· + ·)) s
def execSaluSub (k : Nat) (f : StitchFields) (s : State) := liftDev (fun d => d.salu k 0x01 f (· - ·)) s
def execSaluAnd (k : Nat) (f : StitchFields) (s : State) := liftDev (fun d => d.salu k 0x02 f (· &&& ·)) s
def execSaluOr (k : Nat) (f : StitchFields) (s : State) := liftDev (fun d => d.salu k 0x03 f (· ||| ·)) s
def execSaluXor (k : Nat) (f : StitchFields) (s : State) := liftDev (fun d => d.salu k 0x04 f (· ^^^ ·)) s
def execSaluShl (k : Nat) (f : StitchFields) (s : State) := liftDev (fun d => d.salu k 0x05 f shl32) s
def execSaluShr (k : Nat) (f : StitchFields) (s : State) := liftDev (fun d => d.salu k 0x06 f shr32) s
def execSaluSra (k : Nat) (f : StitchFields) (s : State) := liftDev (fun d => d.salu k 0x07 f sra32) s
def execSaluMul (k : Nat) (f : StitchFields) (s : State) := liftDev (fun d => d.salu k 0x08 f (· * ·)) s
def execSaluMin (k : Nat) (f : StitchFields) (s : State) := liftDev (fun d => d.salu k 0x09 f min32) s
def execSaluMax (k : Nat) (f : StitchFields) (s : State) := liftDev (fun d => d.salu k 0x0A f max32) s
def execSaluMinu (k : Nat) (f : StitchFields) (s : State) := liftDev (fun d => d.salu k 0x0B f minu32) s
def execSaluMaxu (k : Nat) (f : StitchFields) (s : State) := liftDev (fun d => d.salu k 0x0C f maxu32) s
def execSaluSlt (k : Nat) (f : StitchFields) (s : State) := liftDev (fun d => d.salu k 0x0D f slt32) s
def execSaluSltu (k : Nat) (f : StitchFields) (s : State) := liftDev (fun d => d.salu k 0x0E f sltu32) s
def execSaluAddi (k : Nat) (f : StitchFields) (s : State) := liftDev (fun d => d.salu k 0x20 f (· + ·)) s
def execSaluSubi (k : Nat) (f : StitchFields) (s : State) := liftDev (fun d => d.salu k 0x21 f (· - ·)) s
def execSaluAndi (k : Nat) (f : StitchFields) (s : State) := liftDev (fun d => d.salu k 0x22 f (· &&& ·)) s
def execSaluOri (k : Nat) (f : StitchFields) (s : State) := liftDev (fun d => d.salu k 0x23 f (· ||| ·)) s
def execSaluXori (k : Nat) (f : StitchFields) (s : State) := liftDev (fun d => d.salu k 0x24 f (· ^^^ ·)) s
def execSaluShli (k : Nat) (f : StitchFields) (s : State) := liftDev (fun d => d.salu k 0x25 f shl32) s
def execSaluShri (k : Nat) (f : StitchFields) (s : State) := liftDev (fun d => d.salu k 0x26 f shr32) s
def execSaluSrai (k : Nat) (f : StitchFields) (s : State) := liftDev (fun d => d.salu k 0x27 f sra32) s
def execSaluMuli (k : Nat) (f : StitchFields) (s : State) := liftDev (fun d => d.salu k 0x28 f (· * ·)) s
def execSaluMini (k : Nat) (f : StitchFields) (s : State) := liftDev (fun d => d.salu k 0x29 f min32) s
def execSaluMaxi (k : Nat) (f : StitchFields) (s : State) := liftDev (fun d => d.salu k 0x2A f max32) s
def execSaluMinui (k : Nat) (f : StitchFields) (s : State) := liftDev (fun d => d.salu k 0x2B f minu32) s
def execSaluMaxui (k : Nat) (f : StitchFields) (s : State) := liftDev (fun d => d.salu k 0x2C f maxu32) s
def execSaluSlti (k : Nat) (f : StitchFields) (s : State) := liftDev (fun d => d.salu k 0x2D f slt32) s
def execSaluSltui (k : Nat) (f : StitchFields) (s : State) := liftDev (fun d => d.salu k 0x2E f sltu32) s

/-! ## LSL (Table 7.6) -/

def execLslLds (k : Nat) (f : StitchFields) (s : State) := liftDev (fun d => d.local_ k 0x00 f 4 false fun st a => st.setS f.dst (BitVec.ofNat 32 (leNat (st.load a 4)))) s
def execLslSts (k : Nat) (f : StitchFields) (s : State) := liftDev (fun d => d.local_ k 0x01 f 4 false fun st a => st.store a (natBytes 4 (st.s f.src2).toNat)) s
def execLslLdv (k : Nat) (f : StitchFields) (s : State) := liftDev (fun d => d.local_ k 0x02 f 32 (badV f.dst) fun st a => st.setV f.dst (bytesLanes (st.load a 128))) s
def execLslStv (k : Nat) (f : StitchFields) (s : State) := liftDev (fun d => d.local_ k 0x03 f 32 (badV f.src2) fun st a => st.store a (lanesBytes (st.v f.src2))) s
def execLslLdvq (k : Nat) (f : StitchFields) (s : State) := liftDev (fun d => d.local_ k 0x04 f 32 (badV f.dst) fun st a => st.setQuarter f.dst (immQuarter f) (st.load a 32)) s
def execLslStvq (k : Nat) (f : StitchFields) (s : State) := liftDev (fun d => d.local_ k 0x05 f 32 (badV f.src2) fun st a => st.store a (st.quarter f.src2 (immQuarter f))) s
def execLslLdb (k : Nat) (f : StitchFields) (s : State) := liftDev (fun d => d.local_ k 0x06 f 1 false fun st a => st.setS f.dst (BitVec.ofNat 32 (leNat (st.load a 1)))) s
def execLslStb (k : Nat) (f : StitchFields) (s : State) := liftDev (fun d => d.local_ k 0x07 f 1 false fun st a => st.store a (natBytes 1 (st.s f.src2).toNat)) s

/-! ## CHN and STR (Tables 7.7, 7.8) -/

def execChnSend (k : Nat) (f : StitchFields) (s : State) := liftDev (fun d => d.chn k 0x00 f) s
def execChnRecv (k : Nat) (f : StitchFields) (s : State) := liftDev (fun d => d.chn k 0x01 f) s
def execChnFwd (k : Nat) (f : StitchFields) (s : State) := liftDev (fun d => d.chn k 0x02 f) s
def execChnSends (k : Nat) (f : StitchFields) (s : State) := liftDev (fun d => d.chn k 0x03 f) s
def execChnRecvs (k : Nat) (f : StitchFields) (s : State) := liftDev (fun d => d.chn k 0x04 f) s
def execStrBwr (k : Nat) (f : StitchFields) (s : State) := liftDev (fun d => d.strRun k 0x00 f) s
def execStrBrd (k : Nat) (f : StitchFields) (s : State) := liftDev (fun d => d.strRun k 0x01 f) s
def execStrBwld (k : Nat) (f : StitchFields) (s : State) := liftDev (fun d => d.strRun k 0x02 f) s
def execStrBskip (k : Nat) (f : StitchFields) (s : State) := liftDev (fun d => d.strRun k 0x03 f) s

/-! ## MAC (Table 7.10) -/

def execMacCfg (k : Nat) (f : StitchFields) (s : State) := liftDev (fun d => d.stitchRun k 5 0x00 f fun st =>
  let w := (f.imm.extractLsb' 0 4).toNat
  let a := (f.imm.extractLsb' 4 4).toNat
  if !macPair w a then .fault fcOperand
  else .next { st with shadow := { st.shadow with wfmt := w, afmt := a, mask := [], scaleLoaded := false } }) s

def execMacWld (k : Nat) (f : StitchFields) (s : State) := liftDev (fun d => d.stitchRun k 5 0x01 f fun st =>
  if badV f.src1 then .fault fcOperand
  else
    match st.shadow.loadRows f (lanesBytes (st.v f.src1)) with
    | none => .fault fcOperand
    | some w => .next { st with shadow := w }) s

def execMacWsc (k : Nat) (f : StitchFields) (s : State) := liftDev (fun d => d.stitchRun k 5 0x02 f fun st =>
  if badV f.src1 then .fault fcOperand
  else .next { st with shadow := { st.shadow with scales := ((st.quarter f.src1 0).map (·.toNat)), scaleLoaded := true } }) s

/-- Row loads reach the shadow set within their own instructions here, so SWAP never waits (R179). -/
def execMacSwap (k : Nat) (f : StitchFields) (s : State) := liftDev (fun d => d.stitchRun k 5 0x03 f fun st =>
  if !st.shadow.complete then .fault fcWeights
  else .next { st with active := st.shadow, shadow := { st.active with mask := [], scaleLoaded := false } }) s

def execMacStep (k : Nat) (f : StitchFields) (s : State) := liftDev (fun d => d.stitchRun k 5 0x04 f fun st =>
  if badA f.dst || badV f.src1 then .fault fcOperand else .next (st.macStep f)) s

def execMacAzero (k : Nat) (f : StitchFields) (s : State) := liftDev (fun d => d.stitchRun k 5 0x05 f fun st =>
  if badA f.dst then .fault fcOperand
  else .next { st with acc := st.acc.filter fun e => e.1 / 1024 != f.dst.toNat, sat := satClear st.sat f.dst.toNat }) s

/-- Column t of a tile as lanes. -/
def Stitch.col (st : Stitch) (r : BitVec 5) (t : Nat) : List (BitVec 32) := (List.range 32).map fun j => st.acc1 r.toNat j t

def execMacArd (k : Nat) (f : StitchFields) (s : State) := liftDev (fun d => d.stitchRun k 5 0x06 f fun st =>
  if badV f.dst || badA f.src1 then .fault fcOperand else .next (st.setV f.dst (st.col f.src1 (immLane f)))) s

def execMacArdz (k : Nat) (f : StitchFields) (s : State) := liftDev (fun d => d.stitchRun k 5 0x07 f fun st =>
  if badV f.dst || badA f.src1 then .fault fcOperand
  else .next ((st.setV f.dst (st.col f.src1 (immLane f))).setCol f.src1.toNat (immLane f) [])) s

def execMacAwr (k : Nat) (f : StitchFields) (s : State) := liftDev (fun d => d.stitchRun k 5 0x08 f fun st =>
  if badA f.dst || badV f.src1 then .fault fcOperand else .next (st.setCol f.dst.toNat (immLane f) (st.v f.src1))) s

/-! ## VEC (Table 7.11) -/

def execVecFadd (k : Nat) (f : StitchFields) (s : State) := liftDev (fun d => d.vec2 k 0x00 f fadd) s
def execVecFsub (k : Nat) (f : StitchFields) (s : State) := liftDev (fun d => d.vec2 k 0x01 f fsub) s
def execVecFmul (k : Nat) (f : StitchFields) (s : State) := liftDev (fun d => d.vec2 k 0x02 f fmul) s
def execVecFma (k : Nat) (f : StitchFields) (s : State) := liftDev (fun d => d.vec k 0x03 f true fun c a b => zip3 c a b ffma) s
def execVecFmax (k : Nat) (f : StitchFields) (s : State) := liftDev (fun d => d.vec2 k 0x04 f fmax) s
def execVecFmin (k : Nat) (f : StitchFields) (s : State) := liftDev (fun d => d.vec2 k 0x05 f fmin) s
def execVecFexp2 (k : Nat) (f : StitchFields) (s : State) := liftDev (fun d => d.vec1 k 0x06 f fexp2) s
def execVecFrcp (k : Nat) (f : StitchFields) (s : State) := liftDev (fun d => d.vec1 k 0x07 f frcp) s
def execVecFrsqrt (k : Nat) (f : StitchFields) (s : State) := liftDev (fun d => d.vec1 k 0x08 f frsqrt) s
def execVecIadd (k : Nat) (f : StitchFields) (s : State) := liftDev (fun d => d.vec2 k 0x09 f (· + ·)) s
def execVecIsub (k : Nat) (f : StitchFields) (s : State) := liftDev (fun d => d.vec2 k 0x0A f (· - ·)) s
def execVecImul (k : Nat) (f : StitchFields) (s : State) := liftDev (fun d => d.vec2 k 0x0B f (· * ·)) s
def execVecImax (k : Nat) (f : StitchFields) (s : State) := liftDev (fun d => d.vec2 k 0x0C f max32) s
def execVecImin (k : Nat) (f : StitchFields) (s : State) := liftDev (fun d => d.vec2 k 0x0D f min32) s
def execVecAnd (k : Nat) (f : StitchFields) (s : State) := liftDev (fun d => d.vec2 k 0x0E f (· &&& ·)) s
def execVecOr (k : Nat) (f : StitchFields) (s : State) := liftDev (fun d => d.vec2 k 0x0F f (· ||| ·)) s
def execVecXor (k : Nat) (f : StitchFields) (s : State) := liftDev (fun d => d.vec2 k 0x10 f (· ^^^ ·)) s
def execVecShl (k : Nat) (f : StitchFields) (s : State) := liftDev (fun d => d.vec1 k 0x11 f fun a => shl32 a (BitVec.ofNat 32 (immLane f))) s
def execVecShr (k : Nat) (f : StitchFields) (s : State) := liftDev (fun d => d.vec1 k 0x12 f fun a => shr32 a (BitVec.ofNat 32 (immLane f))) s
def execVecSra (k : Nat) (f : StitchFields) (s : State) := liftDev (fun d => d.vec1 k 0x13 f fun a => sra32 a (BitVec.ofNat 32 (immLane f))) s
def execVecFcmplt (k : Nat) (f : StitchFields) (s : State) := liftDev (fun d => d.vec2 k 0x14 f fun a b => laneMask (flt a b)) s
def execVecIcmplt (k : Nat) (f : StitchFields) (s : State) := liftDev (fun d => d.vec2 k 0x15 f fun a b => laneMask (a.slt b)) s
def execVecSel (k : Nat) (f : StitchFields) (s : State) := liftDev (fun d => d.vec k 0x16 f true fun c a b => zip3 c a b fun c a b => if c = 0#32 then b else a) s
def execVecBcast (k : Nat) (f : StitchFields) (s : State) := liftDev (fun d => d.stitchRun k 6 0x17 f fun st =>
  if badV f.dst then .fault fcOperand else .next (st.setV f.dst (List.replicate 32 (st.s f.src1)))) s
def execVecLane (k : Nat) (f : StitchFields) (s : State) := liftDev (fun d => d.stitchRun k 6 0x18 f fun st =>
  if badV f.dst then .fault fcOperand else .next (st.setV f.dst ((st.v f.dst).set (immLane f) (st.s f.src1)))) s
def execVecExtr (k : Nat) (f : StitchFields) (s : State) := liftDev (fun d => d.vecReduce k 0x19 f fun a => a.getD (immLane f) 0#32) s
def execVecFsum (k : Nat) (f : StitchFields) (s : State) := liftDev (fun d => d.vecReduce k 0x1A f fsumTree) s
def execVecFmaxr (k : Nat) (f : StitchFields) (s : State) := liftDev (fun d => d.vecReduce k 0x1B f fun a => a.tail.foldl fmax (a.headD 0#32)) s
def execVecCvt (k : Nat) (f : StitchFields) (s : State) := liftDev (fun d => d.vecConv k 0x1C f (· ≤ 6) true fun st => st.cvt f) s
def execVecUnpk (k : Nat) (f : StitchFields) (s : State) := liftDev (fun d => d.vecConv k 0x1D f (fun c => c ≤ 6 || c == 8) false fun st => st.unpk f) s
def execVecQblk (k : Nat) (f : StitchFields) (s : State) := liftDev (fun d => d.vecConv k 0x1E f (fun c => c == 0 || c == 3 || c == 4 || c == 5) true fun st => st.qblk f) s
def execVecItof (k : Nat) (f : StitchFields) (s : State) := liftDev (fun d => d.vec1 k 0x1F f itof) s
def execVecFtoi (k : Nat) (f : StitchFields) (s : State) := liftDev (fun d => d.stitchRun k 6 0x20 f fun st =>
  if badV f.dst || badV f.src1 then .fault fcOperand
  else
    let r := (st.v f.src1).map ftoi
    .next { st.setV f.dst (r.map (·.1)) with nanLost := st.nanLost || r.any (·.2) }) s

/-! ## SYNC (Table 7.12) -/

def execSyncHalt (k : Nat) (f : StitchFields) (s : State) := liftDev (fun d => d.stitchRun k 7 0x00 f .halt) s
def execSyncId (k : Nat) (f : StitchFields) (s : State) := liftDev (fun d => d.stitchReach k 7 0x01 f fun id j d =>
  d.ranTo id j k (d.stitch k) (.next ((d.stitch k).setS f.dst (BitVec.ofNat 32 (j.rel k))))) s
def execSyncNpanel (k : Nat) (f : StitchFields) (s : State) := liftDev (fun d => d.stitchReach k 7 0x02 f fun id j d =>
  d.ranTo id j k (d.stitch k) (.next ((d.stitch k).setS f.dst (BitVec.ofNat 32 j.panels)))) s
def execSyncFlags (k : Nat) (f : StitchFields) (s : State) := liftDev (fun d => d.stitchRun k 7 0x03 f fun st =>
  .next { st.setS f.dst (stickyFlags st.sat st.nanLost) with sat := 0, nanLost := false }) s
def execSyncDrain (k : Nat) (f : StitchFields) (s : State) := liftDev (fun d => d.stitchReach k 7 0x04 f fun id j d =>
  d.drainRun id j k) s
def execSyncRngset (k : Nat) (f : StitchFields) (s : State) := liftDev (fun d => d.stitchRun k 7 0x05 f fun st =>
  .next { st with lfsr := seedReg (st.s f.src1) }) s
def execSyncRngget (k : Nat) (f : StitchFields) (s : State) := liftDev (fun d => d.stitchRun k 7 0x06 f fun st =>
  .next (st.setS f.dst st.lfsr)) s

/-! ## Blocked stitches, buses, ports -/

def execBlockedInstructionResume (k : Nat) (s : State) := liftDev (fun d => d.resume k) s
def execBusSlotTransfer (course : Nat) (s : State) := liftDev (fun d => d.busSlot course) s
def execStreamLineReturn (port line : Nat) (s : State) := liftDev (fun d => d.portReturn port line) s
def execStreamTransferIssue (port : Nat) (s : State) := liftDev (fun d => d.portStep port) s

/-- An error in a stitch's stores (R135): corrected in place, or the end of its job; the second uncorrectable one in a
panel retires it. -/
def execStitchStoreEccError (k : Nat) (uncorrectable : Bool) (s : State) := liftDev (fun d =>
  let p := k / 512
  if !uncorrectable then d.bump 0x20000C 16
  else
    let d := d.bump 0x20000C 0
    let n := (d.panel p).uncorr + 1
    let d := d.setPanel p fun q => { q with uncorr := min 15 n, retireWish := q.retireWish || 2 ≤ n }
    let d := match d.stitchJob k with
      | some (id, j) => d.stitchFault id j k fcStoreEcc (d.stitch k).pc
      | none => d.logOpen 0x0400 0xF0
    if 2 ≤ n && ((d.panel p).state = psIdle || (d.panel p).state = psOff) then d.setPanel p fun q => { q with state := psRetired } else d) s

end Sys2Proof.Machine
end

