-- ==== Sys2Proof/Machine/Dispatch.lean ====
section
/-! DEFINITION. One arm per command: a direct call of its meaning. -/

namespace Sys2Proof.Machine

def exec (i : Instr) (s : State) : Host.Outcome State Fault Refusal :=
  match i with
  | .registerWrite who off size val => Sys2Proof.Machine.execRegisterWrite who off size val s
  | .rcRegisterRead who off size => Sys2Proof.Machine.execRcRegisterRead who off size s
  | .d2dModuleFail module => Sys2Proof.Machine.execD2dModuleFail module s
  | .regionCreate ring idx => Sys2Proof.Machine.execRegionCreate ring idx s
  | .regionFree ring idx => Sys2Proof.Machine.execRegionFree ring idx s
  | .grant ring idx => Sys2Proof.Machine.execGrant ring idx s
  | .grantRemove ring idx => Sys2Proof.Machine.execGrantRemove ring idx s
  | .revoke ring idx => Sys2Proof.Machine.execRevoke ring idx s
  | .revokeDrainDone handle rgen => Sys2Proof.Machine.execRevokeDrainDone handle rgen s
  | .draftOpen ring idx => Sys2Proof.Machine.execDraftOpen ring idx s
  | .draftDiscard ring idx => Sys2Proof.Machine.execDraftDiscard ring idx s
  | .draftCopyDone ext => Sys2Proof.Machine.execDraftCopyDone ext s
  | .publish ring idx => Sys2Proof.Machine.execPublish ring idx s
  | .publishInstall handle => Sys2Proof.Machine.execPublishInstall handle s
  | .pinOpen ring idx => Sys2Proof.Machine.execPinOpen ring idx s
  | .pinRenew ring idx => Sys2Proof.Machine.execPinRenew ring idx s
  | .pinClose ring idx => Sys2Proof.Machine.execPinClose ring idx s
  | .pinLeaseExpiry pin => Sys2Proof.Machine.execPinLeaseExpiry pin s
  | .stackRetire ring idx => Sys2Proof.Machine.execStackRetire ring idx s
  | .stackReturn ring idx => Sys2Proof.Machine.execStackReturn ring idx s
  | .regionQuery ring idx => Sys2Proof.Machine.execRegionQuery ring idx s
  | .extentQuery ring idx => Sys2Proof.Machine.execExtentQuery ring idx s
  | .reweaveEpoch => Sys2Proof.Machine.execReweaveEpoch s
  | .filterUpdateAnswer switch record status => Sys2Proof.Machine.execFilterUpdateAnswer switch record status s
  | .migrationSkeinCopied ext => Sys2Proof.Machine.execMigrationSkeinCopied ext s
  | .igfEntryWrite who off size val => Sys2Proof.Machine.execIgfEntryWrite who off size val s
  | .poolCacheFramesWrite who val => Sys2Proof.Machine.execPoolCacheFramesWrite who val s
  | .frameFreed frame => Sys2Proof.Machine.execFrameFreed frame s
  | .poolWindowAccess port off len data => Sys2Proof.Machine.execPoolWindowAccess port off len data s
  | .poolWindowReissue port => Sys2Proof.Machine.execPoolWindowReissue port s
  | .acquire port => Sys2Proof.Machine.execAcquire port s
  | .renew port => Sys2Proof.Machine.execRenew port s
  | .release port => Sys2Proof.Machine.execRelease port s
  | .leaseExpiry => Sys2Proof.Machine.execLeaseExpiry s
  | .negotiate port => Sys2Proof.Machine.execNegotiate port s
  | .clientOpen m => Sys2Proof.Machine.execClientOpen m s
  | .clientClose m => Sys2Proof.Machine.execClientClose m s
  | .ringPartApply => Sys2Proof.Machine.execRingPartApply s
  | .ringEnable who ring => Sys2Proof.Machine.execRingEnable who ring s
  | .ringDisable who ring => Sys2Proof.Machine.execRingDisable who ring s
  | .ringDrainDone ring => Sys2Proof.Machine.execRingDrainDone ring s
  | .doorbell who off size value => Sys2Proof.Machine.execDoorbell who off size value s
  | .descriptorFetch ring bytes => Sys2Proof.Machine.execDescriptorFetch ring bytes s
  | .descriptorStart ring => Sys2Proof.Machine.execDescriptorStart ring s
  | .coalesceTimeout ring => Sys2Proof.Machine.execCoalesceTimeout ring s
  | .notifyReissue ring => Sys2Proof.Machine.execNotifyReissue ring s
  | .nop ring idx => Sys2Proof.Machine.execNop ring idx s
  | .windowAccess m => Sys2Proof.Machine.execWindowAccess m s
  | .msixUnmask port vector => Sys2Proof.Machine.execMsixUnmask port vector s
  | .cellReceive link c => Sys2Proof.Machine.execCellReceive link c s
  | .read m => Sys2Proof.Machine.execRead m s
  | .readBulk m => Sys2Proof.Machine.execReadBulk m s
  | .write m => Sys2Proof.Machine.execWrite m s
  | .writeBulk m => Sys2Proof.Machine.execWriteBulk m s
  | .xferHoldTimeout src tag => Sys2Proof.Machine.execXferHoldTimeout src tag s
  | .fetchAdd m => Sys2Proof.Machine.execFetchAdd m s
  | .fetchAnd m => Sys2Proof.Machine.execFetchAnd m s
  | .fetchOr m => Sys2Proof.Machine.execFetchOr m s
  | .fetchXor m => Sys2Proof.Machine.execFetchXor m s
  | .swap m => Sys2Proof.Machine.execSwap m s
  | .cas m => Sys2Proof.Machine.execCas m s
  | .fetchUmax m => Sys2Proof.Machine.execFetchUmax m s
  | .fadd32 m => Sys2Proof.Machine.execFadd32 m s
  | .lookup m => Sys2Proof.Machine.execLookup m s
  | .lookupRef m => Sys2Proof.Machine.execLookupRef m s
  | .reduce m => Sys2Proof.Machine.execReduce m s
  | .poolOp m => Sys2Proof.Machine.execPoolOp m s
  | .echo m => Sys2Proof.Machine.execEcho m s
  | .reservedOpcode m => Sys2Proof.Machine.execReservedOpcode m s
  | .dedupHoldExpiry home src tag => Sys2Proof.Machine.execDedupHoldExpiry home src tag s
  | .orderedAdmission src tc => Sys2Proof.Machine.execOrderedAdmission src tc s
  | .responseReceive link m => Sys2Proof.Machine.execResponseReceive link m s
  | .deviceRequestTimeout tag => Sys2Proof.Machine.execDeviceRequestTimeout tag s
  | .rdShared m => Sys2Proof.Machine.execRdShared m s
  | .rdOwn m => Sys2Proof.Machine.execRdOwn m s
  | .upgrade m => Sys2Proof.Machine.execUpgrade m s
  | .wbDirty m => Sys2Proof.Machine.execWbDirty m s
  | .evict m => Sys2Proof.Machine.execEvict m s
  | .stashWrite m => Sys2Proof.Machine.execStashWrite m s
  | .snoopAnswer link m => Sys2Proof.Machine.execSnoopAnswer link m s
  | .snoopTimeout tag => Sys2Proof.Machine.execSnoopTimeout tag s
  | .reservationTimeout home => Sys2Proof.Machine.execReservationTimeout home s
  | .recallTransfer link m => Sys2Proof.Machine.execRecallTransfer link m s
  | .snpInv m => Sys2Proof.Machine.execSnpInv m s
  | .snpShare m => Sys2Proof.Machine.execSnpShare m s
  | .snpRead m => Sys2Proof.Machine.execSnpRead m s
  | .snpStash m => Sys2Proof.Machine.execSnpStash m s
  | .snpRecall m => Sys2Proof.Machine.execSnpRecall m s
  | .ctrlNop k f => Sys2Proof.Machine.execCtrlNop k f s
  | .ctrlJmp k f => Sys2Proof.Machine.execCtrlJmp k f s
  | .ctrlBeq k f => Sys2Proof.Machine.execCtrlBeq k f s
  | .ctrlBne k f => Sys2Proof.Machine.execCtrlBne k f s
  | .ctrlBlt k f => Sys2Proof.Machine.execCtrlBlt k f s
  | .ctrlBge k f => Sys2Proof.Machine.execCtrlBge k f s
  | .ctrlBltu k f => Sys2Proof.Machine.execCtrlBltu k f s
  | .ctrlBgeu k f => Sys2Proof.Machine.execCtrlBgeu k f s
  | .ctrlLoop k f => Sys2Proof.Machine.execCtrlLoop k f s
  | .ctrlLoopi k f => Sys2Proof.Machine.execCtrlLoopi k f s
  | .saluAdd k f => Sys2Proof.Machine.execSaluAdd k f s
  | .saluSub k f => Sys2Proof.Machine.execSaluSub k f s
  | .saluAnd k f => Sys2Proof.Machine.execSaluAnd k f s
  | .saluOr k f => Sys2Proof.Machine.execSaluOr k f s
  | .saluXor k f => Sys2Proof.Machine.execSaluXor k f s
  | .saluShl k f => Sys2Proof.Machine.execSaluShl k f s
  | .saluShr k f => Sys2Proof.Machine.execSaluShr k f s
  | .saluSra k f => Sys2Proof.Machine.execSaluSra k f s
  | .saluMul k f => Sys2Proof.Machine.execSaluMul k f s
  | .saluMin k f => Sys2Proof.Machine.execSaluMin k f s
  | .saluMax k f => Sys2Proof.Machine.execSaluMax k f s
  | .saluMinu k f => Sys2Proof.Machine.execSaluMinu k f s
  | .saluMaxu k f => Sys2Proof.Machine.execSaluMaxu k f s
  | .saluSlt k f => Sys2Proof.Machine.execSaluSlt k f s
  | .saluSltu k f => Sys2Proof.Machine.execSaluSltu k f s
  | .saluAddi k f => Sys2Proof.Machine.execSaluAddi k f s
  | .saluSubi k f => Sys2Proof.Machine.execSaluSubi k f s
  | .saluAndi k f => Sys2Proof.Machine.execSaluAndi k f s
  | .saluOri k f => Sys2Proof.Machine.execSaluOri k f s
  | .saluXori k f => Sys2Proof.Machine.execSaluXori k f s
  | .saluShli k f => Sys2Proof.Machine.execSaluShli k f s
  | .saluShri k f => Sys2Proof.Machine.execSaluShri k f s
  | .saluSrai k f => Sys2Proof.Machine.execSaluSrai k f s
  | .saluMuli k f => Sys2Proof.Machine.execSaluMuli k f s
  | .saluMini k f => Sys2Proof.Machine.execSaluMini k f s
  | .saluMaxi k f => Sys2Proof.Machine.execSaluMaxi k f s
  | .saluMinui k f => Sys2Proof.Machine.execSaluMinui k f s
  | .saluMaxui k f => Sys2Proof.Machine.execSaluMaxui k f s
  | .saluSlti k f => Sys2Proof.Machine.execSaluSlti k f s
  | .saluSltui k f => Sys2Proof.Machine.execSaluSltui k f s
  | .lslLds k f => Sys2Proof.Machine.execLslLds k f s
  | .lslSts k f => Sys2Proof.Machine.execLslSts k f s
  | .lslLdv k f => Sys2Proof.Machine.execLslLdv k f s
  | .lslStv k f => Sys2Proof.Machine.execLslStv k f s
  | .lslLdvq k f => Sys2Proof.Machine.execLslLdvq k f s
  | .lslStvq k f => Sys2Proof.Machine.execLslStvq k f s
  | .lslLdb k f => Sys2Proof.Machine.execLslLdb k f s
  | .lslStb k f => Sys2Proof.Machine.execLslStb k f s
  | .chnSend k f => Sys2Proof.Machine.execChnSend k f s
  | .chnRecv k f => Sys2Proof.Machine.execChnRecv k f s
  | .chnFwd k f => Sys2Proof.Machine.execChnFwd k f s
  | .chnSends k f => Sys2Proof.Machine.execChnSends k f s
  | .chnRecvs k f => Sys2Proof.Machine.execChnRecvs k f s
  | .strBwr k f => Sys2Proof.Machine.execStrBwr k f s
  | .strBrd k f => Sys2Proof.Machine.execStrBrd k f s
  | .strBwld k f => Sys2Proof.Machine.execStrBwld k f s
  | .strBskip k f => Sys2Proof.Machine.execStrBskip k f s
  | .macCfg k f => Sys2Proof.Machine.execMacCfg k f s
  | .macWld k f => Sys2Proof.Machine.execMacWld k f s
  | .macWsc k f => Sys2Proof.Machine.execMacWsc k f s
  | .macSwap k f => Sys2Proof.Machine.execMacSwap k f s
  | .macStep k f => Sys2Proof.Machine.execMacStep k f s
  | .macAzero k f => Sys2Proof.Machine.execMacAzero k f s
  | .macArd k f => Sys2Proof.Machine.execMacArd k f s
  | .macArdz k f => Sys2Proof.Machine.execMacArdz k f s
  | .macAwr k f => Sys2Proof.Machine.execMacAwr k f s
  | .vecFadd k f => Sys2Proof.Machine.execVecFadd k f s
  | .vecFsub k f => Sys2Proof.Machine.execVecFsub k f s
  | .vecFmul k f => Sys2Proof.Machine.execVecFmul k f s
  | .vecFma k f => Sys2Proof.Machine.execVecFma k f s
  | .vecFmax k f => Sys2Proof.Machine.execVecFmax k f s
  | .vecFmin k f => Sys2Proof.Machine.execVecFmin k f s
  | .vecFexp2 k f => Sys2Proof.Machine.execVecFexp2 k f s
  | .vecFrcp k f => Sys2Proof.Machine.execVecFrcp k f s
  | .vecFrsqrt k f => Sys2Proof.Machine.execVecFrsqrt k f s
  | .vecIadd k f => Sys2Proof.Machine.execVecIadd k f s
  | .vecIsub k f => Sys2Proof.Machine.execVecIsub k f s
  | .vecImul k f => Sys2Proof.Machine.execVecImul k f s
  | .vecImax k f => Sys2Proof.Machine.execVecImax k f s
  | .vecImin k f => Sys2Proof.Machine.execVecImin k f s
  | .vecAnd k f => Sys2Proof.Machine.execVecAnd k f s
  | .vecOr k f => Sys2Proof.Machine.execVecOr k f s
  | .vecXor k f => Sys2Proof.Machine.execVecXor k f s
  | .vecShl k f => Sys2Proof.Machine.execVecShl k f s
  | .vecShr k f => Sys2Proof.Machine.execVecShr k f s
  | .vecSra k f => Sys2Proof.Machine.execVecSra k f s
  | .vecFcmplt k f => Sys2Proof.Machine.execVecFcmplt k f s
  | .vecIcmplt k f => Sys2Proof.Machine.execVecIcmplt k f s
  | .vecSel k f => Sys2Proof.Machine.execVecSel k f s
  | .vecBcast k f => Sys2Proof.Machine.execVecBcast k f s
  | .vecLane k f => Sys2Proof.Machine.execVecLane k f s
  | .vecExtr k f => Sys2Proof.Machine.execVecExtr k f s
  | .vecFsum k f => Sys2Proof.Machine.execVecFsum k f s
  | .vecFmaxr k f => Sys2Proof.Machine.execVecFmaxr k f s
  | .vecCvt k f => Sys2Proof.Machine.execVecCvt k f s
  | .vecUnpk k f => Sys2Proof.Machine.execVecUnpk k f s
  | .vecQblk k f => Sys2Proof.Machine.execVecQblk k f s
  | .vecItof k f => Sys2Proof.Machine.execVecItof k f s
  | .vecFtoi k f => Sys2Proof.Machine.execVecFtoi k f s
  | .syncHalt k f => Sys2Proof.Machine.execSyncHalt k f s
  | .syncId k f => Sys2Proof.Machine.execSyncId k f s
  | .syncNpanel k f => Sys2Proof.Machine.execSyncNpanel k f s
  | .syncFlags k f => Sys2Proof.Machine.execSyncFlags k f s
  | .syncDrain k f => Sys2Proof.Machine.execSyncDrain k f s
  | .syncRngset k f => Sys2Proof.Machine.execSyncRngset k f s
  | .syncRngget k f => Sys2Proof.Machine.execSyncRngget k f s
  | .blockedInstructionResume k => Sys2Proof.Machine.execBlockedInstructionResume k s
  | .busSlotTransfer course => Sys2Proof.Machine.execBusSlotTransfer course s
  | .streamLineReturn port line => Sys2Proof.Machine.execStreamLineReturn port line s
  | .streamTransferIssue port => Sys2Proof.Machine.execStreamTransferIssue port s
  | .stitchStoreEccError k uncorrectable => Sys2Proof.Machine.execStitchStoreEccError k uncorrectable s
  | .jobStall job => Sys2Proof.Machine.execJobStall job s
  | .panelDrainDone panel => Sys2Proof.Machine.execPanelDrainDone panel s
  | .jobRun ring idx => Sys2Proof.Machine.execJobRun ring idx s
  | .jobPlace => Sys2Proof.Machine.execJobPlace s
  | .jobNaturalCompletion job => Sys2Proof.Machine.execJobNaturalCompletion job s
  | .jobLimitTimeout job => Sys2Proof.Machine.execJobLimitTimeout job s
  | .abort ring idx => Sys2Proof.Machine.execAbort ring idx s
  | .ctxCreate ring idx => Sys2Proof.Machine.execCtxCreate ring idx s
  | .ctxDestroy ring idx => Sys2Proof.Machine.execCtxDestroy ring idx s
  | .segSet ring idx => Sys2Proof.Machine.execSegSet ring idx s
  | .segClear ring idx => Sys2Proof.Machine.execSegClear ring idx s
  | .ctxQuery ring idx => Sys2Proof.Machine.execCtxQuery ring idx s
  | .panelAdmin ring idx testPass => Sys2Proof.Machine.execPanelAdmin ring idx testPass s
  | .lookupDescriptor ring idx => Sys2Proof.Machine.execLookupDescriptor ring idx s
  | .reduceDescriptor ring idx vec => Sys2Proof.Machine.execReduceDescriptor ring idx vec s
  | .stockList ring idx => Sys2Proof.Machine.execStockList ring idx s
  | .gruRowReadAnswer lookup pos => Sys2Proof.Machine.execGruRowReadAnswer lookup pos s
  | .gruReissue lookup pos => Sys2Proof.Machine.execGruReissue lookup pos s
  | .copy ring idx => Sys2Proof.Machine.execCopy ring idx s
  | .fill ring idx => Sys2Proof.Machine.execFill ring idx s
  | .xctxSet ring idx => Sys2Proof.Machine.execXctxSet ring idx s
  | .invalidate ring idx => Sys2Proof.Machine.execInvalidate ring idx s
  | .faultResolve ring idx => Sys2Proof.Machine.execFaultResolve ring idx s
  | .tierHint ring idx => Sys2Proof.Machine.execTierHint ring idx s
  | .moverStepData mover answer => Sys2Proof.Machine.execMoverStepData mover answer s
  | .moverReissue mover => Sys2Proof.Machine.execMoverReissue mover s
  | .atsTranslationCompletion mover answer => Sys2Proof.Machine.execAtsTranslationCompletion mover answer s
  | .walkerReadAnswer mover => Sys2Proof.Machine.execWalkerReadAnswer mover s
  | .priGroupResponse port index code => Sys2Proof.Machine.execPriGroupResponse port index code s
  | .faultTimeout record => Sys2Proof.Machine.execFaultTimeout record s
  | .atsInvalidateRequest port pasid base length => Sys2Proof.Machine.execAtsInvalidateRequest port pasid base length s
  | .invalidationDone inv => Sys2Proof.Machine.execInvalidationDone inv s
  | .counterDecay => Sys2Proof.Machine.execCounterDecay s
  | .presenceChange port partner found => Sys2Proof.Machine.execPresenceChange port partner found s
  | .driveList ring idx => Sys2Proof.Machine.execDriveList ring idx s
  | .driveAdopt ring idx => Sys2Proof.Machine.execDriveAdopt ring idx s
  | .driveRetire ring idx => Sys2Proof.Machine.execDriveRetire ring idx s
  | .driveLog ring idx => Sys2Proof.Machine.execDriveLog ring idx s
  | .farFlush ring idx => Sys2Proof.Machine.execFarFlush ring idx s
  | .nvmeCompletion cmd ok page => Sys2Proof.Machine.execNvmeCompletion cmd ok page s
  | .nvmeCommandTimeout cmd => Sys2Proof.Machine.execNvmeCommandTimeout cmd s
  | .nvmeAsyncEvent drive critical => Sys2Proof.Machine.execNvmeAsyncEvent drive critical s
  | .signalDetect link lanes => Sys2Proof.Machine.execSignalDetect link lanes s
  | .detectRetry link => Sys2Proof.Machine.execDetectRetry link s
  | .equaliseDone link lanes => Sys2Proof.Machine.execEqualiseDone link lanes s
  | .alignDone link => Sys2Proof.Machine.execAlignDone link s
  | .trainingStepTimeout link => Sys2Proof.Machine.execTrainingStepTimeout link s
  | .idle link ack flow => Sys2Proof.Machine.execIdle link ack flow s
  | .ack link ack flow => Sys2Proof.Machine.execAck link ack flow s
  | .replay link ack flow fromSeq => Sys2Proof.Machine.execReplay link ack flow fromSeq s
  | .param link ack flow p => Sys2Proof.Machine.execParam link ack flow p s
  | .key link ack flow nonce salt agrees => Sys2Proof.Machine.execKey link ack flow nonce salt agrees s
  | .auth link ack flow first count group tag => Sys2Proof.Machine.execAuth link ack flow first count group tag s
  | .reset link ack flow => Sys2Proof.Machine.execReset link ack flow s
  | .reservedControlCell link ack flow type => Sys2Proof.Machine.execReservedControlCell link ack flow type s
  | .ackTimerExpiry link => Sys2Proof.Machine.execAckTimerExpiry link s
  | .replayTimerExpiry link => Sys2Proof.Machine.execReplayTimerExpiry link s
  | .creditTimerExpiry link => Sys2Proof.Machine.execCreditTimerExpiry link s
  | .groupClose link => Sys2Proof.Machine.execGroupClose link s
  | .lockLoss link => Sys2Proof.Machine.execLockLoss link s
  | .autoRetrain link => Sys2Proof.Machine.execAutoRetrain link s
  | .linkCtlReset who link => Sys2Proof.Machine.execLinkCtlReset who link s
  | .linkCtlEnable who link enable => Sys2Proof.Machine.execLinkCtlEnable who link enable s
  | .routerLookup port m => Sys2Proof.Machine.execRouterLookup port m s
  | .headHoldTimeout output entry => Sys2Proof.Machine.execHeadHoldTimeout output entry s
  | .outputSend output => Sys2Proof.Machine.execOutputSend output s
  | .fence who node => Sys2Proof.Machine.execFence who node s
  | .unfence who node => Sys2Proof.Machine.execUnfence who node s
  | .fencePoint => Sys2Proof.Machine.execFencePoint s
  | .mirrorPair partnerHoldsRegion partnerPref => Sys2Proof.Machine.execMirrorPair partnerHoldsRegion partnerPref s
  | .repWrite link m => Sys2Proof.Machine.execRepWrite link m s
  | .repAtomic link m => Sys2Proof.Machine.execRepAtomic link m s
  | .repAdmin link m => Sys2Proof.Machine.execRepAdmin link m s
  | .repState link m => Sys2Proof.Machine.execRepState link m s
  | .digest link m => Sys2Proof.Machine.execDigest link m s
  | .repAck link m => Sys2Proof.Machine.execRepAck link m s
  | .fetch link m => Sys2Proof.Machine.execFetch link m s
  | .time link m => Sys2Proof.Machine.execTime link m s
  | .digestMissed epoch => Sys2Proof.Machine.execDigestMissed epoch s
  | .epochEnd => Sys2Proof.Machine.execEpochEnd s
  | .promote port term => Sys2Proof.Machine.execPromote port term s
  | .solo port term => Sys2Proof.Machine.execSolo port term s
  | .demote port term => Sys2Proof.Machine.execDemote port term s
  | .resyncCopyDone activeTerm => Sys2Proof.Machine.execResyncCopyDone activeTerm s
  | .dramCommandIssue stack bank => Sys2Proof.Machine.execDramCommandIssue stack bank s
  | .throttleExpiry stack => Sys2Proof.Machine.execThrottleExpiry stack s
  | .stackReadComplete stack line err => Sys2Proof.Machine.execStackReadComplete stack line err s
  | .refreshDue stack bank => Sys2Proof.Machine.execRefreshDue stack bank s
  | .refreshWindow stack => Sys2Proof.Machine.execRefreshWindow stack s
  | .stackTempRead stack temp => Sys2Proof.Machine.execStackTempRead stack temp s
  | .rankPowerDown stack rank => Sys2Proof.Machine.execRankPowerDown stack rank s
  | .scrubRead stack err => Sys2Proof.Machine.execScrubRead stack err s
  | .eccTestCtlWrite who val => Sys2Proof.Machine.execEccTestCtlWrite who val s
  | .attest ring idx => Sys2Proof.Machine.execAttest ring idx s
  | .attestSign => Sys2Proof.Machine.execAttestSign s
  | .kemPubkey ring idx => Sys2Proof.Machine.execKemPubkey ring idx s
  | .seal ring idx key => Sys2Proof.Machine.execSeal ring idx key s
  | .keyRelease ring idx ciphertext => Sys2Proof.Machine.execKeyRelease ring idx ciphertext s
  | .sealLoad ring idx => Sys2Proof.Machine.execSealLoad ring idx s
  | .unseal ring idx => Sys2Proof.Machine.execUnseal ring idx s
  | .bindOffDone => Sys2Proof.Machine.execBindOffDone s
  | .keyRegister ring idx key => Sys2Proof.Machine.execKeyRegister ring idx key s
  | .fwStage ring idx image sigOk => Sys2Proof.Machine.execFwStage ring idx image sigOk s
  | .debugUnlock ring idx token sigOk => Sys2Proof.Machine.execDebugUnlock ring idx token sigOk s
  | .relock who => Sys2Proof.Machine.execRelock who s
  | .debugLifetimeExpiry => Sys2Proof.Machine.execDebugLifetimeExpiry s
  | .powerState ring idx => Sys2Proof.Machine.execPowerState ring idx s
  | .entryTimeout => Sys2Proof.Machine.execEntryTimeout s
  | .entryDrained => Sys2Proof.Machine.execEntryDrained s
  | .profileSet ring idx => Sys2Proof.Machine.execProfileSet ring idx s
  | .wake source => Sys2Proof.Machine.execWake source s
  | .wakeTimer => Sys2Proof.Machine.execWakeTimer s
  | .wakeDone runtimeOk drivesFound exitFailed => Sys2Proof.Machine.execWakeDone runtimeOk drivesFound exitFailed s
  | .damperCycle watts => Sys2Proof.Machine.execDamperCycle watts s
  | .pwrAlert => Sys2Proof.Machine.execPwrAlert s
  | .regulatorPoll rail faulty junction watts => Sys2Proof.Machine.execRegulatorPoll rail faulty junction watts s
  | .avsUpdate => Sys2Proof.Machine.execAvsUpdate s
  | .thermalTrip junction => Sys2Proof.Machine.execThermalTrip junction s
  | .rootPllLockLoss => Sys2Proof.Machine.execRootPllLockLoss s
  | .rootPllLock => Sys2Proof.Machine.execRootPllLock s
  | .clockRampStep island => Sys2Proof.Machine.execClockRampStep island s
  | .gaugeRead gauge reading => Sys2Proof.Machine.execGaugeRead gauge reading s
  | .planSchedule => Sys2Proof.Machine.execPlanSchedule s
  | .agePlan ring idx => Sys2Proof.Machine.execAgePlan ring idx s
  | .ageRead ring idx => Sys2Proof.Machine.execAgeRead ring idx s
  | .ageRecord ring idx => Sys2Proof.Machine.execAgeRecord ring idx s
  | .pohUpdate => Sys2Proof.Machine.execPohUpdate s
  | .retrainStart => Sys2Proof.Machine.execRetrainStart s
  | .journalWrite => Sys2Proof.Machine.execJournalWrite s
  | .irqTake core => Sys2Proof.Machine.execIrqTake core s
  | .irqCoreEoi core input => Sys2Proof.Machine.execIrqCoreEoi core input s
  | .irqSwi raise => Sys2Proof.Machine.execIrqSwi raise s
  | .boardInputEdge input => Sys2Proof.Machine.execBoardInputEdge input s
  | .filterAccept input lowTicks => Sys2Proof.Machine.execFilterAccept input lowTicks s
  | .evtFilter ring idx => Sys2Proof.Machine.execEvtFilter ring idx s
  | .evtRead ring idx => Sys2Proof.Machine.execEvtRead ring idx s
  | .perfList ring idx => Sys2Proof.Machine.execPerfList ring idx s
  | .perfRead ring idx => Sys2Proof.Machine.execPerfRead ring idx s
  | .ptmDialogue port master => Sys2Proof.Machine.execPtmDialogue port master s
  | .startUp b => Sys2Proof.Machine.execStartUp b s
  | .perstAssert port => Sys2Proof.Machine.execPerstAssert port s
  | .ready => Sys2Proof.Machine.execReady s
  | .startupStop code => Sys2Proof.Machine.execStartupStop code s
  | .partialReset who component => Sys2Proof.Machine.execPartialReset who component s
  | .progressWatchdog component => Sys2Proof.Machine.execProgressWatchdog component s
  | .partialResetEnd component ok => Sys2Proof.Machine.execPartialResetEnd component ok s
  | .portReset port => Sys2Proof.Machine.execPortReset port s
  | .nodeIdWrite who val => Sys2Proof.Machine.execNodeIdWrite who val s
  | .loopbackStart who val => Sys2Proof.Machine.execLoopbackStart who val s
  | .loopbackStop who => Sys2Proof.Machine.execLoopbackStop who s
  | .loopbackEnd errors checked lockLost => Sys2Proof.Machine.execLoopbackEnd errors checked lockLost s
  | .bistStart who target => Sys2Proof.Machine.execBistStart who target s
  | .bistEnd fails cacheSets => Sys2Proof.Machine.execBistEnd fails cacheSets s
  | .mctpEcho payload => Sys2Proof.Machine.execMctpEcho payload s
  | .idcode => Sys2Proof.Machine.execIdcode s
  | .samplePreload => Sys2Proof.Machine.execSamplePreload s
  | .extest => Sys2Proof.Machine.execExtest s
  | .extestPulse => Sys2Proof.Machine.execExtestPulse s
  | .extestTrain => Sys2Proof.Machine.execExtestTrain s
  | .highz => Sys2Proof.Machine.execHighz s
  | .clampInstruction => Sys2Proof.Machine.execClampInstruction s
  | .wirStack stack => Sys2Proof.Machine.execWirStack stack s
  | .bypass code => Sys2Proof.Machine.execBypass code s
  | .pcieCompletionTimeout port target => Sys2Proof.Machine.execPcieCompletionTimeout port target s
  | .priEnableWrite port enable allocation => Sys2Proof.Machine.execPriEnableWrite port enable allocation s
  | .outputWriteReissue ring idx => Sys2Proof.Machine.execOutputWriteReissue ring idx s
  | .walkerReissue mover => Sys2Proof.Machine.execWalkerReissue mover s
  | .linkTxPowerLower link => Sys2Proof.Machine.execLinkTxPowerLower link s
  | .pwrAlertRelease => Sys2Proof.Machine.execPwrAlertRelease s
  | .railMonitorFall rail => Sys2Proof.Machine.execRailMonitorFall rail s
  | .powerLoss => Sys2Proof.Machine.execPowerLoss s
  | .alwaysOnPowerGood oscWait => Sys2Proof.Machine.execAlwaysOnPowerGood oscWait s
  | .oscWaitExpiry => Sys2Proof.Machine.execOscWaitExpiry s
  | .startUpPlan => Sys2Proof.Machine.execStartUpPlan s

end Sys2Proof.Machine
end

