-- ==== Sys2Proof/Machine/Tick.lean ====
section
/-! DEFINITION. The passing of time when no command waits. -/

namespace Sys2Proof.Machine

/-- What can go on of itself once its obstacle has gone: requests waiting for a tag (R99), invalidations for a way of the directory
cache (R124), the requests reservations hold (R128), completion records that met RETRY (R78), output that hosts have taken
(R480), ABORTs whose target's record is written (R213), and walks that wait for a walker (R241), and
the far tier's work (R262, R265). -/
def Dev.settle (d : Dev) : Dev := d.sendWaiting.sweepAll.serveAllHeld.flushRings.outputsTaken.settleAborts.walksGo.farGo

/-- The timebase advances by its rate: 1 per tick of 1.25 ns from its own oscillator ratio, 8 per reference tick of
10 ns while it runs from the reference (R25, R415); it stands still before always-on power is good. DESIGN CHOICE
(log entry 2): what can go on of itself then does; every timed effect is a command. -/
def Dev.tick (d : Dev) : Dev :=
  if d.pm.aonGood then { d with now := d.now + if d.pm.tbFromRef then 8 else 1 }.settle else d

end Sys2Proof.Machine
end

