-- ==== Sys2Proof/Machine/Step.lean ====
section
/-! DEFINITION. One step of the block: run the command at the front of the queue, or, with none waiting, let one tick
of the timebase pass (log entry 2). -/

namespace Sys2Proof.Machine

/-- Take the front command and answer what its meaning answers on the rest of the queue; on an empty queue one tick
of the timebase passes. -/
def step (s : State) : Host.Outcome State Fault Refusal :=
  match s.pending with
  | [] => .next { s with dev := s.dev.tick }
  | c :: rest => exec c { s with pending := rest }

/-- Put the command a table word spells at the front of the queue. -/
def State.withFetchWord (s : State) (nbits w : Nat) : State :=
  match decodeTableWord nbits w with
  | some c => { s with pending := c :: s.pending }
  | none => s

end Sys2Proof.Machine
end

