-- ==== Sys2Proof/Safety.lean ====
section
/-! DEFINITION. What the statements count as a safe state and a safe step, and the conditions and effects they are written
in: a descriptor that is ready to run, an instruction a stitch stands at, a line nobody keeps from being served. -/

namespace Sys2Proof.Machine

/-- The near-tier bytes are listed in the one canonical form. -/
abbrev State.memOk (s : State) : Prop := Memory.wf s.dev.mem = true

/-- No fuse of `f` is unblown in `g`, and no fuse counter has gone back (R362). -/
def Fuses.le (f g : Fuses) : Prop :=
  (f.decommissioned = true → g.decommissioned = true) ∧ (f.openBarred = true → g.openBarred = true) ∧
  (f.knitDisabled = true → g.knitDisabled = true) ∧ (f.provisioned = true → g.provisioned = true) ∧
  f.svn ≤ g.svn ∧ f.topUsed ≤ g.topUsed

/-- The fuses' counters are within what the part has: 32,768 top-tree leaves and 64 SVN fuses (R362, Table 17.1). -/
def Fuses.legal (f : Fuses) : Prop := f.topUsed ≤ 32768 ∧ f.svn ≤ 64

/-- A safe step: it answers a next state, in which no fuse has come back. -/
def SafeStep (s : State) : Prop := ∃ t, step s = .next t ∧ s.fuse.le t.fuse

/-- The command answers the state with this device, its fuses and its queue as before. -/
abbrev Makes (i : Instr) (s : State) (d : Dev) : Prop := exec i s = .next { s with dev := d }

/-! ## Stitches -/

/-- Stitch `k` of the running job `id` stands at the instruction of this class, minor code and fields (R163, R166). -/
abbrev AtInstr (d : Dev) (k cls minor : Nat) (f : StitchFields) (id : Nat) (j : Job) : Prop :=
  d.stitchJob k = some (id, j) ∧ (d.stitch k).run = .running ∧ (d.stitch k).word (d.stitch k).pc = stitchWord cls minor f

/-- An address a stitch can go on at: within the instruction store, and holding an instruction (R163, R167). -/
abbrev Stitch.canEnter (st : Stitch) (pc : Nat) : Prop :=
  pc ≤ 1023 ∧ definedOp (wordClass (st.word pc)) (wordMinor (st.word pc)) = true

/-- Where the stitch goes when its instruction completes: the address and the loops then active (R163, R170). -/
abbrev Stitch.after (st : Stitch) : Nat × List LoopRec := afterPc st.pc st.loops

/-- The device in which the instruction of stitch `k` has completed: the stitch is `st`, goes on at `p`, and the instruction
is tagged where sampling asks for it (R433). -/
def Dev.wentTo (d : Dev) (id : Nat) (j : Job) (k : Nat) (st : Stitch) (p : Nat × List LoopRec) : Dev :=
  ((d.setStitch k fun _ => { st with pc := p.1, loops := p.2, transfers := 0, busWait := false, run := .running }).handshook
    id ((d.stitch k).word (d.stitch k).pc)).tagStitch id j k (d.stitch k).pc ((d.stitch k).word (d.stitch k).pc)

/-- The instruction a stitch stands at completes as `st`, and the next one follows. -/
abbrev Steps (i : Instr) (s : State) (id : Nat) (j : Job) (k : Nat) (st : Stitch) : Prop :=
  Makes i s (s.dev.wentTo id j k st (s.dev.stitch k).after)

/-- The stitch after its instruction: what the instruction made of it, at the next address. -/
def Stitch.goneOn (old st : Stitch) : Stitch :=
  { st with pc := old.after.1, loops := old.after.2, transfers := 0, busWait := false, run := .running }

/-! ## Descriptors -/

/-- The descriptor at `idx` of `ring` has started with these 64 bytes and this opcode, and its operation has not begun
(R76). -/
abbrev Dev.ready (d : Dev) (ring idx op : Nat) (b : List Byte) : Prop :=
  ((d.startedAt ring idx).any fun x => x.op == op && !x.claimed && x.bytes == b) = true

/-- The device in which that operation has begun. -/
def Dev.begun (d : Dev) (ring idx : Nat) : Dev :=
  d.setRing ring fun r => { r with started := r.started.map fun x => if x.idx = idx then { x with claimed := true } else x }

/-- The descriptor is performed on the device `f` makes of the begun one, and completes with this STATUS, DETAIL, RESULT
and PROGRESS. -/
abbrev Completes (i : Instr) (s : State) (ring idx : Nat) (d : Dev) (st det result progress : Nat) : Prop :=
  Makes i s (d.completeDesc ring idx st det result progress)

/-- Rights a descriptor's gate leaves: the device is not Decommissioned, changes state only as the active, and its ring's
owner has the features named (R308, R451, Table 3.6). -/
abbrev admits (d : Dev) (ring : Nat) (changes : Bool) (features : List Nat) : Prop := d.descGate ring changes features = none

/-- The descriptor of a pool operation whose gate lets it through: not Decommissioned, on the active, with the feature and the
lease it needs (R44, R308, R451). -/
abbrev poolReady (d : Dev) (ring idx op : Nat) (b : List Byte) : Prop :=
  d.ready ring idx op b ∧ d.poolGate (d.ringOwner ring) op = none

/-! ## Requests -/

/-- READY and in Run (R387, R443). -/
abbrev up (d : Dev) : Prop := d.boot.ready = true ∧ d.pm.state = 1

/-- READY and in Run, with upstream port `p` carrying accesses: enabled, out of PERST#, on a flue die in service and in no loopback (R21,
R438, R439, R460). -/
abbrev hostUp (d : Dev) (p : Nat) : Prop := p < 2 ∧ up d ∧ d.portUp p = true

/-- The request is for this device, and neither the device's state, nor its session, nor an ordered stream, nor a dedup record
answers it first (R88 to R90, R101, R104, R316, R387, R443). -/
abbrev takes (d : Dev) (m : Msg) : Prop :=
  m.cls = 0 ∧ m.tag < 4096 ∧ d.forUs m = true ∧ d.pm.state = 1 ∧ d.gate m = none ∧ d.sessionCheck m = none ∧ d.mcCheck m = none ∧
  (orderedMsg m = true → tget d.fab.ordered (ordKey m) = none ∧
    (d.pool.parked.any fun p => orderedMsg p.2 && ordKey p.2 == ordKey m) = false) ∧
  (dedupCovers m = true → tget d.fab.dedup (dedupKey (dedupHome m) m.src m.tag) = none ∧ (d.dedupOf (dedupHome m)).length < 8192)

/-- Nothing keeps the request waiting: Table 2.6 admits every line, no backlog, no throttled row, no reservation, no reserved STATE,
no operation that is busy with a line and no stream port that waits for one (R113, R117, R128, R130, R131, R313, R344). -/
abbrev goesOn (d : Dev) (m : Msg) : Prop :=
  d.checkAll m false (reqLines m) = (.ok 0, 0) ∧ (reqWrites m.opcode = true → d.backlogged = false) ∧ starving m = false ∧
  d.isHeld m = false ∧ (∀ l ∈ reqLines m, d.setBad l = false) ∧
  ∀ l ∈ reqLines m, d.heldUp false l = false ∧ ∀ k, d.keyOf (l * 64) = some k → d.throttleLeft m.src (l * 64) k = 0

/-- Nothing keeps it waiting, and no agent holds a line of it. -/
abbrev unkept (d : Dev) (m : Msg) : Prop := goesOn d m ∧ ∀ l ∈ reqLines m, d.dirOf l = none

end Sys2Proof.Machine
end

