-- ==== Sys2Proof/WellFormed.lean ====
section
/-! DEFINITION. Well-formed commands: every operand in the range its field or its index has in the spec. A meaning is total on the
others as well; a sender that keeps to the spec sends these only. -/

namespace Sys2Proof

/-- The fields of a message fit (Table 4.2): class, opcode, node IDs, tag, address, LEN, index, traffic class, payload. -/
def Msg.wf (m : Msg) : Bool :=
  m.cls < 4 && m.opcode < 256 && m.src < 4096 && m.dst < 4096 && m.tag < 4096 && m.addr < 2 ^ 48 && m.len < 256 && m.xfer < 1024 &&
  m.tc < 8 && m.data.length ≤ 264

/-- A cell is 48 bytes, with CTL 0 in its link field (R84, R275): the control cells are commands of their own. -/
def Cell.wf (c : Cell) : Bool := c.bytes.length == 48 && !(c.bytes.getD 0 0).getLsbD 0

/-- The fields of a PARAM cell (R274). -/
def ParamCell.wf (p : ParamCell) : Bool := p.node < 4096 && p.role < 256 && p.cls < 256 && p.width < 256 && p.rate < 256 && p.stamp < 65536 && p.echo < 65536

/-- A drive's identity and sizes (R255, R256). -/
def DriveInfo.wf (i : DriveInfo) : Bool :=
  i.rid < 65536 && i.link < 256 && i.spaces.all fun x => x.nsid < 2 ^ 32 && x.lbaSize ≤ 65536 && x.metaSize < 65536

/-- What start-up meets: stacks below 6, modules below 16, drives behind root ports 0 to 3. -/
def BootInfo.wf (b : BootInfo) : Bool :=
  b.stacksOk.all (· < 6) && b.d2dFailed.all (· < 16) && b.castonRows.length ≤ 6 && b.castonSets.all (· < 2 ^ 21) &&
    b.cacheSets.all (· < 32768) && b.drives.all fun x => x.1 < 4 && x.2.wf

/-- A translation of a page (R241). -/
def Translation.wf (t : Translation) : Bool := t.addr < 2 ^ 64 && t.size ≤ 2 ^ 30

/-- A completion timeout's object. -/
def PcieTarget.wf : PcieTarget → Bool
  | .ringFetch r => r < 1024
  | .recordWrite r => r < 1024
  | .output r i => r < 1024 && i < 2 ^ 32
  | .mover k => k < 32

/-- A sender of register writes and doorbells: a control core (0), a fabric client or an upstream port. -/
def whoOk (w : Nat) : Bool := w ≤ 0xEFF || w == 0xFF0 || w == 0xFF1

/-- An access of BAR0: 1 to 8 bytes and a value of that size (R8). -/
def accessOk (size val : Nat) : Bool := 1 ≤ size && size ≤ 8 && val < 2 ^ (8 * size)

/-- A command whose operands are in range. -/
def Instr.wf (i : Instr) : Bool :=
  match i with
  | .registerWrite who off size val => whoOk who && off < 2 ^ 25 && accessOk size val
  | .rcRegisterRead who off size => whoOk who && off < 2 ^ 25 && accessOk size 0
  | .d2dModuleFail module => module < 16
  | .regionCreate ring idx => ring < 1024 && idx < 2 ^ 32
  | .regionFree ring idx => ring < 1024 && idx < 2 ^ 32
  | .grant ring idx => ring < 1024 && idx < 2 ^ 32
  | .grantRemove ring idx => ring < 1024 && idx < 2 ^ 32
  | .revoke ring idx => ring < 1024 && idx < 2 ^ 32
  | .revokeDrainDone handle rgen => handle < 65536 && rgen < 2 ^ 32
  | .draftOpen ring idx => ring < 1024 && idx < 2 ^ 32
  | .draftDiscard ring idx => ring < 1024 && idx < 2 ^ 32
  | .draftCopyDone ext => ext < 2 ^ 23
  | .publish ring idx => ring < 1024 && idx < 2 ^ 32
  | .publishInstall handle => handle < 65536
  | .pinOpen ring idx => ring < 1024 && idx < 2 ^ 32
  | .pinRenew ring idx => ring < 1024 && idx < 2 ^ 32
  | .pinClose ring idx => ring < 1024 && idx < 2 ^ 32
  | .pinLeaseExpiry pin => pin < 4096
  | .stackRetire ring idx => ring < 1024 && idx < 2 ^ 32
  | .stackReturn ring idx => ring < 1024 && idx < 2 ^ 32
  | .regionQuery ring idx => ring < 1024 && idx < 2 ^ 32
  | .extentQuery ring idx => ring < 1024 && idx < 2 ^ 32
  | .reweaveEpoch => true
  | .filterUpdateAnswer switch record status => switch < 64 && record < 64 && status.all (· < 256)
  | .migrationSkeinCopied ext => ext < 2 ^ 23
  | .igfEntryWrite who off size val => whoOk who && off < 2 ^ 25 && accessOk size val
  | .poolCacheFramesWrite who val => whoOk who && val < 2 ^ 32
  | .frameFreed frame => frame < 15360
  | .poolWindowAccess port off len _ => port < 2 && off < 2 ^ 44 && 1 ≤ len && len ≤ 4096
  | .poolWindowReissue port => port < 2
  | .acquire port => port < 2
  | .renew port => port < 2
  | .release port => port < 2
  | .leaseExpiry => true
  | .negotiate port => port < 2
  | .clientOpen m => m.wf
  | .clientClose m => m.wf
  | .ringPartApply => true
  | .ringEnable who ring => whoOk who && ring < 1024
  | .ringDisable who ring => whoOk who && ring < 1024
  | .ringDrainDone ring => ring < 1024
  | .doorbell who off size value => whoOk who && off < 0x400000 && (size == 1 || size == 2 || size == 4 || size == 8) && value < 2 ^ 64
  | .descriptorFetch ring bytes => ring < 1024 && bytes.all (·.length == 64)
  | .descriptorStart ring => ring < 1024
  | .coalesceTimeout ring => ring < 1024
  | .notifyReissue ring => ring < 1024
  | .nop ring idx => ring < 1024 && idx < 2 ^ 32
  | .windowAccess m => m.wf
  | .msixUnmask port vector => port < 2 && vector < 256
  | .cellReceive link c => link < 24 && c.wf
  | .read m => m.wf
  | .readBulk m => m.wf
  | .write m => m.wf
  | .writeBulk m => m.wf
  | .xferHoldTimeout src tag => src < 4096 && tag < 4096
  | .fetchAdd m => m.wf
  | .fetchAnd m => m.wf
  | .fetchOr m => m.wf
  | .fetchXor m => m.wf
  | .swap m => m.wf
  | .cas m => m.wf
  | .fetchUmax m => m.wf
  | .fadd32 m => m.wf
  | .lookup m => m.wf
  | .lookupRef m => m.wf
  | .reduce m => m.wf
  | .poolOp m => m.wf
  | .echo m => m.wf
  | .reservedOpcode m => m.wf
  | .dedupHoldExpiry home src tag => home < 48 && src < 4096 && tag < 4096
  | .orderedAdmission src tc => src < 4096 && tc < 8
  | .responseReceive link m => link < 24 && m.wf
  | .deviceRequestTimeout tag => tag < 2 ^ 24 + 4096
  | .rdShared m => m.wf
  | .rdOwn m => m.wf
  | .upgrade m => m.wf
  | .wbDirty m => m.wf
  | .evict m => m.wf
  | .stashWrite m => m.wf
  | .snoopAnswer link m => link < 24 && m.wf
  | .snoopTimeout tag => tag < 2 ^ 24 + 4096
  | .reservationTimeout home => home < 48
  | .recallTransfer link m => link < 24 && m.wf
  | .snpInv m => m.wf
  | .snpShare m => m.wf
  | .snpRead m => m.wf
  | .snpStash m => m.wf
  | .snpRecall m => m.wf
  | .ctrlNop k _ => k < 8192
  | .ctrlJmp k _ => k < 8192
  | .ctrlBeq k _ => k < 8192
  | .ctrlBne k _ => k < 8192
  | .ctrlBlt k _ => k < 8192
  | .ctrlBge k _ => k < 8192
  | .ctrlBltu k _ => k < 8192
  | .ctrlBgeu k _ => k < 8192
  | .ctrlLoop k _ => k < 8192
  | .ctrlLoopi k _ => k < 8192
  | .saluAdd k _ => k < 8192
  | .saluSub k _ => k < 8192
  | .saluAnd k _ => k < 8192
  | .saluOr k _ => k < 8192
  | .saluXor k _ => k < 8192
  | .saluShl k _ => k < 8192
  | .saluShr k _ => k < 8192
  | .saluSra k _ => k < 8192
  | .saluMul k _ => k < 8192
  | .saluMin k _ => k < 8192
  | .saluMax k _ => k < 8192
  | .saluMinu k _ => k < 8192
  | .saluMaxu k _ => k < 8192
  | .saluSlt k _ => k < 8192
  | .saluSltu k _ => k < 8192
  | .saluAddi k _ => k < 8192
  | .saluSubi k _ => k < 8192
  | .saluAndi k _ => k < 8192
  | .saluOri k _ => k < 8192
  | .saluXori k _ => k < 8192
  | .saluShli k _ => k < 8192
  | .saluShri k _ => k < 8192
  | .saluSrai k _ => k < 8192
  | .saluMuli k _ => k < 8192
  | .saluMini k _ => k < 8192
  | .saluMaxi k _ => k < 8192
  | .saluMinui k _ => k < 8192
  | .saluMaxui k _ => k < 8192
  | .saluSlti k _ => k < 8192
  | .saluSltui k _ => k < 8192
  | .lslLds k _ => k < 8192
  | .lslSts k _ => k < 8192
  | .lslLdv k _ => k < 8192
  | .lslStv k _ => k < 8192
  | .lslLdvq k _ => k < 8192
  | .lslStvq k _ => k < 8192
  | .lslLdb k _ => k < 8192
  | .lslStb k _ => k < 8192
  | .chnSend k _ => k < 8192
  | .chnRecv k _ => k < 8192
  | .chnFwd k _ => k < 8192
  | .chnSends k _ => k < 8192
  | .chnRecvs k _ => k < 8192
  | .strBwr k _ => k < 8192
  | .strBrd k _ => k < 8192
  | .strBwld k _ => k < 8192
  | .strBskip k _ => k < 8192
  | .macCfg k _ => k < 8192
  | .macWld k _ => k < 8192
  | .macWsc k _ => k < 8192
  | .macSwap k _ => k < 8192
  | .macStep k _ => k < 8192
  | .macAzero k _ => k < 8192
  | .macArd k _ => k < 8192
  | .macArdz k _ => k < 8192
  | .macAwr k _ => k < 8192
  | .vecFadd k _ => k < 8192
  | .vecFsub k _ => k < 8192
  | .vecFmul k _ => k < 8192
  | .vecFma k _ => k < 8192
  | .vecFmax k _ => k < 8192
  | .vecFmin k _ => k < 8192
  | .vecFexp2 k _ => k < 8192
  | .vecFrcp k _ => k < 8192
  | .vecFrsqrt k _ => k < 8192
  | .vecIadd k _ => k < 8192
  | .vecIsub k _ => k < 8192
  | .vecImul k _ => k < 8192
  | .vecImax k _ => k < 8192
  | .vecImin k _ => k < 8192
  | .vecAnd k _ => k < 8192
  | .vecOr k _ => k < 8192
  | .vecXor k _ => k < 8192
  | .vecShl k _ => k < 8192
  | .vecShr k _ => k < 8192
  | .vecSra k _ => k < 8192
  | .vecFcmplt k _ => k < 8192
  | .vecIcmplt k _ => k < 8192
  | .vecSel k _ => k < 8192
  | .vecBcast k _ => k < 8192
  | .vecLane k _ => k < 8192
  | .vecExtr k _ => k < 8192
  | .vecFsum k _ => k < 8192
  | .vecFmaxr k _ => k < 8192
  | .vecCvt k _ => k < 8192
  | .vecUnpk k _ => k < 8192
  | .vecQblk k _ => k < 8192
  | .vecItof k _ => k < 8192
  | .vecFtoi k _ => k < 8192
  | .syncHalt k _ => k < 8192
  | .syncId k _ => k < 8192
  | .syncNpanel k _ => k < 8192
  | .syncFlags k _ => k < 8192
  | .syncDrain k _ => k < 8192
  | .syncRngset k _ => k < 8192
  | .syncRngget k _ => k < 8192
  | .blockedInstructionResume k => k < 8192
  | .busSlotTransfer course => course < 128
  | .streamLineReturn port line => port < 96 && line < 2 ^ 42
  | .streamTransferIssue port => port < 96
  | .stitchStoreEccError k _ => k < 8192
  | .jobStall job => job < 65536
  | .panelDrainDone panel => panel < 16
  | .jobRun ring idx => ring < 1024 && idx < 2 ^ 32
  | .jobPlace => true
  | .jobNaturalCompletion job => job < 65536
  | .jobLimitTimeout job => job < 65536
  | .abort ring idx => ring < 1024 && idx < 2 ^ 32
  | .ctxCreate ring idx => ring < 1024 && idx < 2 ^ 32
  | .ctxDestroy ring idx => ring < 1024 && idx < 2 ^ 32
  | .segSet ring idx => ring < 1024 && idx < 2 ^ 32
  | .segClear ring idx => ring < 1024 && idx < 2 ^ 32
  | .ctxQuery ring idx => ring < 1024 && idx < 2 ^ 32
  | .panelAdmin ring idx _ => ring < 1024 && idx < 2 ^ 32
  | .lookupDescriptor ring idx => ring < 1024 && idx < 2 ^ 32
  | .reduceDescriptor ring idx _ => ring < 1024 && idx < 2 ^ 32
  | .stockList ring idx => ring < 1024 && idx < 2 ^ 32
  | .gruRowReadAnswer _ pos => pos < 4096
  | .gruReissue _ pos => pos < 4096
  | .copy ring idx => ring < 1024 && idx < 2 ^ 32
  | .fill ring idx => ring < 1024 && idx < 2 ^ 32
  | .xctxSet ring idx => ring < 1024 && idx < 2 ^ 32
  | .invalidate ring idx => ring < 1024 && idx < 2 ^ 32
  | .faultResolve ring idx => ring < 1024 && idx < 2 ^ 32
  | .tierHint ring idx => ring < 1024 && idx < 2 ^ 32
  | .moverStepData mover _ => mover < 32
  | .moverReissue mover => mover < 32
  | .atsTranslationCompletion mover answer => mover < 32 && answer.all (·.wf)
  | .walkerReadAnswer mover => mover < 32
  | .priGroupResponse port index code => port < 2 && index < 65536 && code < 256
  | .faultTimeout record => record < 256
  | .atsInvalidateRequest port pasid base length => port < 2 && pasid.all (· < 2 ^ 20) && base < 2 ^ 64 && length < 2 ^ 64
  | .invalidationDone _ => true
  | .counterDecay => true
  | .presenceChange port partner found => port < 4 && partner.all (fun x => x.1 < 16 && x.2 < 16) && found.all (·.wf)
  | .driveList ring idx => ring < 1024 && idx < 2 ^ 32
  | .driveAdopt ring idx => ring < 1024 && idx < 2 ^ 32
  | .driveRetire ring idx => ring < 1024 && idx < 2 ^ 32
  | .driveLog ring idx => ring < 1024 && idx < 2 ^ 32
  | .farFlush ring idx => ring < 1024 && idx < 2 ^ 32
  | .nvmeCompletion _ _ page => page.length ≤ 512
  | .nvmeCommandTimeout _ => true
  | .nvmeAsyncEvent drive _ => drive < 32
  | .signalDetect link lanes => link < 24 && lanes < 16
  | .detectRetry link => link < 24
  | .equaliseDone link lanes => link < 24 && lanes < 16
  | .alignDone link => link < 24
  | .trainingStepTimeout link => link < 24
  | .idle link ackNo flow => link < 24 && ackNo < 4096 && flow < 4
  | .ack link ackNo flow => link < 24 && ackNo < 4096 && flow < 4
  | .replay link ackNo flow fromSeq => link < 24 && ackNo < 4096 && flow < 4 && fromSeq < 4096
  | .param link ackNo flow p => link < 24 && ackNo < 4096 && flow < 4 && p.wf
  | .key link ackNo flow nonce salt _ => link < 24 && ackNo < 4096 && flow < 4 && nonce < 2 ^ 256 && salt < 2 ^ 32
  | .auth link ackNo flow first count group tag => link < 24 && ackNo < 4096 && flow < 4 && first < 4096 && count < 256 && group < 2 ^ 64 && tag.length == 16
  | .reset link ackNo flow => link < 24 && ackNo < 4096 && flow < 4
  | .reservedControlCell link ackNo flow type => link < 24 && ackNo < 4096 && flow < 4 && type < 256
  | .ackTimerExpiry link => link < 24
  | .replayTimerExpiry link => link < 24
  | .creditTimerExpiry link => link < 24
  | .groupClose link => link < 24
  | .lockLoss link => link < 24
  | .autoRetrain link => link < 24
  | .linkCtlReset who link => whoOk who && link < 24
  | .linkCtlEnable who link _ => whoOk who && link < 24
  | .routerLookup port m => port < 2 && m.wf
  | .headHoldTimeout output _ => output < 25
  | .outputSend output => output < 25
  | .fence who node => whoOk who && node < 4096
  | .unfence who node => whoOk who && node < 4096
  | .fencePoint => true
  | .mirrorPair _ _ => true
  | .repWrite link m => link < 24 && m.wf
  | .repAtomic link m => link < 24 && m.wf
  | .repAdmin link m => link < 24 && m.wf
  | .repState link m => link < 24 && m.wf
  | .digest link m => link < 24 && m.wf
  | .repAck link m => link < 24 && m.wf
  | .fetch link m => link < 24 && m.wf
  | .time link m => link < 24 && m.wf
  | .digestMissed _ => true
  | .epochEnd => true
  | .promote port term => port < 2 && term < 2 ^ 32
  | .solo port term => port < 2 && term < 2 ^ 32
  | .demote port term => port < 2 && term < 2 ^ 32
  | .resyncCopyDone activeTerm => activeTerm < 2 ^ 32
  | .dramCommandIssue stack bank => stack < 6 && bank < 4096
  | .throttleExpiry stack => stack < 6
  | .stackReadComplete stack line err => stack < 6 && line < 2 ^ 32 && (err.isEmpty || err.length == 72)
  | .refreshDue stack bank => stack < 6 && bank < 4096
  | .refreshWindow stack => stack < 6
  | .stackTempRead stack _ => stack < 6
  | .rankPowerDown stack rank => stack < 6 && rank < 256
  | .scrubRead stack err => stack < 6 && (err.isEmpty || err.length == 72)
  | .eccTestCtlWrite who val => whoOk who && val < 2 ^ 32
  | .attest ring idx => ring < 1024 && idx < 2 ^ 32
  | .attestSign => true
  | .kemPubkey ring idx => ring < 1024 && idx < 2 ^ 32
  | .seal ring idx _ => ring < 1024 && idx < 2 ^ 32
  | .keyRelease ring idx _ => ring < 1024 && idx < 2 ^ 32
  | .sealLoad ring idx => ring < 1024 && idx < 2 ^ 32
  | .unseal ring idx => ring < 1024 && idx < 2 ^ 32
  | .bindOffDone => true
  | .keyRegister ring idx _ => ring < 1024 && idx < 2 ^ 32
  | .fwStage ring idx _ _ => ring < 1024 && idx < 2 ^ 32
  | .debugUnlock ring idx _ _ => ring < 1024 && idx < 2 ^ 32
  | .relock who => whoOk who
  | .debugLifetimeExpiry => true
  | .powerState ring idx => ring < 1024 && idx < 2 ^ 32
  | .entryTimeout => true
  | .entryDrained => true
  | .profileSet ring idx => ring < 1024 && idx < 2 ^ 32
  | .wake source => source < 256
  | .wakeTimer => true
  | .wakeDone _ drivesFound exitFailed => drivesFound.all (· < 32) && exitFailed.all (· < 6)
  | .damperCycle watts => watts < 65536
  | .pwrAlert => true
  | .regulatorPoll rail _ junction watts => rail < 16 && junction < 256 && watts < 65536
  | .avsUpdate => true
  | .thermalTrip junction => junction < 256
  | .rootPllLockLoss => true
  | .rootPllLock => true
  | .clockRampStep island => island < 53
  | .gaugeRead gauge reading => gauge < 1144 && reading < 2 ^ 32
  | .planSchedule => true
  | .agePlan ring idx => ring < 1024 && idx < 2 ^ 32
  | .ageRead ring idx => ring < 1024 && idx < 2 ^ 32
  | .ageRecord ring idx => ring < 1024 && idx < 2 ^ 32
  | .pohUpdate => true
  | .retrainStart => true
  | .journalWrite => true
  | .irqTake core => core < 8
  | .irqCoreEoi core input => core < 8 && input < 256
  | .irqSwi raise => raise < 256
  | .boardInputEdge input => input < 6
  | .filterAccept input _ => input < 6
  | .evtFilter ring idx => ring < 1024 && idx < 2 ^ 32
  | .evtRead ring idx => ring < 1024 && idx < 2 ^ 32
  | .perfList ring idx => ring < 1024 && idx < 2 ^ 32
  | .perfRead ring idx => ring < 1024 && idx < 2 ^ 32
  | .ptmDialogue port master => port < 2 && master < 2 ^ 64
  | .startUp b => b.wf
  | .perstAssert port => port < 2
  | .ready => true
  | .startupStop code => code < 16
  | .partialReset who component => whoOk who && component < 13
  | .progressWatchdog component => component < 13
  | .partialResetEnd component _ => component < 13
  | .portReset port => port < 2
  | .nodeIdWrite who val => whoOk who && val < 2 ^ 32
  | .loopbackStart who val => whoOk who && val < 2 ^ 32
  | .loopbackStop who => whoOk who
  | .loopbackEnd _ _ _ => true
  | .bistStart who target => whoOk who && target < 32
  | .bistEnd _ cacheSets => cacheSets.all (· < 32768)
  | .mctpEcho _ => true
  | .idcode => true
  | .samplePreload => true
  | .extest => true
  | .extestPulse => true
  | .extestTrain => true
  | .highz => true
  | .clampInstruction => true
  | .wirStack stack => stack < 6
  | .bypass code => code < 256
  | .pcieCompletionTimeout port target => port < 2 && target.wf
  | .priEnableWrite port _ allocation => port < 2 && allocation < 2 ^ 32
  | .outputWriteReissue ring idx => ring < 5120 && idx < 2 ^ 32
  | .walkerReissue mover => mover < 32
  | .linkTxPowerLower link => link < 24
  | .pwrAlertRelease => true
  | .railMonitorFall rail => rail < 16
  | .powerLoss => true
  | .alwaysOnPowerGood oscWait => oscWait < 8
  | .oscWaitExpiry => true
  | .startUpPlan => true

end Sys2Proof
end

