-- ==== Sys2Proof/Certificates/Slice0/Obligations.lean ====
section
/-! DEFINITION. The statements for the provers. Each says what the rules it cites say of the commands it names; those that
rest on the model's own choices name the log entry. `Makes i s d` says that the command answers the next state whose device is
`d` and whose fuses and queue are those of `s`. -/

open Sys2Proof Sys2Proof.Machine

/-! ## The Knit array (chapters 6 and 7) -/

/-- SALU rows of Table 7.5: constructor, minor code, result of s[SRC1] and the second operand. -/
def Sys2Proof.saluRows : List ((Nat → StitchFields → Instr) × Nat × (BitVec 32 → BitVec 32 → BitVec 32)) :=
  [(.saluAdd, 0x00, fun a b => a + b), (.saluSub, 0x01, fun a b => a - b), (.saluAnd, 0x02, fun a b => a &&& b),
   (.saluOr, 0x03, fun a b => a ||| b), (.saluXor, 0x04, fun a b => a ^^^ b), (.saluShl, 0x05, fun a b => a <<< (b.toNat % 32)),
   (.saluShr, 0x06, fun a b => a >>> (b.toNat % 32)), (.saluSra, 0x07, fun a b => a.sshiftRight (b.toNat % 32)),
   (.saluMul, 0x08, fun a b => a * b), (.saluMin, 0x09, fun a b => if b.toInt < a.toInt then b else a),
   (.saluMax, 0x0A, fun a b => if a.toInt < b.toInt then b else a), (.saluMinu, 0x0B, fun a b => if b.toNat < a.toNat then b else a),
   (.saluMaxu, 0x0C, fun a b => if a.toNat < b.toNat then b else a), (.saluSlt, 0x0D, fun a b => if a.toInt < b.toInt then 1#32 else 0#32),
   (.saluSltu, 0x0E, fun a b => if a.toNat < b.toNat then 1#32 else 0#32)]

/-- The same operations on IMM[31:0], minor codes from 0x20. -/
def Sys2Proof.saluImmRows : List ((Nat → StitchFields → Instr) × Nat × (BitVec 32 → BitVec 32 → BitVec 32)) :=
  [(.saluAddi, 0x20, fun a b => a + b), (.saluSubi, 0x21, fun a b => a - b), (.saluAndi, 0x22, fun a b => a &&& b),
   (.saluOri, 0x23, fun a b => a ||| b), (.saluXori, 0x24, fun a b => a ^^^ b), (.saluShli, 0x25, fun a b => a <<< (b.toNat % 32)),
   (.saluShri, 0x26, fun a b => a >>> (b.toNat % 32)), (.saluSrai, 0x27, fun a b => a.sshiftRight (b.toNat % 32)),
   (.saluMuli, 0x28, fun a b => a * b), (.saluMini, 0x29, fun a b => if b.toInt < a.toInt then b else a),
   (.saluMaxi, 0x2A, fun a b => if a.toInt < b.toInt then b else a), (.saluMinui, 0x2B, fun a b => if b.toNat < a.toNat then b else a),
   (.saluMaxui, 0x2C, fun a b => if a.toNat < b.toNat then b else a), (.saluSlti, 0x2D, fun a b => if a.toInt < b.toInt then 1#32 else 0#32),
   (.saluSltui, 0x2E, fun a b => if a.toNat < b.toNat then 1#32 else 0#32)]

/-- R171: with s[SRC2] as the second operand, the result goes to s[DST], a write to s0 is discarded, and nothing else of the
device changes but the program counter (and what R433 samples). -/
def Sys2Proof.Says.SaluOnRegisters : Prop :=
  ∀ r ∈ saluRows, ∀ (s : State) (k : Nat) (f : StitchFields) (id : Nat) (j : Job),
    AtInstr s.dev k 1 r.2.1 f id j → (s.dev.stitch k).canEnter (s.dev.stitch k).after.1 →
    Steps (r.1 k f) s id j k ((s.dev.stitch k).setS f.dst (r.2.2 ((s.dev.stitch k).s f.src1) ((s.dev.stitch k).s f.src2)))

/-- R171: minor codes 0x20 to 0x2E do the same with IMM[31:0] in place of s[SRC2]. -/
def Sys2Proof.Says.SaluOnImmediates : Prop :=
  ∀ r ∈ saluImmRows, ∀ (s : State) (k : Nat) (f : StitchFields) (id : Nat) (j : Job),
    AtInstr s.dev k 1 r.2.1 f id j → (s.dev.stitch k).canEnter (s.dev.stitch k).after.1 →
    Steps (r.1 k f) s id j k ((s.dev.stitch k).setS f.dst (r.2.2 ((s.dev.stitch k).s f.src1) (f.imm.setWidth 32)))

/-- Table 6.1, R171: s0 reads as zero and a write to it is discarded; any other scalar register holds what is written to it,
and no other scalar register changes; minor codes 0x0F to 0x1F and 0x2F to 0x3F are reserved. -/
def Sys2Proof.Says.ScalarRegisters : Prop :=
  ∀ (st : Stitch) (r q : BitVec 5) (v : BitVec 32),
    st.s 0#5 = 0#32 ∧ st.setS 0#5 v = st ∧ (r ≠ 0#5 → (st.setS r v).s r = v) ∧ (q ≠ r → (st.setS r v).s q = st.s q) ∧
    (∀ m, (0x0F ≤ m ∧ m ≤ 0x1F) ∨ (0x2F ≤ m ∧ m ≤ 0x3F) → definedOp 1 m = false)

/-- R171: the thirty SALU instructions complete with the result of their operation, and the scalar registers they read and write. -/
def Obligations.ScalarArithmetic : Prop :=
  Says.SaluOnRegisters ∧ Says.SaluOnImmediates ∧ Says.ScalarRegisters

/-- The branches of Table 7.4: constructor, minor code, and when s[SRC1] and s[SRC2] take it. -/
def Sys2Proof.branchRows : List ((Nat → StitchFields → Instr) × Nat × (BitVec 32 → BitVec 32 → Prop)) :=
  [(.ctrlBeq, 0x02, fun a b => a = b), (.ctrlBne, 0x03, fun a b => a ≠ b), (.ctrlBlt, 0x04, fun a b => a.toInt < b.toInt),
   (.ctrlBge, 0x05, fun a b => b.toInt ≤ a.toInt), (.ctrlBltu, 0x06, fun a b => a.toNat < b.toNat),
   (.ctrlBgeu, 0x07, fun a b => b.toNat ≤ a.toNat)]

/-- R169: NOP goes on; JMP and a branch that is taken go to IMM[9:0], ending the loops whose body they leave (R170); a branch
that is not taken goes on. -/
def Sys2Proof.Says.BranchesGoWhereTheySay : Prop :=
  ∀ (s : State) (k : Nat) (f : StitchFields) (id : Nat) (j : Job),
    let st := s.dev.stitch k
    (AtInstr s.dev k 0 0x00 f id j → st.canEnter st.after.1 → Steps (.ctrlNop k f) s id j k st) ∧
    (AtInstr s.dev k 0 0x01 f id j → st.canEnter (immTarget f) →
      Makes (.ctrlJmp k f) s (s.dev.wentTo id j k st (immTarget f, loopsAt (immTarget f) st.loops))) ∧
    ∀ r ∈ branchRows, AtInstr s.dev k 0 r.2.1 f id j →
      (r.2.2 (st.s f.src1) (st.s f.src2) → st.canEnter (immTarget f) →
        Makes (r.1 k f) s (s.dev.wentTo id j k st (immTarget f, loopsAt (immTarget f) st.loops))) ∧
      (¬ r.2.2 (st.s f.src1) (st.s f.src2) → st.canEnter st.after.1 → Steps (r.1 k f) s id j k st)

/-- The loop instructions of Table 7.4: constructor, minor code, and the count they take. -/
def Sys2Proof.loopRows : List ((Nat → StitchFields → Instr) × Nat × (Stitch → StitchFields → Nat)) :=
  [(.ctrlLoop, 0x08, fun st f => (st.s f.src1).toNat), (.ctrlLoopi, 0x09, fun _ f => (f.imm.extractLsb' 10 16).toNat)]

/-- R170: a loop of count 0 continues after its body; one of count n enters its body with n − 1 passes to come, as the
innermost of at most four; an end address not greater than its own is ILLEGAL_OPERAND, and a fifth loop LOOP_DEPTH. -/
def Sys2Proof.Says.LoopsEnterTheirBody : Prop :=
  ∀ r ∈ loopRows, ∀ (s : State) (k : Nat) (f : StitchFields) (id : Nat) (j : Job),
    let st := s.dev.stitch k
    let n := r.2.2 st f
    AtInstr s.dev k 0 r.2.1 f id j →
      (immTarget f ≤ st.pc → Makes (r.1 k f) s (s.dev.stitchFault id j k 2 st.pc)) ∧
      (st.pc < immTarget f → n = 0 → st.canEnter (afterPc (immTarget f) st.loops).1 →
        Makes (r.1 k f) s (s.dev.wentTo id j k st (afterPc (immTarget f) st.loops))) ∧
      (st.pc < immTarget f → 0 < n → 4 ≤ st.loops.length → Makes (r.1 k f) s (s.dev.stitchFault id j k 6 st.pc)) ∧
      (st.pc < immTarget f → 0 < n → st.loops.length < 4 → st.canEnter (st.pc + 1) →
        Makes (r.1 k f) s
          (s.dev.wentTo id j k st (st.pc + 1, { start := st.pc, stop := immTarget f, left := n - 1 } :: st.loops)))

/-- R163, R170: after an instruction comes the next address; at the end address of the innermost loop its body begins again
while passes are left, and otherwise the loop is over; a branch to a target outside a loop's body ends it and every loop nested inside
it. -/
def Sys2Proof.Says.LoopsRepeatTheirBody : Prop :=
  ∀ (pc : Nat) (l : LoopRec) (r : List LoopRec),
    afterPc pc [] = (pc + 1, []) ∧ (pc ≠ l.stop → afterPc pc (l :: r) = (pc + 1, l :: r)) ∧
    (pc = l.stop → 0 < l.left → afterPc pc (l :: r) = (l.start + 1, { l with left := l.left - 1 } :: r)) ∧
    (pc = l.stop → l.left = 0 → afterPc pc (l :: r) = afterPc pc r) ∧
    (∀ t inner outer, (∀ x ∈ outer, x.start < t ∧ t ≤ x.stop) → ¬ (l.start < t ∧ t ≤ l.stop) → loopsAt t (inner ++ l :: outer) = outer) ∧
    (∀ t ls, (∀ x ∈ ls, x.start < t ∧ t ≤ x.stop) → loopsAt t ls = ls)

/-- R169, R170: NOP, JMP, the branches and the loops, where each goes and which loops are active after it. -/
def Obligations.ControlFlow : Prop :=
  Says.BranchesGoWhereTheySay ∧ Says.LoopsEnterTheirBody ∧ Says.LoopsRepeatTheirBody

/-- The loads and stores of Table 7.6: constructor, minor code, alignment, bytes the access must fit, and what it makes of
the stitch at an address. -/
def Sys2Proof.lslRows : List ((Nat → StitchFields → Instr) × Nat × Nat × Nat × (StitchFields → Nat → Stitch → Stitch)) :=
  [(.lslLds, 0x00, 4, 1, fun f a st => st.setS f.dst (BitVec.ofNat 32 (leNat (st.load a 4)))),
   (.lslSts, 0x01, 4, 1, fun f a st => st.store a (natBytes 4 (st.s f.src2).toNat)),
   (.lslLdv, 0x02, 32, 128, fun f a st => st.setV f.dst (bytesLanes (st.load a 128))),
   (.lslStv, 0x03, 32, 128, fun f a st => st.store a (lanesBytes (st.v f.src2))),
   (.lslLdvq, 0x04, 32, 1, fun f a st => st.setQuarter f.dst (immQuarter f) (st.load a 32)),
   (.lslStvq, 0x05, 32, 1, fun f a st => st.store a (st.quarter f.src2 (immQuarter f))),
   (.lslLdb, 0x06, 1, 1, fun f a st => st.setS f.dst (BitVec.ofNat 32 (leNat (st.load a 1)))),
   (.lslStb, 0x07, 1, 1, fun f a st => st.store a (natBytes 1 (st.s f.src2).toNat))]

/-- A vector register field the row uses is within v0 to v7 (R167). -/
def Sys2Proof.lslFits (minor : Nat) (f : StitchFields) : Prop :=
  ((minor = 2 ∨ minor = 4) → f.dst.toNat ≤ 7) ∧ ((minor = 3 ∨ minor = 5) → f.src2.toNat ≤ 7)

/-- R172: at ea = s[SRC1] + IMM[14:0] modulo 2^32, aligned and within 32 KiB, each load and store has its effect; elsewhere
the stitch faults with DS_ADDRESS at its own address. That the last of an LDV or STV must lie within 32 KiB too is the
model's reading (log entry 19). -/
def Sys2Proof.Says.LoadsAndStores : Prop :=
  ∀ r ∈ lslRows, ∀ (s : State) (k : Nat) (f : StitchFields) (id : Nat) (j : Job),
    let st := s.dev.stitch k
    let ea := ((st.s f.src1).toNat + (f.imm.extractLsb' 0 15).toNat) % 2 ^ 32
    AtInstr s.dev k 2 r.2.1 f id j → lslFits r.2.1 f →
      (ea % r.2.2.1 = 0 → ea + r.2.2.2.1 ≤ 32768 → st.canEnter st.after.1 → Steps (r.1 k f) s id j k (r.2.2.2.2 f ea st)) ∧
      (32768 ≤ ea ∨ ea % r.2.2.1 ≠ 0 → Makes (r.1 k f) s (s.dev.stitchFault id j k 3 st.pc))

/-- The data store: bytes stored are loaded back, and bytes outside them stay. -/
def Sys2Proof.Says.DataStoreHoldsWhatIsStored : Prop :=
  ∀ (st : Stitch) (a n c : Nat) (bs : List Byte),
    (st.store a bs).load a bs.length = bs ∧ (c + n ≤ a ∨ a + bs.length ≤ c → (st.store a bs).load c n = st.load c n)

/-- R172: loads and stores at their effective address, the fault outside it, and the data store they act on (its upper bound is log entry 19). -/
def Obligations.LoadsAndStoresMoveBytes : Prop :=
  Says.LoadsAndStores ∧ Says.DataStoreHoldsWhatIsStored

/-- R137, R173: SEND appends its quarters of v[SRC1] to the outbound channel of its direction, RECV takes as many entries of
the inbound one into quarters of v[DST], FWD takes each entry into v[DST] and passes it on, SENDS sends s[SRC1] in an entry's
low four bytes and RECVS takes them into s[DST]; where the channels have room and entries for all of it, the instruction
completes. -/
def Sys2Proof.Says.ChannelTransfers : Prop :=
  ∀ (s : State) (k : Nat) (f : StitchFields) (id : Nat) (j : Job),
    let st := s.dev.stitch k
    let out := chanKey k (immDir f)
    st.transfers = 0 → st.canEnter st.after.1 →
    (AtInstr s.dev k 3 0x00 f id j → f.src1.toNat ≤ 7 → immQ f + immN f ≤ 4 → nmem s.dev.knit.declared out = true →
      (s.dev.chan out).length + immN f ≤ 4 →
      ∃ d, Makes (.chnSend k f) s d ∧ d.stitch k = st.goneOn st ∧
        d.chan out = s.dev.chan out ++ (List.range (immN f)).map fun i => st.quarter f.src1 (immQ f + i)) ∧
    (∀ key, AtInstr s.dev k 3 0x01 f id j → f.dst.toNat ≤ 7 → immQ f + immN f ≤ 4 → inboundKey k (immDir f) = some key →
      nmem s.dev.knit.declared key = true → immN f ≤ (s.dev.chan key).length →
      ∃ d, Makes (.chnRecv k f) s d ∧ d.chan key = (s.dev.chan key).drop (immN f) ∧
        d.stitch k = st.goneOn
          (((s.dev.chan key).take (immN f)).zipIdx.foldl (fun x e => x.setQuarter f.dst (immQ f + e.2) e.1) st)) ∧
    (∀ key, AtInstr s.dev k 3 0x02 f id j → f.dst.toNat ≤ 7 → immQ f + immN f ≤ 4 → inboundKey k (immDir f) = some key →
      key ≠ chanKey k (immOdir f) → nmem s.dev.knit.declared key = true → nmem s.dev.knit.declared (chanKey k (immOdir f)) = true →
      immN f ≤ (s.dev.chan key).length → (s.dev.chan (chanKey k (immOdir f))).length + immN f ≤ 4 →
      let fin := ((s.dev.chan key).take (immN f)).zipIdx.foldl (fun x e => x.setQuarter f.dst (immQ f + e.2) e.1) st
      ∃ d, Makes (.chnFwd k f) s d ∧ d.chan key = (s.dev.chan key).drop (immN f) ∧ d.stitch k = st.goneOn fin ∧
        d.chan (chanKey k (immOdir f)) =
          s.dev.chan (chanKey k (immOdir f)) ++ (List.range (immN f)).map fun i => fin.quarter f.dst (immQ f + i)) ∧
    (AtInstr s.dev k 3 0x03 f id j → nmem s.dev.knit.declared out = true → (s.dev.chan out).length < 4 →
      ∃ d, Makes (.chnSends k f) s d ∧ d.stitch k = st.goneOn st ∧
        d.chan out = s.dev.chan out ++ [natBytes 4 (st.s f.src1).toNat ++ zeros 28]) ∧
    (∀ key, AtInstr s.dev k 3 0x04 f id j → inboundKey k (immDir f) = some key → nmem s.dev.knit.declared key = true →
      ∀ bs rest, s.dev.chan key = bs :: rest →
      ∃ d, Makes (.chnRecvs k f) s d ∧ d.chan key = rest ∧
        d.stitch k = st.goneOn (st.setS f.dst (BitVec.ofNat 32 (field bs 0 4))))

/-- R163, R173, Table 7.9: a SENDS whose channel holds four entries blocks its stitch, and a RECVS whose channel holds none;
the blocked SENDS goes on once there is room, and the blocked RECVS once there is an entry. -/
def Sys2Proof.Says.BlockedChannelsGoOn : Prop :=
  ∀ (s : State) (k : Nat) (f : StitchFields) (id : Nat) (j : Job),
    let st := s.dev.stitch k
    let out := chanKey k (immDir f)
    st.transfers = 0 →
    (AtInstr s.dev k 3 0x03 f id j → nmem s.dev.knit.declared out = true → (s.dev.chan out).length = 4 →
      Makes (.chnSends k f) s (s.dev.setStitch k fun _ => { st with run := .blocked })) ∧
    (∀ key, AtInstr s.dev k 3 0x04 f id j → inboundKey k (immDir f) = some key → nmem s.dev.knit.declared key = true →
      s.dev.chan key = [] → Makes (.chnRecvs k f) s (s.dev.setStitch k fun _ => { st with run := .blocked })) ∧
    (s.dev.stitchJob k = some (id, j) → st.run = .blocked → st.word st.pc = stitchWord 3 0x03 f → st.canEnter st.after.1 →
      nmem s.dev.knit.declared out = true → (s.dev.chan out).length < 4 →
      ∃ d, Makes (.blockedInstructionResume k) s d ∧ d.stitch k = st.goneOn st ∧
        d.chan out = s.dev.chan out ++ [natBytes 4 (st.s f.src1).toNat ++ zeros 28]) ∧
    (∀ key bs rest, s.dev.stitchJob k = some (id, j) → st.run = .blocked → st.word st.pc = stitchWord 3 0x04 f →
      st.canEnter st.after.1 → inboundKey k (immDir f) = some key → nmem s.dev.knit.declared key = true →
      s.dev.chan key = bs :: rest →
      ∃ d, Makes (.blockedInstructionResume k) s d ∧ d.chan key = rest ∧
        d.stitch k = st.goneOn (st.setS f.dst (BitVec.ofNat 32 (field bs 0 4))))

/-- R137, R163, R173: the five channel instructions where their channels have room and entries, and where they block. -/
def Obligations.ChannelsCarryEntries : Prop :=
  Says.ChannelTransfers ∧ Says.BlockedChannelsGoOn

/-- The bus instructions of Table 7.8: constructor, minor code, whether it writes the bus. -/
def Sys2Proof.strRows : List ((Nat → StitchFields → Instr) × Nat × Bool) :=
  [(.strBwr, 0x00, true), (.strBrd, 0x01, false), (.strBwld, 0x02, false), (.strBskip, 0x03, false)]

/-- R174: a bus instruction whose stitch takes part that way in the next slot of its bus waits for that slot; one that does
not match its next participation faults with BUS_ORDER. -/
def Sys2Proof.Says.BusInstructionsWaitForTheirSlot : Prop :=
  ∀ r ∈ strRows, ∀ (s : State) (k : Nat) (f : StitchFields) (id : Nat) (j : Job) (n : Nat) (w : Bool),
    let st := s.dev.stitch k
    AtInstr s.dev k 4 r.2.1 f id j → s.dev.nextPart k = some (n, w) →
    (r.2.1 = 0 → f.src1.toNat ≤ 7) → (r.2.1 = 1 → f.dst.toNat ≤ 7) → (r.2.1 = 2 → (st.shadow.loadRows f (zeros 128)).isSome) →
    (w = r.2.2 → Makes (r.1 k f) s (s.dev.setStitch k fun st => { st with busWait := true, run := .blocked })) ∧
    (w ≠ r.2.2 → Makes (r.1 k f) s (s.dev.stitchFault id j k 5 st.pc))

/-- R140, R174: when the stitch that writes the slot holding the token waits in its BWR and the one stitch that reads it waits
in its BRD, BWLD or BSKIP, the slot moves the 128 bytes of v[SRC1]: into v[DST], into the rows of the shadow set that BWLD names, or
nowhere. Both go on, and the token passes to the next slot. -/
def Sys2Proof.Says.BusSlotMovesItsBytes : Prop :=
  ∀ (s : State) (row a b : Nat) (id : Nat) (j : Job) (fa fb : StitchFields) (slots : List BusSlot) (tok minor : Nat) (x : Stitch),
    let w := s.dev.stitch (64 * row + a)
    let r := s.dev.stitch (64 * row + b)
    a < 64 → b < 64 → a ≠ b →
    s.dev.jobOfPanel (row / 8) = some (id, j) → j.stage = 2 → s.dev.bus row = { slots := slots, token := tok } →
    slots[tok]? = some { writer := a, readers := [b] } →
    w.busWait = true → w.run = .blocked → w.word w.pc = stitchWord 4 0x00 fa → w.canEnter w.after.1 →
    r.busWait = true → r.run = .blocked → r.word r.pc = stitchWord 4 minor fb → r.canEnter r.after.1 →
    (minor = 1 ∧ x = r.setV fb.dst (w.v fa.src1)) ∨
      (minor = 2 ∧ ∃ rows, r.shadow.loadRows fb (lanesBytes (w.v fa.src1)) = some rows ∧ x = { r with shadow := rows }) ∨
      (minor = 3 ∧ x = r) →
    ∃ d, Makes (.busSlotTransfer row) s d ∧ (d.bus row).token = (tok + 1) % slots.length ∧
      d.stitch (64 * row + a) = { w.goneOn w with busNext := w.busNext + 1 } ∧
      d.stitch (64 * row + b) = { r.goneOn x with busNext := r.busNext + 1 }

/-- R140, R174: a bus instruction waits for its slot, and the slot holding the token moves its bytes. -/
def Obligations.BusesMoveSlots : Prop :=
  Says.BusInstructionsWaitForTheirSlot ∧ Says.BusSlotMovesItsBytes

/-! ### MAC, VEC and SYNC -/

/-- R176 to R180: CFG sets the format pair of the shadow set and clears its load mask; WLD loads rows and WSC the row scales
from v[SRC1]; SWAP exchanges a complete shadow set with the active one, and an incomplete one is WEIGHTS_INCOMPLETE (7). -/
def Sys2Proof.Says.WeightSets : Prop :=
  ∀ (s : State) (k : Nat) (f : StitchFields) (id : Nat) (j : Job),
    let st := s.dev.stitch k
    st.canEnter st.after.1 →
    (AtInstr s.dev k 5 0x00 f id j → macPair (f.imm.extractLsb' 0 4).toNat (f.imm.extractLsb' 4 4).toNat = true →
      Steps (.macCfg k f) s id j k { st with shadow := { st.shadow with
        wfmt := (f.imm.extractLsb' 0 4).toNat, afmt := (f.imm.extractLsb' 4 4).toNat, mask := [], scaleLoaded := false } }) ∧
    (AtInstr s.dev k 5 0x00 f id j → macPair (f.imm.extractLsb' 0 4).toNat (f.imm.extractLsb' 4 4).toNat = false →
      Makes (.macCfg k f) s (s.dev.stitchFault id j k 2 st.pc)) ∧
    (∀ w, AtInstr s.dev k 5 0x01 f id j → f.src1.toNat ≤ 7 → st.shadow.loadRows f (lanesBytes (st.v f.src1)) = some w →
      Steps (.macWld k f) s id j k { st with shadow := w }) ∧
    (AtInstr s.dev k 5 0x02 f id j → f.src1.toNat ≤ 7 →
      Steps (.macWsc k f) s id j k { st with shadow := { st.shadow with
        scales := (st.quarter f.src1 0).map (·.toNat), scaleLoaded := true } }) ∧
    (AtInstr s.dev k 5 0x03 f id j → st.shadow.complete = true →
      Steps (.macSwap k f) s id j k { st with active := st.shadow, shadow := { st.active with mask := [], scaleLoaded := false } }) ∧
    (AtInstr s.dev k 5 0x03 f id j → st.shadow.complete = false → Makes (.macSwap k f) s (s.dev.stitchFault id j k 7 st.pc))

/-- R151, R176, R180: STEP accumulates into column t = IMM[4:0] of tile DST, AZERO clears a tile and its SAT flag, ARD reads
column t of tile SRC1 into v[DST], ARDZ clears the column it reads, and AWR writes column t of tile DST from v[SRC1]; a tile
above 3 or a vector register above 7 is ILLEGAL_OPERAND. -/
def Sys2Proof.Says.Accumulators : Prop :=
  ∀ (s : State) (k : Nat) (f : StitchFields) (id : Nat) (j : Job),
    let st := s.dev.stitch k
    let t := (f.imm.extractLsb' 0 5).toNat
    let col := (List.range 32).map fun i => st.acc1 f.src1.toNat i t
    st.canEnter st.after.1 →
    (AtInstr s.dev k 5 0x04 f id j → f.dst.toNat ≤ 3 → f.src1.toNat ≤ 7 → Steps (.macStep k f) s id j k (st.macStep f)) ∧
    (AtInstr s.dev k 5 0x05 f id j → f.dst.toNat ≤ 3 →
      Steps (.macAzero k f) s id j k { st with acc := st.acc.filter fun e => e.1 / 1024 != f.dst.toNat, sat := satClear st.sat f.dst.toNat }) ∧
    (AtInstr s.dev k 5 0x06 f id j → f.dst.toNat ≤ 7 → f.src1.toNat ≤ 3 → Steps (.macArd k f) s id j k (st.setV f.dst col)) ∧
    (AtInstr s.dev k 5 0x07 f id j → f.dst.toNat ≤ 7 → f.src1.toNat ≤ 3 →
      Steps (.macArdz k f) s id j k ((st.setV f.dst col).setCol f.src1.toNat t [])) ∧
    (AtInstr s.dev k 5 0x08 f id j → f.dst.toNat ≤ 3 → f.src1.toNat ≤ 7 →
      Steps (.macAwr k f) s id j k (st.setCol f.dst.toNat t (st.v f.src1))) ∧
    (AtInstr s.dev k 5 0x04 f id j → (3 < f.dst.toNat ∨ 7 < f.src1.toNat) → Makes (.macStep k f) s (s.dev.stitchFault id j k 2 st.pc))

/-- R150 to R155, R177 to R180: the weight sets and the accumulators of a stitch under the MAC instructions. -/
def Obligations.MultiplyAccumulate : Prop :=
  Says.WeightSets ∧ Says.Accumulators

/-- The vector rows of Table 7.11 that work lane by lane on v[SRC1] and v[SRC2]. -/
def Sys2Proof.vec2Rows : List ((Nat → StitchFields → Instr) × Nat × (BitVec 32 → BitVec 32 → BitVec 32)) :=
  [(.vecFadd, 0x00, fadd), (.vecFsub, 0x01, fsub), (.vecFmul, 0x02, fmul), (.vecFmax, 0x04, fmax), (.vecFmin, 0x05, fmin),
   (.vecIadd, 0x09, fun a b => a + b), (.vecIsub, 0x0A, fun a b => a - b), (.vecImul, 0x0B, fun a b => a * b),
   (.vecImax, 0x0C, fun a b => if a.toInt < b.toInt then b else a), (.vecImin, 0x0D, fun a b => if b.toInt < a.toInt then b else a),
   (.vecAnd, 0x0E, fun a b => a &&& b), (.vecOr, 0x0F, fun a b => a ||| b), (.vecXor, 0x10, fun a b => a ^^^ b),
   (.vecFcmplt, 0x14, fun a b => if flt a b then 0xFFFFFFFF#32 else 0#32),
   (.vecIcmplt, 0x15, fun a b => if a.toInt < b.toInt then 0xFFFFFFFF#32 else 0#32)]

/-- Those that work on v[SRC1] and IMM[4:0]. -/
def Sys2Proof.vec1Rows : List ((Nat → StitchFields → Instr) × Nat × (Nat → BitVec 32 → BitVec 32)) :=
  [(.vecFexp2, 0x06, fun _ a => fexp2 a), (.vecFrcp, 0x07, fun _ a => frcp a), (.vecFrsqrt, 0x08, fun _ a => frsqrt a),
   (.vecShl, 0x11, fun n a => a <<< n), (.vecShr, 0x12, fun n a => a >>> n), (.vecSra, 0x13, fun n a => a.sshiftRight n),
   (.vecItof, 0x1F, fun _ a => itof a)]

/-- Those that also read v[DST]. -/
def Sys2Proof.vec3Rows : List ((Nat → StitchFields → Instr) × Nat × (BitVec 32 → BitVec 32 → BitVec 32 → BitVec 32)) :=
  [(.vecFma, 0x03, ffma), (.vecSel, 0x16, fun c a b => if c = 0#32 then b else a)]

/-- R181: lane i of v[DST] becomes the operation on lane i of its sources; a register field above v7 is ILLEGAL_OPERAND. -/
def Sys2Proof.Says.VectorLanes : Prop :=
  ∀ (s : State) (k : Nat) (f : StitchFields) (id : Nat) (j : Job),
    let st := s.dev.stitch k
    st.canEnter st.after.1 →
    (∀ r ∈ vec2Rows, AtInstr s.dev k 6 r.2.1 f id j →
      (f.dst.toNat ≤ 7 → f.src1.toNat ≤ 7 → f.src2.toNat ≤ 7 →
        Steps (r.1 k f) s id j k (st.setV f.dst ((List.range 32).map fun i => r.2.2 ((st.v f.src1).getD i 0) ((st.v f.src2).getD i 0)))) ∧
      (7 < f.dst.toNat ∨ 7 < f.src1.toNat ∨ 7 < f.src2.toNat → Makes (r.1 k f) s (s.dev.stitchFault id j k 2 st.pc))) ∧
    (∀ r ∈ vec1Rows, AtInstr s.dev k 6 r.2.1 f id j →
      (f.dst.toNat ≤ 7 → f.src1.toNat ≤ 7 →
        Steps (r.1 k f) s id j k (st.setV f.dst ((st.v f.src1).map (r.2.2 (f.imm.extractLsb' 0 5).toNat)))) ∧
      (7 < f.dst.toNat ∨ 7 < f.src1.toNat → Makes (r.1 k f) s (s.dev.stitchFault id j k 2 st.pc))) ∧
    (∀ r ∈ vec3Rows, AtInstr s.dev k 6 r.2.1 f id j → f.dst.toNat ≤ 7 → f.src1.toNat ≤ 7 → f.src2.toNat ≤ 7 →
      Steps (r.1 k f) s id j k (st.setV f.dst ((List.range 32).map fun i =>
        r.2.2 ((st.v f.dst).getD i 0) ((st.v f.src1).getD i 0) ((st.v f.src2).getD i 0))))

/-- R182: BCAST fills v[DST] with s[SRC1], LANE writes one lane, EXTR reads lane IMM[4:0] of v[SRC1] into s[DST], and FSUM and
FMAXR bring the lanes of v[SRC1] together in s[DST], FSUM in five levels of neighbouring pairs. -/
def Sys2Proof.Says.LanesAndScalars : Prop :=
  ∀ (s : State) (k : Nat) (f : StitchFields) (id : Nat) (j : Job),
    let st := s.dev.stitch k
    let n := (f.imm.extractLsb' 0 5).toNat
    let a := st.v f.src1
    st.canEnter st.after.1 →
    (AtInstr s.dev k 6 0x17 f id j → f.dst.toNat ≤ 7 →
      Steps (.vecBcast k f) s id j k (st.setV f.dst (List.replicate 32 (st.s f.src1)))) ∧
    (AtInstr s.dev k 6 0x18 f id j → f.dst.toNat ≤ 7 →
      Steps (.vecLane k f) s id j k (st.setV f.dst ((st.v f.dst).set n (st.s f.src1)))) ∧
    (AtInstr s.dev k 6 0x19 f id j → f.src1.toNat ≤ 7 → Steps (.vecExtr k f) s id j k (st.setS f.dst (a.getD n 0))) ∧
    (AtInstr s.dev k 6 0x1A f id j → f.src1.toNat ≤ 7 →
      Steps (.vecFsum k f) s id j k (st.setS f.dst ((pairSums (pairSums (pairSums (pairSums (pairSums a))))).headD 0))) ∧
    (AtInstr s.dev k 6 0x1B f id j → f.src1.toNat ≤ 7 →
      Steps (.vecFmaxr k f) s id j k (st.setS f.dst (a.tail.foldl fmax (a.headD 0))))

/-- R155, R156, R183: CVT, UNPK and QBLK convert v[SRC1] under FMT IMM[3:0] and RND IMM[5:4], legal formats only; FTOI notes a
lost NaN. -/
def Sys2Proof.Says.Conversions : Prop :=
  ∀ (s : State) (k : Nat) (f : StitchFields) (id : Nat) (j : Job),
    let st := s.dev.stitch k
    let fmt := (f.imm.extractLsb' 0 4).toNat
    let rnd := (f.imm.extractLsb' 4 2).toNat
    st.canEnter st.after.1 → f.dst.toNat ≤ 7 → f.src1.toNat ≤ 7 →
    (AtInstr s.dev k 6 0x1C f id j → (fmt ≤ 6 ∧ rnd ≠ 3 → Steps (.vecCvt k f) s id j k (st.cvt f)) ∧
      (6 < fmt ∨ rnd = 3 → Makes (.vecCvt k f) s (s.dev.stitchFault id j k 2 st.pc))) ∧
    (AtInstr s.dev k 6 0x1D f id j → (fmt ≤ 6 ∨ fmt = 8 → Steps (.vecUnpk k f) s id j k (st.unpk f)) ∧
      (fmt = 7 ∨ 8 < fmt → Makes (.vecUnpk k f) s (s.dev.stitchFault id j k 2 st.pc))) ∧
    (AtInstr s.dev k 6 0x1E f id j → ((fmt = 0 ∨ fmt = 3 ∨ fmt = 4 ∨ fmt = 5) ∧ rnd ≠ 3 → Steps (.vecQblk k f) s id j k (st.qblk f)) ∧
      (rnd = 3 → Makes (.vecQblk k f) s (s.dev.stitchFault id j k 2 st.pc))) ∧
    (AtInstr s.dev k 6 0x20 f id j → Steps (.vecFtoi k f) s id j k
      { st.setV f.dst ((st.v f.src1).map fun a => (ftoi a).1) with nanLost := st.nanLost || (st.v f.src1).any fun a => (ftoi a).2 })

/-- R181 to R183: the vector instructions: lane by lane, between lanes and scalars, and conversions. -/
def Obligations.VectorInstructions : Prop :=
  Says.VectorLanes ∧ Says.LanesAndScalars ∧ Says.Conversions

/-- R184: HALT halts the stitch; ID gives its job-relative index and NPANEL the job's panels; FLAGS gives the sticky flags and
clears them; DRAIN goes on once every channel the stitch writes is empty, and blocks it before; RNGSET loads the noise
register (zero as 0x8000_0001) and RNGGET reads it. -/
def Obligations.SyncInstructions : Prop :=
  ∀ (s : State) (k : Nat) (f : StitchFields) (id : Nat) (j : Job),
    let st := s.dev.stitch k
    (AtInstr s.dev k 7 0x00 f id j →
      Makes (.syncHalt k f) s ((s.dev.setStitch k fun _ => { st with run := .halted }).tagStitch id j k st.pc (st.word st.pc))) ∧
    (st.canEnter st.after.1 →
      (AtInstr s.dev k 7 0x01 f id j →
        Steps (.syncId k f) s id j k (st.setS f.dst (BitVec.ofNat 32 (j.mask.idxOf (k / 512) * 512 + k % 512)))) ∧
      (AtInstr s.dev k 7 0x02 f id j → Steps (.syncNpanel k f) s id j k (st.setS f.dst (BitVec.ofNat 32 j.panels))) ∧
      (AtInstr s.dev k 7 0x03 f id j →
        Steps (.syncFlags k f) s id j k { st.setS f.dst (stickyFlags st.sat st.nanLost) with sat := 0, nanLost := false }) ∧
      (AtInstr s.dev k 7 0x04 f id j → (∀ dir, dir < 4 → s.dev.chan (4 * k + dir) = []) → Steps (.syncDrain k f) s id j k st) ∧
      (AtInstr s.dev k 7 0x05 f id j →
        Steps (.syncRngset k f) s id j k { st with lfsr := if st.s f.src1 = 0#32 then 0x80000001#32 else st.s f.src1 }) ∧
      (AtInstr s.dev k 7 0x06 f id j → Steps (.syncRngget k f) s id j k (st.setS f.dst st.lfsr))) ∧
    (AtInstr s.dev k 7 0x04 f id j → (∃ dir, dir < 4 ∧ s.dev.chan (4 * k + dir) ≠ []) →
      Makes (.syncDrain k f) s (s.dev.setStitch k fun _ => { st with run := .blocked }))

/-- R166 (Table 7.1): class, minor code and fields of a word are those it was made of, and a word is made of its own. -/
def Obligations.StitchWordsReadBack : Prop :=
  (∀ (cls minor : Nat) (f : StitchFields), cls < 64 → minor < 64 →
    wordClass (stitchWord cls minor f) = cls ∧ wordMinor (stitchWord cls minor f) = minor ∧ wordFields (stitchWord cls minor f) = f) ∧
  ∀ w : BitVec 64, stitchWord (wordClass w) (wordMinor w) (wordFields w) = w

/-! ### Stream ports, stores and panels -/

/-- R141, R142: a step of a port with nothing buffered issues the read of the next line of its read transfer that lies on its
stack; the stack's return puts the line's 64 bytes into the FIFO slot that waits for them. What a step does to the port's
urgency level besides is `Dev.setUrgency`. -/
def Sys2Proof.Says.StreamPortReads : Prop :=
  ∀ (s : State) (n : Nat) (id : Nat) (j : Job), s.dev.portJob n = some (id, j) →
    (∀ t i a attr, (s.dev.sport n).writes = [] → (s.dev.sport n).list[(s.dev.sport n).issueXfer]? = some t → t.write = false →
      s.dev.portLine j n t (s.dev.sport n).issueLine = some (i, a, attr) → (s.dev.sport n).reads.length < 1024 →
      Makes (.streamTransferIssue n) s ((s.dev.setSport n fun q => { q with
        issueLine := i + 1, reads := q.reads ++ [{ addr := a, xfer := q.issueXfer, idx := i }] }).setUrgency j n)) ∧
    (∀ line l t attr a b d', (s.dev.sport n).reads[line]? = some l → l.data = none → (s.dev.sport n).list[l.xfer]? = some t →
      s.dev.translate j (t.vline l.idx) = some (a, attr) → s.dev.portRead j n l.addr attr = (.ok b, d') →
      Makes (.streamLineReturn n line) s (((d'.setSport n fun q => { q with
        reads := q.reads.set line { l with data := some (slice b 0 64) } }).progress id).setUrgency j n))

/-- R142, R145: a buffered line that its write finds in order leaves the buffer and is counted. -/
def Sys2Proof.Says.StreamPortWrites : Prop :=
  ∀ (s : State) (n : Nat) (id : Nat) (j : Job) (w : PortLine) (rest : List PortLine) (t : Transfer) (a attr : Nat) (d' : Dev),
    s.dev.portJob n = some (id, j) → (s.dev.sport n).writes = w :: rest → (s.dev.sport n).list[w.xfer]? = some t →
    s.dev.translate j (t.vline w.idx) = some (a, attr) →
    s.dev.portWrite j n w.addr attr (slice (w.data.getD []) 0 64) = (.ok [], d') →
    s.dev.portFlush id j n = (d'.setSport n fun q => { q with writes := rest, written := q.written + 1 }).setJob id
      fun j => { j with lastWrite := d'.now, progressAt := d'.now }

/-- R135: an error a stitch's store corrects is counted; one it cannot correct is counted, counted against its panel up to 15,
ends the job that runs there with STORE_ECC (8) at the stitch's address, and the second one in a panel retires it. -/
def Sys2Proof.Says.StoreErrors : Prop :=
  ∀ (s : State) (k : Nat),
    Makes (.stitchStoreEccError k false) s (s.dev.bump 0x20000C 16) ∧
    (∀ id j, s.dev.stitchJob k = some (id, j) → (s.dev.panel (k / 512)).uncorr = 0 →
      let d := (s.dev.bump 0x20000C 0).setPanel (k / 512) fun q => { q with uncorr := 1 }
      Makes (.stitchStoreEccError k true) s (d.stitchFault id j k 8 (s.dev.stitch k).pc)) ∧
    (s.dev.stitchJob k = none → 1 ≤ (s.dev.panel (k / 512)).uncorr → (s.dev.panel (k / 512)).state = psIdle →
      ∃ d, Makes (.stitchStoreEccError k true) s d ∧ (d.panel (k / 512)).state = psRetired ∧
        (d.panel (k / 512)).uncorr = min 15 ((s.dev.panel (k / 512)).uncorr + 1))

/-- R160, R205, R210: a drained panel holds no stitch, channel, bus, slot list or port state of its job, and is RETIRED where
that was asked, IDLE where it is powered, and OFF otherwise. -/
def Sys2Proof.Says.DrainedPanels : Prop :=
  ∀ (s : State) (p : Nat), p < 16 → (s.dev.panel p).state = psDraining →
    ∃ d, Makes (.panelDrainDone p) s d ∧
      (d.panel p).state =
        (if (s.dev.panel p).retireWish then psRetired else if nmem s.dev.poweredPanels p then psIdle else psOff) ∧
      (d.panel p).retireWish = false ∧
      (∀ k, k / 512 = p → (d.stitch k) = {}) ∧ (∀ key, key / 2048 = p → d.chan key = []) ∧
      (∀ row, row / 8 = p → d.bus row = {}) ∧ (∀ n, n % 16 = p → d.sport n = {}) ∧
      (∀ e, e.1 / 512 ≠ p → (e ∈ d.knit.stitches ↔ e ∈ s.dev.knit.stitches))

/-- Chapters 6 and 8: stream ports read and write lines, a store error ends its job, and a drained panel is zeroed. -/
def Obligations.StreamPortsAndPanels : Prop :=
  Says.StreamPortReads ∧ Says.StreamPortWrites ∧ Says.StoreErrors ∧ Says.DrainedPanels

/-! ## Jobs, contexts and segments (chapter 8) -/

/-- R196: CTX_CREATE gives the requester a context that was not valid, with no segment, and answers its number; where none is
free it is DENIED 4. The number is a free choice (log entry 5). R215: a host outside the tenant range of the Sealed personality is given
none; that it is DENIED 0x81 is the model's choice (log entry 56). -/
def Sys2Proof.Says.ContextsAreCreated : Prop :=
  ∀ (s : State) (ring idx : Nat) (b : List Byte), s.dev.ready ring idx 0x22 b → admits s.dev ring false [4] →
    (s.dev.outsideTenant (s.dev.ringOwner ring) = true →
      Completes (.ctxCreate ring idx) s ring idx (s.dev.begun ring idx) stDenied 0x81 0 0) ∧
    (s.dev.outsideTenant (s.dev.ringOwner ring) = false → (∃ c, c < 1024 ∧ s.dev.ctx c = none) →
      ∃ c, c < 1024 ∧ s.dev.ctx c = none ∧
        Completes (.ctxCreate ring idx) s ring idx
          (({ s.dev.begun ring idx with free := s.dev.free + 1 }.setCtx c { owner := s.dev.ringOwner ring }).repCtx ring b c)
          stDone 0 c 0) ∧
    (s.dev.outsideTenant (s.dev.ringOwner ring) = false → (∀ c, c < 1024 → s.dev.ctx c ≠ none) →
      Completes (.ctxCreate ring idx) s ring idx { s.dev.begun ring idx with free := s.dev.free + 1 } stDenied 4 0 0)

/-- R196, R199: the owner's CTX_DESTROY removes the context, SEG_CLEAR removes a segment, and CTX_QUERY writes the eight
records of its slots; another's context is DENIED 5, and one a job uses DENIED 0x34. -/
def Sys2Proof.Says.ContextsOfTheirOwner : Prop :=
  ∀ (s : State) (ring idx : Nat) (b : List Byte) (x : Context),
    let d := s.dev.begun ring idx
    s.dev.ctx (dCtx b) = some x → admits s.dev ring false [4] →
    (x.owner = s.dev.ringOwner ring → s.dev.ctxBusy (dCtx b) = false →
      (s.dev.ready ring idx 0x23 b → Completes (.ctxDestroy ring idx) s ring idx
        (({ d with jobs := { d.jobs with contexts := tdel d.jobs.contexts (dCtx b) } }.setPrivates).repCtx ring b 0) stDone 0 0 0) ∧
      (s.dev.ready ring idx 0x25 b → Completes (.segClear ring idx) s ring idx
        ((d.setCtx (dCtx b) { x with slots := tdel x.slots (dSlot b) }).setPrivates.repCtx ring b 0) stDone 0 0 0)) ∧
    (x.owner = s.dev.ringOwner ring → s.dev.ready ring idx 0x26 b → Makes (.ctxQuery ring idx) s
      (d.output (.desc ring idx) (field b 48 8) (((List.range 8).map fun i => segBytes (tget x.slots i)).flatten) stDone 0 0 x.slots.length)) ∧
    (x.owner ≠ s.dev.ringOwner ring →
      (s.dev.ready ring idx 0x23 b → Completes (.ctxDestroy ring idx) s ring idx d stDenied 5 0 0) ∧
      (s.dev.ready ring idx 0x25 b → Completes (.segClear ring idx) s ring idx d stDenied 5 0 0) ∧
      (s.dev.ready ring idx 0x26 b → Completes (.ctxQuery ring idx) s ring idx d stDenied 5 0 0)) ∧
    (x.owner = s.dev.ringOwner ring → s.dev.ctxBusy (dCtx b) = true → s.dev.ready ring idx 0x23 b →
      Completes (.ctxDestroy ring idx) s ring idx d stDenied 0x34 0 0)

/-- R197, R198: a segment with no field to clamp that passes the checks of Table 8.2 stands in its slot, and SEG_SET completes once the
sweep of a private one is over, the command given again where it has to wait; one not aligned to 64 KiB is DENIED 0x20, one that passes
the end of an address space DENIED 0x24, one that overlaps another slot's DENIED 0x36, and one that fails a later check as that check
says, its slot unchanged. -/
def Sys2Proof.Says.SegmentsAreSet : Prop :=
  ∀ (s : State) (ring idx : Nat) (b : List Byte),
    let d := s.dev.begun ring idx
    let g := segOf b
    s.dev.ready ring idx 0x24 b →
    (∀ x d1, s.dev.doneOf ring idx ≠ 1 → admits s.dev ring false [4] → s.dev.ctx (dCtx b) = some x → x.owner = s.dev.ringOwner ring →
      s.dev.ctxBusy (dCtx b) = false → segClamps b = 0 →
      d1 = (d.setCtx (dCtx b) { x with slots := tput x.slots (dSlot b) g }).setPrivates.setDone ring idx 1 [] →
      (s.dev.segRefused (s.dev.ringOwner ring) (dSlot b) x g = none →
        (g.attr = 0 → Completes (.segSet ring idx) s ring idx (d1.repCtx ring b 0) stDone 0 0 0) ∧
        (g.attr = 1 → d1.sweepAll.privateSwept g = true → Completes (.segSet ring idx) s ring idx (d1.sweepAll.repCtx ring b 0) stDone 0 0 0) ∧
        (g.attr = 1 → d1.sweepAll.privateSwept g = false → Makes (.segSet ring idx) s (d1.sweepAll.unclaim ring idx))) ∧
      (∀ r, s.dev.segRefused (s.dev.ringOwner ring) (dSlot b) x g = some r → Completes (.segSet ring idx) s ring idx d r.1 r.2 0 0) ∧
      (g.vbase % 65536 ≠ 0 ∨ g.poolBase % 65536 ≠ 0 → Completes (.segSet ring idx) s ring idx d stDenied 0x20 0 0) ∧
      (g.vbase % 65536 = 0 → g.poolBase % 65536 = 0 → 2 ^ 48 < g.vbase + g.length ∨ 0xFFFFF0000000 < g.poolBase + g.length →
        Completes (.segSet ring idx) s ring idx d stDenied 0x24 0 0) ∧
      (g.vbase % 65536 = 0 → g.poolBase % 65536 = 0 → g.vbase + g.length ≤ 2 ^ 48 → g.poolBase + g.length ≤ 0xFFFFF0000000 →
        (∃ e ∈ x.slots, e.1 ≠ dSlot b ∧ e.2.vbase < g.vbase + g.length ∧ g.vbase < e.2.vbase + e.2.length) →
        Completes (.segSet ring idx) s ring idx d stDenied 0x36 0 0)) ∧
    (s.dev.doneOf ring idx = 1 → g.attr = 1 →
      (d.sweepAll.privateSwept g = true → Completes (.segSet ring idx) s ring idx (d.sweepAll.repCtx ring b 0) stDone 0 0 0) ∧
      (d.sweepAll.privateSwept g = false → Makes (.segSet ring idx) s (d.sweepAll.unclaim ring idx)))

/-- R202, R205, R462: PANEL_ADMIN under the lease retires an idle panel at once, a running, loading or draining one when it has drained,
and one already retired takes back a RETURN that waits for its epoch; RETURN of a retired panel tests its stores, which the test result
and event 0x0921 tell of, and brings it back at an epoch where the test passes; without the lease it is DENIED 8. -/
def Sys2Proof.Says.PanelAdministration : Prop :=
  ∀ (s : State) (ring idx : Nat) (b : List Byte) (pass : Bool),
    let d := s.dev.begun ring idx
    let p := field b 10 1 % 16
    let kept : Dev → Dev := fun d => { d with pool := { d.pool with addCapacity := ndel s.dev.pool.addCapacity p } }
    s.dev.ready ring idx 0x27 b → admits s.dev ring false [4] → field b 11 1 ≤ 1 →
    (s.dev.hasLease (s.dev.ringOwner ring) = true →
      (field b 11 1 = 0 → (s.dev.panel p).state = psIdle ∨ (s.dev.panel p).state = psOff →
        Completes (.panelAdmin ring idx pass) s ring idx (kept (d.setPanel p fun q => { q with state := psRetired })) stDone 0 0 0) ∧
      (field b 11 1 = 0 → (s.dev.panel p).state = psRunning ∨ (s.dev.panel p).state = psDraining ∨ (s.dev.panel p).state = psLoading →
        Completes (.panelAdmin ring idx pass) s ring idx (kept (d.setPanel p fun q => { q with retireWish := true })) stDone 0 0 0) ∧
      (field b 11 1 = 0 → (s.dev.panel p).state = psRetired → Completes (.panelAdmin ring idx pass) s ring idx (kept d) stDone 0 0 0) ∧
      (field b 11 1 = 1 → (s.dev.panel p).state ≠ psRetired → Completes (.panelAdmin ring idx pass) s ring idx d stDone 0 0 0) ∧
      (∀ t, field b 11 1 = 1 → (s.dev.panel p).state = psRetired → t = d.panelTested p pass →
        t.test.bistResult = (if pass then 1 else 2) ∧ t.knit = d.knit ∧ t.pool = d.pool ∧
        (pass = true → Completes (.panelAdmin ring idx pass) s ring idx
          { t.setPanel p fun q => { q with uncorr := 0, retireWish := false } with
            pool := { t.pool with addCapacity := nadd t.pool.addCapacity p } } stDone 0 0 0) ∧
        (pass = false → Completes (.panelAdmin ring idx pass) s ring idx t stDeviceError 1 0 0))) ∧
    (s.dev.hasLease (s.dev.ringOwner ring) = false → Completes (.panelAdmin ring idx pass) s ring idx d stDenied 8 0 0)

/-- R196 to R199, R204: compute contexts and their segments, and the administration of panels. -/
def Obligations.ContextsSegmentsPanels : Prop :=
  Says.ContextsAreCreated ∧ Says.ContextsOfTheirOwner ∧ Says.SegmentsAreSet ∧ Says.PanelAdministration

/-- R200 to R206 (Table 8.5 steps 1 and 2): a job whose request is in order gets an ID no job has and its owner's quota; when its header
can be read and passes its checks it is queued, its descriptor open until the job ends; a header that fails a check ends it DENIED with
0x100 and the check, and a request that is not in order ends as step 1 says. -/
def Sys2Proof.Says.JobsAreAdmitted : Prop :=
  ∀ (s : State) (ring idx : Nat) (b : List Byte),
    let j0 := jobOf (s.dev.ringOwner ring) ring idx b
    let j := { j0 with quota := s.dev.quotaOf j0.owner }
    s.dev.ready ring idx 0x20 b → admits s.dev ring true (if j0.stock then [4, 19] else [4]) → jobClamps b = 0 →
    (tfind s.dev.jobs.jobs fun _ j => j.ring == ring && j.idx == idx) = none →
    (∀ r, s.dev.jobRefused j0 = some r → Completes (.jobRun ring idx) s ring idx (s.dev.begun ring idx) r.1 r.2 0 0) ∧
    (s.dev.jobRefused j0 = none → (∃ id, id < 65536 ∧ s.dev.job id = none) →
      ∃ id, id < 65536 ∧ s.dev.job id = none ∧
        ∀ d : Dev, d = ({ s.dev.begun ring idx with
            free := s.dev.free + 1, jobs := { s.dev.jobs with jobs := tput s.dev.jobs.jobs id j } } : Dev).setDone ring idx 1 [] →
          (∀ head d', d.imageRead j 256 = (.ok head, d') → d'.jobHead j head = 0 →
            Makes (.jobRun ring idx) s
              (({ d' with jobs := { d'.jobs with
                  jobs := tput d'.jobs.jobs id { j with contig := imgContig head }, queue := d'.jobs.queue ++ [id] } } : Dev).repAdminOp
                b (natBytes 8 (idResult id) ++ zeros 4 ++ natBytes 4 5) [] j.owner 0)) ∧
          (∀ head d', d.imageRead j 256 = (.ok head, d') → d'.jobHead j head ≠ 0 →
            Makes (.jobRun ring idx) s (d'.jobEnd id stDenied (0x100 + d'.jobHead j head) (idResult id))) ∧
          (∀ st det d', d.imageRead j 256 = (.no st det, d') → Makes (.jobRun ring idx) s (d'.jobEnd id st det (idResult id))) ∧
          (∀ h d', d.imageRead j 256 = (.again h, d') → Makes (.jobRun ring idx) s (d'.unclaim ring idx)))

/-- R203, R206 to R208, R132 (Table 8.5 steps 3 to 9): the first queued job whose owner's quota has room and whose panels are idle is
loaded when its image, its segments, its bounds and its arguments are in order and its private segments are ready; where the image
fails a check it ends DENIED with 0x100 and the check; with no such job, or no idle panels for it, nothing happens. -/
def Sys2Proof.Says.JobsArePlaced : Prop :=
  ∀ (s : State), s.dev.resetting 8 = false →
    (s.dev.nextJob = none → Makes .jobPlace s s.dev) ∧
    ∀ (id : Nat) (j : Job), s.dev.nextJob = some (id, j) →
      (s.dev.placeOn j = none → Makes .jobPlace s s.dev) ∧
      ∀ (mask : List Nat) (k : Job) (head g : List Byte) (d1 d2 : Dev), s.dev.placeOn j = some mask → k = { j with mask := mask } →
        s.dev.imageRead k 256 = (.ok head, d1) →
        (d1.jobHead k head ≠ 0 → Makes .jobPlace s (d1.jobEnd id stDenied (0x100 + d1.jobHead k head) (idResult id))) ∧
        (d1.jobHead k head = 0 → d1.imageRead k (imgBytes head) = (.ok g, d2) →
          (∀ c, imageCheck g (k.supplied g) k.panels (d2.features k.owner) mask (d2.signatureOk k g) = c → c ≠ 0 →
            Makes .jobPlace s (d2.jobEnd id stDenied (0x100 + c) (idResult id))) ∧
          (∀ args d3 d4, imageCheck g (k.supplied g) k.panels (d2.features k.owner) mask (d2.signatureOk k g) = 0 → d2.segsLost k = none →
            d2.jobBound k g = (none, d3) → d3.privatesReady k = true → d3.readRun (some k.owner) k.argAddr k.argLen = (.ok args, d4) →
            Makes .jobPlace s ((d4.jobArgs k args).2.jobStart id k g (d4.jobArgs k args).1)))

/-- R139, R165, R209 to R211, R231: a job ends DONE once every stitch has halted and every port has finished, with its ID, its panels
and its time in RESULT, a stock pattern after its results are written; TIMEOUT at its limit, the timebase having come to it; and a
stalled job, with a stitch blocked, ends DEVICE_ERROR 0x300 at that stitch, and with none at a place that is a free value. Each way the
panels drain and the record counts the lines that landed. A job that is not done, or has no limit, goes on. -/
def Sys2Proof.Says.JobsEnd : Prop :=
  ∀ (s : State) (id : Nat) (j : Job), s.dev.runningJob id = some j →
    (s.dev.jobDone j = true →
      (j.stock = false ∨ stockRecord j.stockId = none →
        Makes (.jobNaturalCompletion id) s ((s.dev.endJob id j).completeDesc j.ring j.idx stDone 0
          (id * 2 ^ 48 + j.maskBits * 2 ^ 32 + min 0xFFFFFFFF ((j.lastWrite - j.startAt) / 800)) (s.dev.jobLines j))) ∧
      (∀ rec x d', j.stock = true → stockRecord j.stockId = some rec → s.dev.stockRun j rec = (.ok x, d') →
        Makes (.jobNaturalCompletion id) s (d'.jobEnd id stDone 0 (d'.jobResult id)))) ∧
    (s.dev.jobDone j = false → Makes (.jobNaturalCompletion id) s s.dev) ∧
    (j.limitMs ≠ 0 → ∀ d, d = s.dev.till (j.startAt + msTicks j.limitMs) →
      Makes (.jobLimitTimeout id) s ((d.endJob id j).completeDesc j.ring j.idx stTimeout 0 (id * 2 ^ 48) (s.dev.jobLines j))) ∧
    (j.limitMs = 0 → Makes (.jobLimitTimeout id) s s.dev) ∧
    (∀ e, s.dev.jobDone j = false → (j.ports.any s.dev.portBusy) = false → e = s.dev.till (j.progressAt + msTicks (s.dev.fld 0x200000 0 8)) →
      (∀ k, j.stitches.find? (fun k => (s.dev.stitch k).run == .blocked) = some k →
        Makes (.jobStall id) s ((e.logKnit id j stDeviceError (j.rel k + (s.dev.stitch k).pc * 2 ^ 13) 0).jobEnd id stDeviceError 0x300
          ((s.dev.stitch k).pc * 65536 + j.rel k))) ∧
      (j.stitches.find? (fun k => (s.dev.stitch k).run == .blocked) = none →
        Makes (.jobStall id) s ((e.draw.2.logKnit id j stDeviceError (e.draw.1 % 2 ^ 23) 0).jobEnd id stDeviceError 0x300
          (e.draw.1 / 8192 % 1024 * 65536 + e.draw.1 % 8192))))

/-- R208 to R210: the end of a job takes it out of the job table and the queue, and every panel of its mask drains, halting
its stitches. -/
def Sys2Proof.Says.EndedJobsLetTheirPanelsGo : Prop :=
  ∀ (d : Dev) (id : Nat) (j : Job),
    (d.endJob id j).jobs.jobs = tdel d.jobs.jobs id ∧ nmem (d.endJob id j).jobs.queue id = false ∧
    ∀ p ∈ j.mask, ((d.endJob id j).panel p).state = psDraining ∧ ((d.endJob id j).panel p).job = none

/-- R200 to R210: a job is admitted, placed, ended, and its panels go. -/
def Obligations.JobsFromAdmissionToEnd : Prop :=
  Says.JobsAreAdmitted ∧ Says.JobsArePlaced ∧ Says.JobsEnd ∧ Says.EndedJobsLetTheirPanelsGo

/-! ## Registers (chapters 0 and 24) -/

/-- Registers whose write does more than store their fields. -/
def Sys2Proof.ownWrite (base : Nat) : Bool :=
  [0x014, 0x01C, 0x72000, 0xA00000, 0xA00010, 0x80020, 0x80060, 0x80080, 0x100000, 0x100008, 0x181000, 0x200004, 0x300004, 0x300008,
   0x380000, 0x400000, 0x600020, 0x600038, 0x601000, 0x604000, 0x605000, 0x680010, 0x900080, 0x980004].contains base ||
  (0x50000 ≤ base && base < 0x60000)

/-- A BAR0 offset of the register map that needs the administration lease to be written (R62). -/
abbrev Sys2Proof.mapped (off : Nat) (r : RegRow) : Prop :=
  regAt off = some r ∧ off % 4 = 0 ∧ off < 0x2000000 ∧ inRings off = false ∧ inMsix off = false ∧ leaseFree off = false

/-- R8, R9, R62: by the port that holds the administration lease, a write of a 32-bit register, an aligned 64-bit write of a 64-bit
register, and a write of the upper half of one whose lower half the port has written, have the register's effect; the lower half alone
is held; an upper half without it, a write by a port that does not hold the lease, and one that is misaligned, of another size or outside
BAR0, are refused and counted. A port that carries no accesses changes nothing. -/
def Sys2Proof.Says.RegisterWritesTakeEffect : Prop :=
  ∀ (s : State) (p off v : Nat),
    let who := portNode p
    let held := fun off => { s.dev with halves := tdel s.dev.halves (halfKey who off) }
    (p < 2 → s.dev.portUp p = false → ∀ size, Makes (.registerWrite who off size v) s s.dev) ∧
    (hostUp s.dev p →
      (∀ r, mapped off r → s.dev.hasLease who = true →
        (r.wide = false → v < 2 ^ 32 → Makes (.registerWrite who off 4 v) s (s.dev.regAction s.fuse who r off v)) ∧
        (r.wide = true → v < 2 ^ 32 →
          Makes (.registerWrite who off 4 v) s { s.dev with halves := tput s.dev.halves (halfKey who off) v }) ∧
        (r.wide = true → off % 8 = 0 → v < 2 ^ 64 →
          Makes (.registerWrite who off 8 v) s ((held off).regAction s.fuse who r off v))) ∧
      (∀ r, mapped off r → s.dev.hasLease who = false → v < 2 ^ 32 → Makes (.registerWrite who off 4 v) s s.dev.badAccess) ∧
      (∀ r, 4 ≤ off → regUpper off = some r → regAt off = none → off % 4 = 0 → off < 0x2000000 → inRings off = false → inMsix off = false →
        leaseFree off = false → s.dev.hasLease who = true → v < 2 ^ 32 →
        (∀ lo, tget s.dev.halves (halfKey who (off - 4)) = some lo →
          Makes (.registerWrite who off 4 v) s ((held (off - 4)).regAction s.fuse who r (off - 4) (lo + v * 2 ^ 32))) ∧
        (tget s.dev.halves (halfKey who (off - 4)) = none → Makes (.registerWrite who off 4 v) s s.dev.badAccess)) ∧
      (∀ size, inBar2 off = false → inCfg off = false → (size ≠ 4 ∧ size ≠ 8) ∨ off % size ≠ 0 ∨ 0x2000000 ≤ off →
        Makes (.registerWrite who off size v) s s.dev.badAccess) ∧
      (∀ n size, off = bar2Base + n * 0x1000 → n < 1024 → Makes (.registerWrite who off size v) s (s.dev.doorbell who (n * 0x1000) size v)))

/-- R8, R14, R15: a register that only stores holds its fields as clamped after the write, and keeps its value where a register is
written that is not its own; the clamps its fields have, and those that depend on other fields, are counted for its block. -/
def Sys2Proof.Says.RegisterWritesStore : Prop :=
  ∀ (d : Dev) (f : Fuses) (who off v : Nat) (r : RegRow), ownWrite r.base = false →
    let at_ := copyAt who off
    let w := d.crossClamp who r off v
    let n := (r.store (d.reg at_) w).2 + b2n (w != v)
    d.regAction f who r off v = ((List.range n).foldl (fun d _ => d.clamped r.group r.pos) d).setReg at_ (r.store (d.reg at_) w).1 ∧
    (d.regAction f who r off v).reg at_ = (r.store (d.reg at_) w).1 ∧
    (n = 0 → ∀ o, o ≠ at_ → (d.regAction f who r off v).reg o = d.reg o)

/-- A clamp leaves a value that fits its field. -/
def Sys2Proof.clampFits (n : Nat) : Clamp → Bool
  | .none => true
  | .range lo hi => lo ≤ hi && hi < 2 ^ n
  | .codes _ dflt => dflt < 2 ^ n
  | .grain _ lo hi => lo ≤ hi && hi < 2 ^ n

/-- Two fields share no bit. -/
def Sys2Proof.apart (x y : Fld) : Bool := x.lo + x.n ≤ y.lo || y.lo + y.n ≤ x.lo

/-- R12, R14: of a register whose fields do not overlap, each RW field becomes its part of the write as clamped, and every
other field keeps its value; a field that a read clears is zero after the read, and every other keeps its value. -/
def Sys2Proof.Says.FieldsTakeTheirClampedPart : Prop :=
  ∀ (r : RegRow), r.flds.Pairwise (fun x y => apart x y = true) → (∀ x ∈ r.flds, clampFits x.n x.clamp = true) →
    (∀ (old v : Nat), ∀ x ∈ r.flds,
      bits (r.store old v).1 x.lo x.n = if x.acc = .rw then x.clamp.apply (bits v x.lo x.n) else bits old x.lo x.n) ∧
    (∀ (d : Dev) (who off : Nat), ∀ x ∈ r.flds,
      bits ((d.clearRc who r off).reg (copyAt who off)) x.lo x.n = if x.acc = .rc then 0 else bits (d.reg (copyAt who off)) x.lo x.n)

/-- R14, Table 24.2: in every register of the map the fields are apart, and every clamp fits. -/
def Sys2Proof.Says.FieldsAreApart : Prop :=
  ∀ r ∈ regMap, r.flds.Pairwise (fun x y => apart x y = true) ∧ ∀ x ∈ r.flds, clampFits x.n x.clamp = true

/-- R8, R12: a port's read of a 32-bit register answers its value, and the counts it has read are cleared; an aligned 64-bit read answers
the lower word and then the upper one; a control core's read clears what it reads. A read that is misaligned, of another size or outside
BAR0 answers zeros and is counted; one of BAR2 answers zeros. A port that carries no accesses is answered nothing. -/
def Sys2Proof.Says.ReadsAnswerAndClear : Prop :=
  ∀ (s : State) (p off : Nat),
    let who := portNode p
    let d := s.dev.draw.2
    (p < 2 → s.dev.portUp p = false → ∀ size, Makes (.rcRegisterRead who off size) s s.dev) ∧
    (∀ r, regAt off = some r → off % 4 = 0 → off < 0x2000000 → inRings off = false → inMsix off = false →
      Makes (.rcRegisterRead 0 off 4) s (d.clearRc 0 r off)) ∧
    (hostUp s.dev p →
      (∀ r, regAt off = some r → off % 4 = 0 → off < 0x2000000 → inRings off = false → inMsix off = false →
        Makes (.rcRegisterRead who off 4) s
          ((d.clearRc who r off).emit (.readData p (natBytes 4 (d.regValue s.fuse who r off % 2 ^ 32)) false))) ∧
      (off % 8 = 0 → off < 0x2000000 →
        let lo := d.readWord s.fuse who off
        let hi := lo.2.readWord s.fuse who (off + 4)
        Makes (.rcRegisterRead who off 8) s (hi.2.emit (.readData p (natBytes 8 (lo.1 + hi.1 * 2 ^ 32)) false))) ∧
      (∀ size, inBar2 off = true → Makes (.rcRegisterRead who off size) s (s.dev.emit (.readData p (natBytes size 0) false))) ∧
      (∀ size, inBar2 off = false → inCfg off = false → (size ≠ 4 ∧ size ≠ 8) ∨ off % size ≠ 0 ∨ 0x2000000 ≤ off →
        Makes (.rcRegisterRead who off size) s (s.dev.badAccess.emit (.readData p (natBytes size 0) false))))

/-- R41, R42: an ingress-filter entry whose source range and address range are legal is stored, VALID and all; an illegal one
is refused whole and counted. Its halves are written as those of any 64-bit register. -/
def Sys2Proof.Says.FilterEntriesAreChecked : Prop :=
  ∀ (s : State) (p off v : Nat), hostUp s.dev p → 0x601000 ≤ off → off < 0x601C00 →
    (∀ size, exec (.igfEntryWrite (portNode p) off size v) s = exec (.registerWrite (portNode p) off size v) s) ∧
    (off % 8 = 0 → v < 2 ^ 64 → s.dev.hasLease (portNode p) = true →
      let d := { s.dev with halves := tdel s.dev.halves (halfKey (portNode p) off) }
      let legal := 1 ≤ bits v 51 12 ∧ bits v 51 12 ≤ bits v 39 12 ∧ bits v 39 12 ≤ 0xFEF ∧ bits v 21 18 ≤ bits v 3 18
      (legal → Makes (.igfEntryWrite (portNode p) off 8 v) s (d.setReg off (v / 8 * 8))) ∧
      (¬ legal → Makes (.igfEntryWrite (portNode p) off 8 v) s d.badAccess))

/-- R8 to R16, R42, R62: register writes and reads by field, and the ingress filter entries. -/
def Obligations.RegistersHoldTheirFields : Prop :=
  Says.RegisterWritesTakeEffect ∧ Says.RegisterWritesStore ∧ Says.FieldsTakeTheirClampedPart ∧ Says.FieldsAreApart ∧
  Says.ReadsAnswerAndClear ∧ Says.FilterEntriesAreChecked

/-! ## Upstream ports, rings and sessions (chapter 3) -/

/-- R64: ACQUIRE takes a free lease for 5 s, RENEW by its holder, at least 1 s after the last command it took, starts the 5 s
again, RELEASE frees it, and it is free at its expiry; each change of holder signals vector 0 of both ports. A port that does
not hold it changes nothing by RENEW or RELEASE, nor does a RENEW that comes earlier, nor an ACQUIRE of a lease that is held. -/
def Sys2Proof.Says.AdministrationLease : Prop :=
  ∀ (s : State) (p : Nat),
    (hostUp s.dev p →
      (s.dev.leaseHolder = 0 → Makes (.acquire p) s
        (s.dev.setLease { holder := p + 1, expiry := s.dev.now + 4000000000, lastAccepted := s.dev.now }).msixBoth) ∧
      (s.dev.leaseHolder ≠ 0 → Makes (.acquire p) s s.dev) ∧
      (s.dev.leaseHolder = p + 1 → s.dev.host.lease.lastAccepted + 800000000 ≤ s.dev.now →
        Makes (.renew p) s (s.dev.setLease { s.dev.host.lease with expiry := s.dev.now + 4000000000, lastAccepted := s.dev.now })) ∧
      (s.dev.leaseHolder = p + 1 → s.dev.now < s.dev.host.lease.lastAccepted + 800000000 → Makes (.renew p) s s.dev) ∧
      (s.dev.leaseHolder ≠ p + 1 → Makes (.renew p) s s.dev ∧ Makes (.release p) s s.dev) ∧
      (s.dev.leaseHolder = p + 1 → Makes (.release p) s
        (s.dev.setLease { holder := 0, expiry := 0, lastAccepted := s.dev.host.lease.lastAccepted }).msixBoth)) ∧
    (s.dev.host.lease.holder ≠ 0 → Makes .leaseExpiry s
      ((s.dev.till s.dev.host.lease.expiry).setLease
        { holder := 0, expiry := 0, lastAccepted := s.dev.host.lease.lastAccepted }).msixBoth) ∧
    (s.dev.host.lease.holder = 0 → Makes .leaseExpiry s s.dev)

/-- R65 to R67: NEGOTIATE accepts the wanted features that are offered and not withheld, if feature 0 is among them (status
1); without it nothing is accepted (status 2); while a ring of the port is in use nothing changes (status 3). Vector 0 of the
port tells. The accepted set is exactly of those features. -/
def Sys2Proof.Says.Negotiation : Prop :=
  (∀ (s : State) (p : Nat), hostUp s.dev p →
    let acc := s.dev.acceptSet s.fuse (s.dev.port p).atsEnabled (s.dev.reg (0x80020 + p * 0x2000000)) hostFeatures
    let used := s.dev.host.rings.any fun r => r.2.state != 0 && s.dev.ringOwner r.1 == portNode p
    (used = true → Makes (.negotiate p) s ((s.dev.setPort p fun x => { x with negStatus := 3 }).msix p 0)) ∧
    (used = false → bit acc 0 = true →
      Makes (.negotiate p) s ((s.dev.setPort p fun x => { x with negStatus := 1, accepted := acc }).msix p 0)) ∧
    (used = false → bit acc 0 = false →
      Makes (.negotiate p) s ((s.dev.setPort p fun x => { x with negStatus := 2, accepted := 0 }).msix p 0))) ∧
  (∀ (d : Dev) (f : Fuses) (ats : Bool) (wanted offered b : Nat),
    bit (d.acceptSet f ats wanted offered) b = (decide (b < 20) && bit wanted b && bit offered b && !d.withheld f ats b))

/-- R64 to R68: the administration lease and the negotiation of features. -/
def Obligations.LeaseAndNegotiation : Prop :=
  Says.AdministrationLease ∧ Says.Negotiation

/-- R68 to R72: what a port owns of the rings follows RING_PART once no ring changes hands while in use; an owner's ENABLE of a
disabled ring that passes Table 3.12 makes it ACTIVE and empty, one that fails makes it FAULT with the check's code; DISABLE of
an active submission or completion ring drains it, and disables an active event ring at once, its waiting entries dropped; a submission or
event ring in FAULT is DISABLED by it; a drained ring is DISABLED. ENABLE and DISABLE by a port of a ring it does not own are refused and
counted. -/
def Sys2Proof.Says.RingsGoOnAndOff : Prop :=
  ∀ (s : State) (n : Nat),
    (∀ n0 n1, bits (s.dev.reg 0x80090) 0 10 = n0 → bits (s.dev.reg 0x80090) 16 10 = n1 →
      (∀ r ∈ s.dev.host.rings, r.2.state = 0) → s.dev.host.sessions = [] → s.dev.host.ending = [] →
      Makes .ringPartApply s { s.dev with host := { s.dev.host with up0Count := n0, up1Count := n1 } }) ∧
    (∀ p, hostUp s.dev p → n < 1024 → s.dev.ringOwner n = portNode p →
      (∀ code, (s.dev.ring n).state = 0 → s.dev.ringCheck n = code → 0 < code →
        Makes (.ringEnable (portNode p) n) s ((s.dev.setRing n fun r => { r with enable := true }).ringFault n code) ∧
        (((s.dev.setRing n fun r => { r with enable := true }).ringFault n code).ring n).state = 3 ∧
        (((s.dev.setRing n fun r => { r with enable := true }).ringFault n code).ring n).fault = code) ∧
      ((s.dev.ring n).state = 0 → s.dev.ringCheck n = 0 → (s.dev.ring n).held = [] →
        Makes (.ringEnable (portNode p) n) s (s.dev.setRing n fun r => { r with
          enable := true, state := 1, fault := 0, prod := 0, cons := 0, unsignalled := 0, notifyAt := none, ranges := [],
          samples := false, dropped := false })) ∧
      ((s.dev.ring n).state = 1 → (s.dev.ring n).kind ≠ 2 →
        Makes (.ringDisable (portNode p) n) s (s.dev.setRing n fun r => { r with enable := false, state := 2 })) ∧
      ((s.dev.ring n).state = 1 → (s.dev.ring n).kind = 2 →
        Makes (.ringDisable (portNode p) n) s (s.dev.setRing n fun r => { r with enable := false, state := 0, held := [] })) ∧
      ((s.dev.ring n).state = 3 → (s.dev.ring n).kind ≠ 1 →
        Makes (.ringDisable (portNode p) n) s (s.dev.setRing n fun r => { r with enable := false, state := 0, fault := 0 }))) ∧
    (∀ p, hostUp s.dev p → s.dev.ringOwner n ≠ portNode p →
      Makes (.ringEnable (portNode p) n) s s.dev.badAccess ∧ Makes (.ringDisable (portNode p) n) s s.dev.badAccess) ∧
    (s.dev.drained n = true → Makes (.ringDrainDone n) s
      ((s.dev.setRing n fun r => { r with state := 0, fault := 0, waiting := none, waitAborted := false, owed := [],
                                          cons := if r.kind = 0 then r.prod else r.cons }).reapSessions))

/-- R73, R74: a write of four bytes at the start of page n of BAR2 is the doorbell of ring n. Its owner's moves PROD of an active
submission ring on to the value rung where that many slots are free, and no farther than they are, and CONS of an active completion or
event ring no farther than its records; a value more than 2^31 ahead is counted and dropped; another's doorbell is counted; every other
write of BAR2 is ignored. -/
def Sys2Proof.Says.DoorbellsPublish : Prop :=
  ∀ (s : State) (p n v : Nat), hostUp s.dev p → v < 2 ^ 32 →
    let r := s.dev.ring n
    let ahead := (v + 2 ^ 32 - r.prod) % 2 ^ 32
    let taken := (v + 2 ^ 32 - r.cons) % 2 ^ 32
    let rung := Instr.doorbell (portNode p) (n * 0x1000) 4 v
    (s.dev.ringOwner n = portNode p → r.state = 1 → r.kind = 0 → r.prod < 2 ^ 32 → 0 < ahead → ahead ≤ r.slots - r.used → ahead ≤ 2 ^ 31 →
      Makes rung s (s.dev.setRing n fun r => { r with prod := v })) ∧
    (s.dev.ringOwner n = portNode p → r.state = 1 → r.kind = 0 → r.slots - r.used < ahead → ahead ≤ 2 ^ 31 →
      Makes rung s
        ((s.dev.clamped 2 0).setRing n fun x => { x with prod := (r.prod + (r.slots - r.used)) % 2 ^ 32 })) ∧
    (s.dev.ringOwner n = portNode p → r.state = 1 → r.kind ≠ 0 → r.cons < 2 ^ 32 → 0 < taken → taken ≤ r.used → taken ≤ 2 ^ 31 →
      Makes rung s (s.dev.setRing n fun r => { r with cons := v })) ∧
    (s.dev.ringOwner n = portNode p → r.state = 1 → 2 ^ 31 < (v + 2 ^ 32 - if r.kind = 0 then r.prod else r.cons) % 2 ^ 32 →
      Makes rung s (s.dev.bump 0x800A0 0)) ∧
    (s.dev.ringOwner n = portNode p → r.state ≠ 1 → Makes rung s s.dev) ∧
    (s.dev.ringOwner n ≠ portNode p → Makes rung s (s.dev.bump 0x800A0 0)) ∧
    (∀ off size, size ≠ 4 ∨ off % 0x1000 ≠ 0 → Makes (.doorbell (portNode p) off size v) s s.dev)

/-- R69 to R75: rings are enabled, disabled and drained, and a doorbell publishes descriptors. -/
def Obligations.RingsAndDoorbells : Prop :=
  Says.RingsGoOnAndOff ∧ Says.DoorbellsPublish

/-- R76, R78, R80: the next descriptor of an active ring is read, a host's from its memory and a client's from the pool, and started once a
slot of its record ring is free, with FENCE once those before it have completed, an opcode that names nothing as NOP with its clamp
counted; one whose CPL_RING cannot take its record ends DENIED 0x10; one that cannot be read puts the ring into FAULT 4. -/
def Sys2Proof.Says.DescriptorsAreFetchedAndStarted : Prop :=
  ∀ (s : State) (n : Nat), s.dev.serves n = true →
    let r := s.dev.ring n
    r.kind = 0 → r.state = 1 → s.dev.jobs.abortWaits = [] →
    (∀ (b : List Byte), (nodePort (s.dev.ringOwner n)).isSome = true → b.length = 64 → r.waiting = none → 0 < r.used → dOpcode b ≠ 0x21 →
      Makes (.descriptorFetch n (some b)) s
        (s.dev.setRing n fun x => { x with waiting := some (r.cons, b), cons := (r.cons + 1) % 2 ^ 32 })) ∧
    (∀ (h : Option (List Byte)) b d, nodePort (s.dev.ringOwner n) = none → r.waiting = none → 0 < r.used →
      s.dev.readRun (some (s.dev.ringOwner n)) (r.base + r.cons % r.slots * 64) 64 = (.ok b, d) →
      Makes (.descriptorFetch n h) s (d.fetched n b)) ∧
    ((nodePort (s.dev.ringOwner n)).isSome = true → r.waiting = none → 0 < r.used →
      ∃ d, Makes (.descriptorFetch n none) s d ∧ (d.ring n).fault = 4 ∧ (d.ring n).state = 3 ∧ (d.ring n).cons = r.prod) ∧
    (∀ i b, r.waiting = some (i, b) → r.waitAborted = false → dFence b = false ∨ r.started = [] →
      s.dev.slotFor (s.dev.recordRing n b).1 = true →
      let c := s.dev.recordRing n b
      let x : Started := { idx := i, bytes := b, op := effOpcode b, recRing := c.1 }
      let d0 := if knownOpcode (dOpcode b) = true ∨ dOpcode b = 0 then s.dev else s.dev.clamped 2 0
      let d1 := (d0.setRing n fun y => { y with waiting := none, started := y.started ++ [x] }).reserveSlot c.1
      let d2 : Dev := if x.op = 0x70 ∨ x.op = 0x71 ∨ x.op = 0x74 then { d1 with pm := { d1.pm with queue := d1.pm.queue ++ [(n, i)] } } else d1
      (c.2 = true → Makes (.descriptorStart n) s (d2.completeDesc n i stDenied 0x10 0 0)) ∧
      (c.2 = false → (nodePort (s.dev.ringOwner n)).isSome = true → Makes (.descriptorStart n) s d2) ∧
      (c.2 = false → nodePort (s.dev.ringOwner n) = none → Makes (.descriptorStart n) s
        (d2.repStateEntry 2 (natBytes 2 n ++ natBytes 4 i ++ natBytes 2 (dId b) ++ natBytes 2 c.1 ++ natBytes 1 (effOpcode b))
          (s.dev.ringOwner n) 0))) ∧
    (∀ i b, r.waiting = some (i, b) → r.waitAborted = false → dFence b = true → r.started ≠ [] → Makes (.descriptorStart n) s s.dev) ∧
    (∀ i b, r.waiting = some (i, b) → r.waitAborted = false → s.dev.slotFor (s.dev.recordRing n b).1 = false →
      Makes (.descriptorStart n) s s.dev)

/-- R77, Table 3.15: completing a started descriptor whose record ring is an active, empty-handed completion ring of a host
writes the 32 bytes of its record into slot PROD, with the phase of that turn, and PROD goes on by one; a descriptor completes
once. -/
def Sys2Proof.Says.CompletionRecords : Prop :=
  ∀ (d : Dev) (ring idx st det result progress p : Nat) (x : Started),
    let c := d.ring x.recRing
    d.mir.unacked = [] → d.startedAt ring idx = some x → x.recRing ≠ ring → d.ringOwner x.recRing = portNode p → p < 2 →
    c.kind = 1 → c.state = 1 → c.held = [] →
    let t := d.completeDesc ring idx st det result progress
    Out.hostWrite p c.tag (c.base + c.prod % c.slots * 32)
      (phased c c.prod (recordBytes (dId x.bytes) ring st x.op det d.now progress result)) ∈ t.out ∧
    (t.ring x.recRing).prod = (c.prod + 1) % 2 ^ 32 ∧ (t.ring x.recRing).reserved = c.reserved - 1 ∧ t.startedAt ring idx = none

/-- R79: at the end of the coalescing time the records not yet signalled are signalled: for a host's ring by its vector, where
it is unmasked; a client's notify write that was answered RETRY is made again at its time, PROD at NOTIFY in the pool, or as a doorbell or
a write of a ring's record where NOTIFY lies in the device window and the ring there is the client's. -/
def Sys2Proof.Says.SignalsAreSent : Prop :=
  ∀ (s : State) (n : Nat),
    let r := s.dev.ring n
    (∀ p, p < 2 → s.dev.ringOwner n = portNode p → (s.dev.port p).msixEnabled = true → nmem (s.dev.port p).unmasked r.vector = true →
      0 < r.unsignalled →
      ∃ d, Makes (.coalesceTimeout n) s d ∧ d.out = .msix p r.vector :: s.dev.out ∧ (d.ring n).unsignalled = 0 ∧
        d.now = (s.dev.till (r.unsigSince + 800 * r.coalUs)).now) ∧
    (r.unsignalled = 0 → Makes (.coalesceTimeout n) s s.dev) ∧
    (r.notifyAt = none → Makes (.notifyReissue n) s s.dev) ∧
    (∀ t prod e, r.notifyAt = some (t, prod) → e = (s.dev.till t).setRing n (fun r => { r with notifyAt := none }) →
      (∀ k, r.notify = 0xFFFFF0000000 + k * 0x1000 → k < 1024 → s.dev.ringOwner k = s.dev.ringOwner n →
        Makes (.notifyReissue n) s (e.ringDoorbell k prod)) ∧
      (∀ k o, r.notify = 0xFFFFF0400000 + k * 0x40 + o → o < 0x40 → k < 1024 → s.dev.ringOwner k = s.dev.ringOwner n →
        Makes (.notifyReissue n) s (e.ringWrite k o (natBytes 4 prod))) ∧
      (inWindow r.notify = false →
        (∀ x d, e.lineWrite (some (s.dev.ringOwner n)) r.notify (natBytes 4 prod) = (.ok x, d) →
          Makes (.notifyReissue n) s (d.setRing n fun r => { r with notifyAt := none })) ∧
        (∀ h d, e.lineWrite (some (s.dev.ringOwner n)) r.notify (natBytes 4 prod) = (.again h, d) →
          Makes (.notifyReissue n) s (d.setRing n fun r => { r with notifyAt := some (d.now + hintTicks h, prod) }))))

/-- R429: unmasking a vector sends the message that was pending, and pends it no longer. -/
def Sys2Proof.Says.UnmaskingSendsWhatIsPending : Prop :=
  ∀ (s : State) (p v : Nat), p < 2 → s.dev.portServes (portNode p) = true → (s.dev.port p).msixEnabled = true →
    ∃ d, Makes (.msixUnmask p v) s d ∧ nmem (d.port p).unmasked v = true ∧ nmem (d.port p).pendingBits v = false ∧
      d.out = (if nmem (s.dev.port p).pendingBits v then [.msix p v] else []) ++ s.dev.out

/-- R79, R429: a completion signals its owner, and unmasking a vector sends what is pending. -/
def Obligations.SignalsReachTheirOwner : Prop :=
  Says.SignalsAreSent ∧ Says.UnmaskingSendsWhatIsPending

/-- R80: NOP completes DONE. R480: a host's output write, once the host has taken it, ends its operation; a client's that was answered
RETRY goes on from where it stopped at its time, and ends its operation when it is all written. -/
def Sys2Proof.Says.NopsAndOutputs : Prop :=
  ∀ (s : State) (ring idx : Nat),
    (∀ b, s.dev.ready ring idx 0 b → Completes (.nop ring idx) s ring idx (s.dev.begun ring idx) stDone 0 0 0) ∧
    (∀ o e, ring < 1024 → s.dev.host.outputs.find? (fun o => match o.caller with
        | .desc r i => r == ring && i == idx
        | .fab m => m.src + 1024 == ring && m.tag == idx) = some o → o.caller = .desc ring idx →
      e = ({ s.dev with host := { s.dev.host with outputs := s.dev.host.outputs.erase o } } : Dev).till o.next →
      (∀ p, p < 2 → s.dev.ringOwner ring = portNode p → o.posted = true →
        Makes (.outputWriteReissue ring idx) s (e.completeDesc ring idx o.st o.det o.result o.progress)) ∧
      (nodePort (s.dev.ringOwner ring) = none →
        (∀ k x d, e.writeBytes (some (s.dev.ringOwner ring)) (o.addr + o.written) (o.bytes.drop o.written) = (k, .ok x, d) →
          Makes (.outputWriteReissue ring idx) s (d.completeDesc ring idx o.st o.det o.result o.progress)) ∧
        (∀ k h d, e.writeBytes (some (s.dev.ringOwner ring)) (o.addr + o.written) (o.bytes.drop o.written) = (k, .again h, d) →
          Makes (.outputWriteReissue ring idx) s { d with host := { d.host with
            outputs := d.host.outputs ++ [{ o with written := o.written + k, next := d.now + hintTicks h }] } })))

/-! ## Fabric requests (chapter 4) -/

/-- R90, R91, R97, R123: a request that nothing keeps waiting is served, and performed at once where no agent holds a line of it; a
read notes its access to the entries of its lines and answers their bytes, POISONED where one is poisoned, RETRY where one cannot be
loaded yet. A READ of bytes of one line of the pool is such a request; in the device window it is a window access; across a line it is
DENIED 0x21. A READ_BULK is served message by message, its COUNT clamped and the clamp counted, and DENIED
0x20, 0x22 or 0x24. ECHO answers its payload. A reserved opcode is UNSUPPORTED with DETAIL 0xFFFF, and so is a snoop with a reserved
code. -/
def Obligations.FabricReads : Prop :=
  (∀ (d : Dev) (m : Msg), m.tag < 8192 → goesOn d m → d.accept m false = d.serve m) ∧
  (∀ (d : Dev) (m : Msg), unkept d m → m.opcode ∉ [0x10, 0x11, 0x12, 0x15] → d.serve m = (d.dedupOpen m).perform m []) ∧
  (∀ (d : Dev) (m : Msg) (snap : Tbl (List Byte)), isRead m.opcode = true → m.tag < 8192 →
    let e := forEach (reqLines m) (fun l d => d.touch l) (d.countReq m)
    (∀ b e', e.gather snap (reqLines m) = (.bytes b, e') →
      d.perform m snap = e'.reply e'.mir.unacked.length m stDone 0 0 (some (slice b ((reqSpan m).1 % 64) (reqSpan m).2))) ∧
    (∀ e', e.gather snap (reqLines m) = (.poisoned, e') → d.perform m snap = e'.refuse m stPoisoned 0) ∧
    (∀ e', e.gather snap (reqLines m) = (.wait, e') → d.perform m snap = e'.retry m)) ∧
  (∀ (s : State) (m : Msg),
    let d := s.dev.taken m
    takes s.dev m →
    (m.opcode = 1 → crosses m = true → Makes (.read m) s (d.refuse m stDenied 0x21)) ∧
    (m.opcode = 1 → crosses m = false → inWindow m.addr = true → Makes (.read m) s (d.windowServe m)) ∧
    (m.opcode = 1 → crosses m = false → inWindow m.addr = false → goesOn d m → Makes (.read m) s (d.serve m)) ∧
    (m.opcode = 2 → m.addr % 64 ≠ 0 → Makes (.readBulk m) s (d.refuse m stDenied 0x20)) ∧
    (m.opcode = 2 → m.addr % 64 = 0 → m.len ≠ 3 → Makes (.readBulk m) s (d.refuse m stDenied 0x22)) ∧
    (∀ n e, m.opcode = 2 → m.addr % 64 = 0 → m.len = 3 → n = clampGrain 64 64 262144 (field m.data 0 4) →
      e = (if n = field m.data 0 4 then d else d.clamped 4 0) →
      (0xFFFFF0000000 < m.addr + n → Makes (.readBulk m) s (e.refuse m stDenied 0x24)) ∧
      (m.addr + n ≤ 0xFFFFF0000000 →
        Makes (.readBulk m) s (forEach (List.range ((n + 255) / 256)) (fun i d => d.accept (bulkPart m n i) false) e))) ∧
    (m.opcode = 0xF0 → Makes (.echo m) s (d.finishData d.mir.unacked.length m 0 m.data))) ∧
  (∀ (s : State) (m : Msg), m.cls = 0 → s.dev.forUs m = true → s.dev.pm.state = 1 → s.dev.gate m = none →
    knownRequest m.opcode = false → Makes (.reservedOpcode m) s ((s.dev.taken m).turnAway m stUnsupported 0xFFFF 0)) ∧
  (∀ (s : State) (m : Msg), m.cls = 1 → m.dst = s.dev.ownNode → m.opcode = 0 ∨ 6 ≤ m.opcode →
    Makes (.reservedOpcode m) s ((s.dev.taken m).sendMsg { s.dev.rspTo m stUnsupported 0xFFFF 0 with last := true }))

/-- R91, R98, R309: a WRITE of bytes of one line of the pool, or a message of a WRITE_BULK, that nothing keeps waiting is served; a
WRITE in the device window is a window access, DENIED 0x21 across a line; a message of a WRITE_BULK counts
for its transfer as it arrives, RETRY where no record is free for one, DENIED 0x20, 0x22 or 0x24. A write stores its bytes, sends the
partner its records and is answered, a message of a WRITE_BULK through its transfer: it is answered once every index has come and none
is still served, DONE or with the failure first in address order. A transfer that lacks an index XFER_HOLD_US after its last message
ends with TIMEOUT and the first index missing. -/
def Sys2Proof.Says.FabricWrites : Prop :=
  (∀ (s : State) (m m0 : Msg),
    let d := s.dev.taken m
    takes s.dev m → m.opcode = 3 → unmasked m0 = m →
    (crosses m = true → Makes (.write m0) s (d.refuse m stDenied 0x21)) ∧
    (crosses m = false → inWindow m.addr = true → Makes (.write m0) s (d.windowServe m)) ∧
    (crosses m = false → inWindow m.addr = false → goesOn d m → Makes (.write m0) s (d.serve m))) ∧
  (∀ (s : State) (m : Msg),
    let d := (s.dev.taken m).xferArrives m
    let room := (tget s.dev.fab.xfers (xferKey m)).isSome = true ∨ s.dev.fab.xfers.length < 16384
    takes s.dev m → m.opcode = 4 →
    (¬ room → ∃ hint, Makes (.writeBulk m) s ((s.dev.taken m).refuse m stRetry hint)) ∧
    (room → m.addr % 64 ≠ 0 → Makes (.writeBulk m) s (d.deny m 0x20)) ∧
    (room → m.addr % 64 = 0 → (m.len + 1) % 64 ≠ 0 ∨ m.last = false ∧ m.len ≠ 255 → Makes (.writeBulk m) s (d.deny m 0x22)) ∧
    (room → m.addr % 64 = 0 → (m.len + 1) % 64 = 0 → m.last = true ∨ m.len = 255 →
      (spanBad m = true → Makes (.writeBulk m) s (d.deny m 0x24)) ∧
      (spanBad m = false → goesOn d m → Makes (.writeBulk m) s (d.serve m)))) ∧
  (∀ (d : Dev) (m : Msg), unkept d m → m.tag < 4096 → m.opcode = 3 ∨ m.opcode = 4 →
    let e := d.countReq m
    let n := e.mir.unacked.length
    let bs := slice m.data 0 (m.len + 1)
    (∀ e', e.scatter m.addr bs 17 = (.done, e') → d.serve m = (e'.repWriteRun m.addr bs m.src m.tag).conclude n m stDone 0 0 none) ∧
    (∀ e', e.scatter m.addr bs 17 = (.poisoned, e') → d.serve m = e'.conclude n m stPoisoned 0 0 none) ∧
    (∀ e', e.scatter m.addr bs 17 = (.wait, e') → d.serve m = e'.retry m)) ∧
  (∀ (d : Dev) (n : Nat) (m : Msg) (st det res : Nat) (b : Option (List Byte)), m.tag < 4096 →
    (m.opcode = 4 → d.conclude n m st det res b = d.xferNote n m st) ∧ (m.opcode ≠ 4 → d.conclude n m st det res b = d.reply n m st det res b)) ∧
  (∀ (d : Dev) (n : Nat) (m : Msg) (st : Nat) (x x' : Xfer), tget d.fab.xfers (xferKey m) = some x →
    x' = { x with received := nadd x.received m.xfer, serving := x.serving.erase m.xfer,
                  failures := if st = stDone then x.failures else x.failures ++ [(m.addr, m.xfer, st)] } →
    let gone := { d with fab := { d.fab with xfers := tdel d.fab.xfers (xferKey m) } }
    let whole := ∃ l, x'.last = some l ∧ x'.serving = [] ∧ ∀ i ≤ l, i ∈ x'.received
    (whole → x'.failures = [] → d.xferNote n m st = gone.reply n { m with xfer := 0 } stDone 0 0 none) ∧
    (∀ f, whole → firstFailure x'.failures = some f → d.xferNote n m st = gone.reply n { m with xfer := 0 } f.2.2 f.2.1 0 none) ∧
    (¬ whole → d.xferNote n m st = { d with fab := { d.fab with xfers := tput d.fab.xfers (xferKey m) x' } })) ∧
  (∀ (l : List (Nat × Nat × Nat)) (f : Nat × Nat × Nat), firstFailure l = some f → f ∈ l ∧ ∀ g ∈ l, f.1 ≤ g.1) ∧
  (∀ (s : State) (src tag : Nat) (x : Xfer) (d : Dev), tget s.dev.fab.xfers (src * 4096 + tag) = some x → x.arrived = false →
    d = s.dev.till (x.time + usTicks (s.dev.fld 0x180104 24 8)) →
    Makes (.xferHoldTimeout src tag) s
      ({ d with fab := { d.fab with xfers := tdel d.fab.xfers (src * 4096 + tag) } }.reply d.mir.unacked.length
        { x.first with xfer := 0 } stTimeout x.missing 0 none))

/-- R93: an atomic on aligned bytes of the pool that nothing keeps waiting is served; where no agent holds its line it answers the old
value and stores the new one: the sum, the AND, the OR, the exclusive OR, the operand, the second operand where the old value is the
first, the greater, or the FP32 sum. A LEN that is no operand is DENIED 0x22, an ADDR not aligned to it 0x20, one past the pool's end
0x24; a poisoned line answers POISONED, one that cannot be loaded yet RETRY. -/
def Sys2Proof.Says.Atomics : Prop :=
  (∀ (s : State) (m : Msg) (i : Instr),
    (i, m.opcode) ∈ [(Instr.fetchAdd m, 0x08), (.fetchAnd m, 0x09), (.fetchOr m, 0x0A), (.fetchXor m, 0x0B), (.swap m, 0x0C),
      (.cas m, 0x0D), (.fetchUmax m, 0x0E), (.fadd32 m, 0x0F)] →
    let d := s.dev.taken m
    takes s.dev m →
    (atomicLenOk m = false → Makes i s (d.refuse m stDenied 0x22)) ∧
    (atomicLenOk m = true → m.addr % atomicSize m ≠ 0 → Makes i s (d.refuse m stDenied 0x20)) ∧
    (atomicLenOk m = true → m.addr % atomicSize m = 0 → spanBad m = true → Makes i s (d.refuse m stDenied 0x24)) ∧
    (atomicLenOk m = true → m.addr % atomicSize m = 0 → spanBad m = false → goesOn d m → Makes i s (d.serve m)) ∧
    (atomicLenOk m = true → m.addr % atomicSize m = 0 → spanBad m = false → unkept d m →
      Makes i s (((d.dedupOpen m).countReq m).doAtomic m))) ∧
  (∀ (d : Dev) (m : Msg), isAtomic m.opcode = true →
    let n := atomicSize m
    (∀ b d1, d.loadLine (m.addr / 64) = (.bytes b, d1) →
      let old := field b (m.addr % 64) n
      let new := natBytes n (atomicNew m.opcode n old m.data)
      (∀ d2, d1.storeLine m.addr new = (.done, d2) →
        d.doAtomic m = (d2.repAtomicLine m.addr (overlay b (m.addr % 64) new) (dedupTail m stDone 0 old) m.src m.tag).reply
          d.mir.unacked.length m stDone 0 0 (some (natBytes n old))) ∧
      (∀ d2, d1.storeLine m.addr new = (.poisoned, d2) → d.doAtomic m = d2.reply d.mir.unacked.length m stPoisoned 0 0 none) ∧
      (∀ d2, d1.storeLine m.addr new = (.wait, d2) → d.doAtomic m = d2.retry m)) ∧
    (∀ d1, d.loadLine (m.addr / 64) = (.poisoned, d1) → d.doAtomic m = d1.reply d.mir.unacked.length m stPoisoned 0 0 none) ∧
    (∀ d1, d.loadLine (m.addr / 64) = (.wait, d1) → d.doAtomic m = d1.retry m)) ∧
  (∀ (n old : Nat) (data : List Byte),
    let x := field data 0 n
    atomicNew 0x08 n old data = (old + x) % 2 ^ (8 * n) ∧ atomicNew 0x09 n old data = Nat.land old x ∧
    atomicNew 0x0A n old data = Nat.lor old x ∧ atomicNew 0x0B n old data = Nat.xor old x ∧ atomicNew 0x0C n old data = x ∧
    atomicNew 0x0D n old data = (if old = x then field data n n else old) ∧ atomicNew 0x0E n old data = max old x ∧
    atomicNew 0x0F n old data = (fadd (BitVec.ofNat 32 old) (BitVec.ofNat 32 x)).toNat)

/-- R92 to R94, R97, R98: writes within a line and in bulk, and the atomics on their operand. -/
def Obligations.FabricWritesAndAtomics : Prop :=
  Says.FabricWrites ∧ Says.Atomics

/-- R101, R104: a request that a dedup record answers gets the answer that was given, in its own class, and changes nothing else; one
whose operation is in progress is answered RETRY; a record of another request goes, and the request is served. The record goes at the
end of its hold. An ordered request that comes while an earlier one's return is awaited is answered RETRY, behind requests still held it
is held, and otherwise it is served; the first request held is served once the requests before it are, or answered RETRY where the one
before it has to come back. -/
def Obligations.DedupAndOrder : Prop :=
  (∀ (d : Dev) (m : Msg) (r : DedupRec) (body : Dev → Dev), m.tag < 4096 → dedupCovers m = true →
    tget d.fab.dedup (dedupKey (dedupHome m) m.src m.tag) = some r →
    (∀ a, r.matchesMsg m = true → r.answer = some a → d.mir.unacked = [] → r.rep = [] →
      d.deduped m body =
        ((d.bump 0x180108 0).countAnswer m.src a.opcode).sendMsg { a with dst := m.src, src := d.answerSrc m, tc := m.tc }) ∧
    (r.matchesMsg m = true → r.answer = none → d.deduped m body = d.hint.2.turnAway m stRetry d.hint.1 0) ∧
    (r.matchesMsg m = false →
      d.deduped m body = body { d with fab := { d.fab with dedup := tdel d.fab.dedup (dedupKey (dedupHome m) m.src m.tag) } })) ∧
  (∀ (s : State) (home src tag : Nat) (r : DedupRec) (d : Dev), tget s.dev.fab.dedup (dedupKey home src tag) = some r →
    r.answer.isSome = true → d = s.dev.till r.expiry →
    Makes (.dedupHoldExpiry home src tag) s { d with fab := { d.fab with dedup := tdel d.fab.dedup (dedupKey home src tag) } }) ∧
  (∀ (d : Dev) (m : Msg) (o : Ordered) (body : Dev → Dev), orderedMsg m = true → o = tgetD d.fab.ordered (ordKey m) {} →
    (d.pool.parked.any fun p => orderedMsg p.2 && ordKey p.2 == ordKey m) = false →
    (∀ t h, o.retried = some (t, h) → m.tag ≠ t → d.ordered m body = d.turnAway m stRetry 0 0) ∧
    (o.retried = none → o.held ≠ [] → o.held.length < 256 →
      tget (d.ordered m body).fab.ordered (ordKey m) = some { held := o.held ++ [m], retried := none, before := 0 }) ∧
    (o.retried = none → o.held = [] → d.ordered m body = body d) ∧
    (∀ h, o.retried = some (m.tag, h) → o.before = 0 →
      d.ordered m body = body (d.setStream m fun o => { o with retried := none, before := 0 }))) ∧
  (∀ (s : State) (src tc : Nat) (m : Msg) (o : Ordered) (rest : List Msg) (d : Dev),
    tget s.dev.fab.ordered (src * 8 + tc) = some o → o.held = m :: rest →
    (s.dev.pool.parked.any fun p => orderedMsg p.2 && ordKey p.2 == src * 8 + tc) = false →
    d = { s.dev with fab := { s.dev.fab with ordered := tput s.dev.fab.ordered (src * 8 + tc) { o with held := rest, before := o.before - 1 } } } →
    (o.retried = none ∨ o.before ≠ 0 → Makes (.orderedAdmission src tc) s (d.deduped m fun d => d.orderedBody m)) ∧
    (o.retried ≠ none → o.before = 0 → Makes (.orderedAdmission src tc) s (d.turnAway m stRetry 0 0)))

/-! ## Coherence (chapter 5) -/

/-- R115, R116, R117, R129, R132, Table 5.6: a coherent request with its LEN and in the pool, that nothing keeps waiting, is served.
RD_SHARED of a line nobody holds grants E, or S in a snapshot view, and records the requester; RD_OWN and UPGRADE grant M, UPGRADE
without data where the requester is the one sharer; in a private range all three grant nothing and record nobody; a poisoned line is
cached by nobody. The owner of a line that another asks for is snooped first: SNP_SHARE for RD_SHARED, SNP_INV for the others.
STASH_WRITE stores its line, answers DONE and offers it to its target. -/
def Obligations.CoherentRequests : Prop :=
  (∀ (s : State) (m : Msg) (i : Instr),
    (i, m.opcode) ∈ [(Instr.rdShared m, 0x10), (.rdOwn m, 0x11), (.upgrade m, 0x12), (.stashWrite m, 0x15)] →
    let d := s.dev.taken m
    takes s.dev m →
    (m.len ≠ coherentLen m.opcode → Makes i s (d.refuse m stDenied 0x22)) ∧
    (m.len = coherentLen m.opcode → spanBad m = true → Makes i s (d.refuse m stDenied 0x24)) ∧
    (m.len = coherentLen m.opcode → spanBad m = false → goesOn d m → Makes i s (d.serve m))) ∧
  (∀ (d d1 : Dev) (m : Msg),
    let line := m.addr / 64
    let c := d1.countReq m
    unkept d m → m.tag < 4096 → m.opcode ∈ [0x10, 0x11, 0x12] → (d.freeWay line).isSome = true → d.cacheTouch line = some d1 →
    (∀ b d2, c.loadLine line = (.bytes b, d2) →
      let done := fun (e : Dev) (grant : Nat) => (e.repDir line).reply d2.mir.unacked.length m stDone 0 grant (some (slice b 0 64))
      (d.isPrivate line = true → d.serve m = done d2 0) ∧
      (d.isPrivate line = false → m.opcode = 0x10 → (c.emtOf (line / 2 ^ 19)).kind ≠ 4 →
        d.serve m = done (d2.dirNew line { state := 3, ptrs := [m.src], grant := 2 }) 2) ∧
      (d.isPrivate line = false → m.opcode = 0x10 → (c.emtOf (line / 2 ^ 19)).kind = 4 →
        d.serve m = done (d2.dirNew line { state := 1, ptrs := [m.src] }) 1) ∧
      (d.isPrivate line = false → m.opcode ≠ 0x10 →
        d.serve m = done (d2.dirNew line { state := 3, ptrs := [m.src], grant := 3 }) 3)) ∧
    (∀ d2, c.loadLine line = (.poisoned, d2) → d.serve m = d2.refuse m stPoisoned 0) ∧
    (∀ d2, c.loadLine line = (.wait, d2) → d.serve m = d2.retry m)) ∧
  (∀ (d d1 : Dev) (m : Msg) (x : DirEntry),
    let line := m.addr / 64
    let c := d1.countReq m
    goesOn d m → m.tag < 4096 → d.dirOf line = some x → d.cacheTouch line = some d1 →
    (m.opcode = 0x12 → d.isPrivate line = false → x.state = 1 → x.ptrs = [m.src] →
      d.serve m = (((c.dirPut line { x with state := 3, grant := 3 }).touch line).repDir line).reply c.mir.unacked.length m stDone 0 3 none) ∧
    (∀ o op, x.state = 3 → x.ptrs = [o] → o ≠ m.src → (m.opcode, op) ∈ [(0x10, 2), (0x11, 1), (0x12, 1)] →
      d.serve m = d1.openTxn line (.serve m) [o] op (some o))) ∧
  (∀ (d d1 d' : Dev) (m : Msg),
    let line := m.addr / 64
    let c := d1.countReq m
    let b := slice m.data 0 64
    unkept d m → m.tag < 4096 → m.opcode = 0x15 → d.cacheTouch line = some d1 → c.scatter (line * 64) b 17 = (.done, d') →
    d.serve m = ((d'.repWriteRun (line * 64) b m.src m.tag).reply c.mir.unacked.length m stDone 0 0 none).offerStash line
      (stashTarget m) m.data)

/-- R111, R115, R118, R123: the recorded owner's WB_DIRTY writes the line to memory and frees its entry, or, where snoops of the line are
out, leaves it with no owner; anyone else's is answered DONE and writes nothing. An EVICT that nothing keeps waiting takes the
requester out of the line's entry, which is free when nobody is left, and leaves memory as it is; one whose checks fail is DENIED or
REVOKED. -/
def Sys2Proof.Says.WritebacksAndEvictions : Prop :=
  (∀ (s : State) (m : Msg),
    let d := s.dev.taken m
    let line := m.addr / 64
    let c := if (d.emtOf (line / 2 ^ 19)).kind = 2 then d.countSkein (line / 1024) else d
    takes s.dev m → m.opcode = 0x13 →
    (m.len ≠ 63 → Makes (.wbDirty m) s (d.refuse m stDenied 0x22)) ∧
    (m.len = 63 → spanBad m = true → Makes (.wbDirty m) s (d.refuse m stDenied 0x24)) ∧
    (m.len = 63 → spanBad m = false → (∀ x, d.dirOf line = some x → x.state ≠ 3 ∨ x.ptrs ≠ [m.src]) ∨ d.looseCheck m ≠ none →
      Makes (.wbDirty m) s ((d.kindNote m.src m.addr m.addr).finish d.mir.unacked.length m stDone)) ∧
    (∀ x e, m.len = 63 → spanBad m = false → d.looseCheck m = none → d.dirOf line = some x → x.state = 3 → x.ptrs = [m.src] →
      (d.emtOf (line / 2 ^ 19)).kind ≠ 3 ∨ (d.emtOf (line / 2 ^ 19)).mod = true →
      e = (c.writeBack line (slice m.data 0 64)).reqCount m.src 2 64 →
      (tget e.coh.txns line = none → Makes (.wbDirty m) s (((e.dirDel line).repDir line).finish d.mir.unacked.length m stDone)) ∧
      (∀ t y, tget e.coh.txns line = some t → e.dirOf line = some y →
        Makes (.wbDirty m) s ((({ e with coh := { e.coh with txns := tput e.coh.txns line ({ t with data := some (slice m.data 0 64), owner := none }) } } : Dev).dirPut line { y with ptrs := [] }).finish
            d.mir.unacked.length m stDone)))) ∧
  (∀ (s : State) (m : Msg),
    let d := s.dev.taken m
    let line := m.addr / 64
    takes s.dev m → m.opcode = 0x14 →
    (m.len ≠ 63 → Makes (.evict m) s (d.refuse m stDenied 0x22)) ∧
    (m.len = 63 → spanBad m = true → Makes (.evict m) s (d.refuse m stDenied 0x24)) ∧
    (∀ st det, m.len = 63 → spanBad m = false → d.looseCheck m = some (st, det) →
      Makes (.evict m) s (((d.kindNote m.src m.addr m.addr).endReservation m).refuse m st det)) ∧
    (∀ k d1, m.len = 63 → spanBad m = false → d.looseCheck m = none → d.setBad line = false → starving m = false →
      d.barred (line / 2 ^ 19) = false → d.heldUp false line = false → d.locate m.addr false = .ok k → d.cacheEntry line = some d1 →
      Makes (.evict m) s
        (((if (d1.emtOf (line / 2 ^ 19)).kind = 2 then d1.countSkein (line / 1024) else d1).endReservation m).evictServe m))) ∧
  (∀ (d : Dev) (m : Msg),
    let line := m.addr / 64
    let n := d.mir.unacked.length
    (d.dirOf line = none → d.evictServe m = d.finish n m stDone) ∧
    (∀ x, d.dirOf line = some x → x.state = 2 ∨ m.src ∉ x.ptrs → d.evictServe m = (d.touch line).finish n m stDone) ∧
    (∀ x rest, d.dirOf line = some x → x.state ≠ 2 → m.src ∈ x.ptrs → rest = x.ptrs.filter (· != m.src) →
      (rest = [] → d.evictServe m = ((d.dirDel line).repDir line).finish n m stDone) ∧
      (rest ≠ [] → d.evictServe m = (((d.dirPut line { x with ptrs := rest }).touch line).repDir line).finish n m stDone)) ∧
    ((d.dirDel line).mem = d.mem ∧ ∀ x, ((d.dirPut line x).touch line).mem = d.mem))

/-- R100, R102, R103, R119, R120, R128, R130: a snoop's answer is noted for its line with the data it brings; answered RETRY it goes
again after the hint; another status is no answer, and one the device cannot have is DEVICE_ERROR, reported and counted. An eviction
whose last answer brings the dirty line writes it to memory and frees the entry. A snoop or a recall without answer in its time is sent
again, or its node is taken to hold no copy. The reservation passes on when its holder does not come back in time. A dirty line of
a recall is written to memory, and its node is done with the last of its messages. A snoop that reaches the device is answered DONE,
with no copy held. -/
def Sys2Proof.Says.SnoopsAndRecalls : Prop :=
  (∀ (s : State) (link : Nat) (m : Msg) (k : Nat) (r : DevReq), s.dev.matchReq m.src m.tag = some (k, r) → m.cls = 2 ∨ m.cls = 3 →
    let bad := { m with cls := 2, opcode := stDeviceError }
    (r.purpose = 3 → badResponse m r = false → Makes (.snoopAnswer link m) s (s.dev.snoopAnswered m k r)) ∧
    (r.purpose = 3 → badResponse m r = true → Makes (.snoopAnswer link m) s ((s.dev.responseMalformed link m).snoopAnswered bad k r)) ∧
    (r.purpose = 6 → badResponse m r = false → Makes (.recallTransfer link m) s (s.dev.recallMsg m k r)) ∧
    (r.purpose = 6 → badResponse m r = true → Makes (.recallTransfer link m) s ((s.dev.responseMalformed link m).recallMsg bad k r))) ∧
  (∀ (d : Dev) (m : Msg) (k : Nat) (r : DevReq),
    (m.cls = 3 → m.opcode = stDone → d.snoopAnswered m k r = d.noteAnswer r.index k m.src (some (slice m.data 0 64)) false) ∧
    (m.cls = 2 → m.opcode = stDone → d.snoopAnswered m k r = d.noteAnswer r.index k m.src none (bit (msgResult m) 1)) ∧
    (m.opcode = stRetry → d.snoopAnswered m k r = d.reqAgain k r (msgDetail m)) ∧
    (m.opcode ∉ [stDone, stRetry, stFenced] → d.snoopAnswered m k r = d.snoopLost r.index k m.src)) ∧
  (∀ (d : Dev) (line key node : Nat) (t : Txn) (x : List Byte), tget d.coh.txns line = some t → t.kind = .evict → key < 2 ^ 24 →
    t.waits = [(node, key % 4096)] → t.mcTag = none → t.data = none → d.fab.waitReqs = [] →
    ∃ t', d.noteAnswer line key node (some x) false =
      ((((({ d with coh := { d.coh with txns := tput d.coh.txns line t' } } : Dev).endReq key).writeBack line x).dropTxn line).dirDel
        line).afterClose line) ∧
  (∀ (s : State) (key : Nat) (r : DevReq), tget s.dev.fab.devReqs key = some r →
    let d := s.dev.till r.deadline
    (r.purpose = 3 ∨ r.purpose = 6 → d.mayResend r = true → Makes (.snoopTimeout key) s (d.resend key r)) ∧
    (r.purpose = 3 → d.mayResend r = false → r.m.mc = false → Makes (.snoopTimeout key) s (d.snoopLost r.index key r.m.dst)) ∧
    (∀ t e, r.purpose = 3 → d.mayResend r = false → r.m.mc = true → tget s.dev.coh.txns r.index = some t → e = d.bumps 0x180208 0 t.mcLeft →
      Makes (.snoopTimeout key) s
        (({ e with coh := { e.coh with txns := tput e.coh.txns r.index { t with mcLeft := 0 } } }.endReq key).closeTxn r.index)) ∧
    (r.purpose = 6 → d.mayResend r = false → Makes (.snoopTimeout key) s (d.recallLost r.index r.m.dst))) ∧
  (∀ (s : State) (home : Nat), (s.dev.starveOf home).holder.isSome = true → (s.dev.starveOf home).heldReq = none →
    Makes (.reservationTimeout home) s ((s.dev.till (s.dev.starveOf home).deadline).nextHolder home)) ∧
  (∀ (d : Dev) (m : Msg) (k : Nat) (q : DevReq) (r : Recall), tget d.coh.recalls q.index = some r → m.opcode = stDone →
    (∀ f ∈ r.finals, f.1 ≠ m.src) → (m.src, m.xfer) ∉ r.got →
    (m.cls = 3 →
      let e := d.recallMsg m k q
      e.mem = (d.writeBack (field m.data 0 8 / 64 % 2 ^ 42) (slice m.data 8 64)).mem ∧
      tget e.coh.recalls q.index = some { r with got := (m.src, m.xfer) :: r.got }) ∧
    (∀ r', m.cls = 2 → (∀ i < m.xfer, (m.src, i) ∈ r.got) →
      r' = { r with got := (m.src, m.xfer) :: r.got, finals := (m.src, m.xfer) :: r.finals } →
      let e := { d with coh := { d.coh with recalls := tput d.coh.recalls q.index r' } }
      d.recallMsg m k q =
        ({ e with fab := { e.fab with devReqs := tput e.fab.devReqs k { q with deadline := e.reqDeadline } } } : Dev).recallDone
          q.index m.src) ∧
    (m.cls = 2 → (∃ i < m.xfer, (m.src, i) ∉ r.got) → (d.recallMsg m k q).coh.dir = d.coh.dir)) ∧
  (∀ (s : State) (m : Msg) (i : Instr),
    (i, m.opcode) ∈ [(Instr.snpInv m, 1), (.snpShare m, 2), (.snpRead m, 3), (.snpStash m, 4), (.snpRecall m, 5)] →
    m.cls = 1 → m.dst = s.dev.ownNode →
    Makes i s ((s.dev.taken m).sendMsg { (s.dev.taken m).rspTo m stDone 0 0 with last := true }))

/-- Chapter 5: dirty copies come back, snoops are answered or lost, recalls transfer. -/
def Obligations.CopiesAndSnoops : Prop :=
  Says.WritebacksAndEvictions ∧ Says.SnoopsAndRecalls

/-- R121, R130, R332, R348, R354, Tables 5.9 and 5.17: a recall starts once, with its event and a SNP_RECALL of the set to every coherent
node, or one that waits for a tag; the set becomes 16 FREE ways when every node is done, at once where there is none, and memory is left
as it is. A set whose memory fails gets a spare that is good and not in use, while one remains; a line of the
directory that cannot be corrected destroys its set, which is recalled, and one that can be is counted; a stack that fails has
the sets it holds recalled, and so has a set in which a request finds a reserved STATE. The place of a carve-out line is the model's
free value (log entry 53). -/
def Obligations.SetRecalls : Prop :=
  (∀ (d : Dev) (g c : Nat), (tget d.coh.recalls g).isSome = true → d.recallStart g c = d) ∧
  (∀ (d : Dev) (g c : Nat), tget d.coh.recalls g = none →
    (d.recallStart g c).mem = d.mem ∧
    (d.coherentNodes = [] → d.recallStart g c = (d.log (0x0300 + 4 * (g / 43690) + 1) (code := c) (arg0 := g)).wipeSet g) ∧
    (d.coherentNodes ≠ [] → (d.recallStart g c).coh.dir = d.coh.dir ∧
      ∃ r : Recall, tget (d.recallStart g c).coh.recalls g = some r ∧ r.nodes.map (·.1) = d.coherentNodes ∧
        r.got = [] ∧ r.finals = [] ∧ ∀ p ∈ r.nodes, ∃ m : Msg, m.cls = 1 ∧ m.opcode = 5 ∧ m.dst = p.1 ∧
          m.addr = g / 43690 * 65536 + g % 43690 ∧
          (Out.msg m ∈ (d.recallStart g c).out ∧ m.tag = p.2 ∨ (m, 6, g) ∈ (d.recallStart g c).fab.waitReqs))) ∧
  (∀ (d : Dev) (g : Nat),
    (d.wipeSet g).coh.dir = d.coh.dir.filter (fun e => globalSet e.1 != g) ∧ (d.wipeSet g).mem = d.mem) ∧
  (∀ (d e : Dev) (g node : Nat) (r : Recall), tget d.coh.recalls g = some r →
    e = (match tfind d.fab.devReqs fun _ q => q.purpose == 6 && q.index == g && q.m.dst == node with
      | some q => d.endReq q.1
      | none => d) →
    ((∀ p ∈ r.nodes, p.1 = node) →
      d.recallDone g node = (({ e with coh := { e.coh with recalls := tdel e.coh.recalls g } } : Dev).wipeSet g).serveAllHeld) ∧
    ((∃ p ∈ r.nodes, p.1 ≠ node) →
      d.recallDone g node =
        { e with coh := { e.coh with recalls := tput e.coh.recalls g { r with nodes := r.nodes.filter (·.1 != node) } } })) ∧
  (∀ (d : Dev) (g : Nat),
    nmem (d.spareFor g).2.coh.deadSets (d.liveSet g) = true ∧
    ((d.spareFor g).1 = true → ∃ x, (d.spareFor g).2.liveSet g = x ∧ 2097120 ≤ x ∧ x < 2097152 ∧ x ≠ d.liveSet g ∧
      nmem d.coh.deadSets x = false ∧ ∀ e ∈ d.coh.spares, e.2 ≠ x) ∧
    ((d.spareFor g).1 = false → (d.spareFor g).2.coh.spares = d.coh.spares ∧
      ∀ x, 2097120 ≤ x → x < 2097152 → x = d.liveSet g ∨ nmem d.coh.deadSets x = true ∨ ∃ e ∈ d.coh.spares, e.2 = x)) ∧
  (∀ (s : State) (k a live q g : Nat) (err : List Byte), (s.dev.stack k).state = 2 → s.dev.lineAt k a = none →
    s.dev.setLineAt k a = some (live, q) → s.dev.setOfLive live = some g →
    (readWith a (s.dev.setBytes g q) err = none → Makes (.stackReadComplete k a err) s ((s.dev.ueNote k a 0 true).setDestroyed g)) ∧
    (readWith a (s.dev.setBytes g q) err = some (s.dev.setBytes g q, true) →
      Makes (.stackReadComplete k a err) s (s.dev.bump (0x900040 + 8 * k) 16))) ∧
  (∀ (d : Dev) (g : Nat),
    d.setDestroyed g = (d.spareFor g).2.recallStart g (if (d.spareFor g).1 = true then 1 else 2)) ∧
  (∀ (d : Dev) (k c g : Nat), (d.stack k).state = 2 ∨ (d.stack k).state = 3 → g ∈ d.setsHeld k →
    ((d.failStack k c).stack k).state = 4 ∧
    ((tget (d.failStack k c).coh.recalls g).isSome = true ∨ ∀ e ∈ (d.failStack k c).coh.dir, globalSet e.1 ≠ g)) ∧
  (∀ (d : Dev) (lines : List Nat) (l : Nat), l ∈ lines → (∃ e ∈ d.setEntries l, 4 ≤ e.2.state) →
    (tget (d.readSets lines).coh.recalls (globalSet l)).isSome = true ∨
      ∀ e ∈ (d.readSets lines).coh.dir, globalSet e.1 ≠ globalSet l)

/-! ## The pool (chapter 2) -/

/-- R37 to R40, R48, R51, R52, R483, Table 2.6: an address in no region, or in one the requester has no grant on, or no right to, is
DENIED; rights given up by a later revocation are REVOKED; with rights in force an extent of a resident region that is not being moved
is served at its frame, and one of a backed region in the slot of its cached skein, or its fetch begins. A pin's view takes no write, and
a draft's view that is closed is REVOKED for its owner and DENIED for everyone else. -/
def Sys2Proof.Says.AccessIsChecked : Prop :=
  ∀ (d : Dev) (node addr need : Nat) (write : Bool) (e : Emt),
    let ext := addr / 2 ^ 25
    (tget d.pool.emt ext = none → d.check node addr need write = .no stDenied 0) ∧
    (tget d.pool.emt ext = some e → 1 ≤ e.kind → e.kind ≤ 4 →
      (d.grantOf node e.handle = none → d.check node addr need write = .no stDenied 0) ∧
      (∀ g, d.grantOf node e.handle = some g → rightsOk g.rights need = false → d.check node addr need write = .no stDenied 0) ∧
      (e.kind = 4 → Nat.land need 30 ≠ 0 → d.check node addr need write = .no stDenied 0) ∧
      (∀ g, d.grantOf node e.handle = some g → rightsOk g.rights need = true → e.kind ≠ 4 → d.grantAdmits g node e.handle e.index = false →
        d.check node addr need write = .no stRevoked 0) ∧
      (∀ g, d.grantOf node e.handle = some g → rightsOk g.rights need = true → d.grantAdmits g node e.handle e.index = true →
        d.barred ext = false → e.fence = false →
        (e.kind = 1 → (d.stack (d.dataStack ext (e.frame * 2 ^ 25 + addr % 2 ^ 25))).state ≠ 3 →
          d.check node addr need write = .ok (e.frame * 2 ^ 25 + addr % 2 ^ 25)) ∧
        (∀ k, e.kind = 2 → d.migrationOf ext = none → d.far.moves = [] → tget d.far.cached (addr / 65536) = some k → k.state ≠ 0 →
          (d.stack (d.dataStack ext (k.slot * 65536 + addr % 65536))).state ≠ 3 →
          d.check node addr need write = .ok (k.slot * 65536 + addr % 65536)) ∧
        (e.kind = 2 → d.migrationOf ext = none → d.far.moves = [] → tget d.far.cached (addr / 65536) = none →
          d.check node addr need write = .fetch) ∧
        (∀ v, e.kind = 3 → d.draftAt ext = none → d.closedAt ext = some v →
          d.check node addr need write = .no (if v.owner = node then stRevoked else stDenied) 0)))

/-- R45, R47, R260: REGION_CREATE gives a region its extents, its frames or slots and its handle, the one it names or one that is free,
and ends DONE with the handle and the base; its clamps are counted, and it is DENIED 4 without a handle, 2 without frames, 3 without
extent numbers, 0x84 under a debug token of level 2, and UNSUPPORTED without the features it needs. -/
def Sys2Proof.Says.RegionsAreMade : Prop :=
  ∀ (s : State) (ring idx n : Nat) (b : List Byte) (backed repl : Bool) (e : Dev),
    let d := s.dev.begun ring idx
    let c := Caller.desc ring idx
    poolReady s.dev ring idx 0x08 b → n = clampN 1 1048576 (dCount b) → backed = decide (dKind b = 1) → repl = (backed && bit (dCflags b) 1) →
    e = (let e := if 1 < dKind b then d.clamped 3 0 else d; if n ≠ dCount b then e.clamped 3 0 else e) →
    (s.dev.sec.state = 1 → s.dev.sec.debugLevel = 2 → Makes (.regionCreate ring idx) s (e.poolEnd c b stDenied 0x84 0 0)) ∧
    (¬ (s.dev.sec.state = 1 ∧ s.dev.sec.debugLevel = 2) →
      (backed = true → e.hasFeature (e.ringOwner ring) 7 = false → Makes (.regionCreate ring idx) s (e.poolEnd c b stUnsupported 7 0 0)) ∧
      ((backed = true → e.hasFeature (e.ringOwner ring) 7 = true) → repl = true → e.hasFeature (e.ringOwner ring) 18 = false →
        Makes (.regionCreate ring idx) s (e.poolEnd c b stUnsupported 18 0 0)) ∧
      ((backed = true → e.hasFeature (e.ringOwner ring) 7 = true) → (repl = true → e.hasFeature (e.ringOwner ring) 18 = true) →
        (bit (dCflags b) 0 = false → e.regionOf (dHandle b) ≠ none → Makes (.regionCreate ring idx) s (e.poolEnd c b stDenied 4 0 0)) ∧
        (∀ d1, bit (dCflags b) 0 = true → e.choose 65536 (fun h => (e.regionOf h).isNone) = (none, d1) →
          Makes (.regionCreate ring idx) s (d1.poolEnd c b stDenied 4 0 0)) ∧
        (∀ h d1, (bit (dCflags b) 0 = false ∧ e.regionOf (dHandle b) = none ∧ h = dHandle b ∧ d1 = e) ∨
            (bit (dCflags b) 0 = true ∧ e.choose 65536 (fun h => (e.regionOf h).isNone) = (some h, d1)) →
          e.regionOf h = none ∧
          (backed = false → d1.freeFrames < n → Makes (.regionCreate ring idx) s (d1.poolEnd c b stDenied 2 0 0)) ∧
          ((backed = false → n ≤ d1.freeFrames) →
            (d1.freeRange n = none → Makes (.regionCreate ring idx) s (d1.poolEnd c b stDenied 3 0 0)) ∧
            (∀ base, d1.freeRange n = some base → d1.makeRegion h base n backed repl = none →
              Makes (.regionCreate ring idx) s (d1.poolEnd c b stDenied 2 0 0)) ∧
            (∀ base d2, d1.freeRange n = some base → d1.makeRegion h base n backed repl = some d2 →
              Makes (.regionCreate ring idx) s (d2.poolEnd c b stDone 0 (h + base * 65536) 1) ∧
              d2.regionOf h = some { backed := backed, base := base, count := n })))))

/-- R46, R47, R54, R118, R209, R483: GRANT stores the rights under the region's generation, at once where no right to read or write is
lost and no running job ended, and after the drain of its lines otherwise; GRANT_REMOVE removes them and drains; REVOKE makes a new
generation that the extents of its range need, for ALL or for one host, and REGION_FREE one for the whole region; each is answered when
its drain is over, and REGION_FREE then removes the region. An operand that names nothing is DENIED, a version that is not the
region's REVOKED, and a region being installed or moved answers RETRY. -/
def Sys2Proof.Says.RegionsAndGrants : Prop :=
  (∀ (s : State) (ring idx : Nat) (b : List Byte),
    let d := s.dev.begun ring idx
    let c := Caller.desc ring idx
    let h := dHandle b
    let host := dHost b
    (∀ i op, (i, op) ∈ [(Instr.regionFree ring idx, 0x09), (.grant ring idx, 0x0A), (.grantRemove ring idx, 0x0B), (.revoke ring idx, 0x0C)] →
      poolReady s.dev ring idx op b → s.dev.liveRegion h = none →
      Makes i s (d.poolEnd c b stDenied (if (nodePort (s.dev.ringOwner ring)).isSome then 0x0A else 0) 0 0)) ∧
    (∀ r, s.dev.liveRegion h = some r →
      (poolReady s.dev ring idx 0x09 b →
        (s.dev.installing h = true ∨ s.dev.fencedIn r.base 0 (r.count - 1) = true → Makes (.regionFree ring idx) s (d.poolRetry c)) ∧
        (s.dev.installing h = false → s.dev.fencedIn r.base 0 (r.count - 1) = false → s.dev.noExclusion h none (r.rgen + 1) = true →
          Makes (.regionFree ring idx) s (d.poolEnd c b stDenied 4 0 0)) ∧
        (s.dev.installing h = false → s.dev.fencedIn r.base 0 (r.count - 1) = false → s.dev.noExclusion h none (r.rgen + 1) = false →
          Makes (.regionFree ring idx) s ((d.orderFree h r).drain d
            { handle := h, host := none, first := 0, last := r.count - 1, rgen := r.rgen + 1, kind := 1, caller := c }))) ∧
      (poolReady s.dev ring idx 0x0A b →
        (grantable host = false → Makes (.grant ring idx) s (d.poolEnd c b stDenied 0x0B 0 0)) ∧
        (grantable host = true → s.dev.outsideTenant host = true → Makes (.grant ring idx) s (d.poolEnd c b stDenied 0x81 0 0)) ∧
        (grantable host = true → s.dev.outsideTenant host = false →
          (s.dev.installing h = true → Makes (.grant ring idx) s (d.poolRetry c)) ∧
          (s.dev.installing h = false → dVersion b ≠ r.rgen → Makes (.grant ring idx) s (d.poolEnd c b stRevoked 0 0 0)) ∧
          (s.dev.installing h = false → dVersion b = r.rgen → s.dev.grantOf host h = none → 65536 ≤ s.dev.pool.grants.length →
            Makes (.grant ring idx) s (d.poolEnd c b stDenied 4 0 0)) ∧
          (∀ had lost d', s.dev.installing h = false → dVersion b = r.rgen →
            s.dev.grantOf host h ≠ none ∨ s.dev.pool.grants.length < 65536 → had = ((s.dev.grantOf host h).map (·.rights)).getD 0 →
            lost = Nat.land had 3 - Nat.land (Nat.land had 3) (dRights b) → d' = d.putGrant h host (dRights b) r →
            (lost = 0 → d.jobsEnded d' = [] → Makes (.grant ring idx) s (d'.poolEnd c b stDone 0 r.rgen 0)) ∧
            (lost ≠ 0 ∨ d.jobsEnded d' ≠ [] → Makes (.grant ring idx) s (d'.drain d
              { handle := h, host := some host, first := 0, last := r.count - 1, rgen := r.rgen, kind := 3, caller := c }))))) ∧
      (poolReady s.dev ring idx 0x0B b →
        (grantable host = false → Makes (.grantRemove ring idx) s (d.poolEnd c b stDenied 0x0B 0 0)) ∧
        (grantable host = true → s.dev.installing h = true → Makes (.grantRemove ring idx) s (d.poolRetry c)) ∧
        (grantable host = true → s.dev.installing h = false → s.dev.grantOf host h = none →
          Makes (.grantRemove ring idx) s (d.poolEnd c b stDone 0 0 0)) ∧
        (grantable host = true → s.dev.installing h = false → s.dev.grantOf host h ≠ none →
          Makes (.grantRemove ring idx) s ((d.delGrant h host).drain d
            { handle := h, host := some host, first := 0, last := r.count - 1, rgen := r.rgen, kind := 2, caller := c }))) ∧
      (∀ whom last e, poolReady s.dev ring idx 0x0C b → whom = (if dAll b then none else some host) → last = min (dLast b) (r.count - 1) →
        e = (if last ≠ dLast b then d.clamped 3 0 else d) →
        (dAll b = false → grantable host = false → Makes (.revoke ring idx) s (d.poolEnd c b stDenied 0x0B 0 0)) ∧
        (dAll b = true ∨ grantable host = true →
          (last < dCount b → Makes (.revoke ring idx) s (e.poolEnd c b stDenied 0x0C 0 0)) ∧
          (dCount b ≤ last → e.installing h = true ∨ e.fencedIn r.base (dCount b) last = true → Makes (.revoke ring idx) s (e.poolRetry c)) ∧
          (dCount b ≤ last → e.installing h = false → e.fencedIn r.base (dCount b) last = false →
            (dVersion b ≠ r.rgen → Makes (.revoke ring idx) s (e.poolEnd c b stRevoked 0 r.rgen 0)) ∧
            (dVersion b = r.rgen → r.rgen = 0xFFFFFFFF → Makes (.revoke ring idx) s (e.poolEnd c b stDenied 6 0 0)) ∧
            (dVersion b = r.rgen → r.rgen ≠ 0xFFFFFFFF → e.noExclusion h whom (r.rgen + 1) = true →
              Makes (.revoke ring idx) s (e.poolEnd c b stDenied 4 0 0)) ∧
            (dVersion b = r.rgen → r.rgen ≠ 0xFFFFFFFF → e.noExclusion h whom (r.rgen + 1) = false →
              Makes (.revoke ring idx) s ((e.revokePoint h whom (dCount b) last r).drain e
                { handle := h, host := whom, first := dCount b, last := last, rgen := r.rgen + 1, kind := 0, caller := c })))))) ∧
    (∀ i op, (i, op) ∈ [(Instr.regionCreate ring idx, 0x08), (.regionFree ring idx, 0x09), (.grant ring idx, 0x0A),
        (.grantRemove ring idx, 0x0B), (.revoke ring idx, 0x0C), (.stackRetire ring idx, 0x13), (.stackReturn ring idx, 0x14)] →
      s.dev.ready ring idx op b → s.dev.sec.state ≠ 5 → s.dev.mir.role < 2 → s.dev.hasLease (s.dev.ringOwner ring) = false →
      Completes i s ring idx d stDenied 8 0 0)) ∧
  (∀ (s : State) (h g : Nat) (r : Draining),
    (s.dev.pool.draining.find? fun r => r.handle == h && r.rgen == g && s.dev.drainDone r) = some r →
    Makes (.revokeDrainDone h g) s (s.dev.drainEnd r)) ∧
  (∀ (d e : Dev) (r : Draining), e = { d with pool := { d.pool with draining := d.pool.draining.erase r } } →
    (r.kind = 1 → d.drainEnd r = (e.endRegion r.handle).poolEnd r.caller (e.callerBytes r.caller) stDone 0 0 0) ∧
    (r.kind = 0 ∨ r.kind = 3 → d.drainEnd r = e.poolEnd r.caller (e.callerBytes r.caller) stDone 0 r.rgen 0) ∧
    (r.kind = 2 → d.drainEnd r = e.poolEnd r.caller (e.callerBytes r.caller) stDone 0 0 0)) ∧
  (∀ (d : Dev) (h : Nat), keysRise d.pool.regions = true → (d.endRegion h).regionOf h = none) ∧
  (∀ (d : Dev) (h host rights : Nat) (r : Region), ∃ e : Dev, d.putGrant h host rights r = e.recheckJobs ∧
    e.grantOf host h = some { rights := rights, gen := r.rgen, born := r.rgen }) ∧
  (∀ (d : Dev) (h host : Nat), keysRise d.pool.grants = true →
    ∃ e : Dev, d.delGrant h host = e.recheckJobs ∧ e.grantOf host h = none) ∧
  (∀ (d : Dev) (h first last : Nat) (whom : Option Nat) (r : Region), ∃ e : Dev, d.revokePoint h whom first last r = e.recheckJobs ∧
    e.regionOf h = some { r with rgen := r.rgen + 1 } ∧
    ∀ i x, first ≤ i → i ≤ last → tget d.pool.emt (r.base + i) = some x → tget e.pool.emt (r.base + i) = some { x with egen := r.rgen + 1 })

/-- R38 to R47, R54, R81: who may access a line, and the regions and grants that say so. Without the administration lease the region
and stack operations are DENIED 8. -/
def Obligations.AccessRegionsGrants : Prop :=
  Says.AccessIsChecked ∧ Says.RegionsAreMade ∧ Says.RegionsAndGrants

/-- R47 to R52: DRAFT_OPEN and PIN_OPEN show a version at a view of its own; a draft's copy gives its extent a frame of its own, once
what its owners hold has been read; PUBLISH orders the next version, its unfinished copies dropped, and installs the draft when the homes
have drained; DRAFT_DISCARD and PIN_CLOSE close their view, and so does the end of a pin's lease, which PIN_RENEW puts off. A caller
without the right, an ID of nobody's, or a backed region is DENIED; a version that is no longer current is STALE_BASE. The IDs are free
choices (log entry 5). -/
def Obligations.DraftsAndPins : Prop :=
  (∀ (s : State) (ring idx : Nat) (b : List Byte) (r : Region),
    let d := s.dev.begun ring idx
    let c := Caller.desc ring idx
    let h := dHandle b
    let node := s.dev.ringOwner ring
    (poolReady s.dev ring idx 0x0D b → s.dev.liveRegion h = some r →
      (s.dev.holds node h rightP = false → Makes (.draftOpen ring idx) s (d.poolEnd c b stDenied 0 0 0)) ∧
      (s.dev.holds node h rightP = true → r.backed = true → Makes (.draftOpen ring idx) s (d.poolEnd c b stDenied 1 0 0)) ∧
      (s.dev.holds node h rightP = true → r.backed = false → s.dev.installing h = true → Makes (.draftOpen ring idx) s (d.poolRetry c)) ∧
      (∀ view, s.dev.holds node h rightP = true → r.backed = false → s.dev.installing h = false →
        s.dev.pool.drafts.length < s.dev.fld 0x100010 0 13 → (∃ i, i < 4096 ∧ tget s.dev.pool.drafts i = none) →
        s.dev.freeRange r.count = some view →
        ∃ id, id < 4096 ∧ tget s.dev.pool.drafts id = none ∧
          Makes (.draftOpen ring idx) s
            ((({ d with free := d.free + 1 } : Dev).putDraft id view h node r).poolEnd c b stDone 0 (id * 2 ^ 52 + view) r.version))) ∧
    (∀ e v, poolReady s.dev ring idx 0x10 b → s.dev.liveRegion h = some r → e = d.countLease b →
      v = (if dVersion b = 0 then r.version else dVersion b) →
      (s.dev.holds node h rightR = false → Makes (.pinOpen ring idx) s (e.poolEnd c b stDenied 0 0 0)) ∧
      (s.dev.holds node h rightR = true → r.backed = true → Makes (.pinOpen ring idx) s (e.poolEnd c b stDenied 1 0 0)) ∧
      (s.dev.holds node h rightR = true → r.backed = false → s.dev.installing h = false → v ≠ r.version →
        (s.dev.pool.pins.find? fun p => p.2.handle == h && p.2.version == v) = none →
        Makes (.pinOpen ring idx) s (e.poolEnd c b stStaleBase 0 r.version 0)) ∧
      (∀ view from_, s.dev.holds node h rightR = true → r.backed = false → s.dev.installing h = false →
        (v = r.version ∧ from_ = r.base) ∨
          (v ≠ r.version ∧ (s.dev.pool.pins.find? fun p => p.2.handle == h && p.2.version == v).map (·.2.view) = some from_) →
        s.dev.pool.pins.length < e.fld 0x100010 16 13 → (∃ i, i < 4096 ∧ tget s.dev.pool.pins i = none) →
        s.dev.freeRange r.count = some view →
        ∃ id, id < 4096 ∧ tget s.dev.pool.pins id = none ∧
          Makes (.pinOpen ring idx) s ((({ e with free := e.free + 1 } : Dev).putPin id view h node v from_ (e.pinMs b) r).poolEnd c b stDone 0
            (id * 2 ^ 52 + view) v))) ∧
    (poolReady s.dev ring idx 0x0E b →
      (s.dev.draftOf node (dDraftId b) = none → Makes (.draftDiscard ring idx) s (d.poolEnd c b stDenied 5 0 0)) ∧
      (∀ f, s.dev.draftOf node (dDraftId b) = some f → s.dev.installing f.handle = false →
        Makes (.draftDiscard ring idx) s ((d.discardDraft (dDraftId b)).poolEnd c b stDone 0 0 0))) ∧
    (poolReady s.dev ring idx 0x0F b → s.dev.liveRegion h = some r →
      (s.dev.holds node h rightP = false → Makes (.publish ring idx) s (d.poolEnd c b stDenied 0 0 0)) ∧
      (s.dev.holds node h rightP = true → (∀ f, s.dev.draftOf node (dDraftId b) = some f → f.handle ≠ h) →
        Makes (.publish ring idx) s (d.poolEnd c b stDenied 5 0 0)) ∧
      (∀ f, s.dev.holds node h rightP = true → s.dev.draftOf node (dDraftId b) = some f → f.handle = h →
        (f.baseVer ≠ dVersion b → Makes (.publish ring idx) s (d.poolEnd c b stDenied 7 0 0)) ∧
        (f.baseVer = dVersion b → f.baseVer ≠ r.verOrd → Makes (.publish ring idx) s (d.poolEnd c b stStaleBase 0 r.verOrd 0)) ∧
        (f.baseVer = dVersion b → f.baseVer = r.verOrd → s.dev.installing h = false →
          ((s.dev.modified f).any fun i => (s.dev.emtOf (r.base + i)).fence || (s.dev.emtOf (f.view + i)).fence) = false →
          (∀ x, s.dev.publishCheck node f r = some x → Makes (.publish ring idx) s (d.poolEnd c b x.1 x.2 0 0)) ∧
          (∀ gone e, s.dev.publishCheck node f r = none →
            gone = (s.dev.pool.draftCopies.filter fun x => f.view ≤ x.ext && x.ext < f.view + f.count) →
            e = (forEach gone (fun x d => d.releaseFrame x.dest) d).setRegion h { r with verOrd := nextVersion r.verOrd } →
            Makes (.publish ring idx) s ({ e with pool := { e.pool with
              publishing := e.pool.publishing ++ [{ handle := h, draft := dDraftId b, version := nextVersion r.verOrd, caller := c }],
              draftCopies := e.pool.draftCopies.filter fun x => !gone.contains x } } : Dev).sweepAll)))) ∧
    (∀ e, poolReady s.dev ring idx 0x11 b → e = d.countLease b →
      (s.dev.pinOf node (dDraftId b) = none → Makes (.pinRenew ring idx) s (e.poolEnd c b stDenied 5 0 0)) ∧
      (∀ p, s.dev.pinOf node (dDraftId b) = some p → s.dev.installing p.handle = false →
        Makes (.pinRenew ring idx) s ({ e with
          pool := { e.pool with pins := tput e.pool.pins (dDraftId b) { p with deadline := e.now + msTicks (e.pinMs b) } } }.poolEnd
            c b stDone 0 0 0))) ∧
    (poolReady s.dev ring idx 0x12 b →
      (s.dev.pinOf node (dDraftId b) = none → Makes (.pinClose ring idx) s (d.poolEnd c b stDenied 5 0 0)) ∧
      (∀ p, s.dev.pinOf node (dDraftId b) = some p → s.dev.installing p.handle = false →
        Makes (.pinClose ring idx) s ((d.endPin (dDraftId b)).poolEnd c b stDone 0 0 0)))) ∧
  (∀ (s : State) (n : Nat),
    (∀ x owned e, s.dev.pool.draftCopies.find? (·.ext == n) = some x →
      owned = ((s.dev.coh.dir.map (·.1)).filter fun l => l / 2 ^ 19 == s.dev.baseExt n && s.dev.ownedLine l) →
      (s.dev.draftCopyLines n x.dest (s.dev.baseExt n) owned = (true, e) → Makes (.draftCopyDone n) s (e.forget owned).stackMoveDone) ∧
      (s.dev.draftCopyLines n x.dest (s.dev.baseExt n) owned = (false, e) → Makes (.draftCopyDone n) s e)) ∧
    (∀ p d, s.dev.pool.publishing.find? (·.handle == n) = some p → s.dev.barrierDone = true →
      d = s.dev.installDraft n p.draft p.version →
      ∃ t, t = ({ d with pool := { d.pool with publishing := d.pool.publishing.erase p } } : Dev) ∧
        Makes (.publishInstall n) s (t.poolEnd p.caller (t.callerBytes p.caller) stDone 0 p.version 0)) ∧
    (∀ p, tget s.dev.pool.pins n = some p → Makes (.pinLeaseExpiry n) s ((s.dev.till p.deadline).endPin n))) ∧
  (∀ (d : Dev) (ext dest : Nat), (d.draftCopyEnd ext dest).emtOf ext = { d.emtOf ext with mod := true, frame := dest })

/-- R47, R57, R82, R95: REGION_QUERY and EXTENT_QUERY write what they answer to the requester's buffer, a client's with a grant; retiring
the stack that is retired already, and returning one that is not, change nothing; retiring one starts the migrations of every frame in
use, and so does returning one whose training passes, DEVICE_ERROR 1 where it does not; a POOL_OP runs the operation of its payload
for the node that sent it, a NOP does nothing, and one with another LEN is DENIED 0x22. -/
def Sys2Proof.Says.QueriesAndStacks : Prop :=
  (∀ (s : State) (ring idx : Nat) (b : List Byte) (r : Region),
    let d := s.dev.begun ring idx
    let c := Caller.desc ring idx
    let h := dHandle b
    let node := s.dev.ringOwner ring
    let mayAsk := (nodePort node).isSome = true ∨ ((s.dev.grantOf node h).map (·.rights)).getD 0 ≠ 0
    (poolReady s.dev ring idx 0x15 b → s.dev.liveRegion h = some r →
      (¬ mayAsk → Makes (.regionQuery ring idx) s (d.poolEnd c b stDenied 0 0 0)) ∧
      (mayAsk → Makes (.regionQuery ring idx) s (d.output c (dOutAddr b) (natBytes 2 h ++ natBytes 1 (b2n r.backed) ++ zeros 1 ++
        natBytes 4 r.count ++ natBytes 4 r.base ++ natBytes 4 r.version ++ natBytes 4 r.rgen ++
        natBytes 2 (s.dev.pool.drafts.filter (·.2.handle == h)).length ++ natBytes 2 (s.dev.pool.pins.filter (·.2.handle == h)).length ++
        zeros 8) stDone 0 r.version r.rgen))) ∧
    (∀ n last len e e', poolReady s.dev ring idx 0x16 b → s.dev.liveRegion h = some r → last = min (dLast b) (r.count - 1) →
      len = clampGrain 16 16 16777216 (dOutLen b) → e = (if last ≠ dLast b then d.clamped 3 0 else d) →
      e' = (if len ≠ dOutLen b then e.clamped 3 0 else e) → n = min (last + 1 - dCount b) (len / 16) →
      (¬ mayAsk → Makes (.extentQuery ring idx) s (d.poolEnd c b stDenied 0 0 0)) ∧
      (mayAsk → last < dCount b → Makes (.extentQuery ring idx) s (e'.poolEnd c b stDenied 0x0C 0 0)) ∧
      (mayAsk → dCount b ≤ last → Makes (.extentQuery ring idx) s (e'.output c (dOutAddr b)
        (((List.range n).map fun i => emtBytes (s.dev.emtOf (r.base + dCount b + i))).flatten) stDone 0 0 n (unit := 16)))) ∧
    (∀ i op, (i, op) ∈ [(Instr.regionQuery ring idx, 0x15), (.extentQuery ring idx, 0x16)] → poolReady s.dev ring idx op b →
      s.dev.liveRegion h = none → Makes i s (d.poolEnd c b stDenied (if (nodePort node).isSome then 0x0A else 0) 0 0)) ∧
    (∀ i op, (i, op) ∈ [(Instr.stackRetire ring idx, 0x13), (.stackReturn ring idx, 0x14)] → poolReady s.dev ring idx op b →
      (6 ≤ dStack b → Makes i s (d.poolEnd c b stDenied 0 0 0)) ∧
      (dStack b < 6 → s.dev.pool.stackMove ≠ none → Makes i s (d.poolRetry c))) ∧
    (poolReady s.dev ring idx 0x13 b → dStack b < 6 → s.dev.pool.stackMove = none →
      (s.dev.retired = some (dStack b) → Makes (.stackRetire ring idx) s (d.poolEnd c b stDone 0 0 0)) ∧
      (∀ x, s.dev.retired = some x → x ≠ dStack b → Makes (.stackRetire ring idx) s (d.poolEnd c b stDenied 9 0 0)) ∧
      (s.dev.retired = none → 12768 < s.dev.framesInUse →
        Makes (.stackRetire ring idx) s (d.poolEnd c b stDenied 9 (s.dev.framesInUse - 12768) 0)) ∧
      (s.dev.retired = none → s.dev.framesInUse ≤ 12768 →
        Makes (.stackRetire ring idx) s ({ d with
          pool := { d.pool with stackMove := some { stack := dStack b, retire := true, total := 0, caller := c } } } :
            Dev).migrateAll.stackMoveDone)) ∧
    (poolReady s.dev ring idx 0x14 b → dStack b < 6 → s.dev.pool.stackMove = none →
      ((s.dev.stack (dStack b)).state ≠ 5 → Makes (.stackReturn ring idx) s (d.poolEnd c b stDone 0 0 0)) ∧
      (∀ t, (s.dev.stack (dStack b)).state = 5 → t = ({ d with free := d.free + 1 } : Dev).stackState (dStack b) 1 →
        (Config.freeNumber s.dev.free % 2 = 1 →
          Makes (.stackReturn ring idx) s ((t.stackState (dStack b) 5).poolEnd c b stDeviceError 1 0 0)) ∧
        (Config.freeNumber s.dev.free % 2 = 0 →
          Makes (.stackReturn ring idx) s ({ t with
            pool := { t.pool with stackMove := some { stack := dStack b, retire := false, total := 0, caller := c } } } :
              Dev).migrateAll.stackMoveDone)))) ∧
  (∀ (s : State) (m : Msg) (op : Nat) (e : Dev),
    let d := s.dev.taken m
    takes s.dev m → m.opcode = 0x38 → op = poolOpcode m.data → e = (if op = 0 ∧ dOpcode m.data ≠ 0 then d.clamped 4 0 else d) →
    (m.len ≠ 63 → Makes (.poolOp m) s (d.refuse m stDenied 0x22)) ∧
    (m.len = 63 → s.dev.backlogged = true → 0x08 ≤ op → op ≤ 0x14 → Makes (.poolOp m) s (d.retry m)) ∧
    (m.len = 63 → s.dev.backlogged = false ∨ op < 0x08 ∨ 0x14 < op →
      (op = 0 → Makes (.poolOp m) s ((e.dedupOpen m).complete (.fab m) stDone 0 0 0)) ∧
      (op ≠ 0 → Makes (.poolOp m) s ((d.dedupOpen m).poolRun (.fab m) m.data op))))

/-- R43, R55, R56, R373: a re-weave epoch does its steps in order and counts itself; a switch that took its filter update has that
record pending no longer, one that does not support it, or leaves three in a row unanswered, is not filtering; a migration copies its
skeins one after another, and when none is left its extents lie in the new frame, not fenced; a frame whose bind-off is done reads as
zero and is free. -/
def Sys2Proof.Says.EpochsAndMigrations : Prop :=
  (∀ (s : State) (d : Dev), up s.dev →
    d = (((s.dev.till s.dev.pool.nextEpoch).freeViews.freeSources.addCapacities.startMigrations.sendFilters.applyDomains.shrinkCache).topUpCache).demoteLow
      (fun _ => false) →
    Makes .reweaveEpoch s { d with
      pool := { d.pool with epochs := d.pool.epochs + 1, nextEpoch := d.now + msTicks (d.fld 0x100004 0 4) } }) ∧
  (∀ (s : State) (k i key : Nat) (w : Switch) (q : DevReq), tget s.dev.pool.switches k = some w →
    (s.dev.fab.devReqs.find? fun q => q.2.purpose == 1 && q.2.index == k * 64 + i) = some (key, q) →
    let e := s.dev.endReq key
    let heard := e.setSwitch k fun w => { w with unanswered := 0 }
    let lost := e.setSwitch k fun w => { w with unanswered := w.unanswered + 1 }
    Makes (.filterUpdateAnswer k i (some stDone)) s (heard.setSwitch k fun w =>
      { w with recs := w.recs.zipIdx.map fun r => if r.2 = i then { r.1 with pending := false } else r.1 }) ∧
    Makes (.filterUpdateAnswer k i (some stUnsupported)) s (heard.notFiltering k w) ∧
    (∀ st, st ≠ stDone → st ≠ stUnsupported → Makes (.filterUpdateAnswer k i (some st)) s heard) ∧
    (2 ≤ w.unanswered → Makes (.filterUpdateAnswer k i none) s (lost.notFiltering k w)) ∧
    (w.unanswered < 2 → Makes (.filterUpdateAnswer k i none) s lost)) ∧
  (∀ (s : State) (ext : Nat) (g g' : Migration) (d : Dev),
    (s.dev.pool.migrations.find? fun g => g.ext == ext && g.started && !g.done) = some g →
    (g.copying = none ∧ d = s.dev ∧ g' = g) ∨
      (∃ k, g.copying = some k ∧ d = s.dev.skeinCopied g k ∧ g' = { g with copied := k :: g.copied }) →
    (∀ n, d.nextSkein g' = some n →
      Makes (.migrationSkeinCopied ext) s (d.setMigration g { g' with copying := some n }).unpark) ∧
    (d.nextSkein g' = none →
      Makes (.migrationSkeinCopied ext) s
        ((d.setMigration g { g' with copying := none }).migrationDone { g' with copying := none }).unpark)) ∧
  (∀ (d : Dev) (g : Migration) (ext : Nat) (e : Emt), d.pool.stackMove = none → tget d.pool.emt ext = some e → e.kind ≠ 0 → e.kind ≠ 2 →
    e.frame = g.src → g.src ≠ 0xFFFF → g.src ≠ g.dst →
    tget (d.migrationDone g).pool.emt ext = some { e with frame := g.dst, fence := false }) ∧
  (∀ (s : State) (f : Nat), nmem s.dev.pool.binding f = true →
    ∃ d : Dev, Makes (.frameFreed f) s (d.clearCodes f).topUpCache ∧ nmem d.pool.binding f = false ∧
      ∀ a, f * 2 ^ 25 ≤ a → a < (f + 1) * 2 ^ 25 → memGet d.mem a = 0)

/-- R54 to R58, R82: queries, stack retirement and return, epochs, migrations and filter updates. -/
def Obligations.PoolUpkeep : Prop :=
  Says.QueriesAndStacks ∧ Says.EpochsAndMigrations

/-! ## Pool windows, the device window and sessions (chapter 3) -/

/-- R63, R308, R468, Table 3.4: an access of the pool through a port's window that nothing keeps waiting is served for its host: a read
answers its bytes, a write stores them; without POOL_WINDOW, or past the pool's end, a read ends as an unsupported request and a write
is dropped, and on a unit that is not the active it is refused. A home's RETRY has it wait for its hint while RETRY_MS lasts, and end as
a Completer Abort after; any other refusal is a Completer Abort too. One that waited goes again. A write of POOL_CACHE_FRAMES by the
holder of the lease sets the reservation, which then fills. -/
def Sys2Proof.Says.PoolWindows : Prop :=
  (∀ (s : State) (p off len : Nat) (data : Option (List Byte)) (m : Msg), hostUp s.dev p → off < (s.dev.port p).barGib * 2 ^ 30 → len ≠ 0 →
    m = windowMsg p (s.dev.fld (0xA80100 + p * 0x2000000) 0 18 * 2 ^ 30 + off) len s.dev.now data →
    (s.dev.hasFeature (portNode p) 16 = false ∨ spanBad m = true →
      Makes (.poolWindowAccess p off len data) s (if data = none then s.dev.emit (.pcieError p 0) else s.dev)) ∧
    (s.dev.hasFeature (portNode p) 16 = true → spanBad m = false →
      (s.dev.mir.role = 2 ∨ s.dev.mir.role = 3 → Makes (.poolWindowAccess p off len data) s (s.dev.refuse m stDenied 0)) ∧
      (s.dev.mir.role < 2 → goesOn s.dev m → Makes (.poolWindowAccess p off len data) s (s.dev.serve m)) ∧
      (∀ d' b, s.dev.mir.role < 2 → data = none → unkept s.dev m →
        (forEach (reqLines m) (fun l d => d.touch l) (s.dev.countReq m)).gather [] (reqLines m) = (.bytes b, d') →
        Makes (.poolWindowAccess p off len data) s
          ((d'.countAnswer m.src stDone).emit (.readData p (slice b (m.addr % 64) len) false))) ∧
      (∀ d' bs, s.dev.mir.role < 2 → data = some bs → unkept s.dev m → (s.dev.countReq m).testCounts m = false →
        (s.dev.countReq m).scatter m.addr (slice bs 0 len) 17 = (.done, d') →
        Makes (.poolWindowAccess p off len data) s ((d'.repWriteRun m.addr (slice bs 0 len) m.src m.tag).countAnswer m.src stDone)))) ∧
  (∀ (d : Dev) (p hint st : Nat) (m : Msg), p < 2 → m.tag = 0x1000 + p →
    let e := d.countAnswer m.src st
    let stop := m.xfer + msTicks (d.fld (0xA80100 + p * 0x2000000) 24 8)
    (st = stRetry → d.now < stop → d.refuse m st hint = { e with host := { e.host with windowWaits := e.host.windowWaits ++
      [{ port := p, addr := m.addr, len := m.len + 1, data := if m.opcode = 1 then none else some m.data, first := m.xfer,
         nextTry := e.now + hint * 512 / 10 }] } }) ∧
    ((st = stRetry ∧ stop ≤ d.now) ∨ st ∉ [stDone, stRetry, stPoisoned] →
      d.refuse m st hint = if m.opcode = 1 then e.emit (.pcieError p 1) else e)) ∧
  (∀ (s : State) (p : Nat) (w : WindowWait) (d : Dev), s.dev.host.windowWaits.find? (·.port == p) = some w →
    d = { s.dev with host := { s.dev.host with windowWaits := s.dev.host.windowWaits.erase w } } →
    let stop := w.first + msTicks (s.dev.fld (0xA80100 + p * 0x2000000) 24 8)
    (w.nextTry ≤ stop → s.dev.mir.role < 2 → s.dev.pm.state = 1 →
      Makes (.poolWindowReissue p) s ((d.till w.nextTry).accept (windowMsg p w.addr w.len w.first w.data) false)) ∧
    (stop < w.nextTry → Makes (.poolWindowReissue p) s
      (if w.data = none then (d.till stop).emit (.pcieError p 1) else d.till stop))) ∧
  (∀ (s : State) (p v : Nat), hostUp s.dev p → s.dev.hasLease (portNode p) = true →
    Makes (.poolCacheFramesWrite (portNode p) v) s (s.dev.cacheFramesWrite v) ∧
    (v ≤ 12768 → s.dev.cacheFramesWrite v = (s.dev.setReg 0x100008 v).topUpCache) ∧
    (12768 < v → v < 16384 → s.dev.cacheFramesWrite v = ((s.dev.clamped 3 0).setReg 0x100008 12768).topUpCache))

/-- R68, R69, R71, R74, R370, R482: CLIENT_OPEN gives a node without a session, or one whose rings are all off again, a session, its
rings, their number clamped, and the features it asked for that are offered; one with a ring on is told what it holds; without rings it is
DENIED 4, and DENIED what the checks say. CLIENT_CLOSE ends the session. In the device window its owner reads and writes a ring's
record and rings its doorbell, a doorbell reads as zero, other writes are ignored, and anyone else is DENIED. The session number is a free
choice (log entry 5). -/
def Sys2Proof.Says.SessionsAndTheDeviceWindow : Prop :=
  (∀ (s : State) (m : Msg),
    let d := s.dev.taken m
    let u := d.mir.unacked.length
    takes s.dev m →
    (∀ det, m.opcode = 0x39 → s.dev.openRefused m = some det → Makes (.clientOpen m) s (d.refuse m stDenied det)) ∧
    (m.opcode = 0x39 → s.dev.openRefused m = none → s.dev.sessionOf m.src = none → Makes (.clientOpen m) s (d.openSession s.fuse m none)) ∧
    (∀ n x, m.opcode = 0x39 → s.dev.openRefused m = none → s.dev.sessionOf m.src = some (n, x) →
      ((s.dev.host.rings.any fun r => x.holds r.1 && r.2.state != rsDisabled) = true →
        Makes (.clientOpen m) s (d.finishData u m 0 (sessionAnswer n x))) ∧
      ((s.dev.host.rings.any fun r => x.holds r.1 && r.2.state != rsDisabled) = false →
        Makes (.clientOpen m) s (d.openSession s.fuse m (some n)))) ∧
    (m.opcode = 0x3A → m.len ≠ 0 → Makes (.clientClose m) s (d.refuse m stDenied 0x22)) ∧
    (∀ n x, m.opcode = 0x3A → m.len = 0 → s.dev.sessionOf m.src = some (n, x) →
      Makes (.clientClose m) s
        (((d.repAdminOp [] (natBytes 8 n ++ zeros 4 ++ natBytes 4 3) [] m.src m.tag).endSession n).finish u m stDone)) ∧
    (m.opcode = 1 ∨ m.opcode = 3 → 0xFFFFF0000000 ≤ m.addr →
      (64 < m.addr % 64 + m.len + 1 → Makes (.windowAccess m) s (d.refuse m stDenied 0x21)) ∧
      (m.addr % 64 + m.len + 1 ≤ 64 → 0xFFFFF0410000 ≤ m.addr → Makes (.windowAccess m) s (d.refuse m stDenied 0x24))) ∧
    (∀ ring off, m.addr = 0xFFFFF0400000 + ring * 64 + off → ring < 1024 → off + m.len + 1 ≤ 64 →
      (s.dev.ringOwner ring = m.src →
        (m.opcode = 1 → Makes (.windowAccess m) s (d.finishData u m 0 (slice (s.dev.ringRecord ring) off (m.len + 1)))) ∧
        (m.opcode = 3 → Makes (.windowAccess m) s
          (((d.ringWrite ring off (slice m.data 0 (m.len + 1))).repAdminOp
            ((d.ringWrite ring off (slice m.data 0 (m.len + 1))).ringRecord ring) (natBytes 4 ring ++ zeros 8 ++ natBytes 4 1) []
            m.src m.tag).finish u m stDone))) ∧
      (s.dev.ringOwner ring ≠ m.src → m.opcode = 1 ∨ m.opcode = 3 → Makes (.windowAccess m) s (d.refuse m stDenied 0))) ∧
    (∀ ring off, m.addr = 0xFFFFF0000000 + ring * 0x1000 + off → ring < 1024 → off % 64 + m.len + 1 ≤ 64 → off < 0x1000 →
      (s.dev.ringOwner ring = m.src →
        (m.opcode = 1 → Makes (.windowAccess m) s (d.finishData u m 0 (zeros (m.len + 1)))) ∧
        (m.opcode = 3 → off = 0 → m.len = 3 → Makes (.windowAccess m) s
          (((d.ringDoorbell ring (field m.data 0 4)).repWriteRun m.addr (slice m.data 0 4) m.src m.tag).finish u m stDone)) ∧
        (m.opcode = 3 → off ≠ 0 ∨ m.len ≠ 3 → Makes (.windowAccess m) s (d.finish u m stDone))) ∧
      (s.dev.ringOwner ring ≠ m.src → m.opcode = 1 ∨ m.opcode = 3 → Makes (.windowAccess m) s (d.refuse m stDenied 0)))) ∧
  (∀ (d e : Dev) (f : Fuses) (m : Msg) (k : Nat), k = clampN 2 64 (field m.data 32 2) →
    e = (if k = field m.data 32 2 then d else d.clamped 2 0) →
    let granted := fun (g : Dev) (n a acc : Nat) =>
      let x : Session := { node := m.src, first := a, count := k, accepted := acc }
      let h : Dev := { g with host := { g.host with sessions := tput g.host.sessions n x } }
      (h.repAdminOp (natBytes 32 acc) (natBytes 4 n ++ natBytes 2 a ++ natBytes 2 k ++ zeros 4 ++ natBytes 4 2) [] m.src m.tag).finishData
        g.mir.unacked.length m 0 (sessionAnswer n x)
    (∀ a acc, e.ringRange k none = some a → (∃ i, i < 512 ∧ tget d.host.sessions i = none ∧ tget d.host.ending i = none) →
      acc = e.acceptSet f false (field m.data 0 32) clientFeatures →
      ∃ n, n < 512 ∧ tget d.host.sessions n = none ∧ tget d.host.ending n = none ∧
        d.openSession f m none = granted { e with free := e.free + 1 } n a acc) ∧
    (∀ n x a g acc, e.ringRange k (some n) = some a → tget d.host.sessions n = some x →
      g = ({ e with host := { e.host with rings := e.host.rings.filter fun r => !x.holds r.1 } } : Dev).dropOwner x.node →
      acc = g.acceptSet f false (field m.data 0 32) clientFeatures → d.openSession f m (some n) = granted g n a acc) ∧
    (∀ old, e.ringRange k old = none → d.openSession f m old = e.refuse m stDenied 4))

/-- R59 to R63, R95, R96: pool windows of the upstream ports, client sessions and the device window. -/
def Obligations.WindowsAndSessions : Prop :=
  Says.PoolWindows ∧ Says.SessionsAndTheDeviceWindow

/-! ## Gather-reduce units and ABORT (chapters 8 and 9) -/

/-- A lookup's record when it begins. -/
def Sys2Proof.lookupOf (d : Dev) (c : Caller) (base : Nat) (p : LookParams) (idx : List Nat) (w : List (BitVec 32))
    (lists : Option (Nat × Nat × Nat)) (out : Nat) : Lookup :=
  { gru := d.gruFor c, caller := c, node := d.callerNode c, base := base, rowBytes := p.rowBytes, stride := p.stride, pool := p.pool,
    inFmt := p.inFmt, outFmt := p.outFmt, idx := idx, weights := w, outAddr := out, lists := lists, left := List.range idx.length }

/-- The device with a lookup in progress at the next number. -/
def Sys2Proof.lookupBegun (d : Dev) (l : Lookup) : Dev :=
  { d with gru := { d.gru with lookups := tput d.gru.lookups d.gru.nextLookup l, nextLookup := d.gru.nextLookup + 1 } }

/-- A GRU takes the lookup: the unit is up and has room (R217). -/
abbrev Sys2Proof.gruTakes (d : Dev) (c : Caller) : Prop :=
  d.resetting 9 = false ∧ (d.gru.lookups.filter (·.2.gru == d.gruFor c)).length < d.fld 0x280000 0 5

/-- The table and the lists of a lookup are aligned (R220). -/
abbrev Sys2Proof.lookAligned (base : Nat) (p : LookParams) (lists : Option (Nat × Nat × Nat)) : Prop :=
  base % 16 = 0 ∧ ∀ n ia wa, lists = some (n, ia, wa) → ia % 4 = 0 ∧ (p.pool = 3 → wa % 4 = 0)

/-- R216 to R225: a LOOKUP with its list inline begins with its indices and weights, one by reference and one by descriptor with its
lists to be read; each field that is clamped is counted, a table or list that is not aligned is DENIED, a payload without room for an
index too, and a GRU that is full answers RETRY. Each row that is read is pooled into the lanes; one past the address space is DENIED, one
that failed has its status, one whose skein is missing is noted with its hint, and one answered RETRY goes again, as do the lists. When
every row is in, the pooled vector goes to the requester's buffer or back in a read transfer; a lookup that failed or missed a row
ends with that. The base of a lookup by descriptor is a free value (log entry 21). -/
def Sys2Proof.Says.Lookups : Prop :=
  (∀ (s : State) (m : Msg) (p : LookParams),
    let d := s.dev.taken m
    let at_ := fun i => field m.data (16 + i) 4
    takes s.dev m →
    (∀ room, m.opcode = 0x30 → field m.data 4 1 ≠ 3 → room = (m.len + 1 - 16) / 4 → p = lookParams m.data room →
      (room = 0 → Makes (.lookup m) s (d.refuse m stDenied (lookDetail 3 0x22))) ∧
      (room ≠ 0 → Makes (.lookup m) s (d.lookStart (.fab m) m.addr p ((List.range p.count).map fun i => at_ (4 * i)) [] none 0))) ∧
    (∀ room, m.opcode = 0x30 → field m.data 4 1 = 3 → room = (m.len + 1 - 16) / 8 → p = lookParams m.data room →
      (room = 0 → Makes (.lookup m) s (d.refuse m stDenied (lookDetail 3 0x22))) ∧
      (room ≠ 0 → Makes (.lookup m) s (d.lookStart (.fab m) m.addr p ((List.range p.count).map fun i => at_ (8 * i))
        ((List.range p.count).map fun i => BitVec.ofNat 32 (at_ (8 * i + 4))) none 0))) ∧
    (m.opcode = 0x31 → m.len + 1 < (if field m.data 4 1 = 3 then 32 else 24) →
      Makes (.lookupRef m) s (d.refuse m stDenied (lookDetail 3 0x22))) ∧
    (m.opcode = 0x31 → (if field m.data 4 1 = 3 then 32 else 24) ≤ m.len + 1 → p = lookParams m.data 4096 →
      Makes (.lookupRef m) s (d.lookStart (.fab m) m.addr p [] [] (some (p.count, field m.data 16 8, field m.data 24 8)) 0))) ∧
  (∀ (s : State) (ring idx : Nat) (b : List Byte) (p : LookParams), p = lookParams (slice b 8 16) 4096 →
    s.dev.ready ring idx 0x40 b → admits s.dev ring false [5] →
    Makes (.lookupDescriptor ring idx) s (({ s.dev.begun ring idx with free := s.dev.free + 1 } : Dev).lookStart (.desc ring idx)
      (Config.freeNumber s.dev.free % 2 ^ 44 * 16) p [] [] (some (p.count, field b 24 8, field b 32 8)) (field b 40 8))) ∧
  (∀ (d e : Dev) (c : Caller) (base out : Nat) (p : LookParams) (idx : List Nat) (w : List (BitVec 32))
      (lists : Option (Nat × Nat × Nat)), e = (List.range p.clamps).foldl (fun d _ => d.clamped 6 0) d →
    let l := lookupOf e c base p idx w lists out
    (¬ lookAligned base p lists → d.lookStart c base p idx w lists out = e.lookFail c stDenied (lookDetail 3 0x20) 0) ∧
    (lookAligned base p lists → ¬ gruTakes e c →
      d.lookStart c base p idx w lists out = (e.hint.2.bump (0x280100 + 4 * e.gruFor c) 0).lookFail c stRetry e.hint.1 0) ∧
    (lookAligned base p lists → gruTakes e c → lists = none → d.lookStart c base p idx w lists out = lookupBegun e l) ∧
    (lookAligned base p lists → gruTakes e c → lists ≠ none →
      d.lookStart c base p idx w lists out = (lookupBegun e l).readLists e.gru.nextLookup l)) ∧
  (∀ (s : State) (k pos : Nat) (l : Lookup), tget s.dev.gru.lookups k = some l →
    (l.lists = none → nmem l.left pos = true → (∀ x ∈ l.reissue, x.1 ≠ pos) → s.dev.rowIssued k pos l = true →
      Makes (.gruRowReadAnswer k pos) s (s.dev.rowRead k pos l)) ∧
    (∀ t, l.lists = none → l.reissue.find? (·.1 == pos) = some (pos, t) → Makes (.gruReissue k pos) s ((s.dev.till t).rowRead k pos l)) ∧
    (l.lists ≠ none → Makes (.gruReissue k pos) s ((s.dev.till l.listsAt).readLists k l))) ∧
  (∀ (d : Dev) (k pos : Nat) (l done : Lookup),
    let a := l.base + l.idx.getD pos 0 * l.stride
    done = { l with left := l.left.erase pos, reissue := l.reissue.filter (·.1 != pos) } →
    (2 ^ 48 < a + l.rowBytes → l.failed = none → d.rowRead k pos l = (d.setLookup k { done with failed := some (pos, stDenied) }).lookStep k) ∧
    (a + l.rowBytes ≤ 2 ^ 48 →
      (∀ b e, d.readRun (some l.node) a l.rowBytes true = (.ok b, e) →
        let row := rowLanes l.inFmt l.rowBytes b
        d.rowRead k pos l = (e.setLookup k { done with
          acc := poolRow l.pool (if l.seen = 0 then poolZero l.pool row.length else l.acc) row (l.weights.getD pos 0#32),
          seen := l.seen + 1 }).lookStep k) ∧
      (∀ st det e, d.readRun (some l.node) a l.rowBytes true = (.no st det, e) → l.failed = none →
        d.rowRead k pos l = (e.setLookup k { done with failed := some (pos, st) }).lookStep k) ∧
      (∀ h e, d.readRun (some l.node) a l.rowBytes true = (.again h, e) → (linesOf a l.rowBytes).any e.lineMissing = false →
        d.rowRead k pos l = e.setLookup k { l with reissue := l.reissue.filter (·.1 != pos) ++ [(pos, e.now + hintTicks h)] }) ∧
      (∀ h e f, d.readRun (some l.node) a l.rowBytes true = (.again h, e) → (linesOf a l.rowBytes).any e.lineMissing = true →
        f = forEach ((linesOf a l.rowBytes).filter e.lineMissing) (fun x d => (d.lineRead (some l.node) x true).2) e →
        d.rowRead k pos l = (f.setLookup k { done with missHint := some (max h (l.missHint.getD 0)) }).lookStep k))) ∧
  (∀ (d : Dev) (k : Nat) (l : Lookup), tget d.gru.lookups k = some l →
    let v := poolBytes l.outFmt (poolEndLanes l.pool l.idx.length l.acc)
    (∀ f, l.failed = some f → (∀ p ∈ l.left, f.1 ≤ p) →
      d.lookStep k = (d.lookDrop k l false).lookFail l.caller f.2 (lookDetail 0 f.1) l.seen) ∧
    (∀ h, l.failed = none → l.left = [] → l.lists = none → l.missHint = some h →
      d.lookStep k = (d.lookDrop k l true).lookFail l.caller stRetry h l.seen) ∧
    (∀ ring idx, l.failed = none → l.left = [] → l.lists = none → l.missHint = none → l.caller = .desc ring idx →
      d.lookStep k = (d.lookDrop k l false).output l.caller l.outAddr v stDone 0 v.length l.seen (resUnit := 1)) ∧
    (∀ m, l.failed = none → l.left = [] → l.lists = none → l.missHint = none → l.caller = .fab m →
      d.lookStep k = (d.lookDrop k l false).lookAnswer m v))

/-- R226 to R229: a REDUCE that nothing keeps waiting is served; it adds its vector to the row, line after line, once every line can be
loaded, and answers DONE; a payload without whole elements is DENIED 0x22, a row not aligned 0x20, one past the pool's end 0x24, each
format that is clamped is counted. A REDUCE by descriptor checks every line first, and then updates line after line, each once no agent
holds it. STOCK_LIST writes the catalogue's records. -/
def Sys2Proof.Says.ReducesAndStock : Prop :=
  (∀ (s : State) (m : Msg) (e : Dev), takes s.dev m → m.opcode = 0x32 →
    e = (List.range (reduceClamps (field m.data 0 1) (field m.data 2 1))).foldl (fun d _ => d.clamped 6 0) (s.dev.taken m) →
    let vb := fmtBits (reduceVec m) / 8
    (m.len + 1 ≤ 8 ∨ (m.len + 1 - 8) % vb ≠ 0 → Makes (.reduce m) s (e.refuse m stDenied 0x22)) ∧
    (8 < m.len + 1 → (m.len + 1 - 8) % vb = 0 →
      (m.addr % (fmtBits (reduceRow m) / 8) ≠ 0 → Makes (.reduce m) s (e.refuse m stDenied 0x20)) ∧
      (m.addr % (fmtBits (reduceRow m) / 8) = 0 → spanBad m = true → Makes (.reduce m) s (e.refuse m stDenied 0x24)) ∧
      (m.addr % (fmtBits (reduceRow m) / 8) = 0 → spanBad m = false → e.resetting 9 = true → Makes (.reduce m) s (e.retry m)) ∧
      (m.addr % (fmtBits (reduceRow m) / 8) = 0 → spanBad m = false → e.resetting 9 = false → goesOn e m →
        Makes (.reduce m) s (e.serve m)) ∧
      (m.addr % (fmtBits (reduceRow m) / 8) = 0 → spanBad m = false → e.resetting 9 = false → unkept e m →
        Makes (.reduce m) s (((e.dedupOpen m).countReq m).doReduce m)))) ∧
  (∀ (d : Dev) (m : Msg), m.opcode = 0x32 →
    (d.unready (reqLines m) ≠ [] → d.doReduce m = (d.makeReady (reqLines m)).retry m) ∧
    (d.unready (reqLines m) = [] →
      (∀ e, d.reduceLines m (gruOfHome (homeOf (m.addr / 64))) (reqLines m) = (.done, e) →
        d.doReduce m = e.reply d.mir.unacked.length m stDone 0 0 none) ∧
      (∀ e, d.reduceLines m (gruOfHome (homeOf (m.addr / 64))) (reqLines m) = (.poisoned, e) →
        d.doReduce m = e.reply d.mir.unacked.length m stPoisoned 0 0 none))) ∧
  (∀ (s : State) (ring idx n : Nat) (b vec v : List Byte) (m : Msg) (e : Dev) (x : Started),
    let d := s.dev.begun ring idx
    s.dev.ready ring idx 0x41 b → admits s.dev ring true [6] → s.dev.startedAt ring idx = some x → x.buf = [] → x.done = 0 →
    n = clampGrain (fmtBits (reduceFmt (field b 18 1)) / 8) 1 1048576 (field b 20 4) → s.dev.resetting 9 = false →
    ((nodePort (s.dev.ringOwner ring)).isSome = true ∧ v = slice vec 0 n ∧ e = d) ∨
      (nodePort (s.dev.ringOwner ring) = none ∧ d.readRun (some (s.dev.ringOwner ring)) (field b 24 8) n = (.ok v, e)) →
    m = reduceOf (s.dev.ringOwner ring) b v →
    let g := (List.range (reduceClamps (field b 16 1) (field b 18 1) + b2n (n != field b 20 4))).foldl (fun d _ => d.clamped 6 0) e
    n % (fmtBits (reduceFmt (field b 18 1)) / 8) = 0 →
    (m.addr % (fmtBits (reduceRow m) / 8) ≠ 0 → Completes (.reduceDescriptor ring idx vec) s ring idx g stDenied 0x20 0 0) ∧
    (m.addr % (fmtBits (reduceRow m) / 8) = 0 → spanBad m = true → Completes (.reduceDescriptor ring idx vec) s ring idx g stDenied 0x24 0 0) ∧
    (m.addr % (fmtBits (reduceRow m) / 8) = 0 → spanBad m = false →
      (∀ g', g.reduceCheck (s.dev.ringOwner ring) (reqLines m) = (none, g') →
        Makes (.reduceDescriptor ring idx vec) s (g'.reduceGo ring idx m v 0 (reqLines m))) ∧
      (∀ st det g', g.reduceCheck (s.dev.ringOwner ring) (reqLines m) = (some (.no st det), g') →
        Completes (.reduceDescriptor ring idx vec) s ring idx g' st det 0 0))) ∧
  (∀ (d : Dev) (ring idx n line : Nat) (m : Msg) (v : List Byte) (rest : List Nat),
    d.reduceGo ring idx m v n [] = d.completeDesc ring idx stDone 0 0 n ∧
    (d.lineBlocked line = true → d.reduceGo ring idx m v n (line :: rest) = (d.setDone ring idx n v).unclaim ring idx) ∧
    (∀ x, d.lineBlocked line = false → d.dirOf line = some x →
      d.reduceGo ring idx m v n (line :: rest) = ((d.openInv line (.drop true) x m.src).setDone ring idx n v).unclaim ring idx) ∧
    (d.lineBlocked line = false → d.dirOf line = none →
      (∀ e, d.reduceLines m (gruOfHome (homeOf (m.addr / 64))) [line] = (.done, e) →
        d.reduceGo ring idx m v n (line :: rest) = e.reduceGo ring idx m v (n + 1) rest) ∧
      (∀ e, d.reduceLines m (gruOfHome (homeOf (m.addr / 64))) [line] = (.poisoned, e) →
        d.reduceGo ring idx m v n (line :: rest) = e.completeDesc ring idx stPoisoned 0 0 n))) ∧
  (∀ (s : State) (ring idx n : Nat) (b : List Byte) (l : List (List Byte)) (e : Dev), s.dev.ready ring idx 0x42 b → admits s.dev ring false [19] →
    n = clampGrain 32 32 1048576 (field b 48 4) → l = stockRecords.take (n / 32) →
    e = (if n = field b 48 4 then s.dev.begun ring idx else (s.dev.begun ring idx).clamped 6 0) →
    Makes (.stockList ring idx) s (e.output (.desc ring idx) (field b 40 8) ((l.map fun r => slice r 0 32).flatten)
      stDone 0 stockRecords.length l.length (unit := 32)))

/-- Chapter 9: lookups and reduces of the gather-reduce units, and STOCK_LIST. -/
def Obligations.LookupsAndReduces : Prop :=
  Says.Lookups ∧ Says.ReducesAndStock

/-- R212, R213: ABORT of a started abortable operation stops it, and completes DONE once the record of what it stopped is written; of one
that is not abortable it is DENIED 0x38, of one that has completed ALREADY_DONE, of another owner's ring or one that takes no
descriptors DENIED 5, of an index out of reach or of an ABORT DENIED 0x37; one not yet fetched is waited for, and one fetched and not
started is ended ABORTED. -/
def Sys2Proof.Says.Aborts : Prop :=
  (∀ (s : State) (ring idx : Nat) (b : List Byte),
    let d := s.dev.begun ring idx
    let t := abortTarget b
    let r := d.ring t.1
    let ahead := (r.prod + 2 ^ 32 - t.2) % 2 ^ 32
    let wait := { d with jobs := { d.jobs with abortWaits := d.jobs.abortWaits ++ [(ring, idx)] } }
    s.dev.ready ring idx 0x21 b → admits s.dev ring false [] →
    (s.dev.ringOwner t.1 ≠ s.dev.ringOwner ring ∨ r.kind ≠ 0 → Completes (.abort ring idx) s ring idx d stDenied 5 0 0) ∧
    (s.dev.ringOwner t.1 = s.dev.ringOwner ring → r.kind = 0 →
      (ahead = 0 ∨ 2 ^ 31 < ahead → Completes (.abort ring idx) s ring idx d stDenied 0x37 0 0) ∧
      (0 < ahead → ahead ≤ 2 ^ 31 → ahead ≤ r.used → Makes (.abort ring idx) s wait) ∧
      (∀ c, 0 < ahead → ahead ≤ 2 ^ 31 → r.used < ahead → r.waiting = some (t.2, c) →
        (dOpcode c = 0x21 → Completes (.abort ring idx) s ring idx d stDenied 0x37 0 0) ∧
        (dOpcode c ≠ 0x21 → Makes (.abort ring idx) s (wait.abortWaiting t.1))) ∧
      (0 < ahead → ahead ≤ 2 ^ 31 → r.used < ahead → (∀ c, r.waiting = some c → c.1 ≠ t.2) →
        (d.startedAt t.1 t.2 = none → Completes (.abort ring idx) s ring idx d stAlreadyDone 0 0 0) ∧
        (∀ x, d.startedAt t.1 t.2 = some x →
          (x.op = 0x21 → Completes (.abort ring idx) s ring idx d stDenied 0x37 0 0) ∧
          (x.op ≠ 0x21 → d.claimedEnd t.1 t.2 = true → Completes (.abort ring idx) s ring idx d stAlreadyDone 0 0 0) ∧
          (x.op ≠ 0x21 → d.claimedEnd t.1 t.2 = false → abortable x.op = false →
            Completes (.abort ring idx) s ring idx d stDenied 0x38 0 0) ∧
          (x.op ≠ 0x21 → d.claimedEnd t.1 t.2 = false → abortable x.op = true →
            Makes (.abort ring idx) s ((d.stopOp t.1 t.2 3).abortWon ring idx t.1 t.2)))))) ∧
  (∀ (d : Dev) (ring idx tr ti : Nat), d.jobs.abortEnds = [] →
    (d.recordOwed tr ti = true → d.abortWon ring idx tr ti = { d with jobs := { d.jobs with abortEnds := [(ring, idx, tr, ti)] } }) ∧
    (d.recordOwed tr ti = false → d.abortWon ring idx tr ti = d.completeDesc ring idx stDone 0 0 0)) ∧
  (∀ (d : Dev) (n i : Nat) (b : List Byte), (d.ring n).waiting = some (i, b) → d.slotFor (d.recordRing n b).1 = false →
    d.abortWaiting n = d.setRing n fun r => { r with waitAborted := true })

/-- R76 to R80 and the rules of ABORT: descriptors are fetched, started, completed or aborted. -/
def Obligations.DescriptorsAndRecords : Prop :=
  Says.DescriptorsAreFetchedAndStarted ∧ Says.CompletionRecords ∧ Says.NopsAndOutputs ∧ Says.Aborts

/-! ## Movers and translation (chapter 10) -/

/-- R235 to R239, R241, R248: a COPY or FILL that is admitted is handed to the movers, each field that was clamped counted, and one that
Table 10.3 refuses is DENIED. The data of a step comes from the host as it answers, from the pool through its homes, or from the
pattern, and is written to the host, to the pool or to a client; the next step follows, or the descriptor is done with its progress. A
step that met RETRY goes on after the hint; a host read that fails ends the descriptor DEVICE_ERROR, and any other failure ends
it with the side and the address of the step. -/
def Obligations.MoverSteps : Prop :=
  (∀ (s : State) (ring idx : Nat) (b : List Byte) (fill : Bool) (i : Instr) (op : Nat) (w : MoverWork) (e : Dev),
    (fill, i, op) ∈ [(false, Instr.copy ring idx, 0x30), (true, Instr.fill ring idx, 0x31)] →
    w = moverOf ring idx (s.dev.ringOwner ring) fill b → s.dev.ready ring idx op b → admits s.dev ring (w.dstKind == 0) [] →
    e = (List.range (moverClamps fill b)).foldl (fun d _ => d.clamped 7 0) (s.dev.begun ring idx) →
    (e.moverRefused w = none → Makes i s (e.moverTake w)) ∧
    (∀ det, e.moverRefused w = some det → Completes i s ring idx e stDenied det 0 0)) ∧
  (∀ (d : Dev) (w : MoverWork), nmem d.boot.dead 10 = false →
    d.moverTake w = ({ d with mov := { d.mov with waitingWork := d.mov.waitingWork ++ [w] } } : Dev).moverAssign 32) ∧
  (∀ (s : State) (k : Nat) (w : MoverWork), (s.dev.mover k).work = some w → w.phase = 1 → w.retryAt = none →
    (∀ b, w.srcKind = 1 → Makes (.moverStepData k (.data b)) s (s.dev.gotData k (slice b 0 w.stepLen))) ∧
    (w.srcKind = 1 → Makes (.moverStepData k .failed) s (s.dev.moverFail k 0 stDeviceError 2)) ∧
    (∀ a, w.srcKind ≠ 1 → w.srcKind ≠ 2 → Makes (.moverStepData k a) s (s.dev.moverRead k))) ∧
  (∀ (s : State) (k t : Nat) (w w' : MoverWork), (s.dev.mover k).work = some w → w.retryAt = some t → w' = { w with retryAt := none } →
    let e := (s.dev.till t).setWork k w'
    (w.phase = 2 → Makes (.moverReissue k) s (e.moverWrite k)) ∧
    (w.phase ≠ 2 → w.srcKind = 2 → Makes (.moverReissue k) s (e.issueRead k w')) ∧
    (w.phase ≠ 2 → w.srcKind ≠ 2 → Makes (.moverReissue k) s (e.moverRead k))) ∧
  (∀ (d : Dev) (k : Nat) (w : MoverWork), (d.mover k).work = some w →
    (w.kind = 1 → d.moverRead k =
      d.gotData k ((List.range w.stepLen).map fun i => (natBytes 8 w.src).getD ((w.offset + i) % 8) 0)) ∧
    (w.kind ≠ 1 →
      (∀ b e, d.readRun (some w.node) (w.src + w.offset) w.stepLen true = (.ok b, e) → d.moverRead k = e.gotData k b) ∧
      (∀ h e, d.readRun (some w.node) (w.src + w.offset) w.stepLen true = (.again h, e) →
        d.moverRead k = e.setWork k { w with retryAt := some (e.now + hintTicks h) }) ∧
      (∀ st det e, d.readRun (some w.node) (w.src + w.offset) w.stepLen true = (.no st det, e) → d.moverRead k = e.moverFail k 0 st det)) ∧
    (∀ bs e, w.kind ≠ 2 → e = (if w.isHost 0 = true ∧ w.isHost 1 = false then d.moverAck k else d) →
      d.gotData k bs = (e.setWork k { w with phase := 2, buffer := bs, wrote := 0, parts := [] }).moverWrite k) ∧
    (∀ x, w.dstKind = 1 → d.xctxOf w.xctx = some x → d.moverWrite k = (d.emit (.hostStore x.port w.dstHost w.buffer)).stepEnd k) ∧
    (w.dstKind = 0 →
      let a := w.dst + w.dstDone + w.wrote
      (∀ n b e, d.writeBytes (some w.node) a (w.buffer.drop w.wrote) true = (n, .ok b, e) →
        d.moverWrite k = (e.moverStash w a n).stepEnd k) ∧
      (∀ n h e, d.writeBytes (some w.node) a (w.buffer.drop w.wrote) true = (n, .again h, e) →
        d.moverWrite k = (e.moverStash w a n).setWork k { w with wrote := w.wrote + n, retryAt := some (e.now + hintTicks h) }) ∧
      (∀ n st det e, d.writeBytes (some w.node) a (w.buffer.drop w.wrote) true = (n, .no st det, e) →
        d.moverWrite k = ((e.moverStash w a n).setWork k { w with wrote := w.wrote + n }).moverFail k 1 st det)) ∧
    (∀ m rest, w.dstKind = 2 → bulkWrites d.ownNode w.dstNode (w.dst + w.dstDone) 0 w.buffer = m :: rest → d.canSend (m, 2, k) = true →
      d.moverWrite k = (d.request m 2 k).2.sendRest k (d.request m 2 k).1) ∧
    (w.kind ≠ 2 → w.length ≤ w.dstDone + w.stepLen →
      ∃ e : Dev, d.stepEnd k = (e.completeDesc w.ring w.idx stDone 0 0 ((w.dstDone + w.stepLen) / 64)).moverAssign 32 ∧
        (e.mover k).work = none) ∧
    (w.kind ≠ 2 → w.dstDone + w.stepLen < w.length → d.stepEnd k = ((d.moverAck k).setWork k { w with
      offset := w.offset + w.stepLen, dstDone := w.dstDone + w.stepLen, phase := 0, buffer := [], wrote := 0 }).moverNext k) ∧
    (∀ side st cause, d.moverFail k side st cause = d.moverEnd k st (cause % 32768 + side * 32768) (w.sideAddr side)))

/-- R240 to R248: an ATS completion's translation is held, and the step goes on if it is granted, and faults if not; one that an
invalidation made stale is asked for again. A walk reads its table's entry as its port, goes down one level, holds the leaf it finds, or
is refused; a read answered RETRY goes again. A page request's response resumes or fails the record's waiters, its timeout
fails them; PRI Enable lets a stopped port raise again; XCTX_SET sets or clears a context its port may have, and INVALIDATE and a port's
Invalidate Request remove what the cache holds of a range, each complete when no mover still uses it; FAULT_RESOLVE resumes or fails the
record's waiters. What its checks refuse ends DENIED. -/
def Sys2Proof.Says.Translation : Prop :=
  (∀ (s : State) (k : Nat) (w : MoverWork) (x : Xctx), (s.dev.mover k).work = some w → (s.dev.mover k).atsOut = true →
    s.dev.xctxOf w.xctx = some x →
    (∀ a, (s.dev.mover k).stale = true →
      Makes (.atsTranslationCompletion k a) s (s.dev.atsRequest k x (w.sideAddr w.wantSide) (w.wantSide == 1))) ∧
    (∀ t, (s.dev.mover k).stale = false →
      Makes (.atsTranslationCompletion k (some t)) s ((s.dev.holdTranslation w.xctx (w.sideAddr w.wantSide) t).translated k)) ∧
    ((s.dev.mover k).stale = false → Makes (.atsTranslationCompletion k none) s (s.dev.translated k))) ∧
  (∀ (d : Dev) (k : Nat) (w : MoverWork), (d.mover k).work = some w →
    let e := d.setMover k fun m => { m with walk := none, atsOut := false, stale := false }
    ((e.sideGrant w w.wantSide).isSome = true → d.translated k = e.moverNext k) ∧
    (e.sideGrant w w.wantSide = none → d.translated k = e.moverFault k)) ∧
  (∀ (d : Dev) (k : Nat) (w : MoverWork) (x : Xctx), (d.mover k).work = some w → d.xctxOf w.xctx = some x →
    let e := d.setMover k fun m => { m with walk := none, atsOut := false, stale := false }
    (x.faultPath = 2 → d.moverFault k = e.moverFaulted k 5) ∧
    (x.faultPath ≠ 2 → d.fld 0x300000 0 4 ≤ w.rounds → d.moverFault k = e.moverFaulted k 6)) ∧
  (∀ (s : State) (k : Nat) (wk : Walk), (s.dev.mover k).walk = some wk →
    (wk.retryAt = none → wk.waiting = false → Makes (.walkerReadAnswer k) s (s.dev.walkRead k).walksGo) ∧
    (∀ t, wk.retryAt = some t → Makes (.walkerReissue k) s ((s.dev.till t).walkRead k).walksGo)) ∧
  (∀ (d : Dev) (k a : Nat) (w : MoverWork) (wk : Walk) (x : Xctx), (d.mover k).work = some w → (d.mover k).walk = some wk →
    d.xctxOf w.xctx = some x → a = wk.table + 8 * bits wk.va (12 + 9 * (wk.level - 1)) 9 →
    (∀ b e, d.lineRead (some (portNode x.port)) (a / 64) true = (.ok b, e) → d.walkRead k = e.walkEntry k w x wk (field b (a % 64) 8)) ∧
    (∀ h e, d.lineRead (some (portNode x.port)) (a / 64) true = (.again h, e) →
      d.walkRead k = e.setMover k fun m => { m with walk := some { wk with retryAt := some (e.now + hintTicks h) } }) ∧
    (∀ st det e, d.lineRead (some (portNode x.port)) (a / 64) true = (.no st det, e) → d.walkRead k = e.moverFaulted k 7)) ∧
  (∀ (d : Dev) (k size e : Nat) (w : MoverWork) (x : Xctx) (wk : Walk), size = (if wk.level = 3 then 2 ^ 30 else if wk.level = 2 then 2 ^ 21 else 4096) →
    let addr := bits e 12 40 * 4096
    let leaf := wk.level = 1 ∨ (wk.level < 4 ∧ bit e 2 = true)
    let good := bit e 0 = true ∧ bits e 52 12 = 0 ∧ bits e 3 9 = 0 ∧ ¬ (wk.level = 4 ∧ bit e 2 = true)
    (¬ good → d.walkEntry k w x wk e = d.walkRefused k x wk) ∧
    (good → ¬ leaf → 2 ^ 48 ≤ addr → d.walkEntry k w x wk e = d.walkRefused k x wk) ∧
    (∀ wk', good → ¬ leaf → addr < 2 ^ 48 →
      wk' = { wk with level := wk.level - 1, table := addr, allW := wk.allW && bit e 1, retryAt := none } →
      d.walkEntry k w x wk e = d.setMover k fun m => { m with walk := some wk' }) ∧
    (good → leaf → addr % size ≠ 0 → d.walkEntry k w x wk e = d.walkRefused k x wk) ∧
    (∀ ent : XEntry, good → leaf → addr % size = 0 →
      ent = { ctx := w.xctx, page := wk.va / size * size, size := size, host := addr, read := true, write := wk.allW && bit e 1 } →
      (wk.write = false ∨ ent.write = true → d.walkEntry k w x wk e = (d.xinsert ent).translated k) ∧
      (wk.write = true → ent.write = false → d.walkEntry k w x wk e = (d.xinsert ent).walkRefused k x wk)) ∧
    (x.service = 2 → d.walkRefused k x wk = d.atsRequest k x wk.va wk.write) ∧ (x.service ≠ 2 → d.walkRefused k x wk = d.moverFault k)) ∧
  (∀ (s : State) (p i : Nat) (f : FaultRec), tget s.dev.mov.faults i = some f →
    (f.path = 0 → f.raised.isSome = true → f.port = p →
      Makes (.priGroupResponse p i 0) s (s.dev.resumeRecord i) ∧ Makes (.priGroupResponse p i 1) s (s.dev.failRecord i 2) ∧
      ∀ code, 2 ≤ code → Makes (.priGroupResponse p i code) s ((s.dev.setPri p fun q => { q with stopped := true }).failRecord i 3)) ∧
    (∀ t, f.raised = some t → Makes (.faultTimeout i) s ((s.dev.till t).failRecord i 1))) ∧
  (∀ (s : State) (ring idx i : Nat) (b : List Byte) (e : Dev), s.dev.ready ring idx 0x34 b → admits s.dev ring false [15] → i = field b 8 2 % 256 →
    e = (if 1 < field b 10 1 then (s.dev.begun ring idx).clamped 7 0 else s.dev.begun ring idx) →
    let mine := fun (f : FaultRec) => f.path = 1 ∧ f.raised.isSome = true ∧
      (e.xctxOf f.ctx).map (fun x => portNode x.port) = some (e.ringOwner ring)
    ((∀ f, tget s.dev.mov.faults i = some f → ¬ mine f) → Completes (.faultResolve ring idx) s ring idx e stDenied 0x54 0 0) ∧
    (∀ f, tget s.dev.mov.faults i = some f → mine f →
      (field b 10 1 = 0 → Completes (.faultResolve ring idx) s ring idx (e.resumeRecord i) stDone 0 0 f.waiters.length) ∧
      (field b 10 1 ≠ 0 → Completes (.faultResolve ring idx) s ring idx (e.failRecord i 4) stDone 0 0 0))) ∧
  (∀ (s : State) (p n : Nat) (on : Bool), Makes (.priEnableWrite p on n) s
    (s.dev.setPri p fun q => { q with enabled := on, allocation := n, stopped := q.stopped && !(on && !q.enabled) }).recordClosed) ∧
  (∀ (s : State) (ring idx : Nat) (b : List Byte) (x : Xctx) (e : Dev), s.dev.ready ring idx 0x32 b → admits s.dev ring false [] →
    x = { port := (nodePort (s.dev.ringOwner ring)).getD 0, service := if field b 9 1 ≤ 2 then field b 9 1 else 0,
          faultPath := if field b 10 1 ≤ 2 then field b 10 1 else 2, pasid := field b 12 4 % 2 ^ 20, pasidEn := bit (field b 12 4) 31,
          root := field b 16 8 } →
    e = (List.range (b2n (2 < field b 9 1) + b2n (2 < field b 10 1) + b2n (1 < field b 11 1))).foldl (fun d _ => d.clamped 7 0)
      (s.dev.begun ring idx) →
    (∀ st det, e.xctxRefused (s.dev.ringOwner ring) (field b 8 1) x = some (st, det) →
      Completes (.xctxSet ring idx) s ring idx e st det 0 0) ∧
    (e.xctxRefused (s.dev.ringOwner ring) (field b 8 1) x = none →
      Makes (.xctxSet ring idx) s (({ e with mov := { e.mov with
        xctx := if field b 11 1 ≠ 0 then tput e.mov.xctx (field b 8 1) x else tdel e.mov.xctx (field b 8 1) } } : Dev).invalidate
          [field b 8 1] 0 (2 ^ 64) x.port (some (.desc ring idx)) false))) ∧
  (∀ (s : State) (ring idx n : Nat) (b : List Byte) (e : Dev), s.dev.ready ring idx 0x33 b → admits s.dev ring false [] →
    n = clampGrain 4096 4096 (2 ^ 48) (field b 24 8) →
    let all := bit (field b 9 1) 0
    let c := field b 8 1
    e = (if n = field b 24 8 ∨ all = true then s.dev.begun ring idx else (s.dev.begun ring idx).clamped 7 0) →
    (nodePort (s.dev.ringOwner ring) = none → Completes (.invalidate ring idx) s ring idx e stDenied 0x50 0 0) ∧
    (∀ p, nodePort (s.dev.ringOwner ring) = some p →
      ((s.dev.xctxOf c).map (·.port) ≠ some p → Completes (.invalidate ring idx) s ring idx e stDenied 0x51 0 0) ∧
      ((s.dev.xctxOf c).map (·.port) = some p →
        (all = false → field b 16 8 % 4096 ≠ 0 → Completes (.invalidate ring idx) s ring idx e stDenied 0x20 0 0) ∧
        (all = true → Makes (.invalidate ring idx) s (e.invalidate [c] 0 (2 ^ 64) p (some (.desc ring idx)) true)) ∧
        (all = false → field b 16 8 % 4096 = 0 →
          Makes (.invalidate ring idx) s (e.invalidate [c] (field b 16 8) n p (some (.desc ring idx)) true))))) ∧
  (∀ (s : State) (p base len : Nat) (pasid : Option Nat) (cs : List Nat),
    cs = (s.dev.mov.xctx.filter fun e => e.2.port == p && match pasid with
      | some q => e.2.pasidEn && e.2.pasid == q
      | none => true).map (·.1) →
    Makes (.atsInvalidateRequest p pasid base len) s (s.dev.invalidate cs base len p none true)) ∧
  (∀ (d : Dev) (cs : List Nat) (base len p : Nat) (c : Option Caller) (count : Bool),
    ∀ e ∈ (d.invalidate cs base len p c count).mov.cache, e ∈ d.mov.cache ∧ (e.ctx ∈ cs → meets e.page e.size base len = false)) ∧
  (∀ (s : State) (n : Nat) (v : Invalidation) (d : Dev), tget s.dev.mov.invs n = some v → v.movers = [] →
    d = { s.dev with mov := { s.dev.mov with invs := tdel s.dev.mov.invs n } } →
    (v.caller = none → Makes (.invalidationDone n) s (d.emit (.pcie v.port 2 [n]))) ∧
    (∀ ring idx, v.caller = some (.desc ring idx) → Completes (.invalidationDone n) s ring idx d stDone 0 0 v.removed))

/-- R249, R250, R253: TIER_HINT with PROMOTE asks for every skein of its range that is not cached or still on its way, with DEMOTE sends
those away that may go, now or once they may, and with KEEP, or an ACTION it is clamped to, sets the counters of those that are cached;
without the region, the right or a backed region it is DENIED. The decay halves every counter. -/
def Sys2Proof.Says.TierHints : Prop :=
  (∀ (s : State) (ring idx act first last : Nat) (b : List Byte) (e : Dev),
    let d := s.dev.begun ring idx
    let h := dHandle b
    s.dev.ready ring idx 0x35 b → admits s.dev ring false [7] → act = (if field b 24 1 ≤ 2 then field b 24 1 else 2) →
    e = (if 2 < field b 24 1 then d.clamped 7 0 else d) →
    (s.dev.liveRegion h = none → Completes (.tierHint ring idx) s ring idx e stDenied
      (if (nodePort (s.dev.ringOwner ring)).isSome then 0x0A else 0) 0 0) ∧
    (∀ r g, s.dev.liveRegion h = some r → first = min (field b 16 4) (r.count - 1) → last = min (field b 20 4) (r.count - 1) →
      g = (let g := if first ≠ field b 16 4 then e.clamped 7 0 else e; if last ≠ field b 20 4 then g.clamped 7 0 else g) →
      (s.dev.holds (s.dev.ringOwner ring) h rightR = false → Completes (.tierHint ring idx) s ring idx g stDenied 0 0 0) ∧
      (s.dev.holds (s.dev.ringOwner ring) h rightR = true → r.backed = false → Completes (.tierHint ring idx) s ring idx g stDenied 1 0 0) ∧
      (s.dev.holds (s.dev.ringOwner ring) h rightR = true → r.backed = true →
        let all := rangeSkeins r.base first last
        (∀ l, act = 2 → l = (all.filter fun sk => (tget g.far.cached sk).isSome) →
          Completes (.tierHint ring idx) s ring idx { g with
            mov := { g.mov with counters := l.foldl (fun t sk => tput t sk 0xFFFF) g.mov.counters } } stDone 0 0 l.length) ∧
        (∀ l busy, act = 1 → l = (all.filter fun sk => match tget g.far.cached sk with
            | some x => x.state != 0 && !(x.state == 1 && g.keptDirty sk x)
            | none => false) → busy = l.filter (g.hintPending false) →
          Makes (.tierHint ring idx) s ({ g with mov := { g.mov with hints := g.mov.hints ++
            [{ ring := ring, idx := idx, left := busy, todo := l.filter fun sk => !nmem busy sk, total := l.length }] } } : Dev).hintsGo) ∧
        (∀ l, act = 0 → l = (all.filter fun sk => match tget g.far.cached sk with
            | some x => x.state == 0
            | none => true) →
          Makes (.tierHint ring idx) s ({ g with mov := { g.mov with hints := g.mov.hints ++
            [{ ring := ring, idx := idx, left := l, total := l.length }] } } : Dev).hintsGo)))) ∧
  (∀ (s : State) (d : Dev), d = s.dev.till s.dev.mov.nextDecay →
    Makes .counterDecay s { d with mov := { d.mov with
      counters := halve d.mov.counters, sketch := halve d.mov.sketch, nextDecay := d.now + msTicks (d.fld 0x300008 16 16) } }) ∧
  (∀ (t : Tbl Nat), (∀ e ∈ t, 2 ≤ e.2 → (e.1, e.2 / 2) ∈ halve t) ∧ ∀ e ∈ halve t, ∃ x ∈ t, x.1 = e.1 ∧ e.2 = x.2 / 2)

/-- R240 to R248, R250 to R256: translations and their faults, and the hints about tiers. -/
def Obligations.TranslationAndTiers : Prop :=
  Says.Translation ∧ Says.TierHints

/-! ## The far tier (chapter 11) -/

/-- A far-tier descriptor of a management host with FAR_TIER, and the lease where the operation needs it (R268). -/
abbrev Sys2Proof.farReady (d : Dev) (ring idx op : Nat) (b : List Byte) (lease : Bool) : Prop :=
  d.ready ring idx op b ∧ admits d ring false [7] ∧ (nodePort (d.ringOwner ring)).isSome = true ∧
  (lease = true → d.hasLease (d.ringOwner ring) = true)

/-- R255 to R259, R266 to R268: a root port's link trains with its partner, controllers that come into sight are FOUND, and those that go
are gone; DRIVE_ADOPT of one that passes Table 11.3 sets it up under its number and deallocates its namespace, and is DENIED with the
step that fails; DRIVE_RETIRE of an ACTIVE drive makes it RETIRING and writes back what it holds the only clean copy of, of a FAILED
one frees its number once nothing depends on it alone, and otherwise is DENIED 9; a drive with no such number is DENIED 0x60; DRIVE_LIST
writes the drives' records, DRIVE_LOG asks the drive for its page, DEVICE_ERROR 1 of a FAILED one; FAR_FLUSH writes back its region's
dirty skeins. Fields that are clamped are counted. A client is DENIED 0x50, and without the lease adoption and retirement are DENIED 8. -/
def Sys2Proof.Says.Drives : Prop :=
  (∀ (s : State) (p : Nat) (partner : Option (Nat × Nat)) (found l : List DriveInfo) (here : Tbl Drive) (d : Dev),
    s.dev.rootServes p = true → l = (if partner.isSome then found else []) → d = s.dev.dnTrain p partner →
    here = s.dev.far.drives.filter (·.2.port == p) →
    let same := fun (v : Drive) (i : DriveInfo) => v.rid == i.rid && v.serial == i.serial
    Makes (.presenceChange p partner found) s
      (forEach (l.filter fun i => !(here.any fun e => same e.2 i)) (fun i d => d.driveSeen p i)
        (forEach (here.filter fun e => !e.2.present && l.any (same e.2)) (fun e d => d.drivePresent e.1 true)
          (forEach (here.filter fun e => e.2.present && !(l.any (same e.2))) (fun e d => d.driveGone e.1 e.2) d)))) ∧
  (∀ (d : Dev) (k : Nat) (v : Drive), (v.state = 1 → d.driveGone k v = d.driveAbsent k) ∧
    (v.state = 3 ∨ v.state = 4 → d.driveGone k v = (d.drivePresent k false).driveFailed k)) ∧
  (∀ (s : State) (ring idx : Nat) (b : List Byte),
    let d := s.dev.begun ring idx
    let n := field b 12 1 % 32
    (∀ len e l, farReady s.dev ring idx 0x50 b false → len = clampGrain 64 64 4096 (field b 48 4) →
      e = (if len = field b 48 4 then d else d.clamped 8 0) → l = e.far.drives.take (len / 64) →
      Makes (.driveList ring idx) s (e.output (.desc ring idx) (dOutAddr b) ((l.map fun x => e.driveRecord x.1 x.2).flatten) stDone 0
        l.length l.length (unit := 64))) ∧
    (farReady s.dev ring idx 0x51 b true →
      (tfind d.far.drives fun _ v => v.port == field b 8 1 % 4 && v.rid == field b 10 2 && v.present) = none →
      Completes (.driveAdopt ring idx) s ring idx d stDenied 0x60 0 0) ∧
    (∀ k v, farReady s.dev ring idx 0x51 b true →
      (tfind d.far.drives fun _ v => v.port == field b 8 1 % 4 && v.rid == field b 10 2 && v.present) = some (k, v) →
      (∀ step, d.adoptRefused k v n (field b 16 4) = some step → Completes (.driveAdopt ring idx) s ring idx d stDenied (0x70 + step) 0 0) ∧
      (∀ x e o, d.adoptRefused k v n (field b 16 4) = none → v.space (field b 16 4) = some x →
        e = ((d.deleteQueues k).driveAt k n x).driveEvent n →
        o = ({ ring := ring, idx := idx, drive := some n, adopt := true, stage := 3 } : FarOp) →
        Makes (.driveAdopt ring idx) s (({ e with far := { e.far with ops := e.far.ops ++ [o] } } : Dev).opIssue o n 3 524288))) ∧
    (farReady s.dev ring idx 0x52 b true → s.dev.drive n = none → Completes (.driveRetire ring idx) s ring idx d stDenied 0x60 0 0) ∧
    (∀ v, farReady s.dev ring idx 0x52 b true → s.dev.drive n = some v →
      (v.state = 5 → d.soleExtents n ≠ [] → Completes (.driveRetire ring idx) s ring idx d stDenied 9 (d.soleExtents n).length 0) ∧
      (v.state = 5 → d.soleExtents n = [] → ∃ e : Dev, e.far.drives = d.far.drives ∧
        Completes (.driveRetire ring idx) s ring idx (e.driveAbsent n) stDone 0 0 0) ∧
      (v.state ≠ 5 → v.state ≠ 3 → Completes (.driveRetire ring idx) s ring idx d stDenied 9 0 0) ∧
      (∀ e l o, v.state = 3 → e = d.driveState n 4 →
        l = (e.far.cached.filter fun x => x.2.dirty && 0 < x.2.state && nmem (e.emtOf (x.1 / 512)).drives n) →
        o = ({ ring := ring, idx := idx, drive := some n, skeins := l.map (·.1) } : FarOp) →
        Makes (.driveRetire ring idx) s (forEach (l.filter (·.2.state == 1)) (fun x d => d.writeBackStart x.1 3)
          ({ e with far := { e.far with ops := e.far.ops ++ [o] } } : Dev)).farGo)) ∧
    (∀ e, farReady s.dev ring idx 0x53 b false → e = (if field b 13 1 = 1 ∨ field b 13 1 = 2 then d else d.clamped 8 0) →
      (s.dev.drive n = none → Completes (.driveLog ring idx) s ring idx e stDenied 0x60 0 0) ∧
      (∀ v, s.dev.drive n = some v →
        (v.state = 5 → Completes (.driveLog ring idx) s ring idx e stDeviceError 1 0 0) ∧
        (v.state ≠ 5 → Makes (.driveLog ring idx) s
          (e.nvmeIssue n 4 noSkein (if field b 13 1 = 1 then 1 else 2) 0 (some (.desc ring idx)))))) ∧
    (farReady s.dev ring idx 0x54 b false →
      (s.dev.liveRegion (dHandle b) = none → Completes (.farFlush ring idx) s ring idx d stDenied 0x0A 0 0) ∧
      (∀ r, s.dev.liveRegion (dHandle b) = some r →
        (s.dev.holds (s.dev.ringOwner ring) (dHandle b) rightW = false → Completes (.farFlush ring idx) s ring idx d stDenied 0 0 0) ∧
        (s.dev.holds (s.dev.ringOwner ring) (dHandle b) rightW = true → r.backed = false →
          Completes (.farFlush ring idx) s ring idx d stDenied 1 0 0) ∧
        (s.dev.holds (s.dev.ringOwner ring) (dHandle b) rightW = true → r.backed = true →
          Makes (.farFlush ring idx) s ((d.repAdminOp b (zeros 12 ++ natBytes 4 6) [] (s.dev.ringOwner ring) 0).flushRegion ring idx r)))) ∧
    (∀ i op, (i, op) ∈ [(Instr.driveList ring idx, 0x50), (.driveAdopt ring idx, 0x51), (.driveRetire ring idx, 0x52),
        (.driveLog ring idx, 0x53), (.farFlush ring idx, 0x54)] → s.dev.ready ring idx op b → admits s.dev ring false [7] →
      (nodePort (s.dev.ringOwner ring) = none → Completes i s ring idx d stDenied 0x50 0 0) ∧
      ((nodePort (s.dev.ringOwner ring)).isSome = true → op = 0x51 ∨ op = 0x52 → s.dev.hasLease (s.dev.ringOwner ring) = false →
        Completes i s ring idx d stDenied 8 0 0)))

/-- R257, R262 to R265, R268, R269, R312: a Read that succeeds brings its skein's bytes into its slot, a Write that succeeds ends its part
of a write-back, a deallocation clears its slot, a log page goes to its requester; a command that fails or exceeds the timeout it was
sent with counts against its drive and is issued once more, and a drive with too many fails; of an asynchronous event the log pages
are read, and a critical warning fails an adopted drive. A standby goes on with its records. -/
def Sys2Proof.Says.NvmeCommands : Prop :=
  (∀ (s : State) (n : Nat) (c : NvmeCmd) (page : List Byte), tget s.dev.far.cmds n = some c → c.sent = true →
    Makes (.nvmeCompletion n true page) s (s.dev.cmdDone n c page).mirResume ∧
    Makes (.nvmeCompletion n false page) s (s.dev.cmdFailed n c).mirResume ∧
    Makes (.nvmeCommandTimeout n) s ((s.dev.till c.deadline).cmdFailed n c).mirResume) ∧
  (∀ (d e : Dev) (n : Nat) (c : NvmeCmd) (page : List Byte),
    e = ({ d.cmdOver n with far := { (d.cmdOver n).far with
      drives := tmod (d.cmdOver n).far.drives c.drive fun v => { v with fails := 0 } } } : Dev) →
    (c.kind = 0 → d.cmdDone n c page = (e.skeinRead c).farGo) ∧ (c.kind = 1 → d.cmdDone n c page = (e.skeinWritten c).farGo) ∧
    (c.kind = 3 → c.skein = noSkein → d.cmdDone n c page = (e.clearSlot c.drive c.slot).farGo) ∧
    (∀ x, c.kind = 4 → c.caller = some x → d.cmdDone n c page =
      (e.output x (dOutAddr (e.callerBytes x)) (slice page 0 512) stDone 0 0 512 (unit := 1)).farGo)) ∧
  (∀ (d e : Dev) (c : NvmeCmd) (x : Skein) (v : Drive), tget d.far.cached c.skein = some x → d.drive c.drive = some v → x.state = 0 →
    x.cancelled = false → (d.emtOf (c.skein / 512)).kind = 2 →
    e = ({ d with far := { d.far with drives := tput d.far.drives c.drive { v with times := ((d.now - c.issued) :: v.times).take 64 } } } :
      Dev).loadSkein c.drive c.slot c.skein x.slot →
    d.skeinRead c = ({ e with far := { e.far with cached := tput e.far.cached c.skein { x with ready := true } } } : Dev).installReady) ∧
  (∀ (d e : Dev) (n : Nat) (c : NvmeCmd) (v : Drive), (d.bump 0x380008 16).drive c.drive = some v →
    e = ({ d.bump 0x380008 16 with far := { (d.bump 0x380008 16).far with
      drives := tput (d.bump 0x380008 16).far.drives c.drive { v with fails := v.fails + 1 } } } : Dev) →
    (v.state = 3 ∨ v.state = 4 → (d.bump 0x380008 16).fld 0x380000 12 4 ≤ v.fails + 1 → d.cmdFailed n c = e.driveFailed c.drive) ∧
    ((v.state ≠ 3 ∧ v.state ≠ 4) ∨ v.fails + 1 < (d.bump 0x380008 16).fld 0x380000 12 4 →
      (c.kind = 0 ∨ c.kind = 1 → c.attempt = 0 → d.cmdFailed n c = (e.cmdOver n).nvmeIssue c.drive c.kind c.skein c.slot 1) ∧
      (∀ x, c.kind = 4 → c.caller = some x → d.cmdFailed n c = ((e.cmdOver n).complete x stDeviceError 1 0 0).farGo))) ∧
  (∀ (s : State) (k : Nat) (critical : Bool) (v : Drive) (d : Dev), s.dev.drive k = some v → 2 ≤ v.state → v.state ≤ 4 →
    d = (s.dev.nvmeIssue k 4 noSkein 1 0).nvmeIssue k 4 noSkein 2 0 →
    (critical = false ∨ v.state = 2 → Makes (.nvmeAsyncEvent k critical) s d) ∧
    (critical = true → v.state ≠ 2 → Makes (.nvmeAsyncEvent k critical) s (d.driveFailed k).mirResume)) ∧
  (∀ (d : Dev), (d.mir.role < 2 → d.mirResume = d) ∧ (d.mir.role = 2 ∨ d.mir.role = 3 → d.mirResume = d.mirGo))

/-- Chapter 11: drives are found, adopted and retired, and NVMe commands end or time out. -/
def Obligations.DrivesAndCommands : Prop :=
  Says.Drives ∧ Says.NvmeCommands

/-- R261, R262: a fetched skein's slot holds, byte for byte, what the drive's slot holds of it where that was written under the skein's own
pool address, and every other byte of the near tier is as it was; what a write-back has stored, a fetch brings back. -/
def Obligations.FetchedSkeinsHoldWhatTheDriveHolds : Prop :=
  (∀ (d : Dev) (drive slot sk near : Nat), Memory.wf d.mem = true → Memory.wf d.far.media = true →
    let t := d.loadSkein drive slot sk near
    ((∀ j < 16, ∀ w, tget d.far.tweaks (mediaKey drive slot / 4096 + sk % 512 * 16 + j) = some w → w = sk * 16 + j) →
      ∀ i < 65536, memGet t.mem (near * 65536 + i) = memGet d.far.media (mediaKey drive slot + sk % 512 * 65536 + i)) ∧
    (∀ a, a < near * 65536 ∨ near * 65536 + 65536 ≤ a → memGet t.mem a = memGet d.mem a)) ∧
  (∀ (d : Dev) (drive slot sk near near' : Nat), Memory.wf d.mem = true → Memory.wf d.far.media = true →
    let t := (d.storeSkein drive slot sk near).loadSkein drive slot sk near'
    ∀ i < 65536, memGet t.mem (near' * 65536 + i) = memGet d.mem (near * 65536 + i))

/-! ## Links (chapter 12) -/

/-- What writes a register that needs the lease: a port that holds it, READY and in Run, or a control core (R62). -/
abbrev Sys2Proof.administers (d : Dev) (who : Nat) : Prop :=
  who = 0 ∨ (up d ∧ d.portServes who = true ∧ d.hasLease who = true)

/-- R271 to R274, R287, Table 12.4: a link goes from DETECT by a signal on lanes it may use to EQUALISE, with the widest lanes that passed
to ALIGN, and from there to PARAM, as GL_LINK_CTL stood when the training began; without a signal DETECT begins again every 10 ms;
agreeing parameters make a FABRIC link ACTIVE and take another to KEYING, whose agreed keys make it ACTIVE; what disagrees, and a step
that exceeds its time, fails the training. -/
def Sys2Proof.Says.LinkTraining : Prop :=
  ∀ (s : State) (l : Nat),
    let k := s.dev.link l
    (∀ lanes, k.state = 1 → s.dev.lanesOf l lanes ≠ 0 →
      Makes (.signalDetect l lanes) s (s.dev.setLink l fun k => { k with state := 2, stepAt := s.dev.now })) ∧
    (∀ d, k.state = 1 → d = s.dev.till (k.stepAt + msTicks 10) →
      Makes (.detectRetry l) s (d.setLink l fun k => { k with stepAt := d.now, ctl := d.ctlNow l })) ∧
    (∀ lanes w d, k.state = 2 → w = widest (s.dev.lanesOf l lanes) (bits k.ctl 26 2) → w ≠ 0 → d = s.dev.equalised l →
      Makes (.equaliseDone l lanes) s
        (d.setLink l fun x => { x with state := 3, stepAt := s.dev.now, lanes := w, width := laneCount w, rate := bits k.ctl 25 1 })) ∧
    (∀ lanes, k.state = 2 → widest (s.dev.lanesOf l lanes) (bits k.ctl 26 2) = 0 →
      Makes (.equaliseDone l lanes) s (s.dev.trainFail l 1)) ∧
    (k.state = 3 → s.dev.ownNode ≠ 0 →
      Makes (.alignDone l) s ((s.dev.setLink l fun k => { k with state := 4, stepAt := s.dev.now }).sendParam l 0)) ∧
    (∀ (d : Dev) (echo : Nat), d.sendParam l echo = (d.setLink l fun k => { k with stamps := k.stamps ++ [d.now % 65536] }).control l 3
      (paramFields { node := d.ownNode, role := bits (d.link l).ctl 28 2, cls := 2, width := (d.link l).width, rate := (d.link l).rate,
                     stamp := d.now % 65536, echo := echo })) ∧
    (k.state = 3 → s.dev.ownNode = 0 → Makes (.alignDone l) s (s.dev.trainFail l 9)) ∧
    (2 ≤ k.state → k.state ≤ 5 → Makes (.trainingStepTimeout l) s ((s.dev.till (k.stepAt + (stepLimit k.state).1)).trainFail l (stepLimit k.state).2)) ∧
    (∀ a f p own role cls, k.state = 4 → own = bits k.ctl 28 2 → role = (if p.role ≤ 2 then p.role else 0) →
      cls = (if p.cls ≤ 2 then p.cls else 0) →
      ∀ e, e = s.dev.setLink l (fun k => { k with peerRole := role, peerClass := cls, peerNode := p.node }) →
      (p.width ≠ k.width ∨ p.rate ≠ k.rate ∨ p.node = s.dev.ownNode ∨ p.node = 0 → Makes (.param l a f p) s (e.trainFail l 4)) ∧
      (p.width = k.width → p.rate = k.rate → p.node ≠ s.dev.ownNode → p.node ≠ 0 →
        (role ≠ own ∨ (own ≠ 0 ∧ cls ≠ 2) → Makes (.param l a f p) s (e.trainFail l 5)) ∧
        (role = own → own = 0 ∨ cls = 2 →
          ∀ trips g, trips = (if nmem k.stamps p.echo then k.trips ++ [(s.dev.now + 65536 - p.echo) % 65536] else k.trips) →
            g = (e.setLink l fun k => { k with trips := trips }).sendParam l p.stamp →
          (trips.length < 16 → Makes (.param l a f p) s g) ∧
          (16 ≤ trips.length → 900 * 64 < 5 * trips.sum → Makes (.param l a f p) s (g.trainFail l 6)) ∧
          (∀ d nonce salt, 16 ≤ trips.length → 5 * trips.sum ≤ 900 * 64 → d = g.setLink l (fun k => { k with rttNs := 5 * trips.sum / 64 }) →
            nonce = Config.freeNumber d.free % 2 ^ 256 → salt = Config.freeNumber (d.free + 1) % 2 ^ 32 →
            (own = 0 → Makes (.param l a f p) s (d.linkActive l)) ∧
            (own ≠ 0 → Makes (.param l a f p) s ((({ d with free := d.free + 2 } : Dev).setLink l fun k => { k with
              state := 5, stepAt := d.now, nonce := nonce, salt := salt }).control l 4 (natBytes 32 nonce ++ natBytes 4 salt))))))) ∧
    (∀ a f nonce salt keys, k.state = 5 → keys = linkKeys s.dev.ownNode k.peerNode k.nonce nonce →
      Makes (.key l a f nonce salt true) s ((s.dev.setLink l fun x => { x with
        encrypted := true, peerNonce := nonce, peerSalt := salt, sendGroup := 0, recvGroup := 0,
        sendKey := if s.dev.ownNode < k.peerNode then keys.1 else keys.2, recvKey := if s.dev.ownNode < k.peerNode then keys.2 else keys.1,
        openGroup := 0, groupFields := [], groupText := [], authFails := 0 }).linkActive l) ∧
      Makes (.key l a f nonce salt false) s (s.dev.trainFail l 7)) ∧
    (∀ a f nonce salt x, k.state = 6 → Makes (.key l a f nonce salt x) s ((s.dev.applyAck l a f).malformed l)) ∧
    (∀ (d : Dev) (reason : Nat), ∃ e : Dev, (e.link l).reason = reason ∧ (e.link l).failedOnce = true ∧
      (e.link l).state = (if d.linkHeld l then 0 else 1) ∧
      d.trainFail l reason = if (d.link l).failedOnce then e else e.linkEvent l (d.link l).peerNode 1) ∧
    (∀ d : Dev, ∃ e : Dev, d.linkActive l = ((e.linkEvent l (d.link l).peerNode 6).carryUpdate) ∧ (e.link l).state = 6 ∧ (e.link l).replay = [] ∧ (e.link l).expected = 0)

/-- R282, R283, Table 12.9: loss of lock, a RESET cell, a full replay buffer that has waited CREDIT_US, and GL_LINK_CTL break an
ACTIVE link, which then holds nothing unacknowledged and no partial message, and whose unacknowledged messages are routed again,
mirror traffic apart; it trains again by itself where AUTO_RETRAIN is set, and when it is reset or enabled, with numbers, replay
buffer and keys new and GL_LINK_CTL taken anew. -/
def Sys2Proof.Says.LinkBreaks : Prop :=
  (∀ (s : State) (l who : Nat),
    let k := s.dev.link l
    Makes (.lockLoss l) s (s.dev.linkBreak l 8) ∧
    (∀ a f, Makes (.reset l a f) s ((s.dev.applyAck l a f).linkBreak l 8)) ∧
    (k.state = 6 → k.outstanding ≠ 0 →
      Makes (.creditTimerExpiry l) s ((s.dev.till (k.oldestAt + usTicks (s.dev.glFld l 0x10 27 5))).linkBreak l 8)) ∧
    (k.state = 7 → s.dev.glFld l 0 30 1 ≠ 0 → Makes (.autoRetrain l) s ((s.dev.till (k.brokenAt + usTicks 1)).linkDetect l)) ∧
    (administers s.dev who →
      (k.state = 6 → Makes (.linkCtlReset who l) s (s.dev.linkBreak l 8)) ∧
      (k.state = 7 → Makes (.linkCtlReset who l) s (s.dev.linkDetect l)) ∧
      (∀ d, d = s.dev.setReg (0x400000 + 0x10000 * l) (setBits (s.dev.reg (0x400000 + 0x10000 * l)) 31 1 1) →
        (k.state = 0 → Makes (.linkCtlEnable who l true) s (d.linkDetect l)) ∧ (k.state ≠ 0 → Makes (.linkCtlEnable who l true) s d)) ∧
      (∀ d, d = s.dev.setReg (0x400000 + 0x10000 * l) (setBits (s.dev.reg (0x400000 + 0x10000 * l)) 31 1 0) →
        (k.state ≠ 0 → Makes (.linkCtlEnable who l false) s (((d.linkBreak l 8).linkDetect l).setLink l fun k => { k with state := 0 })) ∧
        (k.state = 0 → Makes (.linkCtlEnable who l false) s d)))) ∧
  (∀ (d : Dev) (l reason : Nat), (d.link l).state = 6 →
    ∃ e : Dev, (e.link l).state = 7 ∧ (e.link l).reason = reason ∧ (e.link l).replay = [] ∧
      (e.link l).partial0 = [] ∧ (e.link l).partial1 = [] ∧ (e.link l).heldCells = [] ∧ e.mem = d.mem ∧
      ((d.link l).peerRole ≠ 2 →
        d.linkBreak l reason = forEach (d.link l).unsent (fun x d => (d.bump 0x600014 16).route x.1 x.2 true) (e.linkEvent l (d.link l).peerNode 7)) ∧
      ((d.link l).peerRole = 2 → d.linkBreak l reason =
        (let f := e.linkEvent l (d.link l).peerNode 7
         ({ f with router := { f.router with queues := tdel f.router.queues l } } : Dev).carryUpdate))) ∧
  (∀ (d : Dev) (l reason : Nat), (d.link l).state ≠ 6 → d.linkBreak l reason = d) ∧
  (∀ (d : Dev) (l : Nat), ∃ e : Dev, d.linkDetect l = e.carryUpdate ∧ (e.link l).state = (if d.linkHeld l then 0 else 1) ∧ (e.link l).expected = 0 ∧
    (e.link l).nextSeq = 0 ∧ (e.link l).replay = [] ∧ (e.link l).encrypted = false ∧ (e.link l).ctl = d.ctlNow l)

/-- R271 to R274, R282, R283: the training of a link, and what breaks it. -/
def Obligations.LinksTrainAndBreak : Prop :=
  Says.LinkTraining ∧ Says.LinkBreaks

/-- R275, R276, R86: an accepted cell moves E on, takes an input-buffer entry, and is put into its channel's message; a cell out of its
turn asks for a replay, one already accepted is acknowledged again, and one that finds its channel full is counted; none of them moves
E; the head, the bodies and the tail of a message make it whole, and it goes into the router's input; a sequence of kinds that makes
no message is counted malformed. -/
def Sys2Proof.Says.CellsAreAccepted : Prop :=
  ∀ (d : Dev) (l : Nat) (c : Cell),
    let k := d.link l
    let n := (seqOf c + 4096 - k.expected) % 4096
    let part := if chanOf c = 0 then k.partial0 else k.partial1
    let stray := if chanOf c = 0 then k.stray0 else k.stray1
    (2048 ≤ n → d.cellSeq l c = (d.bump (0x400028 + 0x10000 * l) 0).control l (b2n !(d.queue l).isEmpty) []) ∧
    (0 < n → n < 2048 → d.cellSeq l c = d.askReplay l false) ∧
    (n = 0 → k.free (chanOf c) = 0 → d.cellSeq l c = d.bump (0x400024 + 0x10000 * l) 0) ∧
    (n = 0 → 0 < k.free (chanOf c) → ∃ e : Dev, e = { d with links := e.links } ∧ (e.link l).expected = (k.expected + 1) % 4096 ∧
      (e.link l).uncovered = k.uncovered + 1 ∧ (e.link l).free (chanOf c) + 1 = k.free (chanOf c) ∧
      ∀ t, t = (e.flowCheck l (chanOf c)).cellNext l c →
        (t.glFld l 0x10 0 7 ≤ (t.link l).uncovered → d.cellSeq l c = t.control l (b2n !(t.queue l).isEmpty) []) ∧
        ((t.link l).uncovered < t.glFld l 0x10 0 7 → d.cellSeq l c = t)) ∧
    (part = [] → stray = false →
      (kindOf c = 0 → d.cellNext l c = d.msgIn l (chanOf c) [c]) ∧
      (kindOf c = 1 → d.cellNext l c = d.setPart l (chanOf c) [c] false)) ∧
    (part ≠ [] →
      (kindOf c = 2 → d.cellNext l c = d.setPart l (chanOf c) (part ++ [c]) false) ∧
      (kindOf c = 3 → d.cellNext l c = (d.setPart l (chanOf c) [] false).msgIn l (chanOf c) (part ++ [c])) ∧
      (∀ t, t = ((d.setPart l (chanOf c) [] false).malformed l).dropCells l (chanOf c) part.length →
        (kindOf c = 0 → d.cellNext l c = t.msgIn l (chanOf c) [c]) ∧ (kindOf c = 1 → d.cellNext l c = t.setPart l (chanOf c) [c] false))) ∧
    (part = [] →
      (kindOf c = 2 → d.cellNext l c = (d.setPart l (chanOf c) [] true).dropCells l (chanOf c) 1) ∧
      (kindOf c = 3 → d.cellNext l c = ((d.setPart l (chanOf c) [] false).malformed l).dropCells l (chanOf c) 1)) ∧
    (∀ vc cells m, m = d.cellsMsg cells →
      (vcOf m.cls = vc → (∃ b, d.payloadLen m = some b ∧ b ≤ 256 ∧ cells.length = cellsOf b) ∨ (d.payloadLen m = none ∧ cells.length ≤ 7) →
        d.msgIn l vc cells = { d with router := { d.router with inputs := d.router.inputs ++ [(l, m)] } }) ∧
      (vcOf m.cls ≠ vc ∨ (∃ b, d.payloadLen m = some b ∧ (256 < b ∨ cells.length ≠ cellsOf b)) ∨ (d.payloadLen m = none ∧ 7 < cells.length) →
        d.msgIn l vc cells = (d.malformed l).dropCells l vc cells.length))

/-- R277 to R281, R285, R288: an acknowledgement frees the cells it covers and sets what the partner stops; a REPLAY request for
cells still held sends them again; a received cell is checked by FEC and CRC before its sequence; cells of an encrypted link wait for
their group's AUTH, which admits them deciphered where it verifies and discards them where it does not; a cell that fails its CRC fails
its group, of which nothing more is held; the AUTH of the first group, and 16 failures in a row, end the link; timers acknowledge, replay, and
close the open group with its tag; a control cell of a reserved type is counted. -/
def Sys2Proof.Says.ControlCells : Prop :=
  (∀ (d : Dev) (l a f : Nat),
    let k := d.link l
    let n := (a + 4096 - k.oldest) % 4096
    let t := d.applyAck l a f
    (k.state ≠ 6 → t = d) ∧
    (k.state = 6 → (t.link l).peerXoff0 = bit f 0 ∧ (t.link l).peerXoff1 = bit f 1 ∧ t = { d with links := t.links } ∧
      (k.outstanding ≤ n → (t.link l).replay = k.replay ∧ (t.link l).oldest = k.oldest) ∧
      (n < k.outstanding → (t.link l).oldest = (a + 1) % 4096 ∧
        (t.link l).replay = k.replay.filter fun c => n < (c.seq + 4096 - k.oldest) % 4096))) ∧
  (∀ (s : State) (l a f : Nat),
    let d := s.dev.applyAck l a f
    let k := d.link l
    Makes (.idle l a f) s d ∧ Makes (.ack l a f) s d ∧
    (∀ n, k.state = 6 →
      ((n % 4096 + 4096 - k.oldest) % 4096 < k.outstanding → Makes (.replay l a f n) s (d.replayPass l (n % 4096))) ∧
      (k.outstanding ≤ (n % 4096 + 4096 - k.oldest) % 4096 → Makes (.replay l a f n) s d)) ∧
    (∀ t, 7 ≤ t → k.state = 6 → Makes (.reservedControlCell l a f t) s (d.malformed l)) ∧
    (∀ first count g tag, k.state = 6 → k.encrypted = true → k.groupBad = true →
      Makes (.auth l a f first count g tag) s
        (d.setLink l fun k => { k with recvGroup := max k.recvGroup (g + 1), groupBad := g < k.recvGroup })) ∧
    (∀ first count g tag, k.state = 6 → k.encrypted = true → k.groupBad = false →
      (∀ cs, k.opened first count g tag = some cs →
        Makes (.auth l a f first count g tag) s
          (forEach cs (fun c d => if (d.link l).state = 6 then d.cellSeq l c else d)
            (d.setLink l fun k => { k with heldCells := [], authFails := 0, recvGroup := g + 1 }))) ∧
      (k.opened first count g tag = none →
        Makes (.auth l a f first count g tag) s ((d.groupFail l true).setLink l fun k => { k with recvGroup := max k.recvGroup (g + 1) }))) ∧
    (∀ first count g tag, k.state = 6 → k.encrypted = false → Makes (.auth l a f first count g tag) s (d.malformed l))) ∧
  (∀ (k : Link) (first count g : Nat) (tag : List Byte),
    (g ≠ k.recvGroup ∨ k.heldCells.length ≠ count → k.opened first count g tag = none) ∧
    (∀ c cs, k.heldCells = c :: cs → seqOf c ≠ first → k.opened first count g tag = none) ∧
    (gcmOpen k.recvKey (groupIv k.peerSalt g) (k.heldCells.flatMap fun c => slice c.bytes 0 2) (k.heldCells.flatMap bodyOf) tag = none →
      k.opened first count g tag = none) ∧
    (∀ cs, k.opened first count g tag = some cs → cs.length = count)) ∧
  (∀ (s : State) (l : Nat) (c : Cell),
    let k := s.dev.link l
    k.state = 6 →
    (c.fecOk = false → Makes (.cellReceive l c) s (s.dev.bump (0x400020 + 0x10000 * l) 0)) ∧
    (∀ d, c.fecOk = true → cellCrcOk c = false → d = s.dev.bump (0x400020 + 0x10000 * l) 16 →
      (k.encrypted = true → k.groupBad = false → Makes (.cellReceive l c) s (d.groupFail l false)) ∧
      (k.encrypted = false ∨ k.groupBad = true → Makes (.cellReceive l c) s d)) ∧
    (c.fecOk = true → cellCrcOk c = true → k.groupBad = true → Makes (.cellReceive l c) s s.dev) ∧
    (c.fecOk = true → cellCrcOk c = true → k.groupBad = false → k.encrypted = true →
      Makes (.cellReceive l c) s (s.dev.setLink l fun k => { k with heldCells := k.heldCells ++ [c] })) ∧
    (c.fecOk = true → cellCrcOk c = true → k.groupBad = false → k.encrypted = false → Makes (.cellReceive l c) s (s.dev.cellSeq l c))) ∧
  (∀ (d : Dev) (l : Nat) (tag : Bool), ∃ e : Dev, (e.link l).heldCells = [] ∧ (e.link l).groupBad = !tag ∧
    (e.link l).authFails = (d.link l).authFails + 1 ∧
    d.groupFail l tag = if tag && (d.link l).recvGroup == 0 then e.linkBreak l 7
      else if 16 ≤ (d.link l).authFails + 1 then e.linkBreak l 8 else e.askReplay l true) ∧
  (∀ (s : State) (l : Nat),
    let k := s.dev.link l
    k.state = 6 →
    (k.uncovered ≠ 0 → Makes (.ackTimerExpiry l) s
      ((s.dev.till (k.uncoveredAt + nsTicks (s.dev.glFld l 0x10 7 7))).control l (b2n !(s.dev.queue l).isEmpty) [])) ∧
    (k.outstanding ≠ 0 → Makes (.replayTimerExpiry l) s
      ((s.dev.till (max k.oldestAt k.passAt + nsTicks (s.dev.glFld l 0x10 14 13))).replayPass l k.oldest)) ∧
    (k.openGroup ≠ 0 → Makes (.groupClose l) s ((s.dev.control l 5 (authFields k.groupFirst k.openGroup k.sendGroup
      (gcmTag k.sendKey (groupIv k.salt k.sendGroup) k.groupFields k.groupText))).setLink l fun k => { k with
        openGroup := 0, groupFields := [], groupText := [], sendGroup := k.sendGroup + 1 })))

/-- R86, R275 to R281, R285, R288: sequenced cells and the messages they make; control cells, groups and the timers of a link. -/
def Obligations.LinkCells : Prop :=
  Says.CellsAreAccepted ∧ Says.ControlCells

/-! ## The router (chapter 13) -/

/-- R42, R101, R108, R291 to R293, R303: the oldest message of its input reaches the lookup; one from a fenced node is discarded; one that
its port's filter does not accept is discarded and a request answered DENIED 0x25; a request over its rate is answered RETRY; one for
this device goes to LOCAL, one for a fenced node is answered FENCED, any other to the output that R293 chooses, and one without a route
is counted; a multicast message goes to every output its group reaches. -/
def Sys2Proof.Says.Lookup : Prop :=
  (∀ (s : State) (p : Nat) (m : Msg),
    (∀ r, s.dev.router.localq = m :: r →
      Makes (.routerLookup 24 m) s (({ s.dev with router := { s.dev.router with localq := r } } : Dev).lookupMsg 24 m)) ∧
    (p < 24 → (s.dev.router.inputs.find? fun e => e.1 == p && vcOf e.2.cls == vcOf m.cls) = some (p, m) →
      Makes (.routerLookup p m) s
        (({ s.dev with router := { s.dev.router with inputs := s.dev.router.inputs.erase (p, m) } } : Dev).lookupMsg p m))) ∧
  (∀ (d : Dev) (p : Nat) (m : Msg), d.turnsBack p = false →
    (p < 24 → nmem d.router.fenced m.src = true → d.lookupMsg p m = (d.bump 0x600018 16).freeCells p m) ∧
    (∀ e, p < 24 → nmem d.router.fenced m.src = false → d.igfAdmits p m = false → e = (d.igfDrop p).freeCells p m →
      (m.cls = 0 → d.lookupMsg p m = e.sendMsg (e.responseFor m stDenied 0x25 0 none)) ∧ (m.cls ≠ 0 → d.lookupMsg p m = e)) ∧
    (∀ h e, p < 24 → nmem d.router.fenced m.src = false → d.igfAdmits p m = true → d.police p m = (some h, e) →
      d.lookupMsg p m = (e.freeCells p m).policed m h) ∧
    (∀ e, p < 24 → nmem d.router.fenced m.src = false → d.igfAdmits p m = true → d.police p m = (none, e) → d.lookupMsg p m = e.route p m false) ∧
    (24 ≤ p → d.lookupMsg p m = d.route p m false)) ∧
  (∀ (d : Dev) (p : Nat) (m : Msg) (a : Bool), m.mc = false →
    let buf := if a then 24 else p
    (m.dst = d.ownNode → m.dst ≠ 0 → m.dst ≠ 0xFFF → d.route p m a = d.enqueue 24 p m a) ∧
    (m.dst = 0xFFF → (m.cls = 0 → d.route p m a = d.enqueue 24 p m a) ∧ (m.cls ≠ 0 → d.route p m a = d.noRoute buf m)) ∧
    (m.dst ≠ d.ownNode → m.dst ≠ 0xFFF → some m.dst = d.serviceId → d.route p m a = d.enqueue 24 p m a) ∧
    (m.dst ≠ d.ownNode → m.dst ≠ 0xFFF → some m.dst ≠ d.serviceId →
      (nmem d.router.fenced m.dst = true →
        (m.cls = 0 → d.route p m a =
          (d.freeCells buf m).sendMsg { d.rspTo m stFenced 0 m.dst with src := d.ownNode }) ∧
        (m.cls ≠ 0 → d.route p m a = (d.bump 0x600018 16).freeCells buf m)) ∧
      (nmem d.router.fenced m.dst = false → m.dst = 0 ∨ 0xFF0 ≤ m.dst ∨ m.dst = d.fld 0x680004 0 12 →
        d.route p m a = (d.bump 0x600010 16).freeCells buf m) ∧
      (nmem d.router.fenced m.dst = false → m.dst ≠ 0 → m.dst < 0xFF0 → m.dst ≠ d.fld 0x680004 0 12 →
        (∀ o, d.chooseOut p m = some o → d.route p m a = d.enqueue o p m a) ∧
        (d.chooseOut p m = none → d.route p m a = (d.bump 0x600010 16).freeCells buf m)))) ∧
  (∀ (d : Dev) (p : Nat) (m : Msg) (a : Bool), m.mc = true → d.route p m a = d.multicast p m a)

/-- R294, R296, R303, R304: the message next in turn starts on its output, or is discarded there when it has waited HOLD_US; a command
fences a node or lifts its fence, and takes effect once no message for the node is left, with the node's session and copies gone. -/
def Sys2Proof.Says.OutputsAndFences : Prop :=
  (∀ (s : State) (o i : Nat) (q : Queued),
    (∀ r, s.dev.queue 24 = q :: r → ∃ d : Dev, d = { s.dev.unqueue 24 0 with
        router := { (s.dev.unqueue 24 0).router with delivered := (s.dev.unqueue 24 0).router.delivered ++ [q.m] } } ∧
      Makes (.outputSend 24) s (d.leftInput (bufferOf q.input q.ahead) q.m)) ∧
    (o < 24 → (s.dev.link o).state = 6 → s.dev.sendNext o = some (i, q) →
      Makes (.outputSend o) s (((s.dev.unqueue o i).sendOn o q.input q.m).leftInput (bufferOf q.input q.ahead) q.m)) ∧
    ((s.dev.queue o)[i]? = some q → (((s.dev.queue o).take i).any fun x => x.input == q.input && vcOf x.m.cls == vcOf q.m.cls) = false →
      ∃ d : Dev, d = s.dev.till (q.at_ + usTicks (s.dev.fld 0x600000 16 5)) ∧
        Makes (.headHoldTimeout o i) s (((d.unqueue o i).bump 0x600010 0).leftInput (bufferOf q.input q.ahead) q.m))) ∧
  (∀ (s : State) (who n : Nat), 1 ≤ n → n ≤ 0xEFF →
    (administers s.dev who → s.dev.router.fenceCmd = none →
      Makes (.fence who n) s { s.dev with router := { s.dev.router with fenceCmd := some (true, n) } } ∧
      Makes (.unfence who n) s { s.dev with router := { s.dev.router with fenceCmd := some (false, n) } }) ∧
    ((s.dev.router.queues.any fun o => o.1 < 24 && o.2.any fun q => !q.m.mc && q.m.dst == n) = false →
      (s.dev.router.fenceCmd = some (false, n) → Makes .fencePoint s { s.dev with
        router := { s.dev.router with
          fenced := ndel s.dev.router.fenced n, fenceCmd := none, lastNode := n, fenceEpoch := (s.dev.router.fenceEpoch + 1) % 2 ^ 32 } }) ∧
      (∀ d e : Dev, s.dev.router.fenceCmd = some (true, n) → d = s.dev.pruneQueued n → e = { d with
          router := { d.router with
            fenced := nadd d.router.fenced n, fenceCmd := none, lastNode := n, fenceEpoch := (d.router.fenceEpoch + 1) % 2 ^ 32 } } →
        ((e.nodeGone n).sessionOf n = none → Makes .fencePoint s (e.nodeGone n)) ∧
        (∀ x, (e.nodeGone n).sessionOf n = some x → Makes .fencePoint s ((e.nodeGone n).endSession x.1)))))

/-- R42, R101, R108, R291 to R294, R296, R303, R304: where the router's lookup takes a message, how its outputs send, and how fences take
effect. -/
def Obligations.Routing : Prop :=
  Says.Lookup ∧ Says.OutputsAndFences

/-! ## Answers to the device's requests (chapter 4) -/

/-- R96, R100, R102, R312: a response that matches a request of the device serves what the request was for, one that matches none is
stale, and one that no response may be counts as malformed and as DEVICE_ERROR; a RETRY has the request go again after its hint, its
resends uncounted; an EVENT that is not taken is dropped and counted; a line that the partner sends is kept for the access that waits
for it. -/
def Sys2Proof.Says.Responses : Prop :=
  (∀ (s : State) (l : Nat) (m : Msg), m.cls = 2 ∨ m.cls = 3 → s.dev.pm.state ≠ 3 →
    (m.dst = 0xFFF → Makes (.responseReceive l m) s (s.dev.bump 0x600010 16)) ∧
    (m.dst ≠ 0xFFF → s.dev.matchReq m.src m.tag = none → Makes (.responseReceive l m) s (s.dev.bump 0x180108 16)) ∧
    (∀ k r, m.dst ≠ 0xFFF → s.dev.matchReq m.src m.tag = some (k, r) →
      (badResponse m r = false → Makes (.responseReceive l m) s (s.dev.responseTo m k r)) ∧
      (badResponse m r = true → Makes (.responseReceive l m) s
        ((s.dev.responseMalformed l m).responseTo { m with cls := 2, opcode := stDeviceError } k r)))) ∧
  (∀ (d : Dev) (m : Msg) (k : Nat) (r : DevReq),
    (m.opcode = stRetry → r.purpose = 0 ∨ r.purpose = 1 ∨ r.purpose = 5 → d.responseTo m k r = d.reqAgain k r (msgDetail m)) ∧
    (r.purpose = 0 → m.opcode = stDone → d.responseTo m k r = d.endReq k) ∧
    (r.purpose = 0 → m.opcode ≠ stDone → m.opcode ≠ stRetry →
      d.responseTo m k r = { d.endReq k with evt := { (d.endReq k).evt with eventDrops := (d.endReq k).evt.eventDrops + 1 } }) ∧
    (r.purpose = 1 → m.opcode ≠ stRetry → d.responseTo m k r = d.filterAnswer (r.index / 64) (r.index % 64) (some m.opcode)) ∧
    (r.purpose = 2 → d.responseTo m k r = d.moverAnswer m k r) ∧ (r.purpose = 3 → d.responseTo m k r = d.snoopAnswered m k r) ∧
    (r.purpose = 4 → d.responseTo m k r = d.endReq k) ∧ (r.purpose = 6 → d.responseTo m k r = d.recallMsg m k r) ∧
    (∀ x e, r.purpose = 5 → m.opcode ≠ stRetry → m.cls = 3 → e = d.endReq k → e.keyOf (r.index * 64) = some x →
      (e.onFailed (r.index * 64) x = true →
        d.responseTo m k r = { e with coh := { e.coh with fetched := tput e.coh.fetched r.index (slice m.data 0 64) } }) ∧
      (e.onFailed (r.index * 64) x = false →
        (nmem e.poison (x / 64) = true → d.responseTo m k r = (e.writeLine (r.index / 2 ^ 19) x (r.index * 64) (slice m.data 0 64)).2) ∧
        (nmem e.poison (x / 64) = false → d.responseTo m k r = e))) ∧
    (r.purpose = 5 → m.opcode ≠ stRetry → m.cls ≠ 3 → d.responseTo m k r = d.endReq k) ∧
    (∀ h, tget (d.reqAgain k r h).fab.devReqs k = some { r with again := true, deadline := d.now + (h * 512 + 9) / 10 }))

/-- R78, R96, R103, R239, R480: a request without an answer is sent again, a transfer with all its messages, until its resends are used up,
and then fails; an unanswered PCIe request fails what waited for it. -/
def Sys2Proof.Says.Timeouts : Prop :=
  (∀ (s : State) (k : Nat) (r : DevReq) (d : Dev), tget s.dev.fab.devReqs k = some r → d = s.dev.till r.deadline →
    (r.again = true ∨ r.resends < d.fld 0x180104 20 4 →
      (r.purpose ≠ 2 ∨ r.m.opcode ≠ 4 → Makes (.deviceRequestTimeout k) s (d.resend k r)) ∧
      (r.purpose = 2 → r.m.opcode = 4 → Makes (.deviceRequestTimeout k) s ((d.resend k r).sendRest r.index r.m.tag))) ∧
    (r.again = false → d.fld 0x180104 20 4 ≤ r.resends →
      (r.purpose = 0 → Makes (.deviceRequestTimeout k) s
        { d.endReq k with evt := { (d.endReq k).evt with eventDrops := (d.endReq k).evt.eventDrops + 1 } }) ∧
      (r.purpose = 1 → Makes (.deviceRequestTimeout k) s (d.filterAnswer (r.index / 64) (r.index % 64) none)) ∧
      (r.purpose = 2 → Makes (.deviceRequestTimeout k) s ((d.endReq k).moverLost r.index)) ∧
      (r.purpose = 3 → r.m.mc = false → Makes (.deviceRequestTimeout k) s (d.snoopLost r.index k r.m.dst)) ∧
      (∀ t e, r.purpose = 3 → r.m.mc = true → tget d.coh.txns r.index = some t → e = d.bumps 0x180208 0 t.mcLeft →
        Makes (.deviceRequestTimeout k) s ((({ e with
          coh := { e.coh with txns := tput e.coh.txns r.index { t with mcLeft := 0 } } } : Dev).endReq k).closeTxn r.index)) ∧
      (r.purpose = 4 ∨ r.purpose = 5 → Makes (.deviceRequestTimeout k) s (d.endReq k)) ∧
      (r.purpose = 6 → Makes (.deviceRequestTimeout k) s (d.recallLost r.index r.m.dst)))) ∧
  (∀ (d : Dev) (k : Nat) (r : DevReq),
    (keysRise d.fab.devReqs = true → d.fab.waitReqs = [] → tget (d.endReq k).fab.devReqs k = none) ∧
    tget (d.resend k r).fab.devReqs k = some { r with
      resends := if r.again then r.resends else r.resends + 1, again := false, deadline := d.reqDeadline } ∧
    (d.resend k r).out = .msg r.m :: d.out) ∧
  (∀ (s : State) (p n i k : Nat) (w : MoverWork),
    (nodePort (s.dev.ringOwner n) = some p →
      (s.dev.serves n = true → (s.dev.ring n).kind = 0 → (s.dev.ring n).state = 1 ∨ (s.dev.ring n).state = 2 → (s.dev.ring n).waiting = none →
        (s.dev.ring n).used ≠ 0 → Makes (.pcieCompletionTimeout p (.ringFetch n)) s (s.dev.fetchFailed n)) ∧
      ((s.dev.ring n).kind ≠ 0 → (s.dev.ring n).state = 1 ∨ (s.dev.ring n).state = 2 →
        Makes (.pcieCompletionTimeout p (.recordWrite n)) s (s.dev.recordLost n)) ∧
      (∀ o, (s.dev.host.outputs.find? fun o => o.caller == .desc n i) = some o → Makes (.pcieCompletionTimeout p (.output n i)) s
        (o.finish { s.dev with host := { s.dev.host with outputs := s.dev.host.outputs.filter fun x => x.caller != .desc n i } } true)) ∧
      ((s.dev.host.outputs.any fun o => o.caller == .desc n i) = false → Makes (.pcieCompletionTimeout p (.output n i)) s s.dev)) ∧
    ((s.dev.mover k).work = some w →
      (w.phase = 1 → w.srcKind = 1 → w.retryAt = none →
        Makes (.pcieCompletionTimeout p (.mover k)) s (s.dev.moverFail k 0 stDeviceError 2)) ∧
      (w.phase ≠ 1 → (s.dev.mover k).atsOut = true →
        Makes (.pcieCompletionTimeout p (.mover k)) s (s.dev.moverFail k w.wantSide stDeviceError 2)))) ∧
  (∀ (d : Dev) (c : Nat) (x : HeldRec), (d.ring c).kind = 1 → (d.ring c).last = some x →
    d.recordLost c = (d.setRing c fun r => { r with
      held := x :: r.held, reserved := r.reserved + 1, prod := (r.prod + 2 ^ 32 - 1) % 2 ^ 32, last := none }).ringFault c 5) ∧
  (∀ (d : Dev) (c : Nat), (d.ring c).kind ≠ 1 ∨ (d.ring c).last = none → d.recordLost c = d.ringFault c 5) ∧
  (∀ (d : Dev) (o : OutJob), o.unit ≠ 0 → o.resUnit = 0 →
    o.finish d true = d.complete o.caller stDeviceError 1 o.result (o.written / o.unit))

/-- R78, R96, R100, R102, R103, R239, R312, R480: what a response does, and what happens without one. -/
def Obligations.AnswersAndTimeouts : Prop :=
  Says.Responses ∧ Says.Timeouts

/-! ## Mirror pairing (chapter 14) -/

/-- A mirror message of this opcode from the partner: on a MIRROR link, for this unit, of its TERM where the unit has a role in a
pair (R309, R318). -/
abbrev Sys2Proof.fromPartner (d : Dev) (l op : Nat) (m : Msg) : Prop :=
  m.opcode = op ∧ m.dst = d.ownNode ∧ m.cls = (if op = 0x45 then 2 else 0) ∧ d.glFld l 0 28 2 = 2 ∧ d.boot.ready = true ∧
  (d.mir.role = 3 ∨ (d.mir.role = 1 ∨ d.mir.role = 2) ∧ mirTerm m = d.mir.term)

/-- The device with its mirror state changed. -/
def Sys2Proof.withMir (d : Dev) (f : MirrorSt → MirrorSt) : Dev := { d with mir := f d.mir }

/-- R306, R307, R319, R454: a unit whose IDs are not legal stays Solo with CAUSE 6, two that both hold a region do so with CAUSE 7; of
two empty units MODE decides, and among equals the lower node ID is Active; a unit that holds a region is Active and copies to
the other, which discards what it holds; a unit that waits for a copy begins one, and an Active that is alone sends one; after the last
extent the copied unit is Standby with the Active's TERM. -/
def Sys2Proof.Says.Pairing : Prop :=
  (∀ (s : State) (held pref : Bool) (d : Dev), s.dev.fld 0x680000 31 1 = 1 → s.dev.sec.state ≠ 0 → s.dev.sec.state ≠ 5 → s.dev.boot.ready = true →
    (s.dev.mir.role = 0 → s.dev.mirIdsOk = false → Makes (.mirrorPair held pref) s (withMir s.dev fun k => { k with cause := 6 })) ∧
    (s.dev.mir.role ≠ 0 ∨ s.dev.mirIdsOk = true → s.dev.mirrorLinks = [] → Makes (.mirrorPair held pref) s s.dev) ∧
    (s.dev.mirrorLinks ≠ [] → d = withMir s.dev (fun k => { k with carrying := s.dev.mirrorLinks.take 2 }) →
      (s.dev.mir.role = 0 → s.dev.mirIdsOk = true →
        (s.dev.pool.regions ≠ [] → held = true → Makes (.mirrorPair held pref) s (withMir s.dev fun k => { k with cause := 7, carrying := [] })) ∧
        (s.dev.pool.regions ≠ [] → held = false → Makes (.mirrorPair held pref) s ((d.mirFresh 1 3 0).copyStream)) ∧
        (s.dev.pool.regions = [] → held = true → Makes (.mirrorPair held pref) s d.copyEnter) ∧
        (s.dev.pool.regions = [] → held = false →
          (pref = Config.mirrorPref → s.dev.ownNode < s.dev.partner → Makes (.mirrorPair held pref) s (d.mirFresh 1 0 0)) ∧
          (pref = Config.mirrorPref → s.dev.partner ≤ s.dev.ownNode → Makes (.mirrorPair held pref) s (d.mirFresh 2 0 0)) ∧
          (pref = !Config.mirrorPref → Makes (.mirrorPair held pref) s (d.mirFresh (if Config.mirrorPref then 1 else 2) 0 0)))) ∧
      (s.dev.mir.role = 3 → s.dev.mir.phase = 4 → Makes (.mirrorPair held pref) s d.copyEnter) ∧
      (s.dev.mir.role = 1 → s.dev.mir.phase = 3 → s.dev.mir.copying = false →
        Makes (.mirrorPair held pref) s (withMir d fun k => { k with stepDue := true }).copyStream))) ∧
  (∀ d : Dev, d.mirIdsOk = true ↔
    0xF00 ≤ d.fld 0x680004 0 12 ∧ d.fld 0x680004 0 12 ≤ 0xFEF ∧ 1 ≤ d.partner ∧ d.partner ≤ 0xEFF ∧ d.partner ≠ d.ownNode) ∧
  (∀ d : Dev, d.copyEnter = ((d.mirFresh 3 5 d.mir.cause).mirDiscard).copySecurity ∧
    (keysRise d.pool.regions = true → d.mirDiscard.pool.regions = []) ∧
    d.mirDiscard.pool.grants = [] ∧ d.mirDiscard.pool.exclusions = [] ∧ d.mirDiscard.fab.dedup = []) ∧
  (∀ (s : State) (t : Nat),
    (s.dev.mir.role = 3 → s.dev.mir.phase = 5 → ∃ d : Dev, Makes (.resyncCopyDone t) s d ∧ d.mir.role = 2 ∧ d.mir.phase = 0 ∧
      d.mir.term = t % 2 ^ 32 ∧ d.mir.extentsLeft = 0 ∧ d.pool = s.dev.pool ∧ d.mem = s.dev.mem) ∧
    (s.dev.mir.role = 1 → s.dev.mir.copying = true → ∃ d : Dev, Makes (.resyncCopyDone t) s d ∧ d.mir.role = 1 ∧ d.mir.phase = 0 ∧
      d.mir.term = s.dev.mir.term ∧ d.mir.copying = false ∧ d.pool = s.dev.pool ∧ d.mem = s.dev.mem))

/-- R309 to R312, R318: a unit applies records in SEQ order, holds one that came ahead of its turn, waits with one whose skein is being
fetched, and acknowledges the highest it has applied, one it has already applied as well; what it writes is what the record holds; a
message of a lower TERM is answered with this unit's, a higher one takes its role away; on a link that carries no mirror traffic these
opcodes are reserved. -/
def Sys2Proof.Says.Replication : Prop :=
  (∀ (s : State) (l op : Nat) (m : Msg) (i : Instr) (seq : Nat),
    (op, i) ∈ [(0x40, Instr.repWrite l m), (0x41, Instr.repAtomic l m), (0x42, Instr.repAdmin l m), (0x43, Instr.repState l m)] →
    let d := s.dev.taken m
    (fromPartner s.dev l op m → s.dev.mir.role = 2 ∨ (s.dev.mir.role = 3 ∧ s.dev.mir.phase = 5) → seq = field m.data 0 8 →
      (seq ≤ s.dev.mir.applied → Makes i s (d.mirAck 0)) ∧
      (s.dev.mir.applied < seq → (s.dev.mir.ahead.any fun x => field x.data 0 8 == seq) = true → Makes i s d) ∧
      (s.dev.mir.applied + 1 < seq → (s.dev.mir.ahead.any fun x => field x.data 0 8 == seq || field x.data 0 8 == s.dev.mir.applied + 1) = false →
        Makes i s (withMir d fun k => { k with ahead := k.ahead ++ [m] })) ∧
      (seq = s.dev.mir.applied + 1 → s.dev.mir.ahead = [] → (withMir d fun k => { k with ahead := [m] }).applyRecord m false = none →
        Makes i s ((withMir d fun k => { k with ahead := [m] }).skeinStart (slice m.data 24 16))) ∧
      (∀ x e, seq = s.dev.mir.applied + 1 → s.dev.mir.ahead = [] →
        (withMir d fun k => { k with ahead := [m] }).applyRecord m false = some (x, e) → e.mir.applied = s.dev.mir.applied → e.mir.ahead = [m] →
        Makes i s ((withMir e fun k => { k with applied := seq, ahead := [] }).mirAck x))) ∧
    (fromPartner s.dev l op m → s.dev.mir.role ≠ 2 → s.dev.mir.role ≠ 3 ∨ s.dev.mir.phase ≠ 5 → Makes i s d) ∧
    (m.opcode = op → m.dst = s.dev.ownNode → m.cls = 0 → s.dev.glFld l 0 28 2 = 2 → s.dev.boot.ready = true → s.dev.mir.role = 1 ∨ s.dev.mir.role = 2 →
      (mirTerm m < s.dev.mir.term → Makes i s (d.mirAck 0)) ∧
      (s.dev.mir.term < mirTerm m → Makes i s d.mirDeposed)) ∧
    (m.opcode = op → m.dst = s.dev.ownNode → m.cls = 0 → s.dev.glFld l 0 28 2 ≠ 2 → Makes i s (s.dev.arrive m fun d => d))) ∧
  (∀ (d e : Dev) (m : Msg) (a : Nat) (bs : List Byte), a = field m.data 16 8 →
    (m.opcode = 0x40 → bs = m.data.drop 24 → inWindow a = false → e = (d.putRun a bs (bs.length / 64 + 2)).completionSeen a bs →
      d.applyRecord m false = some (0, e.itemOf m e.keptBytes none)) ∧
    (m.opcode = 0x41 → bs = slice m.data 24 64 → ∃ f : Dev, f = (d.putRun a bs 2).itemOf m (d.putRun a bs 2).keptBytes none ∧ ∃ home,
      d.applyRecord m false = some (0, f.dedupTake home (field m.data 12 2) (field m.data 14 2) 0 (slice m.data 88 24)))) ∧
  (∀ (d : Dev) (a : Nat) (bs : List Byte), 0 < bs.length → a % 64 + bs.length ≤ 64 → (d.emtOf (a / 2 ^ 25)).kind = 1 →
    d.putRun a bs (bs.length / 64 + 2) = (d.storeLine a bs).2) ∧
  (∀ (d : Dev) (x : Nat), ∃ m : Msg, d.mirAck x = d.mirOut m ∧ m.cls = 2 ∧ m.opcode = 0x45 ∧ m.dst = d.partner ∧ field m.data 0 8 = d.mir.applied % 2 ^ 64 ∧
    field m.data 8 4 = d.mir.term % 2 ^ 32)

/-- R310, R311: an acknowledgement completes every record it covers, in order; the response it held is sent, as DENIED with the
standby's detail where the standby fell short, and only then; the completion records that waited for it are written likewise. -/
def Sys2Proof.Says.Acknowledgement : Prop :=
  (∀ (s : State) (l seq : Nat) (m : Msg) (d e : Dev), fromPartner s.dev l 0x45 m → seq = field m.data 0 8 →
    d = forEach (s.dev.mir.unacked.takeWhile (·.seq ≤ seq)) (fun r d => d.repAcked r (if r.seq = seq then msgDetail m else 0))
      (withMir (s.dev.taken m) fun k => { k with unacked := k.unacked.dropWhile (·.seq ≤ seq) }) →
    e = ((d.installReady).digestsDue).holdOver →
    (e.mir.handoverDue = false ∨ e.mir.unacked ≠ [] → Makes (.repAck l m) s e) ∧
    (e.mir.handoverDue = true → e.mir.unacked = [] → Makes (.repAck l m) s e.sendHandover)) ∧
  (∀ (d : Dev) (r : RepRec) (det : Nat),
    (∀ a, r.release = some a → det = 0 → ∃ e : Dev, d.repAcked r 0 = forEach r.completes (fun c d =>
      d.recordNow c.ring c.idx c.st c.det c.result c.progress) (e.sendMsg a)) ∧
    (∀ a, r.release = some a → det ≠ 0 → ∃ e : Dev, d.repAcked r det = forEach r.completes (fun c d =>
      d.recordNow c.ring c.idx stDenied det 0 0) (e.sendMsg (refusedAnswer a det))) ∧
    (r.release = none → det = 0 → ∃ e : Dev, e.out = d.out ∧ d.repAcked r 0 = forEach r.completes (fun c d =>
      d.recordNow c.ring c.idx c.st c.det c.result c.progress) e) ∧
    (r.release = none → det ≠ 0 → ∃ e : Dev, d.repAcked r det = forEach r.completes (fun c d =>
      d.recordNow c.ring c.idx stDenied det 0 0) e) ∧
    (∀ a, (refusedAnswer a det).opcode = stDenied ∧ msgDetail (refusedAnswer a det) = det % 65536)) ∧
  (∀ (d : Dev) (n : Nat) (r : Msg) (x : RepRec), n < d.mir.unacked.length → d.mir.unacked.getLast? = some x →
    (d.respond n r).out = d.out ∧ (d.respond n r).mir.unacked = d.mir.unacked.dropLast ++ [{ x with release := some r }]) ∧
  (∀ (d : Dev) (n : Nat) (r : Msg), d.mir.unacked.length ≤ n → d.respond n r = d.sendMsg r)

/-- R309 to R311: records are applied in order at the standby and released by their acknowledgement. -/
def Obligations.ReplicationAndAcknowledgement : Prop :=
  Says.Replication ∧ Says.Acknowledgement

/-- R314 to R316: equal digests clear what was missed and let the pair go on, different ones make the units suspect with CAUSE 1, and so do
three digests that did not come, with CAUSE 2, and records three epochs old with CAUSE 4; the standby answers with its own digest. -/
def Sys2Proof.Says.Digests : Prop :=
  (∀ (s : State) (l k : Nat) (m : Msg) (d e f : Dev), fromPartner s.dev l 0x44 m → k = field m.data 0 8 →
    (s.dev.digesting = false ∨ k < s.dev.mir.missedNext → Makes (.digest l m) s (s.dev.taken m)) ∧
    (s.dev.digesting = true → s.dev.mir.missedNext ≤ k →
      d = withMir (s.dev.taken m) (fun x => { x with
        peerDigests := (tput x.peerDigests k (field m.data 8 8, field m.data 16 8)).filter fun e => k < e.1 + 8 }) →
      e = (if s.dev.mir.role = 2 then d.sendDigest k else d) →
      f = withMir e (fun x => { x with items := x.items.filter fun y => k % 2 ^ 32 < y.1 || y.1 + 8 < k % 2 ^ 32 }) →
      (s.dev.digestOf k ≠ (field m.data 8 8, field m.data 16 8) → Makes (.digest l m) s ((f.bump 0x680018 16).mirSuspect 1)) ∧
      (∀ g, s.dev.digestOf k = (field m.data 8 8, field m.data 16 8) → g = withMir f (fun x => { x with missed := 0, heldEpochs := ndel x.heldEpochs k }) →
        (s.dev.mir.role = 1 → Makes (.digest l m) s g.holdOver) ∧
        (s.dev.mir.role = 2 → s.dev.mir.phase = 2 → Makes (.digest l m) s (withMir g fun x => { x with phase := 0, cause := 0 })) ∧
        (s.dev.mir.role = 2 → s.dev.mir.phase ≠ 2 → Makes (.digest l m) s g)))) ∧
  (∀ d : Dev,
    (d.mir.role = 1 → d.mir.phase = 1 → 2 ≤ d.mir.cause → d.mir.cause ≤ 4 → d.mir.heldEpochs = [] → d.mir.unacked = [] → d.mir.carrying ≠ [] →
      d.holdOver = withMir d fun x => { x with phase := 0, cause := 0, missed := 0 }) ∧
    (d.mir.role ≠ 1 ∨ d.mir.phase ≠ 1 ∨ d.mir.heldEpochs ≠ [] ∨ d.mir.unacked ≠ [] ∨ d.mir.carrying = [] → d.holdOver = d)) ∧
  (∀ (s : State) (k : Nat) (d : Dev), s.dev.digesting = true → s.dev.mir.missedNext ≤ k → tget s.dev.mir.peerDigests k = none →
    d = withMir ((s.dev.till ((k + 2) * 204800 + usTicks (s.dev.fld 0x680000 16 8))).bump 0x680018 0) (fun x => { x with
      missed := x.missed + 1, missedNext := k + 1 }) →
    (s.dev.mir.missed = 2 → Makes (.digestMissed k) s (d.mirSuspect 2)) ∧
    (s.dev.mir.missed ≠ 2 → Makes (.digestMissed k) s d)) ∧
  (∀ (s : State), s.dev.mir.role = 0 → Makes .epochEnd s (s.dev.till ((s.dev.epochNow + 1) * 204800))) ∧
  (∀ (s : State) (d : Dev), d = (s.dev.till ((s.dev.epochNow + 1) * 204800)).digestsDue →
    (d.mirrors = true → (∃ r ∈ d.mir.unacked, r.epoch + 3 ≤ d.epochNow) → Makes .epochEnd s (d.mirSuspect 4)) ∧
    (d.mirrors = false ∨ (∀ r ∈ d.mir.unacked, d.epochNow < r.epoch + 3) → Makes .epochEnd s d)) ∧
  (∀ (d : Dev) (c : Nat), (d.mir.role = 1 ∨ d.mir.role = 2) → d.mir.phase = 0 → ∃ e : Dev, d.mirSuspect c = (e.logSrc (0x0700 + c)).msixBoth ∧
    e = withMir d fun x => { x with phase := d.mir.role, cause := c })

/-- R312, R321: FETCH answers the line, or the skein in 256 messages, of this unit's memory, starts the fetch of a skein that is not there,
and is DENIED where the unit holds nothing at the address; TIME is answered with its stamp, and an echo gives the offset and, once, a step
forward. -/
def Sys2Proof.Says.FetchAndTime : Prop :=
  (∀ (s : State) (l a : Nat) (m : Msg), let d := s.dev.taken m; fromPartner s.dev l 0x46 m → a = field m.data 0 8 / 64 * 64 →
    (∀ x, d.keyOf a = some x →
      (field m.data 8 1 = 0 → Makes (.fetch l m) s (d.fetchAnswer m a 1)) ∧
      (field m.data 8 1 ≠ 0 → Makes (.fetch l m) s (forEach (List.range 256) (fun i d =>
        d.fetchAnswer { m with opcode := 2, xfer := i, last := i == 255 } (a / 65536 * 65536 + 256 * i) 4) d))) ∧
    (d.keyOf a = none → (d.emtOf (a / 2 ^ 25)).kind ≠ 2 → Makes (.fetch l m) s (d.mirOut (d.rspTo m stDenied 0 0))) ∧
    (∀ e, d.keyOf a = none → (d.emtOf (a / 2 ^ 25)).kind = 2 → e = d.startFetch (a / 65536) false false (fun _ => false) →
      Makes (.fetch l m) s (e.hint.2.mirOut (e.hint.2.rspTo m stRetry e.hint.1 0)))) ∧
  (∀ (d e : Dev) (m : Msg) (a x : Nat), d.keyOf a = some x →
    (∀ b, d.readLine (a / 2 ^ 25) x a = (some b, e) → d.fetchAnswer m a 1 = e.mirOut (e.datTo m stDone 0 0 b)) ∧
    (d.readLine (a / 2 ^ 25) x a = (none, e) → d.fetchAnswer m a 1 = e.mirOut (e.rspTo m stPoisoned 0 0))) ∧
  (∀ (s : State) (l : Nat) (m : Msg), fromPartner s.dev l 0x47 m → field m.data 8 8 = 0 → ∃ e : Dev,
    e = withMir (s.dev.taken m) (fun k => { k with lastStamp := field m.data 0 8 }) ∧
    Makes (.time l m) s (e.mirSend 0x47 (natBytes 8 s.dev.now ++ natBytes 8 (field m.data 0 8)))) ∧
  (∀ (s : State) (l : Nat) (m : Msg) (there : Nat) (e : Dev), fromPartner s.dev l 0x47 m → field m.data 8 8 ≠ 0 →
    there = field m.data 0 8 + (s.dev.now - field m.data 8 8) / 2 →
    e = withMir (s.dev.taken m) (fun k => { k with
      lastStamp := field m.data 0 8, alignNs := if k.role = 2 then ((there : Int) - (s.dev.now : Int)) * 5 / 4 else k.alignNs }) →
    (s.dev.mir.stepDue = true → Makes (.time l m) s (withMir (e.till there) fun k => { k with stepDue := false, alignNs := 0 })) ∧
    (s.dev.mir.stepDue = false → Makes (.time l m) s e))

/-- R312, R314 to R316, R321: the digests of a pair, and what its units ask of each other's memory and time. -/
def Obligations.DigestsAndTime : Prop :=
  Says.Digests ∧ Says.FetchAndTime

/-- R317, R318, R320: a witness command is taken from the lease holder that accepted MIRROR, with the unit's TERM; PROMOTE makes a
SUSPECT standby Active ALONE with the next TERM; SOLO ends an Active's replication, what waited for an acknowledgement
completing; DEMOTE sends an Active to Resync WAIT, its last record the HANDOVER; each has no effect elsewhere. -/
def Sys2Proof.Says.WitnessCommands : Prop :=
  (∀ (s : State) (p t : Nat) (d : Dev), p < 2 → s.dev.portUp p = true → d = s.dev.wakeLatch 1 → s.dev.pm.state ≠ 3 → s.dev.boot.ready = true →
    s.dev.hasLease (portNode p) = true →
    (d.hasFeature (portNode p) 8 = true → t = d.mir.term →
      Makes (.promote p t) s d.witnessPromote ∧ Makes (.solo p t) s d.witnessSolo ∧ Makes (.demote p t) s d.witnessDemote) ∧
    (d.hasFeature (portNode p) 8 = false ∨ t ≠ d.mir.term → Makes (.promote p t) s d ∧ Makes (.solo p t) s d ∧ Makes (.demote p t) s d)) ∧
  (∀ d : Dev,
    (d.mir.role = 2 → d.mir.phase = 2 ∨ d.mir.handover = true → d.witnessPromote = d.promote) ∧
    (d.mir.role ≠ 2 ∨ (d.mir.phase ≠ 2 ∧ d.mir.handover = false) → d.witnessPromote = d) ∧
    (d.mir.role = 1 → d.mir.phase = 1 → d.witnessSolo = d.goAlone) ∧ (d.mir.role ≠ 1 ∨ d.mir.phase ≠ 1 → d.witnessSolo = d) ∧
    (d.mir.role ≠ 1 → d.witnessDemote = d) ∧
    (∀ e, d.mir.role = 1 → e = withMir d (fun k => { k with role := 3, phase := 4, copying := false, handoverDue := true }) →
      (d.mir.unacked ≠ [] → d.witnessDemote = e) ∧ (d.mir.unacked = [] → d.witnessDemote = e.sendHandover))) ∧
  (∀ d : Dev, d.mir.ahead = [] → d.mir.starts = [] → d.promote.mir.role = 1 ∧ d.promote.mir.phase = 3 ∧
    d.promote.mir.term = (d.mir.term + 1) % 2 ^ 32 ∧ d.promote.mem = d.mem) ∧
  (∀ d : Dev, d.goAlone = (forEach d.mir.unacked (fun r d => d.repAcked r 0)
    (withMir d fun k => { k with unacked := [], phase := 3, copying := false })).installReady)

/-- R306, R307, R317 to R319: how a mirror pair forms, and what the witness makes of its units. -/
def Obligations.PairingAndWitness : Prop :=
  Says.Pairing ∧ Says.WitnessCommands

/-! ## Stack controllers, scrubbing and test modes (chapters 15 and 16) -/

/-- The device with its counter of free values at the next one. -/
def Sys2Proof.drawn (d : Dev) : Dev := { d with free := d.free + 1 }

/-- R331, R333 to R343, R350, R384: a bank of an ACTIVE stack that owes eight refreshes performs one, else serves an access that waited
too long, else every refresh it owes where none of its accesses is of class 1 or above, else the next access, with its row, else writes
back a corrected line; a command the stack does not answer is counted, and the sixteenth in
a row fails it; the access served is the oldest that waited too long, else one of the highest class, and none while the stack has moved
its share of the near-tier cap; a served access leaves the queue; a row's activations are counted by its tracker, a row without one
taking the place of the lowest. -/
def Sys2Proof.Says.StackAccesses : Prop :=
  (∀ (s : State) (k b : Nat) (d bad : Dev), (s.dev.stack k).state = 2 → d = (drawn s.dev).setStack k (fun u => { u with badCommands := 0 }) →
    bad = (if 15 ≤ (s.dev.stack k).badCommands
      then ((drawn s.dev).setStack k fun u => { u with badCommands := (s.dev.stack k).badCommands + 1 }).failStack k 3
      else (drawn s.dev).setStack k fun u => { u with badCommands := (s.dev.stack k).badCommands + 1 }) →
    (8 ≤ s.dev.owedBy k b → Makes (.dramCommandIssue k b) s bad ∨
      Makes (.dramCommandIssue k b) s ((d.wakeRank k b).setStack k fun u => { u with owed := tput u.owed b (s.dev.owedBy k b - 1) })) ∧
    (∀ x late, s.dev.owedBy k b < 8 → d.nextAccess k b = some (x, late) → late = true ∨ d.makesUp k b = false →
      Makes (.dramCommandIssue k b) s bad ∨ Makes (.dramCommandIssue k b) s (d.serveRow k x late)) ∧
    (s.dev.owedBy k b < 8 → 0 < s.dev.owedBy k b → (∀ y ∈ (s.dev.stack k).queue, bankOf y.a = b → d.accessClass k y = 0) →
      (∀ y, d.nextAccess k b ≠ some (y, true)) → Makes (.dramCommandIssue k b) s bad ∨
      Makes (.dramCommandIssue k b) s (((d.wakeRank k b).bump (memOff k 0x20) 0).setStack k fun u => { u with owed := tdel u.owed b })) ∧
    (s.dev.owedBy k b < 8 → d.makesUp k b = false → d.nextAccess k b = none →
      Makes (.dramCommandIssue k b) s bad ∨ Makes (.dramCommandIssue k b) s (d.demandWrite k b))) ∧
  (∀ (d : Dev) (k b : Nat), d.stackShare < 64 + ((d.movedNow k).map (·.2)).sum → d.nextAccess k b = none ∧ d.demandWrite k b = d) ∧
  (∀ (d : Dev) (k b : Nat) (x : Access),
    (d.nextAccess k b = some (x, true) → x ∈ (d.stack k).queue ∧ bankOf x.a = b ∧ nsTicks (d.fld (memOff k 4) 20 12) < d.now - x.arrived) ∧
    (d.nextAccess k b = some (x, false) → x ∈ d.servable k b ∧ ∀ y ∈ d.servable k b, d.accessClass k y ≤ d.accessClass k x)) ∧
  (∀ (d : Dev) (k b : Nat) (e : Nat × Nat), d.shareLeft k ≠ 0 →
    (d.ecc.writeBacks.find? fun e => e.2 / 2 ^ 32 == k && bankOf (e.2 % 2 ^ 32) == b) = some e →
    d.demandWrite k b = { d.moveLines k 1 with ecc := { d.ecc with odd := tdel d.ecc.odd e.1, writeBacks := tdel d.ecc.writeBacks e.1 } }) ∧
  (∀ (d : Dev) (k : Nat) (x : Access) (late : Bool), ∀ y ∈ ((d.serveRow k x late).stack k).queue, y.id ≠ x.id) ∧
  (∀ (l : List RowTrack) (row origin : Nat),
    (∀ t, l.find? (·.row == row) = some t → (trackRow l row origin).1.row = row ∧ (trackRow l row origin).1.count = t.count + 1 ∧
      (trackRow l row origin).2 = l.filter (·.row != row)) ∧
    (l.find? (·.row == row) = none → l.length < 16 → trackRow l row origin = ({ row := row, count := 1, candidate := origin }, l)) ∧
    (l.find? (·.row == row) = none → l.length = 16 → (trackRow l row origin).2.length = 15 ∧
      (∀ t ∈ l, (trackRow l row origin).1.count ≤ t.count + 1))) ∧
  (∀ (t : RowTrack) (o : Nat), (t.candidate = o → (t.vote o).candidate = o ∧ (t.vote o).votes = t.votes + 1) ∧
    (t.candidate ≠ o → t.votes = 0 → (t.vote o).candidate = o ∧ (t.vote o).votes = 1) ∧
    (t.candidate ≠ o → t.votes ≠ 0 → (t.vote o).candidate = t.candidate ∧ (t.vote o).votes = t.votes - 1))

/-- R337 to R340, R344: a refresh is due at its bank and is postponed only while an access of class 2 or 3 waits; a refresh window
empties the trackers and takes the mode over; a reading sets the thermal factor by its thresholds with their hysteresis, a missing
one fails the stack after 10 ms; a rank with nothing queued and nothing owed powers down; a throttle ends at its expiry. -/
def Sys2Proof.Says.StackUpkeep : Prop :=
  (∀ (s : State) (k b : Nat), (s.dev.stack k).state = 2 →
    ((s.dev.stack k).modeNow = 1 → Makes (.refreshDue k b) s (s.dev.setStack k fun u => { u with down := u.down.filter fun r => r / 4 != b / 64 })) ∧
    ((s.dev.stack k).modeNow ≠ 1 → ((s.dev.stack k).queue.any fun x => bankOf x.a == b && 2 ≤ s.dev.accessClass k x) = false →
      Makes (.refreshDue k b) s ((drawn s.dev).wakeRank k b)) ∧
    ((s.dev.stack k).modeNow ≠ 1 → ((s.dev.stack k).queue.any fun x => bankOf x.a == b && 2 ≤ s.dev.accessClass k x) = true →
      Makes (.refreshDue k b) s ((drawn s.dev).wakeRank k b) ∨
      Makes (.refreshDue k b) s ((drawn s.dev).setStack k fun u => { u with owed := tput u.owed b (min 8 (s.dev.owedBy k b + 1)) }))) ∧
  (∀ (s : State) (k : Nat), (s.dev.stack k).state = 2 → ∃ d : Dev, Makes (.refreshWindow k) s d ∧ (d.stack k).trackers = [] ∧
    (d.stack k).mitigated = [] ∧ (d.stack k).modeNow = s.dev.fld (memOff k 8) 0 1 ∧ (d.stack k).queue = (s.dev.stack k).queue ∧
    (∀ j, j ≠ k → d.stack j = s.dev.stack j) ∧ d.mem = s.dev.mem) ∧
  (∀ (s : State) (k : Nat) (t d : Dev), (s.dev.stack k).state = 2 ∨ (s.dev.stack k).state = 3 →
    t = s.dev.till ((s.dev.stack k).tempAt + msTicks 1) → d = t.setStack k (fun u => { u with tempAt := t.now }) →
    (∀ c, thermNext (s.dev.stack k).therm c = (s.dev.stack k).therm →
      Makes (.stackTempRead k (some c)) s (d.setStack k fun u => { u with tempC := c, unreadableSince := none })) ∧
    (∀ c n, n = thermNext (s.dev.stack k).therm c → n ≠ (s.dev.stack k).therm →
      Makes (.stackTempRead k (some c)) s
        ((d.setStack k fun u => { u with tempC := c, therm := n, unreadableSince := none }).log (0x0203 + 16 * k) (code := n) (arg0 := c))) ∧
    (∀ since, since = (s.dev.stack k).unreadableSince.getD d.now →
      (since + msTicks 10 ≤ d.now → Makes (.stackTempRead k none) s
        ((d.setStack k fun u => { u with unreadableSince := some since }).failStack k 4)) ∧
      (d.now < since + msTicks 10 → Makes (.stackTempRead k none) s (d.setStack k fun u => { u with unreadableSince := some since })))) ∧
  (∀ t c, (95 < c → thermNext t c = 2) ∧ (85 < c → c ≤ 93 → thermNext t c = 1) ∧ (c ≤ 83 → thermNext t c = 0) ∧
    (93 < c → c ≤ 95 → thermNext t c = if t = 2 then 2 else 1) ∧ (83 < c → c ≤ 85 → t ≤ 2 → thermNext t c = min t 1)) ∧
  (∀ (s : State) (k r : Nat), (s.dev.stack k).state = 2 → s.dev.fld (memOff k 4) 0 10 ≠ 0 → r < 256 →
    (∀ e ∈ (s.dev.stack k).owed, 4 * (e.1 / 64) + e.1 % 64 / 16 = r → e.2 = 0) →
    (∀ x ∈ (s.dev.stack k).queue, 4 * (bankOf x.a / 64) + bankOf x.a % 64 / 16 ≠ r) →
    Makes (.rankPowerDown k r) s (s.dev.setStack k fun u => { u with down := nadd u.down r })) ∧
  (∀ (s : State) (k t : Nat), (∃ x ∈ (s.dev.stack k).throttles, x.expiry = t) → (∀ x ∈ (s.dev.stack k).throttles, t ≤ x.expiry) →
    Makes (.throttleExpiry k) s ((s.dev.till t).setStack k fun u => { u with throttles := u.throttles.filter fun x => t < x.expiry }))

/-- R331 to R344, R350, R384: what a bank does next, the row trackers, refresh, temperature and power-down. -/
def Obligations.StackControllers : Prop :=
  Says.StackAccesses ∧ Says.StackUpkeep

/-- R121, R348 to R350, R354, R356: a read of a line goes through its code, with the symbols that are wrong, and a line of the directory
destroys its set where it cannot be corrected; the scrubber reads the line at its position, skips a poisoned one, rewrites and counts a
corrected one and poisons one it cannot correct, and goes on to the next, counting a pass at the last. -/
def Sys2Proof.Says.ReadsAndScrubbing : Prop :=
  (∀ (s : State) (k l : Nat) (err : List Byte), (s.dev.stack k).state = 2 →
    (∀ e x, s.dev.lineAt k l = some (e, x) → Makes (.stackReadComplete k l err) s
      (((s.dev.upset e x err).readLine e x (s.dev.addrAt e x)).2)) ∧
    (s.dev.lineAt k l = none → Makes (.stackReadComplete k l err) s (s.dev.tableRead k l err (Dev.readFixed k)))) ∧
  (∀ (s : State) (k a : Nat) (err : List Byte) (d : Dev), (s.dev.stack k).state = 2 → s.dev.fld 0x900000 0 1 ≠ 0 → a = tgetD s.dev.ecc.pos k 0 →
    d = s.dev.scrubLine k a err →
    (a + 1 < d.scrubLines → Makes (.scrubRead k err) s { d with ecc := { d.ecc with pos := tput d.ecc.pos k (a + 1) } }) ∧
    (d.scrubLines ≤ a + 1 → Makes (.scrubRead k err) s (({ d with
        ecc := { d.ecc with pos := tput d.ecc.pos k 0, rowCorr := d.ecc.rowCorr.filter fun e => e.1 / 2 ^ 32 != k } } : Dev).bump
        (0x900044 + 8 * k) 16))) ∧
  (∀ (d : Dev) (k a : Nat) (err : List Byte),
    (∀ e x, d.lineAt k a = some (e, x) → d.scrubLine k a err = (d.upset e x err).scrubPool k a e x) ∧
    (d.lineAt k a = none → d.scrubLine k a err = d.tableRead k a err (Dev.scrubFixed k a))) ∧
  (∀ (d : Dev) (k a e x : Nat), (tget d.ecc.odd (x / 64) = none → d.scrubPool k a e x = d) ∧
    (∀ w, tget d.ecc.odd (x / 64) = some w →
      (decodeLine a w = none → d.scrubPool k a e x = d.uncorrectable e x (d.addrAt e x)) ∧
      (∀ w' changed, decodeLine a w = some (w', changed) →
        (w'.getD 64 0 = 128#8 → d.scrubPool k a e x = d) ∧
        (w'.getD 64 0 = 0#8 → changed = false → d.scrubPool k a e x = d) ∧
        (w'.getD 64 0 = 0#8 → changed = true → d.scrubPool k a e x = Dev.scrubFixed k a { d with
          ecc := { d.ecc with odd := tdel d.ecc.odd (x / 64), writeBacks := tdel d.ecc.writeBacks (x / 64) } }) ∧
        (w'.getD 64 0 ≠ 0#8 → w'.getD 64 0 ≠ 128#8 → d.scrubPool k a e x = d.uncorrectable e x (d.addrAt e x))))) ∧
  (∀ (d : Dev) (k a set q : Nat) (err : List Byte) (fix : Dev → Dev), readWith a (d.setBytes set q) err = none →
    d.setRead k a set q err fix = (d.ueNote k a 0 true).setDestroyed set) ∧
  (∀ (d : Dev) (e x : Nat) (err : List Byte), d.upset e x [] = d ∧
    (err ≠ [] → d.upset e x err = d.putCodeword e x (xorBytes (d.codeword e x) err)))

/-- R359, R360, R457: a test mode is NONE where a seal or a pair bars it, and REMAIN at least 1, each change counted; a counted write
stores the data without its check symbols, the check symbols alone, or a codeword with the flip mask laid over it, and the last of them
ends the mode; what ends the mode clears the flip mask. -/
def Sys2Proof.Says.TestModes : Prop :=
  (∀ (s : State) (who v : Nat), administers s.dev who → Makes (.eccTestCtlWrite who v) s (s.dev.eccTestWrite v)) ∧
  (∀ (d : Dev) (v : Nat),
    (d.eccBarred = false → bits v 8 8 ≠ 0 → d.eccTestWrite v = d.setReg 0x900080 (bits v 16 16 * 65536 + bits v 8 8 * 256 + bits v 0 2)) ∧
    (d.eccBarred = false → bits v 8 8 = 0 → d.eccTestWrite v = (d.clamped 13 0).setReg 0x900080 (bits v 16 16 * 65536 + 256 + bits v 0 2)) ∧
    (d.eccBarred = true → bits v 8 8 ≠ 0 → bits v 0 2 ≠ 0 →
      d.eccTestWrite v = (d.clamped 13 0).setReg 0x900080 (bits v 16 16 * 65536 + bits v 8 8 * 256))) ∧
  (∀ d : Dev, d.eccBarred = true ↔ (2 ≤ d.sec.state ∧ d.sec.state ≤ 5) ∨ d.mir.role ≠ 0) ∧
  (∀ (d : Dev) (o : Nat), 0x900100 ≤ o → o < 0x900148 → keysRise d.regs = true → tget d.eccDisarm.regs o = none) ∧
  (∀ (d : Dev) (e x : Nat) (data : List Byte), x % 64 = 0 →
    (d.fld 0x900080 0 2 = 1 → (d.testWrite e x data).codeword e x = data ++ (d.codeword e x).drop 64) ∧
    (d.fld 0x900080 0 2 = 2 → (d.testWrite e x data).codeword e x = (d.codeword e x).take 64 ++ data.take 8) ∧
    (d.fld 0x900080 0 2 = 3 → (d.testWrite e x data).codeword e x = xorBytes (encodeLine (d.codeKey e x % 2 ^ 32) data 0) d.flipMask) ∧
    (1 < d.fld 0x900080 8 8 → (d.testWrite e x data).fld 0x900080 8 8 = d.fld 0x900080 8 8 - 1 ∧
      (d.testWrite e x data).fld 0x900080 0 2 = d.fld 0x900080 0 2) ∧
    (d.fld 0x900080 8 8 = 1 → (d.testWrite e x data).fld 0x900080 0 2 = 0))

/-- R121, R348 to R350, R354, R356, R359, R360, R457: reads through the line code, the scrubber, and the ECC test modes. -/
def Obligations.ScrubbingAndTestModes : Prop :=
  Says.ReadsAndScrubbing ∧ Says.TestModes

/-! ## The security core (chapter 17) -/

/-- A descriptor of the security core is begun: it has started with these bytes, nothing gates it, and its ring's owner holds the
lease (R61, R65). -/
abbrev Sys2Proof.leased (d : Dev) (ring idx op : Nat) (changes : Bool) (features : List Nat) (b : List Byte) : Prop :=
  d.ready ring idx op b ∧ admits d ring changes features ∧ d.hasLease (d.ringOwner ring) = true

/-- The `n` bytes a descriptor has the device read at `a`, and the device after the read: the operand from a management host, the pool's
from a client. -/
def Sys2Proof.readsInput (d : Dev) (ring a n : Nat) (host bs : List Byte) (e : Dev) : Prop :=
  (∃ p, nodePort (d.ringOwner ring) = some p ∧ bs = slice host 0 n ∧ e = d) ∨
  (nodePort (d.ringOwner ring) = none ∧ d.readRun (some (d.ringOwner ring)) a n = (.ok bs, e))

/-- R370 to R372: SEAL in Shared, with no region and no session, takes the tenant range, flags and pattern key into force, draws a nonce
and is Sealing with debug Closed; in any other state it is DENIED 0x80, with an invalid key 0x82, and without the lease 8; a key that
matches its check value seals the device, and any other is DENIED 0x83; weights are loaded in Sealed alone. That a tenant bound that is
no node ID is DENIED 0x26 is the model's choice (log entry 56), and the shared secret of a ciphertext a free value (log entry 7). -/
def Sys2Proof.Says.SealAndRelease : Prop :=
  (∀ (s : State) (ring idx lo hi : Nat) (b key : List Byte) (d : Dev), leased s.dev ring idx 0x62 true [9] b → lo = field b 8 2 % 4096 →
    hi = field b 10 2 % 4096 → d = s.dev.begun ring idx →
    (s.dev.sec.state = 1 → s.dev.pool.regions = [] → s.dev.host.sessions = [] → hssKeyOk (slice key 0 60) = true →
      (1 ≤ lo → lo ≤ 0xEFF → 1 ≤ hi → hi ≤ 0xEFF → ∀ e, e = (d.debugTo 0 0).sealWith lo hi (field b 12 1) (slice key 0 60) →
        Completes (.seal ring idx key) s ring idx ((e.repSeal ring 7 b).repSeal ring 8 (slice key 0 60)) stDone 0 0 0) ∧
      (lo = 0 ∨ 0xEFF < lo ∨ hi = 0 ∨ 0xEFF < hi → Completes (.seal ring idx key) s ring idx d stDenied 0x26 0 0)) ∧
    (s.dev.sec.state ≠ 1 ∨ s.dev.pool.regions ≠ [] ∨ s.dev.host.sessions ≠ [] →
      Completes (.seal ring idx key) s ring idx d stDenied 0x80 0 0) ∧
    (s.dev.sec.state = 1 → s.dev.pool.regions = [] → s.dev.host.sessions = [] → hssKeyOk (slice key 0 60) = false →
      Completes (.seal ring idx key) s ring idx d stDenied 0x82 0 0)) ∧
  (∀ (s : State) (ring idx : Nat) (b key : List Byte), s.dev.ready ring idx 0x62 b → admits s.dev ring true [9] →
    s.dev.hasLease (s.dev.ringOwner ring) = false → Completes (.seal ring idx key) s ring idx (s.dev.begun ring idx) stDenied 8 0 0) ∧
  (∀ (d : Dev) (lo hi flags : Nat) (key : List Byte), ∀ e, e = d.sealWith lo hi flags key →
    e.sec.state = 2 ∧ e.sec.tenantLo = lo ∧ e.sec.tenantHi = hi ∧ e.sec.sealFlags = flags % 4 ∧ e.sec.tenantKey = key ∧ e.sec.debugLevel = d.sec.debugLevel ∧
    e.sec.sealNonce = (List.range 32).map (Config.freeByte d.free)) ∧
  (∀ (s : State) (ring idx : Nat) (b host : List Byte) (d : Dev), s.dev.ready ring idx 0x63 b → admits s.dev ring false [9] → d = s.dev.begun ring idx →
    (s.dev.sec.state ≠ 2 → Completes (.keyRelease ring idx host) s ring idx d stDenied 0x80 0 0) ∧
    (s.dev.sec.state = 2 → s.dev.hasLease (s.dev.ringOwner ring) = false →
      s.dev.ringOwner ring < s.dev.sec.tenantLo ∨ s.dev.sec.tenantHi < s.dev.ringOwner ring →
      Completes (.keyRelease ring idx host) s ring idx d stDenied 0x81 0 0) ∧
    (s.dev.sec.state = 2 → s.dev.hasLease (s.dev.ringOwner ring) = true ∨
      (s.dev.sec.tenantLo ≤ s.dev.ringOwner ring ∧ s.dev.ringOwner ring ≤ s.dev.sec.tenantHi) →
      (∀ ct wk e, readsInput d ring (field b 40 8) 1568 host ct e → wk = weightKeyOf ct e.sec.sealNonce →
        ((sha256 (ascii "KCV" ++ wk)).take 8 = slice b 16 8 →
          Completes (.keyRelease ring idx host) s ring idx (({ e with sec := { e.sec with weightKey := wk } } : Dev).secState 3) stDone 0 0 0) ∧
        ((sha256 (ascii "KCV" ++ wk)).take 8 ≠ slice b 16 8 →
          Completes (.keyRelease ring idx host) s ring idx { e with sec := { e.sec with weightKey := [] } } stDenied 0x83 0 0)) ∧
      (∀ e h, nodePort (d.ringOwner ring) = none → d.readRun (some (d.ringOwner ring)) (field b 40 8) 1568 = (.again h, e) →
        Makes (.keyRelease ring idx host) s (e.unclaim ring idx)) ∧
      (∀ e x y, nodePort (d.ringOwner ring) = none → d.readRun (some (d.ringOwner ring)) (field b 40 8) 1568 = (.no x y, e) →
        Completes (.keyRelease ring idx host) s ring idx e stDeviceError 1 0 0))) ∧
  (∀ (s : State) (ring idx n : Nat) (b : List Byte) (w : MoverWork), s.dev.ready ring idx 0x64 b → admits s.dev ring true [9] →
    w = sealLoadOf ring idx (s.dev.ringOwner ring) b →
    n = b2n (clampGrain 65536 65536 274877906944 (field b 24 8) != field b 24 8) + b2n (2 < field b 32 1) →
    (s.dev.sec.state ≠ 3 → Completes (.sealLoad ring idx) s ring idx (s.dev.begun ring idx) stDenied 0x80 0 0) ∧
    (s.dev.sec.state = 3 → Makes (.sealLoad ring idx) s ((s.dev.begun ring idx).moverAdmit w n))) ∧
  (∀ (d : Dev) (st : Nat), (d.secState st).sec.state = st ∧
    (d.sec.state ≠ st → (d.secState st).sec.keyState = if st = 2 then 1 else if st = 3 then 2 else 0))

/-- R373: UNSEAL begins the bind-off of all that a tenant made, is DENIED 0x80 where nothing is sealed, and its end leaves Shared, with
nothing held in memory, in tables or as a key. -/
def Sys2Proof.Says.Unsealing : Prop :=
  (∀ (s : State) (ring idx : Nat) (b : List Byte), leased s.dev ring idx 0x65 true [9] b →
    (s.dev.sec.state = 2 ∨ s.dev.sec.state = 3 → ∃ d : Dev, d = ((s.dev.begun ring idx).repSeal ring 9 b).unsealBind ∧
      Makes (.unseal ring idx) s (({ d with sec := { d.sec with unsealer := some (.desc ring idx) } } : Dev).secState 4)) ∧
    (s.dev.sec.state ≠ 2 → s.dev.sec.state ≠ 3 → Completes (.unseal ring idx) s ring idx (s.dev.begun ring idx) stDenied 0x80 0 0)) ∧
  (∀ (s : State) (ring idx : Nat) (b : List Byte), s.dev.ready ring idx 0x65 b → admits s.dev ring true [9] →
    s.dev.hasLease (s.dev.ringOwner ring) = false → Completes (.unseal ring idx) s ring idx (s.dev.begun ring idx) stDenied 8 0 0) ∧
  (∀ (s : State), s.dev.sec.state = 4 → (s.dev.far.cmds.any fun c => c.2.kind == 3 && c.2.skein != noSkein) = false → ∀ d : Dev, d = s.dev.bindRest.secState 1 →
    (d.sec.unsealer = none → Makes .bindOffDone s d) ∧
    (∀ c, d.sec.unsealer = some c →
      Makes .bindOffDone s (({ d with sec := { d.sec with unsealer := none } } : Dev).complete c stDone 0 0 s.dev.frameLimit))) ∧
  (∀ (d : Dev), d.unsealBind.sec.weightKey = [] ∧ d.unsealBind.sec.tenantKey = [] ∧ d.unsealBind.sec.keys = [] ∧ d.unsealBind.pool.grants = [] ∧
    d.unsealBind.pool.exclusions = []) ∧
  (∀ (d : Dev), (∀ e ∈ d.coh.txns, ∀ m, e.2.kind ≠ .serve m) → d.pool.parked = [] → ∃ e : Dev, d.bindRest = e.topUpCache ∧ e.mem = [] ∧ e.pool.emt = [] ∧
    e.coh.dir = [] ∧ e.ecc.odd = [])

/-- R370 to R373: the personalities of the device, sealed and unsealed. -/
def Obligations.Sealing : Prop :=
  Says.SealAndRelease ∧ Says.Unsealing

/-- R365, R366, R374, R375: ATTEST waits for its signature, at most 64 waiting; the head of the queue is signed when no operation
stands between its start and its completion, a component in partial reset waited for at most 2 s, the lower tree's next leaf used once,
and a fuse burned where a tree is to be made; a Decommissioned part signs nothing; the report is written where the descriptor asks. -/
def Sys2Proof.Says.Attestation : Prop :=
  (∀ (s : State) (ring idx : Nat) (b : List Byte), s.dev.ready ring idx 0x60 b →
    ∀ d : Dev, d = (if attestLen b = field b 48 4 then s.dev.begun ring idx else (s.dev.begun ring idx).clamped 14 0) →
    (s.dev.sec.state ≠ 5 → s.dev.sec.attests.length < 64 → Makes (.attest ring idx) s { d with
        sec := { d.sec with attests := d.sec.attests ++ [{ ring := ring, idx := idx, since := d.now }] } }) ∧
    (s.dev.sec.state ≠ 5 → 64 ≤ s.dev.sec.attests.length → Completes (.attest ring idx) s ring idx d stRetry 0xFFFF 0 0) ∧
    (s.dev.sec.state = 5 → Completes (.attest ring idx) s ring idx d stDeviceError 0x86 0 0)) ∧
  (∀ (s : State) (a : AttestReq) (rest : List AttestReq) (x : Started) (c d : Dev), s.dev.sec.attests = a :: rest → s.dev.secBusy = false →
    s.dev.startedAt a.ring a.idx = some x →
    c = (if s.dev.sec.lastSign = 0 then s.dev else s.dev.till (s.dev.sec.lastSign + msTicks 10)) →
    d = (if s.dev.boot.inReset.isEmpty then { c with sec := { c.sec with attests := rest } }
      else { c.till (a.since + msTicks 2000) with sec := { (c.till (a.since + msTicks 2000)).sec with attests := rest } }) →
    (s.dev.sec.lowerTree = true → s.dev.sec.lowNext < 1048576 → Makes .attestSign s (d.signReport s.fuse a x.bytes)) ∧
    (s.dev.sec.lowerTree = false ∨ 1048576 ≤ s.dev.sec.lowNext →
      (s.fuse.topUsed < 32768 → ∃ f e, f = { s.fuse with topUsed := s.fuse.topUsed + 1 } ∧
        e = { d with sec := { d.sec with lowerTree := true, lowNext := 0 } } ∧
        exec .attestSign s = .next { s with dev := e.signReport f a x.bytes, fuse := f }) ∧
      (32768 ≤ s.fuse.topUsed → Completes .attestSign s a.ring a.idx d stDeviceError 0x86 0 0))) ∧
  (∀ (s : State), s.dev.sec.attests = [] ∨ s.dev.secBusy = true → Makes .attestSign s s.dev) ∧
  (∀ (d : Dev) (f : Fuses) (a : AttestReq) (b : List Byte), ∃ (e : Dev) (report : List Byte), e.sec.lowNext = d.sec.lowNext + 1 ∧ e.sec.lastSign = d.now ∧
    report.take (d.reportBody f (slice b 8 32) (1048576 - d.sec.lowNext - 1)).length = d.reportBody f (slice b 8 32) (1048576 - d.sec.lowNext - 1) ∧
    d.signReport f a b = e.output (.desc a.ring a.idx) (dOutAddr b) (report.take (attestLen b)) stDone 0 report.length 0 (resUnit := 1))

/-- R380: a pattern key is held for its owner and slot until it is dropped, its KEY_ID the result, none is taken while sealed, and one that
is no key is DENIED 0x82; the encapsulation key is written out. -/
def Sys2Proof.Says.KeysOfTenants : Prop :=
  (∀ (s : State) (ring idx : Nat) (b : List Byte), s.dev.ready ring idx 0x61 b → admits s.dev ring false [] →
    Makes (.kemPubkey ring idx) s ((s.dev.begun ring idx).output (.desc ring idx) (dOutAddr b) (slice Config.kemPublic 0 1568) stDone 0 1568 0 (resUnit := 1))) ∧
  (∀ (s : State) (ring idx slot : Nat) (b host : List Byte) (others : List PatternKey) (d : Dev), s.dev.ready ring idx 0x66 b →
    admits s.dev ring false [] → slot = field b 8 1 % 4 →
    d = (if 1 < field b 9 1 then (s.dev.begun ring idx).clamped 14 0 else s.dev.begun ring idx) →
    others = (s.dev.sec.keys.filter fun k => !(k.owner == s.dev.ringOwner ring && k.slot == slot)) →
    (s.dev.sec.state = 2 ∨ s.dev.sec.state = 3 → Completes (.keyRegister ring idx host) s ring idx d stDenied 0x80 0 0) ∧
    (s.dev.sec.state ≠ 2 → s.dev.sec.state ≠ 3 →
      (field b 9 1 ≠ 0 →
        (∀ k, (s.dev.sec.keys.find? fun k => k.owner == s.dev.ringOwner ring && k.slot == slot) = some k →
          Completes (.keyRegister ring idx host) s ring idx { d with sec := { d.sec with keys := others } } stDone 0 (field (sha256 k.key) 0 8) 0) ∧
        ((s.dev.sec.keys.find? fun k => k.owner == s.dev.ringOwner ring && k.slot == slot) = none →
          Completes (.keyRegister ring idx host) s ring idx { d with sec := { d.sec with keys := others } } stDone 0 0 0)) ∧
      (∀ key e, field b 9 1 = 0 → readsInput d ring (field b 40 8) 60 host key e →
        (hssKeyOk key = false → Completes (.keyRegister ring idx host) s ring idx e stDenied 0x82 0 0) ∧
        (hssKeyOk key = true → 1024 ≤ others.length → Completes (.keyRegister ring idx host) s ring idx e stDenied 4 0 0) ∧
        (hssKeyOk key = true → others.length < 1024 → Completes (.keyRegister ring idx host) s ring idx { e with
          sec := { e.sec with keys := { owner := s.dev.ringOwner ring, slot := slot, key := key } :: others } } stDone 0 (field (sha256 key) 0 8) 0)) ∧
      (∀ e h, field b 9 1 = 0 → nodePort (d.ringOwner ring) = none → d.readRun (some (d.ringOwner ring)) (field b 40 8) 60 = (.again h, e) →
        Makes (.keyRegister ring idx host) s (e.unclaim ring idx)) ∧
      (∀ e x y, field b 9 1 = 0 → nodePort (d.ringOwner ring) = none → d.readRun (some (d.ringOwner ring)) (field b 40 8) 60 = (.no x y, e) →
        Completes (.keyRegister ring idx host) s ring idx e stDeviceError 1 0 0)))

/-- R365, R366, R374, R375, R380: reports and their signatures, pattern keys and the encapsulation key. -/
def Obligations.AttestationAndKeys : Prop :=
  Says.Attestation ∧ Says.KeysOfTenants

/-- R367, R368: a firmware image is staged in the slot that does not run if its header, its signature, its size and its digest hold and its SVN is not below the
fuses', DENIED 0x82 or 0x87 otherwise; a staged one is dropped on demand; without the lease the command is DENIED 8. -/
def Sys2Proof.Says.FirmwareStaging : Prop :=
  ∀ (s : State) (ring idx len : Nat) (b img : List Byte) (ok : Bool), s.dev.ready ring idx 0x67 b → admits s.dev ring false [] →
    len = clampGrain 64 128 15728640 (field b 48 4) →
    (s.dev.hasLease (s.dev.ringOwner ring) = false → Completes (.fwStage ring idx img ok) s ring idx (s.dev.begun ring idx) stDenied 8 0 0) ∧
    (s.dev.hasLease (s.dev.ringOwner ring) = true →
      (∀ d e : Dev, field b 8 1 = 0 → d = (if len = field b 48 4 then s.dev.begun ring idx else (s.dev.begun ring idx).clamped 14 0) →
        e = { d with sec := d.sec.setSpare { valid := false, svn := 0 } false } →
        (imageOk img len ok = true → s.fuse.svn ≤ field img 4 4 → Completes (.fwStage ring idx img ok) s ring idx { e with
          sec := e.sec.setSpare (slotOf img) true } stDone 0 0 len) ∧
        (imageOk img len ok = true → field img 4 4 < s.fuse.svn → Completes (.fwStage ring idx img ok) s ring idx e stDenied 0x87 0 len) ∧
        (ok = false ∨ img.take 4 ≠ ascii "AMSK" ∨ len < 128 + field img 8 4 + field img 80 4 ∨ hssShaped (slice img (128 + field img 8 4) (field img 80 4)) = false ∨
          sha256 (slice img 128 (field img 8 4)) ≠ slice img 16 32 → Completes (.fwStage ring idx img ok) s ring idx e stDenied 0x82 0 len)) ∧
      (∀ d : Dev, field b 8 1 ≠ 0 → d = (if 1 < field b 8 1 then (s.dev.begun ring idx).clamped 14 0 else s.dev.begun ring idx) →
        (s.dev.sec.staged = true → Completes (.fwStage ring idx img ok) s ring idx
          { d with sec := d.sec.setSpare { valid := false, svn := 0 } false } stDone 0 0 0) ∧
        (s.dev.sec.staged = false → Completes (.fwStage ring idx img ok) s ring idx d stDone 0 0 0)))

/-- R378, R379, R450: a debug token opens its level until its lifetime ends or RELOCK, Open and Unlocked in Shared alone, Open
with no region; DECOMMISSION burns its fuse; a token is taken only with its fields, this part's number and nonce, and a signature; whatever
comes of a token, a new nonce is drawn; relocking closes. -/
def Sys2Proof.Says.DebugTokens : Prop :=
  (∀ (s : State) (ring idx lv life : Nat) (b t : List Byte) (sig : Bool) (d : Dev), leased s.dev ring idx 0x68 false [] b →
    lv = field t 5 1 → life = field t 48 4 → d = { s.dev.begun ring idx with
      free := s.dev.free + 1, sec := { s.dev.sec with debugNonce := (List.range 32).map (Config.freeByte s.dev.free) } } →
    (s.dev.tokenRefused s.fuse t sig = none → lv ≠ 3 → life = 0 → Completes (.debugUnlock ring idx t sig) s ring idx (d.debugTo lv 0) stDone 0 lv 0) ∧
    (s.dev.tokenRefused s.fuse t sig = none → lv ≠ 3 → life ≠ 0 →
      Completes (.debugUnlock ring idx t sig) s ring idx (d.debugTo lv (d.now + msTicks (1000 * life))) stDone 0 lv 0) ∧
    (s.dev.tokenRefused s.fuse t sig = none → lv = 3 → s.dev.sec.state ≠ 5 → ∃ u, exec (.debugUnlock ring idx t sig) s = .next u ∧
      u.fuse = { s.fuse with decommissioned := true } ∧ u.dev = d.decommission.completeDesc ring idx stDone 0 5 0) ∧
    (∀ det, s.dev.tokenRefused s.fuse t sig = some det → Completes (.debugUnlock ring idx t sig) s ring idx d stDenied det 0 0)) ∧
  (∀ (s : State) (ring idx : Nat) (b t : List Byte) (sig : Bool), s.dev.ready ring idx 0x68 b → admits s.dev ring false [] →
    s.dev.hasLease (s.dev.ringOwner ring) = false → Completes (.debugUnlock ring idx t sig) s ring idx (s.dev.begun ring idx) stDenied 8 0 0) ∧
  (∀ (d : Dev) (f : Fuses) (t : List Byte) (sig : Bool), d.tokenRefused f t sig = none →
    t.take 4 = ascii "KDBG" ∧ field t 4 1 = 1 ∧ field t 8 8 = Config.deviceId % 2 ^ 64 ∧ slice t 16 32 = slice d.sec.debugNonce 0 32 ∧
    sig = true ∧ field t 84 4 ≤ 16384 ∧ hssShaped (slice t 128 (field t 84 4)) = true ∧ 1 ≤ field t 5 1 ∧ field t 5 1 ≤ 3 ∧
    (field t 5 1 ≤ 2 → d.sec.state = 1) ∧ (field t 5 1 = 2 → d.pool.regions = [] ∧ f.openBarred = false)) ∧
  (∀ (s : State) (who : Nat), administers s.dev who → Makes (.relock who) s (s.dev.debugTo 0 0)) ∧
  (∀ (s : State), (s.dev.sec.debugExpiry ≠ 0 → Makes .debugLifetimeExpiry s ((s.dev.till s.dev.sec.debugExpiry).debugTo 0 0)) ∧
    (s.dev.sec.debugExpiry = 0 → Makes .debugLifetimeExpiry s s.dev)) ∧
  (∀ (d : Dev) (lv x : Nat), (d.debugTo lv x).sec.debugLevel = lv ∧ (d.debugTo lv x).sec.debugExpiry = x ∧ (d.debugTo lv x).sec.state = d.sec.state)

/-- R367, R368, R378, R379, R450: staging firmware, and debug levels. -/
def Obligations.FirmwareAndDebug : Prop :=
  Says.FirmwareStaging ∧ Says.DebugTokens

/-! ## Power and clocks (chapter 18) -/

/-- A descriptor of the power manager is served now: the head of its queue, in Run, begun with these bytes, nothing gating it, and
its ring's owner holds the lease (R385, R407). -/
abbrev Sys2Proof.served (d : Dev) (ring idx op : Nat) (b : List Byte) : Prop :=
  d.pmHead = some (ring, idx) ∧ d.pm.state = 1 ∧ leased d ring idx op false [] b

/-- The device with its power state changed. -/
def Sys2Proof.withPm (d : Dev) (f : PowerSt → PowerSt) : Dev := { d with pm := f d.pm }

/-- R382 to R387, R390, R409, R448: PROFILE_SET takes the lesser of the profile asked for and the highest; POWER_STATE begins the entry into
its target unless a mirror pair, unfinished work or the want of a wake source bars it, running jobs and a loopback aborted; at the
timeout what can be aborted is; entry is done when everything has drained, and a wake that came meanwhile begins at once; a wake leaves
the device in Run, with the plan's margins. Both commands are taken in their turn and in Run, from the lease holder. -/
def Sys2Proof.Says.ProfilesAndPowerStates : Prop :=
  (∀ (s : State) (ring idx p : Nat) (b : List Byte) (d : Dev), served s.dev ring idx 0x71 b → p = min (field b 8 1 % 4) Config.maxProfile →
    d = (if p = field b 8 1 % 4 then s.dev.begun ring idx else (s.dev.begun ring idx).clamped 1 0).profileTo p →
    Completes (.profileSet ring idx) s ring idx d stDone 0 p d.poweredPanels.length) ∧
  (∀ (s : State) (ring idx target timer : Nat) (b : List Byte) (c d : Dev), served s.dev ring idx 0x70 b →
    target = (if field b 8 1 = 2 then 3 else 2) → timer = min (field b 12 4) 86400000 →
    c = (if field b 8 1 = 1 ∨ field b 8 1 = 2 then s.dev.begun ring idx else (s.dev.begun ring idx).clamped 1 0) →
    d = (if timer = field b 12 4 then c else c.clamped 1 0) →
    (d.mir.role ≠ 0 → Completes (.powerState ring idx) s ring idx d stDenied 0x90 0 0) ∧
    (d.mir.role = 0 → d.entryBarred = true → Completes (.powerState ring idx) s ring idx d stDenied 0x91 0 0) ∧
    (d.mir.role = 0 → d.entryBarred = false → target = 3 → d.fld 0x20018 0 2 = 0 → timer = 0 →
      Completes (.powerState ring idx) s ring idx d stDenied 0x92 0 0) ∧
    (d.mir.role = 0 → d.entryBarred = false → target = 2 ∨ d.fld 0x20018 0 2 ≠ 0 ∨ timer ≠ 0 →
      Makes (.powerState ring idx) s (d.entryBegin target timer (.desc ring idx)))) ∧
  (∀ (s : State) (ring idx : Nat) (b : List Byte), s.dev.pmHead = some (ring, idx) → s.dev.pm.state = 1 → admits s.dev ring false [] →
    s.dev.hasLease (s.dev.ringOwner ring) = false →
    (s.dev.ready ring idx 0x71 b → Completes (.profileSet ring idx) s ring idx (s.dev.begun ring idx) stDenied 8 0 0) ∧
    (s.dev.ready ring idx 0x70 b → Completes (.powerState ring idx) s ring idx (s.dev.begun ring idx) stDenied 8 0 0)) ∧
  (∀ (s : State) (ring idx : Nat), s.dev.pmHead ≠ some (ring, idx) ∨ s.dev.pm.state ≠ 1 →
    Makes (.profileSet ring idx) s s.dev ∧ Makes (.powerState ring idx) s s.dev) ∧
  (∀ (d e f : Dev) (t n : Nat) (c : Caller), e = withPm d (fun k => { k with state := 4, entry := some (t, d.now, n, c), entryLate := false }) →
    f = (if d.test.loopback.isSome then e.loopAbort 4 else e) →
    d.entryBegin t n c = forEach ((f.jobs.jobs.filter fun j => 1 ≤ j.2.stage).map (·.1)) (fun id d => d.jobEnd id stAborted 4 (idResult id)) f) ∧
  (∀ (s : State) (t since n : Nat) (c : Caller), s.dev.pm.entry = some (t, since, n, c) → s.dev.pm.state = 4 →
    (s.dev.pm.entryLate = false → ∀ d : Dev, d = withPm (s.dev.till (since + msTicks (s.dev.fld 0x20000 16 8))) (fun k => { k with entryLate := true }) →
      Makes .entryTimeout s (forEach (d.entryWaits.filter fun x => abortable x.2.2) (fun x d => d.stopOp x.1 x.2.1 4) d)) ∧
    (s.dev.pm.entryLate = true → Makes .entryTimeout s s.dev) ∧
    (s.dev.entryDrained t = true → Makes .entryDrained s (s.dev.entryDone t n c)) ∧
    (s.dev.entryDrained t = false → Makes .entryDrained s s.dev)) ∧
  (∀ (d : Dev) (t n : Nat) (c : Caller), ∃ e f : Dev, e.pm.state = t ∧ e.pm.entry = none ∧ e.pm.depth = 0 ∧ (n = 0 → e.pm.wakeAt = none) ∧
    f = (if t = 3 then e.panelsFollow.refuseQueued.emberDown else e.panelsFollow.refuseQueued) ∧
    (f.pm.wakeDue = 0 → d.entryDone t n c = f) ∧
    (f.pm.wakeDue ≠ 0 → d.entryDone t n c = withPm f fun k => { k with
      state := 5, wakeFrom := t, wakeSrc := k.wakeDue, wakeDue := 0, wakeAt := none })) ∧
  (∀ (s : State) (ok : Bool) (found bad : List Nat), (s.dev.pm.state = 5 → Makes (.wakeDone ok found bad) s (s.dev.wakeDone found bad)) ∧
    (s.dev.pm.state ≠ 5 → Makes (.wakeDone ok found bad) s s.dev)) ∧
  (∀ (d : Dev) (found bad : List Nat), ∃ e f g x : Dev, e.pm.state = 1 ∧ e.pm.wakeAt = none ∧
    f = (if d.pm.wakeFrom = 3 then e.emberUp found else e) ∧ g = f.planRelax ∧
    x = (withPm g fun k => { k with vcoreMv := g.coreSet, vsramMv := 800 + g.age.force.sramGb }).panelsFollow ∧
    ∀ y, y = x.log 0x0100 (code := 1) (arg0 := g.pm.wakeSrc) →
      (y.age.planDue = false → d.wakeDone found bad = y) ∧
      (y.age.planDue = true → d.wakeDone found bad = ({ y with age := { y.age with planDue := false } } : Dev).planRun 1)) ∧
  (∀ (d : Dev) (p : Nat), ∃ e : Dev, d.profileTo p = e.log 0x0101 (code := p)) ∧
  (∀ (d : Dev), (d.poweredLinks d.pm.profile).length ≤ profileLinks d.pm.profile ∧
    (∀ l, d.glFld l 0 28 2 ≠ 0 → l < 24 → ((List.range 24).filter fun k => d.glFld k 0 28 2 != 0).length ≤ 12 → l ∈ d.poweredLinks d.pm.profile))

/-- R388, R389, R391, R447: a wake source that is enabled and can arrive starts the wake from Bank or Ember, or is latched during
entry; the timer is one at its time; an idle link may lower its transmitters in Bank. -/
def Sys2Proof.Says.WakeSources : Prop :=
  (∀ (s : State) (src : Nat), (s.dev.wakeSource src = true → Makes (.wake src) s (s.dev.wakeLatch src)) ∧
    (s.dev.wakeSource src = false → Makes (.wake src) s s.dev)) ∧
  (∀ (d : Dev) (src : Nat), (d.wakeSource 1 = true ↔ d.pm.state ≠ 3) ∧ (d.wakeSource 2 = true ↔ d.pm.state ≠ 3) ∧
    (d.wakeSource 3 = bit (d.reg 0x20018) 0) ∧ (d.wakeSource 4 = bit (d.reg 0x20018) 1) ∧ (5 ≤ src ∨ src = 0 → d.wakeSource src = false)) ∧
  (∀ (d : Dev) (src : Nat),
    (d.pm.state = 2 → d.wakeLatch src = withPm d fun k => { k with wakeFrom := 2, state := 5, wakeSrc := src }) ∧
    (d.pm.state = 3 → 3 ≤ src → d.wakeLatch src = withPm d fun k => { k with wakeFrom := 3, state := 5, wakeSrc := src }) ∧
    (d.pm.state = 3 → src < 3 → d.wakeLatch src = d) ∧
    (d.pm.state = 4 → d.pm.wakeDue = 0 → d.wakeLatch src = withPm d fun k => { k with wakeDue := src }) ∧
    (d.pm.state = 0 ∨ d.pm.state = 1 ∨ d.pm.state = 5 → d.wakeLatch src = d)) ∧
  (∀ (s : State) (t : Nat), s.dev.pm.wakeAt = some t →
    (s.dev.pm.state = 2 ∨ s.dev.pm.state = 3 → Makes .wakeTimer s (withPm (s.dev.till t) fun k => { k with
      wakeFrom := k.state, state := 5, wakeSrc := 5, wakeAt := none })) ∧
    (s.dev.pm.state ≠ 2 → s.dev.pm.state ≠ 3 → Makes .wakeTimer s s.dev)) ∧
  (∀ (s : State) (l : Nat),
    (s.dev.pm.state = 2 → (s.dev.link l).state = 6 → s.dev.queue l = [] → Makes (.linkTxPowerLower l) s (s.dev.setLink l fun k => { k with lowered := true })) ∧
    (s.dev.pm.state ≠ 2 ∨ (s.dev.link l).state ≠ 6 ∨ s.dev.queue l ≠ [] → Makes (.linkTxPowerLower l) s s.dev))

/-- R382 to R391: profiles, the entry into Bank and Ember, and the wake from them. -/
def Obligations.PowerStatesAndWake : Prop :=
  Says.ProfilesAndPowerStates ∧ Says.WakeSources

/-- R393 to R397, R403, R474: the damper holds the estimate at the least of the profile's, the alert's and the thermal limit, and gives a
sixteenth back every 20 µs below 98 %; an alert is in force until its release; a regulator's reading sets the throttle, and its
fault stops the device or disables what the rail feeds; a rail monitor that falls stops the device, junction temperature at 115 °C
trips it; the set-point of VDD_CORE follows the guardband. -/
def Obligations.DamperRailsAndTrips : Prop :=
  (∀ (s : State) (w : Nat) (d : Dev), s.dev.pm.state = 1 → d = { s.dev with
      age := { s.dev.age with force := { s.dev.age.force with knitCap := s.dev.age.aim.knitCap } } } →
    (s.dev.limitW < w → Makes (.damperCycle w) s d.damp ∧ d.damp.pm.depth = 16 ∧ d.damp.pm.releaseAt = s.dev.now + usTicks 20) ∧
    (w ≤ s.dev.limitW → s.dev.pm.depth = 0 → Makes (.damperCycle w) s d) ∧
    (w ≤ s.dev.limitW → s.dev.pm.depth ≠ 0 → s.dev.limitW * 98 < w * 100 →
      Makes (.damperCycle w) s (withPm d fun k => { k with releaseAt := s.dev.now + usTicks 20 })) ∧
    (w ≤ s.dev.limitW → s.dev.pm.depth ≠ 0 → w * 100 ≤ s.dev.limitW * 98 → s.dev.pm.releaseAt ≤ s.dev.now →
      Makes (.damperCycle w) s (withPm d fun k => { k with depth := k.depth - 1, releaseAt := s.dev.now + usTicks 20 })) ∧
    (w ≤ s.dev.limitW → s.dev.pm.depth ≠ 0 → w * 100 ≤ s.dev.limitW * 98 → s.dev.now < s.dev.pm.releaseAt → Makes (.damperCycle w) s d)) ∧
  (∀ (s : State) (w : Nat), s.dev.pm.state ≠ 1 → Makes (.damperCycle w) s s.dev) ∧
  (∀ (d : Dev), d.limitW ≤ profileWatts d.pm.profile ∧ (d.pm.alert = true → d.limitW ≤ d.fld 0x20008 16 16) ∧
    (d.pm.alert = false → d.pm.junction ≤ d.fld 0x2000C 24 8 → d.limitW = profileWatts d.pm.profile)) ∧
  (∀ (s : State), s.dev.pm.aonGood = true →
    (s.dev.pm.alert = false → Makes .pwrAlert s (((withPm s.dev fun k => { k with alert := true }).bump 0x20020 0).log 0x0103 (code := 1))) ∧
    (s.dev.pm.alert = true → Makes .pwrAlert s s.dev ∧ Makes .pwrAlertRelease s ((withPm s.dev fun k => { k with alert := false }).log 0x0103 (code := 0))) ∧
    (s.dev.pm.alert = false → Makes .pwrAlertRelease s s.dev)) ∧
  (∀ (s : State) (r j w : Nat) (hot : Bool) (c e : Dev), s.dev.boot.ready = true → s.dev.pm.state = 1 ∨ s.dev.pm.state = 2 ∨ s.dev.pm.state = 4 →
    s.dev.railListed r = true → hot = decide (s.dev.fld 0x2000C 24 8 < j) →
    c = withPm s.dev (fun k => { k with junction := j, watts := w, throttle := hot }) →
    e = (if hot = s.dev.pm.throttle then c else c.log 0x0104 (code := b2n hot) (arg0 := j)) →
    Makes (.regulatorPoll r false j w) s e ∧
    (∀ d : Dev, d = (withPm e fun k => { k with faultBit := true }).log 0x0105 (code := r) →
      (r = 0 ∨ r = 1 ∨ r = 3 ∨ r = 4 ∨ r = 5 → Makes (.regulatorPoll r true j w) s d.powerFaultStop) ∧
      (r = 2 ∨ 6 ≤ r → Makes (.regulatorPoll r true j w) s (d.railDown r)))) ∧
  (∀ (s : State) (r : Nat), s.dev.pm.aonGood = true →
    (s.dev.pm.state = 1 ∨ s.dev.pm.state = 2 ∨ s.dev.pm.state = 4 → r = 0 ∨ r = 1 ∨ r = 3 → Makes (.railMonitorFall r) s s.dev.powerFaultStop) ∧
    (s.dev.pm.state = 3 → r = 3 → Makes (.railMonitorFall r) s s.dev.powerFaultStop) ∧
    (s.dev.pm.state = 0 ∨ 5 ≤ s.dev.pm.state ∨ (r ≠ 0 ∧ r ≠ 1 ∧ r ≠ 3) → Makes (.railMonitorFall r) s s.dev)) ∧
  (∀ (s : State) (j : Nat), (j < 115 → Makes (.thermalTrip j) s s.dev) ∧
    (115 ≤ j → s.dev.pm.aonGood = true → ∃ d : Dev, Makes (.thermalTrip j) s d ∧ d.pm.tripped = true ∧ d.boot.phase = 0 ∧ d.boot.ready = false ∧
      d.out = .board 1 0 0 :: s.dev.out ∧ d.mem = [] ∧ d.far.media = s.dev.far.media)) ∧
  (∀ (s : State), s.dev.pm.state ≠ 1 → Makes .avsUpdate s s.dev) ∧
  (∀ (s : State), s.dev.pm.state = 1 → ∃ d : Dev, Makes .avsUpdate s d ∧ d.pm.vcoreMv = clampN 600 900 ((profileMv s.dev.pm.profile + s.dev.age.aim.coreGb) / 5 * 5) ∧
    d.pm.vsramMv = 800 + s.dev.age.aim.sramGb ∧ d.age.force.coreGb = s.dev.age.aim.coreGb ∧ d.mem = s.dev.mem)

/-- R398 to R400, R472, R473: power good starts the oscillator's wait, which ends at its time; the root PLL's lock takes the timebase from
the reference and starts the running islands at divisor 64, its loss stops every derived clock and breaks the links; an island's
divisor goes step by step, doubled down to the gate and halved up to full rate; power loss leaves what does not need power. -/
def Obligations.ClocksAndPower : Prop :=
  (∀ (s : State) (n : Nat), (s.dev.pm.aonGood = false →
      Makes (.alwaysOnPowerGood n) s (withPm s.dev fun k => { k with aonGood := true, oscWait := n % 8, oscAt := s.dev.now })) ∧
    (s.dev.pm.aonGood = true → Makes (.alwaysOnPowerGood n) s s.dev)) ∧
  (∀ (s : State), s.dev.pm.aonGood = true →
    (s.dev.pm.oscDone = false → Makes .oscWaitExpiry s (withPm (s.dev.till (s.dev.pm.oscAt + msTicks (2 ^ s.dev.pm.oscWait))) fun k => { k with oscDone := true })) ∧
    (s.dev.pm.oscDone = true → s.dev.pm.rootLocked = false → s.dev.pm.state ≠ 3 → ∃ d : Dev,
      d = (withPm s.dev fun k => { k with rootLocked := true, tbFromRef := false }) ∧
      Makes .rootPllLock s (forEach ((List.range 53).filter d.islandOn) (fun i d => d.setDivisor i 64) d))) ∧
  (∀ (s : State) (d e : Dev), d = (withPm s.dev fun k => { k with rootLocked := false, tbFromRef := true, divisors := [] }) →
    e = forEach ((List.range 24).filter fun l => (d.link l).state == 6) (fun l d => d.linkBreak l 8) d →
    (s.dev.pm.rootLocked = true → e.pm.state = 0 → Makes .rootPllLockLoss s e) ∧
    (s.dev.pm.rootLocked = true → e.pm.state ≠ 0 → Makes .rootPllLockLoss s (e.logSrc 0x0106)) ∧
    (s.dev.pm.rootLocked = false → Makes .rootPllLockLoss s s.dev)) ∧
  (∀ (s : State) (i cur target : Nat) (d : Dev), i < 53 → s.dev.pm.rootLocked = true → cur = tgetD s.dev.pm.divisors i 0 →
    target = (if s.dev.islandOn i then islandDiv i else 0) → d = s.dev.till (tgetD s.dev.pm.rampAt i 0 + nsTicks (s.dev.fld 0x30004 0 16)) →
    (cur = target → Makes (.clockRampStep i) s s.dev) ∧
    (cur ≠ target → target = 0 → 64 ≤ cur → Makes (.clockRampStep i) s (d.setDivisor i 0)) ∧
    (cur ≠ target → target = 0 → cur < 64 → Makes (.clockRampStep i) s (d.setDivisor i (2 * cur))) ∧
    (cur ≠ target → target ≠ 0 → cur = 0 → Makes (.clockRampStep i) s (d.setDivisor i 64)) ∧
    (cur ≠ target → target ≠ 0 → cur ≠ 0 → Makes (.clockRampStep i) s (d.setDivisor i (max target (cur / 2))))) ∧
  (∀ (s : State), ∃ d : Dev, Makes .powerLoss s d ∧ d.now = s.dev.now ∧ d.pm = {} ∧ d.boot = {} ∧ d.irq = {} ∧ d.regs = [] ∧ d.mem = [] ∧
    d.far.media = s.dev.far.media ∧ d.sec.state = s.dev.sec.state ∧ d.sec.weightKey = [] ∧ d.sec.lowerTree = false ∧ d.sec.debugLevel = 0 ∧
    d.age.copy0 = s.dev.age.copy0 ∧ d.age.copy1 = s.dev.age.copy1 ∧ d.age.pohHours = s.dev.age.flashPoh)

/-! ## Ageing (chapter 19) -/

/-- R405 to R409, R412, R414: a gauge's reading joins the worst of its period; a plan's outputs follow from the worst readings within their
bounds, guardbands never lower than the last plan's by more than one step; an installed plan takes the older copy's place, what tightens
taking effect and what relaxes waiting for a wake or a start-up, and an exhausted guardband is reported; a plan due outside Run waits for
it, and the one of start-up is installed where an output tightens or a link falls due; power-on hours go to the flash every ten. -/
def Sys2Proof.Says.GaugesAndPlans : Prop :=
  (∀ (s : State) (g r w : Nat), s.dev.pm.state = 1 → g < 1144 → w = (match tget s.dev.age.worst g with
      | some x => if 992 ≤ g ∧ g < 1120 then min x r else max x r
      | none => r) →
    Makes (.gaugeRead g r) s { s.dev with age := { s.dev.age with raw := tput s.dev.age.raw g r, worst := tput s.dev.age.worst g w } }) ∧
  (∀ (d : Dev) (t : Nat), (d.planNow t).version = d.age.plan.version + 1 ∧ (d.planNow t).coreGb ≤ d.coreBound ∧
    (d.coreWanted ≤ d.coreBound → d.age.plan.coreGb ≤ (d.planNow t).coreGb + 5) ∧ (d.planNow t).sramGb ≤ 100 ∧
    (d.planNow t).coreGb = min d.coreWanted d.coreBound ∧ (d.planNow t).sramGb = min 100 (5 * ceilDiv (d.mostIn 512 96 + 60 - 800) 5) ∧
    (d.mostIn 1120 24 ≤ d.fld 0x40004 16 16 → (d.planNow t).knitCap = 0) ∧
    (d.fld 0x40004 16 16 < d.mostIn 1120 24 → (d.planNow t).knitCap = 920000 / (1000 + d.mostIn 1120 24)) ∧
    (∀ x ∈ (d.planNow t).refQ, 4 ≤ x ∧ x ≤ 8) ∧ (d.planNow t).refQ.length = 6) ∧
  (∀ (d : Dev) (p : Plan), ∃ e : Dev, d.planInstall p false = (e.log 0x0140 (code := p.trigger) (arg0 := p.version)).msixBoth ∧
    e.age.plan = p ∧ (e.age.copy0 = some p ∨ e.age.copy1 = some p) ∧ e.age.worst = [] ∧ e.age.force = d.age.force ∧
    d.age.aim.coreGb ≤ e.age.aim.coreGb ∧ p.coreGb ≤ e.age.aim.coreGb ∧ d.age.aim.sramGb ≤ e.age.aim.sramGb ∧ e.mem = d.mem) ∧
  (∀ (d : Dev) (p : Plan), ∃ e : Dev, e.age.plan = p ∧ e.age.exhausted = true ∧
    d.planInstall p true = (((e.log 0x0140 (code := p.trigger) (arg0 := p.version)).msixBoth).logSrc 0x0143).msixBoth) ∧
  (∀ (d : Dev) (t : Nat), d.planRun t = d.planInstall (d.planNow t) (decide (d.coreBound < d.coreWanted))) ∧
  (∀ (d : Dev), d.planRelax.age.aim = d.age.plan.margins ∧ d.planRelax.age.force = d.age.plan.margins ∧ d.planRelax.age.pending = false) ∧
  (∀ (s : State), s.dev.pm.aonGood = true → ∀ d : Dev, d = s.dev.till (s.dev.age.pohAt + 10 * hourTicks) →
    Makes .pohUpdate s { d with age := { d.age with
      pohHours := d.age.pohHours + 10, pohAt := d.age.pohAt + 10 * hourTicks, flashPoh := d.age.pohHours + 10 } }) ∧
  (∀ (s : State) (due : Nat) (d : Dev), s.dev.boot.ready = true → s.dev.pmHead = none →
    due = s.dev.now + (s.dev.age.plan.poh + s.dev.fld 0x40000 4 12 - s.dev.age.pohHours) * hourTicks - (s.dev.now - s.dev.age.pohAt) →
    d = s.dev.till due →
    (s.dev.pm.state = 1 → Makes .planSchedule s (d.planRun 1)) ∧
    (s.dev.pm.state ≠ 1 → Makes .planSchedule s { d with age := { d.age with planDue := true } })) ∧
  (∀ (s : State) (d : Dev) (p : Plan) (m : Margins), s.dev.age.startPlan = true → s.dev.pm.state = 1 → s.dev.pmHead = none →
    d = { s.dev with age := { s.dev.age with startPlan := false } } → p = d.planNow 3 → m = d.age.plan.margins →
    (m.tighten p.margins = m → Nat.land p.retrainLinks d.age.plan.retrainLinks = p.retrainLinks →
      Nat.land p.retrainPcie d.age.plan.retrainPcie = p.retrainPcie → Makes .startUpPlan s d) ∧
    (m.tighten p.margins ≠ m ∨ Nat.land p.retrainLinks d.age.plan.retrainLinks ≠ p.retrainLinks ∨
      Nat.land p.retrainPcie d.age.plan.retrainPcie ≠ p.retrainPcie → Makes .startUpPlan s (d.planRun 3)))

/-- R410, R412, R413: AGE_PLAN computes a plan and installs it where its action says so, AGE_READ and AGE_RECORD write the plan that would be
made now and the installed one, which a client does not get in Shared; a link that is due is retrained, at most one at a time and one
every ten seconds, and a MIRROR link only while another carries the pair. -/
def Sys2Proof.Says.PlanDescriptors : Prop :=
  (∀ (s : State) (ring idx : Nat) (b : List Byte) (d : Dev), served s.dev ring idx 0x74 b →
    d = (if 1 < field b 8 1 then (s.dev.begun ring idx).clamped 1 1 else s.dev.begun ring idx) →
    (field b 8 1 = 0 → Makes (.agePlan ring idx) s ((d.planRun 2).output (.desc ring idx) (field b 40 8) (planRecord (d.planNow 2)) stDone 0
      (d.planNow 2).version 0)) ∧
    (field b 8 1 ≠ 0 → Makes (.agePlan ring idx) s (d.output (.desc ring idx) (field b 40 8) (planRecord (d.planNow 2)) stDone 0 (d.planNow 2).version 0))) ∧
  (∀ (s : State) (ring idx : Nat) (b : List Byte), s.dev.pmHead = some (ring, idx) → s.dev.pm.state = 1 → admits s.dev ring false [] →
    s.dev.hasLease (s.dev.ringOwner ring) = false → s.dev.ready ring idx 0x74 b →
    Completes (.agePlan ring idx) s ring idx (s.dev.begun ring idx) stDenied 8 0 0) ∧
  (∀ (s : State) (ring idx : Nat), s.dev.pmHead ≠ some (ring, idx) ∨ s.dev.pm.state ≠ 1 → Makes (.agePlan ring idx) s s.dev) ∧
  (∀ (s : State) (ring idx : Nat) (b : List Byte) (d : Dev), admits s.dev ring false [] → d = s.dev.begun ring idx →
    ((nodePort (s.dev.ringOwner ring)).isSome = true ∨ s.dev.personality ≠ 1 →
      (s.dev.ready ring idx 0x75 b →
        Makes (.ageRead ring idx) s (d.output (.desc ring idx) (field b 40 8) (planRecord { d.planNow 2 with version := 0 }) stDone 0 0 0)) ∧
      (s.dev.ready ring idx 0x76 b →
        Makes (.ageRecord ring idx) s (d.output (.desc ring idx) (field b 40 8) (planRecord d.age.plan) stDone 0 s.dev.age.plan.version 0))) ∧
    (nodePort (s.dev.ringOwner ring) = none → s.dev.personality = 1 →
      (s.dev.ready ring idx 0x75 b → Completes (.ageRead ring idx) s ring idx d stDenied 0x50 0 0) ∧
      (s.dev.ready ring idx 0x76 b → Completes (.ageRecord ring idx) s ring idx d stDenied 0x50 0 0))) ∧
  (∀ (s : State), s.dev.fld 0x40000 1 1 ≠ 0 → s.dev.pm.state = 1 → s.dev.age.retraining = none →
    (∀ l, ((List.range 24).find? fun l => nmem s.dev.age.retrainDue l && s.dev.retrainable l) = some l → ∃ d e : Dev, d = s.dev.till s.dev.age.retrainNext ∧
      e = ({ d with age := { d.age with retraining := some l, retrainNext := d.now + msTicks 10000 } }.log 0x0142 (code := l)).linkReset l ∧
      Makes .retrainStart s (if (e.link l).state = 7 ∧ e.glFld l 0 30 1 = 0 then e.linkReset l else e)) ∧
    (((List.range 24).find? fun l => nmem s.dev.age.retrainDue l && s.dev.retrainable l) = none → Makes .retrainStart s s.dev)) ∧
  (∀ (s : State), s.dev.age.retraining.isSome = true → Makes .retrainStart s s.dev) ∧
  (∀ (d : Dev) (l : Nat), d.retrainable l = true → d.glFld l 0 28 2 = 2 → ∃ k, k ≠ l ∧ k < 24 ∧ (d.link k).state = 6 ∧ d.glFld k 0 28 2 = 2) ∧
  (∀ (p : Plan), p.refQ.length = 6 → (planRecord p).length = 128)

/-- R405 to R414: gauges, the plans made of them, and the retraining they ask for. -/
def Obligations.AgeingPlans : Prop :=
  Says.GaugesAndPlans ∧ Says.PlanDescriptors

/-! ## Events, interrupts and counters (chapter 20) -/

/-- R416 to R419, R421, R422: an event waits in its place by time, in the always-on buffer where no stack serves; the writer puts the first
into the journal at the next index, its flag saying whether entries were lost before it, gives it to its readers and raises its input; the
journal holds the last 65,536; an event ring takes an entry that its filter admits, and counts one it has no room for. -/
def Sys2Proof.Says.TheJournal : Prop :=
  (∀ (s : State), s.dev.stacksServing = true → Makes .journalWrite s s.dev.journalWrite) ∧
  (∀ (s : State), s.dev.stacksServing = false → Makes .journalWrite s s.dev) ∧
  (∀ (d : Dev) (x y : Event) (rest : List Event), d.evt.buffer.foldl (fun h x => insertEvent x h) d.evt.held = x :: rest →
    y = (if d.evt.lost then { x with flags := Nat.lor x.flags 1 } else x) →
    ∃ e : Dev, e.evt.held = rest ∧ e.evt.buffer = [] ∧ e.evt.lost = false ∧ e.evt.head = d.evt.head + 1 ∧ tget e.evt.journal d.evt.head = some y ∧
      (keysRise d.evt.journal = true → ∀ j, j ≠ d.evt.head → d.evt.head < j + 65536 → tget e.evt.journal j = tget d.evt.journal j) ∧
      (keysRise d.evt.journal = true → 65536 ≤ d.evt.head → tget e.evt.journal (d.evt.head - 65536) = none) ∧
      e.now = (d.till (y.time + usTicks 2)).now ∧ e.mem = d.mem ∧ e.host = d.host ∧
      (y.source < 0xA00 → d.journalWrite = (e.deliverEvent d.evt.head y).raiseInput (inputOf y.source)) ∧
      (0xA00 ≤ y.source → d.journalWrite = e.deliverEvent d.evt.head y)) ∧
  (∀ (d : Dev) (i : Nat) (x : Event), d.host.rings = [] → d.host.sessions = [] → d.deliverEvent i x = d) ∧
  (∀ (d : Dev) (n i : Nat) (x y : Event), y = (if (d.ring n).dropped then { x with flags := Nat.lor x.flags 1 } else x) →
    ((d.ring n).filters x = false → d.copyEvent n i x = d) ∧
    ((d.ring n).filters x = true → (d.ring n).state = 3 ∨ ((d.ring n).state = 1 ∧ (d.ring n).slots ≤ (d.ring n).used + (d.ring n).held.length) →
      d.copyEvent n i x = (d.bump 0x60008 0).setRing n fun r => { r with dropped := true }) ∧
    ((d.ring n).filters x = true → (d.ring n).state = 1 → (d.ring n).used + (d.ring n).held.length < (d.ring n).slots →
      d.copyEvent n i x =
        (d.setRing n fun r => { r with dropped := false, held := r.held ++ [{ bytes := y.bytes i, ring := 1024, idx := i }] }).flushRing n)) ∧
  (∀ (d : Dev) (x : Event), (d.stacksServing = true → (d.event x).evt.held = insertEvent x d.evt.held) ∧
    (d.stacksServing = false → d.evt.buffer.length < 256 → (d.event x).evt.buffer = d.evt.buffer ++ [x]) ∧
    (d.stacksServing = false → 256 ≤ d.evt.buffer.length → (d.event x).evt.lost = true)) ∧
  (∀ (x : Event) (l : List Event), (insertEvent x l).length = l.length + 1 ∧ x ∈ insertEvent x l ∧ (∀ y ∈ l, y ∈ insertEvent x l) ∧
    ((l.Pairwise fun a b => a.time ≤ b.time) → (insertEvent x l).Pairwise fun a b => a.time ≤ b.time)) ∧
  (∀ (x : Event) (i : Nat), (x.bytes i).length = 32)

/-- R422 to R426, Table 20.4: an input is raised from INACTIVE to PENDING and from ACTIVE to ACTIVE_AND_PENDING; a core takes the one that
qualifies best, its pc at the vector; an end of interrupt for an input that is not ACTIVE there is ignored; another leaves it
INACTIVE, or ACTIVE where it was raised meanwhile, and then taken again before any of equal or lower priority. -/
def Obligations.CoreInterrupts : Prop :=
  (∀ (d : Dev) (n : Nat), (d.inputState n = 0 → d.raiseInput n = d.setInput n 1) ∧ (d.inputState n = 1 → d.raiseInput n = d.setInput n 1) ∧
    (d.inputState n = 2 → d.raiseInput n = d.setInput n 3) ∧ (d.inputState n = 3 → d.raiseInput n = d.setInput n 3) ∧
    (∀ v, v ≠ 0 → (d.setInput n v).inputState n = v) ∧ (keysRise d.irq.state = true → (d.setInput n 0).inputState n = 0)) ∧
  (∀ (s : State) (c n : Nat), c < 8 →
    (s.dev.nextInput c = some n → ∃ d : Dev, Makes (.irqTake c) s d ∧
      (nmem (s.dev.core c).again n = false → d.inputState n = 2) ∧ (nmem (s.dev.core c).again n = true → d.inputState n = s.dev.inputState n) ∧
      (d.core c).pc = s.dev.fld (0x50400 + 0x10 * c) 13 19 * 8192 + (if s.dev.inFast n then 0x1000 else 0) + n * 16 ∧
      (d.core c).handlers = { input := n, fast := s.dev.inFast n, prio := s.dev.inPrio n } :: (s.dev.core c).handlers ∧
      d.mem = s.dev.mem ∧ d.regs = s.dev.regs) ∧
    (s.dev.nextInput c = none → Makes (.irqTake c) s s.dev)) ∧
  (∀ (d : Dev) (c n : Nat), (d.core c).again = [] → d.nextInput c = some n → d.qualifies c n = true ∧
    ∀ m, m < 256 → d.qualifies c m = true → d.inPrio m < d.inPrio n ∨ (d.inPrio m = d.inPrio n ∧ n ≤ m)) ∧
  (∀ (d : Dev) (c n : Nat), n < 256 → (d.core c).again = [n] →
    ((∀ m, m < 256 → d.qualifies c m = true → d.inPrio m ≤ d.inPrio n) → d.nextInput c = some n) ∧
    (∀ m, m < 256 → d.qualifies c m = true → d.inPrio n < d.inPrio m → ∃ x, d.nextInput c = some x ∧ d.inPrio m ≤ d.inPrio x)) ∧
  (∀ (s : State) (c i n : Nat), c < 8 → n = i % 256 →
    (((s.dev.core c).handlers.any (·.input == n)) = false → Makes (.irqCoreEoi c i) s s.dev) ∧
    (((s.dev.core c).handlers.any (·.input == n)) = true →
      (s.dev.inputState n = 3 → ∃ d : Dev, Makes (.irqCoreEoi c i) s d ∧ d.inputState n = 2 ∧ nmem (d.core c).again n = true ∧
        (d.core c).handlers = (s.dev.core c).handlers.eraseP (·.input == n)) ∧
      (s.dev.inputState n ≠ 3 → Makes (.irqCoreEoi c i) s ((s.dev.setInput n 0).setCore c fun k => { k with
        handlers := k.handlers.eraseP (·.input == n) })))) ∧
  (∀ (s : State) (r : Nat), Makes (.irqSwi r) s (forEach ((List.range 8).filter (bit r)) (fun j d => d.raiseInput (248 + j)) s.dev))

/-- R388, R394, R427, R428, R432: an edge of a board input is latched unless one is, or within its rearm time; it is accepted when the
input has stayed low for its filter's ticks, and raises its input, PWR_ALERT_N the alert as well and WAKE_IN_N a wake where it is enabled;
shorter pulses are counted; a PTM dialogue takes the local and the master's time. -/
def Obligations.BoardInputs : Prop :=
  (∀ (s : State) (i : Nat), i < 6 → s.dev.pm.aonGood = true →
    ((s.dev.boardInput i).latched = false → (s.dev.boardInput i).rearmAt ≤ s.dev.now →
      Makes (.boardInputEdge i) s (s.dev.setBoard i { s.dev.boardInput i with latched := true, edgeAt := s.dev.now })) ∧
    ((s.dev.boardInput i).latched = true ∨ s.dev.now < (s.dev.boardInput i).rearmAt → Makes (.boardInputEdge i) s s.dev)) ∧
  (∀ (s : State) (i low n : Nat) (d : Dev), i < 6 → (s.dev.boardInput i).latched = true → n = s.dev.fld (0x50500 + 4 * i) 0 8 →
    d = s.dev.till ((s.dev.boardInput i).edgeAt + 8 * n) →
    (n ≤ low → Makes (.filterAccept i low) s ((d.setBoard i { latched := false, edgeAt := (s.dev.boardInput i).edgeAt, rearmAt := d.now + 8 * n }).edgeAccepted i)) ∧
    (low < n → Makes (.filterAccept i low) s
      ((s.dev.setBoard i { s.dev.boardInput i with latched := false }).bump (0x50500 + 4 * i) 8))) ∧
  (∀ (s : State) (i low : Nat), i < 6 → (s.dev.boardInput i).latched = false → Makes (.filterAccept i low) s s.dev) ∧
  (∀ (d : Dev) (i : Nat), (i < 4 → d.edgeAccepted i = d.raiseInput (240 + i)) ∧ (d.edgeAccepted 5 = (d.raiseInput 245).alertTo true) ∧
    (bit (d.reg 0x20018) 0 = true → d.edgeAccepted 4 = (d.raiseInput 244).wakeLatch 3) ∧
    (bit (d.reg 0x20018) 0 = false → d.edgeAccepted 4 = d.raiseInput 244)) ∧
  (∀ (s : State) (p t : Nat), p < 2 → s.dev.boot.ready = true →
    Makes (.ptmDialogue p t) s ((s.dev.setReg (0x10010 + 0x10 * p) s.dev.now).setReg (0x10018 + 0x10 * p) (t % 2 ^ 64)))

/-- R376, R377, R420, R421, R430, R431, R435: EVT_FILTER sets the ranges of an event ring of its owner, at most four, an end below its
start raised to it, each clamp counted; EVT_READ writes the entries its reader may see from an index on; PERF_LIST lists every counter,
PERF_READ writes counts as the reader sees them, or its own; a client sees its own entries, and none of another's in Shared; a node whose
session has EVENT_RING and no event ring is sent its own. -/
def Sys2Proof.Says.EventsAndCounters : Prop :=
  (∀ (s : State) (ring idx n k : Nat) (b : List Byte) (d : Dev) (raw : List (Nat × Nat)), s.dev.ready ring idx 0x78 b → admits s.dev ring false [15] →
    n = field b 8 2 % 1024 → d = s.dev.begun ring idx → k = min 4 (field b 10 1) →
    raw = (List.range k).map (fun i => (field b (16 + 4 * i) 2, field b (18 + 4 * i) 2)) →
    ((d.ring n).kind ≠ 2 ∨ d.ringOwner n ≠ d.ringOwner ring → Completes (.evtFilter ring idx) s ring idx d stDenied 0xA0 0 0) ∧
    (∀ c, (d.ring n).kind = 2 → d.ringOwner n = d.ringOwner ring →
      c = (raw.filter fun r => r.2 < r.1).length + b2n (k != field b 10 1) + b2n (1 < field b 11 1) →
      Completes (.evtFilter ring idx) s ring idx (((List.range c).foldl (fun d _ => d.clamped 0 4) d).setRing n fun r => { r with
        ranges := raw.map fun x => (x.1, max x.1 x.2), samples := field b 11 1 == 1 }) stDone 0 0 0)) ∧
  (∀ (s : State) (ring idx from_ len : Nat) (b : List Byte) (d : Dev) (x : List (List Byte) × Nat), s.dev.ready ring idx 0x79 b → admits s.dev ring false [15] →
    len = clampGrain 32 32 2097152 (field b 48 4) →
    d = (if len = field b 48 4 then s.dev.begun ring idx else (s.dev.begun ring idx).clamped 0 4) → from_ = max (field b 16 8) (d.evt.head - 65536) →
    x = d.readJournal (d.ringOwner ring) (len / 32) (d.evt.journal.filter fun e => from_ ≤ e.1) (min from_ (max from_ d.evt.head)) →
    Makes (.evtRead ring idx) s (d.output (.desc ring idx) (field b 40 8) x.1.flatten stDone 0 x.2 x.1.length (unit := 32))) ∧
  (∀ (d : Dev) (node room : Nat) (l : List (Nat × Event)) (next : Nat), (d.readJournal node room l next).1.length ≤ room ∧
    ∀ y ∈ (d.readJournal node room l next).1, ∃ e ∈ l, ∃ v, d.viewEvent node e.2 = some v ∧ y = v.bytes e.1) ∧
  (∀ (d : Dev) (node : Nat) (e : Event), nodePort node = none → d.personality = 1 → e.origin ≠ node → d.viewEvent node e = none) ∧
  (∀ (d : Dev) (node i : Nat) (e : Event),
    (e.origin ≠ node ∨ d.hasFeature node 15 = false ∨ (d.host.rings.any fun r => r.2.kind == 2 && r.2.enable && d.ringOwner r.1 == node) = true →
      d.sendEvent node i e = d) ∧
    (e.origin = node → d.hasFeature node 15 = true → (d.host.rings.any fun r => r.2.kind == 2 && r.2.enable && d.ringOwner r.1 == node) = false →
      d.sendEvent node i e = (d.request { cls := 0, opcode := 0x3C, src := d.ownNode, dst := node, tag := 0, addr := 0, len := 31, data := e.bytes i } 0 i).2)) ∧
  (∀ (s : State) (ring idx len : Nat) (b : List Byte) (d : Dev), admits s.dev ring false [] → s.dev.ready ring idx 0x7A b →
    len = clampGrain 16 16 16384 (field b 48 4) →
    d = (if len = field b 48 4 then s.dev.begun ring idx else (s.dev.begun ring idx).clamped 0 5) → ∃ recs : List (List Byte),
      recs.length = min (len / 16) counterList.length ∧ (∀ (k : Nat) (r : List Byte) (c : Nat × Nat), recs[k]? = some r → counterList[k]? = some c → field r 0 2 = c.1 % 65536 ∧ r.length = 16) ∧
      Makes (.perfList ring idx) s (d.output (.desc ring idx) (field b 40 8) recs.flatten stDone 0 counterList.length recs.length (unit := 16))) ∧
  (∀ (s : State) (ring idx : Nat) (b : List Byte) (d : Dev), admits s.dev ring false [] → d = s.dev.begun ring idx → s.dev.ready ring idx 0x7B b →
    (bit (field b 8 1) 0 = true → Makes (.perfRead ring idx) s (d.output (.desc ring idx) (field b 40 8)
      ((List.range 8).map fun i => natBytes 8 (tgetD d.perf.requester (d.ringOwner ring * 8 + i) 0)).flatten stDone 0 d.now 8 (unit := 8))) ∧
    (∀ lo n e, bit (field b 8 1) 0 = false → lo = field b 16 2 % 1024 → n = clampN 1 1024 (field b 18 2) →
      e = (if n = field b 18 2 then d else d.clamped 0 5) →
      Makes (.perfRead ring idx) s (e.output (.desc ring idx) (field b 40 8)
        ((List.range (min n (1024 - lo))).map fun i => e.counterBytes (d.ringOwner ring) (lo + i)).flatten stDone 0 e.now (min n (1024 - lo)) (unit := 8)))) ∧
  (∀ (d : Dev) (node v : Nat), (d.coarse node = false → d.seenCount node v = v) ∧ (d.seenCount node v ≤ v) ∧
    (d.coarse node = true → d.seenCount node v % 2 ^ d.fld 0x980008 0 5 = 0))

/-- R416 to R421, R430, R431, R435: the journal, who reads what of it, and the counters. -/
def Obligations.EventsReachTheirReaders : Prop :=
  Says.TheJournal ∧ Says.EventsAndCounters

/-! ## Start-up and resets (chapters 1, 21 and 22) -/

/-- R438 to R445, R447: START_UP begins with every register at its reset value and stops at the first cause of Table 21.5, or runs to the
links, a lower signature tree made with a fuse where the part may still sign; it brings a port back whose PERST# has gone while the device
is READY; READY burns the SVN fuses up to the running image's and puts the device in Run; PERST# on every enabled port, or in a low
power state, holds the device, and on one of two resets that port. -/
def Sys2Proof.Says.StartUp : Prop :=
  (∀ (s : State) (b : BootInfo),
    (s.dev.boot.phase = 0 → s.dev.pm.aonGood = true → s.dev.pm.rootLocked = true → s.dev.pm.tripped = false →
      s.dev.pm.powerFault = false → s.dev.allPerst = true →
      exec (.startUp b) s = .next { s with dev := (s.dev.bootUp s.fuse b).2, fuse := (s.dev.bootUp s.fuse b).1 }) ∧
    (s.dev.boot.phase ≠ 0 → s.dev.boot.ready = true → s.dev.allPerst = false → Makes (.startUp b) s (s.dev.perstRelease b.upLinks)) ∧
    (s.dev.boot.phase ≠ 0 ∨ s.dev.pm.aonGood = false ∨ s.dev.pm.rootLocked = false ∨ s.dev.pm.tripped = true ∨
      s.dev.pm.powerFault = true ∨ s.dev.allPerst = false → s.dev.boot.ready = false ∨ s.dev.allPerst = true → Makes (.startUp b) s s.dev)) ∧
  (∀ (f : Fuses) (d e : Dev) (b : BootInfo), e = forEach b.d2dFailed (fun i d => d.moduleFail i) (d.bootBegin.portsTrain b.upLinks) →
    (e.noFlue = true → d.bootUp f b = (f, e.bootStop 3)) ∧
    (e.noFlue = false → bootSlot f e.sec b = none → d.bootUp f b = (f, e.bootStop 1)) ∧
    (∀ k g, e.noFlue = false → bootSlot f e.sec b = some k →
      g = forEach (List.range 6) (fun s d => d.bootStack b.stacksOk b.castonRows s) { e with sec := { e.sec with
        activeSlot := k, runningSvn := (if k = 0 then e.sec.slotA.svn else e.sec.slotB.svn), staged := e.sec.staged && e.sec.activeSlot == k } } →
      (g.stacksActive.length < 5 →
        d.bootUp f b = (f, { g.bootStop 2 with boot := { (g.bootStop 2).boot with stacksUp := g.stacksActive } })) ∧
      (∀ h, 5 ≤ g.stacksActive.length → h = g.bootSets b → 5 ≤ h.stacksActive.length →
        (h.sec.state = 5 ∨ 32768 ≤ f.topUsed → d.bootUp f b = (f, h.bootRun b)) ∧
        (h.sec.state ≠ 5 → f.topUsed < 32768 → d.bootUp f b =
          ({ f with topUsed := f.topUsed + 1 }, ({ h with sec := { h.sec with lowerTree := true, lowNext := 0 } } : Dev).bootRun b))))) ∧
  (∀ (d : Dev) (b : BootInfo), ∃ e g h : Dev, e.boot.phase = 7 ∧ e.pm.profile = Config.maxProfile ∧ e.age.plan = d.age.restored ∧ e.age.startPlan = true ∧
    g = forEach (b.drives.filter fun x => x.1 < 4 && (forEach (b.dnLinks.filter fun x => x.1 < 4 && e.rootServes x.1) (fun x d => d.dnTrain x.1 (some x.2)) e).rootServes x.1)
      (fun x d => d.driveSeen x.1 x.2) (forEach (b.dnLinks.filter fun x => x.1 < 4 && e.rootServes x.1) (fun x d => d.dnTrain x.1 (some x.2)) e) ∧
    (g.sec.state = 0 → h = g.debugTo 2 0) ∧ (g.sec.state = 1 ∨ 5 ≤ g.sec.state → h = g) ∧
    (2 ≤ g.sec.state → g.sec.state ≤ 4 → h = ((g.secState 4).unsealBind.bindRest).secState 1) ∧
    d.bootRun b = forEach ((List.range 24).filter fun l => bit (h.reg (0x400000 + 0x10000 * l)) 31 && !h.linkHeld l) (fun l d => d.linkDetect l) h) ∧
  (∀ (d : Dev), d.bootBegin.now = 0 ∧ d.bootBegin.mem = [] ∧ d.bootBegin.boot.nodeId = Config.boardNodeId ∧ d.bootBegin.boot.perst0 = false ∧
    d.bootBegin.boot.perst1 = false ∧ d.bootBegin.sec.state = d.sec.state ∧ d.bootBegin.host.sessions = [] ∧ d.bootBegin.pool.regions = [] ∧
    d.bootBegin.far.media = d.far.media) ∧
  (∀ (f : Fuses) (c : SecSt) (b : BootInfo) (k : Nat), bootSlot f c b = some k →
    (k = 0 → c.slotA.valid = true ∧ f.svn ≤ c.slotA.svn) ∧ (k ≠ 0 → k = 1 ∧ c.slotB.valid = true ∧ f.svn ≤ c.slotB.svn)) ∧
  (∀ (s : State) (e : Dev), (s.dev.boot.phase ≠ 7 → Makes .ready s s.dev) ∧
    (s.dev.boot.phase = 7 → e = { s.dev with boot := { s.dev.boot with phase := 8, ready := true }, pm := { s.dev.pm with state := 1 } } →
      exec .ready s = .next { s with dev := e.panelsFollow.log 0x0100 (code := 1), fuse := { s.fuse with svn := max s.fuse.svn (min 64 s.dev.sec.runningSvn) } })) ∧
  (∀ (s : State) (c : Nat), (1 ≤ s.dev.boot.phase → s.dev.boot.phase ≤ 7 → 1 ≤ c → c ≤ 6 → Makes (.startupStop c) s (s.dev.bootStop c)) ∧
    (s.dev.boot.phase = 0 → s.dev.pm.aonGood = true → s.dev.pm.oscDone = true → s.dev.pm.rootLocked = false → Makes (.startupStop 4) s (s.dev.bootStop 4)) ∧
    (8 ≤ s.dev.boot.phase → Makes (.startupStop c) s s.dev)) ∧
  (∀ (d : Dev) (c : Nat), ∃ e : Dev, d.bootStop c = e.log 0x0901 (code := c) ∧ e.boot.phase = 9 ∧ e.boot.stop = c ∧ e.links = [] ∧
    e.boot.testEn = (c == 6)) ∧
  (∀ (s : State) (p : Nat) (d : Dev), portEnabled p = true → (if p = 0 then s.dev.boot.perst0 else s.dev.boot.perst1) = false →
    d = { s.dev with boot := if p = 0 then { s.dev.boot with perst0 := true } else { s.dev.boot with perst1 := true } } →
    (d.allPerst = true ∨ s.dev.pm.state = 2 ∨ s.dev.pm.state = 3 ∨ s.dev.pm.state = 5 → Makes (.perstAssert p) s (d.hold d.stopKept)) ∧
    (d.allPerst = false → s.dev.pm.state ≠ 2 → s.dev.pm.state ≠ 3 → s.dev.pm.state ≠ 5 →
      (s.dev.boot.ready = true → Makes (.perstAssert p) s (d.portReset p)) ∧ (s.dev.boot.ready = false → Makes (.perstAssert p) s d)))

/-- R18, R21, R446, R447, R466, R467: a partial reset of a component begins in Run, with its event and what it stops, once at a time, a
component number above 12 naming none; its end brings the component back or takes it out; a watchdog starts the same; a failed
die-to-die module is out of service, and with fewer than four left its flue die, with its links and its port; a port reset ends what
the port had; the node ID takes a value while nothing uses it. -/
def Sys2Proof.Says.PartialResets : Prop :=
  (∀ (s : State) (who c k : Nat) (d : Dev), k = c % 32 →
    d = (({ s.dev with boot := { s.dev.boot with inReset := s.dev.boot.inReset ++ [(k, s.dev.now)] } } : Dev).bump 0x18 0).log (0x0910 + k) (code := 1) →
    (k ≤ 12 → s.dev.running = true → (s.dev.boot.inReset.any (·.1 == k)) = false →
      (administers s.dev who → Makes (.partialReset who c) s ((d.resetLoop k).resetWork k)) ∧ Makes (.progressWatchdog k) s ((d.resetLoop k).resetWork k)) ∧
    (administers s.dev who → 13 ≤ k → k ≤ 30 → Makes (.partialReset who c) s (s.dev.clamped 0 0)) ∧
    (administers s.dev who → k = 31 ∨ (k ≤ 12 ∧ (s.dev.running = false ∨ (s.dev.boot.inReset.any (·.1 == k)) = true)) →
      Makes (.partialReset who c) s s.dev)) ∧
  (∀ (s : State) (c : Nat), s.dev.running = false ∨ 12 < c ∨ (s.dev.boot.inReset.any (·.1 == c)) = true → Makes (.progressWatchdog c) s s.dev) ∧
  (∀ (s : State) (c : Nat) (ok : Bool) (d : Dev), d = { s.dev with boot := { s.dev.boot with inReset := s.dev.boot.inReset.filter (·.1 != c) } } →
    ((s.dev.boot.inReset.any (·.1 == c)) = false → Makes (.partialResetEnd c ok) s s.dev) ∧
    ((s.dev.boot.inReset.any (·.1 == c)) = true →
      (ok = true → Makes (.partialResetEnd c ok) s ((d.resetGood c).log (0x0910 + c))) ∧
      (ok = false → Makes (.partialResetEnd c ok) s ((d.resetBad c).log (0x0910 + c))))) ∧
  (∀ (d : Dev) (c : Nat),
    (c < 6 → (d.stack c).state = 2 → d.resetWork c = (d.stackState c 3).eccDisarm) ∧ (c = 9 → d.resetWork c = d.resetGru) ∧
    (c = 8 → d.resetWork c = forEach ((d.jobs.jobs.filter fun j => j.2.stage == 2).map (·.1)) (fun id d => d.jobEnd id stDeviceError 0x400 (idResult id)) d) ∧
    (c = 10 → d.resetWork c = d.resetMovers) ∧ (c = 11 → d.resetWork c = d) ∧
    (c = 12 → d.resetWork c = forEach d.mirrorLinks (fun l d => d.linkBreak l 8) d) ∧ (c = 6 ∨ c = 7 → d.resetWork c = d.resetFlue (c - 6)) ∧
    (c < 6 → d.resetBad c = d.failStack c 1) ∧ (c = 6 ∨ c = 7 → d.resetBad c = d.flueDown (c - 6)) ∧
    (c = 8 → d.resetBad c = forEach (List.range 16) (fun p d => d.setPanel p fun q => { q with state := psRetired }) d)) ∧
  (∀ (s : State) (i : Nat) (e : Dev), s.dev.boot.phase ≠ 0 → e = { s.dev with boot := { s.dev.boot with d2dOff := nadd s.dev.boot.d2dOff i } } →
    (16 ≤ i ∨ nmem s.dev.boot.d2dOff i = true → Makes (.d2dModuleFail i) s s.dev) ∧
    (∀ d, i < 16 → nmem s.dev.boot.d2dOff i = false →
      d = (({ e with free := e.free + 1 } : Dev).log (0x0900 + Config.freeNumber e.free % 0xC0) (code := i)) →
      (4 ≤ d.modulesUp (i / 8) → Makes (.d2dModuleFail i) s d) ∧ (d.modulesUp (i / 8) < 4 → Makes (.d2dModuleFail i) s (d.flueDown (i / 8))))) ∧
  (∀ (d : Dev) (k : Nat), (nmem d.boot.flueOff k = true → d.flueDown k = d) ∧
    (nmem d.boot.flueOff k = false → ∃ e f : Dev, e.boot.flueOff = nadd d.boot.flueOff k ∧
      f = forEach [2 * k, 2 * k + 1] (fun n d => d.dnTrain n none)
        (forEach ((List.range 12).map (12 * k + ·)) (fun l d => if (d.link l).state = 0 then d else (d.linkBreak l 8).linkDetect l) e) ∧
      ∃ (g : Dev) (x : Nat), g = forEach ((forEach ((List.range 12).map (12 * k + ·)) (fun l d => if (d.link l).state = 0 then d else
          (d.linkBreak l 8).linkDetect l) e).far.drives.filter fun y => y.2.port / 2 == k) (fun y d => d.driveGone y.1 y.2) (f.portReset k) ∧
        d.flueDown k = ({ g with free := g.free + 1 } : Dev).log (0x0900 + x % 0xC0) (code := k))) ∧
  (∀ (s : State) (p : Nat), (p < 2 → Makes (.portReset p) s (s.dev.portReset p)) ∧ (2 ≤ p → Makes (.portReset p) s s.dev)) ∧
  (∀ (d : Dev) (p : Nat), (d.test.loopback = none → d.portReset p = d.portClear p) ∧
    (∀ k dp i t q, d.test.loopback = some (k, dp, i, t, q) → d.portReset p = if q = p then (d.loopAbort 5).portClear p else d.portClear p)) ∧
  (∀ (d : Dev) (p : Nat) (e : Dev), e = d.portClear p → (∀ x ∈ e.mov.xctx, x.2.port ≠ p) ∧
    (∀ x ∈ e.host.windowWaits, x.port ≠ p)) ∧
  (∀ (s : State) (who v n : Nat), administers s.dev who → n = v % 4096 →
    (1 ≤ n → n ≤ 0xEFF → s.dev.host.sessions = [] → (∀ l, l < 24 → (s.dev.link l).state ≠ 6) →
      Makes (.nodeIdWrite who v) s { s.dev with boot := { s.dev.boot with nodeId := n } }) ∧
    (n = 0 ∨ 0xEFF < n ∨ s.dev.host.sessions ≠ [] ∨ (∃ l, l < 24 ∧ (s.dev.link l).state = 6) → Makes (.nodeIdWrite who v) s s.dev.badAccess))

/-- R438 to R447, R466, R467: start-up and its stops, and the resets of the parts of the device. -/
def Obligations.StartUpAndResets : Prop :=
  Says.StartUp ∧ Says.PartialResets

/-! ## Testing (chapter 23) -/

/-- R459 to R462: a loopback starts on an interface its kind and state allow, none while one runs, with the clamped fields; it ends
PASSED, FAILED or ABORTED with its counts, and its interface returns; a failed die-to-die module stays out of service; a self-test runs on
a retired panel or where TEST_EN is set; its failure retires the panel, gives the cache sets spares, or takes the flue die out. -/
def Sys2Proof.Says.LoopbacksAndSelfTests : Prop :=
  (∀ (s : State) (who v k dp i : Nat) (d : Dev), administers s.dev who → d = s.dev.loopFields v → k = d.fld 0xA00000 28 2 → dp = d.fld 0xA00000 24 4 →
    i = d.fld 0xA00000 16 8 →
    (d.test.loopback.isSome = true → Makes (.loopbackStart who v) s { d with test := { d.test with lbResult := 3, lbReason := 1 } }) ∧
    (d.test.loopback = none → d.loopAllowed k dp i = false →
      Makes (.loopbackStart who v) s { d with free := d.free + 1, test := { d.test with lbResult := 3, lbReason := 2 } }) ∧
    (∀ e, d.test.loopback = none → d.loopAllowed k dp i = true → e = (drawn d).loopEnter k dp i →
      Makes (.loopbackStart who v) s { e with test := { e.test with
        loopback := some (k, dp, i, e.now + msTicks (e.fld 0xA00000 0 12), (nodePort who).getD 0), lbResult := 0, lbReason := 0, lbErrors := 0, lbChecked := 0 } })) ∧
  (∀ (d : Dev) (v : Nat), (d.loopFields v).fld 0xA00000 28 2 = bits v 28 2 ∧ 1 ≤ (d.loopFields v).fld 0xA00000 24 4 ∧
    1 ≤ (d.loopFields v).fld 0xA00000 0 12 ∧ (d.loopFields v).fld 0xA00000 0 12 ≤ 4000 ∧ (d.loopFields v).fld 0xA00000 16 8 ≤ 23) ∧
  (∀ (s : State) (who : Nat), administers s.dev who →
    (s.dev.test.loopback = none → Makes (.loopbackStop who) s s.dev) ∧
    (s.dev.test.loopback ≠ none → Makes (.loopbackStop who) s (s.dev.loopOver 4 6 s.dev.test.lbErrors s.dev.test.lbChecked))) ∧
  (∀ (s : State) (n c kind depth i stop port e x : Nat) (d : Dev), s.dev.test.loopback = some (kind, depth, i, stop, port) →
    d = (if kind = 2 ∧ 3 ≤ depth then s.dev else s.dev.till stop) → e = min n 0xFFFFFFFF →
    x = (if kind = 0 ∧ depth = 4 then 0 else if kind = 0 ∧ depth = 5 then s.dev.test.lbChecked else min c 0xFFFFFFFF) →
    (loopPasses kind depth n c = true → Makes (.loopbackEnd n c false) s (d.loopOver 1 0 e x)) ∧
    (kind ≠ 3 → (loopPasses kind depth n c = false → Makes (.loopbackEnd n c false) s (d.loopOver 2 0 e x)) ∧
      Makes (.loopbackEnd n c true) s (d.loopOver 2 3 e x)) ∧
    (kind = 3 → (loopPasses kind depth n c = false → Makes (.loopbackEnd n c false) s ((d.loopOver 2 0 e x).moduleOut i)) ∧
      Makes (.loopbackEnd n c true) s ((d.loopOver 2 3 e x).moduleOut i))) ∧
  (∀ (n c depth : Nat), (∀ kind, kind ≠ 0 → loopPasses kind depth n c = decide (n = 0)) ∧ (4 ≤ depth → loopPasses 0 depth n c = true) ∧
    (loopPasses 0 1 n c = decide (n ≤ 10 * c)) ∧ (depth = 2 ∨ depth = 3 → loopPasses 0 depth n c = decide (n = 0))) ∧
  (∀ (d e : Dev) (kind depth i stop port r x n c : Nat), d.test.loopback = some (kind, depth, i, stop, port) →
    e = { d with test := { d.test with loopback := none, lbResult := r, lbReason := x, lbErrors := n, lbChecked := c } } →
    (kind = 0 → depth ≠ 5 → d.loopOver r x n c = (((e.linkDetect i).log 0x0920 (code := r) (arg0 := x)).msix port 0)) ∧
    (kind = 0 → depth = 5 → d.loopOver r x n c = ((e.log 0x0920 (code := r) (arg0 := x)).msix port 0)) ∧
    (kind = 1 → d.loopOver r x n c =
      ((({ e with boot := { e.boot with dnDown := ndel e.boot.dnDown i } } : Dev).log 0x0920 (code := r) (arg0 := x)).msix port 0)) ∧
    (kind = 3 → r = 1 → d.loopOver r x n c =
      ((({ e with boot := { e.boot with d2dOff := ndel e.boot.d2dOff i } } : Dev).log 0x0920 (code := r) (arg0 := x)).msix port 0)) ∧
    (kind = 2 ∨ (kind = 3 ∧ r ≠ 1) → d.loopOver r x n c = ((e.log 0x0920 (code := r) (arg0 := x)).msix port 0))) ∧
  (∀ (s : State) (n c : Nat) (b : Bool), s.dev.test.loopback = none → Makes (.loopbackEnd n c b) s s.dev) ∧
  (∀ (s : State) (who t n : Nat) (c d : Dev), administers s.dev who → c = s.dev.bistTarget t → n = c.reg 0xA00010 % 2 ^ 31 →
    d = c.setReg 0xA00010 (2 ^ 31 + n) →
    (d.test.bist = none → d.boot.testEn = true ∨ (n < 16 ∧ (d.panel n).state = 5) →
      Makes (.bistStart who t) s { d with test := { d.test with bist := some n, bistResult := 0, bistFails := 0 } }) ∧
    (d.test.bist.isSome = true ∨ (d.boot.testEn = false ∧ (16 ≤ n ∨ (d.panel n).state ≠ 5)) →
      Makes (.bistStart who t) s { d with test := { d.test with bistResult := 3 } })) ∧
  (∀ (d : Dev) (t : Nat), (d.bistTarget t).reg 0xA00010 % 2 ^ 31 = min t 18 ∧ (d.bistTarget t).test = d.test) ∧
  (∀ (s : State) (n : Nat) (sets : List Nat), s.dev.test.bist = none → Makes (.bistEnd n sets) s s.dev) ∧
  (∀ (s : State) (n t : Nat) (sets : List Nat), s.dev.test.bist = some t →
    (n = 0 → Makes (.bistEnd n sets) s (({ s.dev with
      test := { s.dev.test with bist := none, bistResult := 1, bistFails := 0 } } : Dev).log 0x0921 (code := 1) (arg0 := t))) ∧
    (∀ d : Dev, n ≠ 0 → d = (({ s.dev with
        test := { s.dev.test with bist := none, bistResult := 2, bistFails := min n 0xFFFF } } : Dev).log 0x0921 (code := 2) (arg0 := t)) →
      (t < 16 → Makes (.bistEnd n sets) s (d.setPanel t fun q => { q with state := 5 })) ∧ (t = 16 → Makes (.bistEnd n sets) s (forEach sets (fun c d => d.cacheSpare c) d)) ∧
      (17 ≤ t → Makes (.bistEnd n sets) s (d.flueDown (t - 17)))))

/-- The instructions of the test access port with their codes (Table 23.7), what they do to the pins, and the wrapper they reach. -/
def Sys2Proof.tapRows : List (Instr × Nat × Nat) :=
  [(.samplePreload, 2, 0), (.extest, 3, 1), (.extestPulse, 4, 1), (.extestTrain, 5, 1), (.highz, 6, 2), (.clampInstruction, 7, 3)]

/-- R461, R463, R464: an instruction of the test access port is loaded where TEST_EN or the Open level admits it, and acts as BYPASS
elsewhere; IDCODE is always served and shifts the identification code out; BYPASS drives no pin; the wrapper of a stack is reached with
TEST_EN alone; an MCTP echo answers its payload. -/
def Sys2Proof.Says.TestAccess : Prop :=
  (∀ (s : State) (i : Instr) (c p : Nat), (i, c, p) ∈ tapRows →
    (s.dev.boot.testEn = true ∨ s.dev.sec.debugLevel = 2 → Makes i s { s.dev with test := { s.dev.test with ir := c, pins := p, wrapper := none } }) ∧
    (s.dev.boot.testEn = false → s.dev.sec.debugLevel ≠ 2 → Makes i s { s.dev with test := { s.dev.test with ir := 0xFF, pins := 0, wrapper := none } })) ∧
  (∀ (s : State), Makes .idcode s (({ s.dev with test := { s.dev.test with ir := 1, pins := 0, wrapper := none } } : Dev).emit (.sideband (natBytes 4 idCode)))) ∧
  (∀ (s : State) (c : Nat), (c < 0x100 → Makes (.bypass c) s { s.dev with test := { s.dev.test with ir := 0xFF, pins := 0, wrapper := none } }) ∧
    (0x100 ≤ c → Makes (.bypass c) s s.dev)) ∧
  (∀ (s : State) (k : Nat), k < 6 →
    (s.dev.boot.testEn = true → Makes (.wirStack k) s { s.dev with test := { s.dev.test with ir := 0x10 + k, pins := 0, wrapper := some k } }) ∧
    (s.dev.boot.testEn = false → s.dev.sec.debugLevel = 2 → Makes (.wirStack k) s { s.dev with test := { s.dev.test with ir := 0x10 + k, pins := 0, wrapper := none } }) ∧
    (s.dev.boot.testEn = false → s.dev.sec.debugLevel ≠ 2 → Makes (.wirStack k) s { s.dev with test := { s.dev.test with ir := 0xFF, pins := 0, wrapper := none } })) ∧
  (∀ (s : State) (b : List Byte), (s.dev.pm.aonGood = true → Makes (.mctpEcho b) s (s.dev.emit (.sideband b))) ∧
    (s.dev.pm.aonGood = false → Makes (.mctpEcho b) s s.dev)) ∧
  (idCode % 2 = 1 ∧ idCode / 2 ^ 12 % 2 ^ 16 = 0x0480 ∧ idCode / 2 ^ 28 = 1)

/-- R459 to R464: loopbacks, built-in self-tests and the test access port. -/
def Obligations.TestFeatures : Prop :=
  Says.LoopbacksAndSelfTests ∧ Says.TestAccess

/-! ## The block as a whole -/

/-- A step takes the command at the front and answers what its meaning answers on the rest of the queue; with none waiting, one tick of
the timebase passes, eight while it runs from the reference, none before always-on power is good, and what waited for an obstacle
that has gone goes on (the model's choice, log entry 2). The table spells no command by bits, so that no word puts one into the queue. -/
def Obligations.StepsAreCommands : Prop :=
  (∀ (c : Instr) (rest : List Instr) (s : State), s.pending = c :: rest → step s = exec c { s with pending := rest }) ∧
  (∀ (s : State), s.pending = [] → s.dev.pm.aonGood = true → s.dev.pm.tbFromRef = false →
    step s = .next { s with dev := ({ s.dev with now := s.dev.now + 1 } : Dev).settle }) ∧
  (∀ (s : State), s.pending = [] → s.dev.pm.aonGood = true → s.dev.pm.tbFromRef = true →
    step s = .next { s with dev := ({ s.dev with now := s.dev.now + 8 } : Dev).settle }) ∧
  (∀ (s : State), s.pending = [] → s.dev.pm.aonGood = false → step s = .next s) ∧
  (∀ (s : State) (n w : Nat), s.withFetchWord n w = s)

/-- R362, R365, R379: in every state, reachable or not, a step answers a next state; no fuse comes back; only READY, a signature, a
start-up and a debug token burn one; the counters stay within the part; no command touches the queue. -/
def Obligations.FusesOnlyBurn : Prop :=
  (∀ s : State, SafeStep s) ∧
  (∀ s t : State, s.fuse.legal → step s = .next t → t.fuse.legal) ∧
  (∀ (c : Instr) (s : State), ∃ t, exec c s = .next t ∧ t.pending = s.pending ∧ s.fuse.le t.fuse ∧
    (t.fuse.svn ≠ s.fuse.svn → c = .ready) ∧ (t.fuse.topUsed ≠ s.fuse.topUsed → c = .attestSign ∨ ∃ b, c = .startUp b) ∧
    (t.fuse.decommissioned ≠ s.fuse.decommissioned → ∃ r i k b, c = .debugUnlock r i k b))

/-- R11, R392, R415, R437, R472: after reset no command waits, always-on power is not yet good, the timebase stands at 0, memory lists
nothing and is in its canonical form, no fuse is blown, PERST# is asserted, and a register reads as its field table's reset
value. The values the spec does not give are those of log entries 2 and 3. -/
def Obligations.ResetState : Prop :=
  State.reset.pending = [] ∧ State.reset.dev.now = 0 ∧ State.reset.dev.pm.aonGood = false ∧ State.reset.dev.boot.ready = false ∧
  State.reset.dev.boot.perst0 = true ∧ State.reset.dev.boot.perst1 = true ∧ State.reset.memOk ∧ State.reset.dev.mem = [] ∧ State.reset.fuse.legal ∧
  State.reset.dev.pool.regions = [] ∧ State.reset.dev.host.sessions = [] ∧ State.reset.dev.host.rings = [] ∧ State.reset.dev.sec.debugLevel = 0 ∧
  (∀ off r, regAt (off % 0x2000000) = some r → State.reset.dev.reg off = r.resetVal (off % 0x2000000))

/-- R346, R350 to R353, R357: a full line that is written reads back, poison gone; a part of a line is laid over what the line held, and on a
line that cannot be read nothing is written; every byte of another line stays; memory keeps its canonical form. -/
def Sys2Proof.Says.LinesReadBack : Prop :=
  ∀ (d : Dev) (ext key addr : Nat) (bs : List Byte), Memory.wf d.mem = true → keysRise d.ecc.odd = true →
    (bs.length = 64 → key % 64 = 0 → (d.writeLine ext key addr bs).1 = true ∧ ((d.writeLine ext key addr bs).2.readLine ext key addr).1 = some bs) ∧
    (∀ old e, bs.length < 64 → key % 64 + bs.length ≤ 64 → old.length = 64 → d.readLine ext key addr = (some old, e) →
      (d.writeLine ext key addr bs).1 = true ∧ ((d.writeLine ext key addr bs).2.readLine ext key addr).1 = some (overlay old (key % 64) bs)) ∧
    (∀ e, bs.length < 64 → d.readLine ext key addr = (none, e) → d.writeLine ext key addr bs = (false, e)) ∧
    (∀ a, key % 64 + bs.length ≤ 64 → a / 64 ≠ key / 64 →
      (∀ old e, d.readLine ext key addr = (some old, e) → old.length = 64) → memGet (d.writeLine ext key addr bs).2.mem a = memGet d.mem a) ∧
    Memory.wf (d.writeLine ext key addr bs).2.mem = true

/-- R326, R327: each line of a frame has its own place under the map in force, six stacks or five: the place gives the line back; the home of
a line lies in the stack that the six-stack map gives it. -/
def Sys2Proof.Says.EveryLineHasItsPlace : Prop :=
  (∀ (d : Dev) (e f i : Nat), i < 2 ^ 19 → d.keyAt e (d.place e f i).1 (d.place e f i).2 = some (f * 2 ^ 25 + i * 64)) ∧
  (∀ (d : Dev) (e f i : Nat), i < 2 ^ 19 → (d.place e f i).1 < 6 ∧ d.retired ≠ some (d.place e f i).1) ∧
  (∀ (d : Dev) (e f i : Nat), i < 2 ^ 19 → d.retired = none → homeOf (e * 2 ^ 19 + i) / 8 = (d.place e f i).1) ∧
  (∀ line, homeOf line < 48 ∧ setOf line < 43690)

/-- R326, R327, R346, R350 to R353, R357: lines hold what is written to them, and each has a place of its own. -/
def Obligations.LinesAndPlaces : Prop :=
  Says.LinesReadBack ∧ Says.EveryLineHasItsPlace

/-- R85, R86: the transaction header holds every field of a message, none upon another: a message whose fields have their widths is what
its header and payload spell. -/
def Obligations.HeadersReadBack : Prop :=
  ∀ m : Msg, m.dst < 4096 → m.src < 4096 → m.cls < 4 → m.opcode < 256 → m.tag < 4096 → m.len < 256 → m.addr < 2 ^ 48 → m.xfer < 1024 → m.tc < 8 →
    ofHeader (headerOf m) m.data = m ∧ headerOf m < 2 ^ 118

/-- R348, R349: what the line code encodes it decodes, unchanged, whatever the line's place, data and metadata. -/
def Obligations.EncodedLinesDecode : Prop :=
  ∀ (a : Nat) (data : List Byte) (m : Byte), data.length = 64 → (encodeLine a data m).length = 72 ∧
    decodeLine a (encodeLine a data m) = some (encodeLine a data m, false)
end

