-- ==== Sys2Proof/Laws/Bytes.lean ====
section
/-! SUPPORT. Little-endian numbers, byte runs and their parts, and the length of a digest. -/

namespace Sys2Proof.Machine

@[simp] theorem natBytes_length (n v : Nat) : (natBytes n v).length = n := by
  induction n generalizing v with
  | zero => rfl
  | succ n ih => simp [natBytes, ih]

/-- The bytes of a number give it back, modulo what they hold. -/
theorem leNat_natBytes (n v : Nat) : leNat (natBytes n v) = v % 256 ^ n := by
  induction n generalizing v with
  | zero => simp [natBytes, leNat, Nat.mod_one]
  | succ n ih =>
    simp only [natBytes, leNat, ih, BitVec.toNat_ofNat]
    have h : 256 ^ (n + 1) = 256 * 256 ^ n := Nat.pow_succ'
    rw [h, Nat.mod_mul]

@[simp] theorem slice_length (l : List Byte) (i n : Nat) : (slice l i n).length = n := by
  simp only [slice, List.length_append, List.length_take, List.length_drop, List.length_replicate]
  omega

/-- A run is its own part. -/
theorem slice_self (l : List Byte) : slice l 0 l.length = l := by simp [slice]

/-- A part that lies within the middle run of three. -/
theorem slice_middle (a b c : List Byte) : slice (a ++ (b ++ c)) a.length b.length = b := by
  have h : b.length - ((a ++ (b ++ c)).length - a.length) = 0 := by simp only [List.length_append]; omega
  simp [slice]

theorem shaBlock_length (h : List (BitVec 32)) (b : List Byte) : (shaBlock h b).length = 8 := rfl

/-- A digest has 32 bytes. -/
theorem sha256_length (l : List Byte) : (sha256 l).length = 32 := by
  have hf : ∀ (bs : List (List Byte)) (h : List (BitVec 32)), h.length = 8 → (bs.foldl shaBlock h).length = 8 := by
    intro bs
    induction bs with
    | nil => intro h hh; exact hh
    | cons b bs ih => intro h _; exact ih _ (shaBlock_length h b)
  have h8 := hf (shaCut 64 ((shaPad l).length / 64) (shaPad l)) shaInit rfl
  simp only [sha256, List.length_flatten, List.map_map]
  have : ∀ h : List (BitVec 32), ((h.map fun x => (List.range 4).map fun i => BitVec.ofNat 8 (x.toNat / 256 ^ (3 - i))).map List.length).sum = 4 * h.length := by
    intro h
    induction h with
    | nil => rfl
    | cons x h ih => simp only [List.map_cons, List.sum_cons, ih, List.length_map, List.length_range, List.length_cons]; omega
  rw [← List.map_map, this, h8]

end Sys2Proof.Machine
end

