-- ==== Sys2Proof/Laws/Table.lean ====
section
/-! SUPPORT. The laws of sparse tables and of memory: reading after writing and removing, and the canonical forms
(keys strictly rising; no zero byte listed) kept by every operation. -/

namespace Sys2Proof.Machine

variable {α : Type}

/-- A bound below every key of a table. -/
def below (k : Nat) (t : Tbl α) : Prop := ∀ e ∈ t, k < e.1

theorem keysRise_cons (k : Nat) (v : α) (t : Tbl α) : keysRise ((k, v) :: t) = true ↔ below k t ∧ keysRise t = true := by
  simp [keysRise, below]

theorem tget_below (t : Tbl α) (k : Nat) (h : below k t) : tget t k = none := by
  cases t with
  | nil => rfl
  | cons e r =>
    have := h e (by simp)
    obtain ⟨a, v⟩ := e
    simp only at this
    simp only [tget]; rw [if_neg (by omega), if_pos this]

@[simp] theorem tget_tput_same (t : Tbl α) (k : Nat) (v : α) : tget (tput t k v) k = some v := by
  induction t with
  | nil => simp [tput, tget]
  | cons e r ih =>
    obtain ⟨a, w⟩ := e
    simp only [tput]
    split
    · simp [tget]
    · split
      · simp [tget]
      · rename_i h1 h2
        simp only [tget]; rw [if_neg h2, if_neg (by omega)]; exact ih

theorem tget_tput_other (t : Tbl α) (k j : Nat) (v : α) (h : j ≠ k) : tget (tput t k v) j = tget t j := by
  induction t with
  | nil => simp [tput, tget, h]
  | cons e r ih =>
    obtain ⟨a, w⟩ := e
    simp only [tput]
    split
    · rename_i h1
      simp only [tget]
      by_cases hj : j = a
      · subst hj; rw [if_neg (by omega), if_neg (by omega)]
      · rw [if_neg h]
        by_cases hk : j < k
        · rw [if_pos hk, if_neg hj, if_pos (by omega)]
        · rw [if_neg hk]
    · split
      · rename_i h1 h2; subst h2
        simp only [tget, if_neg h]
      · simp only [tget, ih]

theorem tget_tput (t : Tbl α) (k j : Nat) (v : α) : tget (tput t k v) j = if j = k then some v else tget t j := by
  split
  · rename_i h; subst h; exact tget_tput_same t j v
  · exact tget_tput_other t k j v ‹_›

theorem below_tput (t : Tbl α) (a k : Nat) (v : α) (h : below a t) (hk : a < k) : below a (tput t k v) := by
  induction t with
  | nil => intro e he; simp [tput] at he; subst he; exact hk
  | cons e r ih =>
    obtain ⟨b, w⟩ := e
    have hb : a < b := h (b, w) (by simp)
    have hr : below a r := fun e he => h e (by simp [he])
    simp only [tput]
    split
    · intro e he; simp at he
      rcases he with rfl | rfl | he
      · exact hk
      · exact hb
      · exact hr e he
    · split
      · intro e he; simp at he
        rcases he with rfl | he
        · exact hk
        · exact hr e he
      · intro e he; simp at he
        rcases he with rfl | he
        · exact hb
        · exact ih hr e he

/-- Storing keeps keys rising. -/
theorem keysRise_tput (t : Tbl α) (k : Nat) (v : α) (h : keysRise t = true) : keysRise (tput t k v) = true := by
  induction t with
  | nil => simp [tput, keysRise]
  | cons e r ih =>
    obtain ⟨b, w⟩ := e
    rw [keysRise_cons] at h
    simp only [tput]
    split
    · rename_i hk
      rw [keysRise_cons]
      refine ⟨?_, (keysRise_cons b w r).2 h⟩
      intro e he; simp at he
      rcases he with rfl | he
      · exact hk
      · exact Nat.lt_trans hk (h.1 e he)
    · split
      · rename_i _ hk; subst hk; exact (keysRise_cons _ _ _).2 h
      · rw [keysRise_cons]
        exact ⟨below_tput r b k v h.1 (by omega), ih h.2⟩

theorem mem_tdel (t : Tbl α) (k : Nat) (e : Nat × α) (h : e ∈ tdel t k) : e ∈ t := by
  induction t with
  | nil => simp [tdel] at h
  | cons x r ih =>
    obtain ⟨a, v⟩ := x
    simp only [tdel] at h
    split at h
    · exact h
    · split at h
      · simp [h]
      · simp at h
        rcases h with rfl | h
        · simp
        · simp [ih h]

/-- Removing keeps keys rising. -/
theorem keysRise_tdel (t : Tbl α) (k : Nat) (h : keysRise t = true) : keysRise (tdel t k) = true := by
  induction t with
  | nil => rfl
  | cons e r ih =>
    obtain ⟨a, v⟩ := e
    have h' := (keysRise_cons a v r).1 h
    simp only [tdel]
    split
    · exact h
    · split
      · exact h'.2
      · rw [keysRise_cons]
        exact ⟨fun e he => h'.1 e (mem_tdel r k e he), ih h'.2⟩

theorem tget_tdel_other (t : Tbl α) (k j : Nat) (h : j ≠ k) (hr : keysRise t = true) : tget (tdel t k) j = tget t j := by
  induction t with
  | nil => rfl
  | cons e r ih =>
    obtain ⟨a, v⟩ := e
    have h' := (keysRise_cons a v r).1 hr
    simp only [tdel]
    split
    · rfl
    · split
      · rename_i _ hk; subst hk
        simp only [tget, if_neg h]
        split
        · exact tget_below r j (fun e he => Nat.lt_trans ‹_› (h'.1 e he))
        · rfl
      · simp only [tget, ih h'.2]

theorem tget_tdel_same (t : Tbl α) (k : Nat) (hr : keysRise t = true) : tget (tdel t k) k = none := by
  induction t with
  | nil => rfl
  | cons e r ih =>
    obtain ⟨a, v⟩ := e
    have h' := (keysRise_cons a v r).1 hr
    simp only [tdel]
    split
    · rename_i hk
      simp only [tget]; rw [if_neg (by omega), if_pos hk]
    · split
      · rename_i _ hk; subst hk; exact tget_below r k h'.1
      · rename_i hk1 hk2
        simp only [tget]; rw [if_neg hk2, if_neg hk1]; exact ih h'.2

/-! ## Memory -/

theorem memory_wf_iff (m : List Host.Cell) : Memory.wf m = true ↔ keysRise m = true ∧ ∀ e ∈ m, e.2 ≠ 0 := by
  simp [Memory.wf]

theorem mem_tput (t : Tbl α) (k : Nat) (v : α) (e : Nat × α) (h : e ∈ tput t k v) : e = (k, v) ∨ e ∈ t := by
  induction t with
  | nil => simp [tput] at h; exact .inl h
  | cons x r ih =>
    obtain ⟨a, w⟩ := x
    simp only [tput] at h
    split at h
    · simp at h
      rcases h with rfl | rfl | h
      · exact .inl rfl
      · simp
      · simp [h]
    · split at h
      · simp at h
        rcases h with rfl | h
        · exact .inl rfl
        · simp [h]
      · simp at h
        rcases h with rfl | h
        · simp
        · rcases ih h with h | h
          · exact .inl h
          · simp [h]

/-- Writing one byte keeps the canonical form. -/
theorem memPut_wf (m : List Host.Cell) (a : Nat) (b : Byte) (h : Memory.wf m = true) : Memory.wf (memPut m a b) = true := by
  rw [memory_wf_iff] at h ⊢
  simp only [memPut]
  split
  · exact ⟨keysRise_tdel m a h.1, fun e he => h.2 e (mem_tdel m a e he)⟩
  · refine ⟨keysRise_tput m a b h.1, fun e he => ?_⟩
    rcases mem_tput m a b e he with rfl | he
    · assumption
    · exact h.2 e he

/-- Writing a run keeps the canonical form. -/
theorem memWrite_wf (l : List Byte) (m : List Host.Cell) (a : Nat) (h : Memory.wf m = true) :
    Memory.wf (memWrite m a l) = true := by
  induction l generalizing m a with
  | nil => exact h
  | cons b r ih => exact ih _ _ (memPut_wf m a b h)

theorem keysRise_filter (t : Tbl α) (p : Nat × α → Bool) (h : keysRise t = true) : keysRise (t.filter p) = true := by
  induction t with
  | nil => rfl
  | cons e r ih =>
    obtain ⟨a, v⟩ := e
    have h' := (keysRise_cons a v r).1 h
    simp only [List.filter_cons]
    split
    · rw [keysRise_cons]
      exact ⟨fun e he => h'.1 e (List.mem_of_mem_filter he), ih h'.2⟩
    · exact ih h'.2

/-- Clearing a run keeps the canonical form. -/
theorem memZero_wf (m : List Host.Cell) (a n : Nat) (h : Memory.wf m = true) : Memory.wf (memZero m a n) = true := by
  rw [memory_wf_iff] at h ⊢
  exact ⟨keysRise_filter m _ h.1, fun e he => h.2 e (List.mem_of_mem_filter he)⟩

/-- A byte written is read back. -/
theorem memGet_memPut_same (m : List Host.Cell) (a : Nat) (b : Byte) (h : Memory.wf m = true) :
    memGet (memPut m a b) a = b := by
  simp only [memGet, memPut, tgetD]
  split
  · rw [tget_tdel_same m a ((memory_wf_iff m).1 h).1]; simp [*]
  · simp

/-- A byte written leaves every other byte. -/
theorem memGet_memPut_other (m : List Host.Cell) (a c : Nat) (b : Byte) (h : Memory.wf m = true) (hc : c ≠ a) :
    memGet (memPut m a b) c = memGet m c := by
  simp only [memGet, memPut, tgetD]
  split
  · rw [tget_tdel_other m a c hc ((memory_wf_iff m).1 h).1]
  · rw [tget_tput_other m a c b hc]

/-- A run written leaves the bytes outside it. -/
theorem memGet_memWrite_outside (l : List Byte) (m : List Host.Cell) (a c : Nat) (h : Memory.wf m = true)
    (hc : c < a ∨ a + l.length ≤ c) : memGet (memWrite m a l) c = memGet m c := by
  induction l generalizing m a with
  | nil => rfl
  | cons b r ih =>
    simp only [List.length_cons] at hc
    simp only [memWrite]
    rw [ih _ _ (memPut_wf m a b h) (by omega), memGet_memPut_other m a c b h (by omega)]

/-- A byte of a run written reads back. -/
theorem memGet_memWrite_inside (l : List Byte) (m : List Host.Cell) (a i : Nat) (h : Memory.wf m = true)
    (hi : i < l.length) : memGet (memWrite m a l) (a + i) = l[i] := by
  induction l generalizing m a i with
  | nil => simp at hi
  | cons b r ih =>
    simp only [memWrite]
    cases i with
    | zero =>
      rw [memGet_memWrite_outside r _ _ _ (memPut_wf m a b h) (by omega)]
      simpa using memGet_memPut_same m a b h
    | succ i =>
      have := ih (memPut m a b) (a + 1) i (memPut_wf m a b h) (by simpa using hi)
      rw [show a + (i + 1) = a + 1 + i by omega, this]; rfl

/-- The memory of the reset state is canonical. -/
theorem reset_memory_wf : Memory.wf State.reset.dev.mem = true := rfl

end Sys2Proof.Machine
end

