-- ==== Sys2Proof/Laws/State.lean ====
section
/-! SUPPORT. The laws of State's updates: for each named update of one unit, every other field of the device reads as
before; what a unit reads after its own update; and what the lifts of a device operation leave alone. -/

namespace Sys2Proof.Machine

/-! ## What each update leaves unchanged -/

@[simp] theorem Dev.till_free (d : Dev) (t : Nat) : (d.till t).free = d.free := rfl
@[simp] theorem Dev.till_out (d : Dev) (t : Nat) : (d.till t).out = d.out := rfl
@[simp] theorem Dev.till_regs (d : Dev) (t : Nat) : (d.till t).regs = d.regs := rfl
@[simp] theorem Dev.till_halves (d : Dev) (t : Nat) : (d.till t).halves = d.halves := rfl
@[simp] theorem Dev.till_mem (d : Dev) (t : Nat) : (d.till t).mem = d.mem := rfl
@[simp] theorem Dev.till_poison (d : Dev) (t : Nat) : (d.till t).poison = d.poison := rfl
@[simp] theorem Dev.till_pool (d : Dev) (t : Nat) : (d.till t).pool = d.pool := rfl
@[simp] theorem Dev.till_host (d : Dev) (t : Nat) : (d.till t).host = d.host := rfl
@[simp] theorem Dev.till_fab (d : Dev) (t : Nat) : (d.till t).fab = d.fab := rfl
@[simp] theorem Dev.till_coh (d : Dev) (t : Nat) : (d.till t).coh = d.coh := rfl
@[simp] theorem Dev.till_knit (d : Dev) (t : Nat) : (d.till t).knit = d.knit := rfl
@[simp] theorem Dev.till_jobs (d : Dev) (t : Nat) : (d.till t).jobs = d.jobs := rfl
@[simp] theorem Dev.till_gru (d : Dev) (t : Nat) : (d.till t).gru = d.gru := rfl
@[simp] theorem Dev.till_mov (d : Dev) (t : Nat) : (d.till t).mov = d.mov := rfl
@[simp] theorem Dev.till_far (d : Dev) (t : Nat) : (d.till t).far = d.far := rfl
@[simp] theorem Dev.till_links (d : Dev) (t : Nat) : (d.till t).links = d.links := rfl
@[simp] theorem Dev.till_router (d : Dev) (t : Nat) : (d.till t).router = d.router := rfl
@[simp] theorem Dev.till_mir (d : Dev) (t : Nat) : (d.till t).mir = d.mir := rfl
@[simp] theorem Dev.till_stk (d : Dev) (t : Nat) : (d.till t).stk = d.stk := rfl
@[simp] theorem Dev.till_ecc (d : Dev) (t : Nat) : (d.till t).ecc = d.ecc := rfl
@[simp] theorem Dev.till_evt (d : Dev) (t : Nat) : (d.till t).evt = d.evt := rfl
@[simp] theorem Dev.till_irq (d : Dev) (t : Nat) : (d.till t).irq = d.irq := rfl
@[simp] theorem Dev.till_perf (d : Dev) (t : Nat) : (d.till t).perf = d.perf := rfl
@[simp] theorem Dev.till_sec (d : Dev) (t : Nat) : (d.till t).sec = d.sec := rfl
@[simp] theorem Dev.till_pm (d : Dev) (t : Nat) : (d.till t).pm = d.pm := rfl
@[simp] theorem Dev.till_age (d : Dev) (t : Nat) : (d.till t).age = d.age := rfl
@[simp] theorem Dev.till_boot (d : Dev) (t : Nat) : (d.till t).boot = d.boot := rfl
@[simp] theorem Dev.till_test (d : Dev) (t : Nat) : (d.till t).test = d.test := rfl
@[simp] theorem Dev.till_reg (d : Dev) (t : Nat) (x : Nat) : (d.till t).reg x = d.reg x := rfl
@[simp] theorem Dev.till_fld (d : Dev) (t : Nat) (x lo w : Nat) : (d.till t).fld x lo w = d.fld x lo w := rfl

@[simp] theorem Dev.emit_now (d : Dev) (o : Out) : (d.emit o).now = d.now := rfl
@[simp] theorem Dev.emit_free (d : Dev) (o : Out) : (d.emit o).free = d.free := rfl
@[simp] theorem Dev.emit_regs (d : Dev) (o : Out) : (d.emit o).regs = d.regs := rfl
@[simp] theorem Dev.emit_halves (d : Dev) (o : Out) : (d.emit o).halves = d.halves := rfl
@[simp] theorem Dev.emit_mem (d : Dev) (o : Out) : (d.emit o).mem = d.mem := rfl
@[simp] theorem Dev.emit_poison (d : Dev) (o : Out) : (d.emit o).poison = d.poison := rfl
@[simp] theorem Dev.emit_pool (d : Dev) (o : Out) : (d.emit o).pool = d.pool := rfl
@[simp] theorem Dev.emit_host (d : Dev) (o : Out) : (d.emit o).host = d.host := rfl
@[simp] theorem Dev.emit_fab (d : Dev) (o : Out) : (d.emit o).fab = d.fab := rfl
@[simp] theorem Dev.emit_coh (d : Dev) (o : Out) : (d.emit o).coh = d.coh := rfl
@[simp] theorem Dev.emit_knit (d : Dev) (o : Out) : (d.emit o).knit = d.knit := rfl
@[simp] theorem Dev.emit_jobs (d : Dev) (o : Out) : (d.emit o).jobs = d.jobs := rfl
@[simp] theorem Dev.emit_gru (d : Dev) (o : Out) : (d.emit o).gru = d.gru := rfl
@[simp] theorem Dev.emit_mov (d : Dev) (o : Out) : (d.emit o).mov = d.mov := rfl
@[simp] theorem Dev.emit_far (d : Dev) (o : Out) : (d.emit o).far = d.far := rfl
@[simp] theorem Dev.emit_links (d : Dev) (o : Out) : (d.emit o).links = d.links := rfl
@[simp] theorem Dev.emit_router (d : Dev) (o : Out) : (d.emit o).router = d.router := rfl
@[simp] theorem Dev.emit_mir (d : Dev) (o : Out) : (d.emit o).mir = d.mir := rfl
@[simp] theorem Dev.emit_stk (d : Dev) (o : Out) : (d.emit o).stk = d.stk := rfl
@[simp] theorem Dev.emit_ecc (d : Dev) (o : Out) : (d.emit o).ecc = d.ecc := rfl
@[simp] theorem Dev.emit_evt (d : Dev) (o : Out) : (d.emit o).evt = d.evt := rfl
@[simp] theorem Dev.emit_irq (d : Dev) (o : Out) : (d.emit o).irq = d.irq := rfl
@[simp] theorem Dev.emit_perf (d : Dev) (o : Out) : (d.emit o).perf = d.perf := rfl
@[simp] theorem Dev.emit_sec (d : Dev) (o : Out) : (d.emit o).sec = d.sec := rfl
@[simp] theorem Dev.emit_pm (d : Dev) (o : Out) : (d.emit o).pm = d.pm := rfl
@[simp] theorem Dev.emit_age (d : Dev) (o : Out) : (d.emit o).age = d.age := rfl
@[simp] theorem Dev.emit_boot (d : Dev) (o : Out) : (d.emit o).boot = d.boot := rfl
@[simp] theorem Dev.emit_test (d : Dev) (o : Out) : (d.emit o).test = d.test := rfl
@[simp] theorem Dev.emit_reg (d : Dev) (o : Out) (x : Nat) : (d.emit o).reg x = d.reg x := rfl
@[simp] theorem Dev.emit_fld (d : Dev) (o : Out) (x lo w : Nat) : (d.emit o).fld x lo w = d.fld x lo w := rfl

@[simp] theorem Dev.sendMsg_now (d : Dev) (m : Msg) : (d.sendMsg m).now = d.now := rfl
@[simp] theorem Dev.sendMsg_free (d : Dev) (m : Msg) : (d.sendMsg m).free = d.free := rfl
@[simp] theorem Dev.sendMsg_regs (d : Dev) (m : Msg) : (d.sendMsg m).regs = d.regs := rfl
@[simp] theorem Dev.sendMsg_halves (d : Dev) (m : Msg) : (d.sendMsg m).halves = d.halves := rfl
@[simp] theorem Dev.sendMsg_mem (d : Dev) (m : Msg) : (d.sendMsg m).mem = d.mem := rfl
@[simp] theorem Dev.sendMsg_poison (d : Dev) (m : Msg) : (d.sendMsg m).poison = d.poison := rfl
@[simp] theorem Dev.sendMsg_pool (d : Dev) (m : Msg) : (d.sendMsg m).pool = d.pool := rfl
@[simp] theorem Dev.sendMsg_host (d : Dev) (m : Msg) : (d.sendMsg m).host = d.host := rfl
@[simp] theorem Dev.sendMsg_fab (d : Dev) (m : Msg) : (d.sendMsg m).fab = d.fab := rfl
@[simp] theorem Dev.sendMsg_coh (d : Dev) (m : Msg) : (d.sendMsg m).coh = d.coh := rfl
@[simp] theorem Dev.sendMsg_knit (d : Dev) (m : Msg) : (d.sendMsg m).knit = d.knit := rfl
@[simp] theorem Dev.sendMsg_jobs (d : Dev) (m : Msg) : (d.sendMsg m).jobs = d.jobs := rfl
@[simp] theorem Dev.sendMsg_gru (d : Dev) (m : Msg) : (d.sendMsg m).gru = d.gru := rfl
@[simp] theorem Dev.sendMsg_mov (d : Dev) (m : Msg) : (d.sendMsg m).mov = d.mov := rfl
@[simp] theorem Dev.sendMsg_far (d : Dev) (m : Msg) : (d.sendMsg m).far = d.far := rfl
@[simp] theorem Dev.sendMsg_links (d : Dev) (m : Msg) : (d.sendMsg m).links = d.links := rfl
@[simp] theorem Dev.sendMsg_mir (d : Dev) (m : Msg) : (d.sendMsg m).mir = d.mir := rfl
@[simp] theorem Dev.sendMsg_stk (d : Dev) (m : Msg) : (d.sendMsg m).stk = d.stk := rfl
@[simp] theorem Dev.sendMsg_ecc (d : Dev) (m : Msg) : (d.sendMsg m).ecc = d.ecc := rfl
@[simp] theorem Dev.sendMsg_evt (d : Dev) (m : Msg) : (d.sendMsg m).evt = d.evt := rfl
@[simp] theorem Dev.sendMsg_irq (d : Dev) (m : Msg) : (d.sendMsg m).irq = d.irq := rfl
@[simp] theorem Dev.sendMsg_perf (d : Dev) (m : Msg) : (d.sendMsg m).perf = d.perf := rfl
@[simp] theorem Dev.sendMsg_sec (d : Dev) (m : Msg) : (d.sendMsg m).sec = d.sec := rfl
@[simp] theorem Dev.sendMsg_pm (d : Dev) (m : Msg) : (d.sendMsg m).pm = d.pm := rfl
@[simp] theorem Dev.sendMsg_age (d : Dev) (m : Msg) : (d.sendMsg m).age = d.age := rfl
@[simp] theorem Dev.sendMsg_boot (d : Dev) (m : Msg) : (d.sendMsg m).boot = d.boot := rfl
@[simp] theorem Dev.sendMsg_test (d : Dev) (m : Msg) : (d.sendMsg m).test = d.test := rfl
@[simp] theorem Dev.sendMsg_reg (d : Dev) (m : Msg) (x : Nat) : (d.sendMsg m).reg x = d.reg x := rfl
@[simp] theorem Dev.sendMsg_fld (d : Dev) (m : Msg) (x lo w : Nat) : (d.sendMsg m).fld x lo w = d.fld x lo w := rfl

@[simp] theorem Dev.setReg_now (d : Dev) (off v : Nat) : (d.setReg off v).now = d.now := rfl
@[simp] theorem Dev.setReg_free (d : Dev) (off v : Nat) : (d.setReg off v).free = d.free := rfl
@[simp] theorem Dev.setReg_out (d : Dev) (off v : Nat) : (d.setReg off v).out = d.out := rfl
@[simp] theorem Dev.setReg_halves (d : Dev) (off v : Nat) : (d.setReg off v).halves = d.halves := rfl
@[simp] theorem Dev.setReg_mem (d : Dev) (off v : Nat) : (d.setReg off v).mem = d.mem := rfl
@[simp] theorem Dev.setReg_poison (d : Dev) (off v : Nat) : (d.setReg off v).poison = d.poison := rfl
@[simp] theorem Dev.setReg_pool (d : Dev) (off v : Nat) : (d.setReg off v).pool = d.pool := rfl
@[simp] theorem Dev.setReg_host (d : Dev) (off v : Nat) : (d.setReg off v).host = d.host := rfl
@[simp] theorem Dev.setReg_fab (d : Dev) (off v : Nat) : (d.setReg off v).fab = d.fab := rfl
@[simp] theorem Dev.setReg_coh (d : Dev) (off v : Nat) : (d.setReg off v).coh = d.coh := rfl
@[simp] theorem Dev.setReg_knit (d : Dev) (off v : Nat) : (d.setReg off v).knit = d.knit := rfl
@[simp] theorem Dev.setReg_jobs (d : Dev) (off v : Nat) : (d.setReg off v).jobs = d.jobs := rfl
@[simp] theorem Dev.setReg_gru (d : Dev) (off v : Nat) : (d.setReg off v).gru = d.gru := rfl
@[simp] theorem Dev.setReg_mov (d : Dev) (off v : Nat) : (d.setReg off v).mov = d.mov := rfl
@[simp] theorem Dev.setReg_far (d : Dev) (off v : Nat) : (d.setReg off v).far = d.far := rfl
@[simp] theorem Dev.setReg_links (d : Dev) (off v : Nat) : (d.setReg off v).links = d.links := rfl
@[simp] theorem Dev.setReg_router (d : Dev) (off v : Nat) : (d.setReg off v).router = d.router := rfl
@[simp] theorem Dev.setReg_mir (d : Dev) (off v : Nat) : (d.setReg off v).mir = d.mir := rfl
@[simp] theorem Dev.setReg_stk (d : Dev) (off v : Nat) : (d.setReg off v).stk = d.stk := rfl
@[simp] theorem Dev.setReg_ecc (d : Dev) (off v : Nat) : (d.setReg off v).ecc = d.ecc := rfl
@[simp] theorem Dev.setReg_evt (d : Dev) (off v : Nat) : (d.setReg off v).evt = d.evt := rfl
@[simp] theorem Dev.setReg_irq (d : Dev) (off v : Nat) : (d.setReg off v).irq = d.irq := rfl
@[simp] theorem Dev.setReg_perf (d : Dev) (off v : Nat) : (d.setReg off v).perf = d.perf := rfl
@[simp] theorem Dev.setReg_sec (d : Dev) (off v : Nat) : (d.setReg off v).sec = d.sec := rfl
@[simp] theorem Dev.setReg_pm (d : Dev) (off v : Nat) : (d.setReg off v).pm = d.pm := rfl
@[simp] theorem Dev.setReg_age (d : Dev) (off v : Nat) : (d.setReg off v).age = d.age := rfl
@[simp] theorem Dev.setReg_boot (d : Dev) (off v : Nat) : (d.setReg off v).boot = d.boot := rfl
@[simp] theorem Dev.setReg_test (d : Dev) (off v : Nat) : (d.setReg off v).test = d.test := rfl

@[simp] theorem Dev.setStitch_now (d : Dev) (k : Nat) (f : Stitch → Stitch) : (d.setStitch k f).now = d.now := rfl
@[simp] theorem Dev.setStitch_free (d : Dev) (k : Nat) (f : Stitch → Stitch) : (d.setStitch k f).free = d.free := rfl
@[simp] theorem Dev.setStitch_out (d : Dev) (k : Nat) (f : Stitch → Stitch) : (d.setStitch k f).out = d.out := rfl
@[simp] theorem Dev.setStitch_regs (d : Dev) (k : Nat) (f : Stitch → Stitch) : (d.setStitch k f).regs = d.regs := rfl
@[simp] theorem Dev.setStitch_halves (d : Dev) (k : Nat) (f : Stitch → Stitch) : (d.setStitch k f).halves = d.halves := rfl
@[simp] theorem Dev.setStitch_mem (d : Dev) (k : Nat) (f : Stitch → Stitch) : (d.setStitch k f).mem = d.mem := rfl
@[simp] theorem Dev.setStitch_poison (d : Dev) (k : Nat) (f : Stitch → Stitch) : (d.setStitch k f).poison = d.poison := rfl
@[simp] theorem Dev.setStitch_pool (d : Dev) (k : Nat) (f : Stitch → Stitch) : (d.setStitch k f).pool = d.pool := rfl
@[simp] theorem Dev.setStitch_host (d : Dev) (k : Nat) (f : Stitch → Stitch) : (d.setStitch k f).host = d.host := rfl
@[simp] theorem Dev.setStitch_fab (d : Dev) (k : Nat) (f : Stitch → Stitch) : (d.setStitch k f).fab = d.fab := rfl
@[simp] theorem Dev.setStitch_coh (d : Dev) (k : Nat) (f : Stitch → Stitch) : (d.setStitch k f).coh = d.coh := rfl
@[simp] theorem Dev.setStitch_jobs (d : Dev) (k : Nat) (f : Stitch → Stitch) : (d.setStitch k f).jobs = d.jobs := rfl
@[simp] theorem Dev.setStitch_gru (d : Dev) (k : Nat) (f : Stitch → Stitch) : (d.setStitch k f).gru = d.gru := rfl
@[simp] theorem Dev.setStitch_mov (d : Dev) (k : Nat) (f : Stitch → Stitch) : (d.setStitch k f).mov = d.mov := rfl
@[simp] theorem Dev.setStitch_far (d : Dev) (k : Nat) (f : Stitch → Stitch) : (d.setStitch k f).far = d.far := rfl
@[simp] theorem Dev.setStitch_links (d : Dev) (k : Nat) (f : Stitch → Stitch) : (d.setStitch k f).links = d.links := rfl
@[simp] theorem Dev.setStitch_router (d : Dev) (k : Nat) (f : Stitch → Stitch) : (d.setStitch k f).router = d.router := rfl
@[simp] theorem Dev.setStitch_mir (d : Dev) (k : Nat) (f : Stitch → Stitch) : (d.setStitch k f).mir = d.mir := rfl
@[simp] theorem Dev.setStitch_stk (d : Dev) (k : Nat) (f : Stitch → Stitch) : (d.setStitch k f).stk = d.stk := rfl
@[simp] theorem Dev.setStitch_ecc (d : Dev) (k : Nat) (f : Stitch → Stitch) : (d.setStitch k f).ecc = d.ecc := rfl
@[simp] theorem Dev.setStitch_evt (d : Dev) (k : Nat) (f : Stitch → Stitch) : (d.setStitch k f).evt = d.evt := rfl
@[simp] theorem Dev.setStitch_irq (d : Dev) (k : Nat) (f : Stitch → Stitch) : (d.setStitch k f).irq = d.irq := rfl
@[simp] theorem Dev.setStitch_perf (d : Dev) (k : Nat) (f : Stitch → Stitch) : (d.setStitch k f).perf = d.perf := rfl
@[simp] theorem Dev.setStitch_sec (d : Dev) (k : Nat) (f : Stitch → Stitch) : (d.setStitch k f).sec = d.sec := rfl
@[simp] theorem Dev.setStitch_pm (d : Dev) (k : Nat) (f : Stitch → Stitch) : (d.setStitch k f).pm = d.pm := rfl
@[simp] theorem Dev.setStitch_age (d : Dev) (k : Nat) (f : Stitch → Stitch) : (d.setStitch k f).age = d.age := rfl
@[simp] theorem Dev.setStitch_boot (d : Dev) (k : Nat) (f : Stitch → Stitch) : (d.setStitch k f).boot = d.boot := rfl
@[simp] theorem Dev.setStitch_test (d : Dev) (k : Nat) (f : Stitch → Stitch) : (d.setStitch k f).test = d.test := rfl
@[simp] theorem Dev.setStitch_reg (d : Dev) (k : Nat) (f : Stitch → Stitch) (x : Nat) : (d.setStitch k f).reg x = d.reg x := rfl
@[simp] theorem Dev.setStitch_fld (d : Dev) (k : Nat) (f : Stitch → Stitch) (x lo w : Nat) : (d.setStitch k f).fld x lo w = d.fld x lo w := rfl

@[simp] theorem Dev.setPanel_now (d : Dev) (p : Nat) (f : Panel → Panel) : (d.setPanel p f).now = d.now := rfl
@[simp] theorem Dev.setPanel_free (d : Dev) (p : Nat) (f : Panel → Panel) : (d.setPanel p f).free = d.free := rfl
@[simp] theorem Dev.setPanel_out (d : Dev) (p : Nat) (f : Panel → Panel) : (d.setPanel p f).out = d.out := rfl
@[simp] theorem Dev.setPanel_regs (d : Dev) (p : Nat) (f : Panel → Panel) : (d.setPanel p f).regs = d.regs := rfl
@[simp] theorem Dev.setPanel_halves (d : Dev) (p : Nat) (f : Panel → Panel) : (d.setPanel p f).halves = d.halves := rfl
@[simp] theorem Dev.setPanel_mem (d : Dev) (p : Nat) (f : Panel → Panel) : (d.setPanel p f).mem = d.mem := rfl
@[simp] theorem Dev.setPanel_poison (d : Dev) (p : Nat) (f : Panel → Panel) : (d.setPanel p f).poison = d.poison := rfl
@[simp] theorem Dev.setPanel_pool (d : Dev) (p : Nat) (f : Panel → Panel) : (d.setPanel p f).pool = d.pool := rfl
@[simp] theorem Dev.setPanel_host (d : Dev) (p : Nat) (f : Panel → Panel) : (d.setPanel p f).host = d.host := rfl
@[simp] theorem Dev.setPanel_fab (d : Dev) (p : Nat) (f : Panel → Panel) : (d.setPanel p f).fab = d.fab := rfl
@[simp] theorem Dev.setPanel_coh (d : Dev) (p : Nat) (f : Panel → Panel) : (d.setPanel p f).coh = d.coh := rfl
@[simp] theorem Dev.setPanel_jobs (d : Dev) (p : Nat) (f : Panel → Panel) : (d.setPanel p f).jobs = d.jobs := rfl
@[simp] theorem Dev.setPanel_gru (d : Dev) (p : Nat) (f : Panel → Panel) : (d.setPanel p f).gru = d.gru := rfl
@[simp] theorem Dev.setPanel_mov (d : Dev) (p : Nat) (f : Panel → Panel) : (d.setPanel p f).mov = d.mov := rfl
@[simp] theorem Dev.setPanel_far (d : Dev) (p : Nat) (f : Panel → Panel) : (d.setPanel p f).far = d.far := rfl
@[simp] theorem Dev.setPanel_links (d : Dev) (p : Nat) (f : Panel → Panel) : (d.setPanel p f).links = d.links := rfl
@[simp] theorem Dev.setPanel_router (d : Dev) (p : Nat) (f : Panel → Panel) : (d.setPanel p f).router = d.router := rfl
@[simp] theorem Dev.setPanel_mir (d : Dev) (p : Nat) (f : Panel → Panel) : (d.setPanel p f).mir = d.mir := rfl
@[simp] theorem Dev.setPanel_stk (d : Dev) (p : Nat) (f : Panel → Panel) : (d.setPanel p f).stk = d.stk := rfl
@[simp] theorem Dev.setPanel_ecc (d : Dev) (p : Nat) (f : Panel → Panel) : (d.setPanel p f).ecc = d.ecc := rfl
@[simp] theorem Dev.setPanel_evt (d : Dev) (p : Nat) (f : Panel → Panel) : (d.setPanel p f).evt = d.evt := rfl
@[simp] theorem Dev.setPanel_irq (d : Dev) (p : Nat) (f : Panel → Panel) : (d.setPanel p f).irq = d.irq := rfl
@[simp] theorem Dev.setPanel_perf (d : Dev) (p : Nat) (f : Panel → Panel) : (d.setPanel p f).perf = d.perf := rfl
@[simp] theorem Dev.setPanel_sec (d : Dev) (p : Nat) (f : Panel → Panel) : (d.setPanel p f).sec = d.sec := rfl
@[simp] theorem Dev.setPanel_pm (d : Dev) (p : Nat) (f : Panel → Panel) : (d.setPanel p f).pm = d.pm := rfl
@[simp] theorem Dev.setPanel_age (d : Dev) (p : Nat) (f : Panel → Panel) : (d.setPanel p f).age = d.age := rfl
@[simp] theorem Dev.setPanel_boot (d : Dev) (p : Nat) (f : Panel → Panel) : (d.setPanel p f).boot = d.boot := rfl
@[simp] theorem Dev.setPanel_test (d : Dev) (p : Nat) (f : Panel → Panel) : (d.setPanel p f).test = d.test := rfl
@[simp] theorem Dev.setPanel_reg (d : Dev) (p : Nat) (f : Panel → Panel) (x : Nat) : (d.setPanel p f).reg x = d.reg x := rfl
@[simp] theorem Dev.setPanel_fld (d : Dev) (p : Nat) (f : Panel → Panel) (x lo w : Nat) : (d.setPanel p f).fld x lo w = d.fld x lo w := rfl

@[simp] theorem Dev.setSport_now (d : Dev) (n : Nat) (f : StreamPort → StreamPort) : (d.setSport n f).now = d.now := rfl
@[simp] theorem Dev.setSport_free (d : Dev) (n : Nat) (f : StreamPort → StreamPort) : (d.setSport n f).free = d.free := rfl
@[simp] theorem Dev.setSport_out (d : Dev) (n : Nat) (f : StreamPort → StreamPort) : (d.setSport n f).out = d.out := rfl
@[simp] theorem Dev.setSport_regs (d : Dev) (n : Nat) (f : StreamPort → StreamPort) : (d.setSport n f).regs = d.regs := rfl
@[simp] theorem Dev.setSport_halves (d : Dev) (n : Nat) (f : StreamPort → StreamPort) : (d.setSport n f).halves = d.halves := rfl
@[simp] theorem Dev.setSport_mem (d : Dev) (n : Nat) (f : StreamPort → StreamPort) : (d.setSport n f).mem = d.mem := rfl
@[simp] theorem Dev.setSport_poison (d : Dev) (n : Nat) (f : StreamPort → StreamPort) : (d.setSport n f).poison = d.poison := rfl
@[simp] theorem Dev.setSport_pool (d : Dev) (n : Nat) (f : StreamPort → StreamPort) : (d.setSport n f).pool = d.pool := rfl
@[simp] theorem Dev.setSport_host (d : Dev) (n : Nat) (f : StreamPort → StreamPort) : (d.setSport n f).host = d.host := rfl
@[simp] theorem Dev.setSport_fab (d : Dev) (n : Nat) (f : StreamPort → StreamPort) : (d.setSport n f).fab = d.fab := rfl
@[simp] theorem Dev.setSport_coh (d : Dev) (n : Nat) (f : StreamPort → StreamPort) : (d.setSport n f).coh = d.coh := rfl
@[simp] theorem Dev.setSport_jobs (d : Dev) (n : Nat) (f : StreamPort → StreamPort) : (d.setSport n f).jobs = d.jobs := rfl
@[simp] theorem Dev.setSport_gru (d : Dev) (n : Nat) (f : StreamPort → StreamPort) : (d.setSport n f).gru = d.gru := rfl
@[simp] theorem Dev.setSport_mov (d : Dev) (n : Nat) (f : StreamPort → StreamPort) : (d.setSport n f).mov = d.mov := rfl
@[simp] theorem Dev.setSport_far (d : Dev) (n : Nat) (f : StreamPort → StreamPort) : (d.setSport n f).far = d.far := rfl
@[simp] theorem Dev.setSport_links (d : Dev) (n : Nat) (f : StreamPort → StreamPort) : (d.setSport n f).links = d.links := rfl
@[simp] theorem Dev.setSport_router (d : Dev) (n : Nat) (f : StreamPort → StreamPort) : (d.setSport n f).router = d.router := rfl
@[simp] theorem Dev.setSport_mir (d : Dev) (n : Nat) (f : StreamPort → StreamPort) : (d.setSport n f).mir = d.mir := rfl
@[simp] theorem Dev.setSport_stk (d : Dev) (n : Nat) (f : StreamPort → StreamPort) : (d.setSport n f).stk = d.stk := rfl
@[simp] theorem Dev.setSport_ecc (d : Dev) (n : Nat) (f : StreamPort → StreamPort) : (d.setSport n f).ecc = d.ecc := rfl
@[simp] theorem Dev.setSport_evt (d : Dev) (n : Nat) (f : StreamPort → StreamPort) : (d.setSport n f).evt = d.evt := rfl
@[simp] theorem Dev.setSport_irq (d : Dev) (n : Nat) (f : StreamPort → StreamPort) : (d.setSport n f).irq = d.irq := rfl
@[simp] theorem Dev.setSport_perf (d : Dev) (n : Nat) (f : StreamPort → StreamPort) : (d.setSport n f).perf = d.perf := rfl
@[simp] theorem Dev.setSport_sec (d : Dev) (n : Nat) (f : StreamPort → StreamPort) : (d.setSport n f).sec = d.sec := rfl
@[simp] theorem Dev.setSport_pm (d : Dev) (n : Nat) (f : StreamPort → StreamPort) : (d.setSport n f).pm = d.pm := rfl
@[simp] theorem Dev.setSport_age (d : Dev) (n : Nat) (f : StreamPort → StreamPort) : (d.setSport n f).age = d.age := rfl
@[simp] theorem Dev.setSport_boot (d : Dev) (n : Nat) (f : StreamPort → StreamPort) : (d.setSport n f).boot = d.boot := rfl
@[simp] theorem Dev.setSport_test (d : Dev) (n : Nat) (f : StreamPort → StreamPort) : (d.setSport n f).test = d.test := rfl
@[simp] theorem Dev.setSport_reg (d : Dev) (n : Nat) (f : StreamPort → StreamPort) (x : Nat) : (d.setSport n f).reg x = d.reg x := rfl
@[simp] theorem Dev.setSport_fld (d : Dev) (n : Nat) (f : StreamPort → StreamPort) (x lo w : Nat) : (d.setSport n f).fld x lo w = d.fld x lo w := rfl

@[simp] theorem Dev.setJob_now (d : Dev) (id : Nat) (f : Job → Job) : (d.setJob id f).now = d.now := rfl
@[simp] theorem Dev.setJob_free (d : Dev) (id : Nat) (f : Job → Job) : (d.setJob id f).free = d.free := rfl
@[simp] theorem Dev.setJob_out (d : Dev) (id : Nat) (f : Job → Job) : (d.setJob id f).out = d.out := rfl
@[simp] theorem Dev.setJob_regs (d : Dev) (id : Nat) (f : Job → Job) : (d.setJob id f).regs = d.regs := rfl
@[simp] theorem Dev.setJob_halves (d : Dev) (id : Nat) (f : Job → Job) : (d.setJob id f).halves = d.halves := rfl
@[simp] theorem Dev.setJob_mem (d : Dev) (id : Nat) (f : Job → Job) : (d.setJob id f).mem = d.mem := rfl
@[simp] theorem Dev.setJob_poison (d : Dev) (id : Nat) (f : Job → Job) : (d.setJob id f).poison = d.poison := rfl
@[simp] theorem Dev.setJob_pool (d : Dev) (id : Nat) (f : Job → Job) : (d.setJob id f).pool = d.pool := rfl
@[simp] theorem Dev.setJob_host (d : Dev) (id : Nat) (f : Job → Job) : (d.setJob id f).host = d.host := rfl
@[simp] theorem Dev.setJob_fab (d : Dev) (id : Nat) (f : Job → Job) : (d.setJob id f).fab = d.fab := rfl
@[simp] theorem Dev.setJob_coh (d : Dev) (id : Nat) (f : Job → Job) : (d.setJob id f).coh = d.coh := rfl
@[simp] theorem Dev.setJob_knit (d : Dev) (id : Nat) (f : Job → Job) : (d.setJob id f).knit = d.knit := rfl
@[simp] theorem Dev.setJob_gru (d : Dev) (id : Nat) (f : Job → Job) : (d.setJob id f).gru = d.gru := rfl
@[simp] theorem Dev.setJob_mov (d : Dev) (id : Nat) (f : Job → Job) : (d.setJob id f).mov = d.mov := rfl
@[simp] theorem Dev.setJob_far (d : Dev) (id : Nat) (f : Job → Job) : (d.setJob id f).far = d.far := rfl
@[simp] theorem Dev.setJob_links (d : Dev) (id : Nat) (f : Job → Job) : (d.setJob id f).links = d.links := rfl
@[simp] theorem Dev.setJob_router (d : Dev) (id : Nat) (f : Job → Job) : (d.setJob id f).router = d.router := rfl
@[simp] theorem Dev.setJob_mir (d : Dev) (id : Nat) (f : Job → Job) : (d.setJob id f).mir = d.mir := rfl
@[simp] theorem Dev.setJob_stk (d : Dev) (id : Nat) (f : Job → Job) : (d.setJob id f).stk = d.stk := rfl
@[simp] theorem Dev.setJob_ecc (d : Dev) (id : Nat) (f : Job → Job) : (d.setJob id f).ecc = d.ecc := rfl
@[simp] theorem Dev.setJob_evt (d : Dev) (id : Nat) (f : Job → Job) : (d.setJob id f).evt = d.evt := rfl
@[simp] theorem Dev.setJob_irq (d : Dev) (id : Nat) (f : Job → Job) : (d.setJob id f).irq = d.irq := rfl
@[simp] theorem Dev.setJob_perf (d : Dev) (id : Nat) (f : Job → Job) : (d.setJob id f).perf = d.perf := rfl
@[simp] theorem Dev.setJob_sec (d : Dev) (id : Nat) (f : Job → Job) : (d.setJob id f).sec = d.sec := rfl
@[simp] theorem Dev.setJob_pm (d : Dev) (id : Nat) (f : Job → Job) : (d.setJob id f).pm = d.pm := rfl
@[simp] theorem Dev.setJob_age (d : Dev) (id : Nat) (f : Job → Job) : (d.setJob id f).age = d.age := rfl
@[simp] theorem Dev.setJob_boot (d : Dev) (id : Nat) (f : Job → Job) : (d.setJob id f).boot = d.boot := rfl
@[simp] theorem Dev.setJob_test (d : Dev) (id : Nat) (f : Job → Job) : (d.setJob id f).test = d.test := rfl
@[simp] theorem Dev.setJob_reg (d : Dev) (id : Nat) (f : Job → Job) (x : Nat) : (d.setJob id f).reg x = d.reg x := rfl
@[simp] theorem Dev.setJob_fld (d : Dev) (id : Nat) (f : Job → Job) (x lo w : Nat) : (d.setJob id f).fld x lo w = d.fld x lo w := rfl

@[simp] theorem Dev.setCtx_now (d : Dev) (c : Nat) (y : Context) : (d.setCtx c y).now = d.now := rfl
@[simp] theorem Dev.setCtx_free (d : Dev) (c : Nat) (y : Context) : (d.setCtx c y).free = d.free := rfl
@[simp] theorem Dev.setCtx_out (d : Dev) (c : Nat) (y : Context) : (d.setCtx c y).out = d.out := rfl
@[simp] theorem Dev.setCtx_regs (d : Dev) (c : Nat) (y : Context) : (d.setCtx c y).regs = d.regs := rfl
@[simp] theorem Dev.setCtx_halves (d : Dev) (c : Nat) (y : Context) : (d.setCtx c y).halves = d.halves := rfl
@[simp] theorem Dev.setCtx_mem (d : Dev) (c : Nat) (y : Context) : (d.setCtx c y).mem = d.mem := rfl
@[simp] theorem Dev.setCtx_poison (d : Dev) (c : Nat) (y : Context) : (d.setCtx c y).poison = d.poison := rfl
@[simp] theorem Dev.setCtx_pool (d : Dev) (c : Nat) (y : Context) : (d.setCtx c y).pool = d.pool := rfl
@[simp] theorem Dev.setCtx_host (d : Dev) (c : Nat) (y : Context) : (d.setCtx c y).host = d.host := rfl
@[simp] theorem Dev.setCtx_fab (d : Dev) (c : Nat) (y : Context) : (d.setCtx c y).fab = d.fab := rfl
@[simp] theorem Dev.setCtx_coh (d : Dev) (c : Nat) (y : Context) : (d.setCtx c y).coh = d.coh := rfl
@[simp] theorem Dev.setCtx_knit (d : Dev) (c : Nat) (y : Context) : (d.setCtx c y).knit = d.knit := rfl
@[simp] theorem Dev.setCtx_gru (d : Dev) (c : Nat) (y : Context) : (d.setCtx c y).gru = d.gru := rfl
@[simp] theorem Dev.setCtx_mov (d : Dev) (c : Nat) (y : Context) : (d.setCtx c y).mov = d.mov := rfl
@[simp] theorem Dev.setCtx_far (d : Dev) (c : Nat) (y : Context) : (d.setCtx c y).far = d.far := rfl
@[simp] theorem Dev.setCtx_links (d : Dev) (c : Nat) (y : Context) : (d.setCtx c y).links = d.links := rfl
@[simp] theorem Dev.setCtx_router (d : Dev) (c : Nat) (y : Context) : (d.setCtx c y).router = d.router := rfl
@[simp] theorem Dev.setCtx_mir (d : Dev) (c : Nat) (y : Context) : (d.setCtx c y).mir = d.mir := rfl
@[simp] theorem Dev.setCtx_stk (d : Dev) (c : Nat) (y : Context) : (d.setCtx c y).stk = d.stk := rfl
@[simp] theorem Dev.setCtx_ecc (d : Dev) (c : Nat) (y : Context) : (d.setCtx c y).ecc = d.ecc := rfl
@[simp] theorem Dev.setCtx_evt (d : Dev) (c : Nat) (y : Context) : (d.setCtx c y).evt = d.evt := rfl
@[simp] theorem Dev.setCtx_irq (d : Dev) (c : Nat) (y : Context) : (d.setCtx c y).irq = d.irq := rfl
@[simp] theorem Dev.setCtx_perf (d : Dev) (c : Nat) (y : Context) : (d.setCtx c y).perf = d.perf := rfl
@[simp] theorem Dev.setCtx_sec (d : Dev) (c : Nat) (y : Context) : (d.setCtx c y).sec = d.sec := rfl
@[simp] theorem Dev.setCtx_pm (d : Dev) (c : Nat) (y : Context) : (d.setCtx c y).pm = d.pm := rfl
@[simp] theorem Dev.setCtx_age (d : Dev) (c : Nat) (y : Context) : (d.setCtx c y).age = d.age := rfl
@[simp] theorem Dev.setCtx_boot (d : Dev) (c : Nat) (y : Context) : (d.setCtx c y).boot = d.boot := rfl
@[simp] theorem Dev.setCtx_test (d : Dev) (c : Nat) (y : Context) : (d.setCtx c y).test = d.test := rfl
@[simp] theorem Dev.setCtx_reg (d : Dev) (c : Nat) (y : Context) (x : Nat) : (d.setCtx c y).reg x = d.reg x := rfl
@[simp] theorem Dev.setCtx_fld (d : Dev) (c : Nat) (y : Context) (x lo w : Nat) : (d.setCtx c y).fld x lo w = d.fld x lo w := rfl

@[simp] theorem Dev.setRing_now (d : Dev) (n : Nat) (f : Ring → Ring) : (d.setRing n f).now = d.now := rfl
@[simp] theorem Dev.setRing_free (d : Dev) (n : Nat) (f : Ring → Ring) : (d.setRing n f).free = d.free := rfl
@[simp] theorem Dev.setRing_out (d : Dev) (n : Nat) (f : Ring → Ring) : (d.setRing n f).out = d.out := rfl
@[simp] theorem Dev.setRing_regs (d : Dev) (n : Nat) (f : Ring → Ring) : (d.setRing n f).regs = d.regs := rfl
@[simp] theorem Dev.setRing_halves (d : Dev) (n : Nat) (f : Ring → Ring) : (d.setRing n f).halves = d.halves := rfl
@[simp] theorem Dev.setRing_mem (d : Dev) (n : Nat) (f : Ring → Ring) : (d.setRing n f).mem = d.mem := rfl
@[simp] theorem Dev.setRing_poison (d : Dev) (n : Nat) (f : Ring → Ring) : (d.setRing n f).poison = d.poison := rfl
@[simp] theorem Dev.setRing_pool (d : Dev) (n : Nat) (f : Ring → Ring) : (d.setRing n f).pool = d.pool := rfl
@[simp] theorem Dev.setRing_fab (d : Dev) (n : Nat) (f : Ring → Ring) : (d.setRing n f).fab = d.fab := rfl
@[simp] theorem Dev.setRing_coh (d : Dev) (n : Nat) (f : Ring → Ring) : (d.setRing n f).coh = d.coh := rfl
@[simp] theorem Dev.setRing_knit (d : Dev) (n : Nat) (f : Ring → Ring) : (d.setRing n f).knit = d.knit := rfl
@[simp] theorem Dev.setRing_jobs (d : Dev) (n : Nat) (f : Ring → Ring) : (d.setRing n f).jobs = d.jobs := rfl
@[simp] theorem Dev.setRing_gru (d : Dev) (n : Nat) (f : Ring → Ring) : (d.setRing n f).gru = d.gru := rfl
@[simp] theorem Dev.setRing_mov (d : Dev) (n : Nat) (f : Ring → Ring) : (d.setRing n f).mov = d.mov := rfl
@[simp] theorem Dev.setRing_far (d : Dev) (n : Nat) (f : Ring → Ring) : (d.setRing n f).far = d.far := rfl
@[simp] theorem Dev.setRing_links (d : Dev) (n : Nat) (f : Ring → Ring) : (d.setRing n f).links = d.links := rfl
@[simp] theorem Dev.setRing_router (d : Dev) (n : Nat) (f : Ring → Ring) : (d.setRing n f).router = d.router := rfl
@[simp] theorem Dev.setRing_mir (d : Dev) (n : Nat) (f : Ring → Ring) : (d.setRing n f).mir = d.mir := rfl
@[simp] theorem Dev.setRing_stk (d : Dev) (n : Nat) (f : Ring → Ring) : (d.setRing n f).stk = d.stk := rfl
@[simp] theorem Dev.setRing_ecc (d : Dev) (n : Nat) (f : Ring → Ring) : (d.setRing n f).ecc = d.ecc := rfl
@[simp] theorem Dev.setRing_evt (d : Dev) (n : Nat) (f : Ring → Ring) : (d.setRing n f).evt = d.evt := rfl
@[simp] theorem Dev.setRing_irq (d : Dev) (n : Nat) (f : Ring → Ring) : (d.setRing n f).irq = d.irq := rfl
@[simp] theorem Dev.setRing_perf (d : Dev) (n : Nat) (f : Ring → Ring) : (d.setRing n f).perf = d.perf := rfl
@[simp] theorem Dev.setRing_sec (d : Dev) (n : Nat) (f : Ring → Ring) : (d.setRing n f).sec = d.sec := rfl
@[simp] theorem Dev.setRing_pm (d : Dev) (n : Nat) (f : Ring → Ring) : (d.setRing n f).pm = d.pm := rfl
@[simp] theorem Dev.setRing_age (d : Dev) (n : Nat) (f : Ring → Ring) : (d.setRing n f).age = d.age := rfl
@[simp] theorem Dev.setRing_boot (d : Dev) (n : Nat) (f : Ring → Ring) : (d.setRing n f).boot = d.boot := rfl
@[simp] theorem Dev.setRing_test (d : Dev) (n : Nat) (f : Ring → Ring) : (d.setRing n f).test = d.test := rfl
@[simp] theorem Dev.setRing_reg (d : Dev) (n : Nat) (f : Ring → Ring) (x : Nat) : (d.setRing n f).reg x = d.reg x := rfl
@[simp] theorem Dev.setRing_fld (d : Dev) (n : Nat) (f : Ring → Ring) (x lo w : Nat) : (d.setRing n f).fld x lo w = d.fld x lo w := rfl

@[simp] theorem Dev.setPort_now (d : Dev) (p : Nat) (f : PortSt → PortSt) : (d.setPort p f).now = d.now := by unfold Dev.setPort; split <;> rfl
@[simp] theorem Dev.setPort_free (d : Dev) (p : Nat) (f : PortSt → PortSt) : (d.setPort p f).free = d.free := by unfold Dev.setPort; split <;> rfl
@[simp] theorem Dev.setPort_out (d : Dev) (p : Nat) (f : PortSt → PortSt) : (d.setPort p f).out = d.out := by unfold Dev.setPort; split <;> rfl
@[simp] theorem Dev.setPort_regs (d : Dev) (p : Nat) (f : PortSt → PortSt) : (d.setPort p f).regs = d.regs := by unfold Dev.setPort; split <;> rfl
@[simp] theorem Dev.setPort_halves (d : Dev) (p : Nat) (f : PortSt → PortSt) : (d.setPort p f).halves = d.halves := by unfold Dev.setPort; split <;> rfl
@[simp] theorem Dev.setPort_mem (d : Dev) (p : Nat) (f : PortSt → PortSt) : (d.setPort p f).mem = d.mem := by unfold Dev.setPort; split <;> rfl
@[simp] theorem Dev.setPort_poison (d : Dev) (p : Nat) (f : PortSt → PortSt) : (d.setPort p f).poison = d.poison := by unfold Dev.setPort; split <;> rfl
@[simp] theorem Dev.setPort_pool (d : Dev) (p : Nat) (f : PortSt → PortSt) : (d.setPort p f).pool = d.pool := by unfold Dev.setPort; split <;> rfl
@[simp] theorem Dev.setPort_fab (d : Dev) (p : Nat) (f : PortSt → PortSt) : (d.setPort p f).fab = d.fab := by unfold Dev.setPort; split <;> rfl
@[simp] theorem Dev.setPort_coh (d : Dev) (p : Nat) (f : PortSt → PortSt) : (d.setPort p f).coh = d.coh := by unfold Dev.setPort; split <;> rfl
@[simp] theorem Dev.setPort_knit (d : Dev) (p : Nat) (f : PortSt → PortSt) : (d.setPort p f).knit = d.knit := by unfold Dev.setPort; split <;> rfl
@[simp] theorem Dev.setPort_jobs (d : Dev) (p : Nat) (f : PortSt → PortSt) : (d.setPort p f).jobs = d.jobs := by unfold Dev.setPort; split <;> rfl
@[simp] theorem Dev.setPort_gru (d : Dev) (p : Nat) (f : PortSt → PortSt) : (d.setPort p f).gru = d.gru := by unfold Dev.setPort; split <;> rfl
@[simp] theorem Dev.setPort_mov (d : Dev) (p : Nat) (f : PortSt → PortSt) : (d.setPort p f).mov = d.mov := by unfold Dev.setPort; split <;> rfl
@[simp] theorem Dev.setPort_far (d : Dev) (p : Nat) (f : PortSt → PortSt) : (d.setPort p f).far = d.far := by unfold Dev.setPort; split <;> rfl
@[simp] theorem Dev.setPort_links (d : Dev) (p : Nat) (f : PortSt → PortSt) : (d.setPort p f).links = d.links := by unfold Dev.setPort; split <;> rfl
@[simp] theorem Dev.setPort_router (d : Dev) (p : Nat) (f : PortSt → PortSt) : (d.setPort p f).router = d.router := by unfold Dev.setPort; split <;> rfl
@[simp] theorem Dev.setPort_mir (d : Dev) (p : Nat) (f : PortSt → PortSt) : (d.setPort p f).mir = d.mir := by unfold Dev.setPort; split <;> rfl
@[simp] theorem Dev.setPort_stk (d : Dev) (p : Nat) (f : PortSt → PortSt) : (d.setPort p f).stk = d.stk := by unfold Dev.setPort; split <;> rfl
@[simp] theorem Dev.setPort_ecc (d : Dev) (p : Nat) (f : PortSt → PortSt) : (d.setPort p f).ecc = d.ecc := by unfold Dev.setPort; split <;> rfl
@[simp] theorem Dev.setPort_evt (d : Dev) (p : Nat) (f : PortSt → PortSt) : (d.setPort p f).evt = d.evt := by unfold Dev.setPort; split <;> rfl
@[simp] theorem Dev.setPort_irq (d : Dev) (p : Nat) (f : PortSt → PortSt) : (d.setPort p f).irq = d.irq := by unfold Dev.setPort; split <;> rfl
@[simp] theorem Dev.setPort_perf (d : Dev) (p : Nat) (f : PortSt → PortSt) : (d.setPort p f).perf = d.perf := by unfold Dev.setPort; split <;> rfl
@[simp] theorem Dev.setPort_sec (d : Dev) (p : Nat) (f : PortSt → PortSt) : (d.setPort p f).sec = d.sec := by unfold Dev.setPort; split <;> rfl
@[simp] theorem Dev.setPort_pm (d : Dev) (p : Nat) (f : PortSt → PortSt) : (d.setPort p f).pm = d.pm := by unfold Dev.setPort; split <;> rfl
@[simp] theorem Dev.setPort_age (d : Dev) (p : Nat) (f : PortSt → PortSt) : (d.setPort p f).age = d.age := by unfold Dev.setPort; split <;> rfl
@[simp] theorem Dev.setPort_boot (d : Dev) (p : Nat) (f : PortSt → PortSt) : (d.setPort p f).boot = d.boot := by unfold Dev.setPort; split <;> rfl
@[simp] theorem Dev.setPort_test (d : Dev) (p : Nat) (f : PortSt → PortSt) : (d.setPort p f).test = d.test := by unfold Dev.setPort; split <;> rfl
@[simp] theorem Dev.setPort_reg (d : Dev) (p : Nat) (f : PortSt → PortSt) (x : Nat) : (d.setPort p f).reg x = d.reg x := by unfold Dev.setPort; split <;> rfl
@[simp] theorem Dev.setPort_fld (d : Dev) (p : Nat) (f : PortSt → PortSt) (x lo w : Nat) : (d.setPort p f).fld x lo w = d.fld x lo w := by unfold Dev.setPort; split <;> rfl

@[simp] theorem Dev.setLease_now (d : Dev) (l : LeaseSt) : (d.setLease l).now = d.now := rfl
@[simp] theorem Dev.setLease_free (d : Dev) (l : LeaseSt) : (d.setLease l).free = d.free := rfl
@[simp] theorem Dev.setLease_out (d : Dev) (l : LeaseSt) : (d.setLease l).out = d.out := rfl
@[simp] theorem Dev.setLease_regs (d : Dev) (l : LeaseSt) : (d.setLease l).regs = d.regs := rfl
@[simp] theorem Dev.setLease_halves (d : Dev) (l : LeaseSt) : (d.setLease l).halves = d.halves := rfl
@[simp] theorem Dev.setLease_mem (d : Dev) (l : LeaseSt) : (d.setLease l).mem = d.mem := rfl
@[simp] theorem Dev.setLease_poison (d : Dev) (l : LeaseSt) : (d.setLease l).poison = d.poison := rfl
@[simp] theorem Dev.setLease_pool (d : Dev) (l : LeaseSt) : (d.setLease l).pool = d.pool := rfl
@[simp] theorem Dev.setLease_fab (d : Dev) (l : LeaseSt) : (d.setLease l).fab = d.fab := rfl
@[simp] theorem Dev.setLease_coh (d : Dev) (l : LeaseSt) : (d.setLease l).coh = d.coh := rfl
@[simp] theorem Dev.setLease_knit (d : Dev) (l : LeaseSt) : (d.setLease l).knit = d.knit := rfl
@[simp] theorem Dev.setLease_jobs (d : Dev) (l : LeaseSt) : (d.setLease l).jobs = d.jobs := rfl
@[simp] theorem Dev.setLease_gru (d : Dev) (l : LeaseSt) : (d.setLease l).gru = d.gru := rfl
@[simp] theorem Dev.setLease_mov (d : Dev) (l : LeaseSt) : (d.setLease l).mov = d.mov := rfl
@[simp] theorem Dev.setLease_far (d : Dev) (l : LeaseSt) : (d.setLease l).far = d.far := rfl
@[simp] theorem Dev.setLease_links (d : Dev) (l : LeaseSt) : (d.setLease l).links = d.links := rfl
@[simp] theorem Dev.setLease_router (d : Dev) (l : LeaseSt) : (d.setLease l).router = d.router := rfl
@[simp] theorem Dev.setLease_mir (d : Dev) (l : LeaseSt) : (d.setLease l).mir = d.mir := rfl
@[simp] theorem Dev.setLease_stk (d : Dev) (l : LeaseSt) : (d.setLease l).stk = d.stk := rfl
@[simp] theorem Dev.setLease_ecc (d : Dev) (l : LeaseSt) : (d.setLease l).ecc = d.ecc := rfl
@[simp] theorem Dev.setLease_evt (d : Dev) (l : LeaseSt) : (d.setLease l).evt = d.evt := rfl
@[simp] theorem Dev.setLease_irq (d : Dev) (l : LeaseSt) : (d.setLease l).irq = d.irq := rfl
@[simp] theorem Dev.setLease_perf (d : Dev) (l : LeaseSt) : (d.setLease l).perf = d.perf := rfl
@[simp] theorem Dev.setLease_sec (d : Dev) (l : LeaseSt) : (d.setLease l).sec = d.sec := rfl
@[simp] theorem Dev.setLease_pm (d : Dev) (l : LeaseSt) : (d.setLease l).pm = d.pm := rfl
@[simp] theorem Dev.setLease_age (d : Dev) (l : LeaseSt) : (d.setLease l).age = d.age := rfl
@[simp] theorem Dev.setLease_boot (d : Dev) (l : LeaseSt) : (d.setLease l).boot = d.boot := rfl
@[simp] theorem Dev.setLease_test (d : Dev) (l : LeaseSt) : (d.setLease l).test = d.test := rfl
@[simp] theorem Dev.setLease_reg (d : Dev) (l : LeaseSt) (x : Nat) : (d.setLease l).reg x = d.reg x := rfl
@[simp] theorem Dev.setLease_fld (d : Dev) (l : LeaseSt) (x lo w : Nat) : (d.setLease l).fld x lo w = d.fld x lo w := rfl

@[simp] theorem Dev.setRegion_now (d : Dev) (h : Nat) (r : Region) : (d.setRegion h r).now = d.now := rfl
@[simp] theorem Dev.setRegion_free (d : Dev) (h : Nat) (r : Region) : (d.setRegion h r).free = d.free := rfl
@[simp] theorem Dev.setRegion_out (d : Dev) (h : Nat) (r : Region) : (d.setRegion h r).out = d.out := rfl
@[simp] theorem Dev.setRegion_regs (d : Dev) (h : Nat) (r : Region) : (d.setRegion h r).regs = d.regs := rfl
@[simp] theorem Dev.setRegion_halves (d : Dev) (h : Nat) (r : Region) : (d.setRegion h r).halves = d.halves := rfl
@[simp] theorem Dev.setRegion_mem (d : Dev) (h : Nat) (r : Region) : (d.setRegion h r).mem = d.mem := rfl
@[simp] theorem Dev.setRegion_poison (d : Dev) (h : Nat) (r : Region) : (d.setRegion h r).poison = d.poison := rfl
@[simp] theorem Dev.setRegion_host (d : Dev) (h : Nat) (r : Region) : (d.setRegion h r).host = d.host := rfl
@[simp] theorem Dev.setRegion_fab (d : Dev) (h : Nat) (r : Region) : (d.setRegion h r).fab = d.fab := rfl
@[simp] theorem Dev.setRegion_coh (d : Dev) (h : Nat) (r : Region) : (d.setRegion h r).coh = d.coh := rfl
@[simp] theorem Dev.setRegion_knit (d : Dev) (h : Nat) (r : Region) : (d.setRegion h r).knit = d.knit := rfl
@[simp] theorem Dev.setRegion_jobs (d : Dev) (h : Nat) (r : Region) : (d.setRegion h r).jobs = d.jobs := rfl
@[simp] theorem Dev.setRegion_gru (d : Dev) (h : Nat) (r : Region) : (d.setRegion h r).gru = d.gru := rfl
@[simp] theorem Dev.setRegion_mov (d : Dev) (h : Nat) (r : Region) : (d.setRegion h r).mov = d.mov := rfl
@[simp] theorem Dev.setRegion_far (d : Dev) (h : Nat) (r : Region) : (d.setRegion h r).far = d.far := rfl
@[simp] theorem Dev.setRegion_links (d : Dev) (h : Nat) (r : Region) : (d.setRegion h r).links = d.links := rfl
@[simp] theorem Dev.setRegion_router (d : Dev) (h : Nat) (r : Region) : (d.setRegion h r).router = d.router := rfl
@[simp] theorem Dev.setRegion_mir (d : Dev) (h : Nat) (r : Region) : (d.setRegion h r).mir = d.mir := rfl
@[simp] theorem Dev.setRegion_stk (d : Dev) (h : Nat) (r : Region) : (d.setRegion h r).stk = d.stk := rfl
@[simp] theorem Dev.setRegion_ecc (d : Dev) (h : Nat) (r : Region) : (d.setRegion h r).ecc = d.ecc := rfl
@[simp] theorem Dev.setRegion_evt (d : Dev) (h : Nat) (r : Region) : (d.setRegion h r).evt = d.evt := rfl
@[simp] theorem Dev.setRegion_irq (d : Dev) (h : Nat) (r : Region) : (d.setRegion h r).irq = d.irq := rfl
@[simp] theorem Dev.setRegion_perf (d : Dev) (h : Nat) (r : Region) : (d.setRegion h r).perf = d.perf := rfl
@[simp] theorem Dev.setRegion_sec (d : Dev) (h : Nat) (r : Region) : (d.setRegion h r).sec = d.sec := rfl
@[simp] theorem Dev.setRegion_pm (d : Dev) (h : Nat) (r : Region) : (d.setRegion h r).pm = d.pm := rfl
@[simp] theorem Dev.setRegion_age (d : Dev) (h : Nat) (r : Region) : (d.setRegion h r).age = d.age := rfl
@[simp] theorem Dev.setRegion_boot (d : Dev) (h : Nat) (r : Region) : (d.setRegion h r).boot = d.boot := rfl
@[simp] theorem Dev.setRegion_test (d : Dev) (h : Nat) (r : Region) : (d.setRegion h r).test = d.test := rfl
@[simp] theorem Dev.setRegion_reg (d : Dev) (h : Nat) (r : Region) (x : Nat) : (d.setRegion h r).reg x = d.reg x := rfl
@[simp] theorem Dev.setRegion_fld (d : Dev) (h : Nat) (r : Region) (x lo w : Nat) : (d.setRegion h r).fld x lo w = d.fld x lo w := rfl

@[simp] theorem Dev.setLink_now (d : Dev) (l : Nat) (f : Link → Link) : (d.setLink l f).now = d.now := rfl
@[simp] theorem Dev.setLink_free (d : Dev) (l : Nat) (f : Link → Link) : (d.setLink l f).free = d.free := rfl
@[simp] theorem Dev.setLink_out (d : Dev) (l : Nat) (f : Link → Link) : (d.setLink l f).out = d.out := rfl
@[simp] theorem Dev.setLink_regs (d : Dev) (l : Nat) (f : Link → Link) : (d.setLink l f).regs = d.regs := rfl
@[simp] theorem Dev.setLink_halves (d : Dev) (l : Nat) (f : Link → Link) : (d.setLink l f).halves = d.halves := rfl
@[simp] theorem Dev.setLink_mem (d : Dev) (l : Nat) (f : Link → Link) : (d.setLink l f).mem = d.mem := rfl
@[simp] theorem Dev.setLink_poison (d : Dev) (l : Nat) (f : Link → Link) : (d.setLink l f).poison = d.poison := rfl
@[simp] theorem Dev.setLink_pool (d : Dev) (l : Nat) (f : Link → Link) : (d.setLink l f).pool = d.pool := rfl
@[simp] theorem Dev.setLink_host (d : Dev) (l : Nat) (f : Link → Link) : (d.setLink l f).host = d.host := rfl
@[simp] theorem Dev.setLink_fab (d : Dev) (l : Nat) (f : Link → Link) : (d.setLink l f).fab = d.fab := rfl
@[simp] theorem Dev.setLink_coh (d : Dev) (l : Nat) (f : Link → Link) : (d.setLink l f).coh = d.coh := rfl
@[simp] theorem Dev.setLink_knit (d : Dev) (l : Nat) (f : Link → Link) : (d.setLink l f).knit = d.knit := rfl
@[simp] theorem Dev.setLink_jobs (d : Dev) (l : Nat) (f : Link → Link) : (d.setLink l f).jobs = d.jobs := rfl
@[simp] theorem Dev.setLink_gru (d : Dev) (l : Nat) (f : Link → Link) : (d.setLink l f).gru = d.gru := rfl
@[simp] theorem Dev.setLink_mov (d : Dev) (l : Nat) (f : Link → Link) : (d.setLink l f).mov = d.mov := rfl
@[simp] theorem Dev.setLink_far (d : Dev) (l : Nat) (f : Link → Link) : (d.setLink l f).far = d.far := rfl
@[simp] theorem Dev.setLink_router (d : Dev) (l : Nat) (f : Link → Link) : (d.setLink l f).router = d.router := rfl
@[simp] theorem Dev.setLink_mir (d : Dev) (l : Nat) (f : Link → Link) : (d.setLink l f).mir = d.mir := rfl
@[simp] theorem Dev.setLink_stk (d : Dev) (l : Nat) (f : Link → Link) : (d.setLink l f).stk = d.stk := rfl
@[simp] theorem Dev.setLink_ecc (d : Dev) (l : Nat) (f : Link → Link) : (d.setLink l f).ecc = d.ecc := rfl
@[simp] theorem Dev.setLink_evt (d : Dev) (l : Nat) (f : Link → Link) : (d.setLink l f).evt = d.evt := rfl
@[simp] theorem Dev.setLink_irq (d : Dev) (l : Nat) (f : Link → Link) : (d.setLink l f).irq = d.irq := rfl
@[simp] theorem Dev.setLink_perf (d : Dev) (l : Nat) (f : Link → Link) : (d.setLink l f).perf = d.perf := rfl
@[simp] theorem Dev.setLink_sec (d : Dev) (l : Nat) (f : Link → Link) : (d.setLink l f).sec = d.sec := rfl
@[simp] theorem Dev.setLink_pm (d : Dev) (l : Nat) (f : Link → Link) : (d.setLink l f).pm = d.pm := rfl
@[simp] theorem Dev.setLink_age (d : Dev) (l : Nat) (f : Link → Link) : (d.setLink l f).age = d.age := rfl
@[simp] theorem Dev.setLink_boot (d : Dev) (l : Nat) (f : Link → Link) : (d.setLink l f).boot = d.boot := rfl
@[simp] theorem Dev.setLink_test (d : Dev) (l : Nat) (f : Link → Link) : (d.setLink l f).test = d.test := rfl
@[simp] theorem Dev.setLink_reg (d : Dev) (l : Nat) (f : Link → Link) (x : Nat) : (d.setLink l f).reg x = d.reg x := rfl
@[simp] theorem Dev.setLink_fld (d : Dev) (l : Nat) (f : Link → Link) (x lo w : Nat) : (d.setLink l f).fld x lo w = d.fld x lo w := rfl

@[simp] theorem Dev.setStack_now (d : Dev) (s : Nat) (f : Stack → Stack) : (d.setStack s f).now = d.now := rfl
@[simp] theorem Dev.setStack_free (d : Dev) (s : Nat) (f : Stack → Stack) : (d.setStack s f).free = d.free := rfl
@[simp] theorem Dev.setStack_out (d : Dev) (s : Nat) (f : Stack → Stack) : (d.setStack s f).out = d.out := rfl
@[simp] theorem Dev.setStack_regs (d : Dev) (s : Nat) (f : Stack → Stack) : (d.setStack s f).regs = d.regs := rfl
@[simp] theorem Dev.setStack_halves (d : Dev) (s : Nat) (f : Stack → Stack) : (d.setStack s f).halves = d.halves := rfl
@[simp] theorem Dev.setStack_mem (d : Dev) (s : Nat) (f : Stack → Stack) : (d.setStack s f).mem = d.mem := rfl
@[simp] theorem Dev.setStack_poison (d : Dev) (s : Nat) (f : Stack → Stack) : (d.setStack s f).poison = d.poison := rfl
@[simp] theorem Dev.setStack_pool (d : Dev) (s : Nat) (f : Stack → Stack) : (d.setStack s f).pool = d.pool := rfl
@[simp] theorem Dev.setStack_host (d : Dev) (s : Nat) (f : Stack → Stack) : (d.setStack s f).host = d.host := rfl
@[simp] theorem Dev.setStack_fab (d : Dev) (s : Nat) (f : Stack → Stack) : (d.setStack s f).fab = d.fab := rfl
@[simp] theorem Dev.setStack_coh (d : Dev) (s : Nat) (f : Stack → Stack) : (d.setStack s f).coh = d.coh := rfl
@[simp] theorem Dev.setStack_knit (d : Dev) (s : Nat) (f : Stack → Stack) : (d.setStack s f).knit = d.knit := rfl
@[simp] theorem Dev.setStack_jobs (d : Dev) (s : Nat) (f : Stack → Stack) : (d.setStack s f).jobs = d.jobs := rfl
@[simp] theorem Dev.setStack_gru (d : Dev) (s : Nat) (f : Stack → Stack) : (d.setStack s f).gru = d.gru := rfl
@[simp] theorem Dev.setStack_mov (d : Dev) (s : Nat) (f : Stack → Stack) : (d.setStack s f).mov = d.mov := rfl
@[simp] theorem Dev.setStack_far (d : Dev) (s : Nat) (f : Stack → Stack) : (d.setStack s f).far = d.far := rfl
@[simp] theorem Dev.setStack_links (d : Dev) (s : Nat) (f : Stack → Stack) : (d.setStack s f).links = d.links := rfl
@[simp] theorem Dev.setStack_router (d : Dev) (s : Nat) (f : Stack → Stack) : (d.setStack s f).router = d.router := rfl
@[simp] theorem Dev.setStack_mir (d : Dev) (s : Nat) (f : Stack → Stack) : (d.setStack s f).mir = d.mir := rfl
@[simp] theorem Dev.setStack_ecc (d : Dev) (s : Nat) (f : Stack → Stack) : (d.setStack s f).ecc = d.ecc := rfl
@[simp] theorem Dev.setStack_evt (d : Dev) (s : Nat) (f : Stack → Stack) : (d.setStack s f).evt = d.evt := rfl
@[simp] theorem Dev.setStack_irq (d : Dev) (s : Nat) (f : Stack → Stack) : (d.setStack s f).irq = d.irq := rfl
@[simp] theorem Dev.setStack_perf (d : Dev) (s : Nat) (f : Stack → Stack) : (d.setStack s f).perf = d.perf := rfl
@[simp] theorem Dev.setStack_sec (d : Dev) (s : Nat) (f : Stack → Stack) : (d.setStack s f).sec = d.sec := rfl
@[simp] theorem Dev.setStack_pm (d : Dev) (s : Nat) (f : Stack → Stack) : (d.setStack s f).pm = d.pm := rfl
@[simp] theorem Dev.setStack_age (d : Dev) (s : Nat) (f : Stack → Stack) : (d.setStack s f).age = d.age := rfl
@[simp] theorem Dev.setStack_boot (d : Dev) (s : Nat) (f : Stack → Stack) : (d.setStack s f).boot = d.boot := rfl
@[simp] theorem Dev.setStack_test (d : Dev) (s : Nat) (f : Stack → Stack) : (d.setStack s f).test = d.test := rfl
@[simp] theorem Dev.setStack_reg (d : Dev) (s : Nat) (f : Stack → Stack) (x : Nat) : (d.setStack s f).reg x = d.reg x := rfl
@[simp] theorem Dev.setStack_fld (d : Dev) (s : Nat) (f : Stack → Stack) (x lo w : Nat) : (d.setStack s f).fld x lo w = d.fld x lo w := rfl

@[simp] theorem Dev.setMover_now (d : Dev) (k : Nat) (f : Mover → Mover) : (d.setMover k f).now = d.now := rfl
@[simp] theorem Dev.setMover_free (d : Dev) (k : Nat) (f : Mover → Mover) : (d.setMover k f).free = d.free := rfl
@[simp] theorem Dev.setMover_out (d : Dev) (k : Nat) (f : Mover → Mover) : (d.setMover k f).out = d.out := rfl
@[simp] theorem Dev.setMover_regs (d : Dev) (k : Nat) (f : Mover → Mover) : (d.setMover k f).regs = d.regs := rfl
@[simp] theorem Dev.setMover_halves (d : Dev) (k : Nat) (f : Mover → Mover) : (d.setMover k f).halves = d.halves := rfl
@[simp] theorem Dev.setMover_mem (d : Dev) (k : Nat) (f : Mover → Mover) : (d.setMover k f).mem = d.mem := rfl
@[simp] theorem Dev.setMover_poison (d : Dev) (k : Nat) (f : Mover → Mover) : (d.setMover k f).poison = d.poison := rfl
@[simp] theorem Dev.setMover_pool (d : Dev) (k : Nat) (f : Mover → Mover) : (d.setMover k f).pool = d.pool := rfl
@[simp] theorem Dev.setMover_host (d : Dev) (k : Nat) (f : Mover → Mover) : (d.setMover k f).host = d.host := rfl
@[simp] theorem Dev.setMover_fab (d : Dev) (k : Nat) (f : Mover → Mover) : (d.setMover k f).fab = d.fab := rfl
@[simp] theorem Dev.setMover_coh (d : Dev) (k : Nat) (f : Mover → Mover) : (d.setMover k f).coh = d.coh := rfl
@[simp] theorem Dev.setMover_knit (d : Dev) (k : Nat) (f : Mover → Mover) : (d.setMover k f).knit = d.knit := rfl
@[simp] theorem Dev.setMover_jobs (d : Dev) (k : Nat) (f : Mover → Mover) : (d.setMover k f).jobs = d.jobs := rfl
@[simp] theorem Dev.setMover_gru (d : Dev) (k : Nat) (f : Mover → Mover) : (d.setMover k f).gru = d.gru := rfl
@[simp] theorem Dev.setMover_far (d : Dev) (k : Nat) (f : Mover → Mover) : (d.setMover k f).far = d.far := rfl
@[simp] theorem Dev.setMover_links (d : Dev) (k : Nat) (f : Mover → Mover) : (d.setMover k f).links = d.links := rfl
@[simp] theorem Dev.setMover_router (d : Dev) (k : Nat) (f : Mover → Mover) : (d.setMover k f).router = d.router := rfl
@[simp] theorem Dev.setMover_mir (d : Dev) (k : Nat) (f : Mover → Mover) : (d.setMover k f).mir = d.mir := rfl
@[simp] theorem Dev.setMover_stk (d : Dev) (k : Nat) (f : Mover → Mover) : (d.setMover k f).stk = d.stk := rfl
@[simp] theorem Dev.setMover_ecc (d : Dev) (k : Nat) (f : Mover → Mover) : (d.setMover k f).ecc = d.ecc := rfl
@[simp] theorem Dev.setMover_evt (d : Dev) (k : Nat) (f : Mover → Mover) : (d.setMover k f).evt = d.evt := rfl
@[simp] theorem Dev.setMover_irq (d : Dev) (k : Nat) (f : Mover → Mover) : (d.setMover k f).irq = d.irq := rfl
@[simp] theorem Dev.setMover_perf (d : Dev) (k : Nat) (f : Mover → Mover) : (d.setMover k f).perf = d.perf := rfl
@[simp] theorem Dev.setMover_sec (d : Dev) (k : Nat) (f : Mover → Mover) : (d.setMover k f).sec = d.sec := rfl
@[simp] theorem Dev.setMover_pm (d : Dev) (k : Nat) (f : Mover → Mover) : (d.setMover k f).pm = d.pm := rfl
@[simp] theorem Dev.setMover_age (d : Dev) (k : Nat) (f : Mover → Mover) : (d.setMover k f).age = d.age := rfl
@[simp] theorem Dev.setMover_boot (d : Dev) (k : Nat) (f : Mover → Mover) : (d.setMover k f).boot = d.boot := rfl
@[simp] theorem Dev.setMover_test (d : Dev) (k : Nat) (f : Mover → Mover) : (d.setMover k f).test = d.test := rfl
@[simp] theorem Dev.setMover_reg (d : Dev) (k : Nat) (f : Mover → Mover) (x : Nat) : (d.setMover k f).reg x = d.reg x := rfl
@[simp] theorem Dev.setMover_fld (d : Dev) (k : Nat) (f : Mover → Mover) (x lo w : Nat) : (d.setMover k f).fld x lo w = d.fld x lo w := rfl

@[simp] theorem Dev.setPri_now (d : Dev) (p : Nat) (f : PriSt → PriSt) : (d.setPri p f).now = d.now := by unfold Dev.setPri; split <;> rfl
@[simp] theorem Dev.setPri_free (d : Dev) (p : Nat) (f : PriSt → PriSt) : (d.setPri p f).free = d.free := by unfold Dev.setPri; split <;> rfl
@[simp] theorem Dev.setPri_out (d : Dev) (p : Nat) (f : PriSt → PriSt) : (d.setPri p f).out = d.out := by unfold Dev.setPri; split <;> rfl
@[simp] theorem Dev.setPri_regs (d : Dev) (p : Nat) (f : PriSt → PriSt) : (d.setPri p f).regs = d.regs := by unfold Dev.setPri; split <;> rfl
@[simp] theorem Dev.setPri_halves (d : Dev) (p : Nat) (f : PriSt → PriSt) : (d.setPri p f).halves = d.halves := by unfold Dev.setPri; split <;> rfl
@[simp] theorem Dev.setPri_mem (d : Dev) (p : Nat) (f : PriSt → PriSt) : (d.setPri p f).mem = d.mem := by unfold Dev.setPri; split <;> rfl
@[simp] theorem Dev.setPri_poison (d : Dev) (p : Nat) (f : PriSt → PriSt) : (d.setPri p f).poison = d.poison := by unfold Dev.setPri; split <;> rfl
@[simp] theorem Dev.setPri_pool (d : Dev) (p : Nat) (f : PriSt → PriSt) : (d.setPri p f).pool = d.pool := by unfold Dev.setPri; split <;> rfl
@[simp] theorem Dev.setPri_host (d : Dev) (p : Nat) (f : PriSt → PriSt) : (d.setPri p f).host = d.host := by unfold Dev.setPri; split <;> rfl
@[simp] theorem Dev.setPri_fab (d : Dev) (p : Nat) (f : PriSt → PriSt) : (d.setPri p f).fab = d.fab := by unfold Dev.setPri; split <;> rfl
@[simp] theorem Dev.setPri_coh (d : Dev) (p : Nat) (f : PriSt → PriSt) : (d.setPri p f).coh = d.coh := by unfold Dev.setPri; split <;> rfl
@[simp] theorem Dev.setPri_knit (d : Dev) (p : Nat) (f : PriSt → PriSt) : (d.setPri p f).knit = d.knit := by unfold Dev.setPri; split <;> rfl
@[simp] theorem Dev.setPri_jobs (d : Dev) (p : Nat) (f : PriSt → PriSt) : (d.setPri p f).jobs = d.jobs := by unfold Dev.setPri; split <;> rfl
@[simp] theorem Dev.setPri_gru (d : Dev) (p : Nat) (f : PriSt → PriSt) : (d.setPri p f).gru = d.gru := by unfold Dev.setPri; split <;> rfl
@[simp] theorem Dev.setPri_far (d : Dev) (p : Nat) (f : PriSt → PriSt) : (d.setPri p f).far = d.far := by unfold Dev.setPri; split <;> rfl
@[simp] theorem Dev.setPri_links (d : Dev) (p : Nat) (f : PriSt → PriSt) : (d.setPri p f).links = d.links := by unfold Dev.setPri; split <;> rfl
@[simp] theorem Dev.setPri_router (d : Dev) (p : Nat) (f : PriSt → PriSt) : (d.setPri p f).router = d.router := by unfold Dev.setPri; split <;> rfl
@[simp] theorem Dev.setPri_mir (d : Dev) (p : Nat) (f : PriSt → PriSt) : (d.setPri p f).mir = d.mir := by unfold Dev.setPri; split <;> rfl
@[simp] theorem Dev.setPri_stk (d : Dev) (p : Nat) (f : PriSt → PriSt) : (d.setPri p f).stk = d.stk := by unfold Dev.setPri; split <;> rfl
@[simp] theorem Dev.setPri_ecc (d : Dev) (p : Nat) (f : PriSt → PriSt) : (d.setPri p f).ecc = d.ecc := by unfold Dev.setPri; split <;> rfl
@[simp] theorem Dev.setPri_evt (d : Dev) (p : Nat) (f : PriSt → PriSt) : (d.setPri p f).evt = d.evt := by unfold Dev.setPri; split <;> rfl
@[simp] theorem Dev.setPri_irq (d : Dev) (p : Nat) (f : PriSt → PriSt) : (d.setPri p f).irq = d.irq := by unfold Dev.setPri; split <;> rfl
@[simp] theorem Dev.setPri_perf (d : Dev) (p : Nat) (f : PriSt → PriSt) : (d.setPri p f).perf = d.perf := by unfold Dev.setPri; split <;> rfl
@[simp] theorem Dev.setPri_sec (d : Dev) (p : Nat) (f : PriSt → PriSt) : (d.setPri p f).sec = d.sec := by unfold Dev.setPri; split <;> rfl
@[simp] theorem Dev.setPri_pm (d : Dev) (p : Nat) (f : PriSt → PriSt) : (d.setPri p f).pm = d.pm := by unfold Dev.setPri; split <;> rfl
@[simp] theorem Dev.setPri_age (d : Dev) (p : Nat) (f : PriSt → PriSt) : (d.setPri p f).age = d.age := by unfold Dev.setPri; split <;> rfl
@[simp] theorem Dev.setPri_boot (d : Dev) (p : Nat) (f : PriSt → PriSt) : (d.setPri p f).boot = d.boot := by unfold Dev.setPri; split <;> rfl
@[simp] theorem Dev.setPri_test (d : Dev) (p : Nat) (f : PriSt → PriSt) : (d.setPri p f).test = d.test := by unfold Dev.setPri; split <;> rfl
@[simp] theorem Dev.setPri_reg (d : Dev) (p : Nat) (f : PriSt → PriSt) (x : Nat) : (d.setPri p f).reg x = d.reg x := by unfold Dev.setPri; split <;> rfl
@[simp] theorem Dev.setPri_fld (d : Dev) (p : Nat) (f : PriSt → PriSt) (x lo w : Nat) : (d.setPri p f).fld x lo w = d.fld x lo w := by unfold Dev.setPri; split <;> rfl

@[simp] theorem Dev.setLookup_now (d : Dev) (k : Nat) (l : Lookup) : (d.setLookup k l).now = d.now := rfl
@[simp] theorem Dev.setLookup_free (d : Dev) (k : Nat) (l : Lookup) : (d.setLookup k l).free = d.free := rfl
@[simp] theorem Dev.setLookup_out (d : Dev) (k : Nat) (l : Lookup) : (d.setLookup k l).out = d.out := rfl
@[simp] theorem Dev.setLookup_regs (d : Dev) (k : Nat) (l : Lookup) : (d.setLookup k l).regs = d.regs := rfl
@[simp] theorem Dev.setLookup_halves (d : Dev) (k : Nat) (l : Lookup) : (d.setLookup k l).halves = d.halves := rfl
@[simp] theorem Dev.setLookup_mem (d : Dev) (k : Nat) (l : Lookup) : (d.setLookup k l).mem = d.mem := rfl
@[simp] theorem Dev.setLookup_poison (d : Dev) (k : Nat) (l : Lookup) : (d.setLookup k l).poison = d.poison := rfl
@[simp] theorem Dev.setLookup_pool (d : Dev) (k : Nat) (l : Lookup) : (d.setLookup k l).pool = d.pool := rfl
@[simp] theorem Dev.setLookup_host (d : Dev) (k : Nat) (l : Lookup) : (d.setLookup k l).host = d.host := rfl
@[simp] theorem Dev.setLookup_fab (d : Dev) (k : Nat) (l : Lookup) : (d.setLookup k l).fab = d.fab := rfl
@[simp] theorem Dev.setLookup_coh (d : Dev) (k : Nat) (l : Lookup) : (d.setLookup k l).coh = d.coh := rfl
@[simp] theorem Dev.setLookup_knit (d : Dev) (k : Nat) (l : Lookup) : (d.setLookup k l).knit = d.knit := rfl
@[simp] theorem Dev.setLookup_jobs (d : Dev) (k : Nat) (l : Lookup) : (d.setLookup k l).jobs = d.jobs := rfl
@[simp] theorem Dev.setLookup_mov (d : Dev) (k : Nat) (l : Lookup) : (d.setLookup k l).mov = d.mov := rfl
@[simp] theorem Dev.setLookup_far (d : Dev) (k : Nat) (l : Lookup) : (d.setLookup k l).far = d.far := rfl
@[simp] theorem Dev.setLookup_links (d : Dev) (k : Nat) (l : Lookup) : (d.setLookup k l).links = d.links := rfl
@[simp] theorem Dev.setLookup_router (d : Dev) (k : Nat) (l : Lookup) : (d.setLookup k l).router = d.router := rfl
@[simp] theorem Dev.setLookup_mir (d : Dev) (k : Nat) (l : Lookup) : (d.setLookup k l).mir = d.mir := rfl
@[simp] theorem Dev.setLookup_stk (d : Dev) (k : Nat) (l : Lookup) : (d.setLookup k l).stk = d.stk := rfl
@[simp] theorem Dev.setLookup_ecc (d : Dev) (k : Nat) (l : Lookup) : (d.setLookup k l).ecc = d.ecc := rfl
@[simp] theorem Dev.setLookup_evt (d : Dev) (k : Nat) (l : Lookup) : (d.setLookup k l).evt = d.evt := rfl
@[simp] theorem Dev.setLookup_irq (d : Dev) (k : Nat) (l : Lookup) : (d.setLookup k l).irq = d.irq := rfl
@[simp] theorem Dev.setLookup_perf (d : Dev) (k : Nat) (l : Lookup) : (d.setLookup k l).perf = d.perf := rfl
@[simp] theorem Dev.setLookup_sec (d : Dev) (k : Nat) (l : Lookup) : (d.setLookup k l).sec = d.sec := rfl
@[simp] theorem Dev.setLookup_pm (d : Dev) (k : Nat) (l : Lookup) : (d.setLookup k l).pm = d.pm := rfl
@[simp] theorem Dev.setLookup_age (d : Dev) (k : Nat) (l : Lookup) : (d.setLookup k l).age = d.age := rfl
@[simp] theorem Dev.setLookup_boot (d : Dev) (k : Nat) (l : Lookup) : (d.setLookup k l).boot = d.boot := rfl
@[simp] theorem Dev.setLookup_test (d : Dev) (k : Nat) (l : Lookup) : (d.setLookup k l).test = d.test := rfl
@[simp] theorem Dev.setLookup_reg (d : Dev) (k : Nat) (l : Lookup) (x : Nat) : (d.setLookup k l).reg x = d.reg x := rfl
@[simp] theorem Dev.setLookup_fld (d : Dev) (k : Nat) (l : Lookup) (x lo w : Nat) : (d.setLookup k l).fld x lo w = d.fld x lo w := rfl

@[simp] theorem Dev.setInput_now (d : Dev) (n st : Nat) : (d.setInput n st).now = d.now := rfl
@[simp] theorem Dev.setInput_free (d : Dev) (n st : Nat) : (d.setInput n st).free = d.free := rfl
@[simp] theorem Dev.setInput_out (d : Dev) (n st : Nat) : (d.setInput n st).out = d.out := rfl
@[simp] theorem Dev.setInput_regs (d : Dev) (n st : Nat) : (d.setInput n st).regs = d.regs := rfl
@[simp] theorem Dev.setInput_halves (d : Dev) (n st : Nat) : (d.setInput n st).halves = d.halves := rfl
@[simp] theorem Dev.setInput_mem (d : Dev) (n st : Nat) : (d.setInput n st).mem = d.mem := rfl
@[simp] theorem Dev.setInput_poison (d : Dev) (n st : Nat) : (d.setInput n st).poison = d.poison := rfl
@[simp] theorem Dev.setInput_pool (d : Dev) (n st : Nat) : (d.setInput n st).pool = d.pool := rfl
@[simp] theorem Dev.setInput_host (d : Dev) (n st : Nat) : (d.setInput n st).host = d.host := rfl
@[simp] theorem Dev.setInput_fab (d : Dev) (n st : Nat) : (d.setInput n st).fab = d.fab := rfl
@[simp] theorem Dev.setInput_coh (d : Dev) (n st : Nat) : (d.setInput n st).coh = d.coh := rfl
@[simp] theorem Dev.setInput_knit (d : Dev) (n st : Nat) : (d.setInput n st).knit = d.knit := rfl
@[simp] theorem Dev.setInput_jobs (d : Dev) (n st : Nat) : (d.setInput n st).jobs = d.jobs := rfl
@[simp] theorem Dev.setInput_gru (d : Dev) (n st : Nat) : (d.setInput n st).gru = d.gru := rfl
@[simp] theorem Dev.setInput_mov (d : Dev) (n st : Nat) : (d.setInput n st).mov = d.mov := rfl
@[simp] theorem Dev.setInput_far (d : Dev) (n st : Nat) : (d.setInput n st).far = d.far := rfl
@[simp] theorem Dev.setInput_links (d : Dev) (n st : Nat) : (d.setInput n st).links = d.links := rfl
@[simp] theorem Dev.setInput_router (d : Dev) (n st : Nat) : (d.setInput n st).router = d.router := rfl
@[simp] theorem Dev.setInput_mir (d : Dev) (n st : Nat) : (d.setInput n st).mir = d.mir := rfl
@[simp] theorem Dev.setInput_stk (d : Dev) (n st : Nat) : (d.setInput n st).stk = d.stk := rfl
@[simp] theorem Dev.setInput_ecc (d : Dev) (n st : Nat) : (d.setInput n st).ecc = d.ecc := rfl
@[simp] theorem Dev.setInput_evt (d : Dev) (n st : Nat) : (d.setInput n st).evt = d.evt := rfl
@[simp] theorem Dev.setInput_perf (d : Dev) (n st : Nat) : (d.setInput n st).perf = d.perf := rfl
@[simp] theorem Dev.setInput_sec (d : Dev) (n st : Nat) : (d.setInput n st).sec = d.sec := rfl
@[simp] theorem Dev.setInput_pm (d : Dev) (n st : Nat) : (d.setInput n st).pm = d.pm := rfl
@[simp] theorem Dev.setInput_age (d : Dev) (n st : Nat) : (d.setInput n st).age = d.age := rfl
@[simp] theorem Dev.setInput_boot (d : Dev) (n st : Nat) : (d.setInput n st).boot = d.boot := rfl
@[simp] theorem Dev.setInput_test (d : Dev) (n st : Nat) : (d.setInput n st).test = d.test := rfl
@[simp] theorem Dev.setInput_reg (d : Dev) (n st : Nat) (x : Nat) : (d.setInput n st).reg x = d.reg x := rfl
@[simp] theorem Dev.setInput_fld (d : Dev) (n st : Nat) (x lo w : Nat) : (d.setInput n st).fld x lo w = d.fld x lo w := rfl

@[simp] theorem Dev.setCore_now (d : Dev) (c : Nat) (f : CoreSt → CoreSt) : (d.setCore c f).now = d.now := rfl
@[simp] theorem Dev.setCore_free (d : Dev) (c : Nat) (f : CoreSt → CoreSt) : (d.setCore c f).free = d.free := rfl
@[simp] theorem Dev.setCore_out (d : Dev) (c : Nat) (f : CoreSt → CoreSt) : (d.setCore c f).out = d.out := rfl
@[simp] theorem Dev.setCore_regs (d : Dev) (c : Nat) (f : CoreSt → CoreSt) : (d.setCore c f).regs = d.regs := rfl
@[simp] theorem Dev.setCore_halves (d : Dev) (c : Nat) (f : CoreSt → CoreSt) : (d.setCore c f).halves = d.halves := rfl
@[simp] theorem Dev.setCore_mem (d : Dev) (c : Nat) (f : CoreSt → CoreSt) : (d.setCore c f).mem = d.mem := rfl
@[simp] theorem Dev.setCore_poison (d : Dev) (c : Nat) (f : CoreSt → CoreSt) : (d.setCore c f).poison = d.poison := rfl
@[simp] theorem Dev.setCore_pool (d : Dev) (c : Nat) (f : CoreSt → CoreSt) : (d.setCore c f).pool = d.pool := rfl
@[simp] theorem Dev.setCore_host (d : Dev) (c : Nat) (f : CoreSt → CoreSt) : (d.setCore c f).host = d.host := rfl
@[simp] theorem Dev.setCore_fab (d : Dev) (c : Nat) (f : CoreSt → CoreSt) : (d.setCore c f).fab = d.fab := rfl
@[simp] theorem Dev.setCore_coh (d : Dev) (c : Nat) (f : CoreSt → CoreSt) : (d.setCore c f).coh = d.coh := rfl
@[simp] theorem Dev.setCore_knit (d : Dev) (c : Nat) (f : CoreSt → CoreSt) : (d.setCore c f).knit = d.knit := rfl
@[simp] theorem Dev.setCore_jobs (d : Dev) (c : Nat) (f : CoreSt → CoreSt) : (d.setCore c f).jobs = d.jobs := rfl
@[simp] theorem Dev.setCore_gru (d : Dev) (c : Nat) (f : CoreSt → CoreSt) : (d.setCore c f).gru = d.gru := rfl
@[simp] theorem Dev.setCore_mov (d : Dev) (c : Nat) (f : CoreSt → CoreSt) : (d.setCore c f).mov = d.mov := rfl
@[simp] theorem Dev.setCore_far (d : Dev) (c : Nat) (f : CoreSt → CoreSt) : (d.setCore c f).far = d.far := rfl
@[simp] theorem Dev.setCore_links (d : Dev) (c : Nat) (f : CoreSt → CoreSt) : (d.setCore c f).links = d.links := rfl
@[simp] theorem Dev.setCore_router (d : Dev) (c : Nat) (f : CoreSt → CoreSt) : (d.setCore c f).router = d.router := rfl
@[simp] theorem Dev.setCore_mir (d : Dev) (c : Nat) (f : CoreSt → CoreSt) : (d.setCore c f).mir = d.mir := rfl
@[simp] theorem Dev.setCore_stk (d : Dev) (c : Nat) (f : CoreSt → CoreSt) : (d.setCore c f).stk = d.stk := rfl
@[simp] theorem Dev.setCore_ecc (d : Dev) (c : Nat) (f : CoreSt → CoreSt) : (d.setCore c f).ecc = d.ecc := rfl
@[simp] theorem Dev.setCore_evt (d : Dev) (c : Nat) (f : CoreSt → CoreSt) : (d.setCore c f).evt = d.evt := rfl
@[simp] theorem Dev.setCore_perf (d : Dev) (c : Nat) (f : CoreSt → CoreSt) : (d.setCore c f).perf = d.perf := rfl
@[simp] theorem Dev.setCore_sec (d : Dev) (c : Nat) (f : CoreSt → CoreSt) : (d.setCore c f).sec = d.sec := rfl
@[simp] theorem Dev.setCore_pm (d : Dev) (c : Nat) (f : CoreSt → CoreSt) : (d.setCore c f).pm = d.pm := rfl
@[simp] theorem Dev.setCore_age (d : Dev) (c : Nat) (f : CoreSt → CoreSt) : (d.setCore c f).age = d.age := rfl
@[simp] theorem Dev.setCore_boot (d : Dev) (c : Nat) (f : CoreSt → CoreSt) : (d.setCore c f).boot = d.boot := rfl
@[simp] theorem Dev.setCore_test (d : Dev) (c : Nat) (f : CoreSt → CoreSt) : (d.setCore c f).test = d.test := rfl
@[simp] theorem Dev.setCore_reg (d : Dev) (c : Nat) (f : CoreSt → CoreSt) (x : Nat) : (d.setCore c f).reg x = d.reg x := rfl
@[simp] theorem Dev.setCore_fld (d : Dev) (c : Nat) (f : CoreSt → CoreSt) (x lo w : Nat) : (d.setCore c f).fld x lo w = d.fld x lo w := rfl

@[simp] theorem Dev.setBoard_now (d : Dev) (i : Nat) (b : BoardInput) : (d.setBoard i b).now = d.now := rfl
@[simp] theorem Dev.setBoard_free (d : Dev) (i : Nat) (b : BoardInput) : (d.setBoard i b).free = d.free := rfl
@[simp] theorem Dev.setBoard_out (d : Dev) (i : Nat) (b : BoardInput) : (d.setBoard i b).out = d.out := rfl
@[simp] theorem Dev.setBoard_regs (d : Dev) (i : Nat) (b : BoardInput) : (d.setBoard i b).regs = d.regs := rfl
@[simp] theorem Dev.setBoard_halves (d : Dev) (i : Nat) (b : BoardInput) : (d.setBoard i b).halves = d.halves := rfl
@[simp] theorem Dev.setBoard_mem (d : Dev) (i : Nat) (b : BoardInput) : (d.setBoard i b).mem = d.mem := rfl
@[simp] theorem Dev.setBoard_poison (d : Dev) (i : Nat) (b : BoardInput) : (d.setBoard i b).poison = d.poison := rfl
@[simp] theorem Dev.setBoard_pool (d : Dev) (i : Nat) (b : BoardInput) : (d.setBoard i b).pool = d.pool := rfl
@[simp] theorem Dev.setBoard_host (d : Dev) (i : Nat) (b : BoardInput) : (d.setBoard i b).host = d.host := rfl
@[simp] theorem Dev.setBoard_fab (d : Dev) (i : Nat) (b : BoardInput) : (d.setBoard i b).fab = d.fab := rfl
@[simp] theorem Dev.setBoard_coh (d : Dev) (i : Nat) (b : BoardInput) : (d.setBoard i b).coh = d.coh := rfl
@[simp] theorem Dev.setBoard_knit (d : Dev) (i : Nat) (b : BoardInput) : (d.setBoard i b).knit = d.knit := rfl
@[simp] theorem Dev.setBoard_jobs (d : Dev) (i : Nat) (b : BoardInput) : (d.setBoard i b).jobs = d.jobs := rfl
@[simp] theorem Dev.setBoard_gru (d : Dev) (i : Nat) (b : BoardInput) : (d.setBoard i b).gru = d.gru := rfl
@[simp] theorem Dev.setBoard_mov (d : Dev) (i : Nat) (b : BoardInput) : (d.setBoard i b).mov = d.mov := rfl
@[simp] theorem Dev.setBoard_far (d : Dev) (i : Nat) (b : BoardInput) : (d.setBoard i b).far = d.far := rfl
@[simp] theorem Dev.setBoard_links (d : Dev) (i : Nat) (b : BoardInput) : (d.setBoard i b).links = d.links := rfl
@[simp] theorem Dev.setBoard_router (d : Dev) (i : Nat) (b : BoardInput) : (d.setBoard i b).router = d.router := rfl
@[simp] theorem Dev.setBoard_mir (d : Dev) (i : Nat) (b : BoardInput) : (d.setBoard i b).mir = d.mir := rfl
@[simp] theorem Dev.setBoard_stk (d : Dev) (i : Nat) (b : BoardInput) : (d.setBoard i b).stk = d.stk := rfl
@[simp] theorem Dev.setBoard_ecc (d : Dev) (i : Nat) (b : BoardInput) : (d.setBoard i b).ecc = d.ecc := rfl
@[simp] theorem Dev.setBoard_evt (d : Dev) (i : Nat) (b : BoardInput) : (d.setBoard i b).evt = d.evt := rfl
@[simp] theorem Dev.setBoard_perf (d : Dev) (i : Nat) (b : BoardInput) : (d.setBoard i b).perf = d.perf := rfl
@[simp] theorem Dev.setBoard_sec (d : Dev) (i : Nat) (b : BoardInput) : (d.setBoard i b).sec = d.sec := rfl
@[simp] theorem Dev.setBoard_pm (d : Dev) (i : Nat) (b : BoardInput) : (d.setBoard i b).pm = d.pm := rfl
@[simp] theorem Dev.setBoard_age (d : Dev) (i : Nat) (b : BoardInput) : (d.setBoard i b).age = d.age := rfl
@[simp] theorem Dev.setBoard_boot (d : Dev) (i : Nat) (b : BoardInput) : (d.setBoard i b).boot = d.boot := rfl
@[simp] theorem Dev.setBoard_test (d : Dev) (i : Nat) (b : BoardInput) : (d.setBoard i b).test = d.test := rfl
@[simp] theorem Dev.setBoard_reg (d : Dev) (i : Nat) (b : BoardInput) (x : Nat) : (d.setBoard i b).reg x = d.reg x := rfl
@[simp] theorem Dev.setBoard_fld (d : Dev) (i : Nat) (b : BoardInput) (x lo w : Nat) : (d.setBoard i b).fld x lo w = d.fld x lo w := rfl

@[simp] theorem Dev.setChan_now (d : Dev) (key : Nat) (l : List (List Byte)) : (d.setChan key l).now = d.now := rfl
@[simp] theorem Dev.setChan_free (d : Dev) (key : Nat) (l : List (List Byte)) : (d.setChan key l).free = d.free := rfl
@[simp] theorem Dev.setChan_out (d : Dev) (key : Nat) (l : List (List Byte)) : (d.setChan key l).out = d.out := rfl
@[simp] theorem Dev.setChan_regs (d : Dev) (key : Nat) (l : List (List Byte)) : (d.setChan key l).regs = d.regs := rfl
@[simp] theorem Dev.setChan_halves (d : Dev) (key : Nat) (l : List (List Byte)) : (d.setChan key l).halves = d.halves := rfl
@[simp] theorem Dev.setChan_mem (d : Dev) (key : Nat) (l : List (List Byte)) : (d.setChan key l).mem = d.mem := rfl
@[simp] theorem Dev.setChan_poison (d : Dev) (key : Nat) (l : List (List Byte)) : (d.setChan key l).poison = d.poison := rfl
@[simp] theorem Dev.setChan_pool (d : Dev) (key : Nat) (l : List (List Byte)) : (d.setChan key l).pool = d.pool := rfl
@[simp] theorem Dev.setChan_host (d : Dev) (key : Nat) (l : List (List Byte)) : (d.setChan key l).host = d.host := rfl
@[simp] theorem Dev.setChan_fab (d : Dev) (key : Nat) (l : List (List Byte)) : (d.setChan key l).fab = d.fab := rfl
@[simp] theorem Dev.setChan_coh (d : Dev) (key : Nat) (l : List (List Byte)) : (d.setChan key l).coh = d.coh := rfl
@[simp] theorem Dev.setChan_jobs (d : Dev) (key : Nat) (l : List (List Byte)) : (d.setChan key l).jobs = d.jobs := rfl
@[simp] theorem Dev.setChan_gru (d : Dev) (key : Nat) (l : List (List Byte)) : (d.setChan key l).gru = d.gru := rfl
@[simp] theorem Dev.setChan_mov (d : Dev) (key : Nat) (l : List (List Byte)) : (d.setChan key l).mov = d.mov := rfl
@[simp] theorem Dev.setChan_far (d : Dev) (key : Nat) (l : List (List Byte)) : (d.setChan key l).far = d.far := rfl
@[simp] theorem Dev.setChan_links (d : Dev) (key : Nat) (l : List (List Byte)) : (d.setChan key l).links = d.links := rfl
@[simp] theorem Dev.setChan_router (d : Dev) (key : Nat) (l : List (List Byte)) : (d.setChan key l).router = d.router := rfl
@[simp] theorem Dev.setChan_mir (d : Dev) (key : Nat) (l : List (List Byte)) : (d.setChan key l).mir = d.mir := rfl
@[simp] theorem Dev.setChan_stk (d : Dev) (key : Nat) (l : List (List Byte)) : (d.setChan key l).stk = d.stk := rfl
@[simp] theorem Dev.setChan_ecc (d : Dev) (key : Nat) (l : List (List Byte)) : (d.setChan key l).ecc = d.ecc := rfl
@[simp] theorem Dev.setChan_evt (d : Dev) (key : Nat) (l : List (List Byte)) : (d.setChan key l).evt = d.evt := rfl
@[simp] theorem Dev.setChan_irq (d : Dev) (key : Nat) (l : List (List Byte)) : (d.setChan key l).irq = d.irq := rfl
@[simp] theorem Dev.setChan_perf (d : Dev) (key : Nat) (l : List (List Byte)) : (d.setChan key l).perf = d.perf := rfl
@[simp] theorem Dev.setChan_sec (d : Dev) (key : Nat) (l : List (List Byte)) : (d.setChan key l).sec = d.sec := rfl
@[simp] theorem Dev.setChan_pm (d : Dev) (key : Nat) (l : List (List Byte)) : (d.setChan key l).pm = d.pm := rfl
@[simp] theorem Dev.setChan_age (d : Dev) (key : Nat) (l : List (List Byte)) : (d.setChan key l).age = d.age := rfl
@[simp] theorem Dev.setChan_boot (d : Dev) (key : Nat) (l : List (List Byte)) : (d.setChan key l).boot = d.boot := rfl
@[simp] theorem Dev.setChan_test (d : Dev) (key : Nat) (l : List (List Byte)) : (d.setChan key l).test = d.test := rfl
@[simp] theorem Dev.setChan_reg (d : Dev) (key : Nat) (l : List (List Byte)) (x : Nat) : (d.setChan key l).reg x = d.reg x := rfl
@[simp] theorem Dev.setChan_fld (d : Dev) (key : Nat) (l : List (List Byte)) (x lo w : Nat) : (d.setChan key l).fld x lo w = d.fld x lo w := rfl

@[simp] theorem Dev.setStarve_now (d : Dev) (h : Nat) (f : Starve → Starve) : (d.setStarve h f).now = d.now := rfl
@[simp] theorem Dev.setStarve_free (d : Dev) (h : Nat) (f : Starve → Starve) : (d.setStarve h f).free = d.free := rfl
@[simp] theorem Dev.setStarve_out (d : Dev) (h : Nat) (f : Starve → Starve) : (d.setStarve h f).out = d.out := rfl
@[simp] theorem Dev.setStarve_regs (d : Dev) (h : Nat) (f : Starve → Starve) : (d.setStarve h f).regs = d.regs := rfl
@[simp] theorem Dev.setStarve_halves (d : Dev) (h : Nat) (f : Starve → Starve) : (d.setStarve h f).halves = d.halves := rfl
@[simp] theorem Dev.setStarve_mem (d : Dev) (h : Nat) (f : Starve → Starve) : (d.setStarve h f).mem = d.mem := rfl
@[simp] theorem Dev.setStarve_poison (d : Dev) (h : Nat) (f : Starve → Starve) : (d.setStarve h f).poison = d.poison := rfl
@[simp] theorem Dev.setStarve_pool (d : Dev) (h : Nat) (f : Starve → Starve) : (d.setStarve h f).pool = d.pool := rfl
@[simp] theorem Dev.setStarve_host (d : Dev) (h : Nat) (f : Starve → Starve) : (d.setStarve h f).host = d.host := rfl
@[simp] theorem Dev.setStarve_fab (d : Dev) (h : Nat) (f : Starve → Starve) : (d.setStarve h f).fab = d.fab := rfl
@[simp] theorem Dev.setStarve_knit (d : Dev) (h : Nat) (f : Starve → Starve) : (d.setStarve h f).knit = d.knit := rfl
@[simp] theorem Dev.setStarve_jobs (d : Dev) (h : Nat) (f : Starve → Starve) : (d.setStarve h f).jobs = d.jobs := rfl
@[simp] theorem Dev.setStarve_gru (d : Dev) (h : Nat) (f : Starve → Starve) : (d.setStarve h f).gru = d.gru := rfl
@[simp] theorem Dev.setStarve_mov (d : Dev) (h : Nat) (f : Starve → Starve) : (d.setStarve h f).mov = d.mov := rfl
@[simp] theorem Dev.setStarve_far (d : Dev) (h : Nat) (f : Starve → Starve) : (d.setStarve h f).far = d.far := rfl
@[simp] theorem Dev.setStarve_links (d : Dev) (h : Nat) (f : Starve → Starve) : (d.setStarve h f).links = d.links := rfl
@[simp] theorem Dev.setStarve_router (d : Dev) (h : Nat) (f : Starve → Starve) : (d.setStarve h f).router = d.router := rfl
@[simp] theorem Dev.setStarve_mir (d : Dev) (h : Nat) (f : Starve → Starve) : (d.setStarve h f).mir = d.mir := rfl
@[simp] theorem Dev.setStarve_stk (d : Dev) (h : Nat) (f : Starve → Starve) : (d.setStarve h f).stk = d.stk := rfl
@[simp] theorem Dev.setStarve_ecc (d : Dev) (h : Nat) (f : Starve → Starve) : (d.setStarve h f).ecc = d.ecc := rfl
@[simp] theorem Dev.setStarve_evt (d : Dev) (h : Nat) (f : Starve → Starve) : (d.setStarve h f).evt = d.evt := rfl
@[simp] theorem Dev.setStarve_irq (d : Dev) (h : Nat) (f : Starve → Starve) : (d.setStarve h f).irq = d.irq := rfl
@[simp] theorem Dev.setStarve_perf (d : Dev) (h : Nat) (f : Starve → Starve) : (d.setStarve h f).perf = d.perf := rfl
@[simp] theorem Dev.setStarve_sec (d : Dev) (h : Nat) (f : Starve → Starve) : (d.setStarve h f).sec = d.sec := rfl
@[simp] theorem Dev.setStarve_pm (d : Dev) (h : Nat) (f : Starve → Starve) : (d.setStarve h f).pm = d.pm := rfl
@[simp] theorem Dev.setStarve_age (d : Dev) (h : Nat) (f : Starve → Starve) : (d.setStarve h f).age = d.age := rfl
@[simp] theorem Dev.setStarve_boot (d : Dev) (h : Nat) (f : Starve → Starve) : (d.setStarve h f).boot = d.boot := rfl
@[simp] theorem Dev.setStarve_test (d : Dev) (h : Nat) (f : Starve → Starve) : (d.setStarve h f).test = d.test := rfl
@[simp] theorem Dev.setStarve_reg (d : Dev) (h : Nat) (f : Starve → Starve) (x : Nat) : (d.setStarve h f).reg x = d.reg x := rfl
@[simp] theorem Dev.setStarve_fld (d : Dev) (h : Nat) (f : Starve → Starve) (x lo w : Nat) : (d.setStarve h f).fld x lo w = d.fld x lo w := rfl

@[simp] theorem Dev.setPrivates_now (d : Dev) : d.setPrivates.now = d.now := rfl
@[simp] theorem Dev.setPrivates_free (d : Dev) : d.setPrivates.free = d.free := rfl
@[simp] theorem Dev.setPrivates_out (d : Dev) : d.setPrivates.out = d.out := rfl
@[simp] theorem Dev.setPrivates_regs (d : Dev) : d.setPrivates.regs = d.regs := rfl
@[simp] theorem Dev.setPrivates_halves (d : Dev) : d.setPrivates.halves = d.halves := rfl
@[simp] theorem Dev.setPrivates_mem (d : Dev) : d.setPrivates.mem = d.mem := rfl
@[simp] theorem Dev.setPrivates_poison (d : Dev) : d.setPrivates.poison = d.poison := rfl
@[simp] theorem Dev.setPrivates_pool (d : Dev) : d.setPrivates.pool = d.pool := rfl
@[simp] theorem Dev.setPrivates_host (d : Dev) : d.setPrivates.host = d.host := rfl
@[simp] theorem Dev.setPrivates_fab (d : Dev) : d.setPrivates.fab = d.fab := rfl
@[simp] theorem Dev.setPrivates_knit (d : Dev) : d.setPrivates.knit = d.knit := rfl
@[simp] theorem Dev.setPrivates_jobs (d : Dev) : d.setPrivates.jobs = d.jobs := rfl
@[simp] theorem Dev.setPrivates_gru (d : Dev) : d.setPrivates.gru = d.gru := rfl
@[simp] theorem Dev.setPrivates_mov (d : Dev) : d.setPrivates.mov = d.mov := rfl
@[simp] theorem Dev.setPrivates_far (d : Dev) : d.setPrivates.far = d.far := rfl
@[simp] theorem Dev.setPrivates_links (d : Dev) : d.setPrivates.links = d.links := rfl
@[simp] theorem Dev.setPrivates_router (d : Dev) : d.setPrivates.router = d.router := rfl
@[simp] theorem Dev.setPrivates_mir (d : Dev) : d.setPrivates.mir = d.mir := rfl
@[simp] theorem Dev.setPrivates_stk (d : Dev) : d.setPrivates.stk = d.stk := rfl
@[simp] theorem Dev.setPrivates_ecc (d : Dev) : d.setPrivates.ecc = d.ecc := rfl
@[simp] theorem Dev.setPrivates_evt (d : Dev) : d.setPrivates.evt = d.evt := rfl
@[simp] theorem Dev.setPrivates_irq (d : Dev) : d.setPrivates.irq = d.irq := rfl
@[simp] theorem Dev.setPrivates_perf (d : Dev) : d.setPrivates.perf = d.perf := rfl
@[simp] theorem Dev.setPrivates_sec (d : Dev) : d.setPrivates.sec = d.sec := rfl
@[simp] theorem Dev.setPrivates_pm (d : Dev) : d.setPrivates.pm = d.pm := rfl
@[simp] theorem Dev.setPrivates_age (d : Dev) : d.setPrivates.age = d.age := rfl
@[simp] theorem Dev.setPrivates_boot (d : Dev) : d.setPrivates.boot = d.boot := rfl
@[simp] theorem Dev.setPrivates_test (d : Dev) : d.setPrivates.test = d.test := rfl
@[simp] theorem Dev.setPrivates_reg (d : Dev) (x : Nat) : d.setPrivates.reg x = d.reg x := rfl
@[simp] theorem Dev.setPrivates_fld (d : Dev) (x lo w : Nat) : d.setPrivates.fld x lo w = d.fld x lo w := rfl

@[simp] theorem Dev.setDone_now (d : Dev) (ring idx n : Nat) (buf : List Byte) : (d.setDone ring idx n buf).now = d.now := rfl
@[simp] theorem Dev.setDone_free (d : Dev) (ring idx n : Nat) (buf : List Byte) : (d.setDone ring idx n buf).free = d.free := rfl
@[simp] theorem Dev.setDone_out (d : Dev) (ring idx n : Nat) (buf : List Byte) : (d.setDone ring idx n buf).out = d.out := rfl
@[simp] theorem Dev.setDone_regs (d : Dev) (ring idx n : Nat) (buf : List Byte) : (d.setDone ring idx n buf).regs = d.regs := rfl
@[simp] theorem Dev.setDone_halves (d : Dev) (ring idx n : Nat) (buf : List Byte) : (d.setDone ring idx n buf).halves = d.halves := rfl
@[simp] theorem Dev.setDone_mem (d : Dev) (ring idx n : Nat) (buf : List Byte) : (d.setDone ring idx n buf).mem = d.mem := rfl
@[simp] theorem Dev.setDone_poison (d : Dev) (ring idx n : Nat) (buf : List Byte) : (d.setDone ring idx n buf).poison = d.poison := rfl
@[simp] theorem Dev.setDone_pool (d : Dev) (ring idx n : Nat) (buf : List Byte) : (d.setDone ring idx n buf).pool = d.pool := rfl
@[simp] theorem Dev.setDone_fab (d : Dev) (ring idx n : Nat) (buf : List Byte) : (d.setDone ring idx n buf).fab = d.fab := rfl
@[simp] theorem Dev.setDone_coh (d : Dev) (ring idx n : Nat) (buf : List Byte) : (d.setDone ring idx n buf).coh = d.coh := rfl
@[simp] theorem Dev.setDone_knit (d : Dev) (ring idx n : Nat) (buf : List Byte) : (d.setDone ring idx n buf).knit = d.knit := rfl
@[simp] theorem Dev.setDone_jobs (d : Dev) (ring idx n : Nat) (buf : List Byte) : (d.setDone ring idx n buf).jobs = d.jobs := rfl
@[simp] theorem Dev.setDone_gru (d : Dev) (ring idx n : Nat) (buf : List Byte) : (d.setDone ring idx n buf).gru = d.gru := rfl
@[simp] theorem Dev.setDone_mov (d : Dev) (ring idx n : Nat) (buf : List Byte) : (d.setDone ring idx n buf).mov = d.mov := rfl
@[simp] theorem Dev.setDone_far (d : Dev) (ring idx n : Nat) (buf : List Byte) : (d.setDone ring idx n buf).far = d.far := rfl
@[simp] theorem Dev.setDone_links (d : Dev) (ring idx n : Nat) (buf : List Byte) : (d.setDone ring idx n buf).links = d.links := rfl
@[simp] theorem Dev.setDone_router (d : Dev) (ring idx n : Nat) (buf : List Byte) : (d.setDone ring idx n buf).router = d.router := rfl
@[simp] theorem Dev.setDone_mir (d : Dev) (ring idx n : Nat) (buf : List Byte) : (d.setDone ring idx n buf).mir = d.mir := rfl
@[simp] theorem Dev.setDone_stk (d : Dev) (ring idx n : Nat) (buf : List Byte) : (d.setDone ring idx n buf).stk = d.stk := rfl
@[simp] theorem Dev.setDone_ecc (d : Dev) (ring idx n : Nat) (buf : List Byte) : (d.setDone ring idx n buf).ecc = d.ecc := rfl
@[simp] theorem Dev.setDone_evt (d : Dev) (ring idx n : Nat) (buf : List Byte) : (d.setDone ring idx n buf).evt = d.evt := rfl
@[simp] theorem Dev.setDone_irq (d : Dev) (ring idx n : Nat) (buf : List Byte) : (d.setDone ring idx n buf).irq = d.irq := rfl
@[simp] theorem Dev.setDone_perf (d : Dev) (ring idx n : Nat) (buf : List Byte) : (d.setDone ring idx n buf).perf = d.perf := rfl
@[simp] theorem Dev.setDone_sec (d : Dev) (ring idx n : Nat) (buf : List Byte) : (d.setDone ring idx n buf).sec = d.sec := rfl
@[simp] theorem Dev.setDone_pm (d : Dev) (ring idx n : Nat) (buf : List Byte) : (d.setDone ring idx n buf).pm = d.pm := rfl
@[simp] theorem Dev.setDone_age (d : Dev) (ring idx n : Nat) (buf : List Byte) : (d.setDone ring idx n buf).age = d.age := rfl
@[simp] theorem Dev.setDone_boot (d : Dev) (ring idx n : Nat) (buf : List Byte) : (d.setDone ring idx n buf).boot = d.boot := rfl
@[simp] theorem Dev.setDone_test (d : Dev) (ring idx n : Nat) (buf : List Byte) : (d.setDone ring idx n buf).test = d.test := rfl
@[simp] theorem Dev.setDone_reg (d : Dev) (ring idx n : Nat) (buf : List Byte) (x : Nat) : (d.setDone ring idx n buf).reg x = d.reg x := rfl
@[simp] theorem Dev.setDone_fld (d : Dev) (ring idx n : Nat) (buf : List Byte) (x lo w : Nat) : (d.setDone ring idx n buf).fld x lo w = d.fld x lo w := rfl

@[simp] theorem Dev.setOp_now (d : Dev) (o : FarOp) : (d.setOp o).now = d.now := rfl
@[simp] theorem Dev.setOp_free (d : Dev) (o : FarOp) : (d.setOp o).free = d.free := rfl
@[simp] theorem Dev.setOp_out (d : Dev) (o : FarOp) : (d.setOp o).out = d.out := rfl
@[simp] theorem Dev.setOp_regs (d : Dev) (o : FarOp) : (d.setOp o).regs = d.regs := rfl
@[simp] theorem Dev.setOp_halves (d : Dev) (o : FarOp) : (d.setOp o).halves = d.halves := rfl
@[simp] theorem Dev.setOp_mem (d : Dev) (o : FarOp) : (d.setOp o).mem = d.mem := rfl
@[simp] theorem Dev.setOp_poison (d : Dev) (o : FarOp) : (d.setOp o).poison = d.poison := rfl
@[simp] theorem Dev.setOp_pool (d : Dev) (o : FarOp) : (d.setOp o).pool = d.pool := rfl
@[simp] theorem Dev.setOp_host (d : Dev) (o : FarOp) : (d.setOp o).host = d.host := rfl
@[simp] theorem Dev.setOp_fab (d : Dev) (o : FarOp) : (d.setOp o).fab = d.fab := rfl
@[simp] theorem Dev.setOp_coh (d : Dev) (o : FarOp) : (d.setOp o).coh = d.coh := rfl
@[simp] theorem Dev.setOp_knit (d : Dev) (o : FarOp) : (d.setOp o).knit = d.knit := rfl
@[simp] theorem Dev.setOp_jobs (d : Dev) (o : FarOp) : (d.setOp o).jobs = d.jobs := rfl
@[simp] theorem Dev.setOp_gru (d : Dev) (o : FarOp) : (d.setOp o).gru = d.gru := rfl
@[simp] theorem Dev.setOp_mov (d : Dev) (o : FarOp) : (d.setOp o).mov = d.mov := rfl
@[simp] theorem Dev.setOp_links (d : Dev) (o : FarOp) : (d.setOp o).links = d.links := rfl
@[simp] theorem Dev.setOp_router (d : Dev) (o : FarOp) : (d.setOp o).router = d.router := rfl
@[simp] theorem Dev.setOp_mir (d : Dev) (o : FarOp) : (d.setOp o).mir = d.mir := rfl
@[simp] theorem Dev.setOp_stk (d : Dev) (o : FarOp) : (d.setOp o).stk = d.stk := rfl
@[simp] theorem Dev.setOp_ecc (d : Dev) (o : FarOp) : (d.setOp o).ecc = d.ecc := rfl
@[simp] theorem Dev.setOp_evt (d : Dev) (o : FarOp) : (d.setOp o).evt = d.evt := rfl
@[simp] theorem Dev.setOp_irq (d : Dev) (o : FarOp) : (d.setOp o).irq = d.irq := rfl
@[simp] theorem Dev.setOp_perf (d : Dev) (o : FarOp) : (d.setOp o).perf = d.perf := rfl
@[simp] theorem Dev.setOp_sec (d : Dev) (o : FarOp) : (d.setOp o).sec = d.sec := rfl
@[simp] theorem Dev.setOp_pm (d : Dev) (o : FarOp) : (d.setOp o).pm = d.pm := rfl
@[simp] theorem Dev.setOp_age (d : Dev) (o : FarOp) : (d.setOp o).age = d.age := rfl
@[simp] theorem Dev.setOp_boot (d : Dev) (o : FarOp) : (d.setOp o).boot = d.boot := rfl
@[simp] theorem Dev.setOp_test (d : Dev) (o : FarOp) : (d.setOp o).test = d.test := rfl
@[simp] theorem Dev.setOp_reg (d : Dev) (o : FarOp) (x : Nat) : (d.setOp o).reg x = d.reg x := rfl
@[simp] theorem Dev.setOp_fld (d : Dev) (o : FarOp) (x lo w : Nat) : (d.setOp o).fld x lo w = d.fld x lo w := rfl

@[simp] theorem Dev.setTweaks_now (d : Dev) (key addr n : Nat) : (d.setTweaks key addr n).now = d.now := rfl
@[simp] theorem Dev.setTweaks_free (d : Dev) (key addr n : Nat) : (d.setTweaks key addr n).free = d.free := rfl
@[simp] theorem Dev.setTweaks_out (d : Dev) (key addr n : Nat) : (d.setTweaks key addr n).out = d.out := rfl
@[simp] theorem Dev.setTweaks_regs (d : Dev) (key addr n : Nat) : (d.setTweaks key addr n).regs = d.regs := rfl
@[simp] theorem Dev.setTweaks_halves (d : Dev) (key addr n : Nat) : (d.setTweaks key addr n).halves = d.halves := rfl
@[simp] theorem Dev.setTweaks_mem (d : Dev) (key addr n : Nat) : (d.setTweaks key addr n).mem = d.mem := rfl
@[simp] theorem Dev.setTweaks_poison (d : Dev) (key addr n : Nat) : (d.setTweaks key addr n).poison = d.poison := rfl
@[simp] theorem Dev.setTweaks_pool (d : Dev) (key addr n : Nat) : (d.setTweaks key addr n).pool = d.pool := rfl
@[simp] theorem Dev.setTweaks_host (d : Dev) (key addr n : Nat) : (d.setTweaks key addr n).host = d.host := rfl
@[simp] theorem Dev.setTweaks_fab (d : Dev) (key addr n : Nat) : (d.setTweaks key addr n).fab = d.fab := rfl
@[simp] theorem Dev.setTweaks_coh (d : Dev) (key addr n : Nat) : (d.setTweaks key addr n).coh = d.coh := rfl
@[simp] theorem Dev.setTweaks_knit (d : Dev) (key addr n : Nat) : (d.setTweaks key addr n).knit = d.knit := rfl
@[simp] theorem Dev.setTweaks_jobs (d : Dev) (key addr n : Nat) : (d.setTweaks key addr n).jobs = d.jobs := rfl
@[simp] theorem Dev.setTweaks_gru (d : Dev) (key addr n : Nat) : (d.setTweaks key addr n).gru = d.gru := rfl
@[simp] theorem Dev.setTweaks_mov (d : Dev) (key addr n : Nat) : (d.setTweaks key addr n).mov = d.mov := rfl
@[simp] theorem Dev.setTweaks_links (d : Dev) (key addr n : Nat) : (d.setTweaks key addr n).links = d.links := rfl
@[simp] theorem Dev.setTweaks_router (d : Dev) (key addr n : Nat) : (d.setTweaks key addr n).router = d.router := rfl
@[simp] theorem Dev.setTweaks_mir (d : Dev) (key addr n : Nat) : (d.setTweaks key addr n).mir = d.mir := rfl
@[simp] theorem Dev.setTweaks_stk (d : Dev) (key addr n : Nat) : (d.setTweaks key addr n).stk = d.stk := rfl
@[simp] theorem Dev.setTweaks_ecc (d : Dev) (key addr n : Nat) : (d.setTweaks key addr n).ecc = d.ecc := rfl
@[simp] theorem Dev.setTweaks_evt (d : Dev) (key addr n : Nat) : (d.setTweaks key addr n).evt = d.evt := rfl
@[simp] theorem Dev.setTweaks_irq (d : Dev) (key addr n : Nat) : (d.setTweaks key addr n).irq = d.irq := rfl
@[simp] theorem Dev.setTweaks_perf (d : Dev) (key addr n : Nat) : (d.setTweaks key addr n).perf = d.perf := rfl
@[simp] theorem Dev.setTweaks_sec (d : Dev) (key addr n : Nat) : (d.setTweaks key addr n).sec = d.sec := rfl
@[simp] theorem Dev.setTweaks_pm (d : Dev) (key addr n : Nat) : (d.setTweaks key addr n).pm = d.pm := rfl
@[simp] theorem Dev.setTweaks_age (d : Dev) (key addr n : Nat) : (d.setTweaks key addr n).age = d.age := rfl
@[simp] theorem Dev.setTweaks_boot (d : Dev) (key addr n : Nat) : (d.setTweaks key addr n).boot = d.boot := rfl
@[simp] theorem Dev.setTweaks_test (d : Dev) (key addr n : Nat) : (d.setTweaks key addr n).test = d.test := rfl
@[simp] theorem Dev.setTweaks_reg (d : Dev) (key addr n : Nat) (x : Nat) : (d.setTweaks key addr n).reg x = d.reg x := rfl
@[simp] theorem Dev.setTweaks_fld (d : Dev) (key addr n : Nat) (x lo w : Nat) : (d.setTweaks key addr n).fld x lo w = d.fld x lo w := rfl

@[simp] theorem Dev.setStream_now (d : Dev) (m : Msg) (f : Ordered → Ordered) : (d.setStream m f).now = d.now := rfl
@[simp] theorem Dev.setStream_free (d : Dev) (m : Msg) (f : Ordered → Ordered) : (d.setStream m f).free = d.free := rfl
@[simp] theorem Dev.setStream_out (d : Dev) (m : Msg) (f : Ordered → Ordered) : (d.setStream m f).out = d.out := rfl
@[simp] theorem Dev.setStream_regs (d : Dev) (m : Msg) (f : Ordered → Ordered) : (d.setStream m f).regs = d.regs := rfl
@[simp] theorem Dev.setStream_halves (d : Dev) (m : Msg) (f : Ordered → Ordered) : (d.setStream m f).halves = d.halves := rfl
@[simp] theorem Dev.setStream_mem (d : Dev) (m : Msg) (f : Ordered → Ordered) : (d.setStream m f).mem = d.mem := rfl
@[simp] theorem Dev.setStream_poison (d : Dev) (m : Msg) (f : Ordered → Ordered) : (d.setStream m f).poison = d.poison := rfl
@[simp] theorem Dev.setStream_pool (d : Dev) (m : Msg) (f : Ordered → Ordered) : (d.setStream m f).pool = d.pool := rfl
@[simp] theorem Dev.setStream_host (d : Dev) (m : Msg) (f : Ordered → Ordered) : (d.setStream m f).host = d.host := rfl
@[simp] theorem Dev.setStream_coh (d : Dev) (m : Msg) (f : Ordered → Ordered) : (d.setStream m f).coh = d.coh := rfl
@[simp] theorem Dev.setStream_knit (d : Dev) (m : Msg) (f : Ordered → Ordered) : (d.setStream m f).knit = d.knit := rfl
@[simp] theorem Dev.setStream_jobs (d : Dev) (m : Msg) (f : Ordered → Ordered) : (d.setStream m f).jobs = d.jobs := rfl
@[simp] theorem Dev.setStream_gru (d : Dev) (m : Msg) (f : Ordered → Ordered) : (d.setStream m f).gru = d.gru := rfl
@[simp] theorem Dev.setStream_mov (d : Dev) (m : Msg) (f : Ordered → Ordered) : (d.setStream m f).mov = d.mov := rfl
@[simp] theorem Dev.setStream_far (d : Dev) (m : Msg) (f : Ordered → Ordered) : (d.setStream m f).far = d.far := rfl
@[simp] theorem Dev.setStream_links (d : Dev) (m : Msg) (f : Ordered → Ordered) : (d.setStream m f).links = d.links := rfl
@[simp] theorem Dev.setStream_router (d : Dev) (m : Msg) (f : Ordered → Ordered) : (d.setStream m f).router = d.router := rfl
@[simp] theorem Dev.setStream_mir (d : Dev) (m : Msg) (f : Ordered → Ordered) : (d.setStream m f).mir = d.mir := rfl
@[simp] theorem Dev.setStream_stk (d : Dev) (m : Msg) (f : Ordered → Ordered) : (d.setStream m f).stk = d.stk := rfl
@[simp] theorem Dev.setStream_ecc (d : Dev) (m : Msg) (f : Ordered → Ordered) : (d.setStream m f).ecc = d.ecc := rfl
@[simp] theorem Dev.setStream_evt (d : Dev) (m : Msg) (f : Ordered → Ordered) : (d.setStream m f).evt = d.evt := rfl
@[simp] theorem Dev.setStream_irq (d : Dev) (m : Msg) (f : Ordered → Ordered) : (d.setStream m f).irq = d.irq := rfl
@[simp] theorem Dev.setStream_perf (d : Dev) (m : Msg) (f : Ordered → Ordered) : (d.setStream m f).perf = d.perf := rfl
@[simp] theorem Dev.setStream_sec (d : Dev) (m : Msg) (f : Ordered → Ordered) : (d.setStream m f).sec = d.sec := rfl
@[simp] theorem Dev.setStream_pm (d : Dev) (m : Msg) (f : Ordered → Ordered) : (d.setStream m f).pm = d.pm := rfl
@[simp] theorem Dev.setStream_age (d : Dev) (m : Msg) (f : Ordered → Ordered) : (d.setStream m f).age = d.age := rfl
@[simp] theorem Dev.setStream_boot (d : Dev) (m : Msg) (f : Ordered → Ordered) : (d.setStream m f).boot = d.boot := rfl
@[simp] theorem Dev.setStream_test (d : Dev) (m : Msg) (f : Ordered → Ordered) : (d.setStream m f).test = d.test := rfl
@[simp] theorem Dev.setStream_reg (d : Dev) (m : Msg) (f : Ordered → Ordered) (x : Nat) : (d.setStream m f).reg x = d.reg x := rfl
@[simp] theorem Dev.setStream_fld (d : Dev) (m : Msg) (f : Ordered → Ordered) (x lo w : Nat) : (d.setStream m f).fld x lo w = d.fld x lo w := rfl

@[simp] theorem Dev.setPart_now (d : Dev) (l vc : Nat) (p : List Cell) (stray : Bool) : (d.setPart l vc p stray).now = d.now := rfl
@[simp] theorem Dev.setPart_free (d : Dev) (l vc : Nat) (p : List Cell) (stray : Bool) : (d.setPart l vc p stray).free = d.free := rfl
@[simp] theorem Dev.setPart_out (d : Dev) (l vc : Nat) (p : List Cell) (stray : Bool) : (d.setPart l vc p stray).out = d.out := rfl
@[simp] theorem Dev.setPart_regs (d : Dev) (l vc : Nat) (p : List Cell) (stray : Bool) : (d.setPart l vc p stray).regs = d.regs := rfl
@[simp] theorem Dev.setPart_halves (d : Dev) (l vc : Nat) (p : List Cell) (stray : Bool) : (d.setPart l vc p stray).halves = d.halves := rfl
@[simp] theorem Dev.setPart_mem (d : Dev) (l vc : Nat) (p : List Cell) (stray : Bool) : (d.setPart l vc p stray).mem = d.mem := rfl
@[simp] theorem Dev.setPart_poison (d : Dev) (l vc : Nat) (p : List Cell) (stray : Bool) : (d.setPart l vc p stray).poison = d.poison := rfl
@[simp] theorem Dev.setPart_pool (d : Dev) (l vc : Nat) (p : List Cell) (stray : Bool) : (d.setPart l vc p stray).pool = d.pool := rfl
@[simp] theorem Dev.setPart_host (d : Dev) (l vc : Nat) (p : List Cell) (stray : Bool) : (d.setPart l vc p stray).host = d.host := rfl
@[simp] theorem Dev.setPart_fab (d : Dev) (l vc : Nat) (p : List Cell) (stray : Bool) : (d.setPart l vc p stray).fab = d.fab := rfl
@[simp] theorem Dev.setPart_coh (d : Dev) (l vc : Nat) (p : List Cell) (stray : Bool) : (d.setPart l vc p stray).coh = d.coh := rfl
@[simp] theorem Dev.setPart_knit (d : Dev) (l vc : Nat) (p : List Cell) (stray : Bool) : (d.setPart l vc p stray).knit = d.knit := rfl
@[simp] theorem Dev.setPart_jobs (d : Dev) (l vc : Nat) (p : List Cell) (stray : Bool) : (d.setPart l vc p stray).jobs = d.jobs := rfl
@[simp] theorem Dev.setPart_gru (d : Dev) (l vc : Nat) (p : List Cell) (stray : Bool) : (d.setPart l vc p stray).gru = d.gru := rfl
@[simp] theorem Dev.setPart_mov (d : Dev) (l vc : Nat) (p : List Cell) (stray : Bool) : (d.setPart l vc p stray).mov = d.mov := rfl
@[simp] theorem Dev.setPart_far (d : Dev) (l vc : Nat) (p : List Cell) (stray : Bool) : (d.setPart l vc p stray).far = d.far := rfl
@[simp] theorem Dev.setPart_router (d : Dev) (l vc : Nat) (p : List Cell) (stray : Bool) : (d.setPart l vc p stray).router = d.router := rfl
@[simp] theorem Dev.setPart_mir (d : Dev) (l vc : Nat) (p : List Cell) (stray : Bool) : (d.setPart l vc p stray).mir = d.mir := rfl
@[simp] theorem Dev.setPart_stk (d : Dev) (l vc : Nat) (p : List Cell) (stray : Bool) : (d.setPart l vc p stray).stk = d.stk := rfl
@[simp] theorem Dev.setPart_ecc (d : Dev) (l vc : Nat) (p : List Cell) (stray : Bool) : (d.setPart l vc p stray).ecc = d.ecc := rfl
@[simp] theorem Dev.setPart_evt (d : Dev) (l vc : Nat) (p : List Cell) (stray : Bool) : (d.setPart l vc p stray).evt = d.evt := rfl
@[simp] theorem Dev.setPart_irq (d : Dev) (l vc : Nat) (p : List Cell) (stray : Bool) : (d.setPart l vc p stray).irq = d.irq := rfl
@[simp] theorem Dev.setPart_perf (d : Dev) (l vc : Nat) (p : List Cell) (stray : Bool) : (d.setPart l vc p stray).perf = d.perf := rfl
@[simp] theorem Dev.setPart_sec (d : Dev) (l vc : Nat) (p : List Cell) (stray : Bool) : (d.setPart l vc p stray).sec = d.sec := rfl
@[simp] theorem Dev.setPart_pm (d : Dev) (l vc : Nat) (p : List Cell) (stray : Bool) : (d.setPart l vc p stray).pm = d.pm := rfl
@[simp] theorem Dev.setPart_age (d : Dev) (l vc : Nat) (p : List Cell) (stray : Bool) : (d.setPart l vc p stray).age = d.age := rfl
@[simp] theorem Dev.setPart_boot (d : Dev) (l vc : Nat) (p : List Cell) (stray : Bool) : (d.setPart l vc p stray).boot = d.boot := rfl
@[simp] theorem Dev.setPart_test (d : Dev) (l vc : Nat) (p : List Cell) (stray : Bool) : (d.setPart l vc p stray).test = d.test := rfl
@[simp] theorem Dev.setPart_reg (d : Dev) (l vc : Nat) (p : List Cell) (stray : Bool) (x : Nat) : (d.setPart l vc p stray).reg x = d.reg x := rfl
@[simp] theorem Dev.setPart_fld (d : Dev) (l vc : Nat) (p : List Cell) (stray : Bool) (x lo w : Nat) : (d.setPart l vc p stray).fld x lo w = d.fld x lo w := rfl

@[simp] theorem Dev.setSwitch_now (d : Dev) (k : Nat) (f : Switch → Switch) : (d.setSwitch k f).now = d.now := rfl
@[simp] theorem Dev.setSwitch_free (d : Dev) (k : Nat) (f : Switch → Switch) : (d.setSwitch k f).free = d.free := rfl
@[simp] theorem Dev.setSwitch_out (d : Dev) (k : Nat) (f : Switch → Switch) : (d.setSwitch k f).out = d.out := rfl
@[simp] theorem Dev.setSwitch_regs (d : Dev) (k : Nat) (f : Switch → Switch) : (d.setSwitch k f).regs = d.regs := rfl
@[simp] theorem Dev.setSwitch_halves (d : Dev) (k : Nat) (f : Switch → Switch) : (d.setSwitch k f).halves = d.halves := rfl
@[simp] theorem Dev.setSwitch_mem (d : Dev) (k : Nat) (f : Switch → Switch) : (d.setSwitch k f).mem = d.mem := rfl
@[simp] theorem Dev.setSwitch_poison (d : Dev) (k : Nat) (f : Switch → Switch) : (d.setSwitch k f).poison = d.poison := rfl
@[simp] theorem Dev.setSwitch_host (d : Dev) (k : Nat) (f : Switch → Switch) : (d.setSwitch k f).host = d.host := rfl
@[simp] theorem Dev.setSwitch_fab (d : Dev) (k : Nat) (f : Switch → Switch) : (d.setSwitch k f).fab = d.fab := rfl
@[simp] theorem Dev.setSwitch_coh (d : Dev) (k : Nat) (f : Switch → Switch) : (d.setSwitch k f).coh = d.coh := rfl
@[simp] theorem Dev.setSwitch_knit (d : Dev) (k : Nat) (f : Switch → Switch) : (d.setSwitch k f).knit = d.knit := rfl
@[simp] theorem Dev.setSwitch_jobs (d : Dev) (k : Nat) (f : Switch → Switch) : (d.setSwitch k f).jobs = d.jobs := rfl
@[simp] theorem Dev.setSwitch_gru (d : Dev) (k : Nat) (f : Switch → Switch) : (d.setSwitch k f).gru = d.gru := rfl
@[simp] theorem Dev.setSwitch_mov (d : Dev) (k : Nat) (f : Switch → Switch) : (d.setSwitch k f).mov = d.mov := rfl
@[simp] theorem Dev.setSwitch_far (d : Dev) (k : Nat) (f : Switch → Switch) : (d.setSwitch k f).far = d.far := rfl
@[simp] theorem Dev.setSwitch_links (d : Dev) (k : Nat) (f : Switch → Switch) : (d.setSwitch k f).links = d.links := rfl
@[simp] theorem Dev.setSwitch_router (d : Dev) (k : Nat) (f : Switch → Switch) : (d.setSwitch k f).router = d.router := rfl
@[simp] theorem Dev.setSwitch_mir (d : Dev) (k : Nat) (f : Switch → Switch) : (d.setSwitch k f).mir = d.mir := rfl
@[simp] theorem Dev.setSwitch_stk (d : Dev) (k : Nat) (f : Switch → Switch) : (d.setSwitch k f).stk = d.stk := rfl
@[simp] theorem Dev.setSwitch_ecc (d : Dev) (k : Nat) (f : Switch → Switch) : (d.setSwitch k f).ecc = d.ecc := rfl
@[simp] theorem Dev.setSwitch_evt (d : Dev) (k : Nat) (f : Switch → Switch) : (d.setSwitch k f).evt = d.evt := rfl
@[simp] theorem Dev.setSwitch_irq (d : Dev) (k : Nat) (f : Switch → Switch) : (d.setSwitch k f).irq = d.irq := rfl
@[simp] theorem Dev.setSwitch_perf (d : Dev) (k : Nat) (f : Switch → Switch) : (d.setSwitch k f).perf = d.perf := rfl
@[simp] theorem Dev.setSwitch_sec (d : Dev) (k : Nat) (f : Switch → Switch) : (d.setSwitch k f).sec = d.sec := rfl
@[simp] theorem Dev.setSwitch_pm (d : Dev) (k : Nat) (f : Switch → Switch) : (d.setSwitch k f).pm = d.pm := rfl
@[simp] theorem Dev.setSwitch_age (d : Dev) (k : Nat) (f : Switch → Switch) : (d.setSwitch k f).age = d.age := rfl
@[simp] theorem Dev.setSwitch_boot (d : Dev) (k : Nat) (f : Switch → Switch) : (d.setSwitch k f).boot = d.boot := rfl
@[simp] theorem Dev.setSwitch_test (d : Dev) (k : Nat) (f : Switch → Switch) : (d.setSwitch k f).test = d.test := rfl
@[simp] theorem Dev.setSwitch_reg (d : Dev) (k : Nat) (f : Switch → Switch) (x : Nat) : (d.setSwitch k f).reg x = d.reg x := rfl
@[simp] theorem Dev.setSwitch_fld (d : Dev) (k : Nat) (f : Switch → Switch) (x lo w : Nat) : (d.setSwitch k f).fld x lo w = d.fld x lo w := rfl

/-! ## What a unit reads after its own update -/

theorem tgetD_tput {α : Type} (t : Tbl α) (k j : Nat) (v e : α) :
    tgetD (tput t k v) j e = if j = k then v else tgetD t j e := by
  unfold tgetD; rw [tget_tput]; split <;> rfl

theorem Dev.stitch_setStitch (d : Dev) (k j : Nat) (f : Stitch → Stitch) : (d.setStitch k f).stitch j = if j = k then f (d.stitch k) else d.stitch j := tgetD_tput ..
@[simp] theorem Dev.stitch_setStitch_same (d : Dev) (k : Nat) (f : Stitch → Stitch) : (d.setStitch k f).stitch k = f (d.stitch k) := by simp [Dev.stitch_setStitch]

theorem Dev.panel_setPanel (d : Dev) (k j : Nat) (f : Panel → Panel) : (d.setPanel k f).panel j = if j = k then f (d.panel k) else d.panel j := tgetD_tput ..
@[simp] theorem Dev.panel_setPanel_same (d : Dev) (k : Nat) (f : Panel → Panel) : (d.setPanel k f).panel k = f (d.panel k) := by simp [Dev.panel_setPanel]

theorem Dev.sport_setSport (d : Dev) (k j : Nat) (f : StreamPort → StreamPort) : (d.setSport k f).sport j = if j = k then f (d.sport k) else d.sport j := tgetD_tput ..
@[simp] theorem Dev.sport_setSport_same (d : Dev) (k : Nat) (f : StreamPort → StreamPort) : (d.setSport k f).sport k = f (d.sport k) := by simp [Dev.sport_setSport]

theorem Dev.ring_setRing (d : Dev) (k j : Nat) (f : Ring → Ring) : (d.setRing k f).ring j = if j = k then f (d.ring k) else d.ring j := tgetD_tput ..
@[simp] theorem Dev.ring_setRing_same (d : Dev) (k : Nat) (f : Ring → Ring) : (d.setRing k f).ring k = f (d.ring k) := by simp [Dev.ring_setRing]

theorem Dev.link_setLink (d : Dev) (k j : Nat) (f : Link → Link) : (d.setLink k f).link j = if j = k then f (d.link k) else d.link j := tgetD_tput ..
@[simp] theorem Dev.link_setLink_same (d : Dev) (k : Nat) (f : Link → Link) : (d.setLink k f).link k = f (d.link k) := by simp [Dev.link_setLink]

theorem Dev.stack_setStack (d : Dev) (k j : Nat) (f : Stack → Stack) : (d.setStack k f).stack j = if j = k then f (d.stack k) else d.stack j := tgetD_tput ..
@[simp] theorem Dev.stack_setStack_same (d : Dev) (k : Nat) (f : Stack → Stack) : (d.setStack k f).stack k = f (d.stack k) := by simp [Dev.stack_setStack]

theorem Dev.mover_setMover (d : Dev) (k j : Nat) (f : Mover → Mover) : (d.setMover k f).mover j = if j = k then f (d.mover k) else d.mover j := tgetD_tput ..
@[simp] theorem Dev.mover_setMover_same (d : Dev) (k : Nat) (f : Mover → Mover) : (d.setMover k f).mover k = f (d.mover k) := by simp [Dev.mover_setMover]

theorem Dev.core_setCore (d : Dev) (k j : Nat) (f : CoreSt → CoreSt) : (d.setCore k f).core j = if j = k then f (d.core k) else d.core j := tgetD_tput ..
@[simp] theorem Dev.core_setCore_same (d : Dev) (k : Nat) (f : CoreSt → CoreSt) : (d.setCore k f).core k = f (d.core k) := by simp [Dev.core_setCore]

theorem Dev.reg_setReg (d : Dev) (off v o : Nat) : (d.setReg off v).reg o = if o = off then v else d.reg o := by
  unfold Dev.reg Dev.setReg
  rw [tget_tput]
  by_cases h : o = off <;> simp [h]
@[simp] theorem Dev.reg_setReg_same (d : Dev) (off v : Nat) : (d.setReg off v).reg off = v := by simp [Dev.reg_setReg]
theorem Dev.reg_setReg_other (d : Dev) (off v o : Nat) (h : o ≠ off) : (d.setReg off v).reg o = d.reg o := by
  simp [Dev.reg_setReg, h]
theorem Dev.fld_setReg_other (d : Dev) (off v o lo w : Nat) (h : o ≠ off) : (d.setReg off v).fld o lo w = d.fld o lo w := by
  simp [Dev.fld, Dev.reg_setReg, h]

/-- Changing a job that is not there changes nothing; one that is there reads as changed. -/
theorem Dev.job_setJob (d : Dev) (k j : Nat) (f : Job → Job) :
    (d.setJob k f).job j = if j = k then (d.job k).map f else d.job j := by
  unfold Dev.job Dev.setJob tmod
  cases h : tget d.jobs.jobs k with
  | none => by_cases hj : j = k <;> simp_all
  | some v => by_cases hj : j = k <;> simp [tget_tput, hj]

/-- A port's own state after its update, the other port's untouched. -/
theorem Dev.port_setPort (d : Dev) (p q : Nat) (f : PortSt → PortSt) :
    (d.setPort p f).port q = if (q = 0 ↔ p = 0) then f (d.port p) else d.port q := by
  unfold Dev.port Dev.setPort
  by_cases hp : p = 0 <;> by_cases hq : q = 0 <;> simp [hp, hq]

/-- The timebase never goes back, and comes to the instant (R25, R415). -/
theorem Dev.till_ge (d : Dev) (t : Nat) : d.now ≤ (d.till t).now ∧ t ≤ (d.till t).now := by
  unfold Dev.till; dsimp only; split <;> omega
/-- On the reference the timebase moves by whole eights (R25). -/
theorem Dev.till_now_ref (d : Dev) (t : Nat) (h : d.pm.tbFromRef = true) : (d.till t).now = d.now + (t - d.now + 7) / 8 * 8 := by
  simp [Dev.till, h]
theorem Dev.till_now_pll (d : Dev) (t : Nat) (h : d.pm.tbFromRef = false) : (d.till t).now = max d.now t := by
  simp [Dev.till, h]
theorem Dev.till_id (d : Dev) (t : Nat) (h : t ≤ d.now) : d.till t = d := by
  have e : (if d.pm.tbFromRef = true then d.now + (t - d.now + 7) / 8 * 8 else max d.now t) = d.now := by split <;> omega
  unfold Dev.till; rw [e]
@[simp] theorem Dev.emit_out (d : Dev) (o : Out) : (d.emit o).out = o :: d.out := rfl
@[simp] theorem Dev.sendMsg_out (d : Dev) (m : Msg) : (d.sendMsg m).out = .msg m :: d.out := rfl
@[simp] theorem Dev.sendMsg_localq (d : Dev) (m : Msg) : (d.sendMsg m).router.localq = d.router.localq ++ [m] := rfl
@[simp] theorem Dev.draw_fst (d : Dev) : d.draw.1 = Config.freeNumber d.free := rfl
@[simp] theorem Dev.draw_snd (d : Dev) : d.draw.2 = { d with free := d.free + 1 } := rfl

/-! ## The lifts -/

/-- A device operation's command answers a next state: the operation's device, the fuses and the queue as they were. -/
theorem liftDev_next (f : Dev → Dev) (s : State) : liftDev f s = .next { s with dev := f s.dev } := rfl
theorem liftRead_next (f : Fuses → Dev → Dev) (s : State) : liftRead f s = .next { s with dev := f s.fuse s.dev } := rfl

end Sys2Proof.Machine
end

