-- ==== Sys2Proof/Laws/Counters.lean ====
section
/-! SUPPORT. What counting and queueing an access can do, said once: a counter changes the registers and the performance counters
alone, an access the stacks alone, and a free value the counter of free values alone. -/

namespace Sys2Proof.Machine

theorem perfAdd_changes (d : Dev) (i n : Nat) : ∃ p, d.perfAdd i n = { d with perf := p } := by
  unfold Dev.perfAdd
  dsimp only
  repeat' split
  all_goals exact ⟨_, rfl⟩

theorem bump_changes (d : Dev) (off lo : Nat) : ∃ r p, d.bump off lo = { d with regs := r, perf := p } := by
  unfold Dev.bump
  split
  · exact ⟨d.regs, d.perf, rfl⟩
  · dsimp only
    obtain ⟨p, h⟩ := perfAdd_changes (d.setReg off (setBits (d.reg off) lo _ _)) (mirrorIndex _ _ _) 1
    exact ⟨_, p, h⟩

theorem bumps_changes (off lo : Nat) : ∀ (n : Nat) (d : Dev), ∃ r p, d.bumps off lo n = { d with regs := r, perf := p } := by
  intro n
  induction n with
  | zero => intro d; exact ⟨d.regs, d.perf, rfl⟩
  | succ n ih =>
    intro d
    obtain ⟨r, p, h⟩ := bump_changes d off lo
    obtain ⟨r', p', h'⟩ := ih (d.bump off lo)
    exact ⟨r', p', by rw [Dev.bumps, h', h]⟩

theorem access_changes (d : Dev) (ext key kind source port origin addr : Nat) :
    ∃ t, d.access ext key kind source port origin addr = { d with stk := t } := by
  unfold Dev.access
  dsimp only
  split
  · exact ⟨d.stk, rfl⟩
  · exact ⟨_, rfl⟩

end Sys2Proof.Machine
end

