-- ==== Sys2Proof/Laws/Descriptors.lean ====
section
/-! SUPPORT. How a descriptor's command reaches its operation, said once: one that is ready is begun and performed, one its gate
leaves goes on; a free choice finds what may be chosen; in Run a wake source latches nothing. -/

namespace Sys2Proof.Machine

/-- A ready descriptor's operation is performed on its bytes and on the device in which it has begun. -/
theorem withDesc_ready (d : Dev) (ring idx op : Nat) (b : List Byte) (f : List Byte → Dev → Dev) (h : d.ready ring idx op b) :
    d.withDesc ring idx op f = f b (d.begun ring idx) := by
  unfold Dev.ready at h
  unfold Dev.withDesc
  cases hs : d.startedAt ring idx with
  | none => simp [hs] at h
  | some x =>
    simp [hs] at h
    obtain ⟨⟨h1, h2⟩, h3⟩ := h
    simp [h1, h2, h3, Dev.begun]

/-- What its gate admits goes on. -/
theorem gated_admits (d : Dev) (ring idx : Nat) (ch : Bool) (fs : List Nat) (f : Dev → Dev) (h : admits d ring ch fs) :
    d.gated ring idx ch fs f = f d := by
  unfold Dev.gated
  simp only [admits] at h
  simp [h]

/-- Beginning a descriptor changes nothing the gate reads. -/
theorem begun_admits (d : Dev) (ring idx : Nat) (ch : Bool) (fs : List Nat) (h : admits d ring ch fs) :
    admits (d.begun ring idx) ring ch fs := h

/-! ## What beginning a descriptor leaves unchanged -/

@[simp] theorem begun_now (d : Dev) (ring idx : Nat) : (d.begun ring idx).now = d.now := rfl
@[simp] theorem begun_free (d : Dev) (ring idx : Nat) : (d.begun ring idx).free = d.free := rfl
@[simp] theorem begun_out (d : Dev) (ring idx : Nat) : (d.begun ring idx).out = d.out := rfl
@[simp] theorem begun_regs (d : Dev) (ring idx : Nat) : (d.begun ring idx).regs = d.regs := rfl
@[simp] theorem begun_halves (d : Dev) (ring idx : Nat) : (d.begun ring idx).halves = d.halves := rfl
@[simp] theorem begun_mem (d : Dev) (ring idx : Nat) : (d.begun ring idx).mem = d.mem := rfl
@[simp] theorem begun_poison (d : Dev) (ring idx : Nat) : (d.begun ring idx).poison = d.poison := rfl
@[simp] theorem begun_pool (d : Dev) (ring idx : Nat) : (d.begun ring idx).pool = d.pool := rfl
@[simp] theorem begun_fab (d : Dev) (ring idx : Nat) : (d.begun ring idx).fab = d.fab := rfl
@[simp] theorem begun_coh (d : Dev) (ring idx : Nat) : (d.begun ring idx).coh = d.coh := rfl
@[simp] theorem begun_knit (d : Dev) (ring idx : Nat) : (d.begun ring idx).knit = d.knit := rfl
@[simp] theorem begun_jobs (d : Dev) (ring idx : Nat) : (d.begun ring idx).jobs = d.jobs := rfl
@[simp] theorem begun_gru (d : Dev) (ring idx : Nat) : (d.begun ring idx).gru = d.gru := rfl
@[simp] theorem begun_mov (d : Dev) (ring idx : Nat) : (d.begun ring idx).mov = d.mov := rfl
@[simp] theorem begun_far (d : Dev) (ring idx : Nat) : (d.begun ring idx).far = d.far := rfl
@[simp] theorem begun_links (d : Dev) (ring idx : Nat) : (d.begun ring idx).links = d.links := rfl
@[simp] theorem begun_router (d : Dev) (ring idx : Nat) : (d.begun ring idx).router = d.router := rfl
@[simp] theorem begun_mir (d : Dev) (ring idx : Nat) : (d.begun ring idx).mir = d.mir := rfl
@[simp] theorem begun_stk (d : Dev) (ring idx : Nat) : (d.begun ring idx).stk = d.stk := rfl
@[simp] theorem begun_ecc (d : Dev) (ring idx : Nat) : (d.begun ring idx).ecc = d.ecc := rfl
@[simp] theorem begun_evt (d : Dev) (ring idx : Nat) : (d.begun ring idx).evt = d.evt := rfl
@[simp] theorem begun_irq (d : Dev) (ring idx : Nat) : (d.begun ring idx).irq = d.irq := rfl
@[simp] theorem begun_perf (d : Dev) (ring idx : Nat) : (d.begun ring idx).perf = d.perf := rfl
@[simp] theorem begun_sec (d : Dev) (ring idx : Nat) : (d.begun ring idx).sec = d.sec := rfl
@[simp] theorem begun_pm (d : Dev) (ring idx : Nat) : (d.begun ring idx).pm = d.pm := rfl
@[simp] theorem begun_age (d : Dev) (ring idx : Nat) : (d.begun ring idx).age = d.age := rfl
@[simp] theorem begun_boot (d : Dev) (ring idx : Nat) : (d.begun ring idx).boot = d.boot := rfl
@[simp] theorem begun_test (d : Dev) (ring idx : Nat) : (d.begun ring idx).test = d.test := rfl
@[simp] theorem begun_reg (d : Dev) (ring idx : Nat) (x : Nat) : (d.begun ring idx).reg x = d.reg x := rfl
@[simp] theorem begun_fld (d : Dev) (ring idx : Nat) (x lo w : Nat) : (d.begun ring idx).fld x lo w = d.fld x lo w := rfl
@[simp] theorem begun_ringOwner (d : Dev) (ring idx : Nat) (n : Nat) : (d.begun ring idx).ringOwner n = d.ringOwner n := rfl
@[simp] theorem begun_hasFeature (d : Dev) (ring idx : Nat) (n f : Nat) : (d.begun ring idx).hasFeature n f = d.hasFeature n f := rfl
@[simp] theorem begun_leaseHolder (d : Dev) (ring idx : Nat) : (d.begun ring idx).leaseHolder = d.leaseHolder := rfl
@[simp] theorem begun_hasLease (d : Dev) (ring idx : Nat) (n : Nat) : (d.begun ring idx).hasLease n = d.hasLease n := rfl
@[simp] theorem begun_port (d : Dev) (ring idx : Nat) (p : Nat) : (d.begun ring idx).port p = d.port p := rfl
@[simp] theorem begun_portUp (d : Dev) (ring idx : Nat) (p : Nat) : (d.begun ring idx).portUp p = d.portUp p := rfl
@[simp] theorem begun_sessionOf (d : Dev) (ring idx : Nat) (n : Nat) : (d.begun ring idx).sessionOf n = d.sessionOf n := rfl
@[simp] theorem begun_outsideTenant (d : Dev) (ring idx : Nat) (n : Nat) : (d.begun ring idx).outsideTenant n = d.outsideTenant n := rfl
@[simp] theorem begun_ctx (d : Dev) (ring idx : Nat) (c : Nat) : (d.begun ring idx).ctx c = d.ctx c := rfl
@[simp] theorem begun_job (d : Dev) (ring idx : Nat) (n : Nat) : (d.begun ring idx).job n = d.job n := rfl
@[simp] theorem begun_panel (d : Dev) (ring idx : Nat) (p : Nat) : (d.begun ring idx).panel p = d.panel p := rfl
@[simp] theorem begun_emtOf (d : Dev) (ring idx : Nat) (x : Nat) : (d.begun ring idx).emtOf x = d.emtOf x := rfl
@[simp] theorem begun_quotaOf (d : Dev) (ring idx : Nat) (n : Nat) : (d.begun ring idx).quotaOf n = d.quotaOf n := rfl

/-- Beginning a descriptor marks it, and leaves every ring's fields but its list of started descriptors. -/
theorem begun_ring (d : Dev) (ring idx n : Nat) : ∃ l, (d.begun ring idx).ring n = { d.ring n with started := l } := by
  unfold Dev.begun
  rw [Dev.ring_setRing]
  split
  · rename_i h; subst h; exact ⟨_, rfl⟩
  · exact ⟨_, rfl⟩

/-- Beginning a descriptor marks one of the started, and changes nothing else of it. -/
theorem begun_startedAt (d : Dev) (ring idx r i : Nat) :
    (d.begun ring idx).startedAt r i = (d.startedAt r i).map fun x => if r = ring ∧ x.idx = idx then { x with claimed := true } else x := by
  unfold Dev.startedAt Dev.begun
  rw [Dev.ring_setRing]
  by_cases h : r = ring
  · subst h
    simp only [if_true, true_and]
    rw [List.find?_map]
    have : ((fun x : Started => x.idx == i) ∘ fun x : Started => if x.idx = idx then { x with claimed := true } else x) = fun x : Started => x.idx == i := by
      funext x; simp only [Function.comp]; split <;> rfl
    rw [this]
  · simp [h]
@[simp] theorem begun_doneOf (d : Dev) (ring idx r i : Nat) : (d.begun ring idx).doneOf r i = d.doneOf r i := by
  unfold Dev.doneOf
  rw [begun_startedAt]
  cases d.startedAt r i with
  | none => rfl
  | some x => simp only [Option.map_some]; split <;> rfl

/-- A pool operation's descriptor is performed, and its gate lets it through. -/
theorem poolDesc_ready (d : Dev) (ring idx op : Nat) (b : List Byte) (h : poolReady d ring idx op b) :
    d.poolDesc ring idx op = (d.begun ring idx).poolRun (.desc ring idx) b op ∧
    ∀ f : Dev → Dev, (d.begun ring idx).poolGated (.desc ring idx) b op f = f (d.begun ring idx) := by
  constructor
  · rw [Dev.poolDesc, withDesc_ready _ _ _ _ _ _ h.1]
  · intro f
    have : (d.begun ring idx).poolGate ((d.begun ring idx).callerNode (.desc ring idx)) op = none := h.2
    simp [Dev.poolGated, this]

/-- The ports' node IDs. -/
theorem nodePort_portNode (p : Nat) (h : p < 2) : nodePort (portNode p) = some p := by
  have : p = 0 ∨ p = 1 := by omega
  rcases this with rfl | rfl <;> rfl

/-- In Run no wake source is latched. -/
theorem wakeLatch_run (d : Dev) (k : Nat) (h : d.pm.state = 1) : d.wakeLatch k = d := by simp [Dev.wakeLatch, h]

/-- A cyclic search over all numbers finds one that may be taken. -/
theorem cyclicFrom_finds (ok : Nat → Bool) (n st : Nat) :
    ∀ k, k ≤ n → (∃ i, i < n ∧ ok i = true ∧ ∃ j, j < k ∧ i = (st + (n - (k - j))) % n) →
      ∃ x, cyclicFrom ok n st k = some x ∧ x < n ∧ ok x = true := by
  intro k
  induction k with
  | zero => rintro _ ⟨i, hi, ho, j, hj, _⟩; omega
  | succ k ih =>
    rintro hk ⟨i, hi, ho, j, hj, e⟩
    simp only [cyclicFrom]
    split
    · rename_i h; exact ⟨_, rfl, Nat.mod_lt _ (by omega), h⟩
    · rename_i h
      apply ih (by omega)
      refine ⟨i, hi, ho, ?_⟩
      cases j with
      | zero => simp at e; rw [← e] at h; exact absurd ho h
      | succ j => exact ⟨j, by omega, by rw [e]; congr 3; omega⟩

/-- Where something may be chosen, a free choice chooses something that may be, and advances the counter of free values. -/
theorem choose_finds (d : Dev) (n : Nat) (ok : Nat → Bool) (h : ∃ i, i < n ∧ ok i = true) :
    ∃ x, x < n ∧ ok x = true ∧ d.choose n ok = (some x, { d with free := d.free + 1 }) := by
  obtain ⟨i, hi, ho⟩ := h
  have hs := Nat.mod_lt (Config.freeChoice d.free) (show max n 1 > 0 by omega)
  have : max n 1 = n := by omega
  rw [this] at hs
  obtain ⟨x, h1, h2, h3⟩ := cyclicFrom_finds ok n (Config.freeChoice d.free % n) n (Nat.le_refl n)
    ⟨i, hi, ho, (i + n - Config.freeChoice d.free % n) % n, Nat.mod_lt _ (by omega), by
      generalize Config.freeChoice d.free % n = c at *
      by_cases hc : c ≤ i
      · have : (i + n - c) % n = i - c := by
          rw [show i + n - c = i - c + n by omega, Nat.add_mod_right, Nat.mod_eq_of_lt (by omega)]
        rw [this, show c + (n - (n - (i - c))) = i by omega, Nat.mod_eq_of_lt hi]
      · have : (i + n - c) % n = i + n - c := Nat.mod_eq_of_lt (by omega)
        rw [this, show c + (n - (n - (i + n - c))) = i + n by omega, Nat.add_mod_right, Nat.mod_eq_of_lt hi]⟩
  exact ⟨x, h2, h3, by simp [Dev.choose, this, h1]⟩

end Sys2Proof.Machine
end

