-- ==== Sys2Proof/Laws/Requests.lean ====
section
/-! SUPPORT. How a fabric request reaches its operation, said once: one the device takes is not answered before it is performed,
and one that nothing keeps waiting is performed at once. -/

namespace Sys2Proof.Machine

/-- A request with a tag of its own comes from the fabric. -/
theorem originOf_fabric (m : Msg) (h : m.tag < 4096) : originOf m = 0 := by simp [originOf, h]

/-- A request the device takes is performed on the device that no longer holds it. -/
theorem arrive_takes (d : Dev) (m : Msg) (body) (h : takes d m) : d.arrive m body = body (d.taken m) := by
  obtain ⟨h1, h2, h3, h4, h5, h6, h7, h8, h9⟩ := h
  have g : ((d.taken m).wakeLatch 2) = d.taken m := wakeLatch_run _ _ h4
  have e1 : (d.taken m).gate m = none := h5
  have e2 : (d.taken m).sessionCheck m = none := h6
  have e3 : (d.taken m).mcCheck m = none := h7
  unfold Dev.arrive
  simp only [h1, h3, g, e1, e2, e3]
  simp only [ne_eq, not_true_eq_false, decide_false, Bool.not_true, Bool.or_self, Bool.false_eq_true, if_false]
  have dd : ∀ body, (d.taken m).deduped m body = body (d.taken m) := by
    intro body
    unfold Dev.deduped
    by_cases hc : dedupCovers m = true
    · obtain ⟨a, b⟩ := h9 hc
      have a' : tget (d.taken m).fab.dedup (dedupKey (dedupHome m) m.src m.tag) = none := a
      have b' : ((d.taken m).dedupOf (dedupHome m)).length < 8192 := b
      simp [hc, originOf_fabric m h2, a']
      intro hh
      have := List.length_filter_le (fun e : Nat × DedupRec => e.1 != (dedupKey (dedupHome m) m.src m.tag)) ((d.taken m).dedupOf (dedupHome m))
      omega
    · simp [hc]
  unfold Dev.ordered
  by_cases ho : orderedMsg m = true
  · obtain ⟨a, b⟩ := h8 ho
    have a' : tget (d.taken m).fab.ordered (ordKey m) = none := a
    have b' : ((d.taken m).pool.parked.any fun p => orderedMsg p.2 && ordKey p.2 == ordKey m) = false := b
    simp only [ho, tgetD, a', Option.getD_none, b']
    simpa using dd body
  · simp [ho, dd]

/-- Sets without a reserved STATE are left as they are. -/
theorem readSets_good (d : Dev) (lines : List Nat) (h : ∀ l ∈ lines, d.setBad l = false) : d.readSets lines = d := by
  have : lines.filter d.setBad = [] := by
    rw [List.filter_eq_nil_iff]; intro l hl; simp [h l hl]
  simp [Dev.readSets, this, forEach]

/-- A request nothing keeps goes to its directory part as it is. -/
theorem accept_goesOn (d : Dev) (m : Msg) (h : goesOn d m) : d.accept m false = d.serve m := by
  obtain ⟨h1, h2, h3, _, hs, h5⟩ := h
  have hr : (reqLines m).any d.recalled = false := by
    rw [List.any_eq_false]; intro l hl
    have := (h5 l hl).1
    simp only [Dev.heldUp, Bool.or_eq_false_iff] at this
    simp [this.1.1.1]
  have hh : (reqLines m).any (d.heldUp false) = false := by
    rw [List.any_eq_false]; intro l hl; simp [(h5 l hl).1]
  have hb : ¬ (originOf m = 0 && reqWrites m.opcode && d.backlogged) = true := by
    cases hw : reqWrites m.opcode <;> simp
    intro _; exact h2 hw
  unfold Dev.accept
  simp only [h1, readSets_good d _ hs, hr, h3, Bool.false_and, Bool.and_false, Bool.not_false, Bool.false_eq_true, if_false]
  unfold Dev.takeUp
  dsimp only
  rw [if_neg hb]
  split
  · rename_i t e
    obtain ⟨l, hl, e⟩ := List.exists_of_findSome?_eq_some e
    split at e
    · rename_i k hk
      rw [if_pos ((h5 l hl).2 k hk)] at e; cases e
    · cases e
  · simp only [hh, Bool.false_eq_true, if_false]

/-- A record of the dedup window leaves the directory alone. -/
theorem dedupOpen_coh (d : Dev) (m : Msg) : (d.dedupOpen m).coh = d.coh := by unfold Dev.dedupOpen; split <;> rfl

/-- The reservation of another request does not end. -/
theorem endReservation_free (d : Dev) (m : Msg) (h : d.isHeld m = false) : d.endReservation m = d := by
  have : ¬ (d.starveOf (homeOf (m.addr / 64))).heldReq = some m := by simpa [Dev.isHeld] using h
  simp only [Dev.endReservation]; rw [if_neg this]

/-- A request nothing keeps and no agent holds a line of is performed at once. -/
theorem accept_unkept (d : Dev) (m : Msg) (h : unkept d m)
    (ho : m.opcode ≠ 0x10 ∧ m.opcode ≠ 0x11 ∧ m.opcode ≠ 0x12 ∧ m.opcode ≠ 0x15) :
    d.accept m false = (d.dedupOpen m).perform m [] := by
  rw [accept_goesOn d m h.1]
  obtain ⟨⟨_, _, _, h4, _, _⟩, h6⟩ := h
  have hn : ∀ (d' : Dev), d'.coh = d.coh → ∀ l ∈ reqLines m, d'.needAt m l = .nothing := by
    intro d' e l hl
    have := h6 l hl
    simp [Dev.dirOf] at this
    simp [Dev.needAt, Dev.dirOf, e, this, ho]
  have hc := dedupOpen_coh d m
  have hd : (d.dedupOpen m).endReservation m = d.dedupOpen m := by
    apply endReservation_free
    simpa [Dev.isHeld, Dev.starveOf, hc] using h4
  unfold Dev.serve
  have hf : (reqLines m).find? (fun l => d.needAt m l == .way) = none := by
    rw [List.find?_eq_none]; intro l hl; rw [hn d rfl l hl]; decide
  have htr : (reqLines m).filter (fun l => (d.dirOf l).isSome ||
      (m.opcode == 0x10 || m.opcode == 0x11 || m.opcode == 0x12 || m.opcode == 0x15)) = [] := by
    rw [List.filter_eq_nil_iff]; intro l hl; simp [h6 l hl, ho]
  simp only [hf, htr, Dev.cacheAll, hd]
  split
  · rename_i e
    exfalso
    simp only [Bool.not_eq_true', List.isEmpty_eq_false_iff, ne_eq, List.filter_eq_nil_iff, Classical.not_forall, Decidable.not_not] at e
    obtain ⟨l, hl, e⟩ := e
    rw [hn _ hc l hl] at e
    simp at e
  have hfw : ∀ ls, (∀ l ∈ ls, l ∈ reqLines m) → forEach ls (fun l d => d.freeWritten m l) (d.dedupOpen m) = d.dedupOpen m := by
    intro ls; induction ls with
    | nil => intro _; rfl
    | cons l r ih =>
      intro h
      simp only [forEach]
      have : (d.dedupOpen m).freeWritten m l = d.dedupOpen m := by
        have hl := h6 l (h l (by simp))
        have : (d.dedupOpen m).dirOf l = none := by simp only [Dev.dirOf, hc]; exact hl
        simp [Dev.freeWritten, this]
      rw [this]; exact ih (fun l hl => h l (by simp [hl]))
  rw [hfw _ (fun _ h => h)]
  have hx : ∀ dm e, (d.dedupOpen m).needAt m (m.addr / 64) ≠ .broadcast dm e ∧ (d.dedupOpen m).needAt m (m.addr / 64) ≠ .shift dm e := by
    intro dm e
    simp only [Dev.needAt, ho, if_false]
    constructor
    all_goals
      cases (d.dedupOpen m).dirOf (m.addr / 64) with
      | none => simp
      | some e => 
        simp
        (repeat' split) <;> simp
  split
  · rename_i h; exact absurd h (hx _ _).1
  · rename_i h; exact absurd h (hx _ _).2
  · rfl

/-- A coherent request opens no dedup record. -/
theorem dedupOpen_coherent (m : Msg) (h : 16 ≤ m.opcode ∧ m.opcode ≤ 21) (d : Dev) : d.dedupOpen m = d := by
  have : dedupCovers m = false := by
    simp [dedupCovers, isAtomic]; omega
  simp [Dev.dedupOpen, this]

/-- A coherent request that nothing keeps, and that asks no agent, is performed with its line touched in the cache. -/
theorem accept_oneLine (d : Dev) (m : Msg) (line : Nat) (d1 : Dev) (hl : reqLines m = [line]) (hline : line = m.addr / 64)
    (hg : goesOn d m) (ho : m.opcode = 0x10 ∨ m.opcode = 0x11 ∨ m.opcode = 0x12) (hc : d.cacheTouch line = some d1)
    (hn : d.needAt m line = .nothing) (hn1 : d1.needAt m line = .nothing) (hh : ∀ h, d1.starveOf h = d.starveOf h) :
    d.accept m false = d1.perform m [] := by
  rw [accept_goesOn d m hg]
  obtain ⟨_, _, _, h4, _, _⟩ := hg
  have hop : 16 ≤ m.opcode ∧ m.opcode ≤ 21 := by omega
  unfold Dev.serve
  simp only [hl]
  split
  · rename_i l e
    have h1 := List.mem_of_find?_eq_some e
    have h2 := List.find?_some e
    simp only [List.mem_singleton] at h1
    rw [h1, hn] at h2
    exact absurd h2 (by decide)
  have hf : [line].filter (fun l => (d.dirOf l).isSome ||
      (m.opcode == 0x10 || m.opcode == 0x11 || m.opcode == 0x12 || m.opcode == 0x15)) = [line] := by
    rcases ho with h | h | h <;> simp [h]
  have hca : d.cacheAll [line] = some d1 := by simp [Dev.cacheAll, hc]
  rw [hf, hca]
  have hd : d1.endReservation m = d1 := by
    apply endReservation_free
    simpa [Dev.isHeld, hh] using h4
  simp only [dedupOpen_coherent m hop, hd]
  have hw : d1.freeWritten m line = d1 := by
    unfold Dev.freeWritten
    rw [if_neg]
    simp [reqWrites]
    omega
  split
  · rename_i e
    simp [hn1] at e
  · rw [← hline]
    split
    · rename_i e; rw [hn1] at e; cases e
    · rename_i e; rw [hn1] at e; cases e
    · simp only [forEach, hw]

/-- A coherent request names one line. -/
theorem reqLines_coherent (m : Msg) (h : 16 ≤ m.opcode ∧ m.opcode ≤ 21) : reqLines m = [m.addr / 64] := by
  have : reqSpan m = (m.addr / 64 * 64, 64) := by simp [reqSpan, h]
  simp only [reqLines, this]
  have e1 : (m.addr / 64 * 64 + 63) / 64 + 1 - m.addr / 64 = 1 := by omega
  have e2 : m.addr / 64 * 64 / 64 = m.addr / 64 := by omega
  simp [e1, e2]

/-- Touching a line changes the cache alone. -/
theorem cacheTouch_changes (d d1 : Dev) (l) (h : d.cacheTouch l = some d1) : ∃ c n, d1 = { d with coh := { d.coh with cache := c, cacheNru := n } } := by
  unfold Dev.cacheTouch at h
  simp only [] at h
  split at h
  · cases h; exact ⟨_, _, rfl⟩
  · simp only [Option.map_eq_some_iff] at h
    obtain ⟨k, _, rfl⟩ := h
    exact ⟨_, _, rfl⟩

end Sys2Proof.Machine
end

