-- ==== Sys2Proof/Laws/Stitches.lean ====
section
/-! SUPPORT. What a stitch instruction comes to, said once: an instruction that a running stitch stands at is carried out; one
that completes leaves the stitch at the address that follows, or that it jumps to; and the code a stitch runs is its own after
every write to its registers. -/

namespace Sys2Proof.Machine

/-- A stitch that stands at the instruction runs it. -/
theorem stitchRun_at (d : Dev) (k cls minor : Nat) (f : StitchFields) (id : Nat) (j : Job) (body : Stitch → Ran)
    (h : AtInstr d k cls minor f id j) : d.stitchRun k cls minor f body = d.ranTo id j k (d.stitch k) (body (d.stitch k)) := by
  unfold Dev.stitchRun
  simp [h.1, h.2.1, h.2.2]

/-- Where the address that follows holds an instruction, entering it is being there. -/
theorem enterPc_enters (d : Dev) (id : Nat) (j : Job) (k : Nat) (st : Stitch) (pc : Nat) (l : List LoopRec) (h : st.canEnter pc) :
    d.enterPc id j k st pc l = d.setStitch k fun _ => { st with pc := pc, loops := l, transfers := 0, busWait := false, run := .running } := by
  unfold Dev.enterPc
  have h1 : ¬ 1023 < pc := by have := h.1; omega
  have h2 : definedOp (wordClass (({ st with loops := l, transfers := 0, busWait := false, run := .running } : Stitch).word pc))
      (wordMinor (({ st with loops := l, transfers := 0, busWait := false, run := .running } : Stitch).word pc)) = true := h.2
  rw [if_neg h1]
  simp only [h2, if_true]

/-- Entering an address depends on the code alone. -/
theorem canEnter_code (a b : Stitch) (pc : Nat) (hc : a.code = b.code) (h : b.canEnter pc) : a.canEnter pc := by
  have : a.word pc = b.word pc := by simp [Stitch.word, hc]
  exact ⟨h.1, by rw [this]; exact h.2⟩

/-- An instruction that completes as `st` with the next one following. -/
theorem ranTo_next (d : Dev) (id : Nat) (j : Job) (k : Nat) (st : Stitch) (hc : st.code = (d.stitch k).code)
    (h : (d.stitch k).canEnter (d.stitch k).after.1) :
    d.ranTo id j k (d.stitch k) (.next st) = d.wentTo id j k st (d.stitch k).after := by
  simp only [Dev.ranTo, Dev.wentTo]
  rw [enterPc_enters _ _ _ _ _ _ _ (canEnter_code _ _ _ hc h)]

/-- One that jumps to `t`. -/
theorem ranTo_jump (d : Dev) (id : Nat) (j : Job) (k t : Nat) (st : Stitch) (hc : st.code = (d.stitch k).code)
    (h : (d.stitch k).canEnter t) :
    d.ranTo id j k (d.stitch k) (.jump st t) = d.wentTo id j k st (t, loopsAt t (d.stitch k).loops) := by
  simp only [Dev.ranTo, Dev.wentTo]
  rw [enterPc_enters _ _ _ _ _ _ _ (canEnter_code _ _ _ hc h)]

/-- One that faults. -/
theorem ranTo_fault (d : Dev) (id : Nat) (j : Job) (k code : Nat) (st : Stitch) :
    d.ranTo id j k st (.fault code) = d.stitchFault id j k code st.pc := rfl

@[simp] theorem setS_code (st : Stitch) (r : BitVec 5) (v : BitVec 32) : (st.setS r v).code = st.code := by
  unfold Stitch.setS; split <;> rfl
@[simp] theorem setV_code (st : Stitch) (r : BitVec 5) (l : List (BitVec 32)) : (st.setV r l).code = st.code := by
  unfold Stitch.setV; rfl
@[simp] theorem store_code (st : Stitch) (a : Nat) (b : List Byte) : (st.store a b).code = st.code := by
  unfold Stitch.store; rfl

end Sys2Proof.Machine
end

