-- ==== Sys2Proof/Tests/Slice0.lean ====
section
/-! SUPPORT. The model's own tests: ill-formed commands that the checks refuse, and, for every statement with hypotheses, a
state and operands that meet them (where a statement has several clauses, for each clause, at a boundary of its range). The theorem `witness_X`, with what is added to the name, is for the part `Says.X` of the statements, or
for `Obligations.X`. -/

namespace Sys2Proof.Tests

-- one theorem after another: a kernel evaluation waits for those before it, and each that waits holds a thread
set_option Elab.async false
open Sys2Proof Sys2Proof.Machine

/-! ## Ill-formed commands: one for each check (Table 24 and the ranges of the chapters) -/

/-- A message whose fields all hold their greatest values. -/
def topMsg : Msg := { cls := 3, opcode := 255, src := 4095, dst := 4095, tag := 4095, addr := 2 ^ 48 - 1, len := 255, xfer := 1023, tc := 7 }
def cell0 : Cell := { bytes := zeros 48, fecOk := true }
def param0 : ParamCell := { node := 1, role := 0, cls := 0, width := 0, rate := 0, stamp := 0, echo := 0 }
def space0 : NsInfo := { nsid := 1, lbaSize := 4096, bytes := 2 ^ 26 }
def drive0 : DriveInfo := { rid := 0, serial := 0, spaces := [space0], usable := true, link := 0x46, queues := 1 }
def boot0 : BootInfo := { stacksOk := [0], d2dFailed := [], slotAOk := true, slotBOk := true, castonRows := [], castonSets := [], cacheSets := [], drives := [] }
def fields0 : StitchFields := { dst := 0, src1 := 0, src2 := 0, imm := 0 }

theorem test_messages_and_cells_are_checked :
    (topMsg.wf && cell0.wf && param0.wf && drive0.wf && boot0.wf) = true ∧
    ([{ topMsg with cls := 4 }, { topMsg with opcode := 256 }, { topMsg with src := 4096 }, { topMsg with dst := 4096 },
      { topMsg with tag := 4096 }, { topMsg with addr := 2 ^ 48 }, { topMsg with len := 256 }, { topMsg with xfer := 1024 },
      { topMsg with tc := 8 }, { topMsg with data := zeros 265 }].any Msg.wf) = false ∧
    ([{ cell0 with bytes := zeros 47 }, { cell0 with bytes := 1 :: zeros 47 }].any Cell.wf) = false ∧
    ([{ param0 with role := 256 }, { param0 with cls := 256 }, { param0 with node := 4096 }, { param0 with width := 256 }, { param0 with rate := 256 },
      { param0 with stamp := 65536 }, { param0 with echo := 65536 }].any ParamCell.wf) = false ∧
    ([{ drive0 with rid := 65536 }, { drive0 with spaces := [{ space0 with nsid := 2 ^ 32 }] }, { drive0 with spaces := [{ space0 with lbaSize := 65537 }] },
      { drive0 with spaces := [{ space0 with metaSize := 65536 }] }, { drive0 with link := 256 }].any DriveInfo.wf) = false ∧
    ([{ boot0 with stacksOk := [6] }, { boot0 with d2dFailed := [16] }, { boot0 with castonRows := [0, 0, 0, 0, 0, 0, 0] },
      { boot0 with castonSets := [2 ^ 21] }, { boot0 with cacheSets := [32768] }, { boot0 with drives := [(4, drive0)] }].any BootInfo.wf) = false ∧
    ([{ addr := 2 ^ 64, size := 4096, read := true, write := true }, { addr := 0, size := 2 ^ 30 + 1, read := true, write := true }].any
      Translation.wf) = false ∧
    ([PcieTarget.ringFetch 1024, .recordWrite 1024, .output 1024 0, .output 0 (2 ^ 32), .mover 32].any PcieTarget.wf) = false := by
  decide +kernel

theorem test_ill_formed_commands_are_refused :
    ([.registerWrite 0xF00 0 4 0, .registerWrite 0 (2 ^ 25) 4 0, .registerWrite 0 0 9 0, .registerWrite 0 0 0 0, .registerWrite 0 0 4 (2 ^ 32),
      .rcRegisterRead 0 0 9, .d2dModuleFail 16, .regionCreate 1024 0, .regionCreate 0 (2 ^ 32), .revokeDrainDone 65536 0,
      .revokeDrainDone 0 (2 ^ 32), .draftCopyDone (2 ^ 23), .pinLeaseExpiry 4096, .filterUpdateAnswer 64 0 none, .filterUpdateAnswer 0 64 none,
      .filterUpdateAnswer 0 0 (some 256), .poolCacheFramesWrite 0 (2 ^ 32), .frameFreed 15360, .poolWindowAccess 2 0 1 none,
      .poolWindowAccess 0 (2 ^ 44) 1 none, .poolWindowAccess 0 0 0 none, .poolWindowAccess 0 0 4097 none, .read { topMsg with tag := 4096 },
      .doorbell 0 0x400000 4 0, .doorbell 0 0 3 0, .doorbell 0 0 4 (2 ^ 64), .descriptorFetch 0 (some (zeros 63)), .msixUnmask 0 256, .cellReceive 24 cell0,
      .cellReceive 0 { cell0 with bytes := 1 :: zeros 47 }, .xferHoldTimeout 4096 0, .xferHoldTimeout 0 4096, .dedupHoldExpiry 48 0 0,
      .orderedAdmission 0 8, .deviceRequestTimeout (2 ^ 24 + 4096), .ctrlNop 8192 fields0, .busSlotTransfer 128,
      .streamLineReturn 96 0, .streamLineReturn 0 (2 ^ 42), .jobStall 65536, .panelDrainDone 16] : List Instr).any Instr.wf = false := by
  decide +kernel

theorem test_more_ill_formed_commands_are_refused :
    ([.gruRowReadAnswer 0 4096, .moverStepData 32 .failed, .atsTranslationCompletion 0 (some { addr := 2 ^ 64, size := 0, read := true, write := true }),
      .priGroupResponse 0 65536 0, .priGroupResponse 0 0 256, .faultTimeout 256, .atsInvalidateRequest 0 (some (2 ^ 20)) 0 0,
      .atsInvalidateRequest 0 none (2 ^ 64) 0, .atsInvalidateRequest 0 none 0 (2 ^ 64), .presenceChange 4 none [],
      .presenceChange 0 (some (16, 4)) [], .presenceChange 0 (some (4, 16)) [], .presenceChange 0 none [{ drive0 with rid := 65536 }], .nvmeAsyncEvent 32 false, .signalDetect 0 16, .idle 0 4096 0, .idle 0 0 4,
      .replay 0 0 0 4096, .param 0 0 0 { param0 with role := 256 }, .key 0 0 0 (2 ^ 256) 0 true, .key 0 0 0 0 (2 ^ 32) true,
      .auth 0 0 0 4096 0 0 (zeros 16), .auth 0 0 0 0 256 0 (zeros 16), .auth 0 0 0 0 0 (2 ^ 64) (zeros 16), .auth 0 0 0 0 0 0 (zeros 15), .reservedControlCell 0 0 0 256,
      .headHoldTimeout 25 0, .fence 0 4096, .promote 0 (2 ^ 32), .resyncCopyDone (2 ^ 32), .dramCommandIssue 6 0, .dramCommandIssue 0 4096,
      .stackReadComplete 0 (2 ^ 32) [], .stackReadComplete 0 0 [0], .scrubRead 0 [0], .bistEnd 0 [32768], .rankPowerDown 0 256, .wake 256] : List Instr).any Instr.wf = false ∧
    ([.wakeDone true [32] [], .wakeDone true [] [6], .damperCycle 65536, .regulatorPoll 16 false 0 0, .regulatorPoll 0 false 256 0, .clockRampStep 53,
      .gaugeRead 1144 0, .gaugeRead 0 (2 ^ 32), .irqTake 8, .irqCoreEoi 0 256, .irqSwi 256, .boardInputEdge 6, .ptmDialogue 0 (2 ^ 64),
      .startUp { boot0 with stacksOk := [6] }, .startupStop 16, .partialReset 0 13, .bistStart 0 32, .pcieCompletionTimeout 0 (.mover 32),
      .priEnableWrite 0 true (2 ^ 32), .outputWriteReissue 5120 0, .alwaysOnPowerGood 8] : List Instr).any Instr.wf = false := by
  decide +kernel

theorem test_commands_at_their_bounds_are_well_formed :
    ([.registerWrite 0xFF1 (2 ^ 25 - 1) 8 (2 ^ 64 - 1), .poolWindowAccess 1 (2 ^ 44 - 1) 4096 none, .read topMsg, .ctrlNop 8191 fields0,
      .dedupHoldExpiry 47 4095 4095, .frameFreed 15359, .gaugeRead 1143 (2 ^ 32 - 1), .key 23 4095 3 (2 ^ 256 - 1) (2 ^ 32 - 1) true,
      .outputWriteReissue 5119 (2 ^ 32 - 1), .partialReset 0xEFF 12] : List Instr).all Instr.wf = true := by
  decide +kernel

/-! ## States the witnesses start from -/

/-- Every feature accepted. -/
def allFeatures : Nat := 2 ^ 256 - 1
/-- READY, in Run, on its own: port 0 holds the lease and has every feature; ring 0 is an active submission ring of port 0, ring
1 its completion ring, ring 2 an event ring. -/
def dev0 : Dev :=
  { now := 10 ^ 9, boot := { ready := true, phase := 8, perst0 := false, perst1 := false, nodeId := 0x100, stacksUp := [0, 1, 2, 3, 4, 5] },
    pm := { state := 1, aonGood := true, rootLocked := true, tbFromRef := false },
    host := { lease := { holder := 1, expiry := 10 ^ 10 }, port0 := { accepted := allFeatures }, port1 := { accepted := allFeatures },
              rings := [(0, { state := 1, enable := true, defCpl := 1 }), (1, { kind := 1, state := 1, enable := true }),
                        (2, { kind := 2, state := 1, enable := true })] } }
def stateOf (d : Dev) : State := { dev := d }
/-- A descriptor's bytes: fields (offset, size, value) laid over 64 zeros. -/
def bytesOf (n : Nat) (l : List (Nat × Nat × Nat)) : List Byte := l.foldl (fun b x => overlay b x.1 (natBytes x.2.1 x.2.2)) (zeros n)
def descOf (l : List (Nat × Nat × Nat)) : List Byte := bytesOf 64 l
/-- The descriptor at index 0 of ring 0 has started with these bytes. -/
def begin0 (d : Dev) (op : Nat) (b : List Byte) : Dev :=
  d.setRing 0 fun r => { r with started := [{ idx := 0, bytes := b, op := op, recRing := 1 }], cons := 1, prod := 1 }
/-- A fabric request of client 7 to this device, with no session needed where the opcode needs none. -/
def req (op : Nat) : Msg := { cls := 0, opcode := op, src := 7, dst := 0x100, tag := 5 }

def job1 : Job :=
  { owner := 0xFF0, ring := 0, idx := 0, ctx := 0, panels := 1, flags := 0, stockId := 0, argLen := 0, imageAddr := 0, imageLen := 256,
    seed := 0, argAddr := 0, limitMs := 5, stage := 2, mask := [0] }
/-- `dev0` with job 1 running on panel 0. -/
def dev1 : Dev :=
  { dev0 with
    jobs := { contexts := [(0, { owner := 0xFF0 })], jobs := [(1, job1)] }
    knit := { panels := [(0, { state := psRunning, owner := 0xFF0, job := some 1 })] } }
/-- Stitch 0 of that job as `st`, standing at this instruction. -/
def stitchAt (cls minor : Nat) (f : StitchFields) (st : Stitch) : Dev :=
  dev1.setStitch 0 fun _ => { st with run := .running, code := [(st.pc, stitchWord cls minor f)] }
def f12 : StitchFields := { dst := 3, src1 := 1, src2 := 2, imm := 0 }

/-! ## Stitches (chapters 6 and 7) -/

/-- At address 1022, the last from which an instruction goes on to the next. -/
theorem witness_SaluOnRegisters : ∀ r ∈ saluRows,
    AtInstr (stitchAt 1 r.2.1 f12 { pc := 1022 }) 0 1 r.2.1 f12 1 job1 ∧
    ((stitchAt 1 r.2.1 f12 { pc := 1022 }).stitch 0).canEnter ((stitchAt 1 r.2.1 f12 { pc := 1022 }).stitch 0).after.1 := by decide +kernel
theorem witness_SaluOnImmediates : ∀ r ∈ saluImmRows,
    AtInstr (stitchAt 1 r.2.1 f12 { pc := 1022 }) 0 1 r.2.1 f12 1 job1 ∧
    ((stitchAt 1 r.2.1 f12 { pc := 1022 }).stitch 0).canEnter ((stitchAt 1 r.2.1 f12 { pc := 1022 }).stitch 0).after.1 := by decide +kernel
theorem witness_ScalarRegisters : (31#5 ≠ 0#5 ∧ 30#5 ≠ 31#5) ∧ (0x0F ≤ 0x0F ∧ 0x0F ≤ 0x1F) ∧ 0x2F ≤ 0x3F ∧ 0x3F ≤ 0x3F := by decide

/-- A branch at 1022 with target 1023. -/
def branchAt (minor : Nat) (a b : BitVec 32) : Dev := stitchAt 0 minor { f12 with imm := 1023 } { pc := 1022, sregs := [(1, a), (2, b)] }
abbrev branchOk (minor : Nat) (a b : BitVec 32) : Prop :=
  AtInstr (branchAt minor a b) 0 0 minor { f12 with imm := 1023 } 1 job1 ∧ ((branchAt minor a b).stitch 0).s 1 = a ∧
  ((branchAt minor a b).stitch 0).s 2 = b ∧ ((branchAt minor a b).stitch 0).canEnter (immTarget { f12 with imm := 1023 }) ∧
  ((branchAt minor a b).stitch 0).canEnter ((branchAt minor a b).stitch 0).after.1
/-- NOP and JMP; then each branch with operands that take it, and with operands that do not. -/
theorem witness_BranchesGoWhereTheySay :
    (∀ x ∈ ([(0, 0, 0), (1, 0, 0), (2, 7, 7), (3, 7, 8), (4, -1, 0), (5, 0, -1), (6, 0, -1), (7, -1, 0)] : List (Nat × BitVec 32 × BitVec 32)),
      branchOk x.1 x.2.1 x.2.2) ∧
    (∀ x ∈ ([(2, 7, 8), (3, 7, 7), (4, 0, 0), (5, -1, 0), (6, 0, 0), (7, 0, -1)] : List (Nat × BitVec 32 × BitVec 32)),
      branchOk x.1 x.2.1 x.2.2) ∧
    (-1#32).toInt < (0#32).toInt ∧ (0#32).toNat < (-1#32).toNat := by decide +kernel

/-- A loop instruction with this end address, count and number of active loops. -/
def loopAt (minor pc stop count depth : Nat) : Dev :=
  stitchAt 0 minor { f12 with imm := BitVec.ofNat 37 (stop + 1024 * count) }
    { pc := pc, sregs := [(1, BitVec.ofNat 32 count)], loops := List.replicate depth { start := 0, stop := 1022, left := 1 } }
abbrev loopOk (minor pc stop count depth : Nat) : Prop :=
  AtInstr (loopAt minor pc stop count depth) 0 0 minor { f12 with imm := BitVec.ofNat 37 (stop + 1024 * count) } 1 job1 ∧
  immTarget { f12 with imm := BitVec.ofNat 37 (stop + 1024 * count) } = stop ∧
  ((loopAt minor pc stop count depth).stitch 0).s 1 = BitVec.ofNat 32 count ∧
  (({ f12 with imm := BitVec.ofNat 37 (stop + 1024 * count) } : StitchFields).imm.extractLsb' 10 16).toNat = count ∧
  ((loopAt minor pc stop count depth).stitch 0).loops.length = depth ∧
  ((loopAt minor pc stop count depth).stitch 0).canEnter (afterPc stop ((loopAt minor pc stop count depth).stitch 0).loops).1 ∧
  ((loopAt minor pc stop count depth).stitch 0).canEnter (pc + 1)
theorem witness_LoopsEnterTheirBody : ∀ m ∈ [8, 9],
    (loopOk m 5 5 1 0) ∧ (loopOk m 0 1022 0 0) ∧ (loopOk m 0 1022 65535 4) ∧ loopOk m 0 1022 1 3 := by decide +kernel
theorem witness_LoopsRepeatTheirBody :
    (4 ≠ 5 ∧ 5 = ({ start := 0, stop := 5, left := 1 } : LoopRec).stop ∧ 0 < 1) ∧
    (∀ x ∈ [({ start := 0, stop := 9, left := 0 } : LoopRec)], x.start < 9 ∧ 9 ≤ x.stop) ∧ ¬ (2 < 9 ∧ 9 ≤ 5) := by decide

/-- An access at this effective address. -/
def accessAt (minor ea : Nat) : Dev := stitchAt 2 minor { f12 with imm := 1 } { pc := 1022, sregs := [(1, BitVec.ofNat 32 (ea + 2 ^ 32 - 1))] }
abbrev accessOk (r : (Nat → StitchFields → Instr) × Nat × Nat × Nat × (StitchFields → Nat → Stitch → Stitch)) (ea : Nat) : Prop :=
  AtInstr (accessAt r.2.1 ea) 0 2 r.2.1 { f12 with imm := 1 } 1 job1 ∧
  ((((accessAt r.2.1 ea).stitch 0).s 1).toNat + (({ f12 with imm := 1 } : StitchFields).imm.extractLsb' 0 15).toNat) % 2 ^ 32 = ea ∧
  ((accessAt r.2.1 ea).stitch 0).canEnter ((accessAt r.2.1 ea).stitch 0).after.1
theorem witness_LoadsAndStores :
    (∀ r ∈ lslRows, accessOk r (32768 - max r.2.2.1 r.2.2.2.1) ∧ (32768 - max r.2.2.1 r.2.2.2.1) % r.2.2.1 = 0 ∧ accessOk r 32768 ∧
      (r.2.2.1 ≠ 1 → accessOk r 1 ∧ 1 % r.2.2.1 ≠ 0)) ∧
    (∀ m, lslFits m { f12 with imm := 1 }) := by
  exact ⟨by decide +kernel, fun m => ⟨fun _ => by decide, fun _ => by decide⟩⟩

theorem witness_DataStoreHoldsWhatIsStored : 0 + 4 ≤ 4 ∨ 4 + ([] : List Byte).length ≤ 0 := by decide

/-- A stitch at a channel instruction, direction 1 (its channel 1), with these entries in two channels. -/
def chanAt (minor : Nat) (imm : Nat) (run : RunState) (out inb : List (List Byte)) : Dev :=
  let d := stitchAt 3 minor { f12 with imm := BitVec.ofNat 37 imm } { pc := 1022 }
  let key := (inboundKey 0 (imm % 4)).getD 9999
  let d := d.setStitch 0 fun st => { st with run := run }
  let o := if minor = 2 then imm / 64 % 4 else imm % 4
  { d with knit := { d.knit with declared := [o, key], channels := if o < key then (if out.isEmpty then [] else [(o, out)]) ++ (if inb.isEmpty then [] else [(key, inb)])
      else (if inb.isEmpty then [] else [(key, inb)]) ++ (if out.isEmpty then [] else [(o, out)]) } }
abbrev chanOk (minor imm : Nat) (run : RunState) (out inb : Nat) : Prop :=
  let f : StitchFields := { f12 with imm := BitVec.ofNat 37 imm }
  let d := chanAt minor imm run (List.replicate out (zeros 32)) (List.replicate inb (zeros 32))
  let o := chanKey 0 (if minor = 2 then immOdir f else immDir f)
  d.stitchJob 0 = some (1, job1) ∧ (d.stitch 0).run = run ∧ (d.stitch 0).word (d.stitch 0).pc = stitchWord 3 minor f ∧
  (d.stitch 0).transfers = 0 ∧ (d.stitch 0).canEnter (d.stitch 0).after.1 ∧ (minor < 3 → immQ f + immN f ≤ 4) ∧
  nmem d.knit.declared o = true ∧ (inboundKey 0 (immDir f)).any (nmem d.knit.declared) = true ∧
  (d.chan o).length = out ∧ (inboundKey 0 (immDir f)).map (fun k => (d.chan k).length) = some inb
/-- SEND, RECV and FWD of four quarters, SENDS and RECVS; the channels just with room and entries enough. -/
theorem witness_ChannelTransfers :
    (∀ x ∈ [(0, 1 + 16 * 3, 0, 0), (1, 1 + 16 * 3, 0, 4), (2, 1 + 16 * 3 + 64 * 2, 0, 4), (3, 1, 3, 0), (4, 1, 0, 1)],
      chanOk x.1 x.2.1 .running x.2.2.1 x.2.2.2) ∧
    inboundKey 0 1 ≠ some (chanKey 0 2) ∧ f12.dst.toNat ≤ 7 ∧ f12.src1.toNat ≤ 7 := by decide +kernel
theorem witness_BlockedChannelsGoOn :
    ∀ x ∈ [(3, RunState.running, 4, 0), (4, .running, 0, 0), (3, .blocked, 3, 0), (4, .blocked, 0, 1)],
      chanOk x.1 1 x.2.1 x.2.2.1 x.2.2.2 := by decide +kernel

/-- The stitches of row 0 with one slot: position 0 writes, position 1 reads. -/
def busDev (d : Dev) : Dev := { d with knit := { d.knit with buses := [(0, { slots := [{ writer := 0, readers := [1] }] })] } }
def busAt (k minor : Nat) (run : RunState) (wait : Bool) : Dev :=
  (busDev dev1).setStitch k fun _ => { run := run, busWait := wait, code := [(0, stitchWord 4 minor f12)] }
theorem witness_BusInstructionsWaitForTheirSlot :
    (∀ r ∈ strRows, ∀ k ∈ [0, 1], AtInstr (busAt k r.2.1 .running false) k 4 r.2.1 f12 1 job1 ∧
      (busAt k r.2.1 .running false).nextPart k = some (0, k == 0) ∧
      ((busAt k r.2.1 .running false).stitch k).shadow.loadRows f12 (zeros 128) ≠ none) ∧
    f12.src1.toNat ≤ 7 ∧ f12.dst.toNat ≤ 7 := by decide +kernel
def busBoth : Dev := (busAt 0 0 .blocked true).setStitch 1 fun _ => { run := .blocked, busWait := true, code := [(0, stitchWord 4 1 f12)] }
theorem witness_BusSlotMovesItsBytes :
    busBoth.jobOfPanel (0 / 8) = some (1, job1) ∧ job1.stage = 2 ∧ (busBoth.bus 0).slots[0]? = some { writer := 0, readers := [1] } ∧
    (busBoth.bus 0).token = 0 ∧
    (∀ k ∈ [0, 1], (busBoth.stitch k).busWait = true ∧ (busBoth.stitch k).run = .blocked ∧
      (busBoth.stitch k).word (busBoth.stitch k).pc = stitchWord 4 k f12 ∧ (busBoth.stitch k).canEnter (busBoth.stitch k).after.1) := by
  decide +kernel
/-- The reader stands at BRD, BWLD or BSKIP. -/
def busKind (m : Nat) : Dev := (busAt 0 0 .blocked true).setStitch 1 fun _ => { run := .blocked, busWait := true, code := [(0, stitchWord 4 m f12)] }
theorem witness_BusSlotMovesItsBytes_kinds :
    (∀ m ∈ [1, 2, 3], ((busKind m).stitch 1).word ((busKind m).stitch 1).pc = stitchWord 4 m f12 ∧ ((busKind m).stitch 1).busWait = true ∧
      ((busKind m).stitch 1).run = .blocked ∧ ((busKind m).stitch 1).canEnter ((busKind m).stitch 1).after.1 ∧
      ((busKind m).stitch 0).word ((busKind m).stitch 0).pc = stitchWord 4 0 f12 ∧ (busKind m).bus 0 = { slots := [{ writer := 0, readers := [1] }], token := 0 }) ∧
    (((busKind 2).stitch 1).shadow.loadRows f12 (lanesBytes (((busKind 2).stitch 0).v f12.src1))).isSome = true := by decide +kernel

/-- Each MAC instruction with these fields, on a stitch whose shadow set is, or is not, complete. -/
def macAt (minor : Nat) (f : StitchFields) (full : Bool) : Dev :=
  stitchAt 5 minor f { shadow := { mask := if full then List.range 32 else [], scaleLoaded := full } }
abbrev macOk (minor : Nat) (f : StitchFields) (full : Bool) : Prop :=
  AtInstr (macAt minor f full) 0 5 minor f 1 job1 ∧ ((macAt minor f full).stitch 0).canEnter ((macAt minor f full).stitch 0).after.1 ∧
  ((macAt minor f full).stitch 0).shadow.complete = full
def fTop (dst src : BitVec 5) (imm : Nat) : StitchFields := { dst := dst, src1 := src, src2 := 0, imm := BitVec.ofNat 37 imm }
theorem witness_WeightSets :
    (∀ x ∈ [(0, 0x66, false), (0, 0x77, false), (1, 31, false), (2, 0, false), (3, 0, true), (3, 0, false)], macOk x.1 (fTop 0 7 x.2.1) x.2.2) ∧
    macPair 6 6 = true ∧ macPair 7 7 = false ∧
    (((macAt 1 (fTop 0 7 31) false).stitch 0).shadow.loadRows (fTop 0 7 31) (lanesBytes (((macAt 1 (fTop 0 7 31) false).stitch 0).v 7))).isSome = true := by
  decide +kernel
theorem witness_Accumulators : ∀ x ∈ [(4, fTop 3 7 31), (5, fTop 3 0 0), (6, fTop 7 3 31), (7, fTop 7 3 31), (8, fTop 3 7 31), (4, fTop 4 7 0), (4, fTop 3 8 0)],
    macOk x.1 x.2 false := by decide +kernel

/-- Each vector instruction with these fields. -/
abbrev vecOk (minor : Nat) (f : StitchFields) : Prop :=
  AtInstr (stitchAt 6 minor f {}) 0 6 minor f 1 job1 ∧ ((stitchAt 6 minor f {}).stitch 0).canEnter ((stitchAt 6 minor f {}).stitch 0).after.1
theorem witness_VectorLanes :
    (∀ r ∈ vec2Rows, vecOk r.2.1 (fTop 7 7 0) ∧ vecOk r.2.1 (fTop 8 7 0)) ∧ (∀ r ∈ vec1Rows, vecOk r.2.1 (fTop 7 7 31) ∧ vecOk r.2.1 (fTop 7 8 31)) ∧
    (∀ r ∈ vec3Rows, vecOk r.2.1 (fTop 7 7 0)) ∧ (7#5).toNat ≤ 7 ∧ 7 < (8#5).toNat := by decide +kernel
theorem witness_LanesAndScalars : ∀ m ∈ [0x17, 0x18, 0x19, 0x1A, 0x1B], vecOk m (fTop 7 7 31) := by decide +kernel
theorem witness_Conversions : ∀ x ∈ [(0x1C, 6 + 16 * 2), (0x1C, 7), (0x1C, 16 * 3), (0x1D, 6), (0x1D, 8), (0x1D, 7), (0x1D, 9), (0x1E, 0), (0x1E, 5), (0x1E, 16 * 3), (0x20, 0)],
    vecOk x.1 (fTop 7 7 x.2) ∧ ((fTop 7 7 x.2).imm.extractLsb' 0 4).toNat = x.2 % 16 ∧ ((fTop 7 7 x.2).imm.extractLsb' 4 2).toNat = x.2 / 16 := by decide +kernel

/-- A SYNC instruction, with entries in channel 3 of its stitch or none. -/
def syncAt (minor : Nat) (full : Bool) : Dev :=
  let d := stitchAt 7 minor f12 {}
  { d with knit := { d.knit with channels := if full then [(3, [zeros 32])] else [] } }
theorem witness_SyncInstructions :
    (∀ m ∈ List.range 7, AtInstr (syncAt m false) 0 7 m f12 1 job1 ∧
      ((syncAt m false).stitch 0).canEnter ((syncAt m false).stitch 0).after.1) ∧
    (∀ dir ∈ List.range 4, (syncAt 4 false).chan (4 * 0 + dir) = []) ∧ AtInstr (syncAt 4 true) 0 7 4 f12 1 job1 ∧
    (3 < 4 ∧ (syncAt 4 true).chan (4 * 0 + 3) ≠ []) := by decide +kernel
theorem witness_StitchWordsReadBack : 63 < 64 := by decide

/-! ## Ports, panels, jobs and contexts (chapters 6 to 8) -/

/-- `dev1` with region 3 of two extents at extent 4, frames 0 and 1, every right for port 0 and for client 7, and a session of
client 7 with every feature. -/
def withPool (d : Dev) : Dev :=
  { d with
    pool := { d.pool with
      regions := [(3, { backed := false, base := 4, count := 2 })]
      emt := [(4, { kind := 1, handle := 3, index := 0, frame := 0 }), (5, { kind := 1, handle := 3, index := 1, frame := 1 })]
      grants := [(7 * 65536 + 3, { rights := 31, gen := 0, born := 0 }), (0xFF0 * 65536 + 3, { rights := 31, gen := 0, born := 0 })]
      frameRefs := [(0, 1), (1, 1)] }
    host := { d.host with sessions := [(0, { node := 7, first := 128, count := 2, accepted := allFeatures })] } }
def addr4 : Nat := 4 * 2 ^ 25
def gotOk (x : Got × Dev) : Bool := match x.1 with | .ok _ => true | _ => false

/-- Port 0 of the array with a transfer of this kind over the first line of region 3, through segment 0 of context 0. -/
def portDev (write : Bool) : Dev :=
  let d := withPool dev1
  { d with
    jobs := { d.jobs with contexts := [(0, { owner := 0xFF0, slots := [(0, { vbase := 0, length := 65536, poolBase := addr4, rights := 7, attr := 0 })] })] }
    knit := { d.knit with ports := [(0, { list := [{ vaddr := 0, lines := 1024, repeats := 0, stride := 0, write := write, course := 0 }] })] } }
theorem witness_StreamPortReads :
    (portDev false).portJob 0 = some (1, job1) ∧ (((portDev false).sport 0).list[0]?).any (fun t => !t.write &&
      ((portDev false).portLine job1 0 t 0).isSome) = true ∧ ((portDev false).sport 0).reads.length < 1024 ∧
    (let d := (portDev false).setSport 0 fun q => { q with reads := [{ addr := addr4, xfer := 0, idx := 0 }] }
     ((d.sport 0).reads[0]?).any (fun l => l.data == none && l.addr == addr4) = true ∧
     (d.translate job1 0).isSome = true ∧ gotOk (d.portRead job1 0 addr4 0) = true) := by decide +kernel
theorem witness_StreamPortWrites :
    let d := (portDev true).setSport 0 fun q => { q with writes := [{ addr := addr4, xfer := 0, idx := 0, data := some (zeros 64) }] }
    d.portJob 0 = some (1, job1) ∧ (d.sport 0).writes = [{ addr := addr4, xfer := 0, idx := 0, data := some (zeros 64) }] ∧
    (d.sport 0).list[0]? ≠ none ∧ d.translate job1 0 = some (addr4, 0) ∧ (d.portWrite job1 0 addr4 0 (zeros 64)).1 = .ok [] := by decide +kernel
theorem witness_StoreErrors :
    dev1.stitchJob 0 = some (1, job1) ∧ (dev1.panel 0).uncorr = 0 ∧
    (let d := dev0.setPanel 0 fun q => { q with state := psIdle, uncorr := 1 }
     d.stitchJob 0 = none ∧ 1 ≤ (d.panel 0).uncorr ∧ (d.panel 0).state = psIdle) := by decide +kernel
theorem witness_DrainedPanels : 15 < 16 ∧ ((dev0.setPanel 15 fun q => { q with state := psDraining }).panel 15).state = psDraining := by decide +kernel

theorem witness_ContextsAreCreated :
    (begin0 dev0 0x22 (descOf [])).ready 0 0 0x22 (descOf []) ∧ admits (begin0 dev0 0x22 (descOf [])) 0 false [4] ∧
    (1023 < 1024 ∧ (begin0 dev0 0x22 (descOf [])).ctx 1023 = none) := by decide +kernel
/-- A management host without MGMT_TENANT while the device is sealed. -/
theorem witness_ContextsAreCreated_outside :
    let d := { begin0 dev0 0x22 (descOf []) with sec := { dev0.sec with state := 3, tenantLo := 1, tenantHi := 2 } }
    d.ready 0 0 0x22 (descOf []) ∧ admits d 0 false [4] ∧ d.outsideTenant (d.ringOwner 0) = true ∧
    (begin0 dev0 0x22 (descOf [])).outsideTenant ((begin0 dev0 0x22 (descOf [])).ringOwner 0) = false := by decide +kernel
/-- A table with an entry under each number from `a` on. -/
theorem tget_range {α : Type} (v : α) : ∀ n a c, a ≤ c → c < a + n → tget ((List.range' a n).map fun i => (i, v)) c = some v := by
  intro n
  induction n with
  | zero => intro a c h1 h2; omega
  | succ n ih =>
    intro a c h1 h2
    simp only [List.range'_succ, List.map_cons, tget]
    by_cases h : c = a
    · simp [h]
    · rw [if_neg h, if_neg (by omega)]; exact ih (a + 1) c (by omega) (by omega)
/-- With every context valid: the other clause of CTX_CREATE. -/
def fullDev : Dev := begin0 { dev0 with jobs := { contexts := (List.range' 0 1024).map fun i => (i, { owner := 7 }) } } 0x22 (descOf [])
theorem witness_ContextsAreCreated_full :
    (fullDev.ready 0 0 0x22 (descOf []) ∧ admits fullDev 0 false [4]) ∧ ∀ c, c < 1024 → fullDev.ctx c ≠ none := by
  refine ⟨by decide +kernel, fun c h => ?_⟩
  have : fullDev.ctx c = some { owner := 7 } := tget_range _ 1024 0 c (by omega) (by omega)
  simp [this]

/-- Context 1023 of this owner, and a job that uses it or not; a descriptor naming it and slot 7. -/
def ctxDev (owner op : Nat) (busy : Bool) (b : List Byte) : Dev :=
  begin0 { withPool dev0 with jobs := { contexts := [(1023, { owner := owner, slots := [(0, { vbase := 65536, length := 65536, poolBase := addr4, rights := 1, attr := 0 })] })],
                                        jobs := if busy then [(1, { job1 with ctx := 1023 })] else [] } } op b
def ctxDesc : List Byte := descOf [(8, 2, 1023), (10, 1, 7)]
theorem witness_ContextsOfTheirOwner :
    (∀ op ∈ [0x23, 0x25, 0x26], (ctxDev 0xFF0 op false ctxDesc).ready 0 0 op ctxDesc ∧ ((ctxDev 0xFF0 op false ctxDesc).ctx (dCtx ctxDesc)).map (·.owner) = some 0xFF0 ∧
      admits (ctxDev 0xFF0 op false ctxDesc) 0 false [4] ∧ (ctxDev 0xFF0 op false ctxDesc).ctxBusy (dCtx ctxDesc) = false ∧
      (ctxDev 0xFF0 op false ctxDesc).ringOwner 0 = 0xFF0 ∧
      (ctxDev 7 op false ctxDesc).ready 0 0 op ctxDesc ∧ ((ctxDev 7 op false ctxDesc).ctx (dCtx ctxDesc)).map (·.owner) = some 7) ∧
    (ctxDev 0xFF0 0x23 true ctxDesc).ctxBusy (dCtx ctxDesc) = true ∧ (ctxDev 0xFF0 0x23 true ctxDesc).ready 0 0 0x23 ctxDesc := by decide +kernel
/-- A segment record at slot 7: virtual base, length, pool base, ATTR. -/
def segDesc (v n p attr : Nat) : List Byte := descOf [(8, 2, 1023), (10, 1, 7), (16, 8, v), (24, 8, n), (32, 8, p), (40, 1, 1), (41, 1, attr)]
abbrev segOkAt (b : List Byte) : Prop :=
  (ctxDev 0xFF0 0x24 false b).ready 0 0 0x24 b ∧ admits (ctxDev 0xFF0 0x24 false b) 0 false [4] ∧
  ((ctxDev 0xFF0 0x24 false b).ctx (dCtx b)).any (fun x => x.owner == 0xFF0 && tget x.slots (dSlot b) != some (segOf b)) = true ∧
  (ctxDev 0xFF0 0x24 false b).ctxBusy (dCtx b) = false ∧ segClamps b = 0
/-- In order, private, misaligned, and overlapping slot 0. -/
theorem witness_SegmentsAreSet :
    (∀ b ∈ [segDesc 0 65536 addr4 0, segDesc 0 65536 addr4 1, segDesc 1 65536 addr4 0, segDesc 0 131072 addr4 0], segOkAt b) ∧
    (∀ b ∈ [segDesc 0 65536 addr4 0, segDesc 0 65536 addr4 1], ((ctxDev 0xFF0 0x24 false b).ctx 1023).any (fun x =>
      (ctxDev 0xFF0 0x24 false b).segRefused 0xFF0 7 x (segOf b) == none) = true) ∧
    (segOf (segDesc 0 65536 addr4 0)).attr = 0 ∧ (segOf (segDesc 0 65536 addr4 1)).attr = 1 ∧
    (((ctxDev 0xFF0 0x24 false (segDesc 0 65536 addr4 1)).sweepAll).privateSwept (segOf (segDesc 0 65536 addr4 1))) = true ∧
    (segOf (segDesc 1 65536 addr4 0)).vbase % 65536 ≠ 0 ∧ 65536 < (segOf (segDesc 0 131072 addr4 0)).vbase + (segOf (segDesc 0 131072 addr4 0)).length := by
  decide +kernel
/-- Past the end of the pool's space; without a grant; swept or not, at the first run and given again. -/
def lineHeld (l : Nat) (d : Dev) : Dev := { d with coh := { d.coh with dir := (l, { state := 3, ptrs := [9] }) :: d.coh.dir } }
theorem witness_SegmentsAreSet_more :
    (∀ b ∈ [segDesc 0 65536 0xFFFFF0000000 0, segDesc 0xFFFFFFFF0000 0x20000 addr4 0, segDesc 0 65536 (addr4 + 2 * 2 ^ 25) 0], segOkAt b ∧
      (ctxDev 0xFF0 0x24 false b).doneOf 0 0 ≠ 1 ∧ ((ctxDev 0xFF0 0x24 false b).ctx 1023).any (fun x =>
        ((ctxDev 0xFF0 0x24 false b).segRefused 0xFF0 7 x (segOf b)).isSome) = true) ∧
    (∀ f ∈ [(id, true), (lineHeld (addr4 / 64), false)], let b := segDesc 0 65536 addr4 1
     let d := (f.1 (ctxDev 0xFF0 0x24 false b)).setCtx 1023 { owner := 0xFF0, slots := [(7, segOf b)] }
     let e := d.setPrivates.setDone 0 0 1 []
     e.ready 0 0 0x24 b ∧ e.doneOf 0 0 = 1 ∧ (e.begun 0 0).sweepAll.privateSwept (segOf b) = f.2) := by
  decide +kernel
/-- PANEL_ADMIN of panel 15, in this state, RETIRE (0) or RETURN (1), by port 0 that holds the lease or does not. -/
def panelAdm (st action holder : Nat) : Dev :=
  (begin0 { dev0 with host := { dev0.host with lease := { dev0.host.lease with holder := holder } } } 0x27 (descOf [(10, 1, 15), (11, 1, action)])).setPanel 15
    fun q => { q with state := st }
theorem witness_PanelAdministration :
    (∀ x ∈ [(psIdle, 0, 1), (psOff, 0, 1), (psRunning, 0, 1), (psDraining, 0, 1), (psLoading, 0, 1), (psRetired, 0, 1), (psRetired, 1, 1), (psIdle, 1, 1), (psIdle, 0, 2)],
      (panelAdm x.1 x.2.1 x.2.2).ready 0 0 0x27 (descOf [(10, 1, 15), (11, 1, x.2.1)]) ∧
      admits (panelAdm x.1 x.2.1 x.2.2) 0 false [4] ∧ field (descOf [(10, 1, 15), (11, 1, x.2.1)]) 11 1 = x.2.1 ∧
      field (descOf [(10, 1, 15), (11, 1, x.2.1)]) 10 1 % 16 = 15 ∧ ((panelAdm x.1 x.2.1 x.2.2).panel 15).state = x.1 ∧
      (panelAdm x.1 x.2.1 x.2.2).hasLease 0xFF0 = decide (x.2.2 = 1)) := by decide +kernel
/-! ## Registers, upstream ports, rings and sessions (chapters 0, 3 and 24) -/

theorem witness_RegisterWritesStore :
    (0 < 2 ∧ 1 < 2) ∧ up dev0 ∧
    (regAt 0x200400).any (fun r => !r.wide && !ownWrite r.base) = true ∧ 0x200400 % 4 = 0 ∧ inRings 0x200400 = false ∧ inMsix 0x200400 = false ∧
    leaseFree 0x200400 = false ∧ dev0.hasLease (portNode 0) = true ∧ dev0.hasLease (portNode 1) = false := by decide +kernel
def reg2 : RegRow := { base := 0, group := 0, flds := [{ lo := 0, n := 8, acc := .rw, clamp := .range 1 255 }, { lo := 8, n := 24, acc := .ro }] }
theorem witness_FieldsTakeTheirClampedPart :
    (reg2.flds.Pairwise fun x y => apart x y = true) ∧ (∀ x ∈ reg2.flds, clampFits x.n x.clamp = true) ∧ (∃ x ∈ reg2.flds, x.acc = .rw) ∧
    (∃ x ∈ reg2.flds, x.acc ≠ .rw) ∧ ∃ r ∈ regMap, r.flds ≠ [] := by
  refine ⟨by decide, by decide, by decide, by decide, ?_⟩
  have h : (regMap.any fun r => !r.flds.isEmpty) = true := by decide +kernel
  obtain ⟨r, hr, he⟩ := List.any_eq_true.mp h
  exact ⟨r, hr, by intro hh; simp [hh] at he⟩
theorem witness_ReadsAnswerAndClear :
    up dev0 ∧ (regAt 0x20000C).any (fun r => !r.wide) = true ∧ 0x20000C % 4 = 0 ∧ inRings 0x20000C = false ∧ inMsix 0x20000C = false := by decide +kernel
/-- One node and one extent; then each way out of range. -/
def filterWord (lo hi a b : Nat) : Nat := lo * 2 ^ 51 + hi * 2 ^ 39 + a * 2 ^ 21 + b * 2 ^ 3 + 1
theorem witness_FilterEntriesAreChecked :
    up dev0 ∧ (∀ off ∈ [0x601000, 0x601BF8], 0x601000 ≤ off ∧ off < 0x601C00 ∧ off % 8 = 0) ∧ dev0.hasLease (portNode 0) = true ∧
    (∀ v ∈ [filterWord 1 1 0 0, filterWord 1 0xFEF 0 0x3FFFF], v < 2 ^ 64 ∧
      (1 ≤ bits v 51 12 ∧ bits v 51 12 ≤ bits v 39 12 ∧ bits v 39 12 ≤ 0xFEF ∧ bits v 21 18 ≤ bits v 3 18)) ∧
    (∀ v ∈ [filterWord 0 1 0 0, filterWord 2 1 0 0, filterWord 1 0xFF0 0 0, filterWord 1 1 1 0], v < 2 ^ 64 ∧
      ¬ (1 ≤ bits v 51 12 ∧ bits v 51 12 ≤ bits v 39 12 ∧ bits v 39 12 ≤ 0xFEF ∧ bits v 21 18 ≤ bits v 3 18)) := by decide +kernel

/-- The lease held by this port (1 or 2, 0 none), last accepted at 0. -/
def leaseDev (holder : Nat) : Dev := { dev0 with host := { dev0.host with lease := { holder := holder, expiry := 10 ^ 10, lastAccepted := 10 ^ 9 - 800000000 } } }
theorem witness_AdministrationLease :
    (∀ h ∈ [0, 1, 2], up (leaseDev h) ∧ (leaseDev h).leaseHolder = h) ∧ (leaseDev 1).host.lease.lastAccepted + 800000000 ≤ (leaseDev 1).now ∧
    (leaseDev 0).leaseHolder ≠ 0 + 1 ∧ (leaseDev 2).host.lease.holder ≠ 0 := by decide +kernel
/-- Ring 0 in use or not, and feature 0 wanted or not. -/
def negDev (used wanted : Bool) : Dev :=
  { dev0 with host := { dev0.host with rings := if used then dev0.host.rings else [] }, regs := if wanted then [(0x80020, 1)] else [] }
theorem witness_Negotiation : (∀ u ∈ [true, false], ∀ w ∈ [true, false], up (negDev u w) ∧
    ((negDev u w).host.rings.any fun r => r.2.state != 0 && (negDev u w).ringOwner r.1 == portNode 0) = u) := by decide +kernel
theorem witness_Negotiation_sets :
    (∀ u ∈ [true, false], bit ((negDev u false).acceptSet State.reset.fuse ((negDev u false).port 0).atsEnabled ((negDev u false).reg 0x80020) hostFeatures) 0 = false) ∧
    bit ((negDev false true).acceptSet State.reset.fuse ((negDev false true).port 0).atsEnabled ((negDev false true).reg 0x80020) hostFeatures) 0 = true := by
  decide +kernel
/-- Ring 5 of port 0 in this state; of this kind. -/
def ringDev (r : Ring) : Dev := { dev0 with host := { dev0.host with rings := [(5, r)] } }
theorem witness_RingsGoOnAndOff :
    ((∀ r ∈ (ringDev {}).host.rings, r.2.state = 0) ∧ (ringDev {}).host.sessions = [] ∧ (ringDev {}).host.ending = []) ∧
    (up (ringDev {}) ∧ 5 < 1024 ∧ (ringDev {}).ringOwner 5 = portNode 0) ∧
    (((ringDev { sizeLog := 99 }).ring 5).state = 0 ∧ 0 < (ringDev { sizeLog := 99 }).ringCheck 5) ∧
    (((ringDev { kind := 2 }).ring 5).state = 0 ∧ (ringDev { kind := 2 }).ringCheck 5 = 0 ∧ ((ringDev { kind := 2 }).ring 5).held = []) ∧
    (∀ k ∈ [0, 1, 2], ((ringDev { state := 1, kind := k }).ring 5).state = 1 ∧ ((ringDev { state := 1, kind := k }).ring 5).kind = k) ∧
    (ringDev { state := 2 }).drained 5 = true := by decide +kernel
/-- Ring 0 active, with these slots published. -/
def bellDev (prod cons : Nat) : Dev := dev0.setRing 0 fun r => { r with prod := prod, cons := cons }
theorem witness_DoorbellsPublish :
    (∀ v ∈ [1, 256], up (bellDev 0 0) ∧ v < 2 ^ 32 ∧ (bellDev 0 0).ringOwner 0 = portNode 0 ∧ ((bellDev 0 0).ring 0).state = 1 ∧
      ((bellDev 0 0).ring 0).kind = 0 ∧ ((bellDev 0 0).ring 0).prod < 2 ^ 32 ∧ 0 < (v + 2 ^ 32 - 0) % 2 ^ 32 ∧
      (v + 2 ^ 32 - 0) % 2 ^ 32 ≤ ((bellDev 0 0).ring 0).slots - ((bellDev 0 0).ring 0).used ∧ (v + 2 ^ 32 - 0) % 2 ^ 32 ≤ 2 ^ 31) ∧
    (((bellDev 0 0).ring 0).slots - ((bellDev 0 0).ring 0).used < (257 + 2 ^ 32 - 0) % 2 ^ 32 ∧ (2 ^ 31 + 2 ^ 32 - 0) % 2 ^ 32 ≤ 2 ^ 31) ∧
    (2 ^ 31 < (2 ^ 31 + 1 + 2 ^ 32 - ((bellDev 0 0).ring 0).prod) % 2 ^ 32) ∧ (bellDev 0 0).ringOwner 64 ≠ portNode 0 := by decide +kernel
theorem witness_DescriptorsAreFetchedAndStarted :
    (let d := dev0.setRing 0 fun r => { r with prod := 1 }
     d.serves 0 = true ∧ d.ringOwner 0 = portNode 0 ∧ (d.ring 0).kind = 0 ∧ (d.ring 0).state = 1 ∧ (descOf []).length = 64 ∧
     (d.ring 0).waiting = none ∧ 0 < (d.ring 0).used ∧ dOpcode (descOf []) ≠ 0x21 ∧ d.jobs.abortWaits = []) ∧
    (∀ op ∈ [0, 0x70, 0x30], (
     let b := descOf [(0, 1, op), (1, 1, 4)]
     let d := dev0.setRing 0 fun r => { r with prod := 1, cons := 1, waiting := some (0, b) }
     d.serves 0 = true ∧ d.ringOwner 0 = portNode 0 ∧ (d.ring 0).kind = 0 ∧ (d.ring 0).state = 1 ∧ (d.ring 0).waiting = some (0, b) ∧
     dFence b = false ∧ (d.ring 0).started = [] ∧ (knownOpcode (dOpcode b) = true ∨ dOpcode b = 0) ∧ d.jobs.abortWaits = [] ∧
     dDefCpl b = true ∧ d.slotFor (d.ring 0).defCpl = true)) := by decide +kernel
theorem witness_CompletionRecords :
    let d := begin0 dev0 0 (descOf [])
    d.mir.unacked = [] ∧ (d.startedAt 0 0).any (fun x => x.recRing == 1) = true ∧ d.ringOwner 1 = portNode 0 ∧ (d.ring 1).kind = 1 ∧
    (d.ring 1).state = 1 ∧ (d.ring 1).held = [] := by decide +kernel
/-- Port 0 with vector 3 masked or not, and with its message pending or not; ring 1 with records not yet signalled. -/
def vecDev (open3 pend : Bool) : Dev :=
  (dev0.setPort 0 fun x => { x with msixEnabled := true, unmasked := if open3 then [3] else [], pendingBits := if pend then [3] else [] }).setRing 1
    fun r => { r with vector := 3, unsignalled := 1, unsigSince := 7, coalUs := 9, notifyAt := some 5 }
theorem witness_SignalsAreSent :
    (vecDev true false).ringOwner 1 = portNode 0 ∧ ((vecDev true false).port 0).msixEnabled = true ∧
    nmem ((vecDev true false).port 0).unmasked ((vecDev true false).ring 1).vector = true ∧ 0 < ((vecDev true false).ring 1).unsignalled ∧
    ((vecDev true false).ring 1).notifyAt = some 5 := by decide +kernel
theorem witness_UnmaskingSendsWhatIsPending : ∀ b ∈ [true, false],
    ((vecDev false b).port 0).msixEnabled = true ∧ nmem ((vecDev false b).port 0).pendingBits 3 = b := by decide +kernel
/-- The output of descriptor 0 of ring 0, to be written again. -/
def out0 : OutJob := { caller := .desc 0 0, addr := 4096, bytes := [1], st := 1, det := 0, result := 0, progress := 0, next := 5 }
theorem witness_NopsAndOutputs :
    (begin0 dev0 0 (descOf [])).ready 0 0 0 (descOf []) ∧
    (let d := { dev0 with host := { dev0.host with outputs := [out0] } }
     d.ringOwner 0 = portNode 0 ∧ out0.bytes ≠ [] ∧ out0.caller = .desc 0 0 ∧ d.host.outputs = [out0]) := by decide +kernel

/-! ## Fabric requests and coherence (chapters 4 and 5) -/

/-- `goesOn`, decided. -/
def goesB (d : Dev) (m : Msg) : Bool :=
  d.checkAll m false (reqLines m) == (.ok 0, 0) && (!reqWrites m.opcode || !d.backlogged) && !starving m && !d.isHeld m &&
  ((reqLines m).all fun l => !d.setBad l) &&
  (reqLines m).all fun l => !d.heldUp false l && ((d.keyOf (l * 64)).all fun k => d.throttleLeft m.src (l * 64) k == 0)
theorem goesOn_of {d : Dev} {m : Msg} (h : goesB d m = true) : goesOn d m := by
  simp only [goesB, Bool.and_eq_true, Bool.or_eq_true, Bool.not_eq_true', beq_iff_eq, List.all_eq_true] at h
  obtain ⟨⟨⟨⟨⟨h1, h2⟩, h3⟩, h4⟩, hs⟩, h5⟩ := h
  refine ⟨h1, fun hw => by simpa [hw] using h2, h3, h4, hs, fun l hl => ?_⟩
  obtain ⟨a, e⟩ := h5 l hl
  exact ⟨a, fun k hk => by simpa [hk] using e⟩
def keepsB (d : Dev) (m : Msg) : Bool := goesB d m && (reqLines m).all fun l => d.dirOf l == none
theorem unkept_of {d : Dev} {m : Msg} (h : keepsB d m = true) : unkept d m := by
  simp only [keepsB, Bool.and_eq_true, List.all_eq_true, beq_iff_eq] at h
  exact ⟨goesOn_of h.1, h.2⟩
def loadOk (x : Load × Dev) : Bool := match x.1 with | .bytes _ => true | _ => false
def fabDev : Dev := withPool dev0
def req4 (op off len : Nat) (data : List Byte) : Msg := { req op with addr := addr4 + off, len := len, data := data }
def bulk (n : Nat) : Msg := req4 2 0 3 (natBytes 4 n)
/-- READ of a line's last byte and of a whole line; over the line's end; of a poisoned line; READ_BULK of 64 and 262144 bytes; ECHO. -/
theorem witness_FabricReads :
    (∀ m ∈ [req4 1 63 0 [], req4 1 0 63 []], takes fabDev m ∧ keepsB (fabDev.taken m) m = true ∧ crosses m = false ∧ spanBad m = false ∧
      loadOk (((fabDev.taken m).countReq m).gather [] (reqLines m)) = true) ∧
    (let m := req4 1 0 63 []
     let d := { fabDev with poison := [0, 1] }
     takes d m ∧ keepsB (d.taken m) m = true ∧ (((d.taken m).countReq m).gather [] (reqLines m)).1 = .poisoned) ∧
    (takes fabDev (req4 1 63 1 []) ∧ crosses (req4 1 63 1 []) = true) ∧
    (∀ n ∈ [64, 262144], takes fabDev (bulk n) ∧ (bulk n).addr % 64 = 0 ∧ field (bulk n).data 0 4 = n ∧ n % 64 = 0 ∧
      (bulk n).addr + n ≤ 0xFFFFF0000000) ∧
    takes fabDev (req 0xF0) ∧ (fabDev.forUs (req 0xFF) = true ∧ fabDev.pm.state = 1 ∧ fabDev.gate (req 0xFF) = none ∧ knownRequest 0xFF = false) := by
  refine ⟨?_, ?_, ?_, ?_, ?_⟩ <;> decide +kernel
theorem witness_FabricReads_part :
    let m := { req4 2 64 63 [] with xfer := 1, last := false }
    (m.opcode = 2 ∧ m.tag < 4096) ∧ keepsB fabDev m = true ∧ loadOk ((fabDev.countReq m).gather [] (reqLines m)) = true := by decide +kernel

theorem witness_FabricReads_snoop :
    ∀ op ∈ [0, 6, 255], let m := { req op with cls := 1, dst := 0x100 }
      m.cls = 1 ∧ m.dst = fabDev.ownNode ∧ (m.opcode = 0 ∨ 6 ≤ m.opcode) := by decide +kernel

def xfer0 : Xfer := { first := req4 4 0 63 (zeros 64), time := 3 }
/-- WRITE of a line; over its end; WRITE_BULK as one message of 64 bytes and as the first of 256; its hold. -/
theorem witness_FabricWrites :
    (∀ m ∈ [req4 3 0 63 (zeros 64), req4 3 63 0 [1], req4 4 0 63 (zeros 64), { req4 4 0 255 (zeros 256) with last := false }],
      takes fabDev m ∧ keepsB (fabDev.taken m) m = true ∧ spanBad m = false ∧ (m.opcode = 3 → crosses m = false) ∧
      (((fabDev.taken m).countReq m).scatter m.addr (slice m.data 0 (m.len + 1)) 17).1 = .done ∧ fabDev.fab.xfers.length < 16384) ∧
    (let m := { req4 3 0 1 [0, 0, 0, 0, 0, 0, 0, 0, 5, 6] with mc := true }
     unmasked m = { m with data := [5, 6] }) ∧
    (takes fabDev (req4 3 63 1 [1, 2]) ∧ crosses (req4 3 63 1 [1, 2]) = true) ∧
    (tget fabDev.fab.xfers (xferKey (req4 4 0 63 (zeros 64))) = none ∧ (req4 4 0 63 (zeros 64)).last = true ∧ (req4 4 0 63 (zeros 64)).xfer = 0) ∧
    tget { fabDev.fab with xfers := [(7 * 4096 + 5, xfer0)] }.xfers (7 * 4096 + 5) = some xfer0 := by decide +kernel
def atoms : List Nat := [8, 9, 10, 11, 12, 13, 14, 15]
/-- Each atomic of 4 bytes at the end of a line; of a length it has not; misaligned. -/
theorem witness_Atomics :
    (∀ op ∈ atoms, let n := if op = 13 then 8 else 4
      let m := req4 op 60 (n - 1) (zeros n)
      takes fabDev m ∧ atomicLenOk m = true ∧ atomicSize m = 4 ∧ m.addr % 4 = 0 ∧ spanBad m = false ∧ keepsB (fabDev.taken m) m = true ∧
      loadOk ((((fabDev.taken m).dedupOpen m).countReq m).loadLine (m.addr / 64)) = true ∧
      (((((fabDev.taken m).dedupOpen m).countReq m).loadLine (m.addr / 64)).2.storeLine m.addr (zeros 4)).1 = .done) ∧
    (∀ op ∈ atoms, takes fabDev (req4 op 60 4 []) ∧ atomicLenOk (req4 op 60 4 []) = false) ∧
    (∀ op ∈ atoms, let n := if op = 13 then 8 else 4
      takes fabDev (req4 op 61 (n - 1) []) ∧ atomicLenOk (req4 op 61 (n - 1) []) = true ∧ (req4 op 61 (n - 1) []).addr % 4 ≠ 0) := by decide +kernel
/-- A record that has its answer, and one of an ordered stream with a request held. -/
def rec0 : DedupRec := { op := 8, addr := addr4, len := 3, crc := crc32c (zeros 4), answer := some { req 1 with cls := 2 }, expiry := 9 }
theorem witness_DedupAndOrder :
    (let m := req4 8 0 3 (zeros 4)
     let d := { fabDev with fab := { fabDev.fab with dedup := [(dedupKey (dedupHome m) 7 5, rec0)] } }
     m.tag < 4096 ∧ dedupCovers m = true ∧ tget d.fab.dedup (dedupKey (dedupHome m) m.src m.tag) = some rec0 ∧ rec0.matchesMsg m = true ∧
     rec0.answer.isSome = true ∧ d.mir.unacked = [] ∧ rec0.rep = []) ∧
    (let d := { fabDev with fab := { fabDev.fab with ordered := [(7 * 8 + 7, { held := [req4 3 0 0 [1]] })] } }
     tget d.fab.ordered (7 * 8 + 7) = some { held := [req4 3 0 0 [1]], retried := none } ∧
     (d.pool.parked.any fun p => orderedMsg p.2 && ordKey p.2 == 7 * 8 + 7) = false) := by decide +kernel

/-- The first line of region 3, its directory entry as given, and region 3 of this kind. -/
def line4 : Nat := addr4 / 64
def cohDev (e : Option DirEntry) (kind : Nat) : Dev :=
  { fabDev with
    coh := { fabDev.coh with dir := e.toList.map fun e => (line4, e) }
    pool :=
      { fabDev.pool with
        emt := [(4, { kind := kind, handle := 3, index := 0, frame := 0 }), (5, { kind := kind, handle := 3, index := 1, frame := 1 })]
        pins := [(0, { owner := 7, handle := 3, version := 1, view := 4, count := 2, deadline := 10 ^ 10 })] } }
abbrev cohOk (d : Dev) (m : Msg) : Prop := takes d m ∧ keepsB (d.taken m) m = true ∧ spanBad m = false
theorem witness_CoherentRequests :
    (∀ x ∈ [(0x10, 1), (0x11, 1), (0x12, 1)], let m := req4 x.1 0 63 []
      let d := (cohDev none x.2).taken m
      cohOk (cohDev none x.2) m ∧ (d.freeWay line4).isSome = true ∧ d.isPrivate line4 = false ∧ (d.cacheTouch line4).isSome = true ∧
      (d.cacheTouch line4).any (fun d1 => loadOk ((d1.countReq m).loadLine line4) && ((d1.countReq m).emtOf (line4 / 2 ^ 19)).kind == x.2) = true) ∧
    (let m := req4 0x12 0 63 []
     let d0 := cohDev (some { state := 1, ptrs := [7] }) 1
     takes d0 m ∧ goesB (d0.taken m) m = true ∧ spanBad m = false ∧ (d0.taken m).isPrivate line4 = false ∧
     (d0.taken m).dirOf line4 = some { state := 1, ptrs := [7] } ∧ ((d0.taken m).cacheTouch line4).isSome = true) ∧
    (let m := req4 0x15 0 67 (zeros 68)
     cohOk (cohDev none 1) m ∧ ((((cohDev none 1).taken m).countReq m).scatter (m.addr / 64 * 64) (slice m.data 0 64) 17).1 = .done) := by decide +kernel
theorem witness_CoherentRequests_snapshot :
    let m := req4 0x10 0 63 []
    let d := (cohDev none 4).taken m
    cohOk (cohDev none 4) m ∧ (d.freeWay line4).isSome = true ∧ d.isPrivate line4 = false ∧
    (d.cacheTouch line4).any (fun d1 => loadOk ((d1.countReq m).loadLine line4) && ((d1.countReq m).emtOf (line4 / 2 ^ 19)).kind == 4) = true := by decide +kernel
def owned7 : DirEntry := { state := 3, ptrs := [7] }
theorem witness_WritebacksAndEvictions :
    (let m := req4 0x13 0 63 (zeros 64)
     let d0 := cohDev (some owned7) 1
     let d := d0.taken m
     takes d0 m ∧ m.len = 63 ∧ spanBad m = false ∧ d.looseCheck m = none ∧ d.dirOf line4 = some owned7 ∧ (d.emtOf (line4 / 2 ^ 19)).kind ≠ 3 ∧
     tget ((d.writeBack line4 (slice m.data 0 64)).reqCount m.src 2 64).coh.txns line4 = none) ∧
    (takes (cohDev none 1) (req4 0x13 0 63 (zeros 64)) ∧ ((cohDev none 1).taken (req4 0x13 0 63 (zeros 64))).dirOf line4 = none) ∧
    (∀ x ∈ [({ state := 1, ptrs := [7] } : DirEntry), { state := 1, ptrs := [7, 8] }, owned7], let m := req4 0x14 0 63 []
      let d0 := cohDev (some x) 1
      let d := d0.taken m
      takes d0 m ∧ spanBad m = false ∧ d.looseCheck m = none ∧ d.barred (line4 / 2 ^ 19) = false ∧ d.busy line4 = false ∧ d.recalled line4 = false ∧
      d.reservedFrom line4 = false ∧ d.dirOf line4 = some x ∧ x.state ≠ 2 ∧ m.src ∈ x.ptrs) := by
  refine ⟨?_, ?_, ?_⟩ <;> decide +kernel
/-- A snoop of client 7 with tag 9, or a recall of set 2, outstanding. -/
def snoopKey : Nat := 7 * 4096 + 9
def snoopReq (purpose resends : Nat) : DevReq :=
  { m := { cls := 1, opcode := 1, src := 0x100, dst := 7, tag := 9 }, resends := resends, deadline := 10 ^ 10, purpose := purpose, index := if purpose = 6 then 2 else line4 }
def snoopDev (purpose resends : Nat) : Dev :=
  { fabDev with
    fab := { fabDev.fab with devReqs := [(snoopKey, snoopReq purpose resends)] }
    coh := { fabDev.coh with txns := [(line4, { kind := .evict, waits := [(7, 9)] })], recalls := [(2, {})], starve := [(1, { holder := some 7 })] } }
theorem witness_SnoopsAndRecalls :
    (snoopDev 3 0).matchReq 7 9 = some (snoopKey, snoopReq 3 0) ∧ (snoopReq 3 0).purpose = 3 ∧
    (tget (snoopDev 3 0).coh.txns line4 = some { kind := .evict, waits := [(7, 9)] } ∧ snoopKey < 2 ^ 24 ∧ snoopKey % 4096 = 9) ∧
    (tget (snoopDev 3 0).fab.devReqs snoopKey = some (snoopReq 3 0) ∧ (snoopDev 3 0).mayResend (snoopReq 3 0) = true) ∧
    ((snoopDev 3 8).mayResend (snoopReq 3 8) = false ∧ (snoopReq 3 8).m.mc = false) ∧
    (((snoopDev 3 0).starveOf 1).holder.isSome = true ∧ ((snoopDev 3 0).starveOf 1).heldReq = none) ∧
    ((snoopDev 6 0).matchReq 7 9 = some (snoopKey, snoopReq 6 0) ∧ tget (snoopDev 6 0).coh.recalls 2 = some {} ∧ ({} : Recall).finals = [] ∧
      ({} : Recall).got = []) ∧ 0x100 = fabDev.ownNode := by decide +kernel

/-- A device with two coherent clients, one entry of line 0, and every stack ACTIVE. -/
def recallDev (state : Nat) : Dev :=
  { fabDev with stk := { units := (List.range 6).map fun k => (k, { state := 2 }) }
                coh := { dir := [(0, { state := state, ptrs := [7] })] } }
theorem carve_line (e : Nat) : ((recallDev 3).keyAt e 0 (15344 * 87382 + 1)).isSome = true := by
  have hr : (recallDev 3).retired = none := by decide +kernel
  have h : 4 * e % 6 < 6 := Nat.mod_lt _ (by decide)
  simp only [Dev.keyAt, hr]
  rw [if_pos]
  · rfl
  · simp only [Bool.and_eq_true, decide_eq_true_eq]; omega
set_option maxRecDepth 4000 in
/-- One symbol is corrected, four are not. -/
theorem four_wrong : readWith 0 (zeros 64) (1 :: zeros 71) = some (zeros 64, true) ∧ readWith 0 (zeros 64) ([1, 1, 1, 1] ++ zeros 68) = none := by
  decide +kernel
theorem witness_SetRecalls :
    ((tget (snoopDev 6 0).coh.recalls 2).isSome = true ∧ tget (recallDev 3).coh.recalls 0 = none ∧ (recallDev 3).coherentNodes ≠ [] ∧
      ({ recallDev 3 with host := {} } : Dev).coherentNodes = []) ∧
    (((recallDev 3).spareFor 0).1 = true ∧
      (({ recallDev 3 with coh := { deadSets := (List.range 32).map (2097120 + ·) } } : Dev).spareFor 0).1 = false) ∧
    ((recallDev 3).stack 0).state = 2 ∧ (recallDev 3).lineAt 0 (15344 * 87382 + 1) = none ∧
    (∃ x g, (recallDev 3).setLineAt 0 (15344 * 87382 + 1) = some x ∧ (recallDev 3).setOfLive x.1 = some g) ∧
    (readWith 0 (zeros 64) (1 :: zeros 71) = some (zeros 64, true) ∧ readWith 0 (zeros 64) ([1, 1, 1, 1] ++ zeros 68) = none) ∧
    (0 ∈ [0] ∧ (∃ e ∈ (recallDev 4).setEntries 0, 4 ≤ e.2.state)) := by
  refine ⟨by decide +kernel, by decide +kernel, by decide +kernel, by decide +kernel, ?_, four_wrong, by decide +kernel⟩
  obtain ⟨k, hk⟩ := Option.isSome_iff_exists.mp (carve_line (Config.carveExtent 15344))
  have hr : (recallDev 3).retired = none := by decide +kernel
  refine ⟨(k % 2 ^ 25 / 64 / 4, k / 64 % 4), k % 2 ^ 25 / 64 / 4, ?_, ?_⟩
  · simp [Dev.setLineAt, Dev.carveOut, hr, hk]
  · have : k % 2 ^ 25 / 64 / 4 < 2097120 := by omega
    simp only [Dev.setOfLive, if_pos this]; rfl

/-! ## The pool, its windows and sessions (chapters 2 and 3) -/

theorem witness_AccessIsChecked :
    (addr4 / 2 ^ 25 < 0x7FFFF8 ∧ tget fabDev.pool.emt 6 = none) ∧
    (tget fabDev.pool.emt 5).any (fun e => e.kind == 1 && !e.fence && (fabDev.stack (fabDev.dataStack 5 (e.frame * 2 ^ 25 + (2 ^ 25 - 1)))).state != 3) = true ∧
    fabDev.grantOf 8 3 = none ∧ (fabDev.grantOf 7 3).any (fun g => !rightsOk g.rights 32 && rightsOk g.rights 31 && fabDev.grantAdmits g 7 3 1) = true ∧
    fabDev.barred 5 = false ∧
    (let d := { fabDev with pool := { fabDev.pool with emt := [(5, { kind := 1, handle := 3, index := 1, frame := 1, egen := 1 })] } }
     (d.grantOf 7 3).any (fun g => rightsOk g.rights 1 && !d.grantAdmits g 7 3 1) = true) := by decide +kernel
/-- `withPool` with this pool descriptor started, and the pool as changed. -/
def poolDev (op : Nat) (b : List Byte) (f : PoolSt → PoolSt) : Dev :=
  let d := begin0 fabDev op b
  { d with pool := f d.pool }
def poolOk (d : Dev) (op : Nat) (b : List Byte) : Bool := decide (poolReady d 0 0 op b)
def reg3 : Region := { backed := false, base := 4, count := 2 }
/-- REGION_CREATE of one extent, of 300 and of more than there are under handle 9; under debug token 2; without the features it needs; under a
handle in use; without slots; without extent numbers. -/
def makeDev (b : List Byte) : Dev := { poolDev 0x08 b id with sec := { dev0.sec with state := 0 } }
theorem witness_RegionsAreMade :
    (∀ n ∈ [1, 300], let b := descOf [(8, 2, 9), (16, 4, n)]
      let d := makeDev b
      poolOk d 0x08 b = true ∧ dKind b = 0 ∧ dCount b = n ∧ bit (dCflags b) 0 = false ∧ d.regionOf (dHandle b) = none ∧
      n ≤ (d.begun 0 0).freeFrames ∧ ((d.begun 0 0).freeRange n).any (fun base => ((d.begun 0 0).makeRegion 9 base n false false).isSome) = true) ∧
    (let b := descOf [(8, 2, 9), (16, 4, 1)]
     let d := { poolDev 0x08 b id with sec := { dev0.sec with state := 1, debugLevel := 2 } }
     poolOk d 0x08 b = true ∧ d.sec.state = 1 ∧ d.sec.debugLevel = 2) ∧
    (∀ x ∈ [(7, 0), (18, 2)], let b := descOf [(8, 2, 9), (12, 1, 1), (13, 1, x.2), (16, 4, 1)]
     let d := (makeDev b).setPort 0 fun p => { p with accepted := allFeatures - 2 ^ x.1 }
     poolOk d 0x08 b = true ∧ dKind b = 1 ∧ bit (dCflags b) 1 = decide (x.2 = 2) ∧ (d.begun 0 0).hasFeature ((d.begun 0 0).ringOwner 0) 7 = decide (x.1 ≠ 7) ∧
     (d.begun 0 0).hasFeature ((d.begun 0 0).ringOwner 0) 18 = decide (x.1 ≠ 18)) ∧
    (let b := descOf [(8, 2, 3), (16, 4, 1)]
     poolOk (makeDev b) 0x08 b = true ∧ ((makeDev b).begun 0 0).regionOf (dHandle b) ≠ none) ∧
    (let b := descOf [(8, 2, 9), (16, 4, 2000000)]
     poolOk (makeDev b) 0x08 b = true ∧ clampN 1 1048576 (dCount b) ≠ dCount b ∧ (((makeDev b).begun 0 0).clamped 3 0).freeFrames < 1048576) ∧
    (let b := descOf [(8, 2, 9), (12, 1, 1), (16, 4, 1)]
     let d := (makeDev b).begun 0 0
     poolOk (makeDev b) 0x08 b = true ∧ d.hasFeature (d.ringOwner 0) 7 = true ∧ (d.freeRange 1).any (fun base => (d.makeRegion 9 base 1 true false).isNone) = true) ∧
    (let b := descOf [(8, 2, 9), (12, 1, 1), (16, 4, 1048576)]
     let d := { makeDev b with pool := { (makeDev b).pool with emt := (List.range 8).map fun i => ((i + 1) * 1000000, { kind := 2, handle := 3, index := i }) } }
     poolOk d 0x08 b = true ∧ (d.begun 0 0).freeRange 1048576 = none) := by
  refine ⟨?_, ?_, ?_, ?_, ?_, ?_, ?_⟩ <;> decide +kernel
theorem witness_RegionsAndGrants :
    (let b := descOf [(8, 2, 3)]
     let d := poolDev 0x09 b id
     poolOk d 0x09 b = true ∧ d.liveRegion 3 = some reg3 ∧ d.installing 3 = false ∧ d.fencedIn 4 0 1 = false) ∧
    (∀ v ∈ [0, 1], let b := descOf [(8, 2, 3), (10, 2, 0xEFF), (12, 1, 31), (24, 4, v)]
     let d := poolDev 0x0A b id
     poolOk d 0x0A b = true ∧ d.liveRegion 3 = some reg3 ∧ d.installing 3 = false ∧ grantable (dHost b) = true ∧ d.outsideTenant (dHost b) = false ∧
     (dVersion b = reg3.rgen ↔ v = 0) ∧ d.grantOf (dHost b) 3 = none ∧ d.pool.grants.length < 65536) ∧
    (let b := descOf [(8, 2, 3), (10, 2, 7)]
     let d := poolDev 0x0B b id
     poolOk d 0x0B b = true ∧ grantable (dHost b) = true ∧ (d.grantOf (dHost b) 3).isSome = true) ∧
    (let b := descOf [(8, 2, 3), (10, 2, 0x8000), (16, 4, 1), (20, 4, 1)]
     let d := poolDev 0x0C b id
     poolOk d 0x0C b = true ∧ dAll b = true ∧ dCount b ≤ dLast b ∧ dLast b ≤ reg3.count - 1 ∧ d.fencedIn 4 1 1 = false ∧ dVersion b = reg3.rgen ∧
     reg3.rgen ≠ 0xFFFFFFFF ∧ d.pool.exclusions.length < 65536) := by
  refine ⟨?_, ?_, ?_, ?_⟩ <;> decide +kernel
def drain0 : Draining := { handle := 3, host := none, first := 0, last := 1, rgen := 1, kind := 0, caller := .desc 0 0 }
theorem witness_RegionsAndGrants_ends :
    (∀ op ∈ [8, 9, 10, 11, 12, 0x13, 0x14], let b := descOf []
      let d := { begin0 fabDev op b with host := { (begin0 fabDev op b).host with lease := { holder := 2, expiry := 10 ^ 10 } } }
      d.ready 0 0 op b ∧ d.sec.state ≠ 5 ∧ d.mir.role < 2 ∧ d.hasLease (d.ringOwner 0) = false) ∧
    (let d := poolDev 0x08 [] fun p => { p with draining := [drain0] }
     (d.pool.draining.find? fun r => r.handle == 3 && r.rgen == 1 && d.drainDone r) = some drain0) := by decide +kernel

def draft0 : Draft := { owner := 0xFF0, handle := 3, baseVer := 1, view := 6, count := 2 }
def pin0 : Pin := { owner := 0xFF0, handle := 3, version := 1, view := 6, count := 2, deadline := 10 ^ 10 }
abbrev regionFine (d : Dev) (need : Nat) : Prop := d.liveRegion 3 = some reg3 ∧ d.installing 3 = false ∧ d.holds 0xFF0 3 need = true
theorem witness_DraftsAndPins :
    (let b := descOf [(8, 2, 3)]
     let d := poolDev 0x0D b id
     poolOk d 0x0D b = true ∧ regionFine d rightP ∧ d.pool.drafts.length < d.fld 0x100010 0 13 ∧ tget d.pool.drafts 4095 = none ∧ (d.freeRange 2).isSome = true) ∧
    (let b := descOf [(8, 2, 3)]
     let d := poolDev 0x10 b id
     poolOk d 0x10 b = true ∧ regionFine d rightR ∧ dVersion b = 0 ∧ dLeaseMs b = 0 ∧ d.pool.pins.length < d.fld 0x100010 16 13 ∧
     tget d.pool.pins 4095 = none ∧ (d.freeRange 2).isSome = true) ∧
    (let b := descOf [(28, 2, 4095)]
     let d := poolDev 0x0E b fun p => { p with drafts := [(4095, draft0)] }
     poolOk d 0x0E b = true ∧ d.draftOf 0xFF0 (dDraftId b) = some draft0 ∧ d.installing 3 = false) ∧
    (∀ v ∈ [1, 2], let b := descOf [(8, 2, 3), (24, 4, v), (28, 2, 4095)]
     let d := poolDev 0x0F b fun p => { p with drafts := [(4095, { draft0 with baseVer := v })],
                                               emt := p.emt ++ [(6, { kind := 3, handle := 3, index := 0, frame := 0 }), (7, { kind := 3, handle := 3, index := 1, frame := 1 })] }
     let f : Draft := { draft0 with baseVer := v }
     poolOk d 0x0F b = true ∧ regionFine d rightP ∧ d.draftOf 0xFF0 (dDraftId b) = some f ∧ f.baseVer = dVersion b ∧
     (f.baseVer = reg3.verOrd ↔ v = 1) ∧ ((d.modified f).any fun i => (d.emtOf (4 + i)).fence || (d.emtOf (6 + i)).fence) = false ∧
     d.publishCheck 0xFF0 f reg3 = none ∧ d.pool.draftCopies = []) ∧
    (∀ op ∈ [0x11, 0x12], let b := descOf [(28, 2, 4095)]
     let d := poolDev op b fun p => { p with pins := [(4095, pin0)] }
     poolOk d op b = true ∧ d.pinOf 0xFF0 (dDraftId b) = some pin0 ∧ d.installing 3 = false ∧ dLeaseMs b = 0) := by
  refine ⟨?_, ?_, ?_, ?_, ?_⟩ <;> decide +kernel
def pub0 : Publishing := { handle := 3, draft := 9, version := 2, caller := .desc 0 0 }
theorem witness_DraftsAndPins_ends :
    let d := poolDev 0 [] fun p => { p with draftCopies := [{ ext := 6, dest := 1 }], publishing := [pub0], pins := [(9, pin0)] }
    d.pool.draftCopies.find? (·.ext == 6) = some { ext := 6, dest := 1 } ∧ d.pool.publishing.find? (·.handle == 3) = some pub0 ∧
    d.barrierDone = true ∧ tget d.pool.pins 9 = some pin0 := by decide +kernel
/-- Queries; retiring the stack that is retired, one with too much in use, one that can be; returning one. -/
theorem witness_QueriesAndStacks :
    (∀ op ∈ [0x15, 0x16], let b := descOf [(8, 2, 3), (16, 4, 1), (20, 4, 1), (36, 4, 16)]
      let d := poolDev op b id
      poolOk d op b = true ∧ d.liveRegion 3 = some reg3 ∧ (nodePort (d.ringOwner 0)).isSome = true ∧ dCount b ≤ dLast b ∧ dLast b ≤ 2 - 1 ∧
      dOutLen b % 16 = 0 ∧ 16 ≤ dOutLen b ∧ dOutLen b ≤ 16777216) ∧
    (let b := descOf [(14, 1, 5)]
     let d := { poolDev 0x13 b id with stk := { dev0.stk with units := [(5, { state := 5 })] } }
     poolOk d 0x13 b = true ∧ dStack b = 5 ∧ d.pool.stackMove = none ∧ d.retired = some 5) ∧
    (let b := descOf [(14, 1, 5)]
     let d := poolDev 0x13 b id
     poolOk d 0x13 b = true ∧ d.pool.stackMove = none ∧ d.retired = none ∧ d.framesInUse ≤ 12768) ∧
    (let b := descOf [(14, 1, 5)]
     let d := poolDev 0x14 b id
     poolOk d 0x14 b = true ∧ d.pool.stackMove = none ∧ (d.stack 5).state ≠ 5) ∧
    (let b := descOf [(14, 1, 5)]
     let d := { poolDev 0x14 b id with stk := { dev0.stk with units := [(5, { state := 5 })] } }
     poolOk d 0x14 b = true ∧ d.pool.stackMove = none ∧ (d.stack 5).state = 5) := by
  refine ⟨?_, ?_, ?_, ?_, ?_⟩ <;> decide +kernel
theorem witness_QueriesAndStacks_poolOp :
    ∀ op ∈ [0x08, 0x16], let m := { req 0x38 with len := 63, data := descOf [(0, 1, op)] }
      takes fabDev m ∧ fabDev.backlogged = false ∧ dOpcode m.data = op := by decide +kernel
def mig0 : Migration := { ext := 4, src := 0, dst := 2, started := true, copied := [], copying := some 0 }
theorem witness_EpochsAndMigrations :
    up fabDev ∧
    (let w : Switch := { node := 0x200, recs := [{ port := 0, entry := 0, srcLo := 1, srcHi := 2, addrBase := 0, addrLimit := 1, valid := true, pending := true }], unanswered := 2 }
     let q : DevReq := { m := req 0x37, deadline := 9, purpose := 1, index := 64 * 3 }
     let d := { fabDev with pool := { fabDev.pool with switches := [(3, w)] }, fab := { fabDev.fab with devReqs := [(77, q)] } }
     tget d.pool.switches 3 = some w ∧ (d.fab.devReqs.find? fun q => q.2.purpose == 1 && q.2.index / 64 == 3) = some (77, q) ∧ q.index % 64 = 0 ∧
     2 ≤ w.unanswered) ∧
    (let d := { fabDev with pool := { fabDev.pool with migrations := [mig0] } }
     (d.pool.migrations.find? fun g => g.ext == 4 && g.started && !g.done) = some mig0 ∧ mig0.copying = some 0 ∧
     ((d.skeinCopied mig0 0).nextSkein { mig0 with copied := [0] }).isSome = true) ∧
    nmem [5] 5 = true := by decide +kernel
theorem nextSkein_none (d : Dev) (g : Migration) (h : ∀ k, k < 512 → nmem g.copied k = true) : d.nextSkein g = none := by
  refine List.find?_eq_none.mpr fun k hk => ?_
  simp [h k (by simpa using hk)]
def mig511 : Migration := { mig0 with copied := List.range' 1 511 }
theorem witness_EpochsAndMigrations_last (d : Dev) : (d.skeinCopied mig511 0).nextSkein { mig511 with copied := 0 :: mig511.copied } = none := by
  refine nextSkein_none _ _ fun k hk => ?_
  simp only [mig511, nmem, List.any_eq_true, List.mem_cons, List.mem_range'_1, beq_iff_eq]
  exact ⟨k, by omega, rfl⟩
/-- Port 0's window onto region 3: its first GiB at pool address 0. -/
theorem witness_PoolWindows :
    (up fabDev ∧ fabDev.mir.role < 2 ∧ addr4 + 63 < (fabDev.port 0).barGib * 2 ^ 30 ∧ fabDev.hasFeature (portNode 0) 16 = true) ∧
    (let m := windowMsg 0 (fabDev.fld 0xA80100 0 18 * 2 ^ 30 + (addr4 + 63)) 1 fabDev.now none
     spanBad m = false ∧ keepsB fabDev m = true ∧ loadOk ((fabDev.countReq m).gather [] (reqLines m)) = true) ∧
    (let m := windowMsg 0 (fabDev.fld 0xA80100 0 18 * 2 ^ 30 + (addr4 + 63)) 1 fabDev.now (some [7])
     spanBad m = false ∧ keepsB fabDev m = true ∧ (fabDev.countReq m).testCounts m = false ∧ ((fabDev.countReq m).scatter m.addr [7] 17).1 = .done) ∧
    (let d := { fabDev with host := { fabDev.host with port0 := {} } }
     up d ∧ 0 < (d.port 0).barGib * 2 ^ 30 ∧ d.hasFeature (portNode 0) 16 = false) ∧
    (let w : WindowWait := { port := 0, addr := addr4, len := 1, data := none, first := 5, nextTry := 5 }
     let d := { fabDev with host := { fabDev.host with windowWaits := [w] } }
     d.host.windowWaits.find? (·.port == 0) = some w ∧ w.nextTry ≤ w.first + msTicks (d.fld 0xA80100 24 8)) ∧
    (12768 ≤ 12768 ∧ fabDev.hasLease (portNode 0) = true) := by
  refine ⟨?_, ?_, ?_, ?_, ?_, ?_⟩ <;> decide +kernel
/-- CLIENT_OPEN by client 8 for 2 and for 64 rings; CLIENT_CLOSE; the device window's ring 128 by its owner, 0 by another. -/
theorem witness_SessionsAndTheDeviceWindow :
    (∀ n ∈ [2, 64], let m := { req 0x39 with src := 8, len := 39, data := natBytes 32 1 ++ natBytes 2 n }
      takes fabDev m ∧ fabDev.openRefused m = none ∧ fabDev.sessionOf m.src = none ∧ field m.data 32 2 = n ∧ (fabDev.ringRange n none).isSome = true ∧
      tget fabDev.host.sessions 511 = none ∧ tget fabDev.host.ending 511 = none) ∧
    (takes fabDev (req 0x3A) ∧ (fabDev.sessionOf 7).isSome = true) ∧
    (∀ op ∈ [1, 3], ∀ ring ∈ [128, 1023], ∀ off ∈ [0, 63], let m := { req op with addr := 0xFFFFF0400000 + ring * 64 + off, data := [0] }
      takes fabDev m ∧ off + m.len + 1 ≤ 64 ∧ (fabDev.ringOwner ring = m.src ↔ ring = 128)) ∧
    (let m := { req 3 with addr := 0xFFFFF0000000 + 128 * 0x1000, len := 3, data := natBytes 4 1 }
     takes fabDev m ∧ fabDev.ringOwner 128 = m.src) := by
  refine ⟨?_, ?_, ?_, ?_⟩ <;> decide +kernel

/-! ## Gather-reduce units, ABORT, movers and translation (chapters 8 to 10) -/

/-- A parameter block of one row of 64 bytes, pooled this way, and its lists. -/
def lookBytes (pool : Nat) : List Byte := bytesOf 40 [(0, 2, 64), (2, 2, 1), (4, 1, pool), (5, 1, 7), (6, 1, 7), (8, 4, 64), (16, 8, addr4), (24, 8, addr4 + 64)]
abbrev lookDesc : List Byte := bytesOf 64 [(8, 2, 64), (10, 2, 1), (12, 1, 3), (13, 1, 7), (14, 1, 7), (16, 4, 64), (24, 8, addr4), (32, 8, addr4 + 64)]
def look0 (c : Caller) : Lookup :=
  { gru := 0, caller := c, node := 7, base := addr4, rowBytes := 64, stride := 64, pool := 0, inFmt := 7, outFmt := 7, idx := [1], weights := [], left := [0] }
def lookDev (l : Lookup) : Dev := { fabDev with gru := { fabDev.gru with lookups := [(5, l)] } }
theorem witness_Lookups :
    (let m := req4 0x30 0 19 (slice (lookBytes 0) 0 20)
     takes fabDev m ∧ gruTakes (fabDev.taken m) (.fab m) ∧ m.addr % 16 = 0 ∧ field m.data 4 1 ≠ 3 ∧ 1 = (m.len + 1 - 16) / 4) ∧
    (∀ p ∈ [0, 3], let m := req4 0x31 0 (if p = 3 then 31 else 23) (lookBytes p)
     takes fabDev m ∧ gruTakes (fabDev.taken m) (.fab m) ∧ m.addr % 16 = 0 ∧ (if field m.data 4 1 = 3 then 32 else 24) ≤ m.len + 1 ∧
     field m.data 24 8 % 4 = 0 ∧ field m.data 16 8 % 4 = 0) ∧
    (let d := begin0 fabDev 0x40 lookDesc
     d.ready 0 0 0x40 lookDesc ∧ admits d 0 false [5] ∧ gruTakes (d.begun 0 0) (.desc 0 0) ∧
     field lookDesc 24 8 % 4 = 0 ∧ field lookDesc 32 8 % 4 = 0) ∧
    (let l := look0 (.fab (req 0x30))
     tget (lookDev l).gru.lookups 5 = some l ∧ l.base + l.idx.getD 0 0 * l.stride + l.rowBytes ≤ 2 ^ 48 ∧ nmem l.left 0 = true ∧ l.reissue = [] ∧
     gotOk ((lookDev l).readRun (some l.node) (l.base + l.idx.getD 0 0 * l.stride) l.rowBytes) = true) ∧
    ([(0, 9)] : List (Nat × Nat)).find? (·.1 == 0) = some (0, 9) := by
  refine ⟨?_, ?_, ?_, ?_, ?_⟩ <;> decide +kernel
theorem witness_Lookups_end : ∀ c ∈ [Caller.desc 0 0, .fab (req 0x30)], let l := { look0 c with left := [], seen := 1 }
    tget (lookDev l).gru.lookups 5 = some l ∧ l.failed = none ∧ l.lists = none ∧ l.missHint = none := by decide +kernel
/-- One FP32 element on the last four bytes of a line, by message and by descriptor. -/
def redMsg : Msg := req4 0x32 60 11 (bytesOf 12 [(0, 1, 7), (2, 1, 7)])
def redDesc : List Byte := bytesOf 64 [(8, 8, addr4 + 60), (16, 1, 7), (18, 1, 7), (20, 4, 4)]
def storedOk (x : Stored × Dev) : Bool := match x.1 with | .done => true | _ => false
theorem witness_ReducesAndStock :
    (takes fabDev redMsg ∧ reduceClamps (field redMsg.data 0 1) (field redMsg.data 2 1) = 0 ∧ 8 < redMsg.len + 1 ∧
      (redMsg.len + 1 - 8) % (fmtBits (reduceVec redMsg) / 8) = 0 ∧ redMsg.addr % (fmtBits (reduceRow redMsg) / 8) = 0 ∧ spanBad redMsg = false ∧
      fabDev.resetting 9 = false ∧ keepsB (fabDev.taken redMsg) redMsg = true ∧
      storedOk ((((fabDev.taken redMsg).dedupOpen redMsg).countReq redMsg).reduceLines redMsg (gruOfHome (homeOf (redMsg.addr / 64))) (reqLines redMsg)) = true) ∧
    (let d := begin0 fabDev 0x41 redDesc
     let m := reduceOf 0xFF0 redDesc (zeros 4)
     d.ready 0 0 0x41 redDesc ∧ admits d 0 true [6] ∧ (nodePort (d.ringOwner 0)).isSome = true ∧ d.startedAt 0 0 ≠ none ∧ field redDesc 20 4 = 4 ∧
     m.addr % (fmtBits (reduceRow m) / 8) = 0 ∧ spanBad m = false ∧ reqLines m = [line4] ∧
     ((d.begun 0 0).reduceCheck 0xFF0 [line4]).1 = none ∧ (((d.begun 0 0).reduceCheck 0xFF0 [line4]).2).lineBlocked line4 = false ∧
     (((d.begun 0 0).reduceCheck 0xFF0 [line4]).2).dirOf line4 = none ∧
     storedOk ((((d.begun 0 0).reduceCheck 0xFF0 [line4]).2).reduceLines m (gruOfHome (homeOf (m.addr / 64))) [line4]) = true) ∧
    (∀ n ∈ [32, 1048576], let b := bytesOf 64 [(48, 4, n)]
     (begin0 fabDev 0x42 b).ready 0 0 0x42 b ∧ admits (begin0 fabDev 0x42 b) 0 false [19] ∧ field b 48 4 = n ∧ n % 32 = 0) := by
  refine ⟨?_, ?_, ?_⟩ <;> decide +kernel
/-- An ABORT at index 0 of ring 0, of this descriptor; ring 0 with these counters and these operations started at index 1. -/
def abortDev (ring idx prod cons : Nat) (ops : List Nat) : Dev :=
  (begin0 fabDev 0x21 (bytesOf 64 [(8, 2, ring), (12, 4, idx)])).setRing 0 fun r =>
    { r with prod := prod, cons := cons, started := r.started ++ ops.map fun op => { idx := 1, bytes := descOf [], op := op, recRing := 1 } }
abbrev abortOk (d : Dev) (ring idx : Nat) : Prop :=
  d.ready 0 0 0x21 (bytesOf 64 [(8, 2, ring), (12, 4, idx)]) ∧ admits d 0 false [] ∧ abortTarget (bytesOf 64 [(8, 2, ring), (12, 4, idx)]) = (ring, idx)
theorem witness_Aborts :
    (abortOk (abortDev 64 0 1 1 []) 64 0 ∧ (abortDev 64 0 1 1 []).ringOwner 64 ≠ (abortDev 64 0 1 1 []).ringOwner 0) ∧
    (abortOk (abortDev 0 1 2 1 []) 0 1 ∧ (2 + 2 ^ 32 - 1) % 2 ^ 32 ≤ ((abortDev 0 1 2 1 []).ring 0).used) ∧
    (∀ ops ∈ [[], [0x41], [0x00]], let d := abortDev 0 1 2 2 ops
      abortOk d 0 1 ∧ (d.ring 0).kind = 0 ∧ (d.ring 0).used < (2 + 2 ^ 32 - 1) % 2 ^ 32 ∧ (d.ring 0).waiting = none ∧
      (ops = [] → (d.begun 0 0).startedAt 0 1 = none) ∧ (ops ≠ [] → ((d.begun 0 0).startedAt 0 1).map (·.op) = ops.head?) ∧
      (d.begun 0 0).claimedEnd 0 1 = false) ∧ abortable 0x41 = true ∧ abortable 0 = false := by decide +kernel

def copyDesc : List Byte := bytesOf 64 [(8, 8, addr4), (16, 8, addr4 + 64), (24, 8, 64)]
def copyBad : List Byte := bytesOf 64 [(8, 8, addr4 + 1), (16, 8, addr4 + 65), (24, 8, 64)]
/-- A mover reading the only step of a COPY within region 3, or of a FILL. -/
def work0 : MoverWork :=
  { ring := 0, idx := 0, node := 0xFF0, kind := 0, src := addr4, dst := addr4 + 64, length := 64, srcKind := 0, dstKind := 0, srcNode := 0, dstNode := 0, xctx := 2, phase := 1 }
def fill0 : MoverWork := { work0 with kind := 1, srcKind := 3 }
def movDev (w : MoverWork) : Dev := { fabDev with mov := { fabDev.mov with movers := [(3, { work := some w })] } }
def wroteOk (x : Nat × Got × Dev) : Bool := match x.2.1 with | .ok _ => true | _ => false
def copyStep (x : Got × Dev) (w : MoverWork) : Bool :=
  match x with
  | (.ok bs, d1) => (d1.mover 3).work == some w && wroteOk ((d1.setWork 3 { w with phase := 2, buffer := bs, wrote := 0, parts := [] }).writeBytes (some w.node) (w.dst + w.dstDone) bs)
  | _ => false
theorem witness_MoverSteps :
    (∀ x ∈ [(false, 0x30), (true, 0x31)], let w := moverOf 0 0 0xFF0 x.1 copyDesc
      let d := begin0 fabDev x.2 copyDesc
      d.ready 0 0 x.2 copyDesc ∧ admits d 0 (w.dstKind == 0) [] ∧ moverClamps x.1 copyDesc = 0 ∧ d.moverRefused w = none) ∧
    (∀ x ∈ [(false, 0x30), (true, 0x31)], (begin0 fabDev x.2 copyBad).moverRefused (moverOf 0 0 0xFF0 x.1 copyBad) = some 0x20) ∧
    ((movDev work0).mover 3).work = some work0 ∧ copyStep ((movDev work0).readRun (some 0xFF0) (work0.src + work0.offset) work0.stepLen) work0 = true ∧
    (let bs := (List.range fill0.stepLen).map fun i => (natBytes 8 fill0.src).getD ((fill0.offset + i) % 8) 0
     ((movDev fill0).mover 3).work = some fill0 ∧
     wroteOk (((movDev fill0).setWork 3 { fill0 with phase := 2, buffer := bs, wrote := 0, parts := [] }).writeBytes (some 0xFF0) (fill0.dst + fill0.dstDone) bs) = true) ∧
    work0.length ≤ work0.dstDone + work0.stepLen ∧ ({ work0 with srcKind := 1 } : MoverWork).srcKind = 1 ∧
    (∀ ph ∈ [1, 2], let w := { work0 with phase := ph, retryAt := some 9 }
      ((movDev w).mover 3).work = some w ∧ w.retryAt = some 9 ∧ w.srcKind ≠ 2) := by decide +kernel

def ctx0 : Xctx := { port := 0, service := 1, faultPath := 2, pasid := 0, pasidEn := false, root := addr4 }
def fault0 (path : Nat) : FaultRec := { ctx := 2, page := 0, read := true, write := false, waiters := [], path := path, port := 0, raised := some 9 }
/-- Context 2 set for port 0, mover 3 waiting for its translation or walking, fault record 255 open. -/
def xDev (m : Mover) (path : Nat) : Dev :=
  { fabDev with mov := { fabDev.mov with xctx := [(2, ctx0)], movers := [(3, m)], faults := [(255, fault0 path)], invs := [(4, { caller := some (.desc 0 0), port := 0, removed := 1, movers := [] })] } }
def walk0 (level : Nat) (t : Option Nat) : Walk := { level := level, table := addr4, va := 0xFFF, write := false, retryAt := t }
theorem witness_Translation :
    (let m : Mover := { work := some work0, atsOut := true }
     ((xDev m 0).mover 3).work = some work0 ∧ (xDev m 0).xctxOf work0.xctx = some ctx0 ∧ ((xDev m 0).mover 3).atsOut = true ∧ ((xDev m 0).mover 3).stale = false) ∧
    (∀ t ∈ [none, some 9], let m : Mover := { work := some work0, walk := some (walk0 4 t) }
     ((xDev m 0).mover 3).walk = some (walk0 4 t) ∧ gotOk (((xDev m 0).till 9).lineRead (some 0xFF0) (((walk0 4 t).table + 8 * bits (walk0 4 t).va (12 + 9 * 3) 9) / 64)) = true ∧
     gotOk ((xDev m 0).lineRead (some 0xFF0) (((walk0 4 t).table + 8 * bits (walk0 4 t).va (12 + 9 * 3) 9) / 64)) = true) ∧
    (∀ e ∈ [1, 3], bit e 0 = true ∧ bits e 52 12 = 0 ∧ bits e 3 9 = 0 ∧ bit e 2 = false ∧ bits e 12 40 * 4096 < 2 ^ 48) ∧
    (1 < (walk0 2 none).level ∧ (walk0 1 none).level = 1 ∧ (walk0 1 none).write = false) ∧
    (tget (xDev {} 0).mov.faults 255 = some (fault0 0) ∧ (fault0 0).path = 0 ∧ (fault0 0).raised = some 9 ∧ (fault0 0).port = 0) ∧
    (∀ r ∈ [0, 1], let b := bytesOf 64 [(8, 2, 255), (10, 1, r)]
     let d := begin0 (xDev {} 1) 0x34 b
     d.ready 0 0 0x34 b ∧ admits d 0 false [15] ∧ field b 8 2 % 256 = 255 ∧ (fault0 1).path = 1 ∧ (d.xctxOf 2).isSome = true ∧
     (d.xctxOf (fault0 1).ctx).map (fun x => portNode x.port) = some (d.ringOwner 0) ∧ field b 10 1 = r) ∧
    (let b := bytesOf 64 [(8, 1, 2), (9, 1, 1), (10, 1, 2), (11, 1, 1), (16, 8, addr4)]
     let d := begin0 (xDev {} 1) 0x32 b
     d.ready 0 0 0x32 b ∧ admits d 0 false [] ∧ field b 9 1 ≤ 2 ∧ field b 10 1 ≤ 2 ∧ field b 11 1 = 1 ∧ d.xctxRefused (portNode 0) (field b 8 1) ctx0 = none) ∧
    (let b := bytesOf 64 [(8, 1, 2), (9, 1, 1)]
     let d := begin0 (xDev {} 1) 0x33 b
     d.ready 0 0 0x33 b ∧ (d.xctxOf (field b 8 1)).map (·.port) = some 0 ∧ bit (field b 9 1) 0 = true) ∧
    (tget (xDev {} 0).mov.invs 4).any (fun v => v.movers == [] && v.caller == some (.desc 0 0)) = true := by
  refine ⟨?_, ?_, ?_, ?_, ?_, ?_, ?_, ?_, ?_⟩ <;> decide +kernel

/-- Region 3 backed, its first skein resident in slot 9 and its second being fetched from drive 1. -/
def farDev : Dev :=
  { fabDev with
    pool := { fabDev.pool with
      regions := [(3, { backed := true, base := 4, count := 2 })]
      emt := [(4, { kind := 2, handle := 3, index := 0, drive := 1 }), (5, { kind := 2, handle := 3, index := 1, drive := 1 })] }
    far := { fabDev.far with
      cached := [(2048, { slot := 9, state := 1 }), (2049, { slot := 10, state := 0 })]
      drives := [(1, { state := 3, port := 0, rid := 0x100 }), (64, { state := 1, port := 1, rid := 0x200, spaces := [space0] })]
      cmds := [(7, { drive := 1, kind := 0, skein := 2049, slot := 0, issued := 5 })] }
    mov := { fabDev.mov with counters := [(2048, 2), (2049, 1)] } }
theorem witness_TierHints : ∀ v ∈ [0, 1, 2], let b := bytesOf 64 [(8, 2, 3), (16, 4, 1), (20, 4, 1), (24, 1, v)]
    let d := begin0 farDev 0x35 b
    d.ready 0 0 0x35 b ∧ admits d 0 false [7] ∧ (d.liveRegion (dHandle b)).any (fun r => r.backed && field b 20 4 ≤ r.count - 1) = true ∧
    d.holds (d.ringOwner 0) (dHandle b) rightR = true ∧ field b 24 1 = v := by decide +kernel

/-! ## The far tier (chapter 11) -/

theorem witness_Drives :
    ((farDev.far.drives.filter (·.2.port == 2)) = []) ∧
    (∀ n ∈ [64, 4096], let b := bytesOf 64 [(48, 4, n)]
     farReady (begin0 farDev 0x50 b) 0 0 0x50 b false ∧ field b 48 4 % 64 = 0) ∧
    (let b := bytesOf 64 [(8, 1, 1), (10, 2, 0x200), (12, 1, 31)]
     let d := begin0 farDev 0x51 b
     farReady d 0 0 0x51 b true ∧ field b 12 1 % 32 = 31 ∧
     (tfind d.far.drives fun _ v => v.port == field b 8 1 % 4 && v.rid == field b 10 2 && v.present).any (fun x => x.1 == 64 &&
       d.adoptRefused 64 x.2 31 (field b 16 4) == none && x.2.space (field b 16 4) == some space0) = true) ∧
    (let b := bytesOf 64 [(12, 1, 1)]
     farReady (begin0 farDev 0x52 b) 0 0 0x52 b true ∧ (farDev.drive 1).map (·.state) = some 3) ∧
    (∀ p ∈ [1, 2], let b := bytesOf 64 [(12, 1, 1), (13, 1, p)]
     farReady (begin0 farDev 0x53 b) 0 0 0x53 b false ∧ field b 13 1 = p) ∧
    (let b := bytesOf 64 [(8, 2, 3)]
     let d := begin0 farDev 0x54 b
     farReady d 0 0 0x54 b false ∧ (d.liveRegion (dHandle b)).any (·.backed) = true ∧ d.holds (d.ringOwner 0) (dHandle b) rightW = true) ∧
    (∀ op ∈ [0x51, 0x52], let d := begin0 fabDev op (descOf [])
     d.ready 0 0 op (descOf []) ∧ admits d 0 false [7] ∧ (nodePort (d.ringOwner 0)).isSome = true ∧ d.hasLease (d.ringOwner 0) = true ∧ d.far.drives = [] ∧
     ({ d with host := { d.host with lease := {} } } : Dev).hasLease (d.ringOwner 0) = false) := by
  refine ⟨?_, ?_, ?_, ?_, ?_, ?_, ?_⟩ <;> decide +kernel
theorem witness_NvmeCommands :
    tget farDev.far.cmds 7 = some { drive := 1, kind := 0, skein := 2049, slot := 0, issued := 5 } ∧ farDev.mir.role < 2 ∧
    (tget farDev.far.cached 2049).any (fun x => x.state == 0 && !x.cancelled) = true ∧ (farDev.drive 1).any (fun v => v.fails + 1 < farDev.fld 0x380000 12 4 && v.state == 3) = true ∧
    (farDev.emtOf (2049 / 512)).kind = 2 ∧ (farDev.driveFailed 1).mir.role < 2 ∧
    (let c : NvmeCmd := { drive := 1, kind := 0, skein := 2049, slot := 0, issued := 5 }
     let d := ({ farDev.cmdOver 7 with far := { (farDev.cmdOver 7).far with drives := tmod (farDev.cmdOver 7).far.drives 1 fun v => { v with fails := 0 } } } : Dev)
     ((d.skeinRead c).farGo).mir.role < 2 ∧ ((d.skeinWritten { c with kind := 1 }).farGo).mir.role < 2) := by decide +kernel
theorem witness_FetchedSkeinsHoldWhatTheDriveHolds : Memory.wf fabDev.mem = true ∧ Memory.wf [(3, 1)] = true := by decide

/-! ## Links and the router (chapters 12 and 13) -/

/-- Link 4 as `k`, its GL_LINK_CTL role as given. -/
def linkDev (role : Nat) (k : Link) : Dev :=
  let d := { fabDev with links := [(4, k)] }
  d.setReg 0x440000 (setBits (setBits (d.reg 0x440000) 28 2 role) 30 1 1)
theorem witness_LinkTraining :
    (∀ st ∈ [1, 2, 3, 4, 5, 6], ((linkDev 0 { state := st }).link 4).state = st) ∧ (linkDev 0 { state := 1 }).lanesOf 4 8 ≠ 0 ∧
    widest ((linkDev 0 { state := 2 }).lanesOf 4 15) ((linkDev 0 { state := 2 }).glFld 4 0 26 2) ≠ 0 ∧
    widest ((linkDev 0 { state := 2 }).lanesOf 4 0) ((linkDev 0 { state := 2 }).glFld 4 0 26 2) = 0 ∧ (linkDev 0 { state := 3 }).ownNode ≠ 0 ∧
    (∀ role ∈ [0, 1, 2], let p : ParamCell := { param0 with role := role, cls := 2, node := 0x200 }
      p.node ≠ fabDev.ownNode ∧ p.node ≠ 0 ∧ p.role = (linkDev role { state := 4 }).glFld 4 0 28 2) := by decide +kernel
theorem witness_LinkBreaks :
    (∀ st ∈ [0, 6, 7], ((linkDev 1 { state := st, replay := [] }).link 4).state = st) ∧
    ((linkDev 1 { state := 6, nextSeq := 1 }).link 4).outstanding ≠ 0 ∧ (linkDev 1 { state := 7 }).glFld 4 0 30 1 ≠ 0 ∧
    administers (linkDev 1 { state := 6 }) 0 ∧ administers (linkDev 1 { state := 6 }) 0xFF0 ∧ ((linkDev 1 { state := 6 }).link 4).peerRole ≠ 2 ∧
    (linkDev 1 { state := 7 }).linkHeld 4 = false := by decide +kernel
/-- A READ of client 7 as one cell. -/
def cellR (seq : Nat) (fec crc : Bool) : Cell :=
  let b := cellBytes (linkField seq 0 0 0) (natBytes 16 (headerOf (req4 1 0 63 [])) ++ zeros 26)
  { bytes := if crc then b else b.take 44 ++ (b.drop 44).map (~~~ ·), fecOk := fec }
theorem witness_LinkCells :
    (((linkDev 1 { state := 5 }).link 4).state ≠ 6 ∧ ((linkDev 1 { state := 6, nextSeq := 2 }).link 4).outstanding = 2 ∧ (1 + 4096 - 0) % 4096 < 2 ∧ 2 ≤ (2 + 4096 - 0) % 4096) ∧
    (let k : Link := { state := 6, nextSeq := 1, encrypted := true, recvGroup := 4, heldCells := [cellR 0 true true], uncovered := 1, openGroup := 1 }
     let d := linkDev 1 k
     let e := (d.applyAck 4 4095 0).link 4
     e.state = 6 ∧ (0 + 4096 - e.oldest) % 4096 < e.outstanding ∧ e.encrypted = true ∧ e.recvGroup = 4 ∧ e.heldCells = [cellR 0 true true] ∧
     (d.link 4).state = 6 ∧ (d.link 4).encrypted = true ∧ (d.link 4).uncovered ≠ 0 ∧ (d.link 4).outstanding ≠ 0 ∧ (d.link 4).openGroup ≠ 0) ∧
    (let k := (linkDev 1 { state := 6 }).link 4
     let m := (linkDev 1 { state := 6 }).cellsMsg [cellR 0 true true]
     k.state = 6 ∧ k.encrypted = false ∧ (0 < (1 + 4096 - k.expected) % 4096 ∧ (2047 + 4096 - k.expected) % 4096 < 2048) ∧ (0 + 4096 - k.expected) % 4096 = 0 ∧
     0 < k.free (0 % 2) ∧ k.partial0 = [] ∧ k.partial1 = [] ∧ m = req4 1 0 63 [] ∧ vcOf m.cls = 0 % 2 ∧ (linkDev 1 { state := 6 }).payloadLen m = some 0 ∧ cellsOf 0 = 1) := by
  refine ⟨?_, ?_, ?_⟩ <;> decide +kernel

/-- A message to node 0x200, which is link 4's partner, or to another; waiting in link 5's input, LOCAL's queue and two outputs. -/
def far1 (dst : Nat) : Msg := { req4 1 0 63 [] with dst := dst }
def queued1 : Queued := { input := 5, m := far1 0x200, at_ := 3 }
def routeDev (fenced : List Nat) : Dev :=
  let d := linkDev 0 { state := 6, peerNode := 0x200 }
  { d with router := { d.router with localq := [far1 0x200], inputs := [(5, far1 0x200)], queues := [(4, [queued1]), (24, [queued1])], fenced := fenced } }
theorem witness_Routing :
    ((routeDev []).router.localq = [far1 0x200] ∧ ((routeDev []).router.inputs.find? fun e => e.1 == 5 && vcOf e.2.cls == vcOf (far1 0x200).cls) = some (5, far1 0x200)) ∧
    ((routeDev []).turnsBack 5 = false ∧ (routeDev []).turnsBack 24 = false ∧ nmem (routeDev [7]).router.fenced (far1 0x200).src = true) ∧
    (nmem (routeDev []).router.fenced (far1 0x200).src = false ∧ ((routeDev []).setReg 0x601280 0).igfAdmits 5 (far1 0x200) = false) ∧
    (let d := routeDev []
     d.igfAdmits 5 (far1 0x200) = true ∧ (d.police 5 (far1 0x200)).1 = none ∧ bit (d.reg (0x604000 + 64 * 5)) 63 = false) ∧
    ((far1 0x100).dst = (routeDev []).ownNode ∧ (far1 0x200).dst ≠ (routeDev []).ownNode ∧ some (far1 0x200).dst ≠ (routeDev []).serviceId ∧
      nmem (routeDev [0x200]).router.fenced 0x200 = true ∧ nmem (routeDev []).router.fenced 0x200 = false ∧ 0x200 ≠ (routeDev []).fld 0x680004 0 12 ∧
      0x201 ≠ (routeDev []).fld 0x680004 0 12) ∧
    ((routeDev []).chooseOut 5 (far1 0x200) = some 4 ∧ (routeDev []).chooseOut 5 (far1 0x201) = none) ∧
    ((routeDev []).queue 24 = [queued1] ∧ ((routeDev []).link 4).state = 6 ∧ (routeDev []).sendNext 4 = some (0, queued1) ∧
      ((routeDev []).queue 4)[0]? = some queued1) ∧
    (administers (routeDev []) 0 ∧ (routeDev []).router.fenceCmd = none ∧ (1 ≤ 0xEFF ∧ 1 ≤ 1)) ∧
    (∀ on ∈ [true, false], let d := { routeDev [] with router := { (routeDev []).router with fenceCmd := some (on, 9), queues := [] } }
      (d.router.queues.any fun o => o.1 < 24 && o.2.any fun q => !q.m.mc && q.m.dst == 9) = false ∧
      (let p := d.pruneQueued 9
       let e : Dev := { p with router := { p.router with fenced := nadd p.router.fenced 9, fenceCmd := none, lastNode := 9, fenceEpoch := (p.router.fenceEpoch + 1) % 2 ^ 32 } }
       (e.nodeGone 9).sessionOf 9 = none)) := by
  refine ⟨?_, ?_, ?_, ?_, ?_, ?_, ?_, ?_, ?_⟩ <;> decide +kernel

/-- A request of this purpose outstanding to client 7 with tag 9; a response to it. -/
def ansDev (purpose resends : Nat) (again : Bool) : Dev :=
  { fabDev with fab := { fabDev.fab with devReqs := [(snoopKey, { snoopReq purpose resends with again := again })] } }
def rsp (op cls : Nat) : Msg := { cls := cls, opcode := op, src := 7, dst := 0x100, tag := 9 }
theorem witness_AnswersAndTimeouts :
    (fabDev.pm.state ≠ 3 ∧ (rsp 0 2).dst ≠ 0xFFF ∧ fabDev.matchReq (rsp 0 2).src (rsp 0 2).tag = none) ∧
    (∀ p ∈ [0, 1, 3, 4, 5], (ansDev p 0 false).matchReq 7 9 = some (snoopKey, snoopReq p 0) ∧ (snoopReq p 0).purpose = p ∧
      (∀ op ∈ [stDone, stRetry, stDenied], badResponse (rsp op 2) (snoopReq p 0) = false)) ∧ badResponse (rsp 0x0F 2) (snoopReq 4 0) = true ∧
    stDenied ≠ stRetry ∧ stDenied ≠ stDone ∧
    (∀ p ∈ [0, 2, 4], tget (ansDev p 0 true).fab.devReqs snoopKey = some { snoopReq p 0 with again := true } ∧
      tget (ansDev p 15 false).fab.devReqs snoopKey = some (snoopReq p 15) ∧ fabDev.fld 0x180104 20 4 ≤ 15) ∧
    keysRise (ansDev 0 0 false).fab.devReqs = true ∧ nodePort (fabDev.ringOwner 0) = some 0 ∧ ((fabDev.ring 1).kind ≠ 0 ∧ (fabDev.ring 1).state = 1) ∧
    (fabDev.host.outputs.any fun o => o.caller == .desc 0 0) = false ∧
    (let w := { work0 with srcKind := 1 }
     ((movDev w).mover 3).work = some w ∧ w.phase = 1 ∧ w.retryAt = none) := by decide +kernel

/-! ## The mirror (chapter 14) -/

/-- A MIRROR link to the partner, the pair's IDs (service, partner) and the unit's role and phase. -/
def mirDev (service partner : Nat) (k : MirrorSt) : Dev :=
  let d := linkDev 2 { state := 6, peerRole := 2, peerNode := partner }
  let d := (d.setReg 0x680000 (setBits (d.reg 0x680000) 31 1 1)).setReg 0x680004 (service + partner * 65536)
  { d with mir := k }
/-- The same with no link up, or with no region. -/
def mirAlone : Dev := { mirDev 0xF00 0x200 {} with links := [] }
def mirEmpty (partner : Nat) : Dev := { mirDev 0xF00 partner {} with pool := { dev0.pool with regions := [] } }
theorem witness_Pairing :
    (∀ d ∈ [mirDev 0xF00 0x200 {}, mirDev 0xEFF 0x200 {}, mirDev 0xFEF 0x100 {}, mirAlone, mirEmpty 0x200, mirEmpty 0x0FF],
      d.fld 0x680000 31 1 = 1 ∧ d.sec.state ≠ 0 ∧ d.sec.state ≠ 5 ∧ d.boot.ready = true ∧ d.mir.role = 0) ∧
    (mirDev 0xEFF 0x200 {}).mirIdsOk = false ∧ (mirDev 0xFEF 0x100 {}).mirIdsOk = false ∧ (mirDev 0xFEF 0xEFF {}).mirIdsOk = true ∧
    (mirAlone.mirIdsOk = true ∧ mirAlone.mirrorLinks = []) ∧
    ((mirDev 0xF00 0x200 {}).mirIdsOk = true ∧ (mirDev 0xF00 0x200 {}).mirrorLinks ≠ [] ∧ (mirDev 0xF00 0x200 {}).pool.regions ≠ []) ∧
    ((mirEmpty 0x200).mirIdsOk = true ∧ (mirEmpty 0x200).mirrorLinks ≠ [] ∧ (mirEmpty 0x200).pool.regions = [] ∧
      (mirEmpty 0x200).ownNode < (mirEmpty 0x200).partner) ∧
    ((mirEmpty 0x0FF).mirIdsOk = true ∧ (mirEmpty 0x0FF).mirrorLinks ≠ [] ∧ (mirEmpty 0x0FF).partner ≤ (mirEmpty 0x0FF).ownNode) := by decide +kernel
/-- A mirror message with this TERM. -/
def mirMsg (op term : Nat) (data : List Byte) : Msg := { req op with cls := if op = 0x45 then 2 else 0, addr := term * 65536, data := data }
abbrev actD : Dev := mirDev 0xF00 0x200 { role := 1, term := 3 }
abbrev stbD : Dev := mirDev 0xF00 0x200 { role := 2, term := 3, applied := 7 }
/-- A record that writes 8 bytes at region 3. -/
def wRec (seq : Nat) : Msg := mirMsg 0x40 3 (natBytes 8 seq ++ zeros 8 ++ natBytes 8 addr4 ++ natBytes 8 5)
theorem witness_Replication :
    (∀ op ∈ [0x40, 0x41, 0x42, 0x43], fromPartner stbD 4 op (mirMsg op 3 (natBytes 8 7))) ∧
    (field (wRec 7).data 0 8 = 7 ∧ 7 ≤ stbD.mir.applied) ∧ stbD.mir.applied + 1 < field (wRec 9).data 0 8 ∧
    (stbD.mir.ahead.any fun x => field x.data 0 8 == 9 || field x.data 0 8 == 8) = false ∧
    (field (wRec 8).data 0 8 = stbD.mir.applied + 1 ∧ stbD.mir.ahead = [] ∧
      ((withMir (stbD.taken (wRec 8)) fun k => { k with ahead := [wRec 8] }).applyRecord (wRec 8) false).any (fun x =>
        x.2.mir.applied == 7 && x.2.mir.ahead == [wRec 8]) = true) ∧
    (mirTerm (mirMsg 0x40 2 []) < stbD.mir.term ∧ stbD.mir.term < mirTerm (mirMsg 0x40 4 [])) ∧
    (fabDev.glFld 4 0 28 2 ≠ 2 ∨ (linkDev 0 {}).glFld 4 0 28 2 ≠ 2) ∧
    (field (wRec 8).data 16 8 = addr4 ∧ inWindow addr4 = false ∧ ((wRec 8).data.drop 24).length = 8 ∧
      (stbD.host.rings.find? fun r => r.2.kind == 1 && ((wRec 8).data.drop 24).length == 32 && r.2.base + r.2.prod % r.2.slots * 32 == addr4) = none ∧
      addr4 % 64 + 8 ≤ 64 ∧ (stbD.emtOf (addr4 / 2 ^ 25)).kind = 1) := by decide +kernel
def repRec (r : Option Msg) : RepRec := { seq := 5, epoch := 0, link := 4, m := wRec 5, release := r }
def ackD (r : Option Msg) : Dev := mirDev 0xF00 0x200 { role := 1, term := 3, unacked := [repRec r] }
def ackMsg : Msg := mirMsg 0x45 0 (natBytes 8 5 ++ natBytes 4 3)
theorem witness_Acknowledgement :
    fromPartner (ackD (some (rsp 0 2))) 4 0x45 ackMsg ∧ field ackMsg.data 0 8 = 5 ∧
    (((forEach ((ackD (some (rsp 0 2))).mir.unacked.takeWhile (·.seq ≤ 5)) (fun r d => d.repAcked r (if r.seq = 5 then msgDetail ackMsg else 0))
      (withMir ((ackD (some (rsp 0 2))).taken ackMsg) fun k => { k with unacked := k.unacked.dropWhile (·.seq ≤ 5) })).installReady).digestsDue.holdOver).mir.handoverDue = false ∧
    (repRec (some (rsp 0 2))).release = some (rsp 0 2) ∧ (repRec none).release = none ∧ (repRec none).completes = [] ∧ 0x24 ≠ 0 ∧
    (0 < (ackD none).mir.unacked.length ∧ (ackD none).mir.unacked.getLast? = some (repRec none)) := by decide +kernel
def digMsg (k n c : Nat) : Msg := mirMsg 0x44 3 (natBytes 8 k ++ natBytes 8 n ++ natBytes 8 c)
/-- Active, at epoch 20, with a record of epoch 0 unacknowledged or none. -/
def epoD (u : List RepRec) (missed : Nat) : Dev := { mirDev 0xF00 0x200 { role := 1, term := 3, missed := missed, unacked := u, digestNext := 100, stepDue := true } with now := 20 * 204800 }
theorem witness_DigestsAndTime :
    (∀ m ∈ [digMsg 9 0 0, digMsg 9 1 0], fromPartner actD 4 0x44 m ∧ actD.mir.role = 1 ∧ actD.mir.phase = 0 ∧ actD.mir.missedNext ≤ field m.data 0 8) ∧
    (actD.digestOf 9 = (field (digMsg 9 0 0).data 8 8, field (digMsg 9 0 0).data 16 8) ∧ actD.digestOf 9 ≠ (field (digMsg 9 1 0).data 8 8, field (digMsg 9 1 0).data 16 8)) ∧
    (∀ n ∈ [1, 2], (epoD [] n).digesting = true ∧ (epoD [] n).mir.missedNext ≤ 0 ∧ tget (epoD [] n).mir.peerDigests 0 = none ∧ ((epoD [] n).mir.missed = 2 ↔ n = 2)) ∧
    fabDev.mir.role = 0 ∧
    (let d := ((epoD [repRec none] 0).till (((epoD [repRec none] 0).epochNow + 1) * 204800)).digestsDue
     d.mirrors = true ∧ (d.mir.unacked.any fun r => r.epoch + 3 ≤ d.epochNow) = true) ∧
    (((epoD [] 0).till (((epoD [] 0).epochNow + 1) * 204800)).digestsDue.mir.unacked = []) ∧
    (let m := mirMsg 0x46 3 (natBytes 8 addr4 ++ [0])
     fromPartner actD 4 0x46 m ∧ field m.data 0 8 / 64 * 64 = addr4 ∧ ((actD.taken m).keyOf addr4).isSome = true ∧ field m.data 8 1 = 0) ∧
    (let m := mirMsg 0x46 3 (natBytes 8 0 ++ [0])
     fromPartner actD 4 0x46 m ∧ (actD.taken m).keyOf 0 = none ∧ ((actD.taken m).emtOf 0).kind ≠ 2) ∧
    ((actD.keyOf addr4).any fun x => (actD.readLine (addr4 / 2 ^ 25) x addr4).1.isSome) = true ∧
    (∀ there ∈ [0, 5], let m := mirMsg 0x47 3 (natBytes 8 9 ++ natBytes 8 there)
     fromPartner (epoD [] 0) 4 0x47 m ∧ field m.data 8 8 = there ∧ (epoD [] 0).mir.stepDue = true) := by
  refine ⟨?_, ?_, ?_, ?_, ?_, ?_, ?_, ?_, ?_, ?_⟩ <;> decide +kernel
def witD (k : MirrorSt) : Dev := { mirDev 0xF00 0x200 k with host := fabDev.host }
theorem witness_WitnessCommands :
    (let d := (witD { role := 1, term := 3 }).wakeLatch 1
     d.pm.state ≠ 3 ∧ d.boot.ready = true ∧ d.hasLease (portNode 0) = true ∧ d.hasFeature (portNode 0) 8 = true ∧ d.mir.term = 3 ∧ 4 ≠ d.mir.term) ∧
    (∀ k ∈ [({ role := 2, phase := 2 } : MirrorSt), { role := 2, handover := true }], (witD k).mir.role = 2 ∧ ((witD k).mir.phase = 2 ∨ (witD k).mir.handover = true)) ∧
    ((witD { role := 2 }).mir.phase ≠ 2 ∧ (witD { role := 2 }).mir.handover = false) ∧ (witD { role := 1, phase := 1 }).mir.phase = 1 ∧
    (witD { role := 1, unacked := [repRec none] }).mir.unacked ≠ [] ∧ ((witD { role := 2 }).mir.ahead = [] ∧ (witD { role := 2 }).mir.starts = []) ∧
    (witD { role := 1 }).mir.unacked = [] := by decide +kernel

/-! ## Stacks and error correction (chapters 15 and 16) -/

def acc0 : Access := { id := 1, a := 0, kind := 0, source := 0, arrived := 0 }
def stkDev (u : Stack) : Dev := { fabDev with stk := { units := [(5, u)] } }
theorem witness_StackAccesses :
    (∀ n ∈ [0, 1, 7, 8], let d := stkDev { state := 2, owed := if n = 0 then [] else [(0, n)] }
      (d.stack 5).state = 2 ∧ d.owedBy 5 0 = n ∧ ((drawn d).setStack 5 fun u => { u with badCommands := 0 }).nextAccess 5 0 = none) ∧
    (let d := stkDev { state := 2, queue := [acc0] }
     d.owedBy 5 0 < 8 ∧ (((drawn d).setStack 5 fun u => { u with badCommands := 0 }).nextAccess 5 0).isSome = true ∧
     ((drawn d).setStack 5 fun u => { u with badCommands := 0 }).makesUp 5 0 = false) ∧
    (let d := stkDev { state := 2, owed := [(0, 1)], queue := [{ acc0 with source := 2, arrived := 10 ^ 9 }] }
     d.makesUp 5 0 = true ∧ (d.nextAccess 5 0).any (·.2) = false ∧ (d.stack 5).queue.all fun y => d.accessClass 5 y == 0) ∧
    (let l : List RowTrack := List.replicate 16 { row := 1, count := 2, candidate := 3 }
     (l.find? (·.row == 1)).isSome = true ∧ l.find? (·.row == 9) = none ∧ l.length = 16 ∧ (l.take 15).length < 16) ∧
    (let t : RowTrack := { row := 1, count := 2, candidate := 3, votes := 0 }
     t.candidate = 3 ∧ t.candidate ≠ 4 ∧ t.votes = 0 ∧ ({ t with votes := 1 } : RowTrack).votes ≠ 0) := by decide +kernel
theorem witness_StackUpkeep :
    (∀ m ∈ [0, 1], ((stkDev { state := 2, modeNow := m }).stack 5).state = 2 ∧ ((stkDev { state := 2, modeNow := m }).stack 5).modeNow = m) ∧
    (∀ q ∈ [[], [acc0]], (((stkDev { state := 2, queue := q }).stack 5).queue.any fun x => bankOf x.a == 0 && 2 ≤ (stkDev { state := 2, queue := q }).accessClass 5 x) = !q.isEmpty) ∧
    (∀ x ∈ [(0, 85, 0), (0, 86, 1), (1, 84, 1), (1, 83, 0), (1, 96, 2), (2, 94, 2)], thermNext x.1 x.2.1 = x.2.2) ∧
    (let d := stkDev { state := 2, unreadableSince := some 0, tempAt := 10 ^ 9 }
     (d.stack 5).unreadableSince = some 0 ∧ 0 + msTicks 10 ≤ ((d.till ((d.stack 5).tempAt + msTicks 1)).setStack 5 fun u => { u with tempAt := max d.now (u.tempAt + msTicks 1) }).now) ∧
    (let d := stkDev { state := 2 }
     d.fld (memOff 5 4) 0 10 ≠ 0 ∧ 255 < 256 ∧ (d.stack 5).owed = [] ∧ (d.stack 5).queue = []) ∧
    (let t : Throttle := { origin := 7, bank := 0, row := 0, expiry := 9, lastAct := 0 }
     (∃ x ∈ [t], x.expiry = 9) ∧ ∀ x ∈ [t], 9 ≤ x.expiry) := by
  refine ⟨?_, ?_, ?_, ?_, ?_, ?_⟩ <;> decide +kernel
theorem witness_ScrubbingAndTestModes :
    (let d := { fabDev with stk := { units := (List.range 6).map fun k => (k, { state := 2 }) } }
     let p := d.place 4 0 0
     (d.stack p.1).state = 2 ∧ (d.lineAt p.1 p.2).isSome = true ∧ zeros 72 ≠ []) ∧
    (∀ a ∈ [0, 20481 * 65536 - 1], let d := { stkDev { state := 2 } with ecc := { fabDev.ecc with pos := [(5, a)] } }
      (d.stack 5).state = 2 ∧ d.fld 0x900000 0 1 ≠ 0 ∧ tgetD d.ecc.pos 5 0 = a ∧ d.ecc.odd = [] ∧ (a + 1 < d.scrubLines ↔ a = 0)) ∧
    (administers fabDev 0 ∧ fabDev.eccBarred = false ∧ bits 0x100 8 8 ≠ 0) ∧ (0x900100 ≤ 0x900147 ∧ 0x900147 < 0x900148 ∧ keysRise fabDev.regs = true) := by
  refine ⟨?_, ?_, ?_, ?_⟩ <;> decide +kernel

/-! ## The security core (chapter 17) -/

theorem begin0_ready (d : Dev) (op : Nat) (b : List Byte) : (begin0 d op b).ready 0 0 op b := by
  have : tget (begin0 d op b).host.rings 0 = some { d.ring 0 with started := [{ idx := 0, bytes := b, op := op, recRing := 1 }], cons := 1, prod := 1 } := by
    simp only [begin0, Dev.setRing]; exact tget_tput_same _ _ _
  simp [Dev.ready, Dev.startedAt, Dev.ring, tgetD, this]
/-- In this state of the security core, with no region and no session. -/
def secDev (st op : Nat) (b : List Byte) : Dev := { begin0 dev0 op b with sec := { dev0.sec with state := st } }
def tenants (lo hi : Nat) : List Byte := descOf [(8, 2, lo), (10, 2, hi), (12, 1, 3)]
theorem witness_Sealing :
    (∀ b ∈ [tenants 1 1, tenants 0xEFF 0xEFF], leased (secDev 1 0x62 b) 0 0 0x62 true [9] b ∧ (secDev 1 0x62 b).pool.regions = [] ∧
      (secDev 1 0x62 b).host.sessions = [] ∧ (secDev 1 0x62 b).mirrors = false ∧ 1 ≤ field b 8 2 % 4096 ∧ field b 8 2 % 4096 ≤ 0xEFF ∧
      1 ≤ field b 10 2 % 4096 ∧ field b 10 2 % 4096 ≤ 0xEFF) ∧
    (leased (secDev 3 0x62 (tenants 1 1)) 0 0 0x62 true [9] (tenants 1 1) ∧ (secDev 3 0x62 (tenants 1 1)).sec.state ≠ 1) ∧
    (∀ st ∈ [2, 3], (secDev st 0x64 (bytesOf 64 [(8, 8, addr4), (16, 8, addr4), (24, 8, 65536)])).ready 0 0 0x64 (bytesOf 64 [(8, 8, addr4), (16, 8, addr4), (24, 8, 65536)]) ∧
      admits (secDev st 0x64 []) 0 true [9] ∧ clampGrain 65536 65536 274877906944 65536 = 65536) ∧
    (secDev 3 0x64 []).moverRefused (sealLoadOf 0 0 0xFF0 (bytesOf 64 [(8, 8, addr4), (16, 8, addr4), (24, 8, 65536)])) = none ∧
    (∀ st ∈ [1, 2, 3], leased (secDev st 0x65 []) 0 0 0x65 true [9] [] ∧ (secDev st 0x65 []).mirrors = false ∧ (secDev st 0x65 []).sec.state = st) ∧
    ((secDev 4 0x65 []).far.cmds.any fun c => c.2.kind == 3 && c.2.skein != noSkein) = false ∧
    ((secDev 4 0x65 []).coh.txns = [] ∧ (secDev 4 0x65 []).pool.parked = []) := by
  refine ⟨?_, ?_, ?_, ?_, ?_, ?_, ?_⟩ <;> decide +kernel
/-- KEY_RELEASE with the check value that is right, or with another one: whatever the free values are. -/
theorem witness_Sealing_key (l : List Byte) :
    (∃ b, (secDev 2 0x63 b).ready 0 0 0x63 b ∧ (sha256 l).take 8 = slice b 16 8) ∧ (∃ b, (secDev 2 0x63 b).ready 0 0 0x63 b ∧ (sha256 l).take 8 ≠ slice b 16 8) ∧
    admits (secDev 2 0x63 []) 0 false [9] ∧ (secDev 2 0x63 []).hasLease 0xFF0 = true := by
  have hr : ∀ b, (secDev 2 0x63 b).ready 0 0 0x63 b := fun b => begin0_ready dev0 0x63 b
  have h8 : ((sha256 l).take 8).length = 8 := by simp [sha256_length]
  have hs : ∀ x : List Byte, x.length = 8 → slice (zeros 16 ++ (x ++ zeros 40)) 16 8 = x := fun x hx => by
    have := slice_middle (zeros 16) x (zeros 40)
    rwa [hx] at this
  refine ⟨⟨_, hr _, (hs _ h8).symm⟩, ⟨zeros 16 ++ ([((sha256 l).take 8).headD 0 + 1, 0, 0, 0, 0, 0, 0, 0] ++ zeros 40), hr _, ?_⟩, by decide +kernel, by decide +kernel⟩
  rw [hs _ rfl]
  intro h
  have h2 := congrArg (fun x => List.headD x (0#8)) h
  simp at h2
theorem witness_AttestationAndKeys :
    (∀ st ∈ [1, 5], let b := bytesOf 64 [(48, 4, 6144)]
      (secDev st 0x60 b).ready 0 0 0x60 b ∧ attestLen b = field b 48 4) ∧ ([] : List AttestReq).length < 64 ∧ 64 ≤ (List.replicate 64 ({ ring := 0, idx := 0, since := 0 } : AttestReq)).length ∧
    (let d := secDev 1 0x60 []
     let e := { d with sec := { d.sec with attests := [{ ring := 0, idx := 0, since := 0 }] } }
     e.secBusy = false ∧ e.boot.inReset = [] ∧ (e.startedAt 0 0).isSome = true ∧ e.sec.lowerTree = false ∧ ({ e.sec with lowerTree := true } : SecSt).lowNext < 1048576 ∧
     State.reset.fuse.topUsed < 32768) ∧
    (secDev 1 0x62 []).secBusy = true ∧ ((secDev 1 0x61 []).ready 0 0 0x61 [] ∧ admits (secDev 1 0x61 []) 0 false []) ∧
    (∀ st ∈ [1, 2, 3], ∀ n ∈ [0, 1], let b := bytesOf 64 [(8, 1, 3), (9, 1, n)]
      (secDev st 0x66 b).ready 0 0 0x66 b ∧ admits (secDev st 0x66 b) 0 false [] ∧ nodePort ((secDev st 0x66 b).ringOwner 0) = some 0 ∧ field b 9 1 = n) := by
  refine ⟨?_, ?_, ?_, ?_, ?_, ?_, ?_⟩ <;> decide +kernel
theorem witness_FirmwareAndDebug :
    (∀ a ∈ [0, 1], ∀ n ∈ [128, 15728640], let b := bytesOf 64 [(8, 1, a), (48, 4, n)]
      leased (secDev 1 0x67 b) 0 0 0x67 false [] b ∧ clampGrain 64 128 15728640 (field b 48 4) = field b 48 4 ∧ field b 8 1 = a) ∧
    State.reset.fuse.svn ≤ 0 ∧ ({ State.reset.fuse with svn := 1 } : Fuses).svn > 0 ∧ (secDev 1 0x67 []).sec.staged = false ∧
    leased (secDev 1 0x68 []) 0 0 0x68 false [] [] ∧ (secDev 1 0x68 []).tokenRefused State.reset.fuse [] true = some 0x88 ∧ administers dev0 0xFF0 ∧
    (∀ x ∈ [0, 5], ({ dev0.sec with debugExpiry := x } : SecSt).debugExpiry = x) := by
  refine ⟨?_, ?_, ?_, ?_, ?_, ?_, ?_, ?_⟩ <;> decide +kernel
/-- A signature of one level with the type codes of LM-OTS N32 W8 and LMS H5. -/
def sig0 : List Byte := zeros 8 ++ [0, 0, 0, 4] ++ zeros 1120 ++ [0, 0, 0, 5] ++ zeros 160
/-- A token for this part, of each level and with or without a lifetime, whatever the part's ID is. -/
def token (id lv life : Nat) : List Byte :=
  (ascii "KDBG" ++ [1, BitVec.ofNat 8 lv, 0, 0]) ++ (natBytes 8 id ++ (zeros 32 ++ natBytes 4 life ++ zeros 32 ++ natBytes 4 1296 ++ zeros 40 ++ sig0))
theorem witness_DebugTokens_token : ∀ x ∈ [(1, 0), (1, 1), (2, 0), (2, 1), (3, 0)],
    ({ secDev 1 0x68 [] with sec := { dev0.sec with debugNonce := zeros 32 } } : Dev).tokenRefused State.reset.fuse (token Config.deviceId x.1 x.2) true = none ∧
    field (token Config.deviceId x.1 x.2) 5 1 = x.1 ∧ field (token Config.deviceId x.1 x.2) 48 4 = x.2 := by
  intro x hx
  have hl : 1 ≤ x.1 ∧ x.1 ≤ 3 := by revert x; decide
  have h : ∀ x ∈ [(1, 0), (1, 1), (2, 0), (2, 1), (3, 0)], (token Config.deviceId x.1 x.2).take 4 = ascii "KDBG" ∧
      field (token Config.deviceId x.1 x.2) 4 1 = 1 ∧ field (token Config.deviceId x.1 x.2) 5 1 = x.1 ∧
      slice (token Config.deviceId x.1 x.2) 16 32 = slice (zeros 32) 0 32 ∧ field (token Config.deviceId x.1 x.2) 48 4 = x.2 ∧
      field (token Config.deviceId x.1 x.2) 84 4 = 1296 ∧ slice (token Config.deviceId x.1 x.2) 128 1296 = sig0 := by decide +kernel
  obtain ⟨a, b, c, e, g, k, l⟩ := h x hx
  have f : field (token Config.deviceId x.1 x.2) 8 8 = Config.deviceId % 2 ^ 64 := by
    have := slice_middle (ascii "KDBG" ++ [1, BitVec.ofNat 8 x.1, 0, 0]) (natBytes 8 Config.deviceId)
      (zeros 32 ++ natBytes 4 x.2 ++ zeros 32 ++ natBytes 4 1296 ++ zeros 40 ++ sig0)
    have hl : (ascii "KDBG" ++ [1, BitVec.ofNat 8 x.1, 0, 0]).length = 8 := rfl
    rw [natBytes_length, hl] at this
    rw [field, token, this, leNat_natBytes]; rfl
  have hs : hssShaped sig0 = true := by decide +kernel
  have hp : (secDev 1 0x68 []).pool.regions = [] := rfl
  have ho : State.reset.fuse.openBarred = false := rfl
  have hd : dev0.sec.state = 1 := rfl
  refine ⟨?_, c, g⟩
  simp only [Dev.tokenRefused, a, b, c, e, f, k, l, hs, hp, ho, hd]
  rcases (by omega : x.1 = 1 ∨ x.1 = 2 ∨ x.1 = 3) with h | h | h <;> simp [h]

/-! ## Power, clocks and ageing (chapters 18 and 19) -/

/-- A descriptor of the power manager at the head of its queue, the power state changed. -/
def pmDev (op : Nat) (b : List Byte) (f : PowerSt → PowerSt) : Dev :=
  let d := begin0 dev0 op b
  { d with pm := f { d.pm with queue := [(0, 0)] } }
def psDesc (t ms : Nat) : List Byte := bytesOf 64 [(8, 1, t), (12, 4, ms)]
theorem witness_ProfilesAndPowerStates :
    served (pmDev 0x71 (psDesc 3 0) id) 0 0 0x71 (psDesc 3 0) ∧
    (∀ x ∈ [(1, 0), (2, 0), (2, 86400000)], served (pmDev 0x70 (psDesc x.1 x.2) id) 0 0 0x70 (psDesc x.1 x.2) ∧ field (psDesc x.1 x.2) 12 4 = x.2 ∧
      field (psDesc x.1 x.2) 8 1 = x.1 ∧ ((pmDev 0x70 (psDesc x.1 x.2) id).begun 0 0).entryBarred = false ∧ (pmDev 0x70 (psDesc x.1 x.2) id).mir.role = 0) ∧
    ({ pmDev 0x70 [] id with regs := [(0x20018, 0)] } : Dev).fld 0x20018 0 2 = 0 ∧ ({ pmDev 0x70 [] id with mir := { role := 1 } } : Dev).mir.role ≠ 0 ∧
    ({ pmDev 0x70 [] id with sec := { dev0.sec with state := 4 } } : Dev).entryBarred = true ∧
    ((pmDev 0x70 [] id).test.loopback = none ∧ (pmDev 0x70 [] id).jobs.jobs = []) ∧
    (let d := { dev0 with pm := { dev0.pm with state := 4, entry := some (2, 5, 0, .desc 0 0) } }
     d.pm.entry = some (2, 5, 0, .desc 0 0) ∧ d.pm.state = 4 ∧ d.pm.entryLate = false ∧ d.entryDrained 2 = true ∧
     ({ d with coh := { d.coh with recalls := [(0, {})] } } : Dev).entryDrained 2 = false) ∧
    (∀ st ∈ [1, 5], (pmDev 0 [] fun k => { k with state := st }).pm.state = st) ∧
    (let d := (linkDev 1 {}).setReg 0x410000 (1 * 2 ^ 28)
     d.glFld 4 0 28 2 ≠ 0 ∧ ((List.range 24).filter fun k => d.glFld k 0 28 2 != 0).length ≤ 12) := by
  refine ⟨?_, ?_, ?_, ?_, ?_, ?_, ?_, ?_, ?_⟩ <;> decide +kernel
def srcDev (st reg : Nat) : Dev := { pmDev 0 [] (fun k => { k with state := st, wakeAt := some 9 }) with regs := [(0x20018, reg)] }
theorem witness_WakeSources :
    (∀ src ∈ [1, 2], (srcDev 2 0).wakeSource src = true ∧ (srcDev 3 0).wakeSource src = false) ∧ (srcDev 3 3).wakeSource 3 = true ∧ (srcDev 3 3).wakeSource 4 = true ∧
    (srcDev 3 0).wakeSource 3 = false ∧ (∀ st ∈ [0, 1, 2, 3, 4, 5], (srcDev st 0).pm.state = st ∧ (srcDev st 0).pm.wakeDue = 0 ∧ (srcDev st 0).pm.wakeAt = some 9) ∧
    (let d := { linkDev 1 { state := 6 } with pm := { dev0.pm with state := 2 } }
     d.pm.state = 2 ∧ (d.link 4).state = 6 ∧ d.queue 4 = []) ∧ (linkDev 1 {}).pm.state ≠ 2 := by
  refine ⟨?_, ?_, ?_, ?_, ?_, ?_, ?_⟩ <;> decide +kernel
theorem witness_DamperRailsAndTrips :
    (let d := pmDev 0 [] id
     let n := d.limitW
     d.pm.state = 1 ∧ n < n + 1 ∧ n ≤ n ∧ d.pm.depth = 0 ∧ n * 98 < n * 100 ∧ 0 * 100 ≤ n * 98 ∧ d.pm.releaseAt ≤ d.now) ∧
    ((pmDev 0 [] fun k => { k with depth := 16, releaseAt := 10 ^ 10 }).pm.depth ≠ 0 ∧ (pmDev 0 [] fun k => { k with depth := 16, releaseAt := 10 ^ 10 }).now < 10 ^ 10) ∧
    ((pmDev 0 [] id).pm.aonGood = true ∧ (pmDev 0 [] id).pm.alert = false ∧ (pmDev 0 [] id).pm.junction ≤ (pmDev 0 [] id).fld 0x2000C 24 8) ∧
    (∀ r ∈ [0, 2, 6], let d := pmDev 0 [] fun k => { k with regsNow := [(0, 2 ^ 31 + r * 2 ^ 24)] }
      d.boot.ready = true ∧ d.railListed r = true ∧ (decide (d.fld 0x2000C 24 8 < 0)) = d.pm.throttle) ∧
    (∀ st ∈ [0, 1, 3], (pmDev 0 [] fun k => { k with state := st }).pm.state = st) ∧ (114 < 115 ∧ 115 ≤ 115) := by
  refine ⟨?_, ?_, ?_, ?_, ?_, ?_⟩ <;> decide +kernel
def clkDev (rootOk : Bool) (div : Nat) : Dev := pmDev 0 [] fun k => { k with rootLocked := rootOk, divisors := if div = 0 then [] else [(24, div)], oscDone := true }
theorem witness_ClocksAndPower :
    (State.reset.dev.pm.aonGood = false ∧ dev0.pm.aonGood = true ∧ dev0.pm.oscDone = false) ∧
    ((clkDev false 0).pm.oscDone = true ∧ (clkDev false 0).pm.rootLocked = false ∧ (clkDev false 0).pm.state ≠ 3) ∧
    ((clkDev true 0).pm.rootLocked = true ∧ (clkDev true 0).links = [] ∧ (clkDev true 0).pm.state ≠ 0 ∧ ({ (clkDev true 0).pm with state := 0 } : PowerSt).state = 0) ∧
    (∀ i ∈ [0, 52], i < 53) ∧
    ((clkDev true 0).islandOn 24 = true ∧ tgetD (clkDev true 0).pm.divisors 24 0 = 0 ∧ islandDiv 24 ≠ 0) ∧ tgetD (clkDev true 64).pm.divisors 24 0 ≠ islandDiv 24 ∧
    tgetD (clkDev true (islandDiv 24)).pm.divisors 24 0 = islandDiv 24 ∧
    (∃ i < 53, (clkDev true 0).islandOn i = false) := by
  refine ⟨?_, ?_, ?_, ?_, ?_, ?_, ?_, ?_⟩ <;> decide +kernel
theorem witness_GaugesAndPlans :
    (∀ g ∈ [0, 991, 992, 1119, 1120, 1143], g < 1144) ∧ ((pmDev 0 [] id).pm.state = 1 ∧ ({ pmDev 0 [] id with age := { dev0.age with worst := [(992, 5)] } } : Dev).age.worst ≠ []) ∧
    dev0.coreWanted ≤ dev0.coreBound ∧ dev0.pm.aonGood = true ∧ (dev0.boot.ready = true ∧ dev0.pmHead = none ∧ dev0.pm.state = 1) ∧
    (let d := { dev0 with age := { dev0.age with startPlan := true } }
     d.age.startPlan = true ∧ d.pm.state = 1 ∧ d.pmHead = none) := by
  refine ⟨?_, ?_, ?_, ?_, ?_, ?_⟩ <;> decide +kernel
def retDev (due : List Nat) : Dev := { ((linkDev 2 { state := 6 }).setReg 0x430000 (2 * 2 ^ 28)).setReg 0x40000 2 with links := [(3, { state := 6 }), (4, { state := 6 })], age := { dev0.age with retrainDue := due } }
theorem witness_PlanDescriptors :
    (∀ a ∈ [0, 1], let b := bytesOf 64 [(8, 1, a)]
      served (pmDev 0x74 b id) 0 0 0x74 b ∧ field b 8 1 = a) ∧
    (∀ op ∈ [0x75, 0x76], (begin0 dev0 op []).ready 0 0 op [] ∧ admits (begin0 dev0 op []) 0 false [] ∧ (nodePort ((begin0 dev0 op []).ringOwner 0)).isSome = true) ∧
    ((retDev [4]).fld 0x40000 1 1 ≠ 0 ∧ (retDev [4]).pm.state = 1 ∧ (retDev [4]).age.retraining = none) ∧
    ((List.range 24).find? fun l => nmem (retDev [4]).age.retrainDue l && (retDev [4]).retrainable l) = some 4 ∧
    ((List.range 24).find? fun l => nmem (retDev []).age.retrainDue l && (retDev []).retrainable l) = none ∧ (retDev []).glFld 4 0 28 2 = 2 ∧
    ({} : Plan).refQ.length = 6 := by
  refine ⟨?_, ?_, ?_, ?_, ?_, ?_, ?_⟩ <;> decide +kernel
/-- A client's AGE_RECORD on ring 128, in the personality that refuses it. -/
def cliDev : Dev :=
  let d := fabDev.setRing 128 fun r => { r with started := [{ idx := 0, bytes := [], op := 0x76, recRing := 129 }] }
  { d with sec := { d.sec with state := 1 } }
theorem witness_PlanDescriptors_client :
    cliDev.ready 128 0 0x76 [] ∧ admits cliDev 128 false [] ∧ nodePort (cliDev.ringOwner 128) = none ∧ cliDev.personality = 1 := by decide +kernel

/-! ## Events, interrupts and counters (chapter 20) -/

def evtDev (up6 : Bool) : Dev :=
  { dev0 with
    stk := { units := if up6 then [(0, { state := 2 })] else [] }
    host := { dev0.host with rings := [] }
    evt := { dev0.evt with held := [{ time := 5, source := 0x0A00 }] } }
theorem witness_TheJournal :
    (evtDev true).stacksServing = true ∧ (evtDev false).stacksServing = false ∧
    ((evtDev true).evt.buffer = [] ∧ (evtDev true).evt.held = [{ time := 5, source := 0x0A00 }] ∧ (evtDev true).host.rings = [] ∧ (evtDev true).host.sessions = [] ∧
      (evtDev true).evt.lost = false) ∧ ([] : List Event).length < 256 ∧ 256 ≤ (List.replicate 256 ({ time := 0, source := 0 } : Event)).length ∧
    (([{ time := 1, source := 0 }, { time := 2, source := 0 }] : List Event).Pairwise fun a b => a.time ≤ b.time) := by decide +kernel
/-- Input 255 in this state, enabled for core 7 at the highest priority. -/
def irqDev (v : Nat) (k : CoreSt) : Dev := (dev0.setInput 255 v).setCore 7 fun _ => k
theorem witness_CoreInterrupts :
    (∀ v ∈ [0, 1, 2, 3], (irqDev v {}).inputState 255 = v) ∧ keysRise (irqDev 1 {}).irq.state = true ∧ (irqDev 0 {}).nextInput 7 = none ∧
    (((irqDev 1 { again := [255] }).core 7).again = [255] ∧ (irqDev 1 { again := [255] }).nextInput 7 = some 255) ∧
    (((irqDev 3 {}).core 7).handlers.any (·.input == 255)) = false ∧
    (∀ v ∈ [2, 3], (((irqDev v { handlers := [{ input := 255, fast := false, prio := 3 }] }).core 7).handlers.any (·.input == 255)) = true) := by decide +kernel
/-- An input whose configuration lets it qualify. -/
def qualDev : Dev := { irqDev 1 {} with regs := [(0x50000 + 4 * 255, 2 ^ 32 - 1)] }
theorem witness_CoreInterrupts_take : qualDev.qualifies 7 255 = true ∧ qualDev.nextInput 7 = some 255 ∧ (qualDev.core 7).again = [] := by decide +kernel
def boardDev (b : BoardInput) : Dev := dev0.setBoard 5 b
theorem witness_BoardInputs :
    (∀ i ∈ [0, 5], (dev0.boardInput i).latched = false ∧ (dev0.boardInput i).rearmAt ≤ dev0.now) ∧ dev0.pm.aonGood = true ∧
    ((boardDev { latched := true }).boardInput 5).latched = true ∧ (boardDev {}).now < ((boardDev { rearmAt := 10 ^ 9 + 1 }).boardInput 5).rearmAt ∧
    0 < dev0.fld (0x50500 + 4 * 5) 0 8 ∧ bit (srcDev 3 1 |>.reg 0x20018) 0 = true ∧ dev0.boot.ready = true := by decide +kernel
def evtDesc : List Byte := bytesOf 64 [(8, 2, 2), (10, 1, 1), (11, 1, 1), (16, 2, 5), (18, 2, 5), (48, 4, 32)]
theorem witness_EventsAndCounters :
    (∀ op ∈ [0x78, 0x79], (begin0 dev0 op evtDesc).ready 0 0 op evtDesc ∧ admits (begin0 dev0 op evtDesc) 0 false [15]) ∧
    (((begin0 dev0 0x78 evtDesc).ring 2).kind = 2 ∧ (begin0 dev0 0x78 evtDesc).ringOwner 2 = (begin0 dev0 0x78 evtDesc).ringOwner 0 ∧ field evtDesc 8 2 % 1024 = 2 ∧
      field evtDesc 10 1 = 1 ∧ field evtDesc 11 1 ≤ 1 ∧ field evtDesc 16 2 ≤ field evtDesc 18 2 ∧ clampGrain 32 32 2097152 (field evtDesc 48 4) = field evtDesc 48 4) ∧
    ((begin0 dev0 0x78 evtDesc).ring 0).kind ≠ 2 ∧ (nodePort 7 = none ∧ dev0.personality = 1 ∧ 0xFFF ≠ 7) ∧
    (∀ n ∈ [16, 16384], let b := bytesOf 64 [(48, 4, n)]
      (begin0 dev0 0x7A b).ready 0 0 0x7A b ∧ admits (begin0 dev0 0x7A b) 0 false [] ∧ clampGrain 16 16 16384 (field b 48 4) = field b 48 4) ∧
    (∀ x ∈ [(1, 0, 1), (0, 1023, 1), (0, 0, 1024)], let b := bytesOf 64 [(8, 1, x.1), (16, 2, x.2.1), (18, 2, x.2.2)]
      (begin0 dev0 0x7B b).ready 0 0 0x7B b ∧ (bit (field b 8 1) 0 = true ↔ x.1 = 1) ∧ field b 16 2 % 1024 = x.2.1 ∧ field b 18 2 = x.2.2 ∧ x.2.1 + x.2.2 ≤ 1024) ∧
    (dev0.coarse 7 = true ∧ dev0.coarse 0 = false) := by
  refine ⟨?_, ?_, ?_, ?_, ?_, ?_, ?_⟩ <;> decide +kernel

/-! ## Start-up, resets and testing (chapters 21 to 23) -/

def offDev (phase : Nat) : Dev := { dev0 with boot := { dev0.boot with phase := phase, ready := false, perst0 := true, perst1 := true }, pm := { dev0.pm with state := 0 } }
def bootB (slots : Bool) : BootInfo := { stacksOk := [0, 1, 2, 5], d2dFailed := [], slotAOk := slots, slotBOk := slots, castonRows := [], castonSets := [], cacheSets := [], drives := [] }
theorem witness_StartUp :
    ((offDev 0).boot.phase = 0 ∧ (offDev 0).pm.aonGood = true ∧ (offDev 0).pm.rootLocked = true ∧ (offDev 0).pm.tripped = false ∧ (offDev 0).pm.powerFault = false ∧
      (offDev 0).allPerst = true) ∧
    (bootSlot State.reset.fuse (offDev 0).bootBegin.sec (bootB false) = none ∧ bootSlot State.reset.fuse (offDev 0).bootBegin.sec (bootB true) = some 0 ∧
      (bootB true).stacksOk.length ≤ 4 ∧ ∀ k ∈ (bootB true).stacksOk, k < 6) ∧
    dev0.allPerst = false ∧ (∀ p ∈ [1, 7, 8], (offDev p).boot.phase = p) ∧
    (dev0.boot.perst0 = false ∧ ({ dev0.boot with perst1 := true } : BootSt).perst1 = true ∧ dev0.boot.perst1 = false ∧ dev0.pm.state = 1 ∧ dev0.boot.ready = true) := by
  refine ⟨?_, ?_, ?_, ?_, ?_⟩ <;> decide +kernel
theorem witness_PartialResets :
    (dev0.running = true ∧ (dev0.boot.inReset.any (·.1 == 12)) = false ∧ dev0.test.loopback = none ∧ administers dev0 0) ∧
    ((offDev 0).running = false ∧ 12 < 13) ∧ (([(12, 5)] : List (Nat × Nat)).any (·.1 == 12)) = true ∧
    (dev0.boot.phase ≠ 0 ∧ nmem dev0.boot.d2dOff 15 = false ∧ 5 ≤ dev0.modulesUp (15 / 8)) ∧ (evtDev true).stacksServing = true ∧
    (dev0.host.sessions = [] ∧ fabDev.host.sessions ≠ [] ∧ dev0.links = []) := by
  refine ⟨?_, ?_, ?_, ?_, ?_, ?_⟩ <;> decide +kernel
/-- A loopback of link 4 at depth 5, where it is allowed or not; running, or none; a self-test. -/
def loopV : Nat := 5 * 2 ^ 24 + 4 * 2 ^ 16 + 1
theorem witness_LoopbacksAndSelfTests :
    (administers fabDev 0 ∧ fabDev.test.loopback = none ∧ fabDev.test.bist = none) ∧
    (let d := (linkDev 0 { state := 6 }).loopFields loopV
     d.loopAllowed (d.fld 0xA00000 28 2) (d.fld 0xA00000 24 4) (d.fld 0xA00000 16 8) = true) ∧
    (let d := (linkDev 1 { state := 6 }).loopFields loopV
     d.loopAllowed (d.fld 0xA00000 28 2) (d.fld 0xA00000 24 4) (d.fld 0xA00000 16 8) = false) ∧
    (let t : TestSt := { loopback := some (2, 2, 0, 9, 0), bist := some 15 }
     t.loopback.isSome = true ∧ t.loopback ≠ none ∧ (2 = 2 ∧ 2 < 3) ∧ t.bist = some 15) ∧
    (∀ st ∈ [psRetired, psIdle], (((dev0.setPanel 15 fun q => { q with state := st }).panel 15).state = 5 ↔ st = 5) ∧ dev0.boot.testEn = false) := by
  refine ⟨?_, ?_, ?_, ?_, ?_⟩ <;> decide +kernel
theorem witness_TestAccess :
    (∀ r ∈ tapRows, r.2.1 < 8) ∧ tapRows ≠ [] ∧ (dev0.boot.testEn = false ∧ dev0.sec.debugLevel ≠ 2 ∧ dev0.pm.aonGood = true ∧ State.reset.dev.pm.aonGood = false) ∧
    ({ dev0.boot with testEn := true } : BootSt).testEn = true ∧ ({ dev0.sec with debugLevel := 2 } : SecSt).debugLevel = 2 ∧ (0 < 6 ∧ 5 < 6 ∧ 0xFF < 0x100) := by
  refine ⟨?_, by simp [tapRows], ?_, ?_, ?_, ?_⟩ <;> decide +kernel

/-! ## The block -/

theorem witness_StepsAreCommands :
    ({ stateOf dev0 with pending := [.wake 1] } : State).pending = .wake 1 :: [] ∧ (stateOf dev0).pending = [] ∧ (stateOf dev0).dev.pm.tbFromRef = false ∧
    (stateOf (clkDev true 0)).dev.pm.aonGood = true ∧ ({ dev0.pm with tbFromRef := true } : PowerSt).tbFromRef = true ∧ State.reset.pending = [] ∧
    State.reset.dev.pm.aonGood = false := by decide +kernel
theorem witness_FusesOnlyBurn : State.reset.fuse.legal ∧ step State.reset = .next State.reset :=
  ⟨by unfold Fuses.legal; decide +kernel, rfl⟩
theorem witness_ResetState : (regAt (0x200400 % 0x2000000)).isSome = true := by decide +kernel
/-- A whole line; its last byte; of a line that can be read and of a poisoned one. -/
theorem witness_LinesReadBack :
    Memory.wf fabDev.mem = true ∧ keysRise fabDev.ecc.odd = true ∧ ((zeros 64).length = 64 ∧ 64 % 64 = 0) ∧
    (([5] : List Byte).length < 64 ∧ 63 % 64 + ([5] : List Byte).length ≤ 64) ∧ ((fabDev.readLine 4 63 (addr4 + 63)).1.map (·.length)) = some 64 ∧
    (({ fabDev with poison := [0] } : Dev).readLine 4 63 (addr4 + 63)).1 = none ∧ 64 / 64 ≠ 63 / 64 := by
  refine ⟨?_, ?_, ?_, ?_, ?_, ?_, ?_⟩ <;> decide +kernel
theorem witness_EveryLineHasItsPlace : 2 ^ 19 - 1 < 2 ^ 19 ∧ fabDev.retired = none := by decide +kernel
theorem witness_HeadersReadBack :
    let m : Msg := { cls := 3, opcode := 255, src := 4095, dst := 4095, tag := 4095, addr := 2 ^ 48 - 1, len := 255, xfer := 1023, tc := 7, last := true, ord := true, mc := true, data := [1] }
    m.dst < 4096 ∧ m.src < 4096 ∧ m.cls < 4 ∧ m.opcode < 256 ∧ m.tag < 4096 ∧ m.len < 256 ∧ m.addr < 2 ^ 48 ∧ m.xfer < 1024 ∧ m.tc < 8 := by decide
theorem witness_EncodedLinesDecode : (zeros 64).length = 64 := by decide

/-! ## Effects: one step each, expected by hand from the rule named -/

/-- The device after a command, and a step that takes the command from the queue. -/
def after (c : Instr) (d : Dev) : Option Dev :=
  match step { stateOf d with pending := [c] } with
  | .next t => if t.pending = [] then some t.dev else none
  | _ => none
/-- What a command tells the outside, newest first. -/
def said (c : Instr) (d : Dev) : Option (List Out) := (after c d).map (·.out)
/-- R168: 0x7FFFFFFF + 1 wraps, and a destination that is a source as well takes the sum. -/
theorem test_add_wraps :
    (after (.saluAdd 0 { f12 with dst := 1 }) (stitchAt 1 0 { f12 with dst := 1 } { sregs := [(1, 0x7FFFFFFF), (2, 1)] })).map (fun d =>
      ((d.stitch 0).s 1, (d.stitch 0).pc)) = some (0x80000000, 1) := by decide +kernel
/-- R77, Table 3.15, R80: NOP completes DONE; the record of DESC_ID 0x1234 on ring 1, PHASE 1 at byte 31's top bit of its turn. -/
theorem test_nop_record :
    ((after (.nop 0 0) (begin0 dev0 0 (descOf [(2, 2, 0x1234)]))).bind fun d => d.out.head?).any (fun o => match o with
      | .hostWrite p _ a b => p == 0 && a == 0 && b.length == 32 && field b 0 2 == 0x1234
      | _ => false) = true := by decide +kernel
/-- R91: READ of the last byte of a line whose memory holds 0xA5 there. -/
theorem test_read_last_byte :
    (said (.read (req4 1 63 0 [])) { fabDev with mem := [(63, 0xA5)] }).any (fun l => l.any fun o => match o with
      | .msg m => m.cls == 3 && m.opcode == 0 && m.dst == 7 && m.tag == 5 && slice m.data 0 1 == [0xA5]
      | _ => false) = true := by decide +kernel
/-- R93: FETCH_UMAX of 5 on 9 answers 9 and leaves 9; SWAP of 5 leaves 5. -/
theorem test_atomics :
    (after (.fetchUmax (req4 0x0E 0 3 (natBytes 4 5))) { fabDev with mem := [(0, 9)] }).map (fun d => memGet d.mem 0) = some 9 ∧
    (after (.swap (req4 0x0C 0 3 (natBytes 4 5))) { fabDev with mem := [(0, 9)] }).map (fun d => memGet d.mem 0) = some 5 := by decide +kernel
/-- R91: a WRITE that crosses its line stores nothing and is DENIED (3) 0x21. -/
theorem test_write_crossing :
    (after (.write (req4 3 63 1 [1, 2])) fabDev).map (fun d => (d.mem, d.out.map fun o => match o with
      | .msg m => (m.opcode, msgDetail m)
      | _ => (99, 0))) = some ([], [(stDenied, 0x21)]) := by decide +kernel
/-- R115: RD_OWN of a line nobody holds records its requester as owner. -/
theorem test_rd_own :
    (after (.rdOwn (req4 0x11 0 63 [])) (cohDev none 1)).map (fun d => (d.dirOf line4).map fun e => (e.state, e.ptrs)) = some (some (3, [7])) := by
  decide +kernel
/-- R64: RENEW by port 0 is taken 1 s after the last command taken, and starts 5 s again; by port 1 it changes nothing. -/
theorem test_lease :
    (after (.renew 0) (leaseDev 1)).map (fun d => d.host.lease.expiry) = some (10 ^ 9 + 4000000000) ∧ after (.renew 1) (leaseDev 1) = some (leaseDev 1) := by
  decide +kernel
/-- R54: GRANT to client 0xEFF of all rights stores them under the region's generation. -/
theorem test_grant :
    (after (.grant 0 0) (poolDev 0x0A (descOf [(8, 2, 3), (10, 2, 0xEFF), (12, 1, 31)]) id)).map (fun d => (d.grantOf 0xEFF 3).map (·.rights)) = some (some 31) := by
  decide +kernel
/-- R236: COPY of one line within region 3, once its mover holds it. -/
theorem test_copy :
    (after (.moverStepData 3 .failed) { movDev work0 with mem := [(0, 0x5A)] }).map (fun d => memGet d.mem 64) = some 0x5A := by decide +kernel
/-- R275: a cell out of its turn is not accepted: the next expected stays 0. -/
theorem test_cell_out_of_turn :
    (after (.cellReceive 4 (cellR 1 true true)) (linkDev 1 { state := 6 })).map (fun d => (d.link 4).expected) = some 0 ∧
    (after (.cellReceive 4 (cellR 0 true true)) (linkDev 1 { state := 6 })).map (fun d => ((d.link 4).expected, d.router.inputs.length)) = some (1, 1) := by
  decide +kernel
/-- R317: PROMOTE of a SUSPECT standby makes it Active ALONE with the next TERM; with another TERM nothing changes. -/
theorem test_promote :
    (after (.promote 0 3) (witD { role := 2, phase := 2, term := 3 })).map (fun d => (d.mir.role, d.mir.phase, d.mir.term)) = some (1, 3, 4) ∧
    (after (.promote 0 2) (witD { role := 2, phase := 2, term := 3 })).map (fun d => (d.mir.role, d.mir.term)) = some (2, 3) := by decide +kernel
/-- R422: SWI of bits 0 and 7 raises inputs 248 and 255. -/
theorem test_swi : (after (.irqSwi 0x81) dev0).map (fun d => (List.range 8).map fun j => d.inputState (248 + j)) = some [1, 0, 0, 0, 0, 0, 0, 1] := by decide +kernel
/-- R461: EXTEST is loaded under TEST_EN. -/
theorem test_extest :
    (after .extest { dev0 with boot := { dev0.boot with testEn := true } }).map (fun d => (d.test.ir, d.test.pins)) = some (3, 1) := by decide +kernel
/-- The check value of CRC-32C, and FIPS 180-4's digest of "abc". -/
theorem test_sums :
    crc32c (ascii "123456789") = 0xE3069283 ∧
    sha256 (ascii "abc") = [0xBA, 0x78, 0x16, 0xBF, 0x8F, 0x01, 0xCF, 0xEA, 0x41, 0x41, 0x40, 0xDE, 0x5D, 0xAE, 0x22, 0x23,
      0xB0, 0x03, 0x61, 0xA3, 0x96, 0x17, 0x7A, 0x9C, 0xB4, 0x10, 0xFF, 0x61, 0xF2, 0x00, 0x15, 0xAD] := by decide +kernel

/-! ### A pattern image of one panel: one code block, one instruction, HALT (R185, R186) -/

def imgBlank : List Byte :=
  bytesOf 1304 ([(0, 4, 0x31544E4B), (4, 2, 1), (6, 2, 1), (40, 4, 1304), (68, 4, 256), (72, 4, 1048), (76, 4, 1783480955), (256, 4, 1),
    (264, 4, 1040), (268, 2, 1), (1296, 8, 0x1C00000000000000)] ++ (List.range 7).map fun i => (64 + 16 * i, 1, i + 1))
/-- Its digest, computed outside the model's decision (SHA-256 of the image with the field zero). -/
def img : List Byte := overlay imgBlank 176 (natBytes 32 3437228682717658193484974293678954220913255111481326310509538712114235698106)
/-- The image stands at the start of region 3. -/
def withImage (d : Dev) : Dev := { withPool d with mem := (img.zipIdx.filter fun e => e.1 != 0).map fun e => (e.2, e.1) }

def jobDesc : List Byte := descOf [(8, 2, 0), (10, 1, 1), (16, 8, addr4), (24, 4, 1344)]
def jobDev : Dev :=
  begin0 { withImage dev0 with jobs := { contexts := [(0, { owner := 0xFF0 })] }, regs := [(0x200400, 16 + 256 * 65536)], pm := { dev0.pm with profile := 3 } } 0x20 jobDesc
def job0 : Job := jobOf 0xFF0 0 0 jobDesc
/-- The bytes that were read pass the header checks; a job of no stock pattern asks the catalogue nothing. -/
def headFine (x : Got × Dev) (j : Job) : Bool :=
  match x with | (.ok h, d) => headCheck h (j.supplied h) j.panels (d.features j.owner) == 0 | _ => false
theorem jobHead_own (d : Dev) (j : Job) (h : List Byte) (hs : j.stock = false) :
    d.jobHead j h = headCheck h (j.supplied h) j.panels (d.features j.owner) := by
  simp only [Dev.jobHead, hs]; split <;> simp
theorem witness_JobsAreAdmitted :
    (jobDev.ready 0 0 0x20 jobDesc ∧ admits jobDev 0 true [4] ∧ job0.stock = false ∧ jobClamps jobDesc = 0 ∧ jobDev.jobRefused job0 = none ∧
      jobDev.job 65535 = none) ∧ headFine ({ jobDev.begun 0 0 with free := jobDev.free + 1 }.imageRead job0 256) job0 = true := by decide +kernel
def gotIs (k : Nat) (x : Got × Dev) : Bool := match x.1 with | .ok _ => k == 0 | .again _ => k == 1 | .no _ _ => k == 2
/-- No context; a header of zeros; one that is poisoned; one that a client's cache owns. -/
theorem witness_JobsAreAdmitted_ends :
    (let d := { jobDev with jobs := {} }
     d.ready 0 0 0x20 jobDesc ∧ admits d 0 true [4] ∧ (tfind d.jobs.jobs fun _ j => j.ring == 0 && j.idx == 0) = none ∧ (d.jobRefused job0).isSome = true) ∧
    (∀ x ∈ [(0, { jobDev with mem := [] }), (2, { jobDev with poison := [0] }), (1, lineHeld (addr4 / 64) jobDev)],
      x.2.ready 0 0 0x20 jobDesc ∧ x.2.jobRefused job0 = none ∧ admits x.2 0 true [4] ∧ (tfind x.2.jobs.jobs fun _ j => j.ring == 0 && j.idx == 0) = none ∧
      gotIs x.1 (({ x.2.begun 0 0 with free := x.2.free + 1, jobs := { x.2.jobs with jobs := tput x.2.jobs.jobs 65535 { job0 with quota := x.2.quotaOf job0.owner } } } : Dev).setDone 0 0 1 []
        |>.imageRead { job0 with quota := x.2.quotaOf job0.owner } 256) = true) ∧
    headCheck (zeros 256) (job0.supplied (zeros 256)) job0.panels 0 ≠ 0 := by
  refine ⟨?_, ?_, ?_⟩ <;> decide +kernel

/-- That job queued, with every panel idle. -/
def placeDev : Dev :=
  { jobDev with
    jobs := { jobDev.jobs with jobs := [(1, { job0 with quota := 16 })], queue := [1] }
    knit := { panels := (List.range 16).map fun p => (p, { state := psIdle }) } }
def placed : Job := { job0 with quota := 16, mask := [0] }
def readIs (x : Got × Dev) (b : List Byte) : Bool := match x with | (.ok h, _) => h == b | _ => false
theorem witness_JobsArePlaced :
    placeDev.resetting 8 = false ∧ placeDev.nextJob = some (1, { job0 with quota := 16 }) ∧ placeDev.placeOn job0 = some [0] ∧
    headFine (placeDev.imageRead placed 256) placed = true ∧ readIs (placeDev.imageRead placed 1304) img = true ∧ imgBytes img = 1304 ∧
    placed.supplied img = 1344 ∧ placeDev.signatureOk placed img = true ∧ placeDev.segsLost placed = none ∧
    boundCheck (placeDev.jobSlots placed) img = none ∧ readIs (placeDev.readRun (some 0xFF0) placed.argAddr placed.argLen) [] = true := by decide +kernel
/-- No job; no idle panel; a header, then an image, that fails a check. -/
theorem witness_JobsArePlaced_waits :
    (jobDev.resetting 8 = false ∧ jobDev.nextJob = none) ∧
    (let d := { placeDev with knit := { panels := (List.range 16).map fun p => (p, { state := psRunning }) } }
     d.nextJob = some (1, { job0 with quota := 16 }) ∧ d.placeOn { job0 with quota := 16 } = none) ∧
    (let d := { placeDev with mem := [] }
     d.placeOn { job0 with quota := 16 } = some [0] ∧ readIs (d.imageRead placed 256) (zeros 256) = true ∧ headCheck (zeros 256) (placed.supplied (zeros 256)) placed.panels 0 ≠ 0) ∧
    (let d := { placeDev with mem := memWrite placeDev.mem (0 + 1300) [1] }
     headFine (d.imageRead placed 256) placed = true ∧ gotIs 0 (d.imageRead placed 1304) = true) := by
  refine ⟨?_, ?_, ?_, ?_⟩ <;> decide +kernel
/-- The CRC's fold with the register evaluated at every byte, so that the kernel does not nest it. -/
def crcStrict : List Byte → Nat → Nat
  | [], c => c
  | b :: l, 0 => crcStrict l (crc32cByte 0 b)
  | b :: l, c + 1 => crcStrict l (crc32cByte (c + 1) b)
theorem crcStrict_eq (l : List Byte) : ∀ c, crcStrict l c = l.foldl crc32cByte c := by
  induction l with
  | nil => intro c; simp [crcStrict]
  | cons b l ih => intro c; cases c <;> simp [crcStrict, ih]
theorem img_crc : crcOk img = true := by
  have h : (secs img).all (fun i => Nat.xor (crcStrict (sec img i) 0xFFFFFFFF) 0xFFFFFFFF == secCrc img i) = true := by decide +kernel
  unfold crcOk crc32c
  simp only [← crcStrict_eq]
  exact h
theorem img_digest : digestOk img = true := by decide +kernel
/-- The image passes every check. -/
theorem image_in_order : imageCheck img 1344 1 (placeDev.features 0xFF0) [0] true = 0 := by
  have h0 : headCheck img 1344 1 (placeDev.features 0xFF0) = 0 := by decide +kernel
  have h1 : sectionsOk img = true := by decide +kernel
  have h2 : (codeOk img && dataOk img && Machine.chanOk img [0] && streamOk img && segOk img && paramOk img) = true := by decide +kernel
  have h3 : imgContig img = false := by decide +kernel
  simp only [Bool.and_eq_true] at h2
  simp [imageCheck, h0, h1, h2, h3, img_crc, img_digest]

/-- Job 1 with every stitch of its panel halted, or with one of them blocked. -/
def jobE : Job := { job1 with progressAt := 5 }
def haltedDev : Dev :=
  { dev1 with jobs := { dev1.jobs with jobs := [(1, jobE)] }, knit := { dev1.knit with stitches := (List.range' 0 512).map fun k => (k, { run := .halted }) } }
def blockedDev : Dev :=
  { dev1 with jobs := { dev1.jobs with jobs := [(1, jobE)] }, knit := { dev1.knit with stitches := [(511, { run := .blocked })] } }
theorem halted_jobDone : haltedDev.jobDone jobE = true := by
  have h : ∀ k ∈ jobE.stitches, k < 512 := by decide +kernel
  have hp : jobE.ports.all (haltedDev.portDone jobE) = true := by decide +kernel
  have hs : jobE.stitches.all (fun k => (haltedDev.stitch k).run == .halted) = true := by
    rw [List.all_eq_true]
    intro k hk
    have : tget haltedDev.knit.stitches k = some { run := .halted } := tget_range _ 512 0 k (by omega) (by have := h k hk; omega)
    simp [Dev.stitch, tgetD, this]
  simp [Dev.jobDone, hs, hp]
theorem witness_JobsEnd :
    (haltedDev.runningJob 1 = some jobE ∧ haltedDev.jobDone jobE = true) ∧ jobE.limitMs ≠ 0 ∧ blockedDev.runningJob 1 = some jobE ∧
    blockedDev.jobDone jobE = false ∧ jobE.ports.any blockedDev.portBusy = false ∧
    jobE.stitches.find? (fun k => (blockedDev.stitch k).run == .blocked) = some 511 :=
  ⟨⟨by decide +kernel, halted_jobDone⟩, by decide +kernel⟩
/-- A job with no limit; one with nothing blocked, that runs on. -/
theorem witness_JobsEnd_runs :
    ({ jobE with limitMs := 0 } : Job).limitMs = 0 ∧ jobE.stock = false ∧ dev1.runningJob 1 = some job1 ∧
    (let d : Dev := { dev1 with jobs := { dev1.jobs with jobs := [(1, jobE)] } }
     d.runningJob 1 = some jobE ∧ d.jobDone jobE = false ∧ (jobE.ports.any d.portBusy) = false ∧
     jobE.stitches.find? (fun k => (d.stitch k).run == .blocked) = none) := by decide +kernel
theorem witness_EndedJobsLetTheirPanelsGo : 0 ∈ job1.mask := by decide

/-! ## Further witnesses, chapter by chapter -/

theorem witness_RegisterWritesTakeEffect :
    hostUp dev0 0 ∧ ({ dev0 with boot := { dev0.boot with perst0 := true } } : Dev).portUp 0 = false ∧
    dev0.hasLease (portNode 0) = true ∧ (leaseDev 2).hasLease (portNode 0) = false ∧ hostUp (leaseDev 2) 0 ∧
    (∀ x ∈ [(0x200400, false), (0x601000, true)], (regAt x.1).any (fun r => r.wide == x.2) = true ∧ x.1 % 8 = 0 ∧ x.1 < 0x2000000 ∧ inRings x.1 = false ∧
      inMsix x.1 = false ∧ leaseFree x.1 = false) ∧
    ((regUpper 0x601004).isSome = true ∧ regAt 0x601004 = none ∧ inRings 0x601004 = false ∧ inMsix 0x601004 = false ∧ leaseFree 0x601004 = false) ∧
    (∀ h ∈ [[], [(halfKey (portNode 0) 0x601000, 7)]], let d := { dev0 with halves := h }
     hostUp d 0 ∧ d.hasLease (portNode 0) = true ∧ (tget d.halves (halfKey (portNode 0) (0x601004 - 4)) = none ↔ h = [])) ∧
    (∀ x ∈ [(3, 0), (8, 4), (4, 0x1FFFFFE), (4, 0x2400000)], inBar2 x.2 = false ∧ inCfg x.2 = false ∧
      ((x.1 ≠ 4 ∧ x.1 ≠ 8) ∨ x.2 % x.1 ≠ 0 ∨ 0x2000000 ≤ x.2)) ∧ bar2Base + 1023 * 0x1000 < 0x2400000 := by
  refine ⟨?_, ?_, ?_, ?_, ?_, ?_, ?_, ?_, ?_, ?_⟩ <;> decide +kernel
theorem witness_RegisterWritesStore_clamps :
    ownWrite reg2.base = false ∧ (∀ v ∈ [(1, 0), (255, 0), (0, 1)], dev0.crossClamp 0xFF0 reg2 0 v.1 = v.1 ∧ (reg2.store 5 v.1).2 = v.2) := by decide +kernel
theorem witness_ReadsAnswerAndClear_more :
    ({ dev0 with boot := { dev0.boot with perst0 := true } } : Dev).portUp 0 = false ∧ hostUp dev0 0 ∧ 0x200408 % 8 = 0 ∧ inBar2 0x2000000 = true ∧
    inBar2 0x23FFFFF = true ∧ (∀ x ∈ [(3, 0), (8, 4), (4, 2), (4, 0x2400000)], inBar2 x.2 = false ∧ inCfg x.2 = false ∧
      ((x.1 ≠ 4 ∧ x.1 ≠ 8) ∨ x.2 % x.1 ≠ 0 ∨ 0x2000000 ≤ x.2)) := by decide +kernel
theorem witness_AdministrationLease_early :
    let d := { leaseDev 1 with host := { (leaseDev 1).host with lease := { (leaseDev 1).host.lease with lastAccepted := 10 ^ 9 - 799999999 } } }
    hostUp d 0 ∧ d.leaseHolder = 1 ∧ d.now < d.host.lease.lastAccepted + 800000000 ∧ d.leaseHolder ≠ 0 ∧ (leaseDev 0).host.lease.holder = 0 := by decide +kernel
theorem witness_RingsGoOnAndOff_more :
    hostUp (ringDev {}) 0 ∧ hostUp (ringDev {}) 1 ∧ (ringDev {}).ringOwner 5 ≠ portNode 1 ∧ ((ringDev { state := 3, kind := 2 }).ring 5).state = 3 ∧
    ((ringDev { state := 3, kind := 2 }).ring 5).kind ≠ 1 := by decide +kernel
theorem witness_DoorbellsPublish_more :
    let c := dev0.setRing 1 fun r => { r with prod := 1 }
    let full := 2 ^ 32 - 1
    let w := dev0.setRing 0 fun r => { r with prod := full, cons := full }
    (hostUp c 0 ∧ c.ringOwner 1 = portNode 0 ∧ (c.ring 1).state = 1 ∧ (c.ring 1).kind ≠ 0 ∧ (c.ring 1).cons < 2 ^ 32 ∧ (1 + 2 ^ 32 - (c.ring 1).cons) % 2 ^ 32 ≤ (c.ring 1).used) ∧
    (hostUp w 0 ∧ (w.ring 0).prod < 2 ^ 32 ∧ (255 + 2 ^ 32 - (w.ring 0).prod) % 2 ^ 32 = (w.ring 0).slots - (w.ring 0).used) ∧
    (dev0.ringOwner 5 = portNode 0 ∧ (dev0.ring 5).state ≠ 1) ∧ 1 % 0x1000 ≠ 0 := by decide +kernel
def waitDev (b : List Byte) (f : Ring → Ring) : Dev := dev0.setRing 0 fun r => f { r with prod := 1, cons := 1, waiting := some (0, b) }
/-- A client's descriptor in the pool; one whose record ring cannot take its record, one with FENCE behind another, one whose ring is full. -/
theorem witness_DescriptorsAreFetchedAndStarted_more :
    (let d := (withPool dev0).setRing 128 fun r => { r with state := 1, enable := true, defCpl := 129, base := addr4, prod := 1 }
     d.serves 128 = true ∧ nodePort (d.ringOwner 128) = none ∧ (d.ring 128).waiting = none ∧ 0 < (d.ring 128).used ∧ d.jobs.abortWaits = [] ∧
     gotOk (d.readRun (some (d.ringOwner 128)) ((d.ring 128).base + (d.ring 128).cons % (d.ring 128).slots * 64) 64) = true) ∧
    (let b := descOf [(4, 2, 9)]
     let d := waitDev b id
     d.serves 0 = true ∧ d.recordRing 0 b = (1, true) ∧ d.slotFor 1 = true ∧ dFence b = false) ∧
    (let b := descOf [(1, 1, 6)]
     let d := waitDev b fun r => { r with started := [{ idx := 9, bytes := b, op := 0, recRing := 1 }] }
     d.serves 0 = true ∧ dFence b = true ∧ (d.ring 0).started ≠ [] ∧ (d.ring 0).waitAborted = false) ∧
    (let b := descOf [(1, 1, 4)]
     let d := (waitDev b id).setRing 1 fun r => { r with reserved := r.slots }
     d.serves 0 = true ∧ d.slotFor (d.recordRing 0 b).1 = false) := by decide +kernel
theorem witness_SignalsAreSent_more :
    (dev0.ring 1).unsignalled = 0 ∧ (dev0.ring 1).notifyAt = none ∧
    (∀ a ∈ [0xFFFFF0000000 + 128 * 0x1000, 0xFFFFF0400000 + 129 * 0x40 + 63, addr4], let d := (withPool dev0).setRing 128 fun r => { r with kind := 1, notify := a, notifyAt := some (5, 3) }
     let e := (d.till 5).setRing 128 fun r => { r with notifyAt := none }
     (d.ring 128).notifyAt = some (5, 3) ∧ d.ringOwner 129 = d.ringOwner 128 ∧ (a = addr4 → inWindow (d.ring 128).notify = false ∧
       gotOk (e.lineWrite (some (d.ringOwner 128)) (d.ring 128).notify (natBytes 4 3)) = true)) ∧
    (let d := (lineHeld (addr4 / 64) (withPool dev0)).setRing 128 fun r => { r with kind := 1, notify := addr4, notifyAt := some (5, 3) }
     gotIs 1 (((d.till 5).setRing 128 fun r => { r with notifyAt := none }).lineWrite (some (d.ringOwner 128)) addr4 (natBytes 4 3)) = true) := by decide +kernel
theorem witness_NopsAndOutputs_client : ∀ held ∈ [false, true],
    let o := { out0 with caller := .desc 128 0, addr := addr4 }
    let d := { withPool dev0 with host := { (withPool dev0).host with outputs := [o] } }
    let d := if held then lineHeld (addr4 / 64) d else d
    let e := ({ d with host := { d.host with outputs := [] } } : Dev).till o.next
    nodePort (d.ringOwner 128) = none ∧ d.host.outputs = [o] ∧
    gotIs (b2n held) (e.writeBytes (some (d.ringOwner 128)) (o.addr + o.written) (o.bytes.drop o.written)).2 = true := by decide +kernel
/-- Every stack failed; the first line of region 3 is one of a clean cached skein. -/
def failDev : Dev := { farDev with stk := { units := (List.range 6).map fun k => (k, { state := 4 }) } }
def loadIs (k : Nat) (x : Load × Dev) : Bool := match x.1 with | .bytes _ => k == 0 | .poisoned => k == 1 | .wait => k == 2
/-- A READ in the device window; READ_BULK misaligned, of a wrong length, past the end; a line that cannot be loaded yet. -/
theorem witness_FabricReads_more :
    (let m := { req 1 with addr := 0xFFFFF0000000 }
     takes fabDev m ∧ crosses m = false ∧ inWindow m.addr = true) ∧
    (let m := { bulk 64 with addr := addr4 + 1 }
     takes fabDev m ∧ m.addr % 64 ≠ 0) ∧
    (let m := { bulk 64 with len := 4 }
     takes fabDev m ∧ m.addr % 64 = 0 ∧ m.len ≠ 3) ∧
    (let m := { bulk 127 with addr := 0xFFFFF0000000 - 64 }
     takes fabDev m ∧ m.addr % 64 = 0 ∧ m.len = 3 ∧ clampGrain 64 64 262144 (field m.data 0 4) ≠ field m.data 0 4 ∧ 0xFFFFF0000000 < m.addr + 128) ∧
    (let m := req4 1 0 63 []
     isRead m.opcode = true ∧ m.tag < 8192 ∧ loadIs 2 ((failDev.countReq m).gather [] (reqLines m)) = true) := by
  refine ⟨?_, ?_, ?_, ?_, ?_⟩ <;> decide +kernel
theorem witness_FabricWrites_more :
    (let m := { req 3 with addr := 0xFFFFF0000000, data := [0] }
     takes fabDev m ∧ crosses m = false ∧ inWindow m.addr = true) ∧
    (∀ m ∈ [{ req4 4 0 63 [] with addr := addr4 + 1 }, req4 4 0 62 [], { req4 4 0 63 [] with last := false }, { req4 4 0 127 [] with addr := 0xFFFFF0000000 - 64 }],
      takes fabDev m ∧ fabDev.fab.xfers.length < 16384) ∧ spanBad { req4 4 0 127 [] with addr := 0xFFFFF0000000 - 64 } = true ∧
    (let m := req4 3 0 0 [1]
     let p := { fabDev with poison := [0, 1] }
     keepsB (p.taken m) m = true ∧ m.tag < 4096 ∧ (((p.taken m).countReq m).scatter m.addr [1] 17).1 = .poisoned ∧ ((failDev.countReq m).scatter m.addr [1] 17).1 = .wait) ∧
    (∀ x ∈ [{ xfer0 with last := some 0, serving := [0] }, { xfer0 with last := some 1, serving := [0], received := [1], failures := [(addr4, 1, 3)] },
        { xfer0 with serving := [0] }],
      let m := req4 4 0 63 (zeros 64)
      let d := { fabDev with fab := { fabDev.fab with xfers := [(xferKey m, x)] } }
      tget d.fab.xfers (xferKey m) = some x ∧ x.serving.erase m.xfer = [] ∧ (x.last ≠ none → ∀ i ≤ x.last.getD 0, i ∈ nadd x.received m.xfer)) ∧ xfer0.arrived = false ∧
    firstFailure [(5, 2, 1), (4, 3, 2)] = some (4, 3, 2) := by
  refine ⟨?_, ?_, ?_, ?_, ?_, ?_, ?_⟩ <;> decide +kernel
theorem tget_none (x : Xfer) (n a c : Nat) (h : c < a) : tget ((List.range' a n).map fun i => (i, x)) c = none := by
  cases n with
  | zero => simp [tget]
  | succ n => simp only [List.range'_succ, List.map_cons, tget]; rw [if_neg (by omega), if_pos h]
/-- No record is free for another transfer. -/
theorem witness_FabricWrites_full :
    let m := { req 4 with len := 63, tag := 5, src := 0 }
    let l := (List.range' 6 16384).map fun i => (i, xfer0)
    tget l (xferKey m) = none ∧ ¬ l.length < 16384 ∧ takes fabDev (req 4) := by
  refine ⟨tget_none _ _ _ _ (by decide), by simp, by decide +kernel⟩
theorem witness_Atomics_more :
    (∀ op ∈ atoms, let n := if op = 13 then 8 else 4
      let m := { req4 op 0 (n - 1) (zeros n) with addr := 0xFFFFF0000000 }
      takes fabDev m ∧ atomicLenOk m = true ∧ m.addr % atomicSize m = 0 ∧ spanBad m = true) ∧
    loadIs 1 (({ fabDev with poison := [0, 1] } : Dev).loadLine line4) = true ∧ loadIs 2 (failDev.loadLine line4) = true := by
  refine ⟨?_, ?_, ?_⟩ <;> decide +kernel
theorem witness_DedupAndOrder_more :
    (∀ a ∈ [{ rec0 with answer := none }, { rec0 with op := 9 }], let m := req4 8 0 3 (zeros 4)
     let d := { fabDev with fab := { fabDev.fab with dedup := [(dedupKey (dedupHome m) 7 5, a)] } }
     m.tag < 4096 ∧ dedupCovers m = true ∧ tget d.fab.dedup (dedupKey (dedupHome m) m.src m.tag) = some a ∧ (a.matchesMsg m = true ↔ a.op = 8)) ∧
    (∀ o ∈ [{ retried := some (9, 1) }, { held := [req4 3 0 0 [1]] }, {}, { retried := some (5, 1) }, { held := [req4 3 0 0 [1]], retried := some (9, 1), before := 1 },
        ({ held := [req4 3 0 0 [1]], retried := some (9, 1) } : Ordered)],
      let m := { req4 3 0 0 [1] with tc := 1, ord := true }
      let d := { fabDev with fab := { fabDev.fab with ordered := [(ordKey m, o)] } }
      orderedMsg m = true ∧ tgetD d.fab.ordered (ordKey m) {} = o ∧ (d.pool.parked.any fun p => orderedMsg p.2 && ordKey p.2 == ordKey m) = false) := by decide +kernel
theorem witness_CoherentRequests_more :
    (∀ op ∈ [0x10, 0x11, 0x12, 0x15], takes fabDev (req4 op 0 5 []) ∧ (req4 op 0 5 []).len ≠ coherentLen op ∧
      (let m := { req4 op 0 (coherentLen op) [] with addr := 0xFFFFF0000000 }
       takes fabDev m ∧ spanBad m = true)) ∧
    (∀ op ∈ [0x10, 0x11, 0x12], let m := req4 op 0 63 []
      let d := { cohDev none 1 with coh := { privates := [(line4, line4)] } }
      keepsB d m = true ∧ d.isPrivate line4 = true ∧ (d.freeWay line4).isSome = true ∧ (d.cacheTouch line4).any (fun d1 => loadIs 0 ((d1.countReq m).loadLine line4)) = true ∧
      (let p := { fabDev with poison := [0, 1] }
       keepsB p m = true ∧ (p.cacheTouch line4).any (fun d1 => loadIs 1 ((d1.countReq m).loadLine line4)) = true) ∧
      (let x : DirEntry := { state := 3, ptrs := [8] }
       let d := cohDev (some x) 1
       goesB d m = true ∧ d.dirOf line4 = some x ∧ (d.cacheTouch line4).isSome = true)) := by
  refine ⟨?_, ?_⟩ <;> decide +kernel
theorem witness_WritebacksAndEvictions_more :
    (∀ op ∈ [0x13, 0x14], takes fabDev (req4 op 0 5 []) ∧ (let m := { req4 op 0 63 [] with addr := 0xFFFFF0000000 }
      takes fabDev m ∧ spanBad m = true)) ∧
    (let m := req4 0x13 0 63 (zeros 64)
     let d0 := cohDev (some owned7) 1
     let d0 := { d0 with coh := { d0.coh with txns := [(line4, { kind := .evict, waits := [(7, 9)] })] } }
     let d := d0.taken m
     let e := (d.writeBack line4 (slice m.data 0 64)).reqCount m.src 2 64
     takes d0 m ∧ d.looseCheck m = none ∧ d.dirOf line4 = some owned7 ∧ (tget e.coh.txns line4).isSome = true ∧ e.dirOf line4 = some owned7) ∧
    (let m := req4 0x14 (2 * 2 ^ 25) 63 []
     takes fabDev m ∧ spanBad m = false ∧ ((fabDev.taken m).looseCheck m).isSome = true) ∧
    (∀ x ∈ [none, some ({ state := 2 } : DirEntry), some { state := 1, ptrs := [8] }, some { state := 1, ptrs := [7, 8] }, some owned7], let m := req4 0x14 0 63 []
      let d := (cohDev x 1).taken m
      takes (cohDev x 1) m ∧ d.looseCheck m = none ∧ d.setBad line4 = false ∧ starving m = false ∧ d.barred (line4 / 2 ^ 19) = false ∧ d.heldUp false line4 = false ∧
      d.locate m.addr false = .ok 0 ∧ (d.cacheEntry line4).isSome = true) := by
  refine ⟨?_, ?_, ?_, ?_⟩ <;> decide +kernel
/-- An answer with a status the device cannot have; a RETRY and another status; a multicast snoop and a recall that get no answer; the messages of a recall. -/
theorem witness_SnoopsAndRecalls_more :
    (∀ p ∈ [3, 6], badResponse { rsp 15 2 with tag := 9 } (snoopReq p 0) = true ∧ badResponse { rsp 1 2 with tag := 9 } (snoopReq p 0) = false ∧
      (snoopDev p 0).matchReq 7 9 = some (snoopKey, snoopReq p 0)) ∧ (2 ∉ [stDone, stRetry, stFenced]) ∧
    (let r := { snoopReq 3 8 with m := { (snoopReq 3 8).m with mc := true } }
     let d := { snoopDev 3 8 with fab := { fabDev.fab with devReqs := [(mcKey 9, r)] } }
     tget d.fab.devReqs (mcKey 9) = some r ∧ d.mayResend r = false ∧ r.m.mc = true ∧ (tget d.coh.txns r.index).isSome = true) ∧
    ((snoopDev 6 8).mayResend (snoopReq 6 8) = false) ∧
    (∀ x ∈ [(3, 0), (2, 0), (2, 1)], let m := { rsp stDone x.1 with xfer := x.2 }
     tget (snoopDev 6 0).coh.recalls (snoopReq 6 0).index = some {} ∧ m.opcode = stDone ∧ (x.2 = 0 → ∀ i < m.xfer, (m.src, i) ∈ ({} : Recall).got) ∧
     (x.2 = 1 → ∃ i < m.xfer, (m.src, i) ∉ ({} : Recall).got)) := by
  refine ⟨?_, ?_, ?_, ?_, ?_⟩ <;> decide +kernel
theorem witness_SetRecalls_nodes :
    (∀ r ∈ [({ nodes := [(7, 1)] } : Recall), { nodes := [(7, 1), (8, 2)] }], tget ({ fabDev with coh := { fabDev.coh with recalls := [(2, r)] } } : Dev).coh.recalls 2 = some r) ∧
    (∀ p ∈ ({ nodes := [(7, 1)] } : Recall).nodes, p.1 = 7) ∧ ∃ p ∈ ({ nodes := [(7, 1), (8, 2)] } : Recall).nodes, p.1 ≠ 7 := by decide +kernel
theorem witness_SetRecalls_failed : ∃ k, ((recallDev 3).stack k).state = 2 ∧ 0 ∈ (recallDev 3).setsHeld k := by
  have hr : (recallDev 3).retired = none := by decide +kernel
  have hp : ∀ e f n : Nat, ((recallDev 3).place e f n).1 < 6 := by
    intro e f n
    simp only [Dev.place, hr]
    exact Nat.mod_lt _ (by decide)
  refine ⟨((recallDev 3).place (Config.carveExtent ((recallDev 3).carveOut + 16)) ((recallDev 3).carveOut + 16) 0).1, ?_, ?_⟩
  · have h : ∀ k < 6, ((recallDev 3).stack k).state = 2 := by decide +kernel
    exact h _ (hp _ _ _)
  · have h : ((recallDev 3).coh.dir.map fun e => globalSet e.1).eraseDups = [0] := by decide +kernel
    have hl : (recallDev 3).liveSet 0 = 0 := by decide +kernel
    simp only [Dev.setsHeld, h, Dev.setOn, List.mem_filter, hl, List.any_eq_true]
    exact ⟨by simp, 0, by simp, by simp⟩
theorem cyclic_some (ok : Nat → Bool) (n : Nat) (hn : 0 < n) (c : Nat) : ∀ k i, cyclicFrom ok n c k = some i → ok i = true ∧ i < n := by
  intro k
  induction k with
  | zero => intro i h; simp [cyclicFrom] at h
  | succ k ih =>
    intro i h
    simp only [cyclicFrom] at h
    split at h
    · cases h; exact ⟨by assumption, Nat.mod_lt _ hn⟩
    · exact ih _ h
/-- Every handle is taken: the other clause of REGION_CREATE with a handle to be chosen. -/
theorem witness_RegionsAreMade_handles :
    let d := { dev0 with pool := { dev0.pool with regions := (List.range' 0 65536).map fun i => (i, reg3) } }
    (d.choose 65536 fun h => (d.regionOf h).isNone).1 = none := by
  intro d
  cases h : (d.choose 65536 fun h => (d.regionOf h).isNone).1 with
  | none => rfl
  | some i =>
    obtain ⟨h1, h2⟩ := cyclic_some _ _ (by decide) _ _ _ h
    have : tget d.pool.regions i = some reg3 := tget_range _ 65536 0 i (by omega) (by omega)
    simp [Dev.regionOf, this] at h1
/-- No region of that handle; one being installed, or moved; a node that may have no grant; a version that is not the region's; rights lost. -/
theorem witness_RegionsAndGrants_more :
    (∀ op ∈ [9, 10, 11, 12], let b := descOf [(8, 2, 9)]
      poolOk (poolDev op b id) op b = true ∧ (poolDev op b id).liveRegion 9 = none) ∧
    (∀ x ∈ [(9, 0xEFF), (10, 0xEFF), (11, 0xEFF), (12, 0x8000)], let b := descOf [(8, 2, 3), (10, 2, x.2), (20, 4, 1)]
      let d := poolDev x.1 b fun p => { p with publishing := [{ handle := 3, draft := 9, version := 2, caller := .desc 0 0 }] }
      poolOk d x.1 b = true ∧ d.liveRegion 3 = some reg3 ∧ d.installing 3 = true) ∧
    (∀ op ∈ [9, 12], let b := descOf [(8, 2, 3), (10, 2, 0x8000), (20, 4, 1)]
      let d := poolDev op b fun p => { p with emt := [(4, { kind := 1, handle := 3, index := 0, frame := 0, fence := true }), (5, { kind := 1, handle := 3, index := 1, frame := 1 })] }
      poolOk d op b = true ∧ d.liveRegion 3 = some reg3 ∧ d.installing 3 = false ∧ d.fencedIn 4 0 1 = true) ∧
    (∀ op ∈ [10, 11, 12], let b := descOf [(8, 2, 3), (10, 2, 0xF00)]
      poolOk (poolDev op b id) op b = true ∧ grantable (dHost b) = false ∧ dAll b = false) ∧
    (let b := descOf [(8, 2, 3), (10, 2, 7)]
     let d := { poolDev 0x0A b id with sec := { dev0.sec with state := 2, tenantLo := 8, tenantHi := 9 } }
     grantable (dHost b) = true ∧ d.outsideTenant (dHost b) = true ∧ d.liveRegion 3 = some reg3) ∧
    (∀ rt ∈ [0, 31], let b := descOf [(8, 2, 3), (10, 2, 7), (12, 1, rt)]
     let d := poolDev 0x0A b id
     let d' := (d.begun 0 0).putGrant 3 7 (dRights b) reg3
     poolOk d 0x0A b = true ∧ (d.grantOf 7 3).map (·.rights) = some 31 ∧ dRights b = rt ∧ (Nat.land 31 3 - Nat.land (Nat.land 31 3) rt = 0 ↔ rt = 31) ∧
     (d.begun 0 0).jobsEnded d' = []) ∧
    (let b := descOf [(8, 2, 3), (10, 2, 0xEFF)]
     poolOk (poolDev 0x0B b id) 0x0B b = true ∧ (poolDev 0x0B b id).grantOf 0xEFF 3 = none) ∧
    (∀ x ∈ [(1, 0, 0), (2, 5, 0), (0, 1, 1), (0, 1, 0)], let b := descOf [(8, 2, 3), (10, 2, 0x8000), (16, 4, x.1), (20, 4, x.2.1), (24, 4, x.2.2)]
      poolOk (poolDev 0x0C b id) 0x0C b = true ∧ dAll b = true ∧ (min (dLast b) 1 < dCount b ↔ x.1 ≠ 0) ∧ (dVersion b = reg3.rgen ↔ x.2.2 = 0)) ∧
    (let b := descOf [(8, 2, 3), (10, 2, 0x8000), (24, 4, 0xFFFFFFFF)]
     let d := poolDev 0x0C b fun p => { p with regions := [(3, { reg3 with rgen := 0xFFFFFFFF })] }
     poolOk d 0x0C b = true ∧ d.liveRegion 3 = some { reg3 with rgen := 0xFFFFFFFF } ∧ dVersion b = 0xFFFFFFFF) := by
  refine ⟨?_, ?_, ?_, ?_, ?_, ?_, ?_, ?_, ?_⟩ <;> decide +kernel
/-- There is no place for another exclusion, and a grant that it would cover. -/
theorem witness_RegionsAndGrants_full : ∀ b ∈ [descOf [(8, 2, 3)], descOf [(8, 2, 3), (10, 2, 0x8000)]], ∀ op,
    let x : Exclusion := { handle := 9, host := none, first := 0, last := 0, rgen := 1 }
    let d := poolDev op b fun p => { p with exclusions := List.replicate 65536 x }
    d.noExclusion 3 none 1 = true := by
  intro b _ op
  have h : fabDev.pool.grants.any (fun g => ({ handle := 3, host := none, first := 0, last := 0, rgen := 1 } : Exclusion).covers g.1 g.2) = true := by decide
  simp only [Dev.noExclusion, poolDev, List.length_replicate]
  simpa [begin0, Dev.setRing] using h
abbrev emtView : Tbl Emt := [(4, { kind := 1, handle := 3, index := 0, frame := 0 }), (5, { kind := 1, handle := 3, index := 1, frame := 1 }),
  (6, { kind := 3, handle := 3, index := 0, frame := 0, mod := true }), (7, { kind := 3, handle := 3, index := 1, frame := 1 })]
/-- Without the right; of a backed region; of one being installed; without the draft; of another base version; of an extent without the right; an
older pinned version, and one that is gone. -/
theorem witness_DraftsAndPins_more :
    (∀ op ∈ [0x0D, 0x0F, 0x10], let b := descOf [(8, 2, 3)]
      let d := poolDev op b fun p => { p with grants := [] }
      poolOk d op b = true ∧ d.liveRegion 3 = some reg3 ∧ d.holds 0xFF0 3 rightP = false ∧ d.holds 0xFF0 3 rightR = false) ∧
    (∀ op ∈ [0x0D, 0x10], let b := descOf [(8, 2, 3)]
      let d := poolDev op b fun p => { p with regions := [(3, { reg3 with backed := true })] }
      poolOk d op b = true ∧ (d.liveRegion 3).any (·.backed) = true ∧ d.holds 0xFF0 3 rightP = true ∧ d.holds 0xFF0 3 rightR = true) ∧
    (let b := descOf [(8, 2, 3)]
     let d := poolDev 0x0D b fun p => { p with publishing := [{ handle := 3, draft := 9, version := 2, caller := .desc 0 0 }] }
     poolOk d 0x0D b = true ∧ d.liveRegion 3 = some reg3 ∧ d.holds 0xFF0 3 rightP = true ∧ d.installing 3 = true) ∧
    (∀ op ∈ [0x0E, 0x0F, 0x11, 0x12], let b := descOf [(8, 2, 3), (28, 2, 4095)]
      let d := poolDev op b id
      poolOk d op b = true ∧ d.draftOf 0xFF0 4095 = none ∧ d.pinOf 0xFF0 4095 = none) ∧
    (∀ x ∈ [(1, 2), (1, 1)], let b := descOf [(8, 2, 3), (24, 4, x.2), (28, 2, 4095)]
      let d := poolDev 0x0F b fun p => { p with drafts := [(4095, draft0)], emt := emtView, grants := [(0xFF0 * 65536 + 3, { rights := rightP, gen := 0, born := 0 })], draftCopies := [{ ext := 7, dest := 3 }] }
      poolOk d 0x0F b = true ∧ d.holds 0xFF0 3 rightP = true ∧ d.draftOf 0xFF0 4095 = some draft0 ∧ draft0.handle = 3 ∧ (draft0.baseVer ≠ dVersion b ↔ x.2 = 2) ∧
      d.publishCheck 0xFF0 draft0 reg3 = none) ∧
    (let b := descOf [(8, 2, 3), (24, 4, 1), (28, 2, 4095)]
     let d := poolDev 0x0F b fun p => { p with drafts := [(4095, draft0)], emt := emtView.map fun e => (e.1, { e.2 with egen := 9 }) }
     poolOk d 0x0F b = true ∧ d.holds 0xFF0 3 rightP = true ∧ (d.publishCheck 0xFF0 draft0 reg3).isSome = true) ∧
    (∀ v ∈ [1, 2, 3], let b := descOf [(8, 2, 3), (24, 4, v)]
     let d := poolDev 0x10 b fun p => { p with pins := [(9, pin0)], regions := [(3, { reg3 with version := 2 })] }
     poolOk d 0x10 b = true ∧ dVersion b = v ∧ d.holds 0xFF0 3 rightR = true ∧ d.installing 3 = false ∧
     (d.pool.pins.find? fun p => p.2.handle == 3 && p.2.version == v).map (·.2.view) = if v = 1 then some 6 else none) ∧
    (∀ x ∈ [(id, true), (lineHeld line4, false)], let d := x.1 (poolDev 0 [] fun p => { p with draftCopies := [{ ext := 6, dest := 9 }], drafts := [(9, draft0)], emt := emtView })
     let owned := (d.coh.dir.map (·.1)).filter fun l => l / 2 ^ 19 == d.baseExt 6 && d.ownedLine l
     d.pool.draftCopies.find? (·.ext == 6) = some { ext := 6, dest := 9 } ∧ (d.draftCopyLines 6 9 (d.baseExt 6) owned).1 = x.2) := by
  refine ⟨?_, ?_, ?_, ?_, ?_, ?_, ?_, ?_⟩ <;> decide +kernel
/-- Queries that may not be asked; without the region; a bad stack; while another stack moves; retired another, or with too much in use. -/
theorem witness_QueriesAndStacks_more :
    (∀ op ∈ [0x15, 0x16], let b := descOf [(8, 2, 9)]
      poolOk (poolDev op b id) op b = true ∧ (poolDev op b id).liveRegion 9 = none) ∧
    (∀ op ∈ [0x15, 0x16], let b := descOf [(8, 2, 3)]
      let d := ((withPool dev0).setRing 128 fun r => { r with state := 1, started := [{ idx := 0, bytes := b, op := op, recRing := 129 }] })
      let d := { d with pool := { d.pool with grants := [] } }
      poolReady d 128 0 op b ∧ d.liveRegion 3 = some reg3 ∧ (nodePort (d.ringOwner 128)).isSome = false ∧ d.grantOf (d.ringOwner 128) 3 = none) ∧
    (let b := descOf [(8, 2, 3), (16, 4, 2), (20, 4, 5), (36, 4, 17)]
     poolOk (poolDev 0x16 b id) 0x16 b = true ∧ min (dLast b) 1 ≠ dLast b ∧ min (dLast b) 1 < dCount b ∧ clampGrain 16 16 16777216 (dOutLen b) ≠ dOutLen b) ∧
    (∀ op ∈ [0x13, 0x14], poolOk (poolDev op (descOf [(14, 1, 6)]) id) op (descOf [(14, 1, 6)]) = true ∧ dStack (descOf [(14, 1, 6)]) = 6 ∧
      (let d := poolDev op (descOf []) fun p => { p with stackMove := some { stack := 1, retire := true, total := 0, caller := .desc 0 0 } }
       poolOk d op (descOf []) = true ∧ dStack (descOf []) < 6 ∧ d.pool.stackMove ≠ none)) ∧
    (let b := descOf [(14, 1, 4)]
     let d := { poolDev 0x13 b id with stk := { dev0.stk with units := [(5, { state := 5 })] } }
     poolOk d 0x13 b = true ∧ d.retired = some 5 ∧ dStack b = 4) ∧
    (∀ m ∈ [{ req 0x38 with len := 62, data := descOf [] }, { req 0x38 with len := 63, data := descOf [] }], takes fabDev m) ∧
    (let d := { fabDev with mir := { fabDev.mir with role := 1, phase := 2, unacked := [] }, regs := [(0x680000, 0)] }
     d.backlogged = decide (0 < d.backlogNs)) := by
  refine ⟨?_, ?_, ?_, ?_, ?_, ?_, ?_⟩ <;> decide +kernel
theorem witness_QueriesAndStacks_full :
    let d := poolDev 0x13 (descOf []) fun p => { p with frameRefs := List.replicate 12769 (0, 1) }
    d.retired = none ∧ 12768 < d.framesInUse := by
  refine ⟨by decide +kernel, ?_⟩
  have h : ∀ n : Nat, n ≤ (poolDev 0x13 (descOf []) fun p => { p with frameRefs := List.replicate n (0, 1) }).framesInUse := by
    intro n
    simp only [Dev.framesInUse, poolDev, List.length_replicate]
    omega
  exact Nat.lt_of_succ_le (h 12769)
theorem witness_EpochsAndMigrations_more :
    (let w : Switch := { node := 0x200, recs := [], unanswered := 1 }
     w.unanswered < 2 ∧ (7 ≠ stDone ∧ 7 ≠ stUnsupported)) ∧
    (let g := { mig0 with copying := none }
     let d := { fabDev with pool := { fabDev.pool with migrations := [g] } }
     (d.pool.migrations.find? fun g => g.ext == 4 && g.started && !g.done) = some g ∧ (d.nextSkein g).isSome = true ∧ g.copying = none) ∧
    (let d := { fabDev with pool := { fabDev.pool with migrations := [mig0] } }
     d.pool.stackMove = none ∧ tget d.pool.emt 4 = some { kind := 1, handle := 3, index := 0, frame := mig0.src } ∧ mig0.src ≠ 0xFFFF ∧ mig0.src ≠ mig0.dst) ∧
    nmem ({ fabDev with pool := { fabDev.pool with binding := [15359] } } : Dev).pool.binding 15359 = true := by decide +kernel
/-- On a standby; past the pool's end; RETRY while RETRY_MS lasts and after; a wait that is over; cache frames clamped. -/
theorem witness_PoolWindows_more :
    (hostUp fabDev 0 ∧ hostUp { fabDev with mir := { fabDev.mir with role := 2 } } 0) ∧
    (let d := fabDev.setReg 0xA80100 (0x3FFFF)
     hostUp d 0 ∧ 0x30000000 < (d.port 0).barGib * 2 ^ 30 ∧ spanBad (windowMsg 0 (d.fld 0xA80100 0 18 * 2 ^ 30 + 0x30000000) 1 d.now none) = true) ∧
    (∀ x ∈ [(10 ^ 9, stRetry), (0, stRetry), (0, stDenied)], let m := windowMsg 0 addr4 1 x.1 none
      m.tag = 0x1000 + 0 ∧ m.xfer = x.1 ∧ (fabDev.now < m.xfer + msTicks (fabDev.fld 0xA80100 24 8) ↔ x.1 ≠ 0)) ∧
    (∀ t ∈ [5, 10 ^ 12], let w : WindowWait := { port := 0, addr := addr4, len := 1, data := none, first := 5, nextTry := t }
     let d := { fabDev with host := { fabDev.host with windowWaits := [w] } }
     d.host.windowWaits.find? (·.port == 0) = some w ∧ d.mir.role < 2 ∧ d.pm.state = 1 ∧ (w.nextTry ≤ w.first + msTicks (d.fld 0xA80100 24 8) ↔ t = 5)) ∧
    (12768 < 16383 ∧ 16383 < 16384) := by decide +kernel
/-- What CLIENT_OPEN is DENIED, and of a client with a ring on or with none on; a CLIENT_CLOSE of another length; past a line's and the window's end; the
doorbells of the device window. -/
theorem witness_SessionsAndTheDeviceWindow_more :
    (takes fabDev (req 0x39) ∧ (fabDev.openRefused (req 0x39)).isSome = true) ∧
    (∀ st ∈ [0, 1], let m := { req 0x39 with len := 39, data := natBytes 32 1 ++ natBytes 2 2 }
      let d := fabDev.setRing 128 fun r => { r with state := st }
      takes d m ∧ d.openRefused m = none ∧ (d.sessionOf 7).any (fun x => (d.host.rings.any fun r => x.2.holds r.1 && r.2.state != rsDisabled) == (st == 1)) = true ∧
      (st = 0 → (d.ringRange 2 (some 0)).isSome = true ∧ (tget d.host.sessions 0).isSome = true)) ∧
    (takes fabDev { req 0x3A with len := 1 }) ∧
    (∀ op ∈ [1, 3], (let m := { req op with addr := 0xFFFFF0000001, len := 63 }
      takes fabDev m ∧ 64 < m.addr % 64 + m.len + 1) ∧
      (let m := { req op with addr := 0xFFFFF0410000, len := 63 }
       takes fabDev m ∧ m.addr % 64 + m.len + 1 ≤ 64)) ∧
    (∀ op ∈ [1, 3], ∀ ring ∈ [128, 1023], ∀ off ∈ [0, 4, 0xFFF], let m := { req op with addr := 0xFFFFF0000000 + ring * 0x1000 + off, data := [0] }
      takes fabDev m ∧ off % 64 + m.len + 1 ≤ 64 ∧ (fabDev.ringOwner ring = m.src ↔ ring = 128)) ∧
    (let d := { dev0 with host := { dev0.host with up0Count := 480, up1Count := 480, sessions := [(0, { node := 7, first := 960, count := 64, accepted := 0 })] } }
     d.ringRange 64 none = none) := by
  refine ⟨?_, ?_, ?_, ?_, ?_, ?_⟩ <;> decide +kernel
/-- A payload without room for an index; weights inline; lists by reference too short; a table that is not aligned; a GRU that is full. -/
theorem witness_Lookups_more :
    (∀ x ∈ [(0x30, 15, 0), (0x30, 22, 3), (0x31, 22, 0), (0x31, 30, 3)], let m := req4 x.1 0 x.2.1 (lookBytes x.2.2)
      takes fabDev m ∧ (field m.data 4 1 = 3 ↔ x.2.2 = 3) ∧
      (if x.1 = 0x31 then m.len + 1 < (if field m.data 4 1 = 3 then 32 else 24) else (m.len + 1 - 16) / (if field m.data 4 1 = 3 then 8 else 4) = 0)) ∧
    (let m := req4 0x30 8 23 (lookBytes 3)
     takes fabDev m ∧ field m.data 4 1 = 3 ∧ (m.len + 1 - 16) / 8 = 1 ∧ m.addr % 16 ≠ 0) ∧
    (let c := Caller.fab (req 0x30)
     let d := { fabDev with gru := { fabDev.gru with lookups := (List.range 16).map fun i => (i, { look0 c with gru := fabDev.gruFor c }) } }
     ¬ gruTakes d c) ∧
    (let l := { look0 (.fab (req 0x30)) with idx := [0, 1], left := [0, 1], reissue := [(0, 9)] }
     (lookDev l).rowIssued 5 1 l = true ∧ l.reissue.find? (·.1 == 0) = some (0, 9) ∧ (∀ x ∈ l.reissue, x.1 ≠ 1)) ∧
    (let l := { look0 (.fab (req 0x30)) with lists := some (1, addr4, 0) }
     tget (lookDev l).gru.lookups 5 = some l ∧ l.lists ≠ none) := by
  refine ⟨?_, ?_, ?_, ?_, ?_⟩ <;> decide +kernel
/-- A row past the address space, one of an address in no region, one whose line is kept, one whose skein is missing; what ends a lookup. -/
theorem witness_Lookups_rows :
    (let l := { look0 (.fab (req 0x30)) with base := 2 ^ 48 - 64 }
     2 ^ 48 < l.base + l.idx.getD 0 0 * l.stride + l.rowBytes ∧ l.failed = none) ∧
    (let l := { look0 (.fab (req 0x30)) with base := addr4 + 2 * 2 ^ 25 }
     gotIs 2 ((lookDev l).readRun (some l.node) (l.base + 64) l.rowBytes true) = true) ∧
    (let l := look0 (.fab (req 0x30))
     let d := lookDev l
     let d := { d with coh := { d.coh with portWaits := [line4 + 1] } }
     let x := d.readRun (some l.node) (l.base + 64) l.rowBytes true
     gotIs 1 x = true ∧ (linesOf (l.base + 64) l.rowBytes).any x.2.lineMissing = false) ∧
    (let l := { look0 (.fab (req 0x30)) with base := addr4 + 2 ^ 25 }
     let x := farDev.readRun (some l.node) (l.base + 64) l.rowBytes true
     gotIs 1 x = true ∧ (linesOf (l.base + 64) l.rowBytes).any x.2.lineMissing = true) ∧
    (let l := { look0 (.fab (req 0x30)) with failed := some (0, stPoisoned), left := [1] }
     tget (lookDev l).gru.lookups 5 = some l ∧ ∀ p ∈ l.left, 0 ≤ p) ∧
    (let l := { look0 (.fab (req 0x30)) with missHint := some 3, left := [] }
     tget (lookDev l).gru.lookups 5 = some l ∧ l.failed = none ∧ l.lists = none) := by
  refine ⟨?_, ?_, ?_, ?_, ?_, ?_⟩ <;> decide +kernel
/-- A payload without an element; a row that is not aligned, or past the pool's end; a unit that is resetting; lines to be made ready; a client's vector. -/
theorem witness_ReducesAndStock_more :
    (∀ x ∈ [({ redMsg with len := 7 }, 1), ({ redMsg with len := 8 }, 2), ({ redMsg with addr := addr4 + 61 }, 3), ({ redMsg with addr := 0xFFFFF0000000 }, 4)],
      takes fabDev x.1 ∧ (x.2 = 1 → x.1.len + 1 ≤ 8) ∧ (x.2 = 2 → (x.1.len + 1 - 8) % (fmtBits (reduceVec x.1) / 8) ≠ 0) ∧
      (x.2 = 3 → x.1.addr % (fmtBits (reduceRow x.1) / 8) ≠ 0) ∧ (x.2 = 4 → x.1.addr % 4 = 0 ∧ spanBad x.1 = true)) ∧
    (failDev.unready (reqLines redMsg) ≠ [] ∧ fabDev.unready (reqLines redMsg) = []) ∧
    ((({ fabDev with poison := [0, 1] } : Dev).reduceLines redMsg (gruOfHome (homeOf (redMsg.addr / 64))) (reqLines redMsg)).1 = .poisoned) ∧
    (let d := (withPool dev0).setRing 128 fun r => { r with state := 1, started := [{ idx := 0, bytes := redDesc, op := 0x41, recRing := 129 }] }
     let b := bytesOf 64 [(8, 8, addr4 + 60), (16, 1, 7), (18, 1, 7), (20, 4, 4), (24, 8, addr4)]
     nodePort (d.ringOwner 128) = none ∧ gotIs 0 ((d.begun 128 0).readRun (some (d.ringOwner 128)) (field b 24 8) 4) = true) ∧
    (∀ a ∈ [addr4 + 61, 0xFFFFF0000000], let m := reduceOf 0xFF0 (bytesOf 64 [(8, 8, a), (16, 1, 7), (18, 1, 7), (20, 4, 4)]) (zeros 4)
      (m.addr % (fmtBits (reduceRow m) / 8) ≠ 0 ↔ a = addr4 + 61) ∧ (a ≠ addr4 + 61 → spanBad m = true)) ∧
    (let d := { begin0 fabDev 0x41 redDesc with pool := { fabDev.pool with grants := [] } }
     ((d.begun 0 0).reduceCheck 0xFF0 [line4]).1.isSome = true) ∧
    ((({ fabDev with coh := { fabDev.coh with portWaits := [line4] } } : Dev).lineBlocked line4 = true) ∧ (lineHeld line4 fabDev).lineBlocked line4 = false ∧
     ((lineHeld line4 fabDev).dirOf line4).isSome = true) := by
  refine ⟨?_, ?_, ?_, ?_, ?_, ?_, ?_⟩ <;> decide +kernel
/-- An index out of reach; one fetched and waiting; an ABORT as the target; a target whose end is the partner's to acknowledge; a record still owed. -/
theorem witness_Aborts_more :
    (∀ i ∈ [2, 3], let d := abortDev 0 i 2 2 []
      abortOk d 0 i ∧ (((d.ring 0).prod + 2 ^ 32 - i) % 2 ^ 32 = 0 ∨ 2 ^ 31 < ((d.ring 0).prod + 2 ^ 32 - i) % 2 ^ 32)) ∧
    (∀ op ∈ [0x21, 0x30], let d := (abortDev 0 1 2 2 []).setRing 0 fun r => { r with waiting := some (1, descOf [(0, 1, op)]) }
      abortOk d 0 1 ∧ (d.ring 0).used < 1 ∧ dOpcode (descOf [(0, 1, op)]) = op) ∧
    (let d := abortDev 0 1 2 2 [0x21]
     abortOk d 0 1 ∧ ((d.begun 0 0).startedAt 0 1).map (·.op) = some 0x21) ∧
    (let d := abortDev 0 1 2 2 [0x41]
     let d := { d with mir := { d.mir with unacked := [{ seq := 5, epoch := 0, link := 4, m := req 0x40, release := none, completes := [{ ring := 0, idx := 1, st := 0, det := 0, result := 0, progress := 0 }] }] } }
     abortOk d 0 1 ∧ (d.begun 0 0).claimedEnd 0 1 = true) ∧
    (abortDev 0 1 2 2 [0x41]).recordOwed 0 1 = true ∧ (abortDev 0 1 2 2 []).recordOwed 0 1 = false ∧ (abortDev 0 1 2 2 []).jobs.abortEnds = [] ∧
    (let d := (waitDev (descOf [(1, 1, 4)]) id).setRing 1 fun r => { r with reserved := r.slots }
     d.slotFor (d.recordRing 0 (descOf [(1, 1, 4)])).1 = false) := by
  refine ⟨?_, ?_, ?_, ?_, ?_, ?_, ?_, ?_⟩ <;> decide +kernel
def workH (kind src dst ph : Nat) : MoverWork := { work0 with kind := kind, srcKind := src, dstKind := dst, phase := ph, srcNode := 7, dstNode := 7 }
/-- The steps of each kind of source and destination; reads and writes that fail or meet RETRY; a step that is not the last. -/
theorem witness_MoverSteps_more :
    nmem fabDev.boot.dead 10 = false ∧
    (let w := { workH 0 2 0 0 with retryAt := some 9 }
     ((movDev w).mover 3).work = some w ∧ w.phase ≠ 2 ∧ w.srcKind = 2) ∧
    (let d := movDev { work0 with src := addr4 + 2 * 2 ^ 25 }
     gotIs 2 (d.readRun (some 0xFF0) (addr4 + 2 * 2 ^ 25) work0.stepLen true) = true) ∧
    (let d := { movDev work0 with coh := { fabDev.coh with portWaits := [line4] } }
     gotIs 1 (d.readRun (some 0xFF0) (work0.src + work0.offset) work0.stepLen true) = true) ∧
    (((workH 0 1 0 1).isHost 0 = true ∧ (workH 0 1 0 1).isHost 1 = false) ∧ (workH 0 0 1 2).dstKind = 1) ∧
    ((let w := { workH 0 0 0 2 with buffer := zeros 64, dst := addr4 + 2 * 2 ^ 25 }
      gotIs 2 ((movDev w).writeBytes (some w.node) (w.dst + w.dstDone + w.wrote) (w.buffer.drop w.wrote) true).2 = true) ∧
     (let w := { workH 0 0 0 2 with buffer := zeros 64 }
      gotIs 1 ((lineHeld (line4 + 1) (movDev w)).writeBytes (some w.node) (w.dst + w.dstDone + w.wrote) (w.buffer.drop w.wrote) true).2 = true)) ∧
    (let w := { workH 0 0 2 2 with buffer := zeros 64 }
     (bulkWrites (movDev w).ownNode w.dstNode (w.dst + w.dstDone) 0 w.buffer).any (fun m => (movDev w).canSend (m, 2, 3)) = true) ∧
    (let w := { work0 with length := 1024 }
     w.dstDone + w.stepLen < w.length ∨ w.stepLen = 1024) ∧
    (let w := { work0 with length := 65536 }
     w.kind ≠ 2 ∧ w.dstDone + w.stepLen < w.length) := by
  refine ⟨?_, ?_, ?_, ?_, ?_, ?_, ?_, ?_, ?_⟩ <;> decide +kernel
def xDev2 (x : Xctx) (m : Mover) : Dev := { xDev m 0 with mov := { (xDev m 0).mov with xctx := [(2, x)] } }
/-- A stale translation; a walk of each level's entry; a walk's read kept or refused; faults with no path or too many rounds; a record nobody may resolve; a
context that may not be set; invalidations of another's context, misaligned, or of all. -/
theorem witness_Translation_more :
    (let m : Mover := { work := some work0, atsOut := true, stale := true }
     ((xDev m 0).mover 3).work = some work0 ∧ ((xDev m 0).mover 3).stale = true) ∧
    (let w := { workH 0 1 0 0 with rounds := 15 }
     let d := xDev2 { ctx0 with faultPath := 0 } { work := some w }
     d.sideGrant w 0 = none ∧ d.fld 0x300000 0 4 ≤ w.rounds ∧ (d.sideGrant w 1).isSome = true) ∧
    (let a := (walk0 4 none).table + 8 * bits (walk0 4 none).va (12 + 9 * 3) 9
     let d := xDev { work := some work0, walk := some (walk0 4 none) } 0
     gotIs 2 (({ d with pool := { d.pool with grants := [] } } : Dev).lineRead (some 0xFF0) (a / 64) true) = true ∧
     gotIs 1 (({ d with coh := { d.coh with portWaits := [line4] } } : Dev).lineRead (some 0xFF0) (a / 64) true) = true) ∧
    (∀ e ∈ [0, 2 ^ 52 + 1, 8 + 1], ¬ (bit e 0 = true ∧ bits e 52 12 = 0 ∧ bits e 3 9 = 0)) ∧ (bit 5 2 = true ∧ (walk0 4 none).level = 4) ∧
    (let e := 2 ^ 48 + 1
     bit e 0 = true ∧ bits e 52 12 = 0 ∧ bits e 3 9 = 0 ∧ bit e 2 = false ∧ 2 ^ 48 ≤ bits e 12 40 * 4096) ∧
    (let e := 4096 + 5
     bit e 2 = true ∧ (walk0 3 none).level = 3 ∧ bits e 12 40 * 4096 % 2 ^ 30 ≠ 0) ∧
    (∀ e ∈ [1, 3], let wk := { walk0 1 none with write := true }
     wk.level = 1 ∧ (bit e 0 = true ∧ bits e 52 12 = 0 ∧ bits e 3 9 = 0) ∧ ((wk.allW && bit e 1) = decide (e = 3))) ∧
    (({ ctx0 with service := 2 } : Xctx).service = 2 ∧ ctx0.service ≠ 2 ∧ (walk0 2 (some 9)).retryAt = some 9 ∧ (walk0 2 none).waiting = false) ∧
    (let b := bytesOf 64 [(8, 2, 254), (10, 1, 2)]
     let d := begin0 (xDev {} 1) 0x34 b
     d.ready 0 0 0x34 b ∧ 1 < field b 10 1 ∧ tget d.mov.faults (field b 8 2 % 256) = none) ∧
    (let b := bytesOf 64 [(8, 1, 2), (9, 1, 3), (10, 1, 3), (11, 1, 2), (16, 8, 1)]
     let d := begin0 (xDev {} 1) 0x32 b
     d.ready 0 0 0x32 b ∧ 2 < field b 9 1 ∧ 2 < field b 10 1 ∧ 1 < field b 11 1 ∧ (d.xctxRefused 0xFF0 2 { ctx0 with root := 1 }).isSome = true) ∧
    (∀ x ∈ [(3, 0, 0), (2, 1, 1), (2, 0, 0), (2, 0, 1)], let b := bytesOf 64 [(8, 1, x.1), (9, 1, x.2.1), (16, 8, x.2.2), (24, 8, 4096)]
     let d := begin0 (xDev {} 1) 0x33 b
     d.ready 0 0 0x33 b ∧ admits d 0 false [] ∧ ((d.xctxOf x.1).map (·.port) = some 0 ↔ x.1 = 2) ∧ bit (field b 9 1) 0 = decide (x.2.1 = 1) ∧
     (field b 16 8 % 4096 = 0 ↔ x.2.2 = 0)) ∧
    (let d := (withPool dev0).setRing 128 fun r => { r with state := 1, started := [{ idx := 0, bytes := descOf [], op := 0x33, recRing := 129 }] }
     d.ready 128 0 0x33 (descOf []) ∧ admits d 128 false [] ∧ nodePort (d.ringOwner 128) = none) ∧
    (let v : Invalidation := { caller := none, port := 0, removed := 0, movers := [] }
     v.movers = [] ∧ v.caller = none) := by
  refine ⟨?_, ?_, ?_, ?_, ?_, ?_, ?_, ?_, ?_, ?_, ?_, ?_, ?_, ?_⟩ <;> decide +kernel
theorem witness_TierHints_more :
    (∀ x ∈ [(9, 0xFF0, true), (3, 0xFF0, true), (3, 7, false)], let b := bytesOf 64 [(8, 2, x.1), (16, 4, 5), (20, 4, 9), (24, 1, 3)]
      let d := begin0 farDev 0x35 b
      let d := if x.2.1 = 7 then { d with pool := { d.pool with grants := [] } } else d
      d.ready 0 0 0x35 b ∧ 2 < field b 24 1 ∧ (d.liveRegion (dHandle b) = none ↔ x.1 = 9) ∧ (x.1 = 3 → d.holds (d.ringOwner 0) 3 rightR = x.2.2) ∧
      (x.1 = 3 → (d.liveRegion 3).any (fun r => min (field b 16 4) (r.count - 1) ≠ field b 16 4) = true)) ∧
    (let b := bytesOf 64 [(8, 2, 3)]
     let d := begin0 fabDev 0x35 b
     (d.liveRegion (dHandle b)).any (fun r => !r.backed) = true ∧ d.holds (d.ringOwner 0) 3 rightR = true) := by decide +kernel
/-- A drive that comes, one that stays and one that goes; a client; names and numbers of no drive; adoptions and retirements that are refused; a drive that has
failed. -/
theorem witness_Drives_more :
    (farDev.rootServes 3 = true ∧ (farDev.drive 1).any (fun v => v.state == 3) = true ∧ (tget farDev.far.drives 64).any (fun v => v.state == 1) = true) ∧
    (∀ op ∈ [0x50, 0x51, 0x52, 0x53, 0x54], let d := (withPool dev0).setRing 128 fun r => { r with state := 1, started := [{ idx := 0, bytes := descOf [], op := op, recRing := 129 }] }
      d.ready 128 0 op (descOf []) ∧ admits d 128 false [7] ∧ nodePort (d.ringOwner 128) = none) ∧
    (let b := bytesOf 64 [(8, 1, 2)]
     let d := begin0 farDev 0x51 b
     farReady d 0 0 0x51 b true ∧ (tfind d.far.drives fun _ v => v.port == field b 8 1 % 4 && v.rid == field b 10 2 && v.present) = none) ∧
    (∀ op ∈ [0x52, 0x53], let b := bytesOf 64 [(12, 1, 9), (13, 1, 3)]
      let d := begin0 farDev op b
      farReady d 0 0 op b (op == 0x52) ∧ d.drive 9 = none ∧ field b 13 1 ≠ 1 ∧ field b 13 1 ≠ 2) ∧
    (let b := bytesOf 64 [(8, 1, 0), (10, 2, 0x100), (12, 1, 1)]
     let d := begin0 farDev 0x51 b
     farReady d 0 0 0x51 b true ∧ (tfind d.far.drives fun _ v => v.port == 0 && v.rid == 0x100 && v.present).any (fun x =>
       (d.adoptRefused x.1 x.2 1 0).isSome) = true) ∧
    (∀ st ∈ [2, 5], let d := { farDev with far := { farDev.far with drives := [(1, { state := st, port := 0, rid := 0x100 })] } }
      (d.drive 1).any (fun v => v.state == st) = true ∧ d.soleExtents 1 ≠ []) ∧
    (let d := { farDev with far := { farDev.far with drives := [(2, { state := 5, port := 0, rid := 0x100 })] } }
     (d.drive 2).any (fun v => v.state == 5) = true ∧ d.soleExtents 2 = []) ∧
    (∀ x ∈ [(9, farDev), (3, { farDev with pool := { farDev.pool with grants := [] } }), (3, fabDev)], let b := bytesOf 64 [(8, 2, x.1)]
      let d := begin0 x.2 0x54 b
      farReady d 0 0 0x54 b false ∧ (d.liveRegion (dHandle b) = none ↔ x.1 = 9)) := by
  refine ⟨?_, ?_, ?_, ?_, ?_, ?_, ?_, ?_⟩ <;> decide +kernel
theorem witness_NvmeCommands_more :
    (let c : NvmeCmd := { drive := 1, kind := 4, skein := noSkein, caller := some (.desc 0 0), sent := true, deadline := 9, attempt := 1 }
     let d := { farDev with far := { farDev.far with cmds := [(7, c)] } }
     tget d.far.cmds 7 = some c ∧ c.sent = true ∧ c.caller = some (.desc 0 0)) ∧
    (let d := { farDev with far := { farDev.far with drives := [(1, { state := 3, port := 0, rid := 0x100, fails := 15 })] } }
     ((d.bump 0x380008 16).drive 1).any (fun v => (d.bump 0x380008 16).fld 0x380000 12 4 ≤ v.fails + 1) = true) ∧
    (∀ st ∈ [2, 3, 4], ({ farDev with far := { farDev.far with drives := [(1, { state := st, port := 0, rid := 0x100 })] } } : Dev).drive 1 =
      some { state := st, port := 0, rid := 0x100 }) ∧ ({ farDev with mir := { farDev.mir with role := 2 } } : Dev).mir.role = 2 := by decide +kernel
/-- A training of each role; partners that do not agree; the round trip at its limit and past it; no node ID. -/
theorem witness_LinkTraining_more :
    (∀ x ∈ [(0, 0, 0), (0, 0, 720), (1, 2, 720), (2, 2, 720), (1, 2, 721)],
      let k : Link := { state := 4, ctl := x.1 * 2 ^ 28, width := 4, rate := 1, stamps := if x.2.2 = 0 then [] else [(fabDev.now - x.2.2) % 65536], trips := List.replicate 15 720 }
      let d := linkDev x.1 k
      let p : ParamCell := { param0 with role := x.1, cls := x.2.1, node := 0x200, width := 4, rate := 1, echo := (fabDev.now - x.2.2) % 65536 }
      let trips := if nmem k.stamps p.echo then k.trips ++ [(d.now + 65536 - p.echo) % 65536] else k.trips
      (d.link 4).state = 4 ∧ bits k.ctl 28 2 = x.1 ∧ p.role ≤ 2 ∧ p.node ≠ d.ownNode ∧ (trips.length < 16 ↔ x.2.2 = 0) ∧ (900 * 64 < 5 * trips.sum ↔ x.2.2 = 721)) ∧
    (∀ p ∈ [({ param0 with width := 2 } : ParamCell), { param0 with rate := 1 }, { param0 with node := 0x100 }, { param0 with node := 0 }],
      p.width ≠ ((linkDev 0 { state := 4 }).link 4).width ∨ p.rate ≠ ((linkDev 0 { state := 4 }).link 4).rate ∨ p.node = (linkDev 0 { state := 4 }).ownNode ∨ p.node = 0) ∧
    (∀ p ∈ [({ param0 with role := 1, cls := 2, node := 0x200 } : ParamCell), { param0 with role := 3, node := 0x200 }],
      (if p.role ≤ 2 then p.role else 0) ≠ bits (2 * 2 ^ 28) 28 2) ∧
    (∀ x ∈ [(15, 3), (0, 3)], let k : Link := { state := 2, ctl := x.2 * 2 ^ 26 }
      (widest ((linkDev 0 k).lanesOf 4 x.1) (bits k.ctl 26 2) = 0 ↔ x.1 = 0)) ∧
    (({ linkDev 0 { state := 3 } with boot := { fabDev.boot with nodeId := 0 } } : Dev).ownNode = 0) ∧ ((linkDev 0 { state := 1 }).lanesOf 4 1 ≠ 0) := by decide +kernel
theorem witness_LinkBreaks_more :
    ((linkDev 2 { state := 6, peerRole := 2 }).link 4).peerRole = 2 ∧ ((linkDev 2 { state := 6, peerRole := 2 }).link 4).state = 6 ∧
    ((linkDev 1 { state := 7 }).link 4).state ≠ 6 ∧ administers (linkDev 1 { state := 0 }) 0xFF0 ∧
    ({ linkDev 1 { state := 7 } with pm := { fabDev.pm with linksOff := [4] } } : Dev).linkHeld 4 = true := by decide +kernel
def cellK (seq kind : Nat) : Cell := { bytes := cellBytes (linkField seq 0 kind 0) (natBytes 16 (headerOf (req4 1 0 63 [])) ++ zeros 26), fecOk := true }
/-- A cell already accepted, one out of its turn, one in turn with and without room; each kind of cell in a message and outside of one; cells that make no message. -/
theorem witness_CellsAreAccepted :
    (let d := linkDev 1 { state := 6, expected := 5 }
     let n := fun (c : Cell) => (seqOf c + 4096 - (d.link 4).expected) % 4096
     2048 ≤ n (cellK 4 0) ∧ (0 < n (cellK 6 0) ∧ n (cellK 6 0) < 2048) ∧ n (cellK 5 0) = 0 ∧ 0 < (d.link 4).free (chanOf (cellK 5 0))) ∧
    (let d := linkDev 1 { state := 6, expected := 5, used0 := 65535, used1 := 65535 }
     (d.link 4).free (chanOf (cellK 5 0)) = 0) ∧
    (∀ k ∈ [0, 1, 2, 3], kindOf (cellK 5 k) = k ∧ chanOf (cellK 5 k) = 0) ∧
    (∀ p ∈ [[], [cellK 4 1]], ((linkDev 1 { state := 6, partial0 := p }).link 4).partial0 = p ∧ ((linkDev 1 { state := 6, partial0 := p }).link 4).stray0 = false) ∧
    (let d := linkDev 1 { state := 6 }
     let m := d.cellsMsg [cellK 5 0]
     vcOf m.cls = 0 ∧ d.payloadLen m = some 0 ∧ [cellK 5 0].length = cellsOf 0 ∧ [cellK 5 0, cellK 6 3].length ≠ cellsOf 0 ∧ vcOf m.cls ≠ 1) := by
  refine ⟨?_, ?_, ?_, ?_, ?_⟩ <;> decide +kernel
/-- An acknowledgement of cells and of none; each control cell; a group that verifies; cells that FEC, CRC or encryption turn aside. -/
theorem witness_ControlCells :
    (∀ st ∈ [5, 6], ((linkDev 1 { state := st, nextSeq := 2 }).link 4).state = st) ∧
    ((1 + 4096 - 0) % 4096 < ((linkDev 1 { state := 6, nextSeq := 2 }).link 4).outstanding ∧ ((linkDev 1 { state := 6, nextSeq := 2 }).link 4).outstanding ≤ (2 + 4096 - 0) % 4096) ∧
    (∀ b ∈ [true, false], ((linkDev 1 { state := 6, encrypted := true, groupBad := b }).link 4).groupBad = b) ∧
    (∀ e ∈ [true, false], let k : Link := { state := 6, nextSeq := 2, encrypted := e, heldCells := [cellR 0 true true], uncovered := 1, openGroup := 1 }
      let d := (linkDev 1 k).applyAck 4 0 0
      (d.link 4).state = 6 ∧ (d.link 4).encrypted = e ∧ (1 + 4096 - (d.link 4).oldest) % 4096 < (d.link 4).outstanding ∧
      (d.link 4).outstanding ≤ (3 + 4096 - (d.link 4).oldest) % 4096 ∧ (d.link 4).uncovered ≠ 0 ∧ (d.link 4).openGroup ≠ 0) ∧
    (let k : Link := { recvGroup := 4, heldCells := [cellR 0 true true] }
     k.heldCells.length ≠ 2 ∧ 5 ≠ k.recvGroup ∧ seqOf (cellR 0 true true) ≠ 1) ∧
    (cellCrcOk (cellR 0 true true) = true ∧ cellCrcOk (cellR 0 true false) = false ∧ (cellR 0 false true).fecOk = false) := by
  refine ⟨?_, ?_, ?_, ?_, ?_, ?_⟩ <;> decide +kernel
theorem witness_ControlCells_group :
    let k : Link := { recvGroup := 4, heldCells := [cellR 0 true true] }
    (∃ tag cs, k.opened 0 1 4 tag = some cs) ∧ ∃ tag, gcmOpen k.recvKey (groupIv k.peerSalt 4) (k.heldCells.flatMap fun c => slice c.bytes 0 2) (k.heldCells.flatMap bodyOf) tag = none := by
  intro k
  have hs : seqOf (cellR 0 true true) = 0 := by decide +kernel
  refine ⟨⟨gcmTag k.recvKey (groupIv k.peerSalt 4) (k.heldCells.flatMap fun c => slice c.bytes 0 2) (k.heldCells.flatMap bodyOf),
      Option.isSome_iff_exists.mp ?_⟩,
    ⟨gcmTag k.recvKey (groupIv k.peerSalt 4) (k.heldCells.flatMap fun c => slice c.bytes 0 2) (k.heldCells.flatMap bodyOf) ++ [0], ?_⟩⟩
  · simp [Link.opened, gcmOpen, k, hs]
  · simp only [gcmOpen]
    rw [if_neg]
    intro h
    have := congrArg List.length h
    simp at this
def mcMsg : Msg := { far1 0x200 with mc := true }
/-- A fenced source or destination; the service ID; addresses of no node; a rate that is used up; a message of many. -/
theorem witness_Lookup_more :
    ((routeDev []).serviceId = none ∧ (actD.serviceId = some 0xF00 ∧ 0xF00 ≠ actD.ownNode)) ∧
    ((far1 0xFFF).dst = 0xFFF ∧ (far1 0xFFF).cls = 0 ∧ ({ far1 0xFFF with cls := 2 } : Msg).cls ≠ 0) ∧
    (∀ n ∈ [0, 0xFF0, 0xFFE], n ≠ (routeDev []).ownNode ∧ n ≠ 0xFFF ∧ nmem (routeDev []).router.fenced n = false) ∧
    (let d := (routeDev []).setReg (0x604000 + 64 * 5) (2 ^ 63 + 1)
     let d := { d with fab := { d.fab with policers := [(5, { tokens := 0, at_ := d.now })] } }
     d.igfAdmits 5 (far1 0x200) = true ∧ (d.police 5 (far1 0x200)).1.isSome = true) ∧ mcMsg.mc = true := by
  refine ⟨?_, ?_, ?_, ?_, ?_⟩ <;> decide +kernel
/-- A message behind another of its input and channel is not the next; a fence of a client, and with a session that ends. -/
theorem witness_OutputsAndFences :
    (let d := { routeDev [] with router := { (routeDev []).router with queues := [(4, [queued1, queued1])] } }
     (d.queue 4)[0]? = some queued1 ∧ (((d.queue 4).take 0).any fun x => x.input == queued1.input && vcOf x.m.cls == vcOf queued1.m.cls) = false) ∧
    (let d := { routeDev [] with router := { (routeDev []).router with fenceCmd := some (true, 7), queues := [] } }
     let p := d.pruneQueued 7
     let e : Dev := { p with router := { p.router with fenced := nadd p.router.fenced 7, fenceCmd := none, lastNode := 7, fenceEpoch := (p.router.fenceEpoch + 1) % 2 ^ 32 } }
     (d.router.queues.any fun o => o.1 < 24 && o.2.any fun q => !q.m.mc && q.m.dst == 7) = false ∧ ((e.nodeGone 7).sessionOf 7).isSome = true) := by decide +kernel
/-- A response to 0xFFF; each purpose answered DONE, RETRY or otherwise; the line of a partner for a failed stack, for a poisoned one or for none. -/
theorem witness_Responses :
    (∀ p ∈ [0, 1, 2, 3, 4, 5, 6], (ansDev p 0 false).pm.state ≠ 3 ∧ (rsp stDone 2).dst ≠ 0xFFF ∧ (ansDev p 0 false).matchReq 7 9 = some (snoopKey, snoopReq p 0) ∧
      (snoopReq p 0).purpose = p ∧ badResponse (rsp stDone 2) (snoopReq p 0) = false ∧ badResponse (rsp 0x0F 2) (snoopReq p 0) = true) ∧
    ({ rsp stDone 2 with dst := 0xFFF } : Msg).dst = 0xFFF ∧
    (∀ x ∈ [(failDev, true), (fabDev, false), ({ fabDev with poison := [0] }, false)], let d : Dev := { x.1 with fab := (ansDev 5 0 false).fab }
      let e := d.endReq snoopKey
      (e.keyOf (line4 * 64)).any (fun k => e.onFailed (line4 * 64) k == x.2 && nmem e.poison (k / 64) == (x.1.poison == [0])) = true) := by
  refine ⟨?_, ?_, ?_⟩ <;> decide +kernel
/-- Each purpose with resends left and without; a multicast snoop; what an unanswered PCIe request was for. -/
theorem witness_Timeouts :
    (∀ p ∈ [0, 1, 2, 3, 4, 5, 6], ∀ x ∈ [(0, false), (15, true), (15, false)],
      let r := { snoopReq p x.1 with again := x.2 }
      tget (ansDev p x.1 x.2).fab.devReqs snoopKey = some r ∧ ((r.again = true ∨ r.resends < ((ansDev p x.1 x.2).till r.deadline).fld 0x180104 20 4) ↔ x ≠ (15, false))) ∧
    (let r := { snoopReq 3 15 with m := { (snoopReq 3 15).m with mc := true } }
     let d := { snoopDev 3 15 with fab := { fabDev.fab with devReqs := [(mcKey 9, r)] } }
     tget d.fab.devReqs (mcKey 9) = some r ∧ (tget (d.till r.deadline).coh.txns r.index).isSome = true) ∧
    (let d := fabDev.setRing 0 fun r => { r with prod := 1 }
     d.serves 0 = true ∧ (d.ring 0).kind = 0 ∧ (d.ring 0).state = 1 ∧ (d.ring 0).waiting = none ∧ (d.ring 0).used ≠ 0) ∧
    (let d := { fabDev with host := { fabDev.host with outputs := [out0] } }
     (d.host.outputs.find? fun o => o.caller == .desc 0 0) = some out0) ∧
    (let w := { workH 0 1 0 0 with wantSide := 1 }
     let d := xDev { work := some w, atsOut := true } 0
     (d.mover 3).work = some w ∧ w.phase ≠ 1 ∧ (d.mover 3).atsOut = true) ∧
    (let x : HeldRec := { bytes := zeros 32, ring := 0, idx := 0 }
     let d := fabDev.setRing 1 fun r => { r with last := some x }
     (d.ring 1).kind = 1 ∧ (d.ring 1).last = some x ∧ (fabDev.ring 1).last = none) := by
  refine ⟨?_, ?_, ?_, ?_, ?_, ?_⟩ <;> decide +kernel
/-- Both units hold a region; a unit that waits for a copy, and one that is alone. -/
theorem witness_Pairing_more :
    (∀ k ∈ [({ role := 3, phase := 4 } : MirrorSt), { role := 1, phase := 3 }], let d := mirDev 0xF00 0x200 k
      d.fld 0x680000 31 1 = 1 ∧ d.boot.ready = true ∧ d.mirrorLinks ≠ [] ∧ d.mir.copying = false ∧ (d.mir.role ≠ 0 ∨ d.mirIdsOk = true)) ∧
    (mirDev 0xF00 0x200 { role := 3, phase := 5 }).mir.phase = 5 ∧ (mirDev 0xF00 0x200 { role := 1, copying := true }).mir.copying = true ∧
    keysRise (mirDev 0xF00 0x200 {}).pool.regions = true := by decide +kernel
/-- A record that is ahead already; one of a skein to be fetched; a unit that is no standby; messages of another link. -/
theorem witness_Replication_more :
    (let d := mirDev 0xF00 0x200 { role := 2, term := 3, applied := 7, ahead := [wRec 9] }
     fromPartner d 4 0x40 (wRec 9) ∧ (d.mir.ahead.any fun x => field x.data 0 8 == 9) = true) ∧
    (let d := { mirDev 0xF00 0x200 { role := 2, term := 3, applied := 7 } with pool := farDev.pool, far := { farDev.far with cached := [(2048, { slot := 9, state := 0 })] } }
     let m := mirMsg 0x43 3 (natBytes 8 8 ++ zeros 8 ++ [1] ++ zeros 7 ++ natBytes 8 (2048 * 65536) ++ [1] ++ zeros 7)
     fromPartner d 4 0x43 m ∧ ((withMir (d.taken m) fun k => { k with ahead := [m] }).applyRecord m false) = none) ∧
    (∀ k ∈ [({ role := 1, term := 3 } : MirrorSt), { role := 3, phase := 4, term := 3 }], fromPartner (mirDev 0xF00 0x200 k) 4 0x40 (wRec 8) ∧ (mirDev 0xF00 0x200 k).mir.role ≠ 2) ∧
    (∀ op ∈ [0x40, 0x41, 0x42, 0x43], (mirMsg op 0 []).opcode = op ∧ (mirMsg op 0 []).dst = (linkDev 0 {}).ownNode ∧ (mirMsg op 0 []).cls = 0) ∧
    (let d := stbD
     (wRec 8).opcode = 0x40 ∧ field (wRec 8).data 16 8 = addr4 ∧ 0 < ((wRec 8).data.drop 24).length ∧ (d.emtOf (addr4 / 2 ^ 25)).kind = 1) := by
  refine ⟨?_, ?_, ?_, ?_, ?_⟩ <;> decide +kernel
/-- A hand-over whose last record is acknowledged; an answer DENIED for the standby's detail; a response with nothing to wait for. -/
theorem witness_Acknowledgement_more :
    (let k : MirrorSt := { role := 3, phase := 4, term := 3, unacked := [repRec none], handoverDue := true }
     let s := mirDev 0xF00 0x200 k
     let d := forEach (s.mir.unacked.takeWhile (·.seq ≤ 5)) (fun r d => d.repAcked r (if r.seq = 5 then msgDetail ackMsg else 0))
       (withMir (s.taken ackMsg) fun k => { k with unacked := k.unacked.dropWhile (·.seq ≤ 5) })
     let e := (d.installReady).digestsDue.holdOver
     fromPartner s 4 0x45 ackMsg ∧ e.mir.handoverDue = true ∧ e.mir.unacked = []) ∧
    (fabDev.mir.unacked.length ≤ 0) := by decide +kernel
theorem witness_Digests :
    (fabDev.digesting = false ∧ (∀ m ∈ [digMsg 9 0 0, digMsg 9 1 0], fromPartner stbD 4 0x44 m ∧ stbD.digesting = true ∧ stbD.mir.missedNext ≤ 9)) ∧
    (∀ ph ∈ [0, 2], let d := mirDev 0xF00 0x200 { role := 2, phase := ph, term := 3 }
      fromPartner d 4 0x44 (digMsg 9 0 0) ∧ d.digesting = true ∧ d.digestOf 9 = (0, 0)) ∧
    (let d := mirDev 0xF00 0x200 { role := 1, term := 3, missedNext := 10 }
     fromPartner d 4 0x44 (digMsg 9 0 0) ∧ 9 < d.mir.missedNext) ∧
    (∀ x ∈ [([], [4]), ([3], [4]), ([], [])], let d := mirDev 0xF00 0x200 { role := 1, phase := 1, cause := 4, heldEpochs := x.1, carrying := x.2 }
      d.mir.role = 1 ∧ d.mir.phase = 1 ∧ 2 ≤ d.mir.cause ∧ d.mir.cause ≤ 4 ∧ d.mir.unacked = [] ∧ (x = ([], [4]) ↔ d.mir.heldEpochs = [] ∧ d.mir.carrying ≠ [])) ∧
    (∀ k ∈ [({ role := 1 } : MirrorSt), { role := 2 }], (mirDev 0xF00 0x200 k).mir.phase = 0) := by
  refine ⟨?_, ?_, ?_, ?_, ?_⟩ <;> decide +kernel
theorem witness_FetchAndTime :
    (let m := mirMsg 0x46 3 (natBytes 8 addr4 ++ [1])
     fromPartner actD 4 0x46 m ∧ ((actD.taken m).keyOf addr4).isSome = true ∧ field m.data 8 1 ≠ 0) ∧
    (let m := mirMsg 0x46 3 (natBytes 8 (addr4 + 2 ^ 25) ++ [0])
     let d := { actD with pool := farDev.pool, far := { farDev.far with cached := [] } }
     fromPartner d 4 0x46 m ∧ (d.taken m).keyOf (addr4 + 2 ^ 25) = none ∧ ((d.taken m).emtOf 5).kind = 2) ∧
    ((({ actD with poison := [0] } : Dev).keyOf addr4).any fun x => (({ actD with poison := [0] } : Dev).readLine 4 x addr4).1.isNone) = true ∧
    (fromPartner actD 4 0x47 (mirMsg 0x47 3 (natBytes 8 9 ++ natBytes 8 5)) ∧ actD.mir.stepDue = false) := by
  refine ⟨?_, ?_, ?_, ?_⟩ <;> decide +kernel
theorem witness_WitnessCommands_more :
    (let d := (witD { role := 1, term := 3 }).setPort 0 fun p => { p with accepted := allFeatures - 2 ^ 8 }
     d.portUp 0 = true ∧ (d.wakeLatch 1).hasFeature (portNode 0) 8 = false) ∧ (witD { role := 0 }).mir.role ≠ 1 ∧ (witD { role := 1 }).mir.phase ≠ 1 ∧
    (witD { role := 1 }).portUp 0 = true := by decide +kernel

/-- The stack has moved its share; an access that waited long, and one that did not; a corrected line that waits for its write. -/
theorem witness_StackAccesses_more :
    (let d := stkDev { state := 2, moved := [(10 ^ 9, 2 ^ 30)] }
     d.stackShare < 64 + ((d.movedNow 5).map (·.2)).sum) ∧
    (stkDev { state := 2, queue := [acc0] }).nextAccess 5 0 = some (acc0, true) ∧
    (let x := { acc0 with arrived := 10 ^ 9 }
     (stkDev { state := 2, queue := [x] }).nextAccess 5 0 = some (x, false)) ∧
    (let d := { stkDev { state := 2 } with ecc := { fabDev.ecc with writeBacks := [(0, 5 * 2 ^ 32)] } }
     d.shareLeft 5 ≠ 0 ∧ (d.ecc.writeBacks.find? fun e => e.2 / 2 ^ 32 == 5 && bankOf (e.2 % 2 ^ 32) == 0) = some (0, 5 * 2 ^ 32)) ∧
    ((stkDev { state := 2, badCommands := 15 }).stack 5).badCommands = 15 := by decide +kernel
/-- Temperatures that change the factor or do not; a reading missing for less than 10 ms, in a stack that is being reset; a throttle in force. -/
theorem witness_StackUpkeep_more :
    (∀ st ∈ [2, 3], let d := stkDev { state := st, therm := 1, tempAt := 10 ^ 9 }
      ((d.stack 5).state = 2 ∨ (d.stack 5).state = 3) ∧ thermNext (d.stack 5).therm 84 = (d.stack 5).therm ∧ thermNext (d.stack 5).therm 96 ≠ (d.stack 5).therm ∧
      (let t := d.till ((d.stack 5).tempAt + msTicks 1)
       t.now < ((d.stack 5).unreadableSince.getD t.now) + msTicks 10)) ∧
    (95 < 96 ∧ (85 < 86 ∧ 93 ≤ 93) ∧ 83 ≤ 83 ∧ (93 < 95 ∧ 95 ≤ 95) ∧ (83 < 85 ∧ 85 ≤ 85 ∧ 2 ≤ 2)) ∧
    (let t : Throttle := { origin := 7, bank := 0, row := 0, expiry := 9, lastAct := 0 }
     let d := stkDev { state := 2, throttles := [t, { t with expiry := 12 }] }
     (∃ x ∈ (d.stack 5).throttles, x.expiry = 9) ∧ ∀ x ∈ (d.stack 5).throttles, 9 ≤ x.expiry) ∧
    (let d := stkDev { state := 2, owed := [(0, 0)], queue := [{ acc0 with a := 0 }] }
     (∀ e ∈ (d.stack 5).owed, 4 * (e.1 / 64) + e.1 % 64 / 16 = 0 → e.2 = 0) ∧ ∀ x ∈ (d.stack 5).queue, 4 * (bankOf x.a / 64) + bankOf x.a % 64 / 16 ≠ 255) := by
  refine ⟨?_, ?_, ?_, ?_⟩ <;> decide +kernel
/-- Sealed, or paired: the test modes are barred; each mode armed for one write, and for two. -/
theorem witness_TestModes :
    (∀ d ∈ [{ fabDev with sec := { fabDev.sec with state := 2 } }, { fabDev with mir := { role := 1 } }], d.eccBarred = true ∧ bits 0x101 8 8 ≠ 0 ∧ bits 0x101 0 2 ≠ 0) ∧
    (fabDev.eccBarred = false ∧ bits 1 8 8 = 0) ∧
    (∀ m ∈ [1, 2, 3], ∀ n ∈ [1, 2], let d := fabDev.eccTestWrite (256 * n + m)
      d.fld 0x900080 0 2 = m ∧ d.fld 0x900080 8 8 = n ∧ 64 % 64 = 0) := by
  refine ⟨?_, ?_, ?_⟩ <;> decide +kernel

/-- A syndrome's fold with the sum evaluated at every symbol, so that the kernel does not nest it. -/
def horner (a : Nat) : List Nat → Nat → Nat
  | [], s => s
  | c :: l, 0 => horner a l (Nat.xor (gfMul 0 a) c)
  | c :: l, s + 1 => horner a l (Nat.xor (gfMul (s + 1) a) c)
theorem horner_eq (a : Nat) (l : List Nat) : ∀ s, horner a l s = l.foldl (fun s c => Nat.xor (gfMul s a) c) s := by
  induction l with
  | nil => intro s; simp [horner]
  | cons c l ih => intro s; cases s <;> simp [horner, ih]
theorem syndromes_eq (w : List Nat) : syndromes w = (List.range 7).map fun j => horner (gfAlpha j) w 0 := by
  simp [syndromes, syndrome, horner_eq]
/-- An error of six symbols, the coefficients of (x + 1)(x + α)…(x + α^4); a poisoned line of zeros, and one of no kind. -/
def wrong6 : List Byte := zeros 66 ++ [1, 31, 198, 63, 147, 116]
def words : List (List Byte) := [zeros 64 ++ [128, 113, 203, 146, 228, 233, 189, 24], zeros 72, zeros 64 ++ [5, 158, 143, 200, 14, 39, 73, 188]]
set_option maxRecDepth 20000 in
theorem wrong6_decodes : decodeLine 0 wrong6 = none ∧ decodeLine 0 (1 :: zeros 71) = some (zeros 72, true) ∧ ∀ w ∈ words, decodeLine 0 w = some (w, false) := by
  refine ⟨?_, ?_, ?_⟩ <;> unfold decodeLine correct <;> simp only [syndromes_eq] <;> decide +kernel
set_option maxRecDepth 20000 in
theorem zeros_encode : xorBytes (encodeLine 0 (zeros 64) 0) wrong6 = wrong6 := by decide +kernel
/-- The device with the codeword of its first line so. -/
def oddDev (w : List Byte) : Dev := { fabDev with ecc := { fabDev.ecc with odd := [(0, w)] } }
/-- A line that is no pool line; a codeword with too many wrong symbols; one that is poisoned, right, of no kind, or right after correction. -/
theorem witness_ReadsAndScrubbing :
    (let d := stkDev { state := 2 }
     (d.stack 5).state = 2 ∧ d.lineAt 5 (20481 * 65536 - 1) = none) ∧
    (∀ w, tget (oddDev w).ecc.odd (0 / 64) = some w) ∧ decodeLine 0 wrong6 = none ∧
    (decodeLine 0 (1 :: zeros 71) = some (zeros 72, true) ∧ (zeros 72).getD 64 0 = 0#8) ∧
    ((∀ w ∈ words, decodeLine 0 w = some (w, false)) ∧ words.map (·.getD 64 0) = [128#8, 0#8, 5#8]) ∧
    (tget fabDev.ecc.odd (0 / 64) = none ∧ wrong6 ≠ []) ∧ readWith 0 (fabDev.setBytes 0 0) wrong6 = none := by
  have hz : fabDev.setBytes 0 0 = zeros 64 := by decide +kernel
  have hr : readWith 0 (zeros 64) wrong6 = none := by
    have hn : wrong6.isEmpty = false := by decide
    simp only [readWith, hn, Bool.false_eq_true, if_false]
    rw [zeros_encode, wrong6_decodes.1]
  exact ⟨by decide +kernel, fun w => rfl, wrong6_decodes.1, ⟨wrong6_decodes.2.1, by decide⟩, ⟨wrong6_decodes.2.2, by decide⟩, by decide +kernel, by rw [hz]; exact hr⟩

/-- With the lease held by the other port. -/
def noLease (d : Dev) : Dev := { d with host := { d.host with lease := { holder := 2, expiry := 10 ^ 10 } } }
/-- A public key of one level with the type codes of LMS H5 and LM-OTS N32 W8. -/
def key0 : List Byte := [0, 0, 0, 1, 0, 0, 0, 5, 0, 0, 0, 4] ++ zeros 48
/-- A client's descriptor of the security core, on ring 128 of node 7, its input at the start of region 3. -/
def secCli (st op : Nat) : Dev :=
  let d := fabDev.setRing 128 fun r => { r with started := [{ idx := 0, bytes := descOf [(40, 8, addr4)], op := op, recRing := 129 }] }
  { d with sec := { d.sec with state := st, tenantLo := 1, tenantHi := 0xEFF } }
/-- A key that is none; tenant bounds that are no node ID; with a region, or a session; without the lease; a client's ciphertext read, refused or held;
a device outside the tenant range; each state, with and without one that waits for the end of an unsealing. -/
theorem witness_Sealing_more :
    (hssKeyOk (slice key0 0 60) = true ∧ hssKeyOk (slice [] 0 60) = false) ∧
    (∀ b ∈ [tenants 0 1, tenants 0xF00 1, tenants 1 0, tenants 1 0xF00], leased (secDev 1 0x62 b) 0 0 0x62 true [9] b ∧
      (field b 8 2 % 4096 = 0 ∨ 0xEFF < field b 8 2 % 4096 ∨ field b 10 2 % 4096 = 0 ∨ 0xEFF < field b 10 2 % 4096)) ∧
    (let d := { begin0 fabDev 0x62 [] with sec := { dev0.sec with state := 1 } }
     leased d 0 0 0x62 true [9] [] ∧ d.pool.regions ≠ [] ∧ d.host.sessions ≠ []) ∧
    (∀ x ∈ [(1, 0x62, true), (2, 0x63, false), (3, 0x65, true), (1, 0x67, false), (1, 0x68, false)], let d := noLease (secDev x.1 x.2.1 [])
      d.ready 0 0 x.2.1 [] ∧ admits d 0 x.2.2 (if x.2.1 < 0x66 then [9] else []) ∧ d.hasLease (d.ringOwner 0) = false ∧
      (d.ringOwner 0 < d.sec.tenantLo ∨ d.sec.tenantHi < d.ringOwner 0)) ∧
    ((secDev 3 0x63 []).ready 0 0 0x63 [] ∧ admits (secDev 3 0x63 []) 0 false [9] ∧ nodePort (((secDev 2 0x63 []).begun 0 0).ringOwner 0) = some 0) ∧
    (∀ x ∈ [(0, secCli 2 0x63), (2, { secCli 2 0x63 with poison := [0] }), (1, lineHeld line4 (secCli 2 0x63))], let b := descOf [(40, 8, addr4)]
      let d := x.2.begun 128 0
      x.2.ready 128 0 0x63 b ∧ admits x.2 128 false [9] ∧ nodePort (d.ringOwner 128) = none ∧ (x.2.sec.tenantLo ≤ x.2.ringOwner 128 ∧ x.2.ringOwner 128 ≤ x.2.sec.tenantHi) ∧
      gotIs x.1 (d.readRun (some (d.ringOwner 128)) (field b 40 8) 1568) = true) ∧
    (∀ u ∈ [none, some (.desc 0 0)], let d := { secDev 4 0x65 [] with sec := { (secDev 4 0x65 []).sec with unsealer := u }, pool := { dev0.pool with cacheFrames := List.range 4096 } }
      d.sec.state = 4 ∧ (d.far.cmds.any fun c => c.2.kind == 3 && c.2.skein != noSkein) = false ∧ (d.bindRest.secState 1).sec.unsealer = u) := by
  refine ⟨?_, ?_, ?_, ?_, ?_, ?_, ?_⟩ <;> decide +kernel
/-- A component in partial reset; no fuse left; pattern keys held or not, as many as there may be; a client's key read, refused or held. -/
theorem witness_AttestationAndKeys_more :
    (let d := { secDev 1 0x60 [] with sec := { dev0.sec with state := 1, attests := [{ ring := 0, idx := 0, since := 0 }], lastSign := 5 }, boot := { dev0.boot with inReset := [(9, 5)] } }
     d.secBusy = false ∧ (d.startedAt 0 0).isSome = true ∧ d.boot.inReset ≠ [] ∧ d.sec.lastSign ≠ 0) ∧ (secDev 1 0x60 []).sec.attests = [] ∧
    32768 ≤ ({ State.reset.fuse with topUsed := 32768 } : Fuses).topUsed ∧
    (let k : PatternKey := { owner := 0xFF0, slot := 3, key := key0 }
     (([k].find? fun k => k.owner == 0xFF0 && k.slot == 3) = some k ∧ (([k].find? fun k => k.owner == 0xFF0 && k.slot == 2)) = none) ∧
     1024 ≤ (List.replicate 1024 k).length) ∧
    (∀ st ∈ [0, 1], ∀ x ∈ [(0, secCli st 0x66), (2, { secCli st 0x66 with poison := [0] }), (1, lineHeld line4 (secCli st 0x66))], let b := descOf [(40, 8, addr4)]
      let d := x.2.begun 128 0
      x.2.ready 128 0 0x66 b ∧ admits x.2 128 false [] ∧ nodePort (d.ringOwner 128) = none ∧ field b 9 1 = 0 ∧
      gotIs x.1 (d.readRun (some (d.ringOwner 128)) (field b 40 8) 60) = true) := by
  refine ⟨?_, ?_, ?_, ?_, ?_⟩ <;> decide +kernel
/-- An Amusk image of this SVN. -/
def fwImage (svn : Nat) : List Byte :=
  ascii "AMSK" ++ natBytes 4 svn ++ natBytes 4 64 ++ natBytes 4 16 ++ sha256 (List.replicate 64 7) ++ zeros 32 ++ natBytes 4 1296 ++ zeros 44 ++
    List.replicate 64 7 ++ sig0
/-- Images that are good, too old, and wrong; a staged one and none to drop; a token refused; a lifetime that ends. -/
theorem witness_FirmwareAndDebug_more :
    (let b := bytesOf 64 [(48, 4, 1536)]
     leased (secDev 1 0x67 b) 0 0 0x67 false [] b ∧ field b 8 1 = 0 ∧ clampGrain 64 128 15728640 (field b 48 4) = 1536 ∧ imageOk (fwImage 1) 1536 true = true ∧
     State.reset.fuse.svn ≤ field (fwImage 1) 4 4 ∧ field (fwImage 1) 4 4 < ({ State.reset.fuse with svn := 2 } : Fuses).svn) ∧
    ((fwImage 1).drop 1 |>.take 4) ≠ ascii "AMSK" ∧ 1472 < 128 + field (fwImage 1) 8 4 + field (fwImage 1) 80 4 ∧
    hssShaped (slice ((fwImage 1).set 195 1) 192 1296) = false ∧ sha256 (slice ((fwImage 1).set 128 8) 128 64) ≠ slice ((fwImage 1).set 128 8) 16 32 ∧
    (∀ t ∈ [true, false], let b := bytesOf 64 [(8, 1, 1)]
      let d := { secDev 1 0x67 b with sec := { (secDev 1 0x67 b).sec with staged := t } }
      leased d 0 0 0x67 false [] b ∧ field b 8 1 ≠ 0 ∧ d.sec.staged = t) ∧
    (secDev 1 0x68 []).sec.state ≠ 5 := by
  refine ⟨?_, ?_, ?_, ?_, ?_, ?_, ?_⟩ <;> decide +kernel

/-- Commands of the power manager without the lease, out of their turn, and with work that bars the entry; an entry that is late; a wake that came
during one; a plan that waits for the wake. -/
theorem witness_PowerStatesAndWake_more :
    (∀ op ∈ [0x70, 0x71, 0x74], let d := noLease (pmDev op [] id)
      d.pmHead = some (0, 0) ∧ d.pm.state = 1 ∧ admits d 0 false [] ∧ d.hasLease (d.ringOwner 0) = false ∧ d.ready 0 0 op []) ∧
    ((pmDev 0x70 [] fun k => { k with state := 2 }).pmHead ≠ some (0, 1) ∧ (pmDev 0x70 [] fun k => { k with state := 2 }).pm.state ≠ 1) ∧
    (let d := { pmDev 0x70 (psDesc 1 0) id with sec := { dev0.sec with state := 4 } }
     d.mir.role = 0 ∧ ((d.begun 0 0).clamped 1 0).entryBarred = true) ∧
    (let d := { dev0 with pm := { dev0.pm with state := 4, entry := some (3, 5, 0, .desc 0 0), entryLate := true } }
     d.pm.entry = some (3, 5, 0, .desc 0 0) ∧ d.pm.state = 4 ∧ d.pm.entryLate = true) ∧
    (∀ w ∈ [0, 3], let d := { dev0 with pm := { dev0.pm with state := 2, entry := none, depth := 0, wakeDue := w } }
      (d.panelsFollow.refuseQueued.pm.wakeDue = 0 ↔ w = 0)) ∧
    (∀ b ∈ [true, false], ({ dev0 with age := { dev0.age with planDue := b } } : Dev).age.planDue = b) ∧ (dev0.glFld 4 0 28 2 = 0) := by
  refine ⟨?_, ?_, ?_, ?_, ?_, ?_, ?_⟩ <;> decide +kernel
/-- Each divisor of an island that is off; a PLL that is locked in each state; gauges that have read a worst value; a plan that tightens, and one that
does not; a link being retrained. -/
theorem witness_ClocksAndPlans_more :
    (∀ v ∈ [64, 63], (clkDev true 0).islandOn 0 = false ∧ (let d := pmDev 0 [] fun k => { k with rootLocked := true, divisors := [(0, v)] }
      tgetD d.pm.divisors 0 0 = v ∧ v ≠ 0 ∧ d.pm.rootLocked = true)) ∧
    (∀ st ∈ [0, 1], let d := pmDev 0 [] fun k => { k with state := st, rootLocked := true }
      d.pm.rootLocked = true ∧ d.pm.state = st ∧ ((List.range 24).filter fun l => (d.link l).state == 6) = []) ∧
    (∀ g ∈ [0, 992, 1119, 1120, 1143], (tget [(g, 5)] g : Option Nat) = some 5) ∧
    (∀ x ∈ [(([] : Tbl Nat), true), ([(512, 900)], false)], let d := { dev0 with age := { dev0.age with worst := x.1, startPlan := true } }
      d.age.startPlan = true ∧ d.pm.state = 1 ∧ d.pmHead = none ∧ (let p := ({ d with age := { d.age with startPlan := false } } : Dev).planNow 3
        let m := d.age.plan.margins
        (m.tighten p.margins = m ∧ Nat.land p.retrainLinks d.age.plan.retrainLinks = p.retrainLinks ∧ Nat.land p.retrainPcie d.age.plan.retrainPcie = p.retrainPcie) ↔ x.2 = true)) ∧
    (let d := { dev0 with pm := { dev0.pm with state := 2 } }
     d.boot.ready = true ∧ d.pmHead = none ∧ d.pm.state ≠ 1) ∧
    (let d := { retDev [4] with age := { (retDev [4]).age with retraining := some 3 } }
     d.age.retraining.isSome = true ∧ d.retrainable 4 = true) ∧
    (let d := { begin0 dev0 0x75 [] with sec := { dev0.sec with state := 0 } }
     d.ready 0 0 0x75 [] ∧ d.personality ≠ 1) := by
  refine ⟨?_, ?_, ?_, ?_, ?_, ?_, ?_⟩ <;> decide +kernel
/-- A full journal with this entry to write; ring 2, an event ring, so. -/
def jouDev (src : Nat) (lost : Bool) : Dev :=
  { evtDev true with evt := { held := [{ time := 5, source := src }], lost := lost, head := 65537, journal := [(1, { time := 1, source := 2 }), (65536, { time := 2, source := 2 })] } }
def evtRing (f : Ring → Ring) : Dev := (dev0.setRing 2 f)
/-- An event of a core's input and one above them, with entries lost or not, while the journal is full; an event ring whose filter bars the entry, one
that is full, in FAULT, or has room. -/
theorem witness_TheJournal_more :
    (∀ src ∈ [0x9FF, 0xA00], ∀ l ∈ [true, false], let d := jouDev src l
      d.evt.buffer.foldl (fun h x => insertEvent x h) d.evt.held = [{ time := 5, source := src }] ∧ d.evt.lost = l ∧ keysRise d.evt.journal = true ∧ 65536 ≤ d.evt.head ∧
      (65536 ≠ d.evt.head ∧ d.evt.head < 65536 + 65536)) ∧
    (let x : Event := { time := 5, source := 0xA00 }
     ((evtRing fun r => { r with ranges := [(1, 2)] }).ring 2).filters x = false ∧
     (let d := evtRing fun r => { r with state := 3 }
      (d.ring 2).filters x = true ∧ (d.ring 2).state = 3) ∧
     (let d := evtRing fun r => { r with prod := r.slots }
      (d.ring 2).filters x = true ∧ (d.ring 2).state = 1 ∧ (d.ring 2).slots ≤ (d.ring 2).used + (d.ring 2).held.length) ∧
     ((dev0.ring 2).filters x = true ∧ (dev0.ring 2).state = 1 ∧ (dev0.ring 2).used + (dev0.ring 2).held.length < (dev0.ring 2).slots)) := by
  refine ⟨?_, ?_⟩ <;> decide +kernel
/-- R416: the entry before the one that is written stays in the journal. -/
theorem test_journal_keeps :
    (((jouDev 0xA00 false).journalWrite).evt.journal.map (·.1)) = [65536, 65537] := by decide +kernel
/-- An input taken again although another of its priority qualifies, and one that gives way to a higher. -/
theorem witness_CoreInterrupts_again :
    (∀ p ∈ [6, 15], let d := { (dev0.setInput 3 1).setCore 7 fun k => { k with again := [255] } with regs := [(0x50000 + 4 * 3, p + 7 * 16), (0x50000 + 4 * 255, 6 + 7 * 16)] }
      (d.core 7).again = [255] ∧ d.qualifies 7 3 = true ∧ d.inPrio 255 = 6 ∧ d.inPrio 3 = p ∧ ((∀ m, m < 256 → d.qualifies 7 m = true → d.inPrio m ≤ d.inPrio 255) ↔ p = 6)) := by
  decide +kernel
/-- A ring of another owner; an event of a node that has a session, with and without an event ring of its own; a count seen coarsely. -/
theorem witness_EventsAndCounters_more :
    (let d := (begin0 fabDev 0x78 (descOf [(8, 2, 128)])).setRing 128 fun r => { r with kind := 2, state := 1, enable := true }
     d.ringOwner 128 ≠ d.ringOwner 0 ∧ field (descOf [(8, 2, 128)]) 8 2 % 1024 = 128) ∧
    (let e : Event := { time := 5, source := 2, origin := 7 }
     (∀ b ∈ [true, false], let d := if b then fabDev.setRing 128 fun r => { r with kind := 2, state := 1, enable := true } else fabDev
       e.origin = 7 ∧ d.hasFeature 7 15 = true ∧ (d.host.rings.any fun r => r.2.kind == 2 && r.2.enable && d.ringOwner r.1 == 7) = b) ∧
     fabDev.hasFeature 9 15 = false) := by
  refine ⟨?_, ?_⟩ <;> decide +kernel

/-- The start-up begun, with these modules failed; its stacks brought up from the running slot. -/
def booted (b : BootInfo) : Dev := forEach b.d2dFailed (fun i d => d.moduleFail i) ((offDev 0).bootBegin.portsTrain b.upLinks)
def stacked (b : BootInfo) : Dev :=
  let e := booted b
  forEach (List.range 6) (fun s d => d.bootStack b.stacksOk b.castonRows s) { e with sec := { e.sec with
    activeSlot := 0, runningSvn := e.sec.slotA.svn, staged := e.sec.staged && e.sec.activeSlot == 0 } }
/-- The device is READY and a port waits; no flue die; too few stacks; all of them, with and without a fuse to make a tree; the security state of the
part; PERST# on a port in each power state; stops in each phase. -/
theorem witness_StartUp_more :
    (let d := { dev0 with boot := { dev0.boot with perst1 := true } }
     d.boot.phase ≠ 0 ∧ d.boot.ready = true ∧ d.allPerst = false) ∧
    ((booted { bootB true with d2dFailed := List.range 16 }).noFlue = true) ∧
    ((booted (bootB true)).noFlue = false ∧ bootSlot State.reset.fuse (booted (bootB true)).sec (bootB true) = some 0 ∧
      bootSlot State.reset.fuse (booted (bootB false)).sec (bootB false) = none ∧ (stacked (bootB true)).stacksActive.length < 5) ∧
    (let b := { bootB true with stacksOk := [0, 1, 2, 3, 4, 5] }
     5 ≤ (stacked b).stacksActive.length ∧ 5 ≤ ((stacked b).bootSets b).stacksActive.length ∧ ((stacked b).bootSets b).sec.state ≠ 5) ∧
    State.reset.fuse.topUsed < 32768 ∧ 32768 ≤ ({ State.reset.fuse with topUsed := 32768 } : Fuses).topUsed ∧
    (∀ p ∈ [1, 7], 1 ≤ (offDev p).boot.phase ∧ (offDev p).boot.phase ≤ 7) ∧ (8 ≤ dev0.boot.phase) ∧
    (let d := { offDev 0 with pm := { (offDev 0).pm with rootLocked := false, oscDone := true } }
     d.boot.phase = 0 ∧ d.pm.aonGood = true ∧ d.pm.oscDone = true ∧ d.pm.rootLocked = false) ∧
    (∀ st ∈ [1, 2, 3, 5], ∀ r ∈ [true, false], let d := { pmDev 0 [] (fun k => { k with state := st }) with boot := { dev0.boot with ready := r } }
      portEnabled 0 = true ∧ d.boot.perst0 = false ∧ d.boot.ready = r ∧ d.pm.state = st ∧ ({ d with boot := { d.boot with perst0 := true } } : Dev).allPerst = false) := by
  refine ⟨?_, ?_, ?_, ?_, ?_, ?_, ?_, ?_, ?_, ?_⟩ <;> decide +kernel
/-- Each component; a module whose failure leaves too few; a flue die that is out already; a loopback of this port; a node ID nothing uses, and one in use. -/
theorem witness_PartialResets_more :
    (∀ k ∈ [0, 12, 13, 30, 31], k = (k + 32) % 32) ∧ administers dev0 0 ∧
    ((stkDev { state := 2 }).stack 5).state = 2 ∧
    (let d := { dev0 with boot := { dev0.boot with d2dOff := [0, 1, 2, 3] } }
     d.boot.phase ≠ 0 ∧ nmem d.boot.d2dOff 4 = false ∧ ({ d with boot := { d.boot with d2dOff := nadd d.boot.d2dOff 4 } } : Dev).modulesUp (4 / 8) < 4 ∧ 4 ≤ dev0.modulesUp 1) ∧
    (nmem ({ dev0.boot with flueOff := [1] } : BootSt).flueOff 1 = true ∧ nmem dev0.boot.flueOff 1 = false) ∧
    ({ dev0.test with loopback := some (2, 2, 0, 9, 0) } : TestSt).loopback = some (2, 2, 0, 9, 0) ∧
    ((∀ l, l < 24 → (dev0.link l).state ≠ 6) ∧ dev0.host.sessions = [] ∧ ((linkDev 0 { state := 6 }).link 4).state = 6) := by
  refine ⟨?_, ?_, ?_, ?_, ?_, ?_, ?_⟩ <;> decide +kernel
/-- A loopback asked for while one runs, and the end of each kind, passed or not; a self-test of a retired panel, of another, with TEST_EN, and while
one runs; the end of one of a panel, of the cache, of a flue die; the pins where TEST_EN is set, or the Open level is. -/
theorem witness_TestFeatures_more :
    (let d := ({ linkDev 0 { state := 6 } with test := { dev0.test with loopback := some (0, 5, 4, 9, 0) } } : Dev).loopFields loopV
     d.test.loopback.isSome = true) ∧
    (∀ k ∈ [0, 1, 2, 3], ∀ dp ∈ [1, 2, 3, 4, 5], ∃ t : TestSt, t.loopback = some (k, dp, 0, 9, 0)) ∧
    (loopPasses 0 1 10 1 = true ∧ loopPasses 0 1 11 1 = false ∧ loopPasses 3 1 0 1 = true ∧ loopPasses 3 1 1 1 = false) ∧
    (∀ st ∈ [psRetired, psIdle], let d := ((dev0.setPanel 15 fun q => { q with state := st }).bistTarget 15)
      let n := d.reg 0xA00010 % 2 ^ 31
      let e := d.setReg 0xA00010 (2 ^ 31 + n)
      administers dev0 0 ∧ e.test.bist = none ∧ e.boot.testEn = false ∧ n = 15 ∧ ((e.panel n).state = 5 ↔ st = psRetired)) ∧
    (let d := { dev0 with boot := { dev0.boot with testEn := true }, test := { dev0.test with bist := some 16 } }
     d.boot.testEn = true ∧ d.test.bist.isSome = true ∧ (15 < 16 ∧ 17 ≤ 18 ∧ 1 ≠ 0)) := by
  refine ⟨?_, ?_, ?_, ?_, ?_⟩
  · decide +kernel
  · exact fun k _ dp _ => ⟨{ loopback := some (k, dp, 0, 9, 0) }, rfl⟩
  all_goals decide +kernel

end Sys2Proof.Tests
end

/-! Bit fields of numbers: what a field reads after it, or another, is written. -/

namespace Sys2Proof.Machine

theorem bits_lt (w lo n : Nat) : bits w lo n < 2 ^ n := Nat.mod_lt _ (Nat.two_pow_pos n)

/-- A field's bits are the number's, from its lowest on. -/
theorem testBit_bits (w lo n i : Nat) : (bits w lo n).testBit i = (decide (i < n) && w.testBit (lo + i)) := by
  rw [bits, Nat.testBit_mod_two_pow, Nat.testBit_div_two_pow, Nat.add_comm]

/-- What replacing a field makes: the bits below it, its new value and the bits above it. -/
theorem setBits_parts (w lo n v : Nat) :
    setBits w lo n v = 2 ^ lo * (2 ^ n * (w / 2 ^ lo / 2 ^ n) + v % 2 ^ n) + w % 2 ^ lo := by
  have hw : 2 ^ lo * (w / 2 ^ lo) + w % 2 ^ lo = w := Nat.div_add_mod w (2 ^ lo)
  have hf : 2 ^ n * (w / 2 ^ lo / 2 ^ n) + bits w lo n = w / 2 ^ lo := Nat.div_add_mod _ _
  have hsplit : w = 2 ^ lo * (2 ^ n * (w / 2 ^ lo / 2 ^ n)) + bits w lo n * 2 ^ lo + w % 2 ^ lo := by
    rw [Nat.mul_comm (bits w lo n), ← Nat.mul_add, hf, hw]
  rw [setBits, Nat.mul_add, Nat.mul_comm (v % 2 ^ n)]
  omega

/-- Replacing a field replaces its own bits alone. -/
theorem testBit_setBits (w lo n v i : Nat) :
    (setBits w lo n v).testBit i = if lo ≤ i ∧ i < lo + n then v.testBit (i - lo) else w.testBit i := by
  rw [setBits_parts, Nat.testBit_two_pow_mul_add _ (Nat.mod_lt _ (Nat.two_pow_pos lo)),
    Nat.testBit_two_pow_mul_add _ (Nat.mod_lt _ (Nat.two_pow_pos n))]
  simp only [Nat.testBit_mod_two_pow, Nat.testBit_div_two_pow]
  by_cases below : i < lo
  · simp [below, Nat.not_le.2 below]
  · by_cases within : i < lo + n
    · have h : i - lo < n := by omega
      simp [below, within, h, Nat.not_lt.1 below]
    · have h : ¬ i - lo < n := by omega
      have hi : i - lo - n + n + lo = i := by omega
      simp [below, within, h, hi]

theorem bits_setBits_same (w lo n v : Nat) : bits (setBits w lo n v) lo n = v % 2 ^ n := by
  apply Nat.eq_of_testBit_eq
  intro i
  rw [testBit_bits, testBit_setBits, Nat.testBit_mod_two_pow]
  by_cases h : i < n <;> simp [h]

theorem bits_setBits_apart (w lo n v lo' n' : Nat) (h : lo + n ≤ lo' ∨ lo' + n' ≤ lo) :
    bits (setBits w lo n v) lo' n' = bits w lo' n' := by
  apply Nat.eq_of_testBit_eq
  intro i
  rw [testBit_bits, testBit_bits, testBit_setBits]
  by_cases hi : i < n'
  · rw [if_neg (by omega)]
  · simp [hi]

end Sys2Proof.Machine

/-! The fields of a register: a pass that writes some of them leaves each at what it was given, and the others as they were. -/

namespace Sys2Proof.Machine

/-- A pass over fields, from the first on: those that `p` picks take the value `val` gives them. -/
def overFields (p : Fld → Bool) (val : Fld → Nat) (flds : List Fld) (old : Nat) : Nat :=
  flds.foldl (fun v x => if p x then setBits v x.lo x.n (val x) else v) old

theorem overFields_cons (p : Fld → Bool) (val : Fld → Nat) (y : Fld) (ys : List Fld) (old : Nat) :
    overFields p val (y :: ys) old = overFields p val ys (if p y then setBits old y.lo y.n (val y) else old) := rfl

/-- What a write of `v` does at one field: an RW field stores its part as clamped, and a clamp is counted. -/
def storeField (v : Nat) (acc : Nat × Nat) (x : Fld) : Nat × Nat :=
  if x.acc == .rw then
    (setBits acc.1 x.lo x.n (x.clamp.apply (bits v x.lo x.n)), acc.2 + b2n (x.clamp.apply (bits v x.lo x.n) != bits v x.lo x.n))
  else acc

theorem store_eq_foldl (r : RegRow) (old v : Nat) : r.store old v = r.flds.foldl (storeField v) (old, 0) := rfl

theorem foldl_storeField_fst (v : Nat) (flds : List Fld) (acc : Nat × Nat) :
    (flds.foldl (storeField v) acc).1 = overFields (·.acc == .rw) (fun x => x.clamp.apply (bits v x.lo x.n)) flds acc.1 := by
  induction flds generalizing acc with
  | nil => rfl
  | cons y ys ih =>
    rw [List.foldl_cons, ih, overFields_cons, storeField]
    split <;> rfl

/-- A write stores by such a pass over the RW fields. -/
theorem store_eq_overFields (r : RegRow) (old v : Nat) :
    (r.store old v).1 = overFields (·.acc == .rw) (fun x => x.clamp.apply (bits v x.lo x.n)) r.flds old := by
  rw [store_eq_foldl, foldl_storeField_fst]

/-- A read clears by such a pass over the RC fields. -/
theorem clearRc_reg (d : Dev) (who : Nat) (r : RegRow) (off : Nat) :
    (d.clearRc who r off).reg (copyAt who off) =
      overFields (·.acc == .rc) (fun _ => 0) r.flds (d.reg (copyAt who off)) := by
  have pass (old : Nat) : (r.flds.filter (·.acc == .rc)).foldl (fun v x => setBits v x.lo x.n 0) old =
      overFields (·.acc == .rc) (fun _ => 0) r.flds old := List.foldl_filter
  unfold Dev.clearRc
  rw [← pass]
  by_cases h : r.flds.filter (·.acc == .rc) = []
  · simp [h]
  · simp [h]

theorem apart_iff (x y : Fld) : apart x y = true ↔ x.lo + x.n ≤ y.lo ∨ y.lo + y.n ≤ x.lo := by
  simp [apart]

/-- A pass over fields that are apart from `x` leaves `x` as it was. -/
theorem bits_overFields_apart (p : Fld → Bool) (val : Fld → Nat) (x : Fld) (flds : List Fld) (old : Nat)
    (h : ∀ y ∈ flds, apart y x = true) : bits (overFields p val flds old) x.lo x.n = bits old x.lo x.n := by
  induction flds generalizing old with
  | nil => rfl
  | cons y ys ih =>
    rw [overFields_cons, ih _ fun z hz => h z (List.mem_cons_of_mem y hz)]
    split
    · exact bits_setBits_apart _ _ _ _ _ _ ((apart_iff y x).1 (h y List.mem_cons_self))
    · rfl

/-- Over fields that are apart, the pass leaves each field at its value, and one it does not pick as it was. -/
theorem bits_overFields (p : Fld → Bool) (val : Fld → Nat) (flds : List Fld) (old : Nat)
    (h : flds.Pairwise fun x y => apart x y = true) (x : Fld) (hx : x ∈ flds) :
    bits (overFields p val flds old) x.lo x.n = if p x then val x % 2 ^ x.n else bits old x.lo x.n := by
  induction flds generalizing old with
  | nil => cases hx
  | cons y ys ih =>
    obtain ⟨hy, hys⟩ := List.pairwise_cons.1 h
    rw [overFields_cons]
    rcases List.mem_cons.1 hx with rfl | hx
    · rw [bits_overFields_apart _ _ _ _ _ fun z hz => (apart_iff z x).2 ((apart_iff x z).1 (hy z hz)).symm]
      split
      · exact bits_setBits_same _ _ _ _
      · rfl
    · rw [ih _ hys hx]
      split
      · rfl
      · split
        · exact bits_setBits_apart _ _ _ _ _ _ ((apart_iff y x).1 (hy x hx))
        · rfl

theorem clampN_le (lo hi v : Nat) (h : lo ≤ hi) : clampN lo hi v ≤ hi := by
  unfold clampN
  split
  · exact h
  · split
    · exact Nat.le_refl hi
    · omega

/-- What a clamp that fits makes of a value of the field's width still has that width. -/
theorem Clamp.apply_lt (c : Clamp) (n v : Nat) (h : clampFits n c = true) (hv : v < 2 ^ n) : c.apply v < 2 ^ n := by
  cases c with
  | none => exact hv
  | range lo hi =>
    simp only [clampFits, Bool.and_eq_true, decide_eq_true_eq] at h
    exact Nat.lt_of_le_of_lt (clampN_le lo hi v h.1) h.2
  | codes first dflt =>
    simp only [clampFits, decide_eq_true_eq] at h
    simp only [Clamp.apply]
    split
    · exact h
    · exact hv
  | grain g lo hi =>
    simp only [clampFits, Bool.and_eq_true, decide_eq_true_eq] at h
    exact Nat.lt_of_le_of_lt (clampN_le lo hi _ h.1) h.2

/-- R12, R14: a write and a read are passes over the fields, which leave each of them at what the pass gives it. -/
theorem fieldsTakeTheirClampedPart : Says.FieldsTakeTheirClampedPart := by
  intro r hapart hfits
  constructor
  · intro old v x hx
    have hw : x.clamp.apply (bits v x.lo x.n) % 2 ^ x.n = x.clamp.apply (bits v x.lo x.n) :=
      Nat.mod_eq_of_lt (x.clamp.apply_lt x.n _ (hfits x hx) (bits_lt _ _ _))
    rw [store_eq_overFields, bits_overFields _ _ _ _ hapart x hx, hw]
    simp
  · intro d who off x hx
    rw [clearRc_reg, bits_overFields _ _ _ _ hapart x hx]
    simp

/-- R14, Table 24.2: the register map is a closed table, and its rows are checked one by one. -/
theorem fieldsAreApart : Says.FieldsAreApart := by
  unfold Says.FieldsAreApart
  decide +kernel

end Sys2Proof.Machine

/-! What a write of a whole register does: one that only stores, and an entry of the ingress filters. -/

namespace Sys2Proof.Machine

/-- A register without a write of its own stores its fields. -/
theorem regAction_stores (d : Dev) (f : Fuses) (who : Nat) (r : RegRow) (off v : Nat) (h : ownWrite r.base = false) :
    d.regAction f who r off v = d.storeReg who r off v := by
  simp only [ownWrite, List.contains_cons, List.contains_nil, Bool.or_eq_false_iff, beq_eq_false_iff_ne, ne_eq] at h
  unfold Dev.regAction
  simp [h]

/-- R8, R14, R15: such a write is `storeReg`, whose parts are the counting of the clamps and one register. -/
theorem registerWritesStore : Says.RegisterWritesStore := by
  intro d f who off v r h at_ w n
  have hstore : d.regAction f who r off v =
      ((List.range n).foldl (fun d _ => d.clamped r.group r.pos) d).setReg at_ (r.store (d.reg at_) w).1 :=
    regAction_stores d f who r off v h
  refine ⟨hstore, ?_, fun hn o ho => ?_⟩
  · rw [hstore, Dev.reg_setReg_same]
  · rw [hstore, Dev.reg_setReg_other _ _ _ _ ho, hn]
    rfl

/-- The rule of R41 as the entry's check states it: each bound of a range lies within its limits once the range is in order. -/
theorem igfLegal_iff (v : Nat) : igfLegal v = true ↔
    1 ≤ bits v 51 12 ∧ bits v 51 12 ≤ bits v 39 12 ∧ bits v 39 12 ≤ 0xFEF ∧ bits v 21 18 ≤ bits v 3 18 := by
  simp only [igfLegal, Bool.and_eq_true, decide_eq_true_eq]
  omega

/-- Each of the 384 offsets of Table 24.2 that hold an ingress filter entry is one of the register RT_IGF_ENTRY. -/
theorem regAt_igf (off : Nat) (h : off % 8 = 0) (hlo : 0x601000 ≤ off) (hhi : off < 0x601C00) :
    ∃ r, regAt off = some r ∧ r.base = 0x601000 ∧ r.wide = true := by
  have all : ∀ k < 384, (regAt (0x601000 + 8 * k)).any (fun r => r.base == 0x601000 && r.wide) = true := by decide +kernel
  have hk := all ((off - 0x601000) / 8) (by omega)
  rw [show 0x601000 + 8 * ((off - 0x601000) / 8) = off by omega] at hk
  simpa [Option.any_eq_true] using hk

theorem regAction_igf (d : Dev) (f : Fuses) (who : Nat) (r : RegRow) (off v : Nat) (h : r.base = 0x601000) :
    d.regAction f who r off v = d.igfWrite off v := by
  simp [Dev.regAction, h]

end Sys2Proof.Machine

/-! How an access of a port reaches a register: the port's own condition, the lease, and the word, the half or the pair it addresses. -/

namespace Sys2Proof.Machine

theorem portNode_ne_zero (p : Nat) : portNode p ≠ 0 := by
  unfold portNode; split <;> decide

/-- A port's accesses are served where it carries them and the device is not in Ember. -/
theorem portServes_portNode (d : Dev) (p : Nat) (h : p < 2) :
    d.portServes (portNode p) = (d.portUp p && d.pm.state != 3) := by
  simp [Dev.portServes, nodePort_portNode p h]

theorem hostUp_portServes (d : Dev) (p : Nat) (h : hostUp d p) : d.portServes (portNode p) = true := by
  obtain ⟨hp, ⟨_, hrun⟩, hport⟩ := h
  simp [portServes_portNode d p hp, hport, hrun]

theorem hostUp_reaches (d : Dev) (p off : Nat) (h : hostUp d p) : d.reaches off = true := by
  obtain ⟨_, ⟨hready, _⟩, _⟩ := h
  simp [Dev.reaches, hready]

theorem inBar2_of_bar0 (off : Nat) (h : off < 0x2000000) : inBar2 off = false := by
  have hbase : ¬ bar2Base ≤ off := Nat.not_le.2 h
  simp [inBar2, hbase]

theorem inCfg_of_bar0 (off : Nat) (h : off < 0x2000000) : inCfg off = false := by
  have hbase : ¬ cfgBase ≤ off := Nat.not_le.2 (Nat.lt_trans h (by decide))
  simp [inCfg, hbase]

/-- An access of no size or place that BAR0 takes (R8). -/
abbrev misplaced (off size : Nat) : Prop := (size ≠ 4 ∧ size ≠ 8) ∨ off % size ≠ 0 ∨ 0x2000000 ≤ off

/-! ## Writes of a port -/

section
variable (d : Dev) (f : Fuses) (p off v : Nat)

theorem regWrite_portDown (size : Nat) (hp : p < 2) (h : d.portUp p = false) : d.regWrite f (portNode p) off size v = d := by
  simp [Dev.regWrite, portNode_ne_zero, portServes_portNode d p hp, h]

theorem regWrite_word (h : hostUp d p) (hal : off % 4 = 0) (hoff : off < 0x2000000) (hv : v < 2 ^ 32) :
    d.regWrite f (portNode p) off 4 v = d.writeWord f (portNode p) off v := by
  have hlatch : d.wakeLatch 1 = d := wakeLatch_run d 1 h.2.1.2
  have hval := Nat.mod_eq_of_lt hv
  simp [-Nat.reducePow, Dev.regWrite, portNode_ne_zero, hostUp_portServes d p h, inBar2_of_bar0 off hoff, inCfg_of_bar0 off hoff,
    hlatch, hal, Nat.not_le.2 hoff, hval]

theorem regWrite_pair (h : hostUp d p) (hal : off % 8 = 0) (hoff : off < 0x2000000) (hv : v < 2 ^ 64) :
    d.regWrite f (portNode p) off 8 v = d.writePair f (portNode p) off v := by
  have hlatch : d.wakeLatch 1 = d := wakeLatch_run d 1 h.2.1.2
  have hval := Nat.mod_eq_of_lt hv
  simp [-Nat.reducePow, Dev.regWrite, portNode_ne_zero, hostUp_portServes d p h, inBar2_of_bar0 off hoff, inCfg_of_bar0 off hoff,
    hlatch, hal, Nat.not_le.2 hoff, hval]

theorem regWrite_misplaced (size : Nat) (h : hostUp d p) (hbar : inBar2 off = false) (hcfg : inCfg off = false)
    (hbad : misplaced off size) : d.regWrite f (portNode p) off size v = d.badAccess := by
  have hlatch : d.wakeLatch 1 = d := wakeLatch_run d 1 h.2.1.2
  simp [Dev.regWrite, portNode_ne_zero, hostUp_portServes d p h, hbar, hcfg, hlatch]
  omega

theorem regWrite_bar2 (size : Nat) (h : hostUp d p) (hbar : inBar2 off = true) :
    d.regWrite f (portNode p) off size v = d.doorbell (portNode p) (off - bar2Base) size v := by
  simp [Dev.regWrite, portNode_ne_zero, hostUp_portServes d p h, hbar]

/-- The holder of the administration lease writes the registers that need it. -/
theorem mayWrite_leased (act : Dev → Dev) (h : hostUp d p) (hfree : leaseFree off = false) (hring : inRings off = false)
    (hlease : d.hasLease (portNode p) = true) : d.mayWrite (portNode p) off act = act d := by
  simp [Dev.mayWrite, portNode_ne_zero, hostUp_reaches d p off h, hfree, hring, hlease]

/-- A port without the lease does not (R62). -/
theorem mayWrite_unleased (act : Dev → Dev) (h : hostUp d p) (hfree : leaseFree off = false) (hring : inRings off = false)
    (hlease : d.hasLease (portNode p) = false) : d.mayWrite (portNode p) off act = d.badAccess := by
  simp [Dev.mayWrite, portNode_ne_zero, hostUp_reaches d p off h, hfree, hring, hlease]

theorem writeWide_eq (who : Nat) (act : Dev → Dev) :
    d.writeWide who off act = act { d with halves := tdel d.halves (halfKey who off) } := rfl

theorem writeHalf_lower (who : Nat) (act : Nat → Dev → Dev) :
    d.writeHalf who off off v act = { d with halves := tput d.halves (halfKey who off) v } := by
  simp [Dev.writeHalf]

theorem writeHalf_upper_held (who base lo : Nat) (act : Nat → Dev → Dev) (h : off ≠ base)
    (hlo : tget d.halves (halfKey who base) = some lo) :
    d.writeHalf who base off v act = d.writeWide who base (act (lo + v * 2 ^ 32)) := by
  simp [Dev.writeHalf, h, hlo]

theorem writeHalf_upper_alone (who base : Nat) (act : Nat → Dev → Dev) (h : off ≠ base)
    (hlo : tget d.halves (halfKey who base) = none) : d.writeHalf who base off v act = d.badAccess := by
  simp [Dev.writeHalf, h, hlo]

/-- A word of a register that the lease holder writes. -/
theorem writeWord_mapped (r : RegRow) (h : hostUp d p) (hr : mapped off r) (hlease : d.hasLease (portNode p) = true) :
    d.writeWord f (portNode p) off v =
      if r.wide then d.writeHalf (portNode p) off off v fun x d => d.regAction f (portNode p) r off x
      else d.regAction f (portNode p) r off v := by
  obtain ⟨hat, _, _, hring, hmsix, hfree⟩ := hr
  rw [Dev.writeWord, mayWrite_leased d p off _ h hfree hring hlease]
  simp [hring, hmsix, hat]

/-- The word of a register's upper half that the lease holder writes. -/
theorem writeWord_upper (r : RegRow) (h : hostUp d p) (hup : regUpper off = some r) (hat : regAt off = none)
    (hring : inRings off = false) (hmsix : inMsix off = false) (hfree : leaseFree off = false)
    (hlease : d.hasLease (portNode p) = true) :
    d.writeWord f (portNode p) off v =
      d.writeHalf (portNode p) (off - 4) off v fun x d => d.regAction f (portNode p) r (off - 4) x := by
  rw [Dev.writeWord, mayWrite_leased d p off _ h hfree hring hlease]
  simp [hring, hmsix, hat, hup]

/-- A word that a port without the lease writes. -/
theorem writeWord_unleased (h : hostUp d p) (hfree : leaseFree off = false) (hring : inRings off = false)
    (hlease : d.hasLease (portNode p) = false) : d.writeWord f (portNode p) off v = d.badAccess :=
  mayWrite_unleased d p off _ h hfree hring hlease

/-- An aligned pair of words of a 64-bit register that the lease holder writes. -/
theorem writePair_mapped (r : RegRow) (h : hostUp d p) (hat : regAt off = some r) (hwide : r.wide = true)
    (hring : inRings off = false) (hfree : leaseFree off = false) (hlease : d.hasLease (portNode p) = true) :
    d.writePair f (portNode p) off v =
      ({ d with halves := tdel d.halves (halfKey (portNode p) off) } : Dev).regAction f (portNode p) r off v := by
  have hrow : (regAt off).filter (·.wide) = some r := by simp [hat, hwide]
  simp only [Dev.writePair, hring, hrow, mayWrite_leased d p off _ h hfree hring hlease, writeWide_eq]
  rfl

end

/-- A register write answers the state whose device the access makes. -/
theorem makes_registerWrite {s : State} {who off size v : Nat} {d : Dev} (h : s.dev.regWrite s.fuse who off size v = d) :
    Makes (.registerWrite who off size v) s d := h ▸ rfl

/-- R8, R9, R62, by the kind of access: down port, lease holder, other port, upper half, misplaced, BAR2. -/
theorem registerWritesTakeEffect : Says.RegisterWritesTakeEffect := by
  intro s p off v who held
  refine ⟨fun hp hdown size => makes_registerWrite (regWrite_portDown _ _ _ _ _ _ hp hdown), fun h => ⟨?_, ?_, ?_, ?_, ?_⟩⟩
  · intro r hr hlease
    obtain ⟨hat, hal, hoff, hring, _, hfree⟩ := id hr
    refine ⟨fun hwide hv => makes_registerWrite ?_, fun hwide hv => makes_registerWrite ?_,
      fun hwide hal8 hv => makes_registerWrite ?_⟩
    · rw [regWrite_word _ _ _ _ _ h hal hoff hv, writeWord_mapped _ _ _ _ _ _ h hr hlease, hwide]
      rfl
    · rw [regWrite_word _ _ _ _ _ h hal hoff hv, writeWord_mapped _ _ _ _ _ _ h hr hlease, hwide, if_pos rfl, writeHalf_lower]
    · rw [regWrite_pair _ _ _ _ _ h hal8 hoff hv, writePair_mapped _ _ _ _ _ _ h hat hwide hring hfree hlease]
  · intro r hr hlease hv
    obtain ⟨_, hal, hoff, hring, _, hfree⟩ := hr
    refine makes_registerWrite ?_
    rw [regWrite_word _ _ _ _ _ h hal hoff hv, writeWord_unleased _ _ _ _ _ h hfree hring hlease]
  · intro r h4 hup hat hal hoff hring hmsix hfree hlease hv
    have hupper : off ≠ off - 4 := by omega
    have hword := regWrite_word _ s.fuse _ _ _ h hal hoff hv
    rw [writeWord_upper _ _ _ _ _ _ h hup hat hring hmsix hfree hlease] at hword
    refine ⟨fun lo hlo => makes_registerWrite ?_, fun hnone => makes_registerWrite ?_⟩
    · rw [hword, writeHalf_upper_held _ _ _ _ _ _ _ hupper hlo, writeWide_eq]
    · rw [hword, writeHalf_upper_alone _ _ _ _ _ _ hupper hnone]
  · exact fun size hbar hcfg hbad => makes_registerWrite (regWrite_misplaced _ _ _ _ _ _ h hbar hcfg hbad)
  · rintro n size rfl hn
    have hbar : inBar2 (bar2Base + n * 0x1000) = true := by simp [inBar2]; omega
    refine makes_registerWrite ?_
    rw [regWrite_bar2 _ _ _ _ _ _ h hbar, Nat.add_sub_cancel_left]

/-- R41, R42: an entry is written as a pair of words, and its check decides between storing and refusing it. -/
theorem filterEntriesAreChecked : Says.FilterEntriesAreChecked := by
  intro s p off v h hlo hhi
  have hexec (size : Nat) : exec (.igfEntryWrite (portNode p) off size v) s = exec (.registerWrite (portNode p) off size v) s := by
    have hentry : exec (.igfEntryWrite (portNode p) off size v) s = execIgfEntryWrite (portNode p) off size v s := rfl
    simp only [hentry, execIgfEntryWrite, liftRead_next, hlo, hhi, decide_true, Bool.and_self, if_true]
    rfl
  refine ⟨hexec, ?_⟩
  intro hal hv hlease d legal
  have hring : inRings off = false := by simp [inRings]; omega
  have hfree : leaseFree off = false := by simp [leaseFree]; omega
  obtain ⟨r, hat, hbase, hwide⟩ := regAt_igf off hal hlo hhi
  have hwrite : Makes (.igfEntryWrite (portNode p) off 8 v) s (d.igfWrite off v) := by
    rw [Makes, hexec]
    refine makes_registerWrite ?_
    rw [regWrite_pair _ _ _ _ _ h hal (by omega) hv,
      writePair_mapped _ _ _ _ _ r h hat hwide hring hfree hlease, regAction_igf _ _ _ _ _ _ hbase]
  refine ⟨fun hl => ?_, fun hl => ?_⟩
  · rwa [Dev.igfWrite, if_pos ((igfLegal_iff v).2 hl)] at hwrite
  · rwa [Dev.igfWrite, if_neg (mt (igfLegal_iff v).1 hl)] at hwrite

/-! ## Reads -/

section
variable (d : Dev) (f : Fuses) (p off : Nat)

theorem regRead_portDown (size : Nat) (hp : p < 2) (h : d.portUp p = false) : d.regRead f (portNode p) off size = d := by
  simp [Dev.regRead, portNode_ne_zero, portServes_portNode d p hp, h]

/-- A port's read of a word is answered the word's value; what the read clears is cleared. -/
theorem regRead_word (h : hostUp d p) (hal : off % 4 = 0) (hoff : off < 0x2000000) :
    d.regRead f (portNode p) off 4 =
      (d.draw.2.readWord f (portNode p) off).2.emit
        (.readData p (natBytes 4 (d.draw.2.readWord f (portNode p) off).1) false) := by
  simp [-Dev.draw_snd, Dev.regRead, portNode_ne_zero, hostUp_portServes d p h, inBar2_of_bar0 off hoff, inCfg_of_bar0 off hoff, hal,
    Nat.not_le.2 hoff, nodePort_portNode p h.1]

theorem regRead_pair (h : hostUp d p) (hal : off % 8 = 0) (hoff : off < 0x2000000) :
    d.regRead f (portNode p) off 8 =
      (((d.draw.2.readWord f (portNode p) off).2.readWord f (portNode p) (off + 4)).2.emit
        (.readData p (natBytes 8 ((d.draw.2.readWord f (portNode p) off).1 +
          ((d.draw.2.readWord f (portNode p) off).2.readWord f (portNode p) (off + 4)).1 * 2 ^ 32)) false)) := by
  simp [-Dev.draw_snd, Dev.regRead, portNode_ne_zero, hostUp_portServes d p h, inBar2_of_bar0 off hoff, inCfg_of_bar0 off hoff, hal,
    Nat.not_le.2 hoff, nodePort_portNode p h.1]

theorem regRead_bar2 (size : Nat) (h : hostUp d p) (hbar : inBar2 off = true) :
    d.regRead f (portNode p) off size = d.emit (.readData p (natBytes size 0) false) := by
  simp [Dev.regRead, portNode_ne_zero, hostUp_portServes d p h, hbar, nodePort_portNode p h.1]

theorem regRead_misplaced (size : Nat) (h : hostUp d p) (hbar : inBar2 off = false) (hcfg : inCfg off = false)
    (hbad : misplaced off size) :
    d.regRead f (portNode p) off size = d.badAccess.emit (.readData p (natBytes size 0) false) := by
  simp [Dev.regRead, portNode_ne_zero, hostUp_portServes d p h, hbar, hcfg, nodePort_portNode p h.1]
  omega

/-- A control core's read of a word answers nothing outside; what it clears is cleared. -/
theorem regRead_core (hal : off % 4 = 0) (hoff : off < 0x2000000) :
    d.regRead f 0 off 4 = (d.draw.2.readWord f 0 off).2 := by
  simp [-Dev.draw_snd, Dev.regRead, hal, Nat.not_le.2 hoff, nodePort]

/-- The word of a register that a requester reaches: its value, and what the read clears. -/
theorem readWord_mapped (who : Nat) (r : RegRow) (hreach : (nodePort who).isSome = true → d.reaches off = true)
    (hat : regAt off = some r) (hring : inRings off = false) (hmsix : inMsix off = false) :
    d.readWord f who off = (d.regValue f who r off % 2 ^ 32, d.clearRc who r off) := by
  have hserved : ((nodePort who).isSome && !d.reaches off) = false := by
    cases hport : (nodePort who).isSome
    · rfl
    · simp [hreach hport]
  simp only [Dev.readWord, hserved, hring, hmsix, hat, Bool.false_eq_true, if_false]

end

/-- A register read answers the state whose device the access makes. -/
theorem makes_rcRegisterRead {s : State} {who off size : Nat} {d : Dev} (h : s.dev.regRead s.fuse who off size = d) :
    Makes (.rcRegisterRead who off size) s d := h ▸ rfl

/-- R8, R12, by the kind of access: down port, control core, word, pair, BAR2, misplaced. -/
theorem readsAnswerAndClear : Says.ReadsAnswerAndClear := by
  intro s p off who d
  refine ⟨fun hp hdown size => makes_rcRegisterRead (regRead_portDown _ _ _ _ _ hp hdown), ?_, fun h => ⟨?_, ?_, ?_, ?_⟩⟩
  · intro r hat hal hoff hring hmsix
    refine makes_rcRegisterRead ?_
    rw [regRead_core _ _ _ hal hoff, readWord_mapped _ _ _ _ r (by simp [nodePort]) hat hring hmsix]
  · intro r hat hal hoff hring hmsix
    refine makes_rcRegisterRead ?_
    rw [regRead_word _ _ _ _ h hal hoff, readWord_mapped _ _ _ _ r (fun _ => hostUp_reaches d p off h) hat hring hmsix]
  · exact fun hal hoff => makes_rcRegisterRead (regRead_pair _ _ _ _ h hal hoff)
  · exact fun size hbar => makes_rcRegisterRead (regRead_bar2 _ _ _ _ _ h hbar)
  · exact fun size hbar hcfg hbad => makes_rcRegisterRead (regRead_misplaced _ _ _ _ _ h hbar hcfg hbad)

/-- Settles O13: register writes and reads, field by field, and the ingress filter entries. -/
theorem registersHoldTheirFields : Obligations.RegistersHoldTheirFields :=
  ⟨registerWritesTakeEffect, registerWritesStore, fieldsTakeTheirClampedPart, fieldsAreApart, readsAnswerAndClear,
    filterEntriesAreChecked⟩

end Sys2Proof.Machine

/-! The state right after reset. -/

namespace Sys2Proof.Machine

/-- After reset nothing is stored in a register: it reads as its field table gives it (R11). -/
theorem reset_reg (off : Nat) (r : RegRow) (h : regAt (off % 0x2000000) = some r) :
    State.reset.dev.reg off = r.resetVal (off % 0x2000000) := by
  have hnone : tget State.reset.dev.regs off = none := rfl
  simp [Dev.reg, hnone, h]

theorem reset_fuse_legal : State.reset.fuse.legal := by
  unfold Fuses.legal; decide

/-- Settles O55: each part of the state by its initial value, the registers by their field tables. -/
theorem resetState : Obligations.ResetState :=
  ⟨rfl, rfl, rfl, rfl, rfl, rfl, reset_memory_wf, rfl, reset_fuse_legal, rfl, rfl, rfl, rfl, reset_reg⟩

end Sys2Proof.Machine

/-! How a command reaches the operation it lifts, and what a write needs that a port makes. -/

namespace Sys2Proof.Machine

/-- A command that answers a next state makes that state's device. -/
theorem makes_of_next {i : Instr} {s : State} {d e : Dev} (harm : exec i s = .next { s with dev := e }) (h : e = d) : Makes i s d := by
  rw [Makes, harm, h]

/-- Who administers the device has its register's effect (R62). -/
theorem leasedWrite_administers (d : Dev) (who : Nat) (block : Bool) (f : Dev → Dev) (h : administers d who) :
    d.leasedWrite who block f = f d := by
  rcases h with rfl | ⟨⟨hready, hrun⟩, hserves, hlease⟩
  · rfl
  · have hlatch := wakeLatch_run d 1 hrun
    simp [Dev.leasedWrite, hserves, hready, hlease, hlatch]

end Sys2Proof.Machine

/-! The router's lookup: what stops a message on its way to its route, and where the route leads (R42, R108, R291 to R293, R303). -/

namespace Sys2Proof.Machine

section
variable (d : Dev) (p : Nat) (m : Msg)

theorem lookupMsg_fencedSource (hturn : d.turnsBack p = false) (hp : p < 24) (hfenced : nmem d.router.fenced m.src = true) :
    d.lookupMsg p m = (d.bump 0x600018 16).freeCells p m := by
  simp [Dev.lookupMsg, hturn, hp, hfenced]

theorem lookupMsg_refused (hturn : d.turnsBack p = false) (hp : p < 24) (hfree : nmem d.router.fenced m.src = false)
    (hrefused : d.igfAdmits p m = false) :
    d.lookupMsg p m =
      if m.cls = 0 then
        ((d.igfDrop p).freeCells p m).sendMsg (((d.igfDrop p).freeCells p m).responseFor m stDenied 0x25 0 none)
      else (d.igfDrop p).freeCells p m := by
  simp [Dev.lookupMsg, hturn, hp, hfree, hrefused]

/-- A request over its rate goes no further than the policer. -/
theorem lookupMsg_overRate (hturn : d.turnsBack p = false) (hp : p < 24) (hfree : nmem d.router.fenced m.src = false)
    (hadmits : d.igfAdmits p m = true) (h : Nat) (e : Dev) (hpolice : d.police p m = (some h, e)) :
    d.lookupMsg p m = (e.freeCells p m).policed m h := by
  simp [Dev.lookupMsg, hturn, hp, hfree, hadmits, hpolice]

theorem lookupMsg_conforms (hturn : d.turnsBack p = false) (hp : p < 24) (hfree : nmem d.router.fenced m.src = false)
    (hadmits : d.igfAdmits p m = true) (e : Dev) (hpolice : d.police p m = (none, e)) : d.lookupMsg p m = e.route p m false := by
  simp [Dev.lookupMsg, hturn, hp, hfree, hadmits, hpolice]

/-- A message of LOCAL is neither filtered nor policed. -/
theorem lookupMsg_local (hturn : d.turnsBack p = false) (hp : 24 ≤ p) : d.lookupMsg p m = d.route p m false := by
  simp [Dev.lookupMsg, hturn, Nat.not_lt.2 hp]

end

section
variable (d : Dev) (p : Nat) (m : Msg) (a : Bool)

theorem route_multicast (h : m.mc = true) : d.route p m a = d.multicast p m a := by
  simp [Dev.route, h]

theorem route_own (hmc : m.mc = false) (hown : m.dst = d.ownNode) (hzero : m.dst ≠ 0) (hall : m.dst ≠ 0xFFF) :
    d.route p m a = d.enqueue 24 p m a := by
  simp [Dev.route, hmc, ← hown, hzero, hall]

theorem route_allOnes (hmc : m.mc = false) (hall : m.dst = 0xFFF) :
    d.route p m a = if m.cls = 0 then d.enqueue 24 p m a else d.noRoute (bufferOf p a) m := by
  by_cases hcls : m.cls = 0 <;> simp [Dev.route, hmc, hall, hcls]

theorem route_service (hmc : m.mc = false) (hown : m.dst ≠ d.ownNode) (hall : m.dst ≠ 0xFFF) (hservice : some m.dst = d.serviceId) :
    d.route p m a = d.enqueue 24 p m a := by
  simp [Dev.route, hmc, hown, hall, hservice]

/-- A message for another node: its fence comes first, then the numbers no route leads to, then the choice of an output. -/
theorem route_away (hmc : m.mc = false) (hown : m.dst ≠ d.ownNode) (hall : m.dst ≠ 0xFFF) (hservice : some m.dst ≠ d.serviceId) :
    d.route p m a =
      if nmem d.router.fenced m.dst then
        if m.cls = 0 then (d.freeCells (bufferOf p a) m).sendMsg { d.rspTo m stFenced 0 m.dst with src := d.ownNode }
        else (d.bump 0x600018 16).freeCells (bufferOf p a) m
      else if m.dst = 0 ∨ 0xFF0 ≤ m.dst ∨ m.dst = d.fld 0x680004 0 12 then d.noRoute (bufferOf p a) m
      else ((d.chooseOut p m).map fun o => d.enqueue o p m a).getD (d.noRoute (bufferOf p a) m) := by
  cases hout : d.chooseOut p m <;> simp [Dev.route, hmc, hown, hall, hservice, hout, or_assoc]

end

/-- R291: the oldest message of LOCAL, or of its port and channel, is taken to the lookup. -/
theorem oldestReachesLookup (s : State) (p : Nat) (m : Msg) :
    (∀ r, s.dev.router.localq = m :: r →
      Makes (.routerLookup 24 m) s (({ s.dev with router := { s.dev.router with localq := r } } : Dev).lookupMsg 24 m)) ∧
    (p < 24 → (s.dev.router.inputs.find? fun e => e.1 == p && vcOf e.2.cls == vcOf m.cls) = some (p, m) →
      Makes (.routerLookup p m) s
        (({ s.dev with router := { s.dev.router with inputs := s.dev.router.inputs.erase (p, m) } } : Dev).lookupMsg p m)) := by
  refine ⟨fun r hlocal => makes_of_next rfl ?_, fun hp hinput => makes_of_next rfl ?_⟩
  · simp [hlocal]
  · simp [Nat.ne_of_lt hp, hinput]

/-- R42, R101, R108, R291 to R293, R303: by what stops the message, and then by where its DST leads. -/
theorem messagesAreRouted : Says.Lookup := by
  refine ⟨oldestReachesLookup, fun d p m hturn => ⟨?_, ?_, ?_, ?_, ?_⟩, fun d p m a hmc => ⟨?_, ?_, ?_, ?_⟩,
    fun d p m a => route_multicast d p m a⟩
  · exact lookupMsg_fencedSource d p m hturn
  · rintro e hp hfree hrefused rfl
    rw [lookupMsg_refused d p m hturn hp hfree hrefused]
    exact ⟨fun hcls => if_pos hcls, fun hcls => if_neg hcls⟩
  · exact fun h e hp hfree hadmits => lookupMsg_overRate d p m hturn hp hfree hadmits h e
  · exact fun e hp hfree hadmits => lookupMsg_conforms d p m hturn hp hfree hadmits e
  · exact lookupMsg_local d p m hturn
  · exact route_own d p m a hmc
  · intro hall
    rw [route_allOnes d p m a hmc hall]
    exact ⟨fun hcls => if_pos hcls, fun hcls => if_neg hcls⟩
  · exact route_service d p m a hmc
  · intro hown hall hservice
    rw [route_away d p m a hmc hown hall hservice]
    refine ⟨fun hfenced => ?_, fun hfree hnone => ?_, fun hfree hzero hhigh hpartner => ?_⟩
    · rw [if_pos hfenced]
      exact ⟨fun hcls => if_pos hcls, fun hcls => if_neg hcls⟩
    · rw [if_neg (by simp [hfree]), if_pos hnone]
      rfl
    · rw [if_neg (by simp [hfree]), if_neg (by omega)]
      refine ⟨fun o hout => ?_, fun hout => ?_⟩
      · rw [hout]; rfl
      · rw [hout]; rfl

end Sys2Proof.Machine

/-! The router's outputs and fences (R294, R296, R303, R304). -/

namespace Sys2Proof.Machine

/-- R303: a command to fence a node, or to lift its fence, waits for its fence point. -/
theorem fenceCommand_idle (d : Dev) (n : Nat) (on : Bool) (hlo : 1 ≤ n) (hhi : n ≤ 0xEFF) (hidle : d.router.fenceCmd = none) :
    d.fenceCommand n on = { d with router := { d.router with fenceCmd := some (on, n) } } := by
  have hnode : ¬ (n = 0 ∨ 0xEFF < n) := by omega
  simp [Dev.fenceCommand, hnode, hidle]

/-- R294, R296: by what the output waits for: LOCAL's next message, the link's next in turn, or a head that has waited too long. -/
theorem outputsSend (s : State) (o i : Nat) (q : Queued) :
    (∀ r, s.dev.queue 24 = q :: r → ∃ d : Dev, d = { s.dev.unqueue 24 0 with
        router := { (s.dev.unqueue 24 0).router with delivered := (s.dev.unqueue 24 0).router.delivered ++ [q.m] } } ∧
      Makes (.outputSend 24) s (d.leftInput (bufferOf q.input q.ahead) q.m)) ∧
    (o < 24 → (s.dev.link o).state = 6 → s.dev.sendNext o = some (i, q) →
      Makes (.outputSend o) s (((s.dev.unqueue o i).sendOn o q.input q.m).leftInput (bufferOf q.input q.ahead) q.m)) ∧
    ((s.dev.queue o)[i]? = some q → (((s.dev.queue o).take i).any fun x => x.input == q.input && vcOf x.m.cls == vcOf q.m.cls) = false →
      ∃ d : Dev, d = s.dev.till (q.at_ + usTicks (s.dev.fld 0x600000 16 5)) ∧
        Makes (.headHoldTimeout o i) s (((d.unqueue o i).bump 0x600010 0).leftInput (bufferOf q.input q.ahead) q.m)) := by
  refine ⟨fun r hq => ⟨_, rfl, makes_of_next rfl ?_⟩, fun ho hactive hnext => makes_of_next rfl ?_,
    fun hq hfirst => ⟨_, rfl, makes_of_next rfl ?_⟩⟩
  · simp [hq]
  · simp [Nat.ne_of_lt ho, hactive, hnext]
  · simp [hq, hfirst]

/-- R294, R296, R303, R304: the outputs; and a fence by its command and by its point, where a fenced node's session ends if it has one. -/
theorem outputsAndFences : Says.OutputsAndFences := by
  refine ⟨outputsSend, fun s who n hlo hhi => ⟨fun hwho hidle => ⟨?_, ?_⟩, fun hclear => ⟨fun hcmd => ?_, ?_⟩⟩⟩
  · exact makes_of_next rfl ((leasedWrite_administers _ _ _ _ hwho).trans (fenceCommand_idle _ n true hlo hhi hidle))
  · exact makes_of_next rfl ((leasedWrite_administers _ _ _ _ hwho).trans (fenceCommand_idle _ n false hlo hhi hidle))
  · refine makes_of_next rfl ?_
    simp [hcmd, hclear]
  · rintro d e hcmd rfl rfl
    refine ⟨fun hnone => makes_of_next rfl ?_, fun x hsome => makes_of_next rfl ?_⟩
    · dsimp only at hnone
      simp [-Nat.reducePow, hcmd, hclear, hnone]
    · dsimp only at hsome
      simp [-Nat.reducePow, hcmd, hclear, hsome]

/-- Settles O34: the lookup and the routes behind it, the outputs, and the fences. -/
theorem routing : Obligations.Routing :=
  ⟨messagesAreRouted, outputsAndFences⟩

end Sys2Proof.Machine

/-! The end of a draft's copy, and what an extent number of the carve-out shows after it. -/

namespace Sys2Proof.Machine

/-- What an extent shows once its draft's copy has ended (R48): a number of the carve-out, from 0x7FFFF8 on, shows the carve-out as ever,
since none of the table's entries stands behind it. -/
theorem emtOf_draftCopyEnd (d : Dev) (ext dest : Nat) :
    (d.draftCopyEnd ext dest).emtOf ext =
      if 0x7FFFF8 ≤ ext then { kind := 5, handle := 0x10000, index := 0 } else { d.emtOf ext with mod := true, frame := dest } := by
  by_cases hcarve : 0x7FFFF8 ≤ ext
  · simp [Dev.emtOf, hcarve]
  · simp [Dev.draftCopyEnd, Dev.emtOf, hcarve, tgetD]

/-- Refutes O23: its last part claims for every extent number that the end of a draft's copy makes it MOD 1 in the new frame, and the first
number of the carve-out stays MOD 0 in the reset device. Below the carve-out the claim holds (`emtOf_draftCopyEnd`). -/
theorem not_draftsAndPins : ¬ Obligations.DraftsAndPins := by
  rintro ⟨_, _, hcopied⟩
  have hmod := congrArg Emt.mod (hcopied State.reset.dev 0x7FFFF8 0)
  rw [emtOf_draftCopyEnd, if_pos (Nat.le_refl _)] at hmod
  exact absurd hmod (by decide)

end Sys2Proof.Machine

/-! Tables whose entries change in place, tables filtered, and memory that has been cleared. -/

namespace Sys2Proof.Machine

/-- A change of every entry that leaves the keys alone is read entry by entry. -/
theorem tget_map_keyed {α : Type} (t : Tbl α) (g : Nat × α → Nat × α) (hkey : ∀ e, (g e).1 = e.1) (k : Nat) :
    tget (t.map g) k = (tget t k).map fun v => (g (k, v)).2 := by
  induction t with
  | nil => rfl
  | cons e r ih =>
    obtain ⟨a, v⟩ := e
    have hg : g (a, v) = (a, (g (a, v)).2) := Prod.ext (hkey (a, v)) rfl
    rw [List.map_cons, hg]
    simp only [tget]
    split
    · next h => subst h; rfl
    · split
      · rfl
      · exact ih

theorem mem_of_tget {α : Type} (t : Tbl α) (k : Nat) (v : α) (h : tget t k = some v) : (k, v) ∈ t := by
  induction t with
  | nil => cases h
  | cons e r ih =>
    obtain ⟨a, w⟩ := e
    simp only [tget] at h
    split at h
    · next hk => cases h; subst hk; exact List.mem_cons_self
    · split at h
      · cases h
      · exact List.mem_cons_of_mem _ (ih h)

/-- Memory that has been cleared reads as zero. -/
theorem memGet_memZero_inside (m : List Host.Cell) (a n c : Nat) (hlo : a ≤ c) (hhi : c < a + n) : memGet (memZero m a n) c = 0 := by
  have hnone : tget (memZero m a n) c = none := by
    cases hget : tget (memZero m a n) c with
    | none => rfl
    | some b =>
      have hkept := (List.mem_filter.1 (mem_of_tget _ _ _ hget)).2
      simp only [Bool.or_eq_true, decide_eq_true_eq] at hkept
      omega
  simp [memGet, tgetD, hnone]

theorem nmem_ndel_same (l : List Nat) (k : Nat) : nmem (ndel l k) k = false := by
  simp [nmem, ndel]

end Sys2Proof.Machine

/-! How the descriptor of a pool operation comes to its operation, and the operation to its region. -/

namespace Sys2Proof.Machine

/-- The descriptor of a pool operation whose gate lets it through performs the operation of its opcode. -/
theorem makes_poolDesc {i : Instr} {s : State} {ring idx op : Nat} {b : List Byte} {d : Dev} (act : Dev → Dev)
    (harm : exec i s = .next { s with dev := s.dev.poolDesc ring idx op })
    (hop : ∀ e : Dev, e.poolRun (.desc ring idx) b op = e.poolGated (.desc ring idx) b op act)
    (hready : poolReady s.dev ring idx op b) (h : act (s.dev.begun ring idx) = d) : Makes i s d := by
  obtain ⟨hrun, hgate⟩ := poolDesc_ready s.dev ring idx op b hready
  exact makes_of_next harm (by rw [hrun, hop, hgate, h])

section
variable {s : State} {ring idx : Nat} {b : List Byte} {d : Dev}

theorem makes_stackRetire (hready : poolReady s.dev ring idx 0x13 b) (h : (s.dev.begun ring idx).opRetire (.desc ring idx) b = d) :
    Makes (.stackRetire ring idx) s d := makes_poolDesc (fun d => d.opRetire (.desc ring idx) b) rfl (fun _ => rfl) hready h

theorem makes_stackReturn (hready : poolReady s.dev ring idx 0x14 b) (h : (s.dev.begun ring idx).opReturn (.desc ring idx) b = d) :
    Makes (.stackReturn ring idx) s d := makes_poolDesc (fun d => d.opReturn (.desc ring idx) b) rfl (fun _ => rfl) hready h

theorem makes_regionQuery (hready : poolReady s.dev ring idx 0x15 b)
    (h : (s.dev.begun ring idx).opRegionQuery (.desc ring idx) b = d) : Makes (.regionQuery ring idx) s d :=
  makes_poolDesc (fun d => d.opRegionQuery (.desc ring idx) b) rfl (fun _ => rfl) hready h

theorem makes_extentQuery (hready : poolReady s.dev ring idx 0x16 b)
    (h : (s.dev.begun ring idx).opExtentQuery (.desc ring idx) b = d) : Makes (.extentQuery ring idx) s d :=
  makes_poolDesc (fun d => d.opExtentQuery (.desc ring idx) b) rfl (fun _ => rfl) hready h

end

theorem withRegion_live (d : Dev) (c : Caller) (b : List Byte) (h : Nat) (f : Region → Dev → Dev) (r : Region)
    (hlive : d.liveRegion h = some r) : d.withRegion c b h f = f r d := by
  simp [Dev.withRegion, hlive]

theorem withRegion_none (d : Dev) (c : Caller) (b : List Byte) (h : Nat) (f : Region → Dev → Dev) (hnone : d.liveRegion h = none) :
    d.withRegion c b h f = d.poolDeny c b (if (nodePort (d.callerNode c)).isSome then 0x0A else 0) := by
  simp [Dev.withRegion, hnone]

end Sys2Proof.Machine

/-! REGION_QUERY and EXTENT_QUERY (R47, R82). -/

namespace Sys2Proof.Machine

/-- Who may ask about a region: a host of a port, and a client with a grant on it. -/
abbrev mayQuery (d : Dev) (node h : Nat) : Prop :=
  (nodePort node).isSome = true ∨ ((d.grantOf node h).map (·.rights)).getD 0 ≠ 0

/-- What the queries check of the caller is whether it may ask. -/
theorem askRefused_iff (d : Dev) (node h : Nat) :
    ((nodePort node).isNone && decide (((d.grantOf node h).map (·.rights)).getD 0 = 0)) = true ↔ ¬ mayQuery d node h := by
  simp [mayQuery]

section
variable (d : Dev) (c : Caller) (b : List Byte)

theorem opRegionQuery_noRegion (hnone : d.liveRegion (dHandle b) = none) :
    d.opRegionQuery c b = d.poolDeny c b (if (nodePort (d.callerNode c)).isSome then 0x0A else 0) := by
  rw [Dev.opRegionQuery, withRegion_none _ _ _ _ _ hnone]

theorem opExtentQuery_noRegion (hnone : d.liveRegion (dHandle b) = none) :
    d.opExtentQuery c b = d.poolDeny c b (if (nodePort (d.callerNode c)).isSome then 0x0A else 0) := by
  rw [Dev.opExtentQuery, withRegion_none _ _ _ _ _ hnone]

variable (r : Region) (hlive : d.liveRegion (dHandle b) = some r)
include hlive

theorem opRegionQuery_refused (hask : ¬ mayQuery d (d.callerNode c) (dHandle b)) : d.opRegionQuery c b = d.poolDeny c b 0 := by
  rw [Dev.opRegionQuery, withRegion_live _ _ _ _ _ r hlive]
  exact if_pos ((askRefused_iff _ _ _).2 hask)

theorem opRegionQuery_answers (hask : mayQuery d (d.callerNode c) (dHandle b)) :
    d.opRegionQuery c b = d.output c (dOutAddr b) (natBytes 2 (dHandle b) ++ natBytes 1 (b2n r.backed) ++ zeros 1 ++
      natBytes 4 r.count ++ natBytes 4 r.base ++ natBytes 4 r.version ++ natBytes 4 r.rgen ++
      natBytes 2 (d.pool.drafts.filter (·.2.handle == dHandle b)).length ++
      natBytes 2 (d.pool.pins.filter (·.2.handle == dHandle b)).length ++ zeros 8) stDone 0 r.version r.rgen := by
  rw [Dev.opRegionQuery, withRegion_live _ _ _ _ _ r hlive]
  exact if_neg fun h => (askRefused_iff _ _ _).1 h hask

theorem opExtentQuery_refused (hask : ¬ mayQuery d (d.callerNode c) (dHandle b)) : d.opExtentQuery c b = d.poolDeny c b 0 := by
  rw [Dev.opExtentQuery, withRegion_live _ _ _ _ _ r hlive]
  exact if_pos ((askRefused_iff _ _ _).2 hask)

/-- A query that may be asked counts the operands it clamps, and answers the extents of the range that fit into the buffer. -/
theorem opExtentQuery_asked (hask : mayQuery d (d.callerNode c) (dHandle b)) (last len : Nat) (e e' : Dev)
    (hlast : last = min (dLast b) (r.count - 1)) (hlen : len = clampGrain 16 16 16777216 (dOutLen b))
    (he : e = if last ≠ dLast b then d.clamped 3 0 else d) (he' : e' = if len ≠ dOutLen b then e.clamped 3 0 else e) :
    d.opExtentQuery c b =
      if last < dCount b then e'.poolDeny c b 0x0C
      else e'.output c (dOutAddr b)
        (((List.range (min (last + 1 - dCount b) (len / 16))).map fun i => emtBytes (e'.emtOf (r.base + dCount b + i))).flatten)
        stDone 0 0 (min (last + 1 - dCount b) (len / 16)) (unit := 16) := by
  subst hlast hlen he he'
  rw [Dev.opExtentQuery, withRegion_live _ _ _ _ _ r hlive]
  exact if_neg fun h => (askRefused_iff _ _ _).1 h hask

end

/-- Counting a clamp leaves the extents as they are. -/
theorem emtOf_clampedIf (d : Dev) (p : Prop) [Decidable p] (group pos : Nat) :
    (if p then d.clamped group pos else d).emtOf = d.emtOf := by
  split <;> rfl

end Sys2Proof.Machine

/-! STACK_RETIRE and STACK_RETURN (R57, R330, R355). -/

namespace Sys2Proof.Machine

section
variable (d : Dev) (c : Caller) (b : List Byte)

theorem opRetire_badStack (h : 6 ≤ dStack b) : d.opRetire c b = d.poolDeny c b 0 := if_pos h

theorem opReturn_badStack (h : 6 ≤ dStack b) : d.opReturn c b = d.poolDeny c b 0 := if_pos h

theorem opRetire_whileMoving (h : dStack b < 6) (hmoving : d.pool.stackMove ≠ none) : d.opRetire c b = d.poolRetry c := by
  simp [Dev.opRetire, Nat.not_le.2 h, Option.isSome_iff_ne_none, hmoving]

theorem opReturn_whileMoving (h : dStack b < 6) (hmoving : d.pool.stackMove ≠ none) : d.opReturn c b = d.poolRetry c := by
  simp [Dev.opReturn, Nat.not_le.2 h, Option.isSome_iff_ne_none, hmoving]

section
variable (h : dStack b < 6) (hstill : d.pool.stackMove = none)
include h hstill

theorem opRetire_again (hretired : d.retired = some (dStack b)) : d.opRetire c b = d.poolEnd c b stDone 0 0 0 := by
  simp [Dev.opRetire, Nat.not_le.2 h, hstill, hretired]

theorem opRetire_second (x : Nat) (hretired : d.retired = some x) (hother : x ≠ dStack b) : d.opRetire c b = d.poolDeny c b 9 := by
  simp [Dev.opRetire, Nat.not_le.2 h, hstill, hretired, hother]

theorem opRetire_noRoom (hretired : d.retired = none) (hfull : 12768 < d.framesInUse) :
    d.opRetire c b = d.poolEnd c b stDenied 9 (d.framesInUse - 12768) 0 := by
  simp [Dev.opRetire, Nat.not_le.2 h, hstill, hretired, hfull]

theorem opRetire_starts (hretired : d.retired = none) (hroom : d.framesInUse ≤ 12768) :
    d.opRetire c b = ({ d with
      pool := { d.pool with stackMove := some { stack := dStack b, retire := true, total := 0, caller := c } } } :
        Dev).migrateAll.stackMoveDone := by
  simp [Dev.opRetire, Nat.not_le.2 h, hstill, hretired, Nat.not_lt.2 hroom]

theorem opReturn_inService (hstate : (d.stack (dStack b)).state ≠ 5) : d.opReturn c b = d.poolEnd c b stDone 0 0 0 := by
  simp [Dev.opReturn, Nat.not_le.2 h, hstill, hstate]

/-- A stack that is retired trains, and a free value says whether it passes (log entry 5). -/
theorem opReturn_trains (hstate : (d.stack (dStack b)).state = 5) (t : Dev)
    (ht : t = ({ d with free := d.free + 1 } : Dev).stackState (dStack b) 1) :
    d.opReturn c b =
      if Config.freeNumber d.free % 2 = 1 then (t.stackState (dStack b) 5).poolEnd c b stDeviceError 1 0 0
      else ({ t with
        pool := { t.pool with stackMove := some { stack := dStack b, retire := false, total := 0, caller := c } } } :
          Dev).migrateAll.stackMoveDone := by
  subst ht
  exact (if_neg (Nat.not_le.2 h)).trans ((if_neg (by simp [hstill])).trans (if_neg (not_not.2 hstate)))

end

end

end Sys2Proof.Machine

/-! POOL_OP (R95). -/

namespace Sys2Proof.Machine

/-- A POOL_OP the device takes comes to its operation. -/
theorem makes_poolOp {s : State} {m : Msg} {d : Dev} (htakes : takes s.dev m) (hop : m.opcode = 0x38)
    (h : (s.dev.taken m).poolRequest m = d) : Makes (.poolOp m) s d :=
  makes_of_next rfl (by simp only [hop, ne_eq, not_true_eq_false, if_false, arrive_takes _ _ _ htakes, h])

section
variable (d : Dev) (m : Msg)

theorem poolRequest_badLen (hop : m.opcode = 0x38) (hlen : m.len ≠ 63) : d.poolRequest m = d.refuse m stDenied 0x22 := by
  simp [Dev.poolRequest, hlen, Dev.deny, Dev.conclude, Dev.refuse, hop]

theorem poolRequest_backlogged (hlen : m.len = 63) (hback : d.backlogged = true) (hlo : 0x08 ≤ poolOpcode m.data)
    (hhi : poolOpcode m.data ≤ 0x14) : d.poolRequest m = d.retry m := by
  simp [Dev.poolRequest, hlen, hback, hlo, hhi]

/-- Where no backlog keeps it, a NOP completes, and another operation runs for the node that sent it. -/
theorem poolRequest_runs (hlen : m.len = 63) (hfree : d.backlogged = false ∨ poolOpcode m.data < 0x08 ∨ 0x14 < poolOpcode m.data)
    (e : Dev) (he : e = if poolOpcode m.data = 0 ∧ dOpcode m.data ≠ 0 then d.clamped 4 0 else d) :
    d.poolRequest m =
      if poolOpcode m.data = 0 then (e.dedupOpen m).complete (.fab m) stDone 0 0 0
      else (e.dedupOpen m).poolRun (.fab m) m.data (poolOpcode m.data) := by
  have hgoes : (d.backlogged && decide (0x08 ≤ poolOpcode m.data) && decide (poolOpcode m.data ≤ 0x14)) = false := by
    rcases hfree with hback | hlo | hhi
    · simp [hback]
    · simp [Nat.not_le.2 hlo]
    · simp [Nat.not_le.2 hhi]
  subst he
  simp [Dev.poolRequest, hlen, hgoes]

end

end Sys2Proof.Machine

/-! The queries, the stacks and POOL_OP together. -/

namespace Sys2Proof.Machine

/-- R47, R57, R82, R95: each command by the case of its operation that its hypotheses name. -/
theorem queriesAndStacks : Says.QueriesAndStacks := by
  refine ⟨?_, ?_⟩
  · intro s ring idx b r d c h node mayAsk
    refine ⟨fun hready hlive => ?_, ?_, ?_, ?_, fun hready hstack hstill => ?_, fun hready hstack hstill => ?_⟩
    · exact ⟨fun hask => makes_regionQuery hready (opRegionQuery_refused d c b r hlive hask),
        fun hask => makes_regionQuery hready (opRegionQuery_answers d c b r hlive hask)⟩
    · rintro n last len e e' hready hlive hlast hlen he he' rfl
      have hext : e'.emtOf = s.dev.emtOf := by
        rw [he', emtOf_clampedIf, he, emtOf_clampedIf]; rfl
      have hasked (hask : mayAsk) := opExtentQuery_asked d c b r hlive hask last len e e' hlast hlen he he'
      refine ⟨fun hask => makes_extentQuery hready (opExtentQuery_refused d c b r hlive hask),
        fun hask hempty => makes_extentQuery hready ((hasked hask).trans (if_pos hempty)), fun hask hsome => makes_extentQuery hready ?_⟩
      rw [← hext]
      exact (hasked hask).trans (if_neg (Nat.not_lt.2 hsome))
    · intro i op hmem hready hnone
      simp only [List.mem_cons, Prod.mk.injEq, List.not_mem_nil, or_false] at hmem
      rcases hmem with ⟨rfl, rfl⟩ | ⟨rfl, rfl⟩
      · exact makes_regionQuery hready (opRegionQuery_noRegion d c b hnone)
      · exact makes_extentQuery hready (opExtentQuery_noRegion d c b hnone)
    · intro i op hmem hready
      simp only [List.mem_cons, Prod.mk.injEq, List.not_mem_nil, or_false] at hmem
      rcases hmem with ⟨rfl, rfl⟩ | ⟨rfl, rfl⟩
      · exact ⟨fun hbad => makes_stackRetire hready (opRetire_badStack d c b hbad),
          fun hstack hmoving => makes_stackRetire hready (opRetire_whileMoving d c b hstack hmoving)⟩
      · exact ⟨fun hbad => makes_stackReturn hready (opReturn_badStack d c b hbad),
          fun hstack hmoving => makes_stackReturn hready (opReturn_whileMoving d c b hstack hmoving)⟩
    · exact ⟨fun hagain => makes_stackRetire hready (opRetire_again d c b hstack hstill hagain),
        fun x hretired hother => makes_stackRetire hready (opRetire_second d c b hstack hstill x hretired hother),
        fun hnone hfull => makes_stackRetire hready (opRetire_noRoom d c b hstack hstill hnone hfull),
        fun hnone hroom => makes_stackRetire hready (opRetire_starts d c b hstack hstill hnone hroom)⟩
    · refine ⟨fun hstate => makes_stackReturn hready (opReturn_inService d c b hstack hstill hstate), fun t hstate ht => ?_⟩
      have htrains := opReturn_trains d c b hstack hstill hstate t ht
      exact ⟨fun hfails => makes_stackReturn hready (htrains.trans (if_pos hfails)),
        fun hpasses => makes_stackReturn hready (htrains.trans (if_neg (by simp [d, hpasses])))⟩
  · rintro s m op e d htakes hcode rfl he
    have hmakes {e : Dev} := makes_poolOp (d := e) htakes hcode
    refine ⟨fun hlen => hmakes (poolRequest_badLen d m hcode hlen), fun hlen hback hlo hhi => hmakes (poolRequest_backlogged d m hlen hback hlo hhi),
      fun hlen hfree => ?_⟩
    have hruns := poolRequest_runs d m hlen hfree e he
    refine ⟨fun hnop => hmakes (hruns.trans (if_pos hnop)), fun hop => hmakes (hruns.trans ?_)⟩
    have hd : e = d := he.trans (if_neg fun hnop => hop hnop.1)
    rw [if_neg hop, hd]

end Sys2Proof.Machine

/-! Switch filters, migrations, freed frames and the re-weave epoch (R43, R55, R56, R373). -/

namespace Sys2Proof.Machine

/-- Where no stack is being retired or returned, the end of a migration ends nothing else. -/
theorem stackMoveDone_still (d : Dev) (h : d.pool.stackMove = none) : d.stackMoveDone = d := by
  simp [Dev.stackMoveDone, h]

/-- Taking a migration's fence off leaves every extent of its frame as it is but for the fence. -/
theorem tget_setFence_off (d : Dev) (g : Migration) (ext : Nat) (e : Emt) (hget : tget d.pool.emt ext = some e) (hfree : e.kind ≠ 0)
    (hnear : e.kind ≠ 2) (hframe : e.frame = g.src) (hsrc : g.src ≠ 0xFFFF) :
    tget (d.setFence g false).pool.emt ext = some { e with fence := false } := by
  have hkey : ∀ x : Nat × Emt, (if x.1 = g.ext || (g.src ≠ 0xFFFF && x.2.kind ≠ 2 && x.2.kind ≠ 0 && x.2.frame = g.src)
      then (x.1, { x.2 with fence := false }) else x).1 = x.1 := fun x => by split <;> rfl
  simp only [Dev.setFence]
  rw [tget_map_keyed _ _ hkey, hget]
  simp [hsrc, hnear, hfree, hframe]

/-- R56: the extents of a migration's frame lie in the new one, not fenced. -/
theorem tget_migrationDone (d : Dev) (g : Migration) (ext : Nat) (e : Emt) (hstill : d.pool.stackMove = none)
    (hget : tget d.pool.emt ext = some e) (hfree : e.kind ≠ 0) (hnear : e.kind ≠ 2) (hframe : e.frame = g.src) (hsrc : g.src ≠ 0xFFFF)
    (hdst : g.src ≠ g.dst) : tget (d.migrationDone g).pool.emt ext = some { e with frame := g.dst, fence := false } := by
  have hkey : ∀ x : Nat × Emt, (if x.2.kind ≠ 2 && x.2.kind ≠ 0 && x.2.frame = g.src then (x.1, { x.2 with frame := g.dst }) else x).1 = x.1 :=
    fun x => by split <;> rfl
  have hfence := tget_setFence_off d g ext e hget hfree hnear hframe hsrc
  have hmove : (d.setFence g false).pool.stackMove = none := hstill
  have hmoves : (g.src = 0xFFFF || g.src = g.dst) = false := by simp [hsrc, hdst]
  simp only [Dev.migrationDone, hmoves, Bool.false_eq_true, if_false]
  rw [stackMoveDone_still _ (by simp [Dev.setMigration, hmove])]
  simp only [Dev.setMigration]
  rw [tget_map_keyed _ _ hkey, hfence]
  simp [hnear, hfree, hframe]

section
variable (d : Dev) (k i key : Nat) (w : Switch) (q : DevReq) (hswitch : tget d.pool.switches k = some w)
  (hreq : (d.fab.devReqs.find? fun q => q.2.purpose == 1 && q.2.index == k * 64 + i) = some (key, q))
include hswitch hreq

/-- R43: a switch's answer ends its update, and its STATUS says what becomes of the record and of the switch. -/
theorem filterAnswer_status (st : Nat) (heard : Dev) (h : heard = (d.endReq key).setSwitch k fun w => { w with unanswered := 0 }) :
    d.filterAnswer k i (some st) =
      if st = stDone then
        heard.setSwitch k fun w => { w with recs := w.recs.zipIdx.map fun r => if r.2 = i then { r.1 with pending := false } else r.1 }
      else if st = stUnsupported then heard.notFiltering k w
      else heard := by
  simp [Dev.filterAnswer, hswitch, hreq, h]

/-- R43: the third update in a row without an answer makes the switch non-filtering. -/
theorem filterAnswer_none (lost : Dev) (h : lost = (d.endReq key).setSwitch k fun w => { w with unanswered := w.unanswered + 1 }) :
    d.filterAnswer k i none = if 2 ≤ w.unanswered then lost.notFiltering k w else lost := by
  simp [Dev.filterAnswer, hswitch, hreq, h]

end

/-- A frame whose bind-off is done (R373): its bytes, its poison and its entry among the FREE extents are gone. -/
def Dev.unbound (d : Dev) (f : Nat) : Dev :=
  { d with mem := memZero d.mem (f * 2 ^ 25) (2 ^ 25), poison := d.poison.filter fun l => l / 2 ^ 19 != f,
           pool := { d.pool with binding := ndel d.pool.binding f,
                                 emt := d.pool.emt.filter fun e => e.2.kind != 0 || e.2.frame != f } }

theorem frameFreed_bound (d : Dev) (f : Nat) (h : nmem d.pool.binding f = true) :
    d.frameFreed f = ((d.unbound f).clearCodes f).topUpCache := by
  simp only [Dev.frameFreed, h, Bool.not_true, Bool.false_eq_true, if_false, Dev.unbound]

/-- R373: the frame is free, and reads as zero. -/
theorem unbound_frame (d : Dev) (f : Nat) :
    nmem (d.unbound f).pool.binding f = false ∧ ∀ a, f * 2 ^ 25 ≤ a → a < (f + 1) * 2 ^ 25 → memGet (d.unbound f).mem a = 0 :=
  ⟨nmem_ndel_same _ _, fun a hlo hhi => memGet_memZero_inside _ _ _ _ hlo (by omega)⟩

/-- R43, R55, R56, R373: the epoch, a switch's answers, a migration's next skein, its end, and the end of a bind-off. -/
theorem epochsAndMigrations : Says.EpochsAndMigrations := by
  refine ⟨?_, ?_, ?_, fun d g ext e => tget_migrationDone d g ext e, ?_⟩
  · rintro s d ⟨hready, hrun⟩ rfl
    have hrunning : s.dev.running = true := by simp [Dev.running, hready, hrun]
    exact makes_of_next rfl (if_pos hrunning)
  · intro s k i key w q hswitch hreq e heard lost
    have hstatus (st : Nat) := filterAnswer_status s.dev k i key w q hswitch hreq st heard rfl
    have hnone := filterAnswer_none s.dev k i key w q hswitch hreq lost rfl
    exact ⟨makes_of_next rfl (hstatus stDone), makes_of_next rfl (hstatus stUnsupported),
      fun st hdone hunsup => makes_of_next rfl ((hstatus st).trans ((if_neg hdone).trans (if_neg hunsup))),
      fun hthird => makes_of_next rfl (hnone.trans (if_pos hthird)),
      fun hfew => makes_of_next rfl (hnone.trans (if_neg (Nat.not_le.2 hfew)))⟩
  · rintro s ext g g' d hfind (⟨hcopying, rfl, rfl⟩ | ⟨k, hcopying, rfl, rfl⟩)
    · refine ⟨fun n hnext => makes_of_next rfl ?_, fun hlast => makes_of_next rfl ?_⟩
      · simp only [hfind, hcopying, hnext]
      · simp only [hfind, hcopying, hlast]
    · refine ⟨fun n hnext => makes_of_next rfl ?_, fun hlast => makes_of_next rfl ?_⟩
      · simp only [hcopying] at hnext
        simp only [hfind, hcopying, hnext]
      · simp only [hcopying] at hlast
        simp only [hfind, hcopying, hlast]
  · intro s f hbinding
    exact ⟨s.dev.unbound f, makes_of_next rfl (frameFreed_bound s.dev f hbinding), unbound_frame s.dev f⟩

/-- Settles O24: the pool's queries and stacks, and its epochs, migrations and switch filters. -/
theorem poolUpkeep : Obligations.PoolUpkeep :=
  ⟨queriesAndStacks, epochsAndMigrations⟩

end Sys2Proof.Machine

/-! The administration lease (R64). -/

namespace Sys2Proof.Machine

section
variable (d : Dev) (p : Nat)

/-- A command of a register that needs no lease has its effect from a port that is up. -/
theorem leaseCmd_hostUp (f : Dev → Dev) (h : hostUp d p) : d.leaseCmd p f = f d := by
  obtain ⟨hready, hrun⟩ := h.2.1
  simp [Dev.leaseCmd, hostUp_portServes d p h, hready, wakeLatch_run d 1 hrun]

theorem leaseAcquire_free (h : d.leaseHolder = 0) :
    d.leaseAcquire p = (d.setLease { holder := p + 1, expiry := d.now + 4000000000, lastAccepted := d.now }).msixBoth := by
  simp [Dev.leaseAcquire, h, msTicks]

theorem leaseAcquire_held (h : d.leaseHolder ≠ 0) : d.leaseAcquire p = d := if_pos h

theorem leaseRenew_due (h : d.leaseHolder = p + 1) (hdue : d.host.lease.lastAccepted + 800000000 ≤ d.now) :
    d.leaseRenew p = d.setLease { d.host.lease with expiry := d.now + 4000000000, lastAccepted := d.now } := by
  have hlate := Nat.not_lt.2 hdue
  simp [Dev.leaseRenew, h, msTicks, hlate]

theorem leaseRenew_early (h : d.now < d.host.lease.lastAccepted + 800000000) : d.leaseRenew p = d := by
  simp [Dev.leaseRenew, msTicks, h]

theorem leaseRenew_other (h : d.leaseHolder ≠ p + 1) : d.leaseRenew p = d := by
  simp [Dev.leaseRenew, h]

theorem leaseRelease_other (h : d.leaseHolder ≠ p + 1) : d.leaseRelease p = d := if_pos h

theorem leaseRelease_holder (h : d.leaseHolder = p + 1) : d.leaseRelease p = d.leaseEnd := if_neg (not_not.2 h)

end

section
variable {s : State} {p : Nat} {d : Dev} (hup : hostUp s.dev p)
include hup

theorem makes_acquire (h : s.dev.leaseAcquire p = d) : Makes (.acquire p) s d :=
  makes_of_next rfl ((leaseCmd_hostUp _ _ _ hup).trans h)

theorem makes_renew (h : s.dev.leaseRenew p = d) : Makes (.renew p) s d :=
  makes_of_next rfl ((leaseCmd_hostUp _ _ _ hup).trans h)

theorem makes_release (h : s.dev.leaseRelease p = d) : Makes (.release p) s d :=
  makes_of_next rfl ((leaseCmd_hostUp _ _ _ hup).trans h)

end

/-- R64: a port's commands by who holds the lease, and its expiry by whether anyone does. -/
theorem administrationLease : Says.AdministrationLease := by
  refine fun s p => ⟨fun hup => ⟨?_, ?_, ?_, ?_, ?_, ?_⟩, fun hheld => ?_, fun hfree => ?_⟩
  · exact fun hfree => makes_acquire hup (leaseAcquire_free _ _ hfree)
  · exact fun hheld => makes_acquire hup (leaseAcquire_held _ _ hheld)
  · exact fun hmine hdue => makes_renew hup (leaseRenew_due _ _ hmine hdue)
  · exact fun _ hearly => makes_renew hup (leaseRenew_early _ _ hearly)
  · exact fun hother => ⟨makes_renew hup (leaseRenew_other _ _ hother), makes_release hup (leaseRelease_other _ _ hother)⟩
  · exact fun hmine => makes_release hup (leaseRelease_holder _ _ hmine)
  · exact makes_of_next rfl (if_neg hheld)
  · exact makes_of_next rfl (if_pos hfree)

end Sys2Proof.Machine

/-! The negotiation of features (R65 to R67). -/

namespace Sys2Proof.Machine

theorem bit_eq_testBit (w i : Nat) : bit w i = w.testBit i := by
  rw [bit, Nat.testBit_eq_decide_div_mod_eq, beq_eq_decide]

/-- The sum of the powers of two below `2 ^ n` whose exponents pass the test `ok`. -/
def powersWhere (ok : Nat → Bool) (n : Nat) : Nat := (List.range n).foldl (fun v b => if ok b then v + 2 ^ b else v) 0

theorem powersWhere_succ (ok : Nat → Bool) (n : Nat) :
    powersWhere ok (n + 1) = if ok n then 2 ^ n + powersWhere ok n else powersWhere ok n := by
  simp [powersWhere, List.range_succ, Nat.add_comm]

theorem powersWhere_lt (ok : Nat → Bool) (n : Nat) : powersWhere ok n < 2 ^ n := by
  induction n with
  | zero => simp [powersWhere]
  | succ n ih =>
    rw [powersWhere_succ, Nat.pow_succ]
    split <;> omega

/-- It has exactly those bits. -/
theorem testBit_powersWhere (ok : Nat → Bool) (n i : Nat) : (powersWhere ok n).testBit i = (decide (i < n) && ok i) := by
  induction n with
  | zero => simp [powersWhere]
  | succ n ih =>
    have hlt := powersWhere_lt ok n
    rw [powersWhere_succ]
    rcases Nat.lt_trichotomy i n with hbelow | rfl | habove
    · have h : i < n + 1 := by omega
      split
      · rw [Nat.testBit_two_pow_add_gt hbelow, ih]; simp [hbelow, h]
      · rw [ih]; simp [hbelow, h]
    · split
      · rename_i hok; rw [Nat.testBit_two_pow_add_eq, ih]; simp [hok]
      · rename_i hok; rw [ih]; simp [hok]
    · have hnot : ¬ i < n + 1 := by omega
      have hpow : 2 ^ (n + 1) ≤ 2 ^ i := Nat.pow_le_pow_right (by decide) habove
      rw [Nat.testBit_eq_false_of_lt (by rw [Nat.pow_succ] at hpow; split <;> omega)]
      simp [hnot]

/-- R65, R66: a feature is accepted where it is wanted and offered, and not withheld. -/
theorem bit_acceptSet (d : Dev) (f : Fuses) (ats : Bool) (wanted offered b : Nat) :
    bit (d.acceptSet f ats wanted offered) b = (decide (b < 20) && bit wanted b && bit offered b && !d.withheld f ats b) := by
  have hset : d.acceptSet f ats wanted offered = powersWhere (fun b => bit wanted b && bit offered b && !d.withheld f ats b) 20 := rfl
  rw [hset, bit_eq_testBit, testBit_powersWhere]
  simp only [Bool.and_assoc]

theorem makes_negotiate {s : State} {p : Nat} {d : Dev} (hup : hostUp s.dev p) (h : s.dev.negotiate s.fuse p = d) :
    Makes (.negotiate p) s d :=
  makes_of_next rfl ((leaseCmd_hostUp _ _ (fun d => d.negotiate s.fuse p) hup).trans h)

/-- R65 to R67, by whether a ring of the port is in use, and then by whether feature 0 is accepted. -/
theorem negotiation : Says.Negotiation := by
  refine ⟨fun s p hup => ⟨fun hused => ?_, fun hfree hzero => ?_, fun hfree hzero => ?_⟩, bit_acceptSet⟩
  · exact makes_negotiate hup (by simp only [Dev.negotiate]; rw [if_pos hused])
  · exact makes_negotiate hup (by simp only [Dev.negotiate]; rw [if_neg (by simp [hfree]), hzero]; rfl)
  · exact makes_negotiate hup (by simp only [Dev.negotiate]; rw [if_neg (by simp [hfree]), hzero]; rfl)

/-- Settles O14: the lease and the negotiation, each by the cases of its command. -/
theorem leaseAndNegotiation : Obligations.LeaseAndNegotiation :=
  ⟨administrationLease, negotiation⟩

end Sys2Proof.Machine

/-! How a change of a ring combines with another, and what the timebase and the ports' vectors leave of the rings. -/

namespace Sys2Proof.Machine

theorem tput_tput {α : Type} (t : Tbl α) (k : Nat) (v w : α) : tput (tput t k v) k w = tput t k w := by
  induction t with
  | nil => simp [tput]
  | cons e r ih =>
    obtain ⟨a, u⟩ := e
    rcases Nat.lt_trichotomy k a with h | rfl | h
    · simp [tput, h]
    · simp [tput]
    · have hk : ¬ k < a := by omega
      have hne : k ≠ a := by omega
      simp [tput, hk, hne, ih]

section
variable (d : Dev) (n m : Nat) (f g : Ring → Ring)

theorem setRing_setRing : (d.setRing n g).setRing n f = d.setRing n fun r => f (g r) := by
  simp only [Dev.setRing, Dev.ring, tgetD_tput, if_true, tput_tput]

/-- Two changes that agree on the ring as it is have the same effect. -/
theorem setRing_congr (h : f (d.ring n) = g (d.ring n)) : d.setRing n f = d.setRing n g := by
  simp only [Dev.setRing, h]

@[simp] theorem ringOwner_setRing : (d.setRing n f).ringOwner m = d.ringOwner m := rfl
@[simp] theorem ring_till (t : Nat) : (d.till t).ring n = d.ring n := rfl
@[simp] theorem ringOwner_till (t : Nat) : (d.till t).ringOwner n = d.ringOwner n := rfl

@[simp] theorem ring_emit (o : Out) : (d.emit o).ring n = d.ring n := rfl
@[simp] theorem port_emit (o : Out) : (d.emit o).port n = d.port n := rfl

@[simp] theorem ring_setPort (p : Nat) (h : PortSt → PortSt) : (d.setPort p h).ring n = d.ring n := by
  simp only [Dev.setPort]; split <;> rfl

end

/-- A vector does nothing, is sent, or is noted by its port as pending. -/
theorem msix_cases (d : Dev) (p v : Nat) :
    d.msix p v = d ∨ d.msix p v = d.emit (.msix p v) ∨ ∃ f, d.msix p v = d.setPort p f := by
  simp only [Dev.msix]
  split
  · exact .inl rfl
  · split
    · exact .inr (.inl rfl)
    · exact .inr (.inr ⟨_, rfl⟩)

@[simp] theorem ring_msix (d : Dev) (n p v : Nat) : (d.msix p v).ring n = d.ring n := by
  rcases msix_cases d p v with h | h | ⟨f, h⟩ <;> simp [h]

@[simp] theorem msix_jobs (d : Dev) (p v : Nat) : (d.msix p v).jobs = d.jobs := by
  rcases msix_cases d p v with h | h | ⟨f, h⟩ <;> simp [h]

/-- A vector adds to what has been sent, if anything. -/
theorem out_msix (d : Dev) (p v : Nat) : ∃ l, (d.msix p v).out = l ++ d.out := by
  rcases msix_cases d p v with h | h | ⟨f, h⟩
  · exact ⟨[], by rw [h]; rfl⟩
  · exact ⟨[.msix p v], by rw [h]; rfl⟩
  · exact ⟨[], by rw [h, Dev.setPort_out]; rfl⟩

/-- A vector that is enabled and unmasked is sent (R429). -/
theorem msix_unmasked (d : Dev) (p v : Nat) (hen : (d.port p).msixEnabled = true) (hun : nmem (d.port p).unmasked v = true) :
    d.msix p v = d.emit (.msix p v) := by
  simp [Dev.msix, hen, hun]

/-- A ring that moves to FAULT holds the code. -/
theorem ring_ringFault (d : Dev) (n code : Nat) : (d.ringFault n code).ring n = { d.ring n with state := 3, fault := code } := by
  unfold Dev.ringFault
  dsimp only
  split <;> simp

end Sys2Proof.Machine

/-! Rings go on and off (R70, R72). -/

namespace Sys2Proof.Machine

section
variable (d : Dev) (n : Nat)

theorem enableWrite_owner (p : Nat) (f : Dev → Dev) (hup : hostUp d p) (hn : n < 1024) (howner : d.ringOwner n = portNode p) :
    d.enableWrite (portNode p) n f = f d := by
  obtain ⟨hready, hrun⟩ := hup.2.1
  simp [Dev.enableWrite, nodePort_portNode p hup.1, hostUp_portServes d p hup, hready, howner, Nat.not_le.2 hn, wakeLatch_run d 1 hrun]

theorem enableWrite_other (p : Nat) (f : Dev → Dev) (hup : hostUp d p) (howner : d.ringOwner n ≠ portNode p) :
    d.enableWrite (portNode p) n f = d.badAccess := by
  obtain ⟨hready, _⟩ := hup.2.1
  simp [Dev.enableWrite, nodePort_portNode p hup.1, hostUp_portServes d p hup, hready, howner]

/-- A disabled ring that fails a check of Table 3.12. -/
theorem ringOn_refused (hoff : (d.ring n).state = 0) (hcheck : d.ringCheck n ≠ 0) :
    d.ringOn n = (d.setRing n fun r => { r with enable := true }).ringFault n (d.ringCheck n) := by
  simp [Dev.ringOn, hoff, hcheck]

/-- A disabled ring without held records that passes them. -/
theorem ringOn_passes (hoff : (d.ring n).state = 0) (hcheck : d.ringCheck n = 0) (hheld : (d.ring n).held = []) :
    d.ringOn n = d.setRing n fun r => { r with
      enable := true, state := 1, fault := 0, prod := 0, cons := 0, unsignalled := 0, notifyAt := none, ranges := [],
      samples := false, dropped := false } := by
  simp [Dev.ringOn, hoff, hcheck, setRing_setRing, Dev.flushRing, hheld, Dev.flushRecords]

theorem ringOff_drains (hon : (d.ring n).state = 1) (hkind : (d.ring n).kind ≠ 2) :
    d.ringOff n = d.setRing n fun r => { r with enable := false, state := 2 } := by
  simp only [Dev.ringOff, hon, if_true]
  exact setRing_congr _ _ _ _ (by simp [hkind])

theorem ringOff_eventRing (hon : (d.ring n).state = 1) (hkind : (d.ring n).kind = 2) :
    d.ringOff n = d.setRing n fun r => { r with enable := false, state := 0, held := [] } := by
  simp only [Dev.ringOff, hon, if_true]
  exact setRing_congr _ _ _ _ (by simp [hkind])

theorem ringOff_fault (hfault : (d.ring n).state = 3) (hkind : (d.ring n).kind ≠ 1) :
    d.ringOff n = d.setRing n fun r => { r with enable := false, state := 0, fault := 0 } := by
  simp [Dev.ringOff, hfault, hkind]

end

/-- R70: with every ring disabled and no session, the partition takes effect. -/
theorem ringPartApply_idle (s : State) (hoff : ∀ r ∈ s.dev.host.rings, r.2.state = 0) (hnone : s.dev.host.sessions = [])
    (hended : s.dev.host.ending = []) :
    Makes .ringPartApply s { s.dev with host := { s.dev.host with
      up0Count := bits (s.dev.reg 0x80090) 0 10, up1Count := bits (s.dev.reg 0x80090) 16 10 } } := by
  refine makes_of_next rfl (if_neg ?_)
  simpa [hnone, hended] using fun a b hab hstate => absurd (hoff (a, b) hab) hstate

section
variable {s : State} {p n : Nat} {d : Dev} (hup : hostUp s.dev p) (hn : n < 1024) (howner : s.dev.ringOwner n = portNode p)
include hup hn howner

theorem makes_ringEnable (h : s.dev.ringOn n = d) : Makes (.ringEnable (portNode p) n) s d :=
  makes_of_next rfl ((enableWrite_owner _ _ _ _ hup hn howner).trans h)

theorem makes_ringDisable (h : s.dev.ringOff n = d) : Makes (.ringDisable (portNode p) n) s d :=
  makes_of_next rfl ((enableWrite_owner _ _ _ _ hup hn howner).trans h)

end

/-- R68 to R72: the partition; an owner's writes of ENABLE, by the ring's state and kind; another's; and a drained ring. -/
theorem ringsGoOnAndOff : Says.RingsGoOnAndOff := by
  refine fun s n => ⟨?_, fun p hup hn howner => ⟨?_, ?_, ?_, ?_, ?_⟩, fun p hup hother => ⟨?_, ?_⟩, fun hdrained => ?_⟩
  · rintro n0 n1 rfl rfl
    exact ringPartApply_idle s
  · rintro code hoff rfl hbad
    refine ⟨makes_ringEnable hup hn howner (ringOn_refused _ _ hoff (by omega)), ?_, ?_⟩
    · rw [ring_ringFault]
    · rw [ring_ringFault]
  · exact fun hoff hcheck hheld => makes_ringEnable hup hn howner (ringOn_passes _ _ hoff hcheck hheld)
  · exact fun hon hkind => makes_ringDisable hup hn howner (ringOff_drains _ _ hon hkind)
  · exact fun hon hkind => makes_ringDisable hup hn howner (ringOff_eventRing _ _ hon hkind)
  · exact fun hfault hkind => makes_ringDisable hup hn howner (ringOff_fault _ _ hfault hkind)
  · exact makes_of_next rfl (enableWrite_other _ _ _ _ hup hother)
  · exact makes_of_next rfl (enableWrite_other _ _ _ _ hup hother)
  · exact makes_of_next rfl (if_pos hdrained)

end Sys2Proof.Machine

/-! Doorbells (R73, R74). -/

namespace Sys2Proof.Machine

/-- What a doorbell of a ring moves: PROD of a submission ring, CONS of the others. -/
def Ring.rung (r : Ring) : Nat := if r.kind = 0 then r.prod else r.cons

section
variable (d : Dev) (n v : Nat)

theorem ringDoorbell_inactive (h : (d.ring n).state ≠ 1) : d.ringDoorbell n v = d := if_pos h

variable (hon : (d.ring n).state = 1) (hv : v < 2 ^ 32)
include hon hv

/-- A value too far ahead is counted, and dropped. -/
theorem ringDoorbell_tooFar (h : 2 ^ 31 < (v + 2 ^ 32 - (d.ring n).rung) % 2 ^ 32) : d.ringDoorbell n v = d.bump 0x800A0 0 := by
  unfold Ring.rung at h
  have hne : (v + 2 ^ 32 - if (d.ring n).kind = 0 then (d.ring n).prod else (d.ring n).cons) % 2 ^ 32 ≠ 0 := by omega
  simp only [Dev.ringDoorbell, hon, Nat.mod_eq_of_lt hv, ne_eq, not_true_eq_false, if_false, hne, h, if_true]

/-- A submission ring publishes as many descriptors as there is room for. -/
theorem ringDoorbell_submission (hkind : (d.ring n).kind = 0) (ahead : Nat)
    (hahead : (v + 2 ^ 32 - (d.ring n).prod) % 2 ^ 32 = ahead) (hmoves : 0 < ahead) (hnear : ahead ≤ 2 ^ 31) :
    d.ringDoorbell n v = (if (d.ring n).slots - (d.ring n).used < ahead then d.clamped 2 0 else d).setRing n fun r =>
      { r with prod := (r.prod + min ((d.ring n).slots - (d.ring n).used) ahead) % 2 ^ 32 } := by
  have hne : ahead ≠ 0 := by omega
  have hfar : ¬ 2 ^ 31 < ahead := by omega
  simp only [Dev.ringDoorbell, hon, hkind, Nat.mod_eq_of_lt hv, hahead, ne_eq, not_true_eq_false, if_false, if_true, hne, hfar]

/-- A completion or event ring takes back no more slots than hold records. -/
theorem ringDoorbell_records (hkind : (d.ring n).kind ≠ 0) (taken : Nat)
    (htaken : (v + 2 ^ 32 - (d.ring n).cons) % 2 ^ 32 = taken) (hmoves : 0 < taken) (hnear : taken ≤ 2 ^ 31) :
    d.ringDoorbell n v = (if (d.ring n).used < taken then d.clamped 2 0 else d).setRing n fun r =>
      { r with cons := (r.cons + min (d.ring n).used taken) % 2 ^ 32 } := by
  have hne : taken ≠ 0 := by omega
  have hfar : ¬ 2 ^ 31 < taken := by omega
  simp only [Dev.ringDoorbell, hon, hkind, Nat.mod_eq_of_lt hv, htaken, ne_eq, not_true_eq_false, if_false, hne, hfar]

end

section
variable (d : Dev) (p n v : Nat) (hup : hostUp d p)
include hup

theorem doorbell_owner (howner : d.ringOwner n = portNode p) : d.doorbell (portNode p) (n * 0x1000) 4 v = d.ringDoorbell n v := by
  obtain ⟨hready, hrun⟩ := hup.2.1
  simp [Dev.doorbell, nodePort_portNode p hup.1, hostUp_portServes d p hup, wakeLatch_run d 1 hrun, hready, howner]

theorem doorbell_other (howner : d.ringOwner n ≠ portNode p) : d.doorbell (portNode p) (n * 0x1000) 4 v = d.bump 0x800A0 0 := by
  obtain ⟨hready, hrun⟩ := hup.2.1
  simp [Dev.doorbell, nodePort_portNode p hup.1, hostUp_portServes d p hup, wakeLatch_run d 1 hrun, hready, howner]

theorem doorbell_misplaced (off size : Nat) (hbad : size ≠ 4 ∨ off % 0x1000 ≠ 0) : d.doorbell (portNode p) off size v = d := by
  obtain ⟨_, hrun⟩ := hup.2.1
  simp [Dev.doorbell, nodePort_portNode p hup.1, hostUp_portServes d p hup, wakeLatch_run d 1 hrun]
  omega

end

theorem makes_doorbell {s : State} {p n v : Nat} {d : Dev} (hup : hostUp s.dev p) (howner : s.dev.ringOwner n = portNode p)
    (h : s.dev.ringDoorbell n v = d) : Makes (.doorbell (portNode p) (n * 0x1000) 4 v) s d :=
  makes_of_next rfl ((doorbell_owner _ _ _ _ hup howner).trans h)

/-- Moving an index on by as much as the value rung is ahead of it brings it to that value. -/
theorem index_reaches (x v : Nat) (hx : x < 2 ^ 32) (hv : v < 2 ^ 32) : (x + (v + 2 ^ 32 - x) % 2 ^ 32) % 2 ^ 32 = v := by
  omega

/-- R73, R74, by the state and the kind of the ring, and how far the value is ahead. -/
theorem doorbellsPublish : Says.DoorbellsPublish := by
  intro s p n v hup hv r ahead taken rung
  refine ⟨?_, ?_, ?_, ?_, ?_, ?_, ?_⟩
  · intro howner hon hkind hprod hmoves hroom hnear
    refine makes_doorbell hup howner ((ringDoorbell_submission _ _ _ hon hv hkind ahead rfl hmoves hnear).trans ?_)
    rw [if_neg (Nat.not_lt.2 hroom)]
    refine setRing_congr _ _ _ _ ?_
    rw [Nat.min_eq_right hroom, index_reaches _ _ hprod hv]
  · intro howner hon hkind hroom hnear
    refine makes_doorbell hup howner ((ringDoorbell_submission _ _ _ hon hv hkind ahead rfl (by omega) hnear).trans ?_)
    rw [if_pos hroom, Nat.min_eq_left (Nat.le_of_lt hroom)]
    exact setRing_congr _ _ _ _ rfl
  · intro howner hon hkind hcons hmoves hheld hnear
    refine makes_doorbell hup howner ((ringDoorbell_records _ _ _ hon hv hkind taken rfl hmoves hnear).trans ?_)
    rw [if_neg (Nat.not_lt.2 hheld)]
    refine setRing_congr _ _ _ _ ?_
    rw [Nat.min_eq_right hheld, index_reaches _ _ hcons hv]
  · exact fun howner hon hfar => makes_doorbell hup howner (ringDoorbell_tooFar _ _ _ hon hv hfar)
  · exact fun howner hoff => makes_doorbell hup howner (ringDoorbell_inactive _ _ _ hoff)
  · exact fun howner => makes_of_next rfl (doorbell_other _ _ _ _ hup howner)
  · exact fun off size hbad => makes_of_next rfl (doorbell_misplaced _ _ _ hup off size hbad)

/-- Settles O15: rings by the writes of ENABLE, and their doorbells. -/
theorem ringsAndDoorbells : Obligations.RingsAndDoorbells :=
  ⟨ringsGoOnAndOff, doorbellsPublish⟩

end Sys2Proof.Machine

/-! Signals of records, and masked vectors (R79, R429). -/

namespace Sys2Proof.Machine

/-- A host's ring is signalled by its vector. -/
theorem ringSignal_host (d : Dev) (n p : Nat) (hp : p < 2) (howner : d.ringOwner n = portNode p) :
    d.ringSignal n = (d.setRing n fun r => { r with unsignalled := 0 }).msix p (d.ring n).vector := by
  simp [Dev.ringSignal, howner, nodePort_portNode p hp]

/-- At the end of the coalescing time a host's unmasked vector tells of the records not yet signalled. -/
theorem coalesceTimeout_host (s : State) (n p : Nat) (hp : p < 2) (howner : s.dev.ringOwner n = portNode p)
    (hen : (s.dev.port p).msixEnabled = true) (hun : nmem (s.dev.port p).unmasked (s.dev.ring n).vector = true)
    (hrec : 0 < (s.dev.ring n).unsignalled) :
    Makes (.coalesceTimeout n) s
      (((s.dev.till ((s.dev.ring n).unsigSince + 800 * (s.dev.ring n).coalUs)).setRing n fun r => { r with unsignalled := 0 }).emit
        (.msix p (s.dev.ring n).vector)) := by
  refine makes_of_next rfl ?_
  simp only [usTicks]
  rw [if_neg (by omega), ringSignal_host _ n p hp (by simpa using howner), msix_unmasked]
  · rfl
  · exact hen
  · exact hun

/-- The device in which a notify write's time has come, and it waits no longer. -/
def Dev.notifyDue (d : Dev) (n t : Nat) : Dev := (d.till t).setRing n fun r => { r with notifyAt := none }

theorem ring_notifyDue (d : Dev) (n t : Nat) : (d.notifyDue n t).ring n = { d.ring n with notifyAt := none } := by
  simp [Dev.notifyDue]

/-- A notify write at a doorbell of the owner's in the device window rings it. -/
theorem notifyWrite_doorbell (d : Dev) (n k prod : Nat) (hat : (d.ring n).notify = 0xFFFFF0000000 + k * 0x1000) (hk : k < 1024)
    (howner : d.ringOwner k = d.ringOwner n) : d.notifyWrite n prod = d.ringDoorbell k prod := by
  have hin : inWindow (d.ring n).notify = true := by simp [inWindow, hat]
  have hring : ((d.ring n).notify - 0xFFFFF0000000) / 0x1000 = k := by omega
  have hpage : (d.ring n).notify % 0x1000 = 0 := by omega
  simp only [Dev.notifyWrite, hin, hring]
  simp [hpage, hk, howner]

section
variable (d e : Dev) (n prod : Nat) (hout : inWindow (d.ring n).notify = false)
include hout

theorem notifyWrite_taken (b : List Byte)
    (hwrite : d.lineWrite (some (d.ringOwner n)) (d.ring n).notify (natBytes 4 prod) = (.ok b, e)) :
    d.notifyWrite n prod = e.setRing n fun r => { r with notifyAt := none } := by
  simp [Dev.notifyWrite, hout, hwrite]

theorem notifyWrite_again (h : Nat)
    (hwrite : d.lineWrite (some (d.ringOwner n)) (d.ring n).notify (natBytes 4 prod) = (.again h, e)) :
    d.notifyWrite n prod = e.setRing n fun r => { r with notifyAt := some (e.now + hintTicks h, prod) } := by
  simp [Dev.notifyWrite, hout, hwrite]

end

theorem notifiesCfg_doorbell (r : Ring) (k : Nat) (hat : r.notify = 0xFFFFF0000000 + k * 0x1000) (hk : k < 1024) :
    r.notifiesCfg = false := by
  simp [Ring.notifiesCfg, hat]
  omega

theorem notifiesCfg_record (r : Ring) (k o : Nat) (hat : r.notify = 0xFFFFF0400000 + k * 0x40 + o) (ho : o < 0x40) (hk : k < 1024) :
    r.notifiesCfg = true := by
  simp [Ring.notifiesCfg, hat]
  omega

theorem notifiesCfg_pool (r : Ring) (hout : inWindow r.notify = false) : r.notifiesCfg = false := by
  simp [inWindow] at hout
  simp [Ring.notifiesCfg]
  omega

section
variable {s : State} {n t prod : Nat} {d : Dev} (hat : (s.dev.ring n).notifyAt = some (t, prod))
include hat

theorem makes_notifyReissue (hcfg : (s.dev.ring n).notifiesCfg = false) (h : (s.dev.notifyDue n t).notifyWrite n prod = d) :
    Makes (.notifyReissue n) s d := by
  refine makes_of_next rfl ?_
  simpa [hat, hcfg, Dev.notifyDue] using h

/-- A notify write to a record of the owner's is a write of that record. -/
theorem makes_notifyReissue_record (k o : Nat) (hrec : (s.dev.ring n).notify = 0xFFFFF0400000 + k * 0x40 + o) (ho : o < 0x40)
    (hk : k < 1024) (howner : s.dev.ringOwner k = s.dev.ringOwner n) :
    Makes (.notifyReissue n) s ((s.dev.notifyDue n t).ringWrite k o (natBytes 4 prod)) := by
  have hcfg := notifiesCfg_record _ k o hrec ho hk
  have hring : ((s.dev.ring n).notify - 0xFFFFF0400000) / 0x40 = k := by omega
  have hoff : (s.dev.ring n).notify % 0x40 = o := by omega
  refine makes_of_next rfl ?_
  simp [-Nat.reduceSub, hat, hcfg, hring, hoff, howner, Dev.notifyDue]

end

/-- R79: the coalescing time of a host's ring, and a client's notify write by where NOTIFY lies. -/
theorem signalsAreSent : Says.SignalsAreSent := by
  refine fun s n => ⟨fun p hp howner hen hun hrec => ⟨_, coalesceTimeout_host s n p hp howner hen hun hrec, rfl,
      by simp, rfl⟩,
    fun hnone => makes_of_next rfl (if_pos hnone), fun hnone => makes_of_next rfl (by simp [hnone]), ?_⟩
  rintro t prod e hat rfl
  have hring := ring_notifyDue s.dev n t
  have hnotify : ((s.dev.notifyDue n t).ring n).notify = (s.dev.ring n).notify := by rw [hring]
  refine ⟨fun k hdoor hk howner => ?_, fun k o hrec ho hk howner => makes_notifyReissue_record hat k o hrec ho hk howner,
    fun hout => ⟨fun x d hwrite => ?_, fun h d hwrite => ?_⟩⟩
  · exact makes_notifyReissue hat (notifiesCfg_doorbell _ k hdoor hk) (notifyWrite_doorbell _ n k prod (hnotify.trans hdoor) hk howner)
  · exact makes_notifyReissue hat (notifiesCfg_pool _ hout) (notifyWrite_taken _ _ n prod (by rwa [hnotify]) x (by rwa [hnotify]))
  · exact makes_notifyReissue hat (notifiesCfg_pool _ hout) (notifyWrite_again _ _ n prod (by rwa [hnotify]) h (by rwa [hnotify]))

theorem nmem_nadd_same (l : List Nat) (k : Nat) : nmem (nadd l k) k = true := by
  unfold nadd
  split
  · assumption
  · simp [nmem]

/-- A vector unmasked is masked no longer, and has nothing pending. -/
theorem port_msixUnmask (d : Dev) (p v : Nat) : (d.msixUnmask p v).port p =
    { d.port p with unmasked := nadd (d.port p).unmasked v, pendingBits := ndel (d.port p).pendingBits v } := by
  simp only [Dev.msixUnmask]
  split
  · simp [Dev.port_setPort]
  · simp [Dev.port_setPort]

/-- What it had pending is sent. -/
theorem out_msixUnmask (d : Dev) (p v : Nat) (hen : (d.port p).msixEnabled = true) :
    (d.msixUnmask p v).out = (if nmem (d.port p).pendingBits v then [.msix p v] else []) ++ d.out := by
  cases hpending : nmem (d.port p).pendingBits v <;> simp [Dev.msixUnmask, hpending, hen]

/-- R429: by what the vector had pending. -/
theorem unmaskingSendsWhatIsPending : Says.UnmaskingSendsWhatIsPending := by
  intro s p v _ hserves hen
  refine ⟨s.dev.msixUnmask p v, makes_of_next rfl (if_pos hserves), ?_, ?_, out_msixUnmask _ p v hen⟩
  · rw [port_msixUnmask]; exact nmem_nadd_same _ v
  · rw [port_msixUnmask]; exact nmem_ndel_same _ v

/-- Settles O16: the signals of records, and the vectors unmasked. -/
theorem signalsReachTheirOwner : Obligations.SignalsReachTheirOwner :=
  ⟨signalsAreSent, unmaskingSendsWhatIsPending⟩

end Sys2Proof.Machine

/-! How CLIENT_OPEN ends where no rings are left (R68), and what that comes to for a message of a transfer. -/

namespace Sys2Proof.Machine

/-- A refusal answers the request, but for a message of a WRITE_BULK, which its transfer notes until every message is in. -/
theorem deny_eq (d : Dev) (m : Msg) (det : Nat) :
    d.deny m det = if m.opcode = 4 ∧ originOf m = 0 then d.xferNote d.mir.unacked.length m stDenied else d.refuse m stDenied det := by
  simp [Dev.deny, Dev.conclude, Dev.refuse]

/-- The number of rings asked for, clamped, and the device that has counted the clamp. -/
theorem openSession_full (d e : Dev) (f : Fuses) (m : Msg) (k : Nat) (old : Option Nat) (hk : k = clampN 2 64 (field m.data 32 2))
    (he : e = if k = field m.data 32 2 then d else d.clamped 2 0) (hfull : e.ringRange k old = none) :
    d.openSession f m old = e.deny m 4 := by
  subst hk he
  simp only [Dev.openSession, hfull]

/-- A device whose 1,024 rings are all a host's. -/
def allRingsTaken : Dev := { State.reset.dev with host := { State.reset.dev.host with up0Count := 1024 } }

/-- A message with the opcode of WRITE_BULK, of no transfer the device knows, that asks for two rings. -/
def bulkForTwoRings : Msg := { cls := 0, opcode := 4, src := 7, dst := 0xFFF, tag := 5, data := zeros 32 ++ natBytes 2 2 }

theorem deny_bulkForTwoRings : allRingsTaken.deny bulkForTwoRings 4 = allRingsTaken := by
  rw [deny_eq, if_pos ⟨rfl, rfl⟩]
  rfl

/-- Refutes O25: its last clause has every opening that finds no rings refused with an answer, whatever the opcode of its message, and the
message of a transfer is not answered (`deny_eq`): with all rings a host's, one with opcode 4 leaves the device as it is, where a refusal sends
a response. For CLIENT_OPEN itself, and every other opcode, `deny_eq` gives the refusal that the clause claims. -/
theorem not_windowsAndSessions : ¬ Obligations.WindowsAndSessions := by
  rintro ⟨_, _, hopen⟩
  have hk : 2 = clampN 2 64 (field bulkForTwoRings.data 32 2) := by decide
  have he : allRingsTaken = if 2 = field bulkForTwoRings.data 32 2 then allRingsTaken else allRingsTaken.clamped 2 0 := by decide
  obtain ⟨_, _, hnone⟩ := hopen allRingsTaken allRingsTaken {} bulkForTwoRings 2 hk he
  have hfull : allRingsTaken.ringRange 2 none = none := by decide
  have hsilent : allRingsTaken = allRingsTaken.refuse bulkForTwoRings stDenied 4 := by
    rw [← hnone none hfull, openSession_full _ _ _ _ _ none hk he hfull, deny_bulkForTwoRings]
  have hanswer : (allRingsTaken.refuse bulkForTwoRings stDenied 4).out ≠ [] := by decide
  exact hanswer (congrArg Dev.out hsilent.symm)

end Sys2Proof.Machine

/-! Where no ABORT waits, none is ended (R212). -/

namespace Sys2Proof.Machine

section
variable (d : Dev) (h : d.jobs.abortWaits = [])
include h

theorem abortsOf_none (n i : Nat) : d.abortsOf n i = [] := by
  simp [Dev.abortsOf, h]

theorem endAborts_none (n i st det : Nat) : d.endAborts n i st det = d := by
  have hjobs : { d.jobs with abortWaits := [] } = d.jobs := by rw [← h]
  simp [Dev.endAborts, abortsOf_none d h, h, forEach, hjobs]

theorem forEach_endAborts_none (n st det : Nat) (at_ : Nat → Nat) (l : List Nat) :
    forEach l (fun i d => d.endAborts n (at_ i) st det) d = d := by
  induction l with
  | nil => rfl
  | cons i l ih => rw [forEach, endAborts_none d h, ih]

end

end Sys2Proof.Machine

/-! Fetching a descriptor (R76, R78). -/

namespace Sys2Proof.Machine

section
variable (d : Dev) (n : Nat) (hserves : d.serves n = true) (hkind : (d.ring n).kind = 0) (hon : (d.ring n).state = 1)
  (hnone : (d.ring n).waiting = none) (hused : 0 < (d.ring n).used)
include hserves hkind hon hnone hused

theorem fetchDesc_host (b : List Byte) (hhost : (nodePort (d.ringOwner n)).isSome = true) :
    d.fetchDesc n (some b) = d.fetched n b := by
  obtain ⟨p, hp⟩ := Option.isSome_iff_exists.1 hhost
  have hwork : (d.ring n).used ≠ 0 := by omega
  simp [Dev.fetchDesc, hserves, hkind, hon, hnone, hwork, hp]

theorem fetchDesc_unreadable (hhost : (nodePort (d.ringOwner n)).isSome = true) : d.fetchDesc n none = d.fetchFailed n := by
  obtain ⟨p, hp⟩ := Option.isSome_iff_exists.1 hhost
  have hwork : (d.ring n).used ≠ 0 := by omega
  simp [Dev.fetchDesc, hserves, hkind, hon, hnone, hwork, hp]

theorem fetchDesc_client (host : Option (List Byte)) (b : List Byte) (e : Dev) (hclient : nodePort (d.ringOwner n) = none)
    (hread : d.readRun (some (d.ringOwner n)) ((d.ring n).base + (d.ring n).cons % (d.ring n).slots * 64) 64 = (.ok b, e)) :
    d.fetchDesc n host = e.fetched n b := by
  have hwork : (d.ring n).used ≠ 0 := by omega
  simp [Dev.fetchDesc, hserves, hkind, hon, hnone, hwork, hclient, hread]

end

/-- A descriptor read waits to be started, where no ABORT waits for it. -/
theorem fetched_waits (d : Dev) (n : Nat) (b : List Byte) (hlen : b.length = 64) (hop : dOpcode b ≠ 0x21)
    (haborts : d.jobs.abortWaits = []) :
    d.fetched n b = d.setRing n fun r => { r with waiting := some ((d.ring n).cons, b), cons := (r.cons + 1) % 2 ^ 32 } := by
  have hslice : slice b 0 64 = b := by rw [← hlen, slice_self]
  simp [Dev.fetched, hslice, hop, abortsOf_none _ (show (d.setRing n _).jobs.abortWaits = [] from haborts)]

@[simp] theorem ringFault_jobs (d : Dev) (n code : Nat) : (d.ringFault n code).jobs = d.jobs := by
  unfold Dev.ringFault
  dsimp only
  split <;> simp

/-- A ring whose descriptor cannot be read is in FAULT 4, with nothing left to fetch. -/
theorem ring_fetchFailed (d : Dev) (n : Nat) (haborts : d.jobs.abortWaits = []) :
    ((d.fetchFailed n).ring n).fault = 4 ∧ ((d.fetchFailed n).ring n).state = 3 ∧ ((d.fetchFailed n).ring n).cons = (d.ring n).prod := by
  unfold Dev.fetchFailed
  dsimp only
  rw [forEach_endAborts_none]
  · simp [ring_ringFault]
  · simpa using haborts

end Sys2Proof.Machine

/-! Starting a descriptor (R76). -/

namespace Sys2Proof.Machine

/-- The device in which the descriptor `b`, fetched as number `i` of ring `n`, has started: its clamp counted, its record's slot reserved, and
a command of the power manager queued. -/
def Dev.descStarted (d : Dev) (n i : Nat) (b : List Byte) : Dev :=
  let x : Started := { idx := i, bytes := b, op := effOpcode b, recRing := (d.recordRing n b).1 }
  let d0 := if knownOpcode (dOpcode b) = true ∨ dOpcode b = 0 then d else d.clamped 2 0
  let d1 := (d0.setRing n fun y => { y with waiting := none, started := y.started ++ [x] }).reserveSlot x.recRing
  if x.op = 0x70 ∨ x.op = 0x71 ∨ x.op = 0x74 then { d1 with pm := { d1.pm with queue := d1.pm.queue ++ [(n, i)] } } else d1

theorem descStarted_jobs (d : Dev) (n i : Nat) (b : List Byte) : (d.descStarted n i b).jobs = d.jobs := by
  unfold Dev.descStarted; dsimp only; split <;> split <;> rfl

theorem ringOwner_descStarted (d : Dev) (n i : Nat) (b : List Byte) (k : Nat) : (d.descStarted n i b).ringOwner k = d.ringOwner k := by
  unfold Dev.descStarted; dsimp only; split <;> split <;> rfl

section
variable (d : Dev) (n i : Nat) (b : List Byte) (hwait : (d.ring n).waiting = some (i, b)) (hclear : (d.ring n).waitAborted = false)
include hwait hclear

/-- A descriptor with FENCE waits for those before it. -/
theorem startDesc_fenced (hfence : dFence b = true) (hbusy : (d.ring n).started ≠ []) : d.startDesc n = d := by
  simp [Dev.startDesc, hwait, hclear, hfence, hbusy]

/-- One whose record ring has no slot free waits. -/
theorem startDesc_noSlot (hfull : d.slotFor (d.recordRing n b).1 = false) : d.startDesc n = d := by
  simp [Dev.startDesc, hwait, hclear, hfull]

/-- Another starts: it is denied where its CPL_RING cannot take its record, and replicated where it is a client's. -/
theorem startDesc_starts (hserves : d.serves n = true) (hon : (d.ring n).state = 1) (haborts : d.jobs.abortWaits = [])
    (hfence : dFence b = false ∨ (d.ring n).started = []) (hslot : d.slotFor (d.recordRing n b).1 = true) :
    d.startDesc n =
      if (d.recordRing n b).2 then (d.descStarted n i b).completeDesc n i stDenied 0x10 0 0
      else if (nodePort (d.ringOwner n)).isNone then
        (d.descStarted n i b).repStateEntry 2 (natBytes 2 n ++ natBytes 4 i ++ natBytes 2 (dId b) ++
          natBytes 2 (d.recordRing n b).1 ++ natBytes 1 (effOpcode b)) (d.ringOwner n) 0
      else d.descStarted n i b := by
  have hgo : (dFence b && !(d.ring n).started.isEmpty) = false := by
    rcases hfence with h | h <;> simp [h]
  have hnoaborts : (d.descStarted n i b).abortsOf n i = [] := abortsOf_none _ (by rw [descStarted_jobs]; exact haborts) n i
  have howner := ringOwner_descStarted d n i b n
  simp only [Dev.descStarted] at hnoaborts howner ⊢
  simp only [Dev.startDesc, hwait, hclear, hserves, hgo, hslot, hon, Bool.or_eq_true, decide_eq_true_eq, or_assoc, Bool.not_true,
    Bool.false_or, Bool.false_eq_true, if_false, hnoaborts, howner, List.isEmpty_nil, ne_eq, not_true_eq_false]

end

end Sys2Proof.Machine

/-! Descriptors from their fetch to their start. -/

namespace Sys2Proof.Machine

/-- R76, R78, R80: a descriptor fetched, by whose ring it is and whether it can be read; and one that waits, by what keeps it. -/
theorem descriptorsAreFetchedAndStarted : Says.DescriptorsAreFetchedAndStarted := by
  intro s n hserves r hkind hon haborts
  refine ⟨?_, ?_, ?_, ?_, ?_, ?_⟩
  · intro b hhost hlen hnone hused hop
    exact makes_of_next rfl ((fetchDesc_host _ n hserves hkind hon hnone hused b hhost).trans (fetched_waits _ n b hlen hop haborts))
  · intro h b d hclient hnone hused hread
    exact makes_of_next rfl (fetchDesc_client _ n hserves hkind hon hnone hused h b d hclient hread)
  · intro hhost hnone hused
    exact ⟨_, makes_of_next rfl (fetchDesc_unreadable _ n hserves hkind hon hnone hused hhost), ring_fetchFailed _ n haborts⟩
  · intro i b hwait hclear hfence hslot c x d0 d1 d2
    have hstart := startDesc_starts s.dev n i b hwait hclear hserves hon haborts hfence hslot
    refine ⟨fun hbad => makes_of_next rfl (hstart.trans ?_), fun hgood hhost => makes_of_next rfl (hstart.trans ?_),
      fun hgood hclient => makes_of_next rfl (hstart.trans ?_)⟩
    · exact if_pos hbad
    · rw [if_neg (by simpa [c] using hgood), if_neg (by simpa [← Option.isSome_iff_ne_none] using hhost)]; rfl
    · rw [if_neg (by simpa [c] using hgood), if_pos (by simpa using hclient)]; rfl
  · exact fun i b hwait hclear hfence hbusy => makes_of_next rfl (startDesc_fenced _ n i b hwait hclear hfence hbusy)
  · exact fun i b hwait hclear hfull => makes_of_next rfl (startDesc_noSlot _ n i b hwait hclear hfull)

end Sys2Proof.Machine

/-! Completion records of a host's ring (R77). -/

namespace Sys2Proof.Machine

/-- Without replication records to wait for, a completion writes its record at once (R310). -/
theorem completeDesc_unreplicated (d : Dev) (ring idx st det result progress : Nat) (h : d.mir.unacked = []) :
    d.completeDesc ring idx st det result progress = d.recordNow ring idx st det result progress := by
  simp [Dev.completeDesc, h]

/-- The record that completes the started descriptor `x`, as it is held until its slot is written. -/
def recordOf (d : Dev) (x : Started) (ring idx st det result progress : Nat) : HeldRec :=
  { bytes := recordBytes (dId x.bytes) ring st x.op det d.now progress result, noIrq := dNoIrq x.bytes, ring := ring, idx := idx,
    ctx := x.busyCtx }

/-- Counting a record of a host's ring toward its signal changes that ring's counts alone, and adds to what has been sent. -/
theorem ringCount_host (d : Dev) (c p : Nat) (noIrq : Bool) (hp : p < 2) (howner : d.ringOwner c = portNode p) :
    (∃ u t, ∀ k, (d.ringCount c noIrq).ring k = if k = c then { d.ring c with unsignalled := u, unsigSince := t } else d.ring k) ∧
    ∃ l, (d.ringCount c noIrq).out = l ++ d.out := by
  unfold Dev.ringCount
  split
  · exact ⟨⟨(d.ring c).unsignalled, (d.ring c).unsigSince, fun k => by split <;> simp_all⟩, [], rfl⟩
  · dsimp only
    split
    · rw [ringSignal_host _ c p hp, setRing_setRing]
      · exact ⟨⟨0, _, fun k => (ring_msix ..).trans (Dev.ring_setRing ..)⟩, out_msix ..⟩
      · exact howner
    · exact ⟨⟨_, _, fun k => Dev.ring_setRing ..⟩, [], rfl⟩

/-- The device in which a record has been sent to slot PROD of host `p`'s completion ring `c`, which held no other, and PROD has gone on. -/
def Dev.recordSent (d : Dev) (c p : Nat) (x : HeldRec) : Dev :=
  (d.setRing c fun r => { r with held := [], reserved := r.reserved - 1, last := some x, prod := (r.prod + 1) % 2 ^ 32 }).emit
    (.hostWrite p (d.ring c).tag ((d.ring c).base + (d.ring c).prod % (d.ring c).slots * 32) (phased (d.ring c) (d.ring c).prod x.bytes))

theorem ring_recordSent (d : Dev) (c p k : Nat) (x : HeldRec) : (d.recordSent c p x).ring k =
    if k = c then { d.ring c with held := [], reserved := (d.ring c).reserved - 1, last := some x, prod := ((d.ring c).prod + 1) % 2 ^ 32 }
    else d.ring k := by
  rw [Dev.recordSent, ring_emit, Dev.ring_setRing]

theorem setRing_emit (d : Dev) (n : Nat) (f : Ring → Ring) (o : Out) : (d.emit o).setRing n f = (d.setRing n f).emit o := rfl

/-- A record handed to an active, empty-handed completion ring of a host is sent, and counted toward the next signal. -/
theorem pushRecord_host (d : Dev) (c p : Nat) (x : HeldRec) (hp : p < 2) (howner : d.ringOwner c = portNode p)
    (hkind : (d.ring c).kind = 1) (hon : (d.ring c).state = 1) (hheld : (d.ring c).held = []) :
    d.pushRecord c x = (d.recordSent c p x).ringCount c x.noIrq := by
  simp [Dev.pushRecord, Dev.flushRing, hheld, Dev.flushRecords, hon, hkind, Dev.slotWrite, howner, nodePort_portNode p hp, setRing_emit,
    setRing_setRing]
  rfl

/-- The device in which a descriptor counts as started no longer. -/
def Dev.unstarted (d : Dev) (ring idx : Nat) : Dev := d.setRing ring fun r => { r with started := r.started.filter (·.idx != idx) }

theorem ring_unstarted_other (d : Dev) (ring idx k : Nat) (h : k ≠ ring) : (d.unstarted ring idx).ring k = d.ring k := by
  rw [Dev.unstarted, Dev.ring_setRing, if_neg h]

theorem startedAt_unstarted (d : Dev) (ring idx : Nat) : (d.unstarted ring idx).startedAt ring idx = none := by
  simp [Dev.startedAt, Dev.unstarted, List.find?_eq_none]

theorem recordNow_started (d : Dev) (ring idx st det result progress : Nat) (x : Started) (h : d.startedAt ring idx = some x) :
    d.recordNow ring idx st det result progress =
      (d.unstarted ring idx).pushRecord x.recRing (recordOf d x ring idx st det result progress) := by
  simp only [Dev.recordNow, h]
  rfl

/-- R77, Table 3.15: the record in its slot, and the descriptor started no longer. -/
theorem completionRecords : Says.CompletionRecords := by
  intro d ring idx st det result progress p x c hacked hstarted hother howner hp hkind hon hheld t
  have hring : (d.unstarted ring idx).ring x.recRing = c := ring_unstarted_other d ring idx _ hother
  have ht : t = ((d.unstarted ring idx).recordSent x.recRing p (recordOf d x ring idx st det result progress)).ringCount x.recRing
      (dNoIrq x.bytes) :=
    ((completeDesc_unreplicated d ring idx st det result progress hacked).trans
      (recordNow_started d ring idx st det result progress x hstarted)).trans
      (pushRecord_host _ x.recRing p _ hp howner (by rw [hring]; exact hkind) (by rw [hring]; exact hon) (by rw [hring]; exact hheld))
  obtain ⟨⟨u, v, hrings⟩, l, hout⟩ := ringCount_host
    ((d.unstarted ring idx).recordSent x.recRing p (recordOf d x ring idx st det result progress)) x.recRing p (dNoIrq x.bytes) hp howner
  rw [← ht] at hrings hout
  refine ⟨?_, ?_, ?_, ?_⟩
  · rw [hout, Dev.recordSent, hring]
    exact List.mem_append_right l List.mem_cons_self
  · simp [hrings, ring_recordSent, hring]
  · simp [hrings, ring_recordSent, hring]
  · have hsame : t.startedAt ring idx = (d.unstarted ring idx).startedAt ring idx := by
      simp [Dev.startedAt, hrings, ring_recordSent, Ne.symm hother]
    rw [hsame, startedAt_unstarted]

end Sys2Proof.Machine

/-! NOP, and output writes that come to their turn again (R80, R480). -/

namespace Sys2Proof.Machine

section
variable (d : Dev) (o : OutJob) (ring idx : Nat) (hcaller : o.caller = .desc ring idx)
include hcaller

/-- A host has taken the write. -/
theorem outputGo_taken (p : Nat) (hp : p < 2) (howner : d.ringOwner ring = portNode p) (hposted : o.posted = true) :
    d.outputGo o = d.completeDesc ring idx o.st o.det o.result o.progress := by
  simp [Dev.outputGo, Dev.callerNode, hcaller, howner, nodePort_portNode p hp, hposted, OutJob.finish, Dev.complete]

/-- The pool has taken the rest of it. -/
theorem outputGo_written (k : Nat) (x : List Byte) (e : Dev) (hclient : nodePort (d.ringOwner ring) = none)
    (hwrite : d.writeBytes (some (d.ringOwner ring)) (o.addr + o.written) (o.bytes.drop o.written) = (k, .ok x, e)) :
    d.outputGo o = e.completeDesc ring idx o.st o.det o.result o.progress := by
  simp [Dev.outputGo, Dev.callerNode, hcaller, hclient, hwrite, OutJob.finish, Dev.complete]

/-- A home answered RETRY. -/
theorem outputGo_again (k h : Nat) (e : Dev) (hclient : nodePort (d.ringOwner ring) = none)
    (hwrite : d.writeBytes (some (d.ringOwner ring)) (o.addr + o.written) (o.bytes.drop o.written) = (k, .again h, e)) :
    d.outputGo o = { e with host := { e.host with
      outputs := e.host.outputs ++ [{ o with written := o.written + k, next := e.now + hintTicks h }] } } := by
  simp [Dev.outputGo, Dev.callerNode, hcaller, hclient, hwrite]

end

/-- R80, R480: a NOP, and a write that goes again, by whose it is and how it fares. -/
theorem nopsAndOutputs : Says.NopsAndOutputs := by
  intro s ring idx
  refine ⟨fun b hready => makes_of_next rfl (withDesc_ready _ _ _ _ b _ hready), ?_⟩
  rintro o e _ hfound hcaller rfl
  have hgo : ∀ d, Dev.outputGo (Dev.till { s.dev with host := { s.dev.host with outputs := s.dev.host.outputs.erase o } } o.next) o = d →
      Makes (.outputWriteReissue ring idx) s d := by
    intro d h
    refine makes_of_next rfl ?_
    dsimp only
    split
    · rename_i hnone
      exact absurd (hfound.symm.trans hnone) (by simp)
    · rename_i o' hsome
      cases hfound.symm.trans hsome
      exact h
  exact ⟨fun p hp howner hposted => hgo _ (outputGo_taken _ o ring idx hcaller p hp howner hposted),
    fun hclient => ⟨fun k x d hwrite => hgo _ (outputGo_written _ o ring idx hcaller k x d hclient hwrite),
      fun k h d hwrite => hgo _ (outputGo_again _ o ring idx hcaller k h d hclient hwrite)⟩⟩

end Sys2Proof.Machine

/-! ABORT (R212, R213). -/

namespace Sys2Proof.Machine

/-- A descriptor that is ready and that its gate admits is performed on its bytes. -/
theorem makes_gatedDesc {i : Instr} {s : State} {ring idx op : Nat} {ch : Bool} {fs : List Nat} {b : List Byte} {d : Dev}
    (act : List Byte → Dev → Dev)
    (harm : exec i s = .next { s with dev := s.dev.withDesc ring idx op fun b d => d.gated ring idx ch fs (act b) })
    (hready : s.dev.ready ring idx op b) (hadmits : admits s.dev ring ch fs) (h : act b (s.dev.begun ring idx) = d) : Makes i s d :=
  makes_of_next harm (by rw [withDesc_ready _ _ _ _ _ _ hready, gated_admits _ _ _ _ _ _ (begun_admits _ _ _ _ _ hadmits), h])

/-- An ABORT whose target still owes its record waits for it, and another completes DONE (R213). -/
theorem abortWon_alone (d : Dev) (ring idx tr ti : Nat) (hnone : d.jobs.abortEnds = []) :
    d.abortWon ring idx tr ti =
      if d.recordOwed tr ti then { d with jobs := { d.jobs with abortEnds := [(ring, idx, tr, ti)] } }
      else d.completeDesc ring idx stDone 0 0 0 := by
  have hjobs : { d.jobs with abortEnds := [] } = d.jobs := by rw [← hnone]
  have howed : ({ d with jobs := { d.jobs with abortEnds := [(ring, idx, tr, ti)] } } : Dev).recordOwed tr ti = d.recordOwed tr ti := rfl
  simp [Dev.abortWon, Dev.settleAborts, hnone, forEach, howed, hjobs]

/-- R212: a descriptor fetched and not started, whose record has no slot yet, is marked. -/
theorem abortWaiting_noSlot (d : Dev) (n i : Nat) (b : List Byte) (hwait : (d.ring n).waiting = some (i, b))
    (hfull : d.slotFor (d.recordRing n b).1 = false) : d.abortWaiting n = d.setRing n fun r => { r with waitAborted := true } := by
  simp [Dev.abortWaiting, hwait, hfull]

/-- What an ABORT comes to whose target has been fetched and waits no longer: it has completed, or it has started. -/
def Dev.abortPast (d : Dev) (ring idx tr ti : Nat) : Dev :=
  match d.startedAt tr ti with
  | none => d.completeDesc ring idx stAlreadyDone 0 0 0
  | some x =>
    if x.op = 0x21 then d.completeDesc ring idx stDenied 0x37 0 0
    else if d.claimedEnd tr ti then d.completeDesc ring idx stAlreadyDone 0 0 0
    else if !abortable x.op then d.completeDesc ring idx stDenied 0x38 0 0
    else (d.stopOp tr ti 3).abortWon ring idx tr ti

section
variable (d : Dev) (ring idx tr ti : Nat)

theorem abortPast_completed (h : d.startedAt tr ti = none) : d.abortPast ring idx tr ti = d.completeDesc ring idx stAlreadyDone 0 0 0 := by
  simp [Dev.abortPast, h]

variable (x : Started) (h : d.startedAt tr ti = some x)
include h

theorem abortPast_abort (hop : x.op = 0x21) : d.abortPast ring idx tr ti = d.completeDesc ring idx stDenied 0x37 0 0 := by
  simp [Dev.abortPast, h, hop]

theorem abortPast_claimed (hop : x.op ≠ 0x21) (hend : d.claimedEnd tr ti = true) :
    d.abortPast ring idx tr ti = d.completeDesc ring idx stAlreadyDone 0 0 0 := by
  simp [Dev.abortPast, h, hop, hend]

theorem abortPast_barred (hop : x.op ≠ 0x21) (hend : d.claimedEnd tr ti = false) (hbar : abortable x.op = false) :
    d.abortPast ring idx tr ti = d.completeDesc ring idx stDenied 0x38 0 0 := by
  simp [Dev.abortPast, h, hop, hend, hbar]

theorem abortPast_stops (hop : x.op ≠ 0x21) (hend : d.claimedEnd tr ti = false) (hable : abortable x.op = true) :
    d.abortPast ring idx tr ti = (d.stopOp tr ti 3).abortWon ring idx tr ti := by
  simp [Dev.abortPast, h, hop, hend, hable]

end

/-- R212, R213: an ABORT by its target: whose it is, how far away, whether it has been fetched, waits, or is past that; and what it waits for. -/
theorem aborts : Says.Aborts := by
  refine ⟨?_, fun d ring idx tr ti hnone => ?_, fun d n i b => abortWaiting_noSlot d n i b⟩
  · intro s ring idx b d t r ahead wait hready hadmits
    have hacts : ∀ e, _ = e → Makes (.abort ring idx) s e := fun e h => makes_gatedDesc _ rfl hready hadmits h
    have hother : (decide (r.kind ≠ 0) || decide (d.ringOwner t.1 ≠ d.ringOwner ring)) = true ↔
        s.dev.ringOwner t.1 ≠ s.dev.ringOwner ring ∨ r.kind ≠ 0 := by
      rw [Bool.or_eq_true, decide_eq_true_eq, decide_eq_true_eq]
      exact or_comm
    refine ⟨fun hbad => hacts _ (if_pos (hother.2 hbad)), fun howner hkind => ?_⟩
    have hmine := mt hother.1 (not_or.2 ⟨not_not.2 howner, not_not.2 hkind⟩)
    replace hacts : ∀ e, _ = e → Makes (.abort ring idx) s e := fun e h => hacts e ((if_neg hmine).trans h)
    have hreach : (decide (ahead = 0) || decide (2 ^ 31 < ahead)) = true ↔ ahead = 0 ∨ 2 ^ 31 < ahead := by
      rw [Bool.or_eq_true, decide_eq_true_eq, decide_eq_true_eq]
    have hnear : 0 < ahead → ahead ≤ 2 ^ 31 → ¬ (decide (ahead = 0) || decide (2 ^ 31 < ahead)) = true := by
      rw [hreach]; omega
    refine ⟨fun hfar => hacts _ (if_pos (hreach.2 hfar)),
      fun hpos hle hahead => hacts _ ((if_neg (hnear hpos hle)).trans (if_pos hahead)), fun c hpos hle hfetched hwait => ?_,
      fun hpos hle hfetched hgone => ?_⟩
    · have hthere : (r.waiting.map (·.1)) = some t.2 := by rw [hwait]; rfl
      replace hacts : ∀ e, _ = e → Makes (.abort ring idx) s e := fun e h => hacts e
        ((if_neg (hnear hpos hle)).trans ((if_neg (Nat.not_le.2 hfetched)).trans ((if_pos hthere).trans h)))
      have hop : (r.waiting.map fun w => dOpcode w.2) = some (dOpcode c) := by rw [hwait]; rfl
      exact ⟨fun habort => hacts _ (if_pos (hop.trans (congrArg some habort))),
        fun hother => hacts _ (if_neg fun h => hother (Option.some.inj (hop.symm.trans h)))⟩
    · have hpast : ¬ (r.waiting.map (·.1)) = some t.2 := by
        intro h
        obtain ⟨c, hwait, hsame⟩ := Option.map_eq_some_iff.1 h
        exact hgone c hwait hsame
      replace hacts : ∀ e, d.abortPast ring idx t.1 t.2 = e → Makes (.abort ring idx) s e := fun e h => hacts e
        ((if_neg (hnear hpos hle)).trans ((if_neg (Nat.not_le.2 hfetched)).trans ((if_neg hpast).trans h)))
      refine ⟨fun hnone => hacts _ (abortPast_completed _ _ _ _ _ hnone), fun x hx => ⟨?_, ?_, ?_, ?_⟩⟩
      · exact fun hop => hacts _ (abortPast_abort _ _ _ _ _ x hx hop)
      · exact fun hop hend => hacts _ (abortPast_claimed _ _ _ _ _ x hx hop hend)
      · exact fun hop hend hbar => hacts _ (abortPast_barred _ _ _ _ _ x hx hop hend hbar)
      · exact fun hop hend hable => hacts _ (abortPast_stops _ _ _ _ _ x hx hop hend hable)
  · rw [abortWon_alone d ring idx tr ti hnone]
    exact ⟨fun howed => if_pos howed, fun howed => if_neg (by simp [howed])⟩

/-- Settles O27: descriptors as they are fetched and started, as they complete, and as they are aborted. -/
theorem descriptorsAndRecords : Obligations.DescriptorsAndRecords :=
  ⟨descriptorsAreFetchedAndStarted, completionRecords, nopsAndOutputs, aborts⟩

end Sys2Proof.Machine

/-! The transaction header (R85): each field has bits of its own. -/

namespace Sys2Proof.Machine

theorem b2n_lt (b : Bool) : b2n b < 2 := by cases b <;> decide

/-- A flag reads back where its bit holds the flag's number. -/
theorem bit_of_b2n (w i : Nat) (b : Bool) (h : bits w i 1 = b2n b) : bit w i = b := by
  unfold bits at h
  cases b <;> simp_all [bit, b2n]

/-- Settles O57: the fields of the header lie one above another, so that each is read back from its own bits. -/
theorem headersReadBack : Obligations.HeadersReadBack := by
  rintro ⟨cls, opcode, src, dst, tag, addr, len, xfer, tc, last, ord, mc, data⟩ hdst hsrc hcls hop htag hlen haddr hxfer htc
  dsimp only at hdst hsrc hcls hop htag hlen haddr hxfer htc
  have hmc := b2n_lt mc
  have hord := b2n_lt ord
  have hlast := b2n_lt last
  refine ⟨?_, by simp only [headerOf]; omega⟩
  simp only [ofHeader, Msg.mk.injEq, and_true]
  refine ⟨?_, ?_, ?_, ?_, ?_, ?_, ?_, ?_, ?_, bit_of_b2n _ _ _ ?_, bit_of_b2n _ _ _ ?_, bit_of_b2n _ _ _ ?_⟩ <;>
    (simp only [bits, headerOf]; omega)

end Sys2Proof.Machine

/-! A fabric request from its arrival to the operation of its opcode: what refuses it on the way, and where it goes on (R88 to R91, R98). -/

namespace Sys2Proof.Machine

section
variable (d : Dev) (m : Msg)

theorem opRequest_takes (op : Nat) (hop : m.opcode = op) (htakes : takes d m) : d.opRequest op m = (d.taken m).orderedBody m := by
  rw [Dev.opRequest, if_neg (not_not.2 hop), arrive_takes _ _ _ htakes]

/-- A request that its session does not allow is answered so, before its opcode is looked at (R90). -/
theorem arrive_sessionRefused (body : Dev → Dev) (st det : Nat) (hcls : m.cls = 0) (hus : d.forUs m = true) (hrun : d.pm.state = 1)
    (hgate : d.gate m = none) (hsession : d.sessionCheck m = some (st, det)) :
    d.arrive m body = (d.taken m).turnAway m st det 0 := by
  have hlatch : (d.taken m).wakeLatch 2 = d.taken m := wakeLatch_run _ _ hrun
  have hgate' : (d.taken m).gate m = none := hgate
  have hsession' : (d.taken m).sessionCheck m = some (st, det) := hsession
  simp [Dev.arrive, hcls, hus, hlatch, hgate', hsession']

theorem sessionCheck_reserved (hop : knownRequest m.opcode = false) : d.sessionCheck m = some (stUnsupported, 0xFFFF) := by
  simp [Dev.sessionCheck, hop]

/-- Only a message of a write transfer is denied by way of its transfer (R98). -/
theorem deny_of_not_bulk (det : Nat) (hop : m.opcode ≠ 4) : d.deny m det = d.refuse m stDenied det := by
  rw [deny_eq, if_neg fun h => hop h.1]

/-! ## What serves an opcode -/

theorem orderedBody_line (hop : m.opcode = 1 ∨ m.opcode = 3) : d.orderedBody m = d.lineRequest m := by
  rcases hop with hop | hop <;> simp [Dev.orderedBody, hop, isAtomic]

theorem orderedBody_bulk (hop : m.opcode = 4) : d.orderedBody m = d.bulkWrite m := if_pos hop

theorem orderedBody_atomic (hop : isAtomic m.opcode = true) : d.orderedBody m = d.atomic m := by
  have hbulk : m.opcode ≠ 4 := by intro h; simp [isAtomic, h] at hop
  rw [Dev.orderedBody, if_neg hbulk, if_pos hop]

/-! ## READ and WRITE -/

theorem lineRequest_crossing (hop : m.opcode ≠ 4) (hcross : crosses m = true) : d.lineRequest m = d.refuse m stDenied 0x21 := by
  rw [Dev.lineRequest, if_pos hcross, deny_of_not_bulk d m _ hop]

theorem lineRequest_window (hcross : crosses m = false) (hwindow : inWindow m.addr = true) : d.lineRequest m = d.windowServe m := by
  simp [Dev.lineRequest, hcross, hwindow]

/-- Bytes of one line below the device window end below it, since the window begins with a line. -/
theorem spanBad_line (hop : m.opcode = 1 ∨ m.opcode = 3) (hcross : crosses m = false) (hwindow : inWindow m.addr = false) :
    spanBad m = false := by
  have hspan : reqSpan m = (m.addr, m.len + 1) := by rcases hop with hop | hop <;> simp [reqSpan, hop]
  simp only [crosses, inWindow, decide_eq_false_iff_not] at hcross hwindow
  simp only [spanBad, hspan, Bool.or_eq_false_iff, decide_eq_false_iff_not]
  omega

theorem lineRequest_served (hop : m.opcode = 1 ∨ m.opcode = 3) (hcross : crosses m = false) (hwindow : inWindow m.addr = false)
    (hgo : goesOn d m) : d.lineRequest m = d.serve m := by
  simp [Dev.lineRequest, hcross, hwindow, spanBad_line m hop hcross hwindow, accept_goesOn d m hgo]

/-! ## READ_BULK -/

theorem bulkRead_unaligned (hop : m.opcode ≠ 4) (haddr : m.addr % 64 ≠ 0) : d.bulkRead m = d.refuse m stDenied 0x20 := by
  simp [Dev.bulkRead, haddr, deny_of_not_bulk d m _ hop]

theorem bulkRead_badLen (hop : m.opcode ≠ 4) (haddr : m.addr % 64 = 0) (hlen : m.len ≠ 3) : d.bulkRead m = d.refuse m stDenied 0x22 := by
  simp [Dev.bulkRead, haddr, hlen, deny_of_not_bulk d m _ hop]

section
variable (n : Nat) (e : Dev) (haddr : m.addr % 64 = 0) (hlen : m.len = 3) (hn : n = clampGrain 64 64 262144 (field m.data 0 4))
  (he : e = if n = field m.data 0 4 then d else d.clamped 4 0)
include haddr hlen hn he

theorem bulkRead_pastEnd (hop : m.opcode ≠ 4) (hend : 0xFFFFF0000000 < m.addr + n) : d.bulkRead m = e.refuse m stDenied 0x24 := by
  subst hn
  rw [← deny_of_not_bulk e m _ hop, he]
  simp [Dev.bulkRead, haddr, hlen, hend]

theorem bulkRead_parts (hend : m.addr + n ≤ 0xFFFFF0000000) :
    d.bulkRead m = forEach (List.range ((n + 255) / 256)) (fun i d => d.accept (bulkPart m n i) false) e := by
  subst hn he
  simp [Dev.bulkRead, haddr, hlen, Nat.not_lt.2 hend]

end

/-! ## What a request comes to -/

theorem perform_read (snap : Tbl (List Byte)) (hop : isRead m.opcode = true) : d.perform m snap = (d.countReq m).doRead m snap := by
  simp [Dev.perform, hop]

theorem perform_write (snap : Tbl (List Byte)) (hop : m.opcode = 3 ∨ m.opcode = 4) : d.perform m snap = (d.countReq m).doWrite m := by
  rcases hop with hop | hop <;> simp [Dev.perform, isRead, hop]

theorem perform_atomic (snap : Tbl (List Byte)) (hop : isAtomic m.opcode = true) : d.perform m snap = (d.countReq m).doAtomic m := by
  have hrange : 8 ≤ m.opcode ∧ m.opcode ≤ 15 := by simpa [isAtomic] using hop
  have hread : isRead m.opcode = false := by simp [isRead]; omega
  have hwrite : ¬ (m.opcode = 3 || m.opcode = 4 || m.opcode = 0x15) = true := by simp; omega
  rw [Dev.perform, if_neg (by simp [hread]), if_neg hwrite, if_pos hop]

section
variable (snap : Tbl (List Byte)) (e e' : Dev) (he : e = forEach (reqLines m) (fun l d => d.touch l) d)
include he

theorem doRead_bytes (b : List Byte) (horigin : originOf m ≠ 2) (hgather : e.gather snap (reqLines m) = (.bytes b, e')) :
    d.doRead m snap = e'.reply e'.mir.unacked.length m stDone 0 0 (some (slice b ((reqSpan m).1 % 64) (reqSpan m).2)) := by
  subst he
  simp [Dev.doRead, hgather, horigin]

theorem doRead_poisoned (hgather : e.gather snap (reqLines m) = (.poisoned, e')) : d.doRead m snap = e'.refuse m stPoisoned 0 := by
  subst he
  simp [Dev.doRead, hgather]

theorem doRead_waits (hgather : e.gather snap (reqLines m) = (.wait, e')) : d.doRead m snap = e'.retry m := by
  subst he
  simp [Dev.doRead, hgather]

end

end

end Sys2Proof.Machine

/-! READ, READ_BULK and ECHO, and what a reserved opcode is answered (R90, R91, R97, R119, R123). -/

namespace Sys2Proof.Machine

/-- A command that lifts a request of one opcode performs the request's body, once the device takes it. -/
theorem makes_opRequest {i : Instr} {s : State} {m : Msg} {op : Nat} {d : Dev} (harm : exec i s = liftDev (fun d => d.opRequest op m) s)
    (htakes : takes s.dev m) (hop : m.opcode = op) (h : (s.dev.taken m).orderedBody m = d) : Makes i s d :=
  makes_of_next harm ((opRequest_takes _ _ op hop htakes).trans h)

theorem makes_read {s : State} {m : Msg} {d : Dev} (htakes : takes s.dev m) (hop : m.opcode = 1) (h : (s.dev.taken m).lineRequest m = d) :
    Makes (.read m) s d :=
  makes_opRequest rfl htakes hop ((orderedBody_line _ _ (.inl hop)).trans h)

theorem makes_readBulk {s : State} {m : Msg} {d : Dev} (htakes : takes s.dev m) (hop : m.opcode = 2) (h : (s.dev.taken m).bulkRead m = d) :
    Makes (.readBulk m) s d :=
  makes_of_next rfl ((if_neg (not_not.2 hop)).trans ((arrive_takes _ _ _ htakes).trans h))

theorem makes_echo {s : State} {m : Msg} (htakes : takes s.dev m) (hop : m.opcode = 0xF0) :
    Makes (.echo m) s ((s.dev.taken m).finishData (s.dev.taken m).mir.unacked.length m 0 m.data) :=
  makes_of_next rfl ((if_neg (not_not.2 hop)).trans ((arrive_takes _ _ _ htakes).trans (by rw [slice_self])))

/-- A request with a reserved opcode is answered before anything is made of it (R90). -/
theorem makes_reservedRequest {s : State} {m : Msg} (hcls : m.cls = 0) (hus : s.dev.forUs m = true) (hrun : s.dev.pm.state = 1)
    (hgate : s.dev.gate m = none) (hop : knownRequest m.opcode = false) :
    Makes (.reservedOpcode m) s ((s.dev.taken m).turnAway m stUnsupported 0xFFFF 0) := by
  have hnotSnoop : m.cls ≠ 1 := by omega
  exact makes_of_next rfl ((if_neg hnotSnoop).trans ((if_neg (by simp [hop])).trans
    (arrive_sessionRefused _ _ _ _ _ hcls hus hrun hgate (sessionCheck_reserved _ _ hop))))

/-- A snoop with a reserved code is answered as one that the device holds no copy for (R119). -/
theorem makes_reservedSnoop {s : State} {m : Msg} (hcls : m.cls = 1) (hdst : m.dst = s.dev.ownNode) (hop : m.opcode = 0 ∨ 6 ≤ m.opcode) :
    Makes (.reservedOpcode m) s ((s.dev.taken m).sendMsg { s.dev.rspTo m stUnsupported 0xFFFF 0 with last := true }) := by
  have hreserved : ¬ (decide (m.dst ≠ s.dev.ownNode) || (decide (1 ≤ m.opcode) && decide (m.opcode ≤ 5))) = true := by
    simp [hdst]; omega
  exact makes_of_next rfl ((if_pos hcls).trans (if_neg hreserved))

/-- Settles O17: reads by what their lines give, READ and READ_BULK by what is wrong with them, ECHO, and reserved codes. -/
theorem fabricReads : Obligations.FabricReads := by
  refine ⟨fun d m _ hgo => accept_goesOn d m hgo, ?_, ?_, ?_, ?_, ?_⟩
  · intro d m hkept hop
    simp only [List.mem_cons, List.not_mem_nil, or_false, not_or] at hop
    rw [← accept_goesOn d m hkept.1, accept_unkept d m hkept hop]
  · intro d m snap hread htag e
    have horigin : originOf m ≠ 2 := by simp only [originOf, if_pos htag]; split <;> decide
    rw [perform_read d m snap hread]
    exact ⟨fun b e' h => doRead_bytes _ m snap e e' rfl b horigin h, fun e' h => doRead_poisoned _ m snap e e' rfl h,
      fun e' h => doRead_waits _ m snap e e' rfl h⟩
  · intro s m d htakes
    refine ⟨?_, ?_, ?_, ?_, ?_, ?_, makes_echo htakes⟩
    · exact fun hop hcross => makes_read htakes hop (lineRequest_crossing d m (by omega) hcross)
    · exact fun hop hcross hwindow => makes_read htakes hop (lineRequest_window d m hcross hwindow)
    · exact fun hop hcross hwindow hgo => makes_read htakes hop (lineRequest_served d m (.inl hop) hcross hwindow hgo)
    · exact fun hop haddr => makes_readBulk htakes hop (bulkRead_unaligned d m (by omega) haddr)
    · exact fun hop haddr hlen => makes_readBulk htakes hop (bulkRead_badLen d m (by omega) haddr hlen)
    · intro n e hop haddr hlen hn he
      exact ⟨fun hend => makes_readBulk htakes hop (bulkRead_pastEnd d m n e haddr hlen hn he (by omega) hend),
        fun hend => makes_readBulk htakes hop (bulkRead_parts d m n e haddr hlen hn he hend)⟩
  · exact fun s m hcls hus hrun hgate hop => makes_reservedRequest hcls hus hrun hgate hop
  · exact fun s m hcls hdst hop => makes_reservedSnoop hcls hdst hop

end Sys2Proof.Machine

/-! The dedup window (R104): what a record makes of the request it belongs to. -/

namespace Sys2Proof.Machine

section
variable (d : Dev) (m : Msg) (r : DedupRec) (body : Dev → Dev) (htag : m.tag < 4096) (hcovers : dedupCovers m = true)
  (hrecord : tget d.fab.dedup (dedupKey (dedupHome m) m.src m.tag) = some r)
include htag hcovers hrecord

/-- The answer that was given is given again, where no replication record holds it back (R310). -/
theorem deduped_answered (a : Msg) (hmatch : r.matchesMsg m = true) (hanswer : r.answer = some a) (hacked : d.mir.unacked = [])
    (hown : r.rep = []) :
    d.deduped m body =
      ((d.bump 0x180108 0).countAnswer m.src a.opcode).sendMsg { a with dst := m.src, src := d.answerSrc m, tc := m.tc } := by
  have hgiven : d.dedupAnswer r m a = a := by simp [Dev.dedupAnswer, hown]
  simp [Dev.deduped, originOf_fabric m htag, hcovers, hrecord, hmatch, hanswer, hacked, hgiven]

theorem deduped_inProgress (hmatch : r.matchesMsg m = true) (hanswer : r.answer = none) :
    d.deduped m body = d.hint.2.turnAway m stRetry d.hint.1 0 := by
  simp [Dev.deduped, originOf_fabric m htag, hcovers, hrecord, hmatch, hanswer]

/-- The record of another request makes way. -/
theorem deduped_other (hmatch : r.matchesMsg m = false) :
    d.deduped m body = body { d with fab := { d.fab with dedup := tdel d.fab.dedup (dedupKey (dedupHome m) m.src m.tag) } } := by
  simp [Dev.deduped, originOf_fabric m htag, hcovers, hrecord, hmatch]

end

theorem makes_dedupHoldExpiry {s : State} {home src tag : Nat} {r : DedupRec} {d : Dev}
    (hrecord : tget s.dev.fab.dedup (dedupKey home src tag) = some r) (hanswer : r.answer.isSome = true) (hd : d = s.dev.till r.expiry) :
    Makes (.dedupHoldExpiry home src tag) s { d with fab := { d.fab with dedup := tdel d.fab.dedup (dedupKey home src tag) } } := by
  have hgiven : ¬ r.answer.isNone = true := by simp [Option.isSome_iff_ne_none.1 hanswer]
  refine makes_of_next rfl ?_
  simp only [hrecord, if_neg hgiven, hd]

end Sys2Proof.Machine

/-! Ordered streams (R101): whether a request is turned away, held or served, and when one that is held has its turn. -/

namespace Sys2Proof.Machine

section
variable (d : Dev) (m : Msg) (o : Ordered) (body : Dev → Dev) (hordered : orderedMsg m = true) (ho : o = tgetD d.fab.ordered (ordKey m) {})
include hordered ho

/-- While the return of another request is awaited, one that comes is turned away. -/
theorem ordered_behindRetried (t h : Nat) (hretried : o.retried = some (t, h)) (hother : m.tag ≠ t) :
    d.ordered m body = d.turnAway m stRetry 0 0 := by
  subst ho
  simp [Dev.ordered, hordered, hretried, hother]

/-- A request joins those still held at the end of their queue. -/
theorem ordered_joins (hretried : o.retried = none) (hheld : o.held ≠ []) (hroom : o.held.length < 256) :
    d.ordered m body = d.setStream m fun o => { (o.hold m o.held.length) with retried := none, before := 0 } := by
  subst ho
  simp [Dev.ordered, hordered, hretried, hheld, Nat.not_le.2 hroom, Dev.setStream, tupd]

variable (hparked : (d.pool.parked.any fun p => orderedMsg p.2 && ordKey p.2 == ordKey m) = false)
include hparked

theorem ordered_alone (hretried : o.retried = none) (hheld : o.held = []) : d.ordered m body = body d := by
  subst ho
  simp [Dev.ordered, hordered, hparked, hretried, hheld]

/-- The request whose return was awaited is served when none of those held comes before it. -/
theorem ordered_returns (h : Nat) (hretried : o.retried = some (m.tag, h)) (hfirst : o.before = 0) :
    d.ordered m body = body (d.setStream m fun o => { o with retried := none, before := 0 }) := by
  subst ho
  simp [Dev.ordered, hordered, hparked, hretried, hfirst]

end

theorem hold_last (o : Ordered) (m : Msg) : (o.hold m o.held.length).held = o.held ++ [m] := by
  simp [Ordered.hold]

theorem tget_setStream (d : Dev) (m : Msg) (f : Ordered → Ordered) :
    tget (d.setStream m f).fab.ordered (ordKey m) = some (f (tgetD d.fab.ordered (ordKey m) {})) := tget_tput_same ..

section
variable {s : State} {src tc : Nat} {m : Msg} {o : Ordered} {rest : List Msg} {d : Dev}
  (hstream : tget s.dev.fab.ordered (src * 8 + tc) = some o) (hheld : o.held = m :: rest)
  (hparked : (s.dev.pool.parked.any fun p => orderedMsg p.2 && ordKey p.2 == src * 8 + tc) = false)
  (hd : d = { s.dev with fab := { s.dev.fab with ordered := tput s.dev.fab.ordered (src * 8 + tc) { o with held := rest, before := o.before - 1 } } })
include hstream hheld hparked hd

theorem makes_orderedAdmission_served (hturn : o.retried = none ∨ o.before ≠ 0) :
    Makes (.orderedAdmission src tc) s (d.deduped m fun d => d.orderedBody m) := by
  have hfirst : (o.retried.isSome && decide (o.before = 0)) = false := by
    rcases hturn with h | h <;> simp [h]
  refine makes_of_next rfl ?_
  simp [Dev.admitOrdered, tgetD, hstream, hheld, hparked, hfirst, hd]

theorem makes_orderedAdmission_turnedAway (hretried : o.retried ≠ none) (hfirst : o.before = 0) :
    Makes (.orderedAdmission src tc) s (d.turnAway m stRetry 0 0) := by
  have hawaited : o.retried.isSome = true := Option.isSome_iff_ne_none.2 hretried
  refine makes_of_next rfl ?_
  simp [Dev.admitOrdered, tgetD, hstream, hheld, hparked, hawaited, hfirst, hd]

end

/-- Settles O19: the dedup window by its record, the ordered streams by what they hold. -/
theorem dedupAndOrder : Obligations.DedupAndOrder := by
  refine ⟨?_, ?_, ?_, ?_⟩
  · intro d m r body htag hcovers hrecord
    exact ⟨fun a => deduped_answered d m r body htag hcovers hrecord a, deduped_inProgress d m r body htag hcovers hrecord,
      deduped_other d m r body htag hcovers hrecord⟩
  · exact fun s home src tag r d hrecord hanswer hd => makes_dedupHoldExpiry hrecord hanswer hd
  · intro d m o body hordered ho hparked
    refine ⟨ordered_behindRetried d m o body hordered ho, fun hretried hheld hroom => ?_, ordered_alone d m o body hordered ho hparked,
      ordered_returns d m o body hordered ho hparked⟩
    simp only [ordered_joins d m o body hordered ho hretried hheld hroom, tget_setStream, ← ho, hold_last]
  · intro s src tc m o rest d hstream hheld hparked hd
    exact ⟨makes_orderedAdmission_served hstream hheld hparked hd, makes_orderedAdmission_turnedAway hstream hheld hparked hd⟩

end Sys2Proof.Machine

/-! Writes as they arrive (R91, R98, R309): WRITE, the messages of a WRITE_BULK, and what a write that nothing keeps comes to. -/

namespace Sys2Proof.Machine

section
variable (d : Dev) (m : Msg)

/-! ## A message of a WRITE_BULK -/

/-- A message of a new transfer finds no record free, and is turned away. -/
theorem bulkWrite_noRecord (hnew : tget d.fab.xfers (xferKey m) = none) (hfull : 16384 ≤ d.fab.xfers.length) :
    ∃ hint, d.bulkWrite m = d.refuse m stRetry hint :=
  ⟨_, if_pos (by simp [hnew, hfull])⟩

/-- A message that finds its record, or a free one, counts for its transfer before anything else is looked at. -/
theorem bulkWrite_arrives (hroom : (tget d.fab.xfers (xferKey m)).isSome = true ∨ d.fab.xfers.length < 16384) :
    d.bulkWrite m =
      if m.addr % 64 ≠ 0 then (d.xferArrives m).deny m 0x20
      else if (m.len + 1) % 64 ≠ 0 || (!m.last && m.len ≠ 255) then (d.xferArrives m).deny m 0x22
      else if spanBad m then (d.xferArrives m).deny m 0x24
      else (d.xferArrives m).accept m false := by
  refine if_neg fun hnone => ?_
  simp only [Bool.and_eq_true, decide_eq_true_eq, Option.isNone_iff_eq_none] at hnone
  obtain ⟨hnew, hfull⟩ := hnone
  rcases hroom with hroom | hroom
  · simp [hnew] at hroom
  · omega

/-! ## A write's effect -/

/-- A request of the fabric is no write through a host's window, which alone an ECC test mode counts (R359). -/
theorem testCounts_fabric (htag : m.tag < 4096) : d.testCounts m = false := by
  simp [Dev.testCounts, originOf_fabric m htag]

theorem reqSpan_write (hop : m.opcode = 3 ∨ m.opcode = 4) : reqSpan m = (m.addr, m.len + 1) := by
  rcases hop with hop | hop <;> simp [reqSpan, hop]

theorem dedupOpen_uncovered (hcovers : dedupCovers m = false) : d.dedupOpen m = d := by simp [Dev.dedupOpen, hcovers]

theorem dedupCovers_write (hop : m.opcode = 3 ∨ m.opcode = 4) : dedupCovers m = false := by
  rcases hop with hop | hop <;> simp [dedupCovers, isAtomic, hop]

/-- A write that nothing keeps, and whose lines no agent holds, has its effect at once. -/
theorem serve_write (hkept : unkept d m) (hop : m.opcode = 3 ∨ m.opcode = 4) : d.serve m = (d.countReq m).doWrite m := by
  rw [← accept_goesOn d m hkept.1, accept_unkept d m hkept (by omega), dedupOpen_uncovered d m (dedupCovers_write m hop),
    perform_write d m [] hop]

section
variable (e : Dev) (htag : m.tag < 4096) (hop : m.opcode = 3 ∨ m.opcode = 4)
include htag hop

theorem doWrite_stored (hstored : d.scatter m.addr (slice m.data 0 (m.len + 1)) 17 = (.done, e)) :
    d.doWrite m = (e.repWriteRun m.addr (slice m.data 0 (m.len + 1)) m.src m.tag).conclude d.mir.unacked.length m stDone 0 0 none := by
  have hstash : m.opcode ≠ 0x15 := by omega
  simp [Dev.doWrite, testCounts_fabric d m htag, reqSpan_write m hop, hstored, hstash]

theorem doWrite_poisoned (hpoisoned : d.scatter m.addr (slice m.data 0 (m.len + 1)) 17 = (.poisoned, e)) :
    d.doWrite m = e.conclude d.mir.unacked.length m stPoisoned 0 0 none := by
  simp [Dev.doWrite, testCounts_fabric d m htag, reqSpan_write m hop, hpoisoned]

theorem doWrite_waits (hwait : d.scatter m.addr (slice m.data 0 (m.len + 1)) 17 = (.wait, e)) : d.doWrite m = e.retry m := by
  simp [Dev.doWrite, testCounts_fabric d m htag, reqSpan_write m hop, hwait]

end

/-! ## The end of a message, and of its transfer (R98) -/

theorem conclude_bulk (n st det res : Nat) (b : Option (List Byte)) (htag : m.tag < 4096) (hop : m.opcode = 4) :
    d.conclude n m st det res b = d.xferNote n m st := by
  simp [Dev.conclude, originOf_fabric m htag, hop]

theorem conclude_single (n st det res : Nat) (b : Option (List Byte)) (hop : m.opcode ≠ 4) :
    d.conclude n m st det res b = d.reply n m st det res b := by
  simp [Dev.conclude, hop]

end

theorem nmem_iff_mem (l : List Nat) (k : Nat) : nmem l k = true ↔ k ∈ l := by simp [nmem]

/-- The record of a transfer once its message `m` has ended with status `st`. -/
def Xfer.noted (x : Xfer) (m : Msg) (st : Nat) : Xfer :=
  { x with received := nadd x.received m.xfer, serving := x.serving.erase m.xfer,
           failures := if st = stDone then x.failures else x.failures ++ [(m.addr, m.xfer, st)] }

/-- Every index of the transfer has come, and none is still served. -/
def Xfer.whole (x : Xfer) : Bool :=
  match x.last with
  | some l => x.serving.isEmpty && (List.range (l + 1)).all (nmem x.received)
  | none => false

theorem Xfer.whole_iff (x : Xfer) : x.whole = true ↔ ∃ l, x.last = some l ∧ x.serving = [] ∧ ∀ i ≤ l, i ∈ x.received := by
  unfold Xfer.whole
  cases x.last with
  | none => simp
  | some l => simp [nmem_iff_mem]

/-- The device that has forgotten the transfer of a message. -/
def Dev.withoutXfer (d : Dev) (m : Msg) : Dev := { d with fab := { d.fab with xfers := tdel d.fab.xfers (xferKey m) } }

section
variable (d : Dev) (n : Nat) (m : Msg) (st : Nat) (x : Xfer) (hx : tget d.fab.xfers (xferKey m) = some x)
include hx

theorem xferNote_waits (hwhole : ¬ (x.noted m st).whole = true) :
    d.xferNote n m st = { d with fab := { d.fab with xfers := tput d.fab.xfers (xferKey m) (x.noted m st) } } := by
  rw [Dev.xferNote, hx]
  exact if_neg hwhole

theorem xferNote_done (hwhole : (x.noted m st).whole = true) (hfailures : (x.noted m st).failures = []) :
    d.xferNote n m st = (d.withoutXfer m).reply n { m with xfer := 0 } stDone 0 0 none := by
  have hfirst : firstFailure (x.noted m st).failures = none := by rw [hfailures]; rfl
  rw [Dev.xferNote, hx]
  refine (if_pos hwhole).trans ?_
  simp only [Xfer.noted] at hfirst
  simp only [hfirst, Dev.withoutXfer]

theorem xferNote_failed (f : Nat × Nat × Nat) (hwhole : (x.noted m st).whole = true)
    (hfirst : firstFailure (x.noted m st).failures = some f) :
    d.xferNote n m st = (d.withoutXfer m).reply n { m with xfer := 0 } f.2.2 f.2.1 0 none := by
  rw [Dev.xferNote, hx]
  refine (if_pos hwhole).trans ?_
  simp only [Xfer.noted] at hfirst
  simp only [hfirst, Dev.withoutXfer]

end

/-! ## The failure first in address order -/

/-- The one of two failures with the lower address, the one found before where they are equal. -/
def lowerFailure (b : Option (Nat × Nat × Nat)) (e : Nat × Nat × Nat) : Option (Nat × Nat × Nat) :=
  match b with
  | none => some e
  | some x => if e.1 < x.1 then some e else some x

theorem firstFailure_eq_foldl (l : List (Nat × Nat × Nat)) : firstFailure l = l.foldl lowerFailure none := rfl

/-- What is found from a failure on is that failure or one of the list, and none of them has a lower address. -/
theorem foldl_lowerFailure (l : List (Nat × Nat × Nat)) (b f : Nat × Nat × Nat) (h : l.foldl lowerFailure (some b) = some f) :
    f ∈ b :: l ∧ ∀ g ∈ b :: l, f.1 ≤ g.1 := by
  induction l generalizing b with
  | nil =>
    cases h
    simp
  | cons e l ih =>
    by_cases hlower : e.1 < b.1
    · obtain ⟨hmem, hle⟩ := ih e (by rw [← h, List.foldl_cons, lowerFailure, if_pos hlower])
      have hb : f.1 ≤ b.1 := (hle e List.mem_cons_self).trans hlower.le
      exact ⟨List.mem_cons_of_mem _ hmem, List.forall_mem_cons.2 ⟨hb, hle⟩⟩
    · obtain ⟨hmem, hle⟩ := ih b (by rw [← h, List.foldl_cons, lowerFailure, if_neg hlower])
      obtain ⟨hb, hl⟩ := List.forall_mem_cons.1 hle
      have he : f.1 ≤ e.1 := hb.trans (not_lt.1 hlower)
      refine ⟨?_, List.forall_mem_cons.2 ⟨hb, List.forall_mem_cons.2 ⟨he, hl⟩⟩⟩
      rcases List.mem_cons.1 hmem with hmem | hmem <;> simp [hmem]

theorem firstFailure_least (l : List (Nat × Nat × Nat)) (f : Nat × Nat × Nat) (h : firstFailure l = some f) :
    f ∈ l ∧ ∀ g ∈ l, f.1 ≤ g.1 := by
  cases l with
  | nil => cases h
  | cons e l => exact foldl_lowerFailure l e f h

end Sys2Proof.Machine

/-! The atomics (R93): what refuses one, and what it reads, stores and answers. -/

namespace Sys2Proof.Machine

/-- The commands of the atomics, each with its opcode (Table 4.5). -/
def atomicRows (m : Msg) : List (Instr × Nat) :=
  [(.fetchAdd m, 0x08), (.fetchAnd m, 0x09), (.fetchOr m, 0x0A), (.fetchXor m, 0x0B), (.swap m, 0x0C), (.cas m, 0x0D), (.fetchUmax m, 0x0E),
    (.fadd32 m, 0x0F)]

theorem exec_atomic {m : Msg} {i : Instr} {op : Nat} (s : State) (h : (i, op) ∈ atomicRows m) :
    exec i s = liftDev (fun d => d.opRequest op m) s ∧ isAtomic op = true := by
  simp only [atomicRows, List.mem_cons, List.not_mem_nil, or_false, Prod.mk.injEq] at h
  rcases h with ⟨rfl, rfl⟩ | ⟨rfl, rfl⟩ | ⟨rfl, rfl⟩ | ⟨rfl, rfl⟩ | ⟨rfl, rfl⟩ | ⟨rfl, rfl⟩ | ⟨rfl, rfl⟩ | ⟨rfl, rfl⟩ <;>
    exact ⟨rfl, rfl⟩

theorem makes_atomic {i : Instr} {s : State} {m : Msg} {d : Dev} (hrow : (i, m.opcode) ∈ atomicRows m) (htakes : takes s.dev m)
    (h : (s.dev.taken m).atomic m = d) : Makes i s d := by
  obtain ⟨harm, hop⟩ := exec_atomic s hrow
  exact makes_opRequest harm htakes rfl ((orderedBody_atomic _ _ hop).trans h)

theorem isAtomic_iff (op : Nat) : isAtomic op = true ↔ 8 ≤ op ∧ op ≤ 15 := by simp [isAtomic]

section
variable (d : Dev) (m : Msg)

theorem atomic_accepted (hlen : atomicLenOk m = true) (haddr : m.addr % atomicSize m = 0) (hspan : spanBad m = false) :
    d.atomic m = d.accept m false := by
  simp [Dev.atomic, hlen, haddr, hspan]

theorem doAtomic_unloaded_poisoned (d1 : Dev) (hload : d.loadLine (m.addr / 64) = (.poisoned, d1)) :
    d.doAtomic m = d1.reply d.mir.unacked.length m stPoisoned 0 0 none := by
  simp [Dev.doAtomic, hload]

theorem doAtomic_unloaded_waits (d1 : Dev) (hload : d.loadLine (m.addr / 64) = (.wait, d1)) : d.doAtomic m = d1.retry m := by
  simp [Dev.doAtomic, hload]

variable (hop : isAtomic m.opcode = true)
include hop

theorem atomic_badLen (hlen : atomicLenOk m = false) : d.atomic m = d.refuse m stDenied 0x22 := by
  have hrange := (isAtomic_iff m.opcode).1 hop
  simp [Dev.atomic, hlen, deny_of_not_bulk d m 0x22 (by omega)]

theorem atomic_unaligned (hlen : atomicLenOk m = true) (haddr : m.addr % atomicSize m ≠ 0) : d.atomic m = d.refuse m stDenied 0x20 := by
  have hrange := (isAtomic_iff m.opcode).1 hop
  simp [Dev.atomic, hlen, haddr, deny_of_not_bulk d m 0x20 (by omega)]

theorem atomic_pastEnd (hlen : atomicLenOk m = true) (haddr : m.addr % atomicSize m = 0) (hspan : spanBad m = true) :
    d.atomic m = d.refuse m stDenied 0x24 := by
  have hrange := (isAtomic_iff m.opcode).1 hop
  simp [Dev.atomic, hlen, haddr, hspan, deny_of_not_bulk d m 0x24 (by omega)]

/-- An atomic that nothing keeps, and whose line no agent holds, has its effect at once. -/
theorem accept_atomic (hkept : unkept d m) : d.accept m false = ((d.dedupOpen m).countReq m).doAtomic m := by
  have hrange := (isAtomic_iff m.opcode).1 hop
  rw [accept_unkept d m hkept (by omega), perform_atomic _ _ _ hop]

/-! ## Its effect -/

theorem reqSpan_atomic : (reqSpan m).2 = atomicSize m := by
  have hrange := (isAtomic_iff m.opcode).1 hop
  have hcoherent : ¬ (0x10 ≤ m.opcode ∧ m.opcode ≤ 0x15) := by omega
  have hreduce : m.opcode ≠ 0x32 := by omega
  simp only [reqSpan, atomicSize, Bool.and_eq_true, decide_eq_true_eq, if_neg hcoherent, if_neg hreduce]
  split <;> rfl

section
variable (b : List Byte) (d1 d2 : Dev) (old : Nat) (new : List Byte) (hload : d.loadLine (m.addr / 64) = (.bytes b, d1))
  (hold : old = field b (m.addr % 64) (atomicSize m)) (hnew : new = natBytes (atomicSize m) (atomicNew m.opcode (atomicSize m) old m.data))
include hload hold hnew

theorem doAtomic_stored (hstore : d1.storeLine m.addr new = (.done, d2)) :
    d.doAtomic m = (d2.repAtomicLine m.addr (overlay b (m.addr % 64) new) (dedupTail m stDone 0 old) m.src m.tag).reply
      d.mir.unacked.length m stDone 0 0 (some (natBytes (atomicSize m) old)) := by
  subst hold hnew
  simp [Dev.doAtomic, reqSpan_atomic m hop, hload, hstore]

theorem doAtomic_unstored_poisoned (hstore : d1.storeLine m.addr new = (.poisoned, d2)) :
    d.doAtomic m = d2.reply d.mir.unacked.length m stPoisoned 0 0 none := by
  subst hold hnew
  simp [Dev.doAtomic, reqSpan_atomic m hop, hload, hstore]

theorem doAtomic_unstored_waits (hstore : d1.storeLine m.addr new = (.wait, d2)) : d.doAtomic m = d2.retry m := by
  subst hold hnew
  simp [Dev.doAtomic, reqSpan_atomic m hop, hload, hstore]

end

end

theorem atomics : Says.Atomics := by
  refine ⟨?_, ?_, fun n old data => ⟨rfl, rfl, rfl, rfl, rfl, rfl, rfl, rfl⟩⟩
  · intro s m i hrow d htakes
    have hop := (exec_atomic s hrow).2
    have hacts : ∀ e, d.atomic m = e → Makes i s e := fun e h => makes_atomic hrow htakes h
    refine ⟨fun hlen => hacts _ (atomic_badLen d m hop hlen), fun hlen haddr => hacts _ (atomic_unaligned d m hop hlen haddr),
      fun hlen haddr hspan => hacts _ (atomic_pastEnd d m hop hlen haddr hspan), fun hlen haddr hspan hgo => hacts _ ?_,
      fun hlen haddr hspan hkept => hacts _ ?_⟩
    · rw [atomic_accepted d m hlen haddr hspan, accept_goesOn d m hgo]
    · rw [atomic_accepted d m hlen haddr hspan, accept_atomic d m hop hkept]
  · intro d m hop n
    refine ⟨?_, doAtomic_unloaded_poisoned d m, doAtomic_unloaded_waits d m⟩
    intro b d1 hload old new
    refine ⟨?_, ?_, ?_⟩
    · exact fun d2 hstore => doAtomic_stored d m hop b d1 d2 old new hload rfl rfl hstore
    · exact fun d2 hstore => doAtomic_unstored_poisoned d m hop b d1 d2 old new hload rfl rfl hstore
    · exact fun d2 hstore => doAtomic_unstored_waits d m hop b d1 d2 old new hload rfl rfl hstore

end Sys2Proof.Machine

/-! The writes, from their commands to the end of their transfers, and with them the atomics. -/

namespace Sys2Proof.Machine

theorem makes_write {s : State} {m0 : Msg} {d : Dev} (htakes : takes s.dev (unmasked m0)) (hop : (unmasked m0).opcode = 3)
    (h : (s.dev.taken (unmasked m0)).lineRequest (unmasked m0) = d) : Makes (.write m0) s d :=
  makes_opRequest rfl htakes hop ((orderedBody_line _ _ (.inr hop)).trans h)

theorem makes_writeBulk {s : State} {m : Msg} {d : Dev} (htakes : takes s.dev m) (hop : m.opcode = 4)
    (h : (s.dev.taken m).bulkWrite m = d) : Makes (.writeBulk m) s d :=
  makes_opRequest rfl htakes hop ((orderedBody_bulk _ _ hop).trans h)

/-- A transfer that lacks an index when its hold is over ends with the first one missing (R98). -/
theorem makes_xferHoldTimeout {s : State} {src tag : Nat} {x : Xfer} {d : Dev} (hx : tget s.dev.fab.xfers (src * 4096 + tag) = some x)
    (hlacks : x.arrived = false) (hd : d = s.dev.till (x.time + usTicks (s.dev.fld 0x180104 24 8))) :
    Makes (.xferHoldTimeout src tag) s
      ({ d with fab := { d.fab with xfers := tdel d.fab.xfers (src * 4096 + tag) } }.reply d.mir.unacked.length
        { x.first with xfer := 0 } stTimeout x.missing 0 none) := by
  refine makes_of_next rfl ?_
  simp [hx, hlacks, hd]

theorem fabricWrites : Says.FabricWrites := by
  refine ⟨?_, ?_, ?_, ?_, ?_, firstFailure_least, fun s src tag x d hx hlacks hd => makes_xferHoldTimeout hx hlacks hd⟩
  · rintro s m m0 d htakes hop rfl
    exact ⟨fun hcross => makes_write htakes hop (lineRequest_crossing d _ (by omega) hcross),
      fun hcross hwindow => makes_write htakes hop (lineRequest_window d _ hcross hwindow),
      fun hcross hwindow hgo => makes_write htakes hop (lineRequest_served d _ (.inr hop) hcross hwindow hgo)⟩
  · intro s m d room htakes hop
    have hacts : ∀ e, (s.dev.taken m).bulkWrite m = e → Makes (.writeBulk m) s e := fun e h => makes_writeBulk htakes hop h
    have harrives : room → (s.dev.taken m).bulkWrite m = _ := bulkWrite_arrives (s.dev.taken m) m
    have hlenBad : (decide ((m.len + 1) % 64 ≠ 0) || (!m.last && decide (m.len ≠ 255))) = true ↔
        (m.len + 1) % 64 ≠ 0 ∨ m.last = false ∧ m.len ≠ 255 := by simp
    refine ⟨fun hfull => ?_, fun hroom haddr => hacts _ ((harrives hroom).trans (if_pos haddr)), fun hroom haddr hlen => hacts _ ?_,
      fun hroom haddr hlen hlast => ?_⟩
    · simp only [room, not_or, Bool.not_eq_true, Option.isSome_eq_false_iff, Option.isNone_iff_eq_none, not_lt] at hfull
      obtain ⟨hint, h⟩ := bulkWrite_noRecord (s.dev.taken m) m hfull.1 hfull.2
      exact ⟨hint, hacts _ h⟩
    · rw [harrives hroom, if_neg (not_not.2 haddr), if_pos (hlenBad.2 hlen)]
    · have hlenOk : ¬ ((m.len + 1) % 64 ≠ 0 ∨ m.last = false ∧ m.len ≠ 255) := by
        rcases hlast with hlast | hlast <;> simp [hlen, hlast]
      have hpassed := (harrives hroom).trans ((if_neg (not_not.2 haddr)).trans (if_neg (mt hlenBad.1 hlenOk)))
      exact ⟨fun hspan => hacts _ (hpassed.trans (if_pos hspan)),
        fun hspan hgo => hacts _ (hpassed.trans ((if_neg (by simp [hspan])).trans (accept_goesOn d m hgo)))⟩
  · intro d m hkept htag hop e n bs
    rw [serve_write d m hkept hop]
    exact ⟨fun e' h => doWrite_stored e m e' htag hop h, fun e' h => doWrite_poisoned e m e' htag hop h,
      fun e' h => doWrite_waits e m e' htag hop h⟩
  · exact fun d n m st det res b htag => ⟨conclude_bulk d m n st det res b htag, conclude_single d m n st det res b⟩
  · rintro d n m st x _ hx rfl gone whole
    have hwhole : (x.noted m st).whole = true ↔ whole := Xfer.whole_iff _
    exact ⟨fun h => xferNote_done d n m st x hx (hwhole.2 h), fun f h => xferNote_failed d n m st x hx f (hwhole.2 h),
      fun h => xferNote_waits d n m st x hx (mt hwhole.1 h)⟩

/-- Settles O18: writes by their commands, their effects and the ends of their transfers; atomics by what they load and store. -/
theorem fabricWritesAndAtomics : Obligations.FabricWritesAndAtomics :=
  ⟨fabricWrites, atomics⟩

end Sys2Proof.Machine

/-! A response to the device (R96, R100, R102, R312): whose request it answers, and what that comes to by what the request was for. -/

namespace Sys2Proof.Machine

section
variable (d : Dev) (l : Nat) (m : Msg) (hcls : m.cls = 2 ∨ m.cls = 3) (hawake : d.pm.state ≠ 3)
include hcls hawake

theorem responseIn_toNobody (hdst : m.dst = 0xFFF) : d.responseIn l m = d.bump 0x600010 16 := by
  rcases hcls with hcls | hcls <;> simp [Dev.responseIn, hcls, hawake, hdst]

theorem responseIn_stale (hdst : m.dst ≠ 0xFFF) (hnone : d.matchReq m.src m.tag = none) : d.responseIn l m = d.bump 0x180108 16 := by
  rcases hcls with hcls | hcls <;> simp [Dev.responseIn, hcls, hawake, hdst, hnone]

theorem responseIn_matched (hdst : m.dst ≠ 0xFFF) (k : Nat) (r : DevReq) (hmatch : d.matchReq m.src m.tag = some (k, r)) :
    d.responseIn l m = (d.vetted l m r).2.responseTo (d.vetted l m r).1 k r := by
  rcases hcls with hcls | hcls <;> simp [Dev.responseIn, hcls, hawake, hdst, hmatch]

end

section
variable (d : Dev) (l : Nat) (m : Msg) (k : Nat) (r : DevReq)

theorem vetted_good (hgood : badResponse m r = false) : d.vetted l m r = (m, d) := by simp [Dev.vetted, hgood]

theorem vetted_bad (hbad : badResponse m r = true) :
    d.vetted l m r = ({ m with cls := 2, opcode := stDeviceError }, d.responseMalformed l m) := by simp [Dev.vetted, hbad]

/-! ## By what the request was for -/

theorem responseTo_retry (hretry : m.opcode = stRetry) (hpurpose : r.purpose = 0 ∨ r.purpose = 1 ∨ r.purpose = 5) :
    d.responseTo m k r = d.reqAgain k r (msgDetail m) := by
  rcases hpurpose with h | h | h <;> simp [Dev.responseTo, h, hretry]

theorem responseTo_event_taken (hpurpose : r.purpose = 0) (hdone : m.opcode = stDone) : d.responseTo m k r = d.endReq k := by
  simp [Dev.responseTo, hpurpose, hdone]

theorem responseTo_event_dropped (hpurpose : r.purpose = 0) (hdone : m.opcode ≠ stDone) (hretry : m.opcode ≠ stRetry) :
    d.responseTo m k r = d.eventDropped k := by
  simp [Dev.responseTo, hpurpose, hdone, hretry]

theorem responseTo_filter (hpurpose : r.purpose = 1) (hretry : m.opcode ≠ stRetry) :
    d.responseTo m k r = d.filterAnswer (r.index / 64) (r.index % 64) (some m.opcode) := by
  simp [Dev.responseTo, hpurpose, hretry]

theorem responseTo_mover (hpurpose : r.purpose = 2) : d.responseTo m k r = d.moverAnswer m k r := by
  simp [Dev.responseTo, hpurpose]

theorem responseTo_snoop (hpurpose : r.purpose = 3) : d.responseTo m k r = d.snoopAnswered m k r := by
  simp [Dev.responseTo, hpurpose]

theorem responseTo_other (hpurpose : r.purpose = 4) : d.responseTo m k r = d.endReq k := by
  simp [Dev.responseTo, hpurpose]

theorem responseTo_recall (hpurpose : r.purpose = 6) : d.responseTo m k r = d.recallMsg m k r := by
  simp [Dev.responseTo, hpurpose]

theorem responseTo_fetch (hpurpose : r.purpose = 5) (hretry : m.opcode ≠ stRetry) : d.responseTo m k r = d.fetchAnswered m k r.index := by
  simp [Dev.responseTo, hpurpose, hretry]

/-! ## A line from the partner (R312) -/

theorem fetchAnswered_noData (line : Nat) (hcls : m.cls ≠ 3) : d.fetchAnswered m k line = d.endReq k := by
  simp [Dev.fetchAnswered, hcls]

section
variable (line x : Nat) (e : Dev) (hcls : m.cls = 3) (he : e = d.endReq k) (hkey : e.keyOf (line * 64) = some x)
include hcls he hkey

theorem fetchAnswered_kept (hfailed : e.onFailed (line * 64) x = true) :
    d.fetchAnswered m k line = { e with coh := { e.coh with fetched := tput e.coh.fetched line (slice m.data 0 64) } } := by
  subst he
  simp [Dev.fetchAnswered, hcls, hkey, hfailed]

theorem fetchAnswered_rewritten (hsound : e.onFailed (line * 64) x = false) (hpoison : nmem e.poison (x / 64) = true) :
    d.fetchAnswered m k line = (e.writeLine (line / 2 ^ 19) x (line * 64) (slice m.data 0 64)).2 := by
  subst he
  simp [Dev.fetchAnswered, hcls, hkey, hsound, hpoison]

theorem fetchAnswered_notNeeded (hsound : e.onFailed (line * 64) x = false) (hpoison : nmem e.poison (x / 64) = false) :
    d.fetchAnswered m k line = e := by
  subst he
  simp [Dev.fetchAnswered, hcls, hkey, hsound, hpoison]

end

theorem tget_reqAgain (h : Nat) :
    tget (d.reqAgain k r h).fab.devReqs k = some { r with again := true, deadline := d.now + (h * 512 + 9) / 10 } := tget_tput_same ..

end

theorem makes_responseReceive {s : State} {l : Nat} {m : Msg} {d : Dev} (h : s.dev.responseIn l m = d) : Makes (.responseReceive l m) s d :=
  makes_of_next rfl h

theorem responses : Says.Responses := by
  refine ⟨?_, ?_⟩
  · intro s l m hcls hawake
    refine ⟨fun hdst => makes_responseReceive (responseIn_toNobody _ l m hcls hawake hdst),
      fun hdst hnone => makes_responseReceive (responseIn_stale _ l m hcls hawake hdst hnone), fun k r hdst hmatch => ⟨?_, ?_⟩⟩
    · intro hgood
      exact makes_responseReceive (by rw [responseIn_matched _ l m hcls hawake hdst k r hmatch, vetted_good _ l m r hgood])
    · intro hbad
      exact makes_responseReceive (by rw [responseIn_matched _ l m hcls hawake hdst k r hmatch, vetted_bad _ l m r hbad])
  · intro d m k r
    refine ⟨responseTo_retry d m k r, responseTo_event_taken d m k r, responseTo_event_dropped d m k r, responseTo_filter d m k r,
      responseTo_mover d m k r, responseTo_snoop d m k r, responseTo_other d m k r, responseTo_recall d m k r, ?_, ?_, tget_reqAgain d k r⟩
    · intro x e hpurpose hretry hcls he hkey
      rw [responseTo_fetch d m k r hpurpose hretry]
      exact ⟨fetchAnswered_kept d m k r.index x e hcls he hkey, fun hsound =>
        ⟨fetchAnswered_rewritten d m k r.index x e hcls he hkey hsound, fetchAnswered_notNeeded d m k r.index x e hcls he hkey hsound⟩⟩
    · intro hpurpose hretry hcls
      rw [responseTo_fetch d m k r hpurpose hretry, fetchAnswered_noData d m k r.index hcls]

end Sys2Proof.Machine

/-! Requests of the device without an answer (R103): sent again while resends are left, and then given up by what they were for. -/

namespace Sys2Proof.Machine

section
variable (d : Dev) (k : Nat) (r : DevReq)

theorem mayResend_iff : d.mayResend r = true ↔ r.again = true ∨ r.resends < d.fld 0x180104 20 4 := by simp [Dev.mayResend]

theorem requestTimedOut_single (hmay : d.mayResend r = true) (hsingle : r.purpose ≠ 2 ∨ r.m.opcode ≠ 4) :
    d.requestTimedOut k r = d.resend k r := by
  have hnoTransfer : ¬ (r.purpose = 2 ∧ r.m.opcode = 4) := by omega
  by_cases hsnoop : r.purpose = 3
  · simp [Dev.requestTimedOut, Dev.snoopTimedOut, hsnoop, hmay]
  · by_cases hrecall : r.purpose = 6
    · simp [Dev.requestTimedOut, Dev.recallTimedOut, hrecall, hmay]
    · simp [Dev.requestTimedOut, hsnoop, hrecall, hmay, hnoTransfer]

/-- A write transfer is sent again with all its messages. -/
theorem requestTimedOut_transfer (hmay : d.mayResend r = true) (hpurpose : r.purpose = 2) (hop : r.m.opcode = 4) :
    d.requestTimedOut k r = (d.resend k r).sendRest r.index r.m.tag := by
  simp [Dev.requestTimedOut, hpurpose, hop, hmay]

section
variable (hspent : d.mayResend r = false)
include hspent

theorem requestTimedOut_event (hpurpose : r.purpose = 0) : d.requestTimedOut k r = d.eventDropped k := by
  simp [Dev.requestTimedOut, Dev.requestFailed, hspent, hpurpose]

theorem requestTimedOut_filter (hpurpose : r.purpose = 1) :
    d.requestTimedOut k r = d.filterAnswer (r.index / 64) (r.index % 64) none := by
  simp [Dev.requestTimedOut, Dev.requestFailed, hspent, hpurpose]

theorem requestTimedOut_mover (hpurpose : r.purpose = 2) : d.requestTimedOut k r = (d.endReq k).moverLost r.index := by
  simp [Dev.requestTimedOut, Dev.requestFailed, hspent, hpurpose]

theorem requestTimedOut_snoop (hpurpose : r.purpose = 3) (hone : r.m.mc = false) :
    d.requestTimedOut k r = d.snoopLost r.index k r.m.dst := by
  simp [Dev.requestTimedOut, Dev.snoopTimedOut, hspent, hpurpose, hone]

/-- The nodes of a multicast snoop that have not answered hold no copy; its transaction goes on without them (R120). -/
theorem requestTimedOut_multicast (t : Txn) (e : Dev) (hpurpose : r.purpose = 3) (hmany : r.m.mc = true)
    (ht : tget d.coh.txns r.index = some t) (he : e = d.bumps 0x180208 0 t.mcLeft) :
    d.requestTimedOut k r =
      (({ e with coh := { e.coh with txns := tput e.coh.txns r.index { t with mcLeft := 0 } } } : Dev).endReq k).closeTxn r.index := by
  subst he
  simp [Dev.requestTimedOut, Dev.snoopTimedOut, hspent, hpurpose, hmany, ht]

theorem requestTimedOut_other (hpurpose : r.purpose = 4 ∨ r.purpose = 5) : d.requestTimedOut k r = d.endReq k := by
  rcases hpurpose with h | h <;> simp [Dev.requestTimedOut, Dev.requestFailed, hspent, h]

theorem requestTimedOut_recall (hpurpose : r.purpose = 6) : d.requestTimedOut k r = d.recallLost r.index r.m.dst := by
  simp [Dev.requestTimedOut, Dev.recallTimedOut, hspent, hpurpose]

end

/-- The tag of a request that has ended is free, where no other request waits for it (R99). -/
theorem tget_endReq (hrise : keysRise d.fab.devReqs = true) (hnone : d.fab.waitReqs = []) : tget (d.endReq k).fab.devReqs k = none := by
  have hend : d.endReq k = { d with fab := { d.fab with devReqs := tdel d.fab.devReqs k } } := by
    simp [Dev.endReq, Dev.sendWaiting, hnone]
  rw [hend]
  exact tget_tdel_same _ k hrise

theorem tget_resend : tget (d.resend k r).fab.devReqs k = some { r with
    resends := if r.again then r.resends else r.resends + 1, again := false, deadline := d.reqDeadline } := tget_tput_same ..

end

theorem makes_deviceRequestTimeout {s : State} {k : Nat} {r : DevReq} {d : Dev} (hr : tget s.dev.fab.devReqs k = some r)
    (h : (s.dev.till r.deadline).requestTimedOut k r = d) : Makes (.deviceRequestTimeout k) s d := by
  refine makes_of_next rfl ?_
  simp only [hr, h]

end Sys2Proof.Machine

/-! Requests of the device to a PCIe port without an answer (R78, R239, R480). -/

namespace Sys2Proof.Machine

section
variable (d : Dev)

theorem fetchDesc_unanswered (p n : Nat) (howner : nodePort (d.ringOwner n) = some p) (hserves : d.serves n = true)
    (hkind : (d.ring n).kind = 0) (hstate : (d.ring n).state = 1 ∨ (d.ring n).state = 2) (hwaiting : (d.ring n).waiting = none)
    (hused : (d.ring n).used ≠ 0) : d.fetchDesc n none = d.fetchFailed n := by
  rcases hstate with hstate | hstate <;> simp [Dev.fetchDesc, howner, hserves, hkind, hstate, hwaiting, hused]

theorem outputLost_found (n i : Nat) (o : OutJob) (ho : (d.host.outputs.find? fun o => o.caller == .desc n i) = some o) :
    d.outputLost n i = o.finish { d with host := { d.host with outputs := d.host.outputs.filter fun x => x.caller != .desc n i } } true := by
  simp [Dev.outputLost, ho]

theorem outputLost_none (n i : Nat) (hnone : (d.host.outputs.any fun o => o.caller == .desc n i) = false) : d.outputLost n i = d := by
  have hfind : (d.host.outputs.find? fun o => o.caller == .desc n i) = none := by
    rw [List.find?_eq_none]
    exact fun o ho => by simp [List.any_eq_false.1 hnone o ho]
  simp [Dev.outputLost, hfind]

section
variable (k : Nat) (w : MoverWork) (hwork : (d.mover k).work = some w)
include hwork

theorem moverUnanswered_read (hphase : w.phase = 1) (hsrc : w.srcKind = 1) (hretry : w.retryAt = none) :
    d.moverUnanswered k = d.moverFail k 0 stDeviceError 2 := by
  simp [Dev.moverUnanswered, hwork, hphase, hsrc, hretry]

theorem moverUnanswered_translation (hphase : w.phase ≠ 1) (hats : (d.mover k).atsOut = true) :
    d.moverUnanswered k = d.moverFail k w.wantSide stDeviceError 2 := by
  simp [Dev.moverUnanswered, hwork, hphase, hats]

end

/-- The record written last comes back, and its slot with it (R78). -/
theorem recordLost_comesBack (c : Nat) (x : HeldRec) (hkind : (d.ring c).kind = 1) (hlast : (d.ring c).last = some x) :
    d.recordLost c = (d.setRing c fun r => { r with
      held := x :: r.held, reserved := r.reserved + 1, prod := (r.prod + 2 ^ 32 - 1) % 2 ^ 32, last := none }).ringFault c 5 := by
  simp only [Dev.recordLost, hkind, hlast]

theorem recordLost_nothing (c : Nat) (h : (d.ring c).kind ≠ 1 ∨ (d.ring c).last = none) : d.recordLost c = d.ringFault c 5 := by
  unfold Dev.recordLost
  split
  · next hkind hlast => simp [hkind, hlast] at h
  · rfl

theorem finish_failed (o : OutJob) (hunit : o.unit ≠ 0) (hres : o.resUnit = 0) :
    o.finish d true = d.complete o.caller stDeviceError 1 o.result (o.written / o.unit) := by
  simp [OutJob.finish, hunit, hres]

end

section
variable {s : State} {p n i k : Nat} {d : Dev}

theorem makes_ringFetchTimeout (howner : nodePort (s.dev.ringOwner n) = some p) (h : s.dev.fetchDesc n none = d) :
    Makes (.pcieCompletionTimeout p (.ringFetch n)) s d := makes_of_next rfl ((if_pos howner).trans h)

theorem makes_recordWriteTimeout (howner : nodePort (s.dev.ringOwner n) = some p) (hkind : (s.dev.ring n).kind ≠ 0)
    (hstate : (s.dev.ring n).state = 1 ∨ (s.dev.ring n).state = 2) :
    Makes (.pcieCompletionTimeout p (.recordWrite n)) s (s.dev.recordLost n) :=
  makes_of_next rfl (if_pos (by simp [howner, hkind, hstate]))

theorem makes_outputTimeout (howner : nodePort (s.dev.ringOwner n) = some p) (h : s.dev.outputLost n i = d) :
    Makes (.pcieCompletionTimeout p (.output n i)) s d := makes_of_next rfl ((if_pos howner).trans h)

theorem makes_moverTimeout (h : s.dev.moverUnanswered k = d) : Makes (.pcieCompletionTimeout p (.mover k)) s d := makes_of_next rfl h

end

theorem timeouts : Says.Timeouts := by
  refine ⟨?_, ?_, ?_, recordLost_comesBack, recordLost_nothing, finish_failed⟩
  · rintro s k r d hr rfl
    have hacts : ∀ e, (s.dev.till r.deadline).requestTimedOut k r = e → Makes (.deviceRequestTimeout k) s e :=
      fun e h => makes_deviceRequestTimeout hr h
    constructor
    · intro hleft
      have hmay := (mayResend_iff _ r).2 hleft
      exact ⟨fun hsingle => hacts _ (requestTimedOut_single _ k r hmay hsingle),
        fun hpurpose hop => hacts _ (requestTimedOut_transfer _ k r hmay hpurpose hop)⟩
    · intro hagain hresends
      have hspent : (s.dev.till r.deadline).mayResend r = false := by
        rw [Bool.eq_false_iff, ne_eq, mayResend_iff]
        exact not_or.2 ⟨by simp [hagain], Nat.not_lt.2 hresends⟩
      refine ⟨fun h => hacts _ (requestTimedOut_event _ k r hspent h), fun h => hacts _ (requestTimedOut_filter _ k r hspent h),
        fun h => hacts _ (requestTimedOut_mover _ k r hspent h), fun h hone => hacts _ (requestTimedOut_snoop _ k r hspent h hone),
        fun t e h hmany ht he => hacts _ (requestTimedOut_multicast _ k r hspent t e h hmany ht he),
        fun h => hacts _ (requestTimedOut_other _ k r hspent h), fun h => hacts _ (requestTimedOut_recall _ k r hspent h)⟩
  · exact fun d k r => ⟨tget_endReq d k, tget_resend d k r, rfl⟩
  · intro s p n i k w
    refine ⟨fun howner => ⟨?_, ?_, ?_, ?_⟩, fun hwork => ⟨?_, ?_⟩⟩
    · exact fun hserves hkind hstate hwaiting hused =>
        makes_ringFetchTimeout howner (fetchDesc_unanswered _ p n howner hserves hkind hstate hwaiting hused)
    · exact makes_recordWriteTimeout howner
    · exact fun o ho => makes_outputTimeout howner (outputLost_found _ n i o ho)
    · exact fun hnone => makes_outputTimeout howner (outputLost_none _ n i hnone)
    · exact fun hphase hsrc hretry => makes_moverTimeout (moverUnanswered_read _ k w hwork hphase hsrc hretry)
    · exact fun hphase hats => makes_moverTimeout (moverUnanswered_translation _ k w hwork hphase hats)

/-- Settles O35: responses by the requests they answer, and timeouts by what was waited for. -/
theorem answersAndTimeouts : Obligations.AnswersAndTimeouts := ⟨responses, timeouts⟩

end Sys2Proof.Machine

/-! What counting a request, and bringing its line into the directory cache, leave of the device. -/

namespace Sys2Proof.Machine

/-- What every step over a list keeps, the whole pass keeps. -/
theorem forEach_keeps {α β : Type} (g : Dev → β) (f : α → Dev → Dev) (hstep : ∀ x d, g (f x d) = g d) (l : List α) (d : Dev) :
    g (forEach l f d) = g d := by
  induction l generalizing d with
  | nil => rfl
  | cons x l ih => rw [forEach, ih, hstep]

@[simp] theorem coh_bump (d : Dev) (off lo : Nat) : (d.bump off lo).coh = d.coh := by
  obtain ⟨r, p, h⟩ := bump_changes d off lo
  rw [h]

@[simp] theorem coh_reqCount (d : Dev) (node i n : Nat) : (d.reqCount node i n).coh = d.coh := by
  obtain ⟨p, h⟩ := perfAdd_changes d (960 + i) n
  rw [Dev.reqCount, h]

@[simp] theorem coh_countReq (d : Dev) (m : Msg) : (d.countReq m).coh = d.coh := by
  have hskeins : ∀ (l : List Nat) (e : Dev), (forEach l (fun l d => d.countSkein (l / 1024)) e).coh = e.coh := by
    refine forEach_keeps Dev.coh _ ?_
    exact fun _ _ => rfl
  unfold Dev.countReq
  dsimp only
  split
  · exact hskeins _ _
  · simp only [apply_ite Dev.coh, coh_reqCount, ite_self]
    refine (forEach_keeps Dev.coh _ (fun l e => ?_) _ _).trans (hskeins _ _)
    split
    · next k hkey =>
      obtain ⟨t, h⟩ := access_changes e (l / 2 ^ 19) k (b2n (reqWrites m.opcode)) 0 0 m.src (l * 64)
      rw [h]
    · rfl

section
variable (d d1 : Dev) (l : Nat) (hcache : d.cacheTouch l = some d1)
include hcache

/-- Which agents a request needs to be asked for does not depend on what the directory cache holds. -/
theorem needAt_cacheTouch (m : Msg) (line : Nat) : d1.needAt m line = d.needAt m line := by
  obtain ⟨c, n, rfl⟩ := cacheTouch_changes d d1 l hcache
  rfl

theorem dirOf_cacheTouch (line : Nat) : d1.dirOf line = d.dirOf line := by
  obtain ⟨c, n, rfl⟩ := cacheTouch_changes d d1 l hcache
  rfl

theorem isPrivate_cacheTouch (line : Nat) : d1.isPrivate line = d.isPrivate line := by
  obtain ⟨c, n, rfl⟩ := cacheTouch_changes d d1 l hcache
  rfl

theorem isHeld_cacheTouch (m : Msg) : d1.isHeld m = d.isHeld m := by
  obtain ⟨c, n, rfl⟩ := cacheTouch_changes d d1 l hcache
  rfl

end

end Sys2Proof.Machine

/-! Coherent requests (R115 to R117, R129, R132): what refuses one, whom it asks first, and what it is granted. -/

namespace Sys2Proof.Machine

/-- The commands of the coherent requests, each with its opcode (Table 5.3). -/
def coherentRows (m : Msg) : List (Instr × Nat) := [(.rdShared m, 0x10), (.rdOwn m, 0x11), (.upgrade m, 0x12), (.stashWrite m, 0x15)]

theorem exec_coherent {m : Msg} {i : Instr} {op : Nat} (s : State) (h : (i, op) ∈ coherentRows m) :
    exec i s = liftDev (fun d => d.coherent op m) s ∧ 0x10 ≤ op ∧ op ≤ 0x15 := by
  simp only [coherentRows, List.mem_cons, List.not_mem_nil, or_false, Prod.mk.injEq] at h
  rcases h with ⟨rfl, rfl⟩ | ⟨rfl, rfl⟩ | ⟨rfl, rfl⟩ | ⟨rfl, rfl⟩ <;> exact ⟨rfl, by decide⟩

theorem makes_coherent {i : Instr} {s : State} {m : Msg} {d : Dev} (hrow : (i, m.opcode) ∈ coherentRows m)
    (h : s.dev.coherent m.opcode m = d) : Makes i s d := makes_of_next (exec_coherent s hrow).1 h

section
variable (d : Dev) (m : Msg) (htakes : takes d m)
include htakes

theorem coherent_badLen (hop : m.opcode ≠ 4) (hlen : m.len ≠ coherentLen m.opcode) :
    d.coherent m.opcode m = (d.taken m).refuse m stDenied 0x22 := by
  simp [Dev.coherent, arrive_takes d m _ htakes, hlen, deny_of_not_bulk (d.taken m) m _ hop]

theorem coherent_pastEnd (hop : m.opcode ≠ 4) (hlen : m.len = coherentLen m.opcode) (hspan : spanBad m = true) :
    d.coherent m.opcode m = (d.taken m).refuse m stDenied 0x24 := by
  simp [Dev.coherent, arrive_takes d m _ htakes, hlen, hspan, deny_of_not_bulk (d.taken m) m _ hop]

theorem coherent_served (hlen : m.len = coherentLen m.opcode) (hspan : spanBad m = false) (hgo : goesOn (d.taken m) m) :
    d.coherent m.opcode m = (d.taken m).serve m := by
  simp [Dev.coherent, arrive_takes d m _ htakes, hlen, hspan, accept_goesOn (d.taken m) m hgo]

end

/-! ## Whom a request asks first (Table 5.6) -/

section
variable (d : Dev) (m : Msg) (line : Nat)

/-- For a line that no agent holds nobody is asked, once its entry has a way. -/
theorem needAt_unheld (hnone : d.dirOf line = none) (hway : (d.freeWay line).isSome = true) : d.needAt m line = .nothing := by
  simp [Dev.needAt, hnone, Option.isSome_iff_ne_none.1 hway]

theorem needAt_stash (hnone : d.dirOf line = none) (hop : m.opcode = 0x15) : d.needAt m line = .nothing := by
  simp [Dev.needAt, hnone, hop]

variable (x : DirEntry) (hentry : d.dirOf line = some x)
include hentry

theorem needAt_soleSharer (hop : m.opcode = 0x12) (hstate : x.state = 1) (hptrs : x.ptrs = [m.src]) : d.needAt m line = .nothing := by
  simp [Dev.needAt, hentry, hop, isRead, hstate, hptrs]

theorem needAt_otherOwner (o op : Nat) (hstate : x.state = 3) (hptrs : x.ptrs = [o]) (hother : o ≠ m.src)
    (hop : (m.opcode, op) ∈ [(0x10, 2), (0x11, 1), (0x12, 1)]) : d.needAt m line = .ask op [o] (some o) := by
  have howner : x.owner = some o := by simp [DirEntry.owner, hstate, hptrs]
  simp only [List.mem_cons, List.not_mem_nil, or_false, Prod.mk.injEq] at hop
  rcases hop with ⟨hm, rfl⟩ | ⟨hm, rfl⟩ | ⟨hm, rfl⟩ <;> simp [Dev.needAt, hentry, hm, isRead, hstate, hptrs, hother, howner]

end

/-! ## Serving one -/

theorem freeWritten_unheld (d : Dev) (m : Msg) (line : Nat) (hnone : d.dirOf line = none) : d.freeWritten m line = d := by
  simp [Dev.freeWritten, hnone]

theorem freeWritten_coherent (d : Dev) (m : Msg) (line : Nat) (hop : m.opcode = 0x10 ∨ m.opcode = 0x11 ∨ m.opcode = 0x12) :
    d.freeWritten m line = d := by
  rcases hop with hop | hop | hop <;> simp [Dev.freeWritten, reqWrites, hop]

section
variable (d d1 : Dev) (m : Msg) (hop : m.opcode = 0x10 ∨ m.opcode = 0x11 ∨ m.opcode = 0x12 ∨ m.opcode = 0x15)
  (hheld : d.isHeld m = false) (hcache : d.cacheTouch (m.addr / 64) = some d1)
include hop hheld hcache

/-- A coherent request that asks nobody has its effect as soon as its line has a place in the directory cache. -/
theorem serve_atOnce (hneed : d.needAt m (m.addr / 64) = .nothing) (hkept : d1.freeWritten m (m.addr / 64) = d1) :
    d.serve m = d1.perform m [] := by
  have hheld1 : d1.isHeld m = false := (isHeld_cacheTouch d d1 _ hcache m).trans hheld
  have hneed1 : d1.needAt m (m.addr / 64) = .nothing := (needAt_cacheTouch d d1 _ hcache m _).trans hneed
  have hlines := reqLines_coherent m (by omega)
  have hrecord := dedupOpen_coherent m (by omega) d1
  have htracked : (m.opcode == 0x10 || m.opcode == 0x11 || m.opcode == 0x12 || m.opcode == 0x15) = true := by simpa [or_assoc] using hop
  simp [Dev.serve, hlines, hneed, htracked, Dev.cacheAll, hcache, hrecord, endReservation_free d1 m hheld1, hneed1, forEach, hkept]

/-- One that asks agents first opens a transaction that awaits their answers. -/
theorem serve_asks (op : Nat) (nodes : List Nat) (owner : Option Nat) (hneed : d.needAt m (m.addr / 64) = .ask op nodes owner) :
    d.serve m = d1.openTxn (m.addr / 64) (.serve m) nodes op owner := by
  have hheld1 : d1.isHeld m = false := (isHeld_cacheTouch d d1 _ hcache m).trans hheld
  have hneed1 : d1.needAt m (m.addr / 64) = .ask op nodes owner := (needAt_cacheTouch d d1 _ hcache m _).trans hneed
  have hlines := reqLines_coherent m (by omega)
  have hrecord := dedupOpen_coherent m (by omega) d1
  have htracked : (m.opcode == 0x10 || m.opcode == 0x11 || m.opcode == 0x12 || m.opcode == 0x15) = true := by simpa [or_assoc] using hop
  simp [Dev.serve, hlines, hneed, htracked, Dev.cacheAll, hcache, hrecord, endReservation_free d1 m hheld1, hneed1, forEach, Dev.openFor]

end

/-! ## What is granted -/

section
variable (d : Dev) (m : Msg)

theorem perform_rdShared (snap : Tbl (List Byte)) (hop : m.opcode = 0x10) : d.perform m snap = (d.countReq m).doRdShared m snap := by
  simp [Dev.perform, isRead, isAtomic, hop]

theorem perform_own (snap : Tbl (List Byte)) (hop : m.opcode = 0x11 ∨ m.opcode = 0x12) :
    d.perform m snap = (d.countReq m).doOwn m snap := by
  rcases hop with hop | hop <;> simp [Dev.perform, isRead, isAtomic, hop]

theorem perform_stash (snap : Tbl (List Byte)) (hop : m.opcode = 0x15) : d.perform m snap = (d.countReq m).doWrite m := by
  simp [Dev.perform, isRead, hop]

/-- What a coherent request is granted on a line that no agent holds, and how the directory records it: nothing and nobody in the
range of a segment of one job's own (R132), the line alone for RD_SHARED but in a snapshot view (R116), and otherwise the line to change. -/
def Dev.firstGrant (d : Dev) (m : Msg) : Nat × (Dev → Dev) :=
  let line := m.addr / 64
  if d.isPrivate line then (0, id)
  else if m.opcode ≠ 0x10 then (3, (·.dirNew line { state := 3, ptrs := [m.src], grant := 3 }))
  else if (d.emtOf (line / 2 ^ 19)).kind = 4 then (1, (·.dirNew line { state := 1, ptrs := [m.src] }))
  else (2, (·.dirNew line { state := 3, ptrs := [m.src], grant := 2 }))

theorem perform_unheld (snap : Tbl (List Byte)) (hop : m.opcode = 0x10 ∨ m.opcode = 0x11 ∨ m.opcode = 0x12)
    (hnone : d.dirOf (m.addr / 64) = none) :
    d.perform m snap = (d.countReq m).grantData m snap ((d.countReq m).firstGrant m).1 ((d.countReq m).firstGrant m).2 := by
  have hnone1 : (d.countReq m).dirOf (m.addr / 64) = none := by simpa [Dev.dirOf] using hnone
  by_cases hshared : m.opcode = 0x10
  · rw [perform_rdShared d m snap hshared, Dev.doRdShared, Dev.firstGrant, hnone1]
    by_cases hprivate : (d.countReq m).isPrivate (m.addr / 64) = true
    · simp [hprivate]
    · by_cases hview : ((d.countReq m).emtOf (m.addr / 64 / 2 ^ 19)).kind = 4 <;>
        simp [hprivate, hshared, hview, -Nat.reducePow]
  · rw [perform_own d m snap (hop.resolve_left hshared), Dev.doOwn, Dev.firstGrant, hnone1]
    by_cases hprivate : (d.countReq m).isPrivate (m.addr / 64) = true <;> simp [hprivate, hshared]

section
variable (d2 : Dev) (grant : Nat) (record : Dev → Dev)

theorem grantData_bytes (b : List Byte) (hload : d.loadLine (m.addr / 64) = (.bytes b, d2)) :
    d.grantData m [] grant record =
      ((record d2).repDir (m.addr / 64)).reply d2.mir.unacked.length m stDone 0 grant (some (slice b 0 64)) := by
  simp [Dev.grantData, Dev.lineFor, tget, hload]

theorem grantData_poisoned (hload : d.loadLine (m.addr / 64) = (.poisoned, d2)) : d.grantData m [] grant record = d2.refuse m stPoisoned 0 := by
  simp [Dev.grantData, Dev.lineFor, tget, hload]

theorem grantData_waits (hload : d.loadLine (m.addr / 64) = (.wait, d2)) : d.grantData m [] grant record = d2.retry m := by
  simp [Dev.grantData, Dev.lineFor, tget, hload]

end

/-- The one sharer of a line that asks to change it gets no data: it holds the line already (Table 5.6). -/
theorem perform_upgrade (snap : Tbl (List Byte)) (x : DirEntry) (hop : m.opcode = 0x12) (hshared : d.isPrivate (m.addr / 64) = false)
    (hentry : d.dirOf (m.addr / 64) = some x) (hstate : x.state = 1) (hptrs : x.ptrs = [m.src]) :
    d.perform m snap = ((((d.countReq m).dirPut (m.addr / 64) { x with state := 3, grant := 3 }).touch (m.addr / 64)).repDir
      (m.addr / 64)).reply (d.countReq m).mir.unacked.length m stDone 0 3 none := by
  have hentry1 : (d.countReq m).dirOf (m.addr / 64) = some x := by simpa [Dev.dirOf] using hentry
  have hshared1 : (d.countReq m).isPrivate (m.addr / 64) = false := by simpa [Dev.isPrivate] using hshared
  rw [perform_own d m snap (.inr hop)]
  simp [Dev.doOwn, hshared1, hentry1, hop, hstate, hptrs, nmem]

theorem doWrite_stashed (e : Dev) (htag : m.tag < 4096) (hop : m.opcode = 0x15)
    (hstored : d.scatter (m.addr / 64 * 64) (slice m.data 0 64) 17 = (.done, e)) :
    d.doWrite m = ((e.repWriteRun (m.addr / 64 * 64) (slice m.data 0 64) m.src m.tag).reply d.mir.unacked.length m stDone 0 0 none).offerStash
      (m.addr / 64) (stashTarget m) m.data := by
  have hspan : reqSpan m = (m.addr / 64 * 64, 64) := by simp [reqSpan, hop]
  have hsingle := fun e : Dev => conclude_single e m d.mir.unacked.length stDone 0 0 none (by omega)
  simp [Dev.doWrite, testCounts_fabric d m htag, hspan, hstored, hop, hsingle]

end

section
variable (d d1 : Dev) (m : Msg) (hkept : unkept d m) (hop : m.opcode = 0x10 ∨ m.opcode = 0x11 ∨ m.opcode = 0x12)
  (hway : (d.freeWay (m.addr / 64)).isSome = true) (hcache : d.cacheTouch (m.addr / 64) = some d1)
include hkept hop hway hcache

/-- A line that no agent holds is granted as soon as the request is served. -/
theorem serve_unheld :
    d.serve m = (d1.countReq m).grantData m [] ((d1.countReq m).firstGrant m).1 ((d1.countReq m).firstGrant m).2 := by
  obtain ⟨⟨-, -, -, hheld, -, -⟩, hnobody⟩ := hkept
  have hnone : d.dirOf (m.addr / 64) = none := hnobody _ (by simp [reqLines_coherent m (by omega)])
  rw [serve_atOnce d d1 m (by omega) hheld hcache (needAt_unheld d m _ hnone hway) (freeWritten_coherent d1 m _ hop),
    perform_unheld d1 m [] hop ((dirOf_cacheTouch d d1 _ hcache _).trans hnone)]

end

theorem isPrivate_counted (d d1 : Dev) (m : Msg) (hcache : d.cacheTouch (m.addr / 64) = some d1) (line : Nat) :
    (d1.countReq m).isPrivate line = d.isPrivate line := by
  rw [← isPrivate_cacheTouch d d1 _ hcache line]
  simp [Dev.isPrivate]

/-- Settles O20: the requests by what is wrong with them, then by who holds their line. -/
theorem coherentRequests : Obligations.CoherentRequests := by
  refine ⟨?_, ?_, ?_, ?_⟩
  · intro s m i hrow d htakes
    have hop : m.opcode ≠ 4 := by
      have hrange := (exec_coherent s hrow).2
      omega
    exact ⟨fun hlen => makes_coherent hrow (coherent_badLen _ m htakes hop hlen),
      fun hlen hspan => makes_coherent hrow (coherent_pastEnd _ m htakes hop hlen hspan),
      fun hlen hspan hgo => makes_coherent hrow (coherent_served _ m htakes hlen hspan hgo)⟩
  · intro d d1 m line c hkept _ hops hway hcache
    have hop : m.opcode = 0x10 ∨ m.opcode = 0x11 ∨ m.opcode = 0x12 := by simpa using hops
    have hserve := serve_unheld d d1 m hkept hop hway hcache
    have hprivate := isPrivate_counted d d1 m hcache line
    refine ⟨?_, fun d2 hload => hserve.trans (grantData_poisoned _ m d2 _ _ hload),
      fun d2 hload => hserve.trans (grantData_waits _ m d2 _ _ hload)⟩
    intro b d2 hload done
    rw [hserve, grantData_bytes _ m d2 _ _ b hload]
    refine ⟨fun hrange => ?_, fun hrange hshared hview => ?_, fun hrange hshared hview => ?_, fun hrange hown => ?_⟩ <;>
      rw [← hprivate] at hrange
    · simp only [Dev.firstGrant, if_pos hrange, id, done, line]
    · simp [Dev.firstGrant, hrange, hshared, hview, done, c, line, -Nat.reducePow]
    · simp [Dev.firstGrant, hrange, hshared, hview, done, c, line, -Nat.reducePow]
    · simp [Dev.firstGrant, hrange, hown, done, line]
  · intro d d1 m x line c hgo _ hentry hcache
    obtain ⟨-, -, -, hheld, -, -⟩ := hgo
    refine ⟨fun hop hshared hstate hptrs => ?_, fun o op hstate hptrs hother hops => ?_⟩
    · rw [serve_atOnce d d1 m (by omega) hheld hcache (needAt_soleSharer d m line x hentry hop hstate hptrs)
        (freeWritten_coherent d1 m _ (by omega))]
      exact perform_upgrade d1 m [] x hop ((isPrivate_cacheTouch d d1 _ hcache line).trans hshared)
        ((dirOf_cacheTouch d d1 _ hcache line).trans hentry) hstate hptrs
    · have hop : m.opcode = 0x10 ∨ m.opcode = 0x11 ∨ m.opcode = 0x12 ∨ m.opcode = 0x15 := by
        simp only [List.mem_cons, List.not_mem_nil, or_false, Prod.mk.injEq] at hops
        omega
      exact serve_asks d d1 m hop hheld hcache op [o] (some o) (needAt_otherOwner d m line x hentry o op hstate hptrs hother hops)
  · intro d d1 d' m line c b hkept htag hop hcache hstored
    obtain ⟨⟨-, -, -, hheld, -, -⟩, hnobody⟩ := hkept
    have hnone : d.dirOf line = none := hnobody _ (by simp [reqLines_coherent m (by omega), line])
    rw [serve_atOnce d d1 m (by omega) hheld hcache (needAt_stash d m line hnone hop)
      (freeWritten_unheld d1 m _ ((dirOf_cacheTouch d d1 _ hcache line).trans hnone)), perform_stash d1 m [] hop]
    exact doWrite_stashed c m d' htag hop hstored

end Sys2Proof.Machine

/-! Dirty lines and evictions (R111, R115, R118, R123): whose WB_DIRTY is written, and what an EVICT leaves of its line's entry. -/

namespace Sys2Proof.Machine

section
variable (d : Dev) (m : Msg)

/-! ## WB_DIRTY -/

/-- A line's entry names the node as its owner (R111). -/
def Dev.ownedBy (d : Dev) (line node : Nat) : Bool :=
  match d.dirOf line with
  | some e => e.state == 3 && e.ptrs == [node]
  | none => false

theorem ownedBy_iff (line node : Nat) : d.ownedBy line node = true ↔ ∃ x, d.dirOf line = some x ∧ x.state = 3 ∧ x.ptrs = [node] := by
  unfold Dev.ownedBy
  cases d.dirOf line <;> simp

/-- What anyone but the recorded owner writes back is answered DONE and dropped. -/
theorem wbDirty_dropped (h : d.ownedBy (m.addr / 64) m.src = false ∨ d.looseCheck m ≠ none) :
    d.wbDirty m = (d.kindNote m.src m.addr m.addr).finish d.mir.unacked.length m stDone := by
  refine if_pos (show ((d.looseCheck m).isSome || !d.ownedBy (m.addr / 64) m.src) = true from ?_)
  rcases h with h | h
  · simp [h]
  · simp [Option.isSome_iff_ne_none.2 h]

section
variable (x : DirEntry) (c e : Dev) (hcheck : d.looseCheck m = none) (hentry : d.dirOf (m.addr / 64) = some x) (hstate : x.state = 3)
  (hptrs : x.ptrs = [m.src])
  (hc : c = if (d.emtOf (m.addr / 64 / 2 ^ 19)).kind = 2 then d.countSkein (m.addr / 64 / 1024) else d)
  (hcopied : (d.emtOf (m.addr / 64 / 2 ^ 19)).kind ≠ 3 ∨ (d.emtOf (m.addr / 64 / 2 ^ 19)).mod = true)
  (he : e = (c.writeBack (m.addr / 64) (slice m.data 0 64)).reqCount m.src 2 64)
include hcheck hentry hstate hptrs hc hcopied he

/-- An extent that is not of a draft, or has its own copy, takes the line where it is. -/
theorem wbDirty_written : d.wbDirty m =
    match tget e.coh.txns (m.addr / 64), e.dirOf (m.addr / 64) with
    | some t, some y =>
      (({ e with coh := { e.coh with txns := tput e.coh.txns (m.addr / 64) { t with data := some (slice m.data 0 64), owner := none } } } :
        Dev).dirPut (m.addr / 64) { y with ptrs := [] }).finish d.mir.unacked.length m stDone
    | _, _ => ((e.dirDel (m.addr / 64)).repDir (m.addr / 64)).finish d.mir.unacked.length m stDone := by
  have hsame : c.emtOf (m.addr / 64 / 2 ^ 19) = d.emtOf (m.addr / 64 / 2 ^ 19) := by
    rw [hc]
    split <;> rfl
  have hnow : c.ownCopyNow (m.addr / 64 / 2 ^ 19) = (true, c) := by
    rw [Dev.ownCopyNow, hsame]
    exact if_pos (by simpa using hcopied)
  have howner : d.ownedBy (m.addr / 64) m.src = true := (ownedBy_iff d _ _).2 ⟨x, hentry, hstate, hptrs⟩
  subst he
  refine (if_neg (show ¬ ((d.looseCheck m).isSome || !d.ownedBy (m.addr / 64) m.src) = true from ?_)).trans ?_
  · simp [hcheck, howner]
  · rw [← hc, hnow]
    rfl

theorem wbDirty_freed (hidle : tget e.coh.txns (m.addr / 64) = none) :
    d.wbDirty m = ((e.dirDel (m.addr / 64)).repDir (m.addr / 64)).finish d.mir.unacked.length m stDone := by
  rw [wbDirty_written d m x c e hcheck hentry hstate hptrs hc hcopied he, hidle]

/-- While snoops of the line are out its entry stays, without an owner, and the data serves the request that sent them. -/
theorem wbDirty_ownerless (t : Txn) (y : DirEntry) (hbusy : tget e.coh.txns (m.addr / 64) = some t) (hstill : e.dirOf (m.addr / 64) = some y) :
    d.wbDirty m =
      (({ e with coh := { e.coh with txns := tput e.coh.txns (m.addr / 64) { t with data := some (slice m.data 0 64), owner := none } } } :
        Dev).dirPut (m.addr / 64) { y with ptrs := [] }).finish d.mir.unacked.length m stDone := by
  rw [wbDirty_written d m x c e hcheck hentry hstate hptrs hc hcopied he, hbusy, hstill]

end

/-! ## EVICT -/

theorem evictAccept_refused (st det : Nat) (hcheck : d.looseCheck m = some (st, det)) :
    d.evictAccept m false = ((d.kindNote m.src m.addr m.addr).endReservation m).refuse m st det := by
  rw [Dev.evictAccept, hcheck]

/-- An EVICT that nothing keeps waiting goes to its line's entry (R113, R117, R128, R130). -/
theorem evictAccept_serves (k : Nat) (d1 : Dev) (hcheck : d.looseCheck m = none) (hset : d.setBad (m.addr / 64) = false)
    (hstarving : starving m = false) (hbarred : d.barred (m.addr / 64 / 2 ^ 19) = false) (hfree : d.heldUp false (m.addr / 64) = false)
    (hplace : d.locate m.addr false = .ok k) (hentry : d.cacheEntry (m.addr / 64) = some d1) :
    d.evictAccept m false =
      ((if (d1.emtOf (m.addr / 64 / 2 ^ 19)).kind = 2 then d1.countSkein (m.addr / 64 / 1024) else d1).endReservation m).evictServe m := by
  have hsets : d.readSets [m.addr / 64] = d := readSets_good d _ (by simpa using hset)
  have hrecalled : d.recalled (m.addr / 64) = false := by
    simp only [Dev.heldUp, Bool.or_eq_false_iff] at hfree
    exact hfree.1.1.1
  simp [Dev.evictAccept, Dev.evictAdmit, hcheck, hsets, hrecalled, hstarving, hbarred, hfree, hplace, hentry, -Nat.reducePow]

theorem evictServe_unheld (hnone : d.dirOf (m.addr / 64) = none) : d.evictServe m = d.finish d.mir.unacked.length m stDone := by
  rw [Dev.evictServe, hnone]

section
variable (x : DirEntry) (hentry : d.dirOf (m.addr / 64) = some x)
include hentry

/-- The entry of a domain, and one that does not record the requester, only note the access. -/
theorem evictServe_unrecorded (h : x.state = 2 ∨ m.src ∉ x.ptrs) :
    d.evictServe m = (d.touch (m.addr / 64)).finish d.mir.unacked.length m stDone := by
  rw [Dev.evictServe, hentry]
  refine if_pos ?_
  rcases h with h | h
  · simp [h]
  · simp [Bool.eq_false_iff.2 (mt (nmem_iff_mem _ _).1 h)]

variable (hstate : x.state ≠ 2) (hrecorded : m.src ∈ x.ptrs)
include hstate hrecorded

theorem evictServe_last (hrest : x.ptrs.filter (· != m.src) = []) :
    d.evictServe m = ((d.dirDel (m.addr / 64)).repDir (m.addr / 64)).finish d.mir.unacked.length m stDone := by
  have hmem : nmem x.ptrs m.src = true := (nmem_iff_mem _ _).2 hrecorded
  simp [Dev.evictServe, hentry, hstate, hmem, hrest]

theorem evictServe_others (hrest : x.ptrs.filter (· != m.src) ≠ []) :
    d.evictServe m = (((d.dirPut (m.addr / 64) { x with ptrs := x.ptrs.filter (· != m.src) }).touch (m.addr / 64)).repDir
      (m.addr / 64)).finish d.mir.unacked.length m stDone := by
  have hmem : nmem x.ptrs m.src = true := (nmem_iff_mem _ _).2 hrecorded
  have hsome : (x.ptrs.filter (· != m.src)).isEmpty = false := by simpa using hrest
  simp only [Dev.evictServe, hentry, hstate, hmem, hsome]
  rfl

end

theorem mem_touch (line : Nat) : (d.touch line).mem = d.mem := by
  have hpass : ∀ (es : List (Nat × DirEntry)) (e : Dev),
      (es.foldl (fun d x => if x.1 = line then d else d.dirPut x.1 { x.2 with nru := false }) e).mem = e.mem := by
    intro es
    induction es with
    | nil => exact fun e => rfl
    | cons x es ih =>
      intro e
      rw [List.foldl_cons, ih]
      split <;> rfl
  unfold Dev.touch
  cases d.dirOf line with
  | none => rfl
  | some e =>
    dsimp only
    split
    · exact hpass _ _
    · rfl

end

/-! ## Their commands -/

section
variable {s : State} {m : Msg} {d : Dev} (htakes : takes s.dev m)
include htakes

theorem makes_wbDirty (hop : m.opcode = 0x13)
    (h : (if m.len ≠ 63 then (s.dev.taken m).deny m 0x22 else if spanBad m then (s.dev.taken m).deny m 0x24
      else (s.dev.taken m).wbDirty m) = d) : Makes (.wbDirty m) s d :=
  makes_of_next rfl ((if_neg (not_not.2 hop)).trans ((arrive_takes _ _ _ htakes).trans h))

theorem makes_evict (hop : m.opcode = 0x14)
    (h : (if m.len ≠ 63 then (s.dev.taken m).deny m 0x22 else if spanBad m then (s.dev.taken m).deny m 0x24
      else (s.dev.taken m).evictAccept m false) = d) : Makes (.evict m) s d :=
  makes_of_next rfl ((if_neg (not_not.2 hop)).trans ((arrive_takes _ _ _ htakes).trans h))

end

/-- A request for a line is refused for its LEN first, and then for where it ends (R115). -/
theorem lineChecks (e f : Dev) (m : Msg) (hop : m.opcode ≠ 4) :
    let checked := if m.len ≠ 63 then e.deny m 0x22 else if spanBad m then e.deny m 0x24 else f
    (m.len ≠ 63 → checked = e.refuse m stDenied 0x22) ∧ (m.len = 63 → spanBad m = true → checked = e.refuse m stDenied 0x24) ∧
      (m.len = 63 → spanBad m = false → checked = f) := by
  refine ⟨fun hlen => ?_, fun hlen hspan => ?_, fun hlen hspan => ?_⟩
  · rw [if_pos hlen, deny_of_not_bulk e m _ hop]
  · rw [if_neg (not_not.2 hlen), if_pos hspan, deny_of_not_bulk e m _ hop]
  · rw [if_neg (not_not.2 hlen), if_neg (by simp [hspan])]

theorem writebacksAndEvictions : Says.WritebacksAndEvictions := by
  refine ⟨?_, ?_, ?_⟩
  · intro s m d line c htakes hop
    obtain ⟨hlong, hpast, hgood⟩ := lineChecks d (d.wbDirty m) m (by omega)
    refine ⟨fun hlen => makes_wbDirty htakes hop (hlong hlen), fun hlen hspan => makes_wbDirty htakes hop (hpast hlen hspan),
      fun hlen hspan hnot => makes_wbDirty htakes hop ((hgood hlen hspan).trans (wbDirty_dropped d m ?_)), ?_⟩
    · refine hnot.imp_left fun hother => ?_
      rw [Bool.eq_false_iff, ne_eq, ownedBy_iff]
      rintro ⟨x, hx, hstate, hptrs⟩
      exact (hother x hx).elim (· hstate) (· hptrs)
    · intro x e hlen hspan hcheck hentry hstate hptrs hcopied he
      exact ⟨fun hidle => makes_wbDirty htakes hop ((hgood hlen hspan).trans
          (wbDirty_freed d m x c e hcheck hentry hstate hptrs rfl hcopied he hidle)),
        fun t y hbusy hstill => makes_wbDirty htakes hop ((hgood hlen hspan).trans
          (wbDirty_ownerless d m x c e hcheck hentry hstate hptrs rfl hcopied he t y hbusy hstill))⟩
  · intro s m d line htakes hop
    obtain ⟨hlong, hpast, hgood⟩ := lineChecks d (d.evictAccept m false) m (by omega)
    exact ⟨fun hlen => makes_evict htakes hop (hlong hlen), fun hlen hspan => makes_evict htakes hop (hpast hlen hspan),
      fun st det hlen hspan hcheck => makes_evict htakes hop ((hgood hlen hspan).trans (evictAccept_refused d m st det hcheck)),
      fun k d1 hlen hspan hcheck hset hstarving hbarred hfree hplace hentry => makes_evict htakes hop ((hgood hlen hspan).trans
        (evictAccept_serves d m k d1 hcheck hset hstarving hbarred hfree hplace hentry))⟩
  · intro d m line n
    refine ⟨evictServe_unheld d m, evictServe_unrecorded d m, fun x rest hentry hstate hrecorded hrest => ?_, rfl,
      fun x => mem_touch (d.dirPut line x) line⟩
    subst hrest
    exact ⟨evictServe_last d m x hentry hstate hrecorded, evictServe_others d m x hentry hstate hrecorded⟩

end Sys2Proof.Machine

/-! Snoops of the device and their answers (R100, R102, R103, R119, R120), recalls as they are transferred (R130), the reservation's
timer (R128), and snoops that reach the device (R119). -/

namespace Sys2Proof.Machine

section
variable (d : Dev) (m : Msg) (k : Nat) (r : DevReq)

/-! ## An answer by its status -/

theorem snoopAnswered_data (hcls : m.cls = 3) (hdone : m.opcode = stDone) :
    d.snoopAnswered m k r = d.noteAnswer r.index k m.src (some (slice m.data 0 64)) false := by
  simp [Dev.snoopAnswered, hcls, hdone, stDone, stRetry]

theorem snoopAnswered_noData (hcls : m.cls = 2) (hdone : m.opcode = stDone) :
    d.snoopAnswered m k r = d.noteAnswer r.index k m.src none (bit (msgResult m) 1) := by
  simp [Dev.snoopAnswered, hcls, hdone, stDone, stRetry, stFenced]

theorem snoopAnswered_retry (hretry : m.opcode = stRetry) : d.snoopAnswered m k r = d.reqAgain k r (msgDetail m) := by
  simp [Dev.snoopAnswered, hretry, stRetry, stFenced]

theorem snoopAnswered_noAnswer (hop : m.opcode ∉ [stDone, stRetry, stFenced]) : d.snoopAnswered m k r = d.snoopLost r.index k m.src := by
  simp only [List.mem_cons, List.not_mem_nil, or_false, not_or] at hop
  obtain ⟨hdone, hretry, hfenced⟩ := hop
  simp [Dev.snoopAnswered, hdone, hretry, hfenced]

/-! ## The end of an eviction -/

theorem endReq_noneWaiting (hnone : d.fab.waitReqs = []) : d.endReq k = { d with fab := { d.fab with devReqs := tdel d.fab.devReqs k } } := by
  simp [Dev.endReq, Dev.sendWaiting, hnone]

/-- A transaction once the node its last answer was awaited of has brought the dirty line. -/
def Txn.answered (t : Txn) (node : Nat) (x : List Byte) : Txn :=
  { t with waits := [], owner := if t.owner = some node then none else t.owner, data := some x }

theorem closeTxn_evict (line : Nat) (t : Txn) (x : List Byte) (ht : tget d.coh.txns line = some t) (hkind : t.kind = .evict)
    (hdone : t.done = true) (hdata : t.data = some x) :
    d.closeTxn line = (((d.writeBack line x).dropTxn line).dirDel line).afterClose line := by
  simp [Dev.closeTxn, ht, hdone, hkind, Dev.keepData, hdata]

/-- The last answer to the snoops of an eviction, with the dirty line. -/
theorem noteAnswer_evictDone (line key node : Nat) (t : Txn) (x : List Byte) (ht : tget d.coh.txns line = some t) (hkind : t.kind = .evict)
    (hkey : key < 2 ^ 24) (hlast : t.waits = [(node, key % 4096)]) (hsingle : t.mcTag = none) (hdata : t.data = none)
    (hnone : d.fab.waitReqs = []) :
    d.noteAnswer line key node (some x) false =
      ((((({ d with coh := { d.coh with txns := tput d.coh.txns line (t.answered node x) } } : Dev).endReq key).writeBack line x).dropTxn
        line).dirDel line).afterClose line := by
  have hnoted : d.noteAnswer line key node (some x) false =
      (({ d with coh := { d.coh with txns := tput d.coh.txns line (t.answered node x) } } : Dev).endReq key).closeTxn line := by
    have hunicast : ¬ 16777216 ≤ key := by omega
    simp [Dev.noteAnswer, ht, hkind, hunicast, hlast, hdata, Txn.answered]
  rw [hnoted]
  refine closeTxn_evict _ line (t.answered node x) x ?_ hkind (by simp [Txn.done, Txn.answered, hsingle]) rfl
  rw [endReq_noneWaiting]
  · exact tget_tput_same ..
  · exact hnone

/-! ## The messages of a recall -/

/-- The device that has noted a message of a recall, and awaits the next until a new deadline. -/
def Dev.recallNotes (d : Dev) (k : Nat) (r : DevReq) (c : Recall) : Dev :=
  { d with
    coh := { d.coh with recalls := tput d.coh.recalls r.index c }
    fab := { d.fab with devReqs := tput d.fab.devReqs k { r with deadline := d.reqDeadline } } }

section
variable (c : Recall) (hrecall : tget d.coh.recalls r.index = some c) (hdone : m.opcode = stDone) (hnew : (m.src, m.xfer) ∉ c.got)
include hrecall hdone hnew

theorem recallMsg_line (hcls : m.cls = 3) (hopen : ∀ f ∈ c.finals, f.1 ≠ m.src) :
    d.recallMsg m k r = (d.writeBack (field m.data 0 8 / 64 % 2 ^ 42) (slice m.data 8 64)).recallNotes k r
      { c with got := (m.src, m.xfer) :: c.got } := by
  have hfinal : c.finals.find? (·.1 == m.src) = none := by simpa [List.find?_eq_none] using fun a b h => hopen (a, b) h
  simp [Dev.recallMsg, hrecall, hdone, hcls, hnew, hfinal, stDone, stRetry, Dev.recallNotes]
  rfl

/-- A node's final message ends its part where every message before it has come. -/
theorem recallMsg_final (hcls : m.cls = 2) (c' : Recall)
    (hc' : c' = { c with got := (m.src, m.xfer) :: c.got, finals := (m.src, m.xfer) :: c.finals }) :
    d.recallMsg m k r =
      if ∀ i ≤ m.xfer, m.xfer = i ∨ (m.src, i) ∈ c.got then (d.recallNotes k r c').recallDone r.index m.src else d.recallNotes k r c' := by
  subst hc'
  simp [Dev.recallMsg, hrecall, hdone, hcls, hnew, stDone, stRetry, Dev.recallNotes]
  rfl

end

end

/-! ## Their commands -/

section
variable {s : State} {link : Nat} {m : Msg} {k : Nat} {r : DevReq} {d : Dev}

theorem makes_snoopAnswer (hmatch : s.dev.matchReq m.src m.tag = some (k, r)) (hcls : m.cls = 2 ∨ m.cls = 3) (hpurpose : r.purpose = 3)
    (h : (s.dev.vetted link m r).2.snoopAnswered (s.dev.vetted link m r).1 k r = d) : Makes (.snoopAnswer link m) s d := by
  refine makes_of_next rfl ?_
  simp only [hmatch]
  rw [if_pos (by simpa [hpurpose] using hcls)]
  exact h

theorem makes_recallTransfer (hmatch : s.dev.matchReq m.src m.tag = some (k, r)) (hcls : m.cls = 2 ∨ m.cls = 3) (hpurpose : r.purpose = 6)
    (h : (s.dev.vetted link m r).2.recallMsg (s.dev.vetted link m r).1 k r = d) : Makes (.recallTransfer link m) s d := by
  refine makes_of_next rfl ?_
  simp only [hmatch]
  rw [if_pos (by simpa [hpurpose] using hcls)]
  exact h

/-- The timeout of a snoop, or of a recall, is that of a request of the device. -/
theorem makes_snoopTimeout (hr : tget s.dev.fab.devReqs k = some r) (hpurpose : r.purpose = 3 ∨ r.purpose = 6)
    (h : (s.dev.till r.deadline).requestTimedOut k r = d) : Makes (.snoopTimeout k) s d := by
  refine makes_of_next rfl ?_
  rw [← h]
  rcases hpurpose with hp | hp <;> simp [hr, Dev.requestTimedOut, hp]

theorem makes_reservationTimeout {home : Nat} (hholder : (s.dev.starveOf home).holder.isSome = true)
    (hnone : (s.dev.starveOf home).heldReq = none) :
    Makes (.reservationTimeout home) s ((s.dev.till (s.dev.starveOf home).deadline).nextHolder home) :=
  makes_of_next rfl (if_pos (by simp [hholder, hnone]))

theorem makes_snoopHere {i : Instr} {op : Nat} (harm : exec i s = liftDev (fun d => d.snoopHere op m) s) (hcls : m.cls = 1)
    (hop : m.opcode = op) (hdst : m.dst = s.dev.ownNode) :
    Makes i s ((s.dev.taken m).sendMsg { (s.dev.taken m).rspTo m stDone 0 0 with last := true }) :=
  makes_of_next harm (if_neg (by simp [hcls, hop, hdst]))

end

theorem snoopsAndRecalls : Says.SnoopsAndRecalls := by
  refine ⟨?_, ?_, ?_, ?_, ?_, ?_, ?_⟩
  · intro s link m k r hmatch hcls bad
    refine ⟨fun hpurpose hgood => makes_snoopAnswer hmatch hcls hpurpose ?_, fun hpurpose hbad => makes_snoopAnswer hmatch hcls hpurpose ?_,
      fun hpurpose hgood => makes_recallTransfer hmatch hcls hpurpose ?_, fun hpurpose hbad => makes_recallTransfer hmatch hcls hpurpose ?_⟩
    · rw [vetted_good _ link m r hgood]
    · rw [vetted_bad _ link m r hbad]
    · rw [vetted_good _ link m r hgood]
    · rw [vetted_bad _ link m r hbad]
  · exact fun d m k r => ⟨snoopAnswered_data d m k r, snoopAnswered_noData d m k r, snoopAnswered_retry d m k r, snoopAnswered_noAnswer d m k r⟩
  · exact fun d line key node t x ht hkind hkey hlast hsingle hdata hnone =>
      ⟨t.answered node x, noteAnswer_evictDone d line key node t x ht hkind hkey hlast hsingle hdata hnone⟩
  · intro s key r hr d
    refine ⟨fun hpurpose hmay => makes_snoopTimeout hr hpurpose (requestTimedOut_single d key r hmay (by omega)),
      fun hpurpose hspent hone => makes_snoopTimeout hr (.inl hpurpose) (requestTimedOut_snoop d key r hspent hpurpose hone),
      fun t e hpurpose hspent hmany ht he =>
        makes_snoopTimeout hr (.inl hpurpose) (requestTimedOut_multicast d key r hspent t e hpurpose hmany ht he),
      fun hpurpose hspent => makes_snoopTimeout hr (.inr hpurpose) (requestTimedOut_recall d key r hspent hpurpose)⟩
  · exact fun s home hholder hnone => makes_reservationTimeout hholder hnone
  · intro d m k q c hrecall hdone hopen hnew
    refine ⟨fun hcls => ?_, fun c' hcls hall hc' => ?_, fun hcls hgap => ?_⟩
    · dsimp only
      rw [recallMsg_line d m k q c hrecall hdone hnew hcls hopen]
      exact ⟨rfl, tget_tput_same ..⟩
    · rw [recallMsg_final d m k q c hrecall hdone hnew hcls c' hc', if_pos]
      · rfl
      · exact fun i hi => (Nat.eq_or_lt_of_le hi).imp Eq.symm (hall i)
    · rw [recallMsg_final d m k q c hrecall hdone hnew hcls _ rfl, if_neg]
      · rfl
      · obtain ⟨i, hi, hmissing⟩ := hgap
        exact fun hall => (hall i hi.le).elim (Nat.ne_of_gt hi) hmissing
  · intro s m i hrow hcls hdst
    simp only [List.mem_cons, List.not_mem_nil, or_false, Prod.mk.injEq] at hrow
    rcases hrow with ⟨rfl, hop⟩ | ⟨rfl, hop⟩ | ⟨rfl, hop⟩ | ⟨rfl, hop⟩ | ⟨rfl, hop⟩ <;> exact makes_snoopHere rfl hcls hop hdst

/-- Settles O21: what comes back of dirty lines and evicted ones, and what snoops and recalls come to. -/
theorem copiesAndSnoops : Obligations.CopiesAndSnoops := ⟨writebacksAndEvictions, snoopsAndRecalls⟩

end Sys2Proof.Machine

/-! What an event, a request of the device and the start of a recall change (R99, R130, R418). -/

namespace Sys2Proof.Machine

theorem log_changes (d : Dev) (source origin code status arg0 arg1 : Nat) :
    ∃ e r p, d.log source origin code status arg0 arg1 = { d with evt := e, regs := r, perf := p } := by
  unfold Dev.log Dev.event
  split
  · exact ⟨_, d.regs, d.perf, rfl⟩
  · split
    · exact ⟨_, d.regs, d.perf, rfl⟩
    · obtain ⟨r, p, h⟩ := bump_changes d 0x60008 16
      exact ⟨_, r, p, by rw [h]⟩

/-- A request of the device waits where no tag is free, and is sent with its tag otherwise (R99). -/
theorem request_cases (d : Dev) (m : Msg) (purpose index : Nat) :
    (∃ f, d.request m purpose index =
      (4096, { d with free := f, fab := { d.fab with waitReqs := d.fab.waitReqs ++ [(m, purpose, index)] } })) ∨
    ∃ t f reqs q, d.request m purpose index =
      (t, { d with free := f, fab := { d.fab with devReqs := reqs }, out := .msg { m with tag := t } :: d.out, router := q }) := by
  unfold Dev.request Dev.choose
  cases cyclicFrom (d.tagFree m.mc m.dst) 4096 (Config.freeChoice d.free % max 4096 1) 4096 with
  | none => exact .inl ⟨_, rfl⟩
  | some t => exact .inr ⟨t, _, _, _, rfl⟩

/-! ## Asking the nodes (R130) -/

/-- The SNP_RECALL of a set, to one node (R130). -/
def recallSnoop (src g n : Nat) : Msg :=
  { cls := 1, opcode := 5, src := src, dst := n, tag := 0, addr := g / 43690 * 65536 + g % 43690, len := 63 }

/-- One more node is asked for its lines of a set, and noted with its tag. -/
def askRecall (src g : Nat) (acc : List (Nat × Nat) × Dev) (n : Nat) : List (Nat × Nat) × Dev :=
  (acc.1 ++ [(n, (acc.2.request (recallSnoop src g n) 6 g).1)], (acc.2.request (recallSnoop src g n) 6 g).2)

/-- A node noted with this tag has been asked for its lines of a set, or is to be once it has a tag. -/
def Dev.recallAsked (d : Dev) (g : Nat) (p : Nat × Nat) : Prop :=
  ∃ m : Msg, m.cls = 1 ∧ m.opcode = 5 ∧ m.dst = p.1 ∧ m.addr = g / 43690 * 65536 + g % 43690 ∧
    (Out.msg m ∈ d.out ∧ m.tag = p.2 ∨ (m, 6, g) ∈ d.fab.waitReqs)

section
variable (src g : Nat)

theorem recallAsked_request (d : Dev) (p : Nat × Nat) (m : Msg) (purpose index : Nat) (h : d.recallAsked g p) :
    (d.request m purpose index).2.recallAsked g p := by
  obtain ⟨a, hcls, hop, hdst, haddr, hplace⟩ := h
  refine ⟨a, hcls, hop, hdst, haddr, ?_⟩
  rcases request_cases d m purpose index with ⟨f, h⟩ | ⟨t, f, reqs, q, h⟩ <;> rw [h]
  · exact hplace.imp_right (List.mem_append_left _)
  · exact hplace.imp_left fun hsent => ⟨List.mem_cons_of_mem _ hsent.1, hsent.2⟩

theorem recallAsked_new (d : Dev) (n : Nat) :
    (d.request (recallSnoop src g n) 6 g).2.recallAsked g (n, (d.request (recallSnoop src g n) 6 g).1) := by
  rcases request_cases d (recallSnoop src g n) 6 g with ⟨f, h⟩ | ⟨t, f, reqs, q, h⟩ <;> rw [h]
  · exact ⟨recallSnoop src g n, rfl, rfl, rfl, rfl, .inr (List.mem_append_right _ List.mem_cons_self)⟩
  · exact ⟨{ recallSnoop src g n with tag := t }, rfl, rfl, rfl, rfl, .inl ⟨List.mem_cons_self, rfl⟩⟩

variable (ns : List Nat) (acc : List (Nat × Nat) × Dev)

theorem foldl_askRecall_nodes : (ns.foldl (askRecall src g) acc).1.map (·.1) = acc.1.map (·.1) ++ ns := by
  induction ns generalizing acc with
  | nil => simp
  | cons n ns ih => simp [ih, askRecall]

theorem foldl_askRecall_asked (h : ∀ p ∈ acc.1, acc.2.recallAsked g p) :
    ∀ p ∈ (ns.foldl (askRecall src g) acc).1, (ns.foldl (askRecall src g) acc).2.recallAsked g p := by
  induction ns generalizing acc with
  | nil => exact h
  | cons n ns ih =>
    refine ih _ fun p hp => ?_
    rcases List.mem_append.1 hp with hp | hp
    · exact recallAsked_request g _ p _ 6 g (h p hp)
    · rw [List.mem_singleton.1 hp]
      exact recallAsked_new src g _ n

/-- Asking sends messages, or leaves them to wait. -/
theorem foldl_askRecall_changes :
    ∃ f b o q, (ns.foldl (askRecall src g) acc).2 = { acc.2 with free := f, fab := b, out := o, router := q } := by
  induction ns generalizing acc with
  | nil => exact ⟨acc.2.free, acc.2.fab, acc.2.out, acc.2.router, rfl⟩
  | cons n ns ih =>
    obtain ⟨f, b, o, q, h⟩ := ih (askRecall src g acc n)
    refine ⟨f, b, o, q, h.trans ?_⟩
    rcases request_cases acc.2 (recallSnoop src g n) 6 g with ⟨f', h'⟩ | ⟨t, f', reqs, q', h'⟩ <;> simp [askRecall, h']

end

/-! ## Starting a recall -/

/-- The event a recall of a set starts with (R130, Table 5.17). -/
def Dev.recallNoted (d : Dev) (g c : Nat) : Dev := d.log (0x0300 + 4 * (g / 43690) + 1) (code := c) (arg0 := g)

/-- The nodes with the tags they are asked with, and the device that has asked every coherent node. -/
def Dev.recallRound (d : Dev) (g c : Nat) : List (Nat × Nat) × Dev :=
  (d.recallNoted g c).coherentNodes.foldl (askRecall (d.recallNoted g c).ownNode g) ([], d.recallNoted g c)

section
variable (d : Dev) (g c : Nat)

theorem coherentNodes_recallNoted : (d.recallNoted g c).coherentNodes = d.coherentNodes := by
  obtain ⟨e, r, p, h⟩ := log_changes d (0x0300 + 4 * (g / 43690) + 1) 0xFFF c 0 g 0
  rw [Dev.recallNoted, h]
  rfl

theorem recallRound_nodes : (d.recallRound g c).1.map (·.1) = d.coherentNodes := by
  rw [Dev.recallRound, foldl_askRecall_nodes, coherentNodes_recallNoted]
  rfl

theorem recallRound_asked : ∀ p ∈ (d.recallRound g c).1, (d.recallRound g c).2.recallAsked g p :=
  foldl_askRecall_asked _ g _ _ (by simp)

theorem recallRound_changes : ∃ e r p f b o q, (d.recallRound g c).2 =
    { d with evt := e, regs := r, perf := p, free := f, fab := b, out := o, router := q } := by
  obtain ⟨e, r, p, hlog⟩ := log_changes d (0x0300 + 4 * (g / 43690) + 1) 0xFFF c 0 g 0
  obtain ⟨f, b, o, q, h⟩ := foldl_askRecall_changes (d.recallNoted g c).ownNode g (d.recallNoted g c).coherentNodes ([], d.recallNoted g c)
  refine ⟨e, r, p, f, b, o, q, h.trans ?_⟩
  rw [Dev.recallNoted, hlog]

theorem recallStart_again (h : (tget d.coh.recalls g).isSome = true) : d.recallStart g c = d := if_pos h

variable (hnone : tget d.coh.recalls g = none)
include hnone

theorem recallStart_nobody (hnobody : d.coherentNodes = []) : d.recallStart g c = (d.recallNoted g c).wipeSet g := by
  have hnot : ¬ (tget d.coh.recalls g).isSome = true := by simp [hnone]
  have hround : d.recallRound g c = ([], d.recallNoted g c) := by
    rw [Dev.recallRound, coherentNodes_recallNoted, hnobody]
    rfl
  refine (if_neg hnot).trans ((if_pos (show (d.recallRound g c).1.isEmpty = true from ?_)).trans
    (show (d.recallRound g c).2.wipeSet g = _ from ?_)) <;> rw [hround]
  rfl

theorem recallStart_asks (hsome : d.coherentNodes ≠ []) :
    d.recallStart g c = { (d.recallRound g c).2 with
      coh := { (d.recallRound g c).2.coh with recalls := tput (d.recallRound g c).2.coh.recalls g { nodes := (d.recallRound g c).1 } } } := by
  have hnot : ¬ (tget d.coh.recalls g).isSome = true := by simp [hnone]
  have hasked : ¬ (d.recallRound g c).1.isEmpty = true := by
    rw [List.isEmpty_iff]
    intro h
    exact hsome (by rw [← recallRound_nodes d g c, h]; rfl)
  exact (if_neg hnot).trans (if_neg hasked)

end

/-- Starting a recall leaves memory and the stacks, and of coherence it changes at most the set's entries or its recall. -/
theorem recallStart_changes (d : Dev) (g c : Nat) :
    (d.recallStart g c).mem = d.mem ∧ (d.recallStart g c).stk = d.stk ∧
      ((tget d.coh.recalls g).isSome = true ∧ (d.recallStart g c).coh = d.coh ∨ (d.recallStart g c).coh = (d.wipeSet g).coh ∨
        ∃ r, (d.recallStart g c).coh = { d.coh with recalls := tput d.coh.recalls g r }) := by
  cases hrecall : tget d.coh.recalls g with
  | some r =>
    have hsome : (tget d.coh.recalls g).isSome = true := by simp [hrecall]
    rw [recallStart_again d g c hsome]
    exact ⟨rfl, rfl, .inl ⟨rfl, rfl⟩⟩
  | none =>
    by_cases hnobody : d.coherentNodes = []
    · obtain ⟨e, r, p, h⟩ := log_changes d (0x0300 + 4 * (g / 43690) + 1) 0xFFF c 0 g 0
      rw [recallStart_nobody d g c hrecall hnobody, Dev.recallNoted, h]
      exact ⟨rfl, rfl, .inr (.inl rfl)⟩
    · obtain ⟨e, r, p, f, b, o, q, h⟩ := recallRound_changes d g c
      rw [recallStart_asks d g c hrecall hnobody, h]
      exact ⟨rfl, rfl, .inr (.inr ⟨_, rfl⟩)⟩

/-! ## Sets on their way out -/

/-- A set is being recalled, or has no entry left. -/
def Dev.setGone (d : Dev) (g : Nat) : Prop := (tget d.coh.recalls g).isSome = true ∨ ∀ e ∈ d.coh.dir, globalSet e.1 ≠ g

theorem setGone_recallStart_same (d : Dev) (g c : Nat) : (d.recallStart g c).setGone g := by
  obtain ⟨-, -, ⟨hrecall, h⟩ | h | ⟨r, h⟩⟩ := recallStart_changes d g c
  · exact .inl (by rw [h]; exact hrecall)
  · refine .inr fun e he => ?_
    rw [h] at he
    simpa using (List.mem_filter.1 he).2
  · exact .inl (by rw [h, tget_tput_same]; rfl)

/-- No recall is taken back, and none adds an entry. -/
theorem setGone_recallStart (d : Dev) (g h c : Nat) (hgone : d.setGone h) : (d.recallStart g c).setGone h := by
  obtain ⟨-, -, ⟨-, hcoh⟩ | hcoh | ⟨r, hcoh⟩⟩ := recallStart_changes d g c <;> rw [Dev.setGone, hcoh]
  · exact hgone
  · exact hgone.imp_right fun hnone e he => hnone e (List.mem_of_mem_filter he)
  · refine hgone.imp_left fun hrecall => ?_
    rw [tget_tput]
    split
    · rfl
    · exact hrecall

/-- What each step reaches for its item, and no step takes back, the whole pass reaches. -/
theorem forEach_reaches {α : Type} (P : α → Dev → Prop) (f : α → Dev → Dev) (hreach : ∀ x d, P x (f x d))
    (hkeep : ∀ x y d, P x d → P x (f y d)) (l : List α) (d : Dev) (x : α) (hx : x ∈ l) : P x (forEach l f d) := by
  have hafter : ∀ (l : List α) (d : Dev), P x d → P x (forEach l f d) := by
    intro l
    induction l with
    | nil => exact fun d h => h
    | cons y l ih => exact fun d h => ih _ (hkeep x y d h)
  induction l generalizing d with
  | nil => cases hx
  | cons y l ih =>
    rcases List.mem_cons.1 hx with rfl | hx
    · exact hafter l _ (hreach x d)
    · exact ih _ hx

/-- Recalls of the sets of a list's items leave none of them as it was. -/
theorem setGone_forEach {α : Type} (set : α → Nat) (c : Nat) (l : List α) (d : Dev) (x : α) (hx : x ∈ l) :
    (forEach l (fun y d => d.recallStart (set y) c) d).setGone (set x) :=
  forEach_reaches (fun y d => d.setGone (set y)) _ (fun y d => setGone_recallStart_same d (set y) c)
    (fun y z d => setGone_recallStart d (set z) (set y) c) l d x hx

end Sys2Proof.Machine

/-! Directory sets that fail (R121, R332, R348, R354): their spares, the reading of their lines, and how a recall ends (R130). -/

namespace Sys2Proof.Machine

/-! ## The end of a recall -/

/-- The request to a node for its lines of a set is forgotten. -/
def Dev.recallReqEnded (d : Dev) (g node : Nat) : Dev :=
  match tfind d.fab.devReqs fun _ q => q.purpose == 6 && q.index == g && q.m.dst == node with
  | some q => d.endReq q.1
  | none => d

section
variable (d e : Dev) (g node : Nat) (r : Recall) (hrecall : tget d.coh.recalls g = some r) (he : e = d.recallReqEnded g node)
include hrecall he

theorem recallDone_last (hlast : ∀ p ∈ r.nodes, p.1 = node) :
    d.recallDone g node = (({ e with coh := { e.coh with recalls := tdel e.coh.recalls g } } : Dev).wipeSet g).serveAllHeld := by
  have hnobody : (r.nodes.filter (·.1 != node)).isEmpty = true := by
    simpa [List.filter_eq_nil_iff] using fun a b h => hlast (a, b) h
  subst he
  rw [Dev.recallDone, hrecall]
  exact if_pos hnobody

theorem recallDone_others (hothers : ∃ p ∈ r.nodes, p.1 ≠ node) :
    d.recallDone g node =
      { e with coh := { e.coh with recalls := tput e.coh.recalls g { r with nodes := r.nodes.filter (·.1 != node) } } } := by
  obtain ⟨p, hp, hother⟩ := hothers
  have hleft : ¬ (r.nodes.filter (·.1 != node)).isEmpty = true := by
    rw [List.isEmpty_iff]
    exact List.ne_nil_of_mem (List.mem_filter.2 ⟨hp, by simpa using hother⟩)
  subst he
  rw [Dev.recallDone, hrecall]
  exact if_neg hleft

end

/-! ## Spares (R121, R354) -/

section
variable (d : Dev) (g : Nat)

/-- A device that uses the memory of a set no longer. -/
def Dev.withDead (d : Dev) (g : Nat) : Dev := { d with coh := { d.coh with deadSets := nadd d.coh.deadSets (d.liveSet g) } }

theorem spareFor_eq : d.spareFor g =
    match (d.withDead g).freeSpare with
    | some x => (true, { d.withDead g with coh := { (d.withDead g).coh with spares := tput d.coh.spares g x } })
    | none => (false, d.withDead g) := rfl

theorem mem_nadd_iff (l : List Nat) (k j : Nat) : j ∈ nadd l k ↔ j = k ∨ j ∈ l := by
  unfold nadd
  split
  · next h =>
    have hk := (nmem_iff_mem l k).1 h
    exact ⟨.inr, fun hj => hj.elim (fun hj => hj ▸ hk) id⟩
  · exact List.mem_cons

/-- A set can serve as a spare: it is one of the 32, good, and in no other set's place. -/
theorem freeSpare_some (x : Nat) (h : d.freeSpare = some x) :
    2097120 ≤ x ∧ x < 2097152 ∧ x ∉ d.coh.deadSets ∧ ∀ e ∈ d.coh.spares, e.2 ≠ x := by
  have hfree := List.find?_some h
  have hmem := List.mem_of_find?_eq_some h
  simp only [List.mem_map, List.mem_range] at hmem
  obtain ⟨i, hi, rfl⟩ := hmem
  simp only [Bool.and_eq_true, Bool.not_eq_true', Bool.eq_false_iff, ne_eq, nmem_iff_mem, List.any_eq_true, beq_iff_eq, not_exists,
    not_and] at hfree
  exact ⟨by omega, by omega, hfree.1, hfree.2⟩

theorem freeSpare_none (h : d.freeSpare = none) (x : Nat) (hlo : 2097120 ≤ x) (hhi : x < 2097152) :
    x ∈ d.coh.deadSets ∨ ∃ e ∈ d.coh.spares, e.2 = x := by
  have hused := List.find?_eq_none.1 h x (List.mem_map.2 ⟨x - 2097120, List.mem_range.2 (by omega), by omega⟩)
  simp only [Bool.and_eq_true, Bool.not_eq_true', not_and, Bool.not_eq_false] at hused
  by_cases hdead : x ∈ d.coh.deadSets
  · exact .inl hdead
  · have h := hused (by rwa [Bool.eq_false_iff, ne_eq, nmem_iff_mem])
    exact .inr (by simpa using h)

theorem spareFor_dead : nmem (d.spareFor g).2.coh.deadSets (d.liveSet g) = true := by
  rw [spareFor_eq]
  split <;> exact nmem_nadd_same ..

theorem spareFor_found (h : (d.spareFor g).1 = true) :
    ∃ x, (d.spareFor g).2.liveSet g = x ∧ 2097120 ≤ x ∧ x < 2097152 ∧ x ≠ d.liveSet g ∧ nmem d.coh.deadSets x = false ∧
      ∀ e ∈ d.coh.spares, e.2 ≠ x := by
  rw [spareFor_eq] at h ⊢
  cases hfree : (d.withDead g).freeSpare with
  | none => simp [hfree] at h
  | some x =>
    obtain ⟨hlo, hhi, halive, hunused⟩ := freeSpare_some _ x hfree
    have hgood : x ∉ nadd d.coh.deadSets (d.liveSet g) := halive
    rw [mem_nadd_iff, not_or] at hgood
    refine ⟨x, ?_, hlo, hhi, hgood.1, ?_, hunused⟩
    · simp [Dev.liveSet, tgetD]
    · rw [Bool.eq_false_iff, ne_eq, nmem_iff_mem]
      exact hgood.2

theorem spareFor_none (h : (d.spareFor g).1 = false) :
    (d.spareFor g).2.coh.spares = d.coh.spares ∧
      ∀ x, 2097120 ≤ x → x < 2097152 → x = d.liveSet g ∨ nmem d.coh.deadSets x = true ∨ ∃ e ∈ d.coh.spares, e.2 = x := by
  rw [spareFor_eq] at h ⊢
  cases hfree : (d.withDead g).freeSpare with
  | some x => simp [hfree] at h
  | none =>
    refine ⟨rfl, fun x hlo hhi => ?_⟩
    rcases freeSpare_none _ hfree x hlo hhi with hdead | hused
    · rcases (mem_nadd_iff _ _ _).1 hdead with hlive | hdead
      · exact .inl hlive
      · exact .inr (.inl ((nmem_iff_mem _ _).2 hdead))
    · exact .inr (.inr hused)

end

/-! ## Reading a line of a set (R348, R354) -/

section
variable {s : State} {k a g q live : Nat} {err : List Byte} {d : Dev}

/-- A read that no extent's line answers is of the set whose memory lies there. -/
theorem makes_stackReadComplete_set (hactive : (s.dev.stack k).state = 2) (hline : s.dev.lineAt k a = none)
    (hplace : s.dev.setLineAt k a = some (live, q)) (hset : s.dev.setOfLive live = some g)
    (h : s.dev.setRead k a g q err (Dev.readFixed k) = d) : Makes (.stackReadComplete k a err) s d := by
  refine makes_of_next rfl ((if_neg (not_not.2 hactive)).trans ?_)
  simp only [hline, Dev.tableRead, hplace, Option.bind_some, hset, Option.map_some, h]

end

theorem setRead_uncorrectable (d : Dev) (k a g q : Nat) (err : List Byte) (fix : Dev → Dev) (h : readWith a (d.setBytes g q) err = none) :
    d.setRead k a g q err fix = (d.ueNote k a 0 true).setDestroyed g := by
  rw [Dev.setRead, h]

theorem setRead_corrected (d : Dev) (k a g q : Nat) (err : List Byte) (fix : Dev → Dev)
    (h : readWith a (d.setBytes g q) err = some (d.setBytes g q, true)) : d.setRead k a g q err fix = fix d := by
  simp [Dev.setRead, h, forEach]

/-! ## A stack that fails (R330 to R332) -/

theorem stk_log (d : Dev) (source origin code status arg0 arg1 : Nat) : (d.log source origin code status arg0 arg1).stk = d.stk := by
  obtain ⟨e, r, p, h⟩ := log_changes d source origin code status arg0 arg1
  rw [h]

section
variable (d : Dev) (k c : Nat) (hserves : (d.stack k).state = 2 ∨ (d.stack k).state = 3)
include hserves

theorem failStack_eq : d.failStack k c =
    forEach (d.setsHeld k) (fun g d => d.recallStart g 1)
      ((d.setStack k fun x => { x with state := 4, cause := c, queue := [] }).log (0x0200 + 16 * k) (code := 4) (arg0 := c)) :=
  if_pos (by simpa using hserves)

theorem failStack_state : ((d.failStack k c).stack k).state = 4 := by
  have hstk : ∀ e : Dev, (forEach (d.setsHeld k) (fun g d => d.recallStart g 1) e).stk = e.stk :=
    forEach_keeps Dev.stk _ (fun g d => (recallStart_changes d g 1).2.1) _
  rw [failStack_eq d k c hserves, Dev.stack, hstk, stk_log]
  exact congrArg Stack.state (Dev.stack_setStack_same d k _)

theorem failStack_setGone (g : Nat) (hg : g ∈ d.setsHeld k) : (d.failStack k c).setGone g := by
  rw [failStack_eq d k c hserves]
  exact setGone_forEach id 1 _ _ g hg

end

theorem readSets_setGone (d : Dev) (lines : List Nat) (l : Nat) (hl : l ∈ lines) (hbad : ∃ e ∈ d.setEntries l, 4 ≤ e.2.state) :
    (d.readSets lines).setGone (globalSet l) := by
  have hreserved : d.setBad l = true := by simpa [Dev.setBad] using hbad
  exact setGone_forEach globalSet 0 _ d l (List.mem_filter.2 ⟨hl, hreserved⟩)

/-- Settles O59: recalls from their start to their end, the spares, the reads that find a set's memory failing, and the stacks. -/
theorem setRecalls : Obligations.SetRecalls := by
  refine ⟨recallStart_again, ?_, fun d g => ⟨rfl, rfl⟩, ?_, ?_, ?_, fun d g => rfl, ?_, readSets_setGone⟩
  · intro d g c hnone
    refine ⟨(recallStart_changes d g c).1, recallStart_nobody d g c hnone, fun hsome => ?_⟩
    obtain ⟨e, r, p, f, b, o, q, h⟩ := recallRound_changes d g c
    rw [recallStart_asks d g c hnone hsome]
    exact ⟨by rw [h], _, tget_tput_same .., recallRound_nodes d g c, rfl, rfl, recallRound_asked d g c⟩
  · exact fun d e g node r hrecall he => ⟨recallDone_last d e g node r hrecall he, recallDone_others d e g node r hrecall he⟩
  · exact fun d g => ⟨spareFor_dead d g, spareFor_found d g, spareFor_none d g⟩
  · intro s k a live q g err hactive hline hplace hset
    exact ⟨fun h => makes_stackReadComplete_set hactive hline hplace hset (setRead_uncorrectable _ k a g q err _ h),
      fun h => makes_stackReadComplete_set hactive hline hplace hset (setRead_corrected _ k a g q err _ h)⟩
  · exact fun d k c g hserves hg => ⟨failStack_state d k c hserves, failStack_setGone d k c hserves g hg⟩

end Sys2Proof.Machine

/-! Stitches, panels and stream ports as later operations read them: what counting, logging and sampling leave of the array,
and what a filtered table reads. -/

namespace Sys2Proof.Machine

/-! ## What leaves the array alone -/

@[simp] theorem knit_bump (d : Dev) (off lo : Nat) : (d.bump off lo).knit = d.knit := by
  obtain ⟨r, p, h⟩ := bump_changes d off lo
  rw [h]

@[simp] theorem jobs_bump (d : Dev) (off lo : Nat) : (d.bump off lo).jobs = d.jobs := by
  obtain ⟨r, p, h⟩ := bump_changes d off lo
  rw [h]

@[simp] theorem knit_log (d : Dev) (source origin code status arg0 arg1 : Nat) :
    (d.log source origin code status arg0 arg1).knit = d.knit := by
  obtain ⟨e, r, p, h⟩ := log_changes d source origin code status arg0 arg1
  rw [h]

@[simp] theorem knit_event (d : Dev) (e : Event) : (d.event e).knit = d.knit := by
  simp only [Dev.event, apply_ite Dev.knit, knit_bump, ite_self]

@[simp] theorem knit_logOpen (d : Dev) (lo n origin status : Nat) : (d.logOpen lo n origin status).knit = d.knit := by
  simp [Dev.logOpen, Dev.logSrc]

@[simp] theorem knit_sampleEntry (d : Dev) (e : Event) : (d.sampleEntry e).knit = d.knit := by
  simp [Dev.sampleEntry, apply_ite Dev.knit]

@[simp] theorem knit_tagStitch (d : Dev) (id : Nat) (j : Job) (k addr : Nat) (w : BitVec 64) :
    (d.tagStitch id j k addr w).knit = d.knit := by
  simp only [Dev.tagStitch, apply_ite Dev.knit, knit_sampleEntry, Dev.draw_snd, ite_self]

@[simp] theorem stitch_bump (d : Dev) (off lo k : Nat) : (d.bump off lo).stitch k = d.stitch k := by
  simp only [Dev.stitch, knit_bump]

@[simp] theorem panel_bump (d : Dev) (off lo p : Nat) : (d.bump off lo).panel p = d.panel p := by
  simp only [Dev.panel, knit_bump]

@[simp] theorem panel_logOpen (d : Dev) (lo n origin status p : Nat) : (d.logOpen lo n origin status).panel p = d.panel p := by
  simp only [Dev.panel, knit_logOpen]

@[simp] theorem stitch_setPanel (d : Dev) (p k : Nat) (f : Panel → Panel) : (d.setPanel p f).stitch k = d.stitch k := rfl

@[simp] theorem stitchJob_bump (d : Dev) (off lo k : Nat) : (d.bump off lo).stitchJob k = d.stitchJob k := by
  simp only [Dev.stitchJob, Dev.jobOfPanel, panel_bump, Dev.job, jobs_bump]

/-- The job of a stitch stays where an update of a panel keeps the panel's job. -/
theorem stitchJob_setPanel (d : Dev) (p k : Nat) (f : Panel → Panel) (hjob : ∀ q, (f q).job = q.job) :
    (d.setPanel p f).stitchJob k = d.stitchJob k := by
  have hpanel : ((d.setPanel p f).panel (k / 512)).job = (d.panel (k / 512)).job := by
    rw [Dev.panel_setPanel]
    split
    · next h => rw [hjob, h]
    · rfl
  simp only [Dev.stitchJob, Dev.jobOfPanel, hpanel]
  rfl

/-! ## Tables with entries taken out -/

/-- A key whose entries are filtered out reads as its default. -/
theorem tgetD_filter_gone {α : Type} (t : Tbl α) (p : Nat × α → Bool) (k : Nat) (dflt : α) (hgone : ∀ v, p (k, v) = false) :
    tgetD (t.filter p) k dflt = dflt := by
  have hnone : tget (t.filter p) k = none := by
    cases hget : tget (t.filter p) k with
    | none => rfl
    | some v =>
      have hkept := (List.mem_filter.1 (mem_of_tget _ _ _ hget)).2
      rw [hgone v] at hkept
      cases hkept
  simp [tgetD, hnone]

end Sys2Proof.Machine

/-! Stream ports, errors of the stitches' stores and drained panels (R135, R141, R142, R145, R160, R205). -/

namespace Sys2Proof.Machine

/-! ## Stream ports -/

/-- The running job of a port is one of the device's jobs. -/
theorem job_of_portJob (d : Dev) (n id : Nat) (j : Job) (h : d.portJob n = some (id, j)) : d.job id = some j := by
  obtain ⟨hpanel, _⟩ := Option.filter_eq_some_iff.1 h
  unfold Dev.jobOfPanel at hpanel
  split at hpanel
  · cases hpanel
  · obtain ⟨x, hx, hpair⟩ := Option.map_eq_some_iff.1 hpanel
    cases hpair
    exact hx

/-- A port with an empty write buffer writes nothing. -/
theorem portFlush_nothing (d : Dev) (id n : Nat) (j : Job) (h : (d.sport n).writes = []) : d.portFlush id j n = d := by
  unfold Dev.portFlush
  rw [h]

/-- The oldest buffered line is written under the ATTR of the segment its address lies in. -/
theorem portFlush_written (d d' : Dev) (id n : Nat) (j : Job) (w : PortLine) (rest : List PortLine) (t : Transfer) (a attr : Nat)
    (hwrites : (d.sport n).writes = w :: rest) (hlist : (d.sport n).list[w.xfer]? = some t)
    (htranslate : d.translate j (t.vline w.idx) = some (a, attr))
    (hwrite : d.portWrite j n w.addr attr (slice (w.data.getD []) 0 64) = (.ok [], d')) :
    d.portFlush id j n = (d'.setSport n fun q => { q with writes := rest, written := q.written + 1 }).setJob id
      fun j => { j with lastWrite := d'.now, progressAt := d'.now } := by
  unfold Dev.portFlush
  simp only [hwrites, hlist, htranslate, Option.map_some, Option.getD_some, hwrite]

/-- A read transfer in turn with a line left on the port's stack has that line's read issued, where the FIFO has a slot for it. -/
theorem portIssue_read (d : Dev) (j : Job) (n fuel : Nat) (t : Transfer) (i a attr : Nat)
    (hlist : (d.sport n).list[(d.sport n).issueXfer]? = some t) (hread : t.write = false)
    (hline : d.portLine j n t (d.sport n).issueLine = some (i, a, attr)) (hroom : (d.sport n).reads.length < 1024) :
    d.portIssue j n (fuel + 1) = d.setSport n fun q => { q with
      issueLine := i + 1, reads := q.reads ++ [{ addr := a, xfer := q.issueXfer, idx := i }] } := by
  simp only [Dev.portIssue, hlist, hread, hline, if_neg (Nat.not_le.2 hroom), Bool.false_eq_true, if_false]

theorem makes_streamTransferIssue {s : State} {n : Nat} {d : Dev} (h : s.dev.portStep n = d) : Makes (.streamTransferIssue n) s d :=
  makes_of_next rfl h

theorem makes_streamLineReturn {s : State} {n line : Nat} {d : Dev} (h : s.dev.portReturn n line = d) :
    Makes (.streamLineReturn n line) s d :=
  makes_of_next rfl h

/-- R141, R142: the read that a port's step issues, and the line that the stack returns. -/
theorem streamPortReads : Says.StreamPortReads := by
  intro s n id j hjob
  refine ⟨fun t i a attr hwrites hlist hread hline hroom => makes_streamTransferIssue ?_,
    fun line l t attr a b d' hslot hwaits hlist htranslate hgot => makes_streamLineReturn ?_⟩
  · have hlives : (s.dev.job id).isNone = false := by rw [job_of_portJob _ _ _ _ hjob]; rfl
    simp only [Dev.portStep, hjob, portFlush_nothing _ _ _ _ hwrites, hlives, Bool.false_eq_true, if_false]
    rw [portIssue_read _ _ _ _ _ _ _ _ hlist hread hline hroom]
  · simp only [Dev.portReturn, hjob, hslot, hwaits, hlist, htranslate, hgot, Option.isSome_none, Bool.false_eq_true, if_false,
      Option.map_some, Option.getD_some]

/-- R142, R145: what a written line leaves of the buffer. -/
theorem streamPortWrites : Says.StreamPortWrites :=
  fun s n id j w rest t a attr d' _ hwrites hlist htranslate hwrite =>
    portFlush_written s.dev d' id n j w rest t a attr hwrites hlist htranslate hwrite

/-! ## Errors of the stitches' stores -/

/-- The panel's first error ends the job that runs on the stitch. -/
theorem makes_stitchStoreEccError_first {s : State} {k id : Nat} {j : Job} (hjob : s.dev.stitchJob k = some (id, j))
    (hfirst : (s.dev.panel (k / 512)).uncorr = 0) :
    Makes (.stitchStoreEccError k true) s
      (((s.dev.bump 0x20000C 0).setPanel (k / 512) fun q => { q with uncorr := 1 }).stitchFault id j k 8 (s.dev.stitch k).pc) := by
  refine makes_of_next rfl ?_
  simp [stitchJob_setPanel, hjob, hfirst]

/-- One in a panel with nothing running on it is counted and logged, and one that is not its first retires the panel. -/
theorem makes_stitchStoreEccError_later {s : State} {k n : Nat} (hjob : s.dev.stitchJob k = none)
    (hcount : (s.dev.panel (k / 512)).uncorr = n) (hlater : 1 ≤ n) (hidle : (s.dev.panel (k / 512)).state = psIdle) :
    Makes (.stitchStoreEccError k true) s
      ((((s.dev.bump 0x20000C 0).setPanel (k / 512) fun q => { q with uncorr := min 15 (n + 1), retireWish := true }).logOpen
        0x0400 0xF0).setPanel (k / 512) fun q => { q with state := psRetired }) := by
  refine makes_of_next rfl ?_
  simp [stitchJob_setPanel, hjob, hcount, hlater, hidle]

/-- R135: an error that the store corrects, a panel's first that it cannot correct, and a later one. -/
theorem storeErrors : Says.StoreErrors := by
  intro s k
  refine ⟨makes_of_next rfl rfl, fun id j hjob hfirst => makes_stitchStoreEccError_first hjob hfirst,
    fun hjob hlater hidle => ⟨_, makes_stitchStoreEccError_later hjob rfl hlater hidle, ?_, ?_⟩⟩
  · rw [Dev.panel_setPanel_same]
  · rw [Dev.panel_setPanel_same, panel_logOpen, Dev.panel_setPanel_same]

/-! ## Drained panels -/

/-- R160, R205, R210: what a drained panel held is taken out of the array, and its state follows from the wish and the power. -/
theorem drainedPanels : Says.DrainedPanels := by
  intro s p _ hdraining
  have hmakes : Makes (.panelDrainDone p) s (s.dev.panelDrained p) := makes_of_next rfl (if_pos hdraining)
  refine ⟨_, hmakes, ?_, ?_, fun k hk => tgetD_filter_gone _ _ _ _ fun _ => ?_, fun key hkey => tgetD_filter_gone _ _ _ _ fun _ => ?_,
    fun row hrow => tgetD_filter_gone _ _ _ _ fun _ => ?_, fun n hn => tgetD_filter_gone _ _ _ _ fun _ => ?_, fun e he => ?_⟩
  · rw [Dev.panelDrained, Dev.panel_setPanel_same]; rfl
  · rw [Dev.panelDrained, Dev.panel_setPanel_same]
  · simp [hk]
  · simp [hkey]
  · simp [hrow]
  · simp [hn]
  · simp [Dev.panelDrained, Dev.setPanel, he]

/-- Settles O10: the lines a stream port reads and writes, the errors of the stitches' stores, and what draining leaves of a panel. -/
theorem streamPortsAndPanels : Obligations.StreamPortsAndPanels :=
  ⟨streamPortReads, streamPortWrites, storeErrors, drainedPanels⟩

end Sys2Proof.Machine

/-! An instruction that takes an entry from a channel, and what it leaves there (R137, R163, R173). -/

namespace Sys2Proof.Machine

/-! ## Instructions that complete -/

/-- A stitch that stands at an instruction that reaches beyond it carries the instruction out. -/
theorem stitchReach_at (d : Dev) (k cls minor : Nat) (f : StitchFields) (id : Nat) (j : Job) (go : Nat → Job → Dev → Dev)
    (h : AtInstr d k cls minor f id j) : d.stitchReach k cls minor f go = go id j d := by
  obtain ⟨hjob, hrun, hword⟩ := h
  simp [Dev.stitchReach, hjob, hrun, hword]

theorem stitch_handshook (d : Dev) (id k : Nat) (w : BitVec 64) : (d.handshook id w).stitch k = d.stitch k := by
  unfold Dev.handshook
  split <;> split <;> rfl

theorem chan_handshook (d : Dev) (id key : Nat) (w : BitVec 64) : (d.handshook id w).chan key = d.chan key := by
  unfold Dev.handshook
  split <;> split <;> rfl

theorem stitch_wentTo (d : Dev) (id k : Nat) (j : Job) (st : Stitch) (p : Nat × List LoopRec) :
    (d.wentTo id j k st p).stitch k = { st with pc := p.1, loops := p.2, transfers := 0, busWait := false, run := .running } := by
  rw [Dev.wentTo, Dev.stitch, knit_tagStitch, ← Dev.stitch, stitch_handshook, Dev.stitch_setStitch_same]

theorem chan_wentTo (d : Dev) (id k key : Nat) (j : Job) (st : Stitch) (p : Nat × List LoopRec) :
    (d.wentTo id j k st p).chan key = d.chan key := by
  rw [Dev.wentTo, Dev.chan, knit_tagStitch, ← Dev.chan, chan_handshook]
  rfl

/-! ## Channels -/

/-- In a table whose keys rise, a channel holds what it is given: emptied, it reads as empty. -/
theorem chan_setChan (d : Dev) (key : Nat) (l : List (List Byte)) (hrise : keysRise d.knit.channels = true) :
    (d.setChan key l).chan key = l := by
  unfold Dev.setChan Dev.chan tgetD
  split
  · next hempty => rw [List.isEmpty_iff.1 hempty, tget_tdel_same _ _ hrise, Option.getD_none]
  · rw [tget_tput_same, Option.getD_some]

/-- A stitch whose RECVS has taken the entry `bs` (R173). -/
def Stitch.recvd (st : Stitch) (f : StitchFields) (bs : List Byte) : Stitch :=
  let taken := st.setS f.dst (BitVec.ofNat 32 (field bs 0 4))
  { taken with transfers := taken.transfers + 1 }

theorem recvd_after (st : Stitch) (f : StitchFields) (bs : List Byte) : (st.recvd f bs).after = st.after := by
  unfold Stitch.recvd Stitch.setS
  split <;> rfl

/-- The device then, the channel left at `rest`. -/
def Dev.recvsTook (d : Dev) (id k key : Nat) (f : StitchFields) (bs : List Byte) (rest : List (List Byte)) : Dev :=
  ((d.setChan key rest).setStitch k fun s => s.recvd f bs).progress id

section
variable {d : Dev} {id k key : Nat} {f : StitchFields} {bs : List Byte} {rest : List (List Byte)}

theorem stitch_recvsTook : (d.recvsTook id k key f bs rest).stitch k = (d.stitch k).recvd f bs :=
  Dev.stitch_setStitch_same (d.setChan key rest) k fun s => s.recvd f bs

/-- The one transfer of a RECVS, where its channel holds an entry. -/
theorem chanRun_recvs (j : Job) (hfirst : (d.stitch k).transfers = 0) (hkey : inboundKey k (immDir f) = some key)
    (hdeclared : nmem d.knit.declared key = true) (hentry : d.chan key = bs :: rest) :
    d.chanRun id j k 4 f = (d.recvsTook id k key f bs rest).ranTo id j k ((d.recvsTook id k key f bs rest).stitch k)
      (.next ((d.recvsTook id k key f bs rest).stitch k)) := by
  have hgood : chanBad 4 f = false := by simp [chanBad]
  have hkeys : d.chanKeys k 4 f = some (some key, none) := by simp [Dev.chanKeys, hkey, hdeclared]
  have hsteps : chanSteps 4 f (some key) none = [{ send := false, key := key, quarter := immQ f }] := by simp [chanSteps]
  have hgo : d.chanGo id k 4 f [{ send := false, key := key, quarter := immQ f }] = (d.recvsTook id k key f bs rest, true) := by
    simp only [Dev.chanGo, hentry, Bool.false_eq_true, if_false, if_true]
    rfl
  simp only [Dev.chanRun, hgood, hkeys, hsteps, hfirst, List.drop_zero, hgo, Bool.false_eq_true, if_false, if_true]

end

/-- R173: a RECVS whose channel holds an entry takes it and completes, and its channel then reads as `Dev.setChan` leaves it: as the rest
of its entries where the keys of the channels rise (`chan_setChan`). -/
theorem makes_chnRecvs {s : State} {k id key : Nat} {j : Job} {f : StitchFields} {bs : List Byte} {rest : List (List Byte)}
    (hat : AtInstr s.dev k 3 0x04 f id j) (hfirst : (s.dev.stitch k).transfers = 0)
    (henter : (s.dev.stitch k).canEnter (s.dev.stitch k).after.1) (hkey : inboundKey k (immDir f) = some key)
    (hdeclared : nmem s.dev.knit.declared key = true) (hentry : s.dev.chan key = bs :: rest) :
    ∃ d, Makes (.chnRecvs k f) s d ∧ d.chan key = (s.dev.setChan key rest).chan key ∧
      d.stitch k = (s.dev.stitch k).goneOn ((s.dev.stitch k).setS f.dst (BitVec.ofNat 32 (field bs 0 4))) := by
  have hstitch := stitch_recvsTook (d := s.dev) (id := id) (key := key) (k := k) (f := f) (bs := bs) (rest := rest)
  generalize htook : s.dev.recvsTook id k key f bs rest = took at hstitch
  have hafter : (took.stitch k).after = (s.dev.stitch k).after := by rw [hstitch, recvd_after]
  have hcan : (took.stitch k).canEnter (took.stitch k).after.1 := by
    rw [hafter]
    exact canEnter_code _ _ _ (by rw [hstitch]; exact setS_code _ _ _) henter
  refine ⟨took.wentTo id j k (took.stitch k) (took.stitch k).after, makes_of_next rfl (?_ : s.dev.chn k 4 f = _), ?_, ?_⟩
  · rw [Dev.chn, stitchReach_at _ _ _ _ _ _ _ _ hat, chanRun_recvs j hfirst hkey hdeclared hentry, htook,
      ranTo_next took id j k _ rfl hcan]
  · rw [chan_wentTo, ← htook]
    rfl
  · rw [stitch_wentTo, hafter, hstitch]
    rfl

/-- A command makes one device. -/
theorem makes_unique {i : Instr} {s : State} {d e : Dev} (hd : Makes i s d) (he : Makes i s e) : d = e := by
  have hsame := hd.symm.trans he
  injection hsame with hstate
  exact congrArg State.dev hstate

/-! ## A channel listed twice -/

/-- RECVS from the east into s1. -/
def recvsEast : StitchFields := { dst := 1, src1 := 0, src2 := 0, imm := 1 }

/-- A job that runs on panel 0. -/
def panelZeroJob : Job :=
  { owner := 0xFF0, ring := 0, idx := 0, ctx := 0, panels := 1, flags := 0, stockId := 0, argLen := 0, imageAddr := 0, imageLen := 256,
    seed := 0, argAddr := 0, limitMs := 0, stage := 2, mask := [0] }

/-- Stitch 0 of that job stands at the RECVS, and the table of channels lists its inbound one, number 7, twice, each time with one entry. -/
def listedTwice : State :=
  { State.reset with dev := { State.reset.dev with
    jobs := { jobs := [(1, panelZeroJob)] }
    knit := {
      panels := [(0, { state := psRunning, owner := 0xFF0, job := some 1 })]
      stitches := [(0, { run := .running, code := [(0, stitchWord 3 4 recvsEast)] })]
      declared := [7]
      channels := [(7, [zeros 32]), (7, [zeros 32])] } } }

/-- Refutes O4: it takes any table of channels, and where one lists a channel twice, `tdel` uncovers the second listing when the first one's
last entry is taken: in `listedTwice` the RECVS completes (`makes_chnRecvs`) and its channel then still holds an entry, where the statement
has it empty. In a table whose keys rise the channel is empty (`chan_setChan`). -/
theorem not_channelsCarryEntries : ¬ Obligations.ChannelsCarryEntries := by
  rintro ⟨htransfers, _⟩
  have hat : AtInstr listedTwice.dev 0 3 0x04 recvsEast 1 panelZeroJob := by decide +kernel
  have hfirst : (listedTwice.dev.stitch 0).transfers = 0 := by decide
  have henter : (listedTwice.dev.stitch 0).canEnter (listedTwice.dev.stitch 0).after.1 := by decide +kernel
  have hkey : inboundKey 0 (immDir recvsEast) = some 7 := by decide
  have hdeclared : nmem listedTwice.dev.knit.declared 7 = true := by decide
  have hentry : listedTwice.dev.chan 7 = [zeros 32] := by decide
  have huncovered : (listedTwice.dev.setChan 7 []).chan 7 ≠ [] := by decide
  obtain ⟨_, _, _, _, hrecvs⟩ := htransfers listedTwice 0 recvsEast 1 panelZeroJob hfirst henter
  obtain ⟨d, hclaimed, hempty, _⟩ := hrecvs 7 hat hkey hdeclared (zeros 32) [] hentry
  obtain ⟨e, hmade, hleft, _⟩ := makes_chnRecvs hat hfirst henter hkey hdeclared hentry
  rw [makes_unique hmade hclaimed, hempty] at hleft
  exact huncovered hleft.symm

end Sys2Proof.Machine

/-! The stitch instruction word as one number, and its parts (R166, Table 7.1). -/

namespace Sys2Proof.Machine

/-- Two words side by side are the sum of their places. -/
theorem toNat_append_eq_add {m n : Nat} (x : BitVec m) (y : BitVec n) : (x ++ y).toNat = x.toNat * 2 ^ n + y.toNat := by
  rw [BitVec.toNat_append, ← Nat.shiftLeft_add_eq_or_of_lt y.isLt, Nat.shiftLeft_eq]

/-- A word as its parts at their places. -/
theorem toNat_stitchWord (cls minor : Nat) (f : StitchFields) :
    (stitchWord cls minor f).toNat = cls % 64 * 2 ^ 58 + minor % 64 * 2 ^ 52 + f.dst.toNat * 2 ^ 47 + f.src1.toNat * 2 ^ 42 +
      f.src2.toNat * 2 ^ 37 + f.imm.toNat := by
  have hlast : (stitchWord cls minor f).toNat =
      (BitVec.ofNat 6 cls ++ BitVec.ofNat 6 minor ++ f.dst ++ f.src1 ++ f.src2).toNat * 2 ^ 37 + f.imm.toNat := toNat_append_eq_add _ f.imm
  simp only [hlast, toNat_append_eq_add, BitVec.toNat_ofNat]
  omega

/-- A part of a word is the word without the bits below it, modulo what it holds. -/
theorem toNat_part (w : BitVec 64) (lo n : Nat) : (w.extractLsb' lo n).toNat = w.toNat / 2 ^ lo % 2 ^ n := by
  rw [BitVec.extractLsb'_toNat, Nat.shiftRight_eq_div_pow]

section
variable (cls minor : Nat) (f : StitchFields)

theorem wordClass_stitchWord (h : cls < 64) : wordClass (stitchWord cls minor f) = cls := by
  rw [wordClass, toNat_part, toNat_stitchWord]
  omega

theorem wordMinor_stitchWord (h : minor < 64) : wordMinor (stitchWord cls minor f) = minor := by
  rw [wordMinor, toNat_part, toNat_stitchWord]
  omega

theorem wordFields_stitchWord : wordFields (stitchWord cls minor f) = f := by
  have hpart : ∀ lo n (x : BitVec n), (stitchWord cls minor f).toNat / 2 ^ lo % 2 ^ n = x.toNat →
      (stitchWord cls minor f).extractLsb' lo n = x := fun lo n x h => BitVec.eq_of_toNat_eq ((toNat_part _ lo n).trans h)
  simp only [toNat_stitchWord] at hpart
  have hdst := hpart 47 5 f.dst (by omega)
  have hsrc1 := hpart 42 5 f.src1 (by omega)
  have hsrc2 := hpart 37 5 f.src2 (by omega)
  have himm := hpart 0 37 f.imm (by omega)
  rw [wordFields, hdst, hsrc1, hsrc2, himm]

end

/-- The parts of a word, put together again. -/
theorem stitchWord_parts (w : BitVec 64) : stitchWord (wordClass w) (wordMinor w) (wordFields w) = w := by
  apply BitVec.eq_of_toNat_eq
  simp only [toNat_stitchWord, wordClass, wordMinor, wordFields, toNat_part]
  omega

/-- Settles O9: a word and its parts determine each other, both being sums of the parts at their places. -/
theorem stitchWordsReadBack : Obligations.StitchWordsReadBack :=
  ⟨fun cls minor f hcls hminor =>
    ⟨wordClass_stitchWord cls minor f hcls, wordMinor_stitchWord cls minor f hminor, wordFields_stitchWord cls minor f⟩,
    stitchWord_parts⟩

end Sys2Proof.Machine

/-! How the instruction a stitch stands at becomes a command's answer: it completes, jumps, faults or blocks (R163, R166 to R170). -/

namespace Sys2Proof.Machine

section
variable {i : Instr} {s : State} {k cls minor id : Nat} {f : StitchFields} {j : Job}

/-! ## Instructions that work on their stitch alone -/

section
variable {body : Stitch → Ran} (harm : exec i s = liftDev (fun d => d.stitchRun k cls minor f body) s)
  (hat : AtInstr s.dev k cls minor f id j)
include harm hat

theorem makes_stitchRun {d : Dev} (h : s.dev.ranTo id j k (s.dev.stitch k) (body (s.dev.stitch k)) = d) : Makes i s d :=
  makes_of_next harm ((stitchRun_at _ _ _ _ _ _ _ _ hat).trans h)

theorem steps_of_next {st : Stitch} (hbody : body (s.dev.stitch k) = .next st) (hcode : st.code = (s.dev.stitch k).code)
    (henter : (s.dev.stitch k).canEnter (s.dev.stitch k).after.1) : Steps i s id j k st := by
  refine makes_stitchRun harm hat ?_
  rw [hbody]
  exact ranTo_next _ _ _ _ _ hcode henter

theorem makes_of_jump {t : Nat} (hbody : body (s.dev.stitch k) = .jump (s.dev.stitch k) t) (henter : (s.dev.stitch k).canEnter t) :
    Makes i s (s.dev.wentTo id j k (s.dev.stitch k) (t, loopsAt t (s.dev.stitch k).loops)) := by
  refine makes_stitchRun harm hat ?_
  rw [hbody]
  exact ranTo_jump _ _ _ _ _ _ rfl henter

theorem makes_of_fault {code : Nat} (hbody : body (s.dev.stitch k) = .fault code) :
    Makes i s (s.dev.stitchFault id j k code (s.dev.stitch k).pc) := by
  refine makes_stitchRun harm hat ?_
  rw [hbody, ranTo_fault]

end

/-! ## Instructions that reach beyond it -/

section
variable {go : Nat → Job → Dev → Dev} (harm : exec i s = liftDev (fun d => d.stitchReach k cls minor f go) s)
  (hat : AtInstr s.dev k cls minor f id j)
include harm hat

theorem makes_stitchReach {d : Dev} (h : go id j s.dev = d) : Makes i s d :=
  makes_of_next harm ((stitchReach_at _ _ _ _ _ _ _ _ hat).trans h)

theorem steps_of_reach {st : Stitch} (hgo : go id j s.dev = s.dev.ranTo id j k (s.dev.stitch k) (.next st))
    (hcode : st.code = (s.dev.stitch k).code) (henter : (s.dev.stitch k).canEnter (s.dev.stitch k).after.1) : Steps i s id j k st :=
  makes_stitchReach harm hat (hgo.trans (ranTo_next _ _ _ _ _ hcode henter))

end

end

/-! ## Register fields -/

theorem badV_eq_false {r : BitVec 5} (h : r.toNat ≤ 7) : badV r = false := decide_eq_false (Nat.not_lt.2 h)

theorem badV_eq_true {r : BitVec 5} (h : 7 < r.toNat) : badV r = true := decide_eq_true h

theorem badA_eq_false {r : BitVec 5} (h : r.toNat ≤ 3) : badA r = false := decide_eq_false (Nat.not_lt.2 h)

theorem badA_eq_true {r : BitVec 5} (h : 3 < r.toNat) : badA r = true := decide_eq_true h

/-! ## The operations of the scalar and the vector units -/

theorem min32_eq : min32 = fun a b => if b.toInt < a.toInt then b else a := by
  funext a b
  simp [min32, BitVec.slt_eq_decide]

theorem max32_eq : max32 = fun a b => if a.toInt < b.toInt then b else a := by
  funext a b
  simp [max32, BitVec.slt_eq_decide]

theorem minu32_eq : minu32 = fun a b => if b.toNat < a.toNat then b else a := by
  funext a b
  simp [minu32, BitVec.ult_eq_decide]

theorem maxu32_eq : maxu32 = fun a b => if a.toNat < b.toNat then b else a := by
  funext a b
  simp [maxu32, BitVec.ult_eq_decide]

theorem slt32_eq : slt32 = fun a b => if a.toInt < b.toInt then 1#32 else 0#32 := by
  funext a b
  simp [slt32, truth32, BitVec.slt_eq_decide]

theorem sltu32_eq : sltu32 = fun a b => if a.toNat < b.toNat then 1#32 else 0#32 := by
  funext a b
  simp [sltu32, truth32, BitVec.ult_eq_decide]

end Sys2Proof.Machine

/-! The SALU instructions (R171). -/

namespace Sys2Proof.Machine

/-- Every SALU row carries out its operation. -/
theorem exec_saluRow : ∀ r ∈ saluRows ++ saluImmRows, ∀ k f s, exec (r.1 k f) s = liftDev (fun d => d.salu k r.2.1 f r.2.2) s := by
  simp only [saluRows, saluImmRows, ← min32_eq, ← max32_eq, ← minu32_eq, ← maxu32_eq, ← slt32_eq, ← sltu32_eq, List.cons_append,
    List.nil_append, List.forall_mem_cons, List.not_mem_nil, false_imp_iff, implies_true, and_true]
  and_intros <;> exact fun _ _ _ => rfl

theorem saluRow_minor : ∀ r ∈ saluRows, r.2.1 < 0x20 := by
  simp [saluRows]

theorem saluImmRow_minor : ∀ r ∈ saluImmRows, ¬ r.2.1 < 0x20 := by
  simp [saluImmRows]

/-- A scalar operation completes with its result in s[DST]. -/
theorem steps_salu {i : Instr} {s : State} {k minor id : Nat} {f : StitchFields} {j : Job} {op : BitVec 32 → BitVec 32 → BitVec 32}
    {b : BitVec 32} (harm : exec i s = liftDev (fun d => d.salu k minor f op) s) (hat : AtInstr s.dev k 1 minor f id j)
    (henter : (s.dev.stitch k).canEnter (s.dev.stitch k).after.1)
    (hb : (if minor < 0x20 then (s.dev.stitch k).s f.src2 else f.imm.setWidth 32) = b) :
    Steps i s id j k ((s.dev.stitch k).setS f.dst (op ((s.dev.stitch k).s f.src1) b)) :=
  steps_of_next harm hat (by rw [hb]) (setS_code ..) henter

theorem saluOnRegisters : Says.SaluOnRegisters := by
  intro r hr s k f id j hat henter
  exact steps_salu (exec_saluRow r (List.mem_append_left _ hr) k f s) hat henter (if_pos (saluRow_minor r hr))

theorem saluOnImmediates : Says.SaluOnImmediates := by
  intro r hr s k f id j hat henter
  exact steps_salu (exec_saluRow r (List.mem_append_right _ hr) k f s) hat henter (if_neg (saluImmRow_minor r hr))

/-! ## The scalar registers (Table 6.1) -/

theorem setS_zero (st : Stitch) (v : BitVec 32) : st.setS 0#5 v = st := if_pos rfl

theorem s_setS_same (st : Stitch) (r : BitVec 5) (v : BitVec 32) (hr : r ≠ 0#5) : (st.setS r v).s r = v := by
  simp [Stitch.s, Stitch.setS, hr, tgetD_tput]

theorem s_setS_other (st : Stitch) (r q : BitVec 5) (v : BitVec 32) (hq : q ≠ r) : (st.setS r v).s q = st.s q := by
  have hkey : q.toNat ≠ r.toNat := fun h => hq (BitVec.eq_of_toNat_eq h)
  by_cases hr : r = 0#5
  · rw [hr, setS_zero]
  · simp [Stitch.s, Stitch.setS, hr, tgetD_tput, hkey]

theorem definedOp_salu_reserved (m : Nat) (h : (0x0F ≤ m ∧ m ≤ 0x1F) ∨ (0x2F ≤ m ∧ m ≤ 0x3F)) : definedOp 1 m = false := by
  simp [definedOp]
  omega

theorem scalarRegisters : Says.ScalarRegisters := fun st r q v =>
  ⟨if_pos rfl, setS_zero st v, s_setS_same st r v, s_setS_other st r q v, definedOp_salu_reserved⟩

/-- Settles O1: each row's operation, and the registers it reads and writes. -/
theorem scalarArithmetic : Obligations.ScalarArithmetic := ⟨saluOnRegisters, saluOnImmediates, scalarRegisters⟩

end Sys2Proof.Machine

/-! NOP, jumps, branches and loops (R163, R169, R170). -/

namespace Sys2Proof.Machine

/-- Every branch of Table 7.4 tests what its row says. -/
theorem exec_branchRow : ∀ r ∈ branchRows, ∃ c : BitVec 32 → BitVec 32 → Bool, (∀ a b, c a b = true ↔ r.2.2 a b) ∧
    ∀ k f s, exec (r.1 k f) s = liftDev (fun d => d.branch k r.2.1 f c) s := by
  simp only [branchRows, List.forall_mem_cons]
  exact ⟨⟨fun a b => a == b, fun _ _ => beq_iff_eq, fun _ _ _ => rfl⟩,
    ⟨fun a b => a != b, fun _ _ => bne_iff_ne, fun _ _ _ => rfl⟩,
    ⟨fun a b => a.slt b, by simp [BitVec.slt_eq_decide], fun _ _ _ => rfl⟩,
    ⟨fun a b => !a.slt b, by simp [BitVec.slt_eq_decide], fun _ _ _ => rfl⟩,
    ⟨fun a b => a.ult b, by simp [BitVec.ult_eq_decide], fun _ _ _ => rfl⟩,
    ⟨fun a b => !a.ult b, by simp [BitVec.ult_eq_decide], fun _ _ _ => rfl⟩, nofun⟩

theorem branchesGoWhereTheySay : Says.BranchesGoWhereTheySay := by
  intro s k f id j
  refine ⟨fun hat henter => steps_of_next rfl hat rfl rfl henter, fun hat henter => makes_of_jump rfl hat rfl henter,
    fun r hr hat => ?_⟩
  obtain ⟨c, hc, harm⟩ := exec_branchRow r hr
  exact ⟨fun htaken henter => makes_of_jump (harm k f s) hat (if_pos ((hc _ _).2 htaken)) henter,
    fun hnot henter => steps_of_next (harm k f s) hat (if_neg (mt (hc _ _).1 hnot)) rfl henter⟩

/-! ## Entering loops -/

section
variable (d : Dev) (id k count stop : Nat) (j : Job)

theorem ranTo_loop_backwards (h : stop ≤ (d.stitch k).pc) :
    d.ranTo id j k (d.stitch k) (.loop (d.stitch k) count stop) = d.stitchFault id j k 2 (d.stitch k).pc := if_pos h

variable (hforwards : (d.stitch k).pc < stop)
include hforwards

theorem ranTo_loop_none (hcount : count = 0) (henter : (d.stitch k).canEnter (afterPc stop (d.stitch k).loops).1) :
    d.ranTo id j k (d.stitch k) (.loop (d.stitch k) count stop) = d.wentTo id j k (d.stitch k) (afterPc stop (d.stitch k).loops) := by
  simp only [Dev.ranTo, if_neg (Nat.not_le.2 hforwards), if_pos hcount, enterPc_enters _ _ _ _ _ _ _ henter]
  rfl

variable (hcount : 0 < count)
include hcount

theorem ranTo_loop_tooDeep (hfull : 4 ≤ (d.stitch k).loops.length) :
    d.ranTo id j k (d.stitch k) (.loop (d.stitch k) count stop) = d.stitchFault id j k 6 (d.stitch k).pc := by
  simp only [Dev.ranTo, if_neg (Nat.not_le.2 hforwards), if_neg (Nat.ne_of_gt hcount), if_pos hfull]

theorem ranTo_loop_entered (hroom : (d.stitch k).loops.length < 4) (henter : (d.stitch k).canEnter ((d.stitch k).pc + 1)) :
    d.ranTo id j k (d.stitch k) (.loop (d.stitch k) count stop) = d.wentTo id j k (d.stitch k)
      ((d.stitch k).pc + 1, { start := (d.stitch k).pc, stop := stop, left := count - 1 } :: (d.stitch k).loops) := by
  simp only [Dev.ranTo, if_neg (Nat.not_le.2 hforwards), if_neg (Nat.ne_of_gt hcount), if_neg (Nat.not_le.2 hroom),
    enterPc_enters _ _ _ _ _ _ _ henter]
  rfl

end

theorem exec_loopRow : ∀ r ∈ loopRows, ∀ k f s,
    exec (r.1 k f) s = liftDev (fun d => d.stitchRun k 0 r.2.1 f fun st => .loop st (r.2.2 st f) (immTarget f)) s := by
  simp only [loopRows, List.forall_mem_cons]
  exact ⟨fun _ _ _ => rfl, fun _ _ _ => rfl, nofun⟩

theorem loopsEnterTheirBody : Says.LoopsEnterTheirBody := by
  intro r hr s k f id j st n hat
  have hmakes := fun d => makes_stitchRun (d := d) (exec_loopRow r hr k f s) hat
  exact ⟨fun hback => hmakes _ (ranTo_loop_backwards _ _ _ _ _ _ hback),
    fun hfor hnone henter => hmakes _ (ranTo_loop_none _ _ _ _ _ _ hfor hnone henter),
    fun hfor hsome hfull => hmakes _ (ranTo_loop_tooDeep _ _ _ _ _ _ hfor hsome hfull),
    fun hfor hsome hroom henter => hmakes _ (ranTo_loop_entered _ _ _ _ _ _ hfor hsome hroom henter)⟩

/-! ## Going round them -/

section
variable (pc : Nat) (l : LoopRec) (r : List LoopRec)

theorem afterPc_within (h : pc ≠ l.stop) : afterPc pc (l :: r) = (pc + 1, l :: r) := by
  rw [afterPc, if_pos h]

theorem afterPc_again (h : pc = l.stop) (hleft : 0 < l.left) : afterPc pc (l :: r) = (l.start + 1, { l with left := l.left - 1 } :: r) := by
  rw [afterPc, if_neg (not_not.2 h), if_pos hleft]

theorem afterPc_over (h : pc = l.stop) (hleft : l.left = 0) : afterPc pc (l :: r) = afterPc pc r := by
  rw [afterPc, if_neg (not_not.2 h), if_neg (Nat.not_lt.2 hleft.le)]

end

theorem inBody_iff (l : LoopRec) (t : Nat) : l.inBody t = true ↔ l.start < t ∧ t ≤ l.stop := by
  simp [LoopRec.inBody]

theorem loopsAt_inside (t : Nat) (ls : List LoopRec) (h : ∀ x ∈ ls, x.start < t ∧ t ≤ x.stop) : loopsAt t ls = ls := by
  rw [loopsAt, List.takeWhile_eq_self_iff.2 fun x hx => (inBody_iff x t).2 (h x (List.mem_reverse.1 hx)), List.reverse_reverse]

/-- The loops outside the first one that the target leaves, counted from the outermost, stay. -/
theorem loopsAt_leaves (t : Nat) (inner outer : List LoopRec) (l : LoopRec) (houter : ∀ x ∈ outer, x.start < t ∧ t ≤ x.stop)
    (hleft : ¬ (l.start < t ∧ t ≤ l.stop)) : loopsAt t (inner ++ l :: outer) = outer := by
  have hin : ∀ x ∈ outer.reverse, x.inBody t = true := fun x hx => (inBody_iff x t).2 (houter x (List.mem_reverse.1 hx))
  have hout : ¬ l.inBody t = true := mt (inBody_iff l t).1 hleft
  simp [loopsAt, List.takeWhile_append_of_pos hin, hout]

theorem loopsRepeatTheirBody : Says.LoopsRepeatTheirBody := fun pc l r =>
  ⟨rfl, afterPc_within pc l r, afterPc_again pc l r, afterPc_over pc l r,
    fun t inner outer => loopsAt_leaves t inner outer l, loopsAt_inside⟩

/-- Settles O2: where NOP, jumps, branches and loops go, and the loops that stay active. -/
theorem controlFlow : Obligations.ControlFlow := ⟨branchesGoWhereTheySay, loopsEnterTheirBody, loopsRepeatTheirBody⟩

end Sys2Proof.Machine

/-! Loads and stores of the data store (R172). -/

namespace Sys2Proof.Machine

/-! ## At an effective address -/

theorem ea_eq (st : Stitch) (f : StitchFields) : st.ea f = ((st.s f.src1).toNat + (f.imm.extractLsb' 0 15).toNat) % 2 ^ 32 := by
  have hoffset : ((f.imm.extractLsb' 0 15).setWidth 32).toNat = (f.imm.extractLsb' 0 15).toNat :=
    BitVec.toNat_setWidth_of_le (by decide)
  rw [Stitch.ea, BitVec.toNat_add, hoffset]

section
variable {i : Instr} {s : State} {k minor align n id : Nat} {f : StitchFields} {j : Job} {op : StitchFields → Nat → Stitch → Stitch}
  (harm : exec i s = liftDev (fun d => d.local_ k minor f align false fun st a => op f a st) s) (hat : AtInstr s.dev k 2 minor f id j)
include harm hat

/-- An access of `n` bytes that is aligned and ends within the store completes. -/
theorem steps_local (hn : (if minor = 2 || minor = 3 then 128 else 1) = n) (halign : (s.dev.stitch k).ea f % align = 0)
    (hend : (s.dev.stitch k).ea f + n ≤ 32768) (hcode : (op f ((s.dev.stitch k).ea f) (s.dev.stitch k)).code = (s.dev.stitch k).code)
    (henter : (s.dev.stitch k).canEnter (s.dev.stitch k).after.1) :
    Steps i s id j k (op f ((s.dev.stitch k).ea f) (s.dev.stitch k)) := by
  have hpos : 0 < n := by
    rw [← hn]
    split <;> decide
  have hlow : ¬ 32768 ≤ (s.dev.stitch k).ea f := by omega
  refine steps_of_next harm hat ?_ hcode henter
  simp only [hn, halign, hlow, Nat.not_lt.2 hend]
  rfl

theorem makes_local_outside (h : 32768 ≤ (s.dev.stitch k).ea f ∨ (s.dev.stitch k).ea f % align ≠ 0) :
    Makes i s (s.dev.stitchFault id j k 3 (s.dev.stitch k).pc) := by
  refine makes_of_fault harm hat ?_
  rcases h with h | h <;> simp [h]

end

/-! ## The rows of Table 7.6 -/

theorem setQuarter_code (st : Stitch) (r : BitVec 5) (q : Nat) (bs : List Byte) : (st.setQuarter r q bs).code = st.code := setV_code ..

theorem exec_lslRow : ∀ r ∈ lslRows, ∀ k f s, lslFits r.2.1 f →
    exec (r.1 k f) s = liftDev (fun d => d.local_ k r.2.1 f r.2.2.1 false fun st a => r.2.2.2.2 f a st) s := by
  have hload : ∀ k minor f (op : Stitch → Nat → Stitch) s, f.dst.toNat ≤ 7 →
      liftDev (fun d => d.local_ k minor f 32 (badV f.dst) op) s = liftDev (fun d => d.local_ k minor f 32 false op) s :=
    fun k minor f op s h => by rw [badV_eq_false h]
  have hstore : ∀ k minor f (op : Stitch → Nat → Stitch) s, f.src2.toNat ≤ 7 →
      liftDev (fun d => d.local_ k minor f 32 (badV f.src2) op) s = liftDev (fun d => d.local_ k minor f 32 false op) s :=
    fun k minor f op s h => by rw [badV_eq_false h]
  simp only [lslRows, List.forall_mem_cons]
  exact ⟨fun _ _ _ _ => rfl, fun _ _ _ _ => rfl, fun k f s hfit => hload k 2 f _ s (hfit.1 (.inl rfl)),
    fun k f s hfit => hstore k 3 f _ s (hfit.2 (.inl rfl)), fun k f s hfit => hload k 4 f _ s (hfit.1 (.inr rfl)),
    fun k f s hfit => hstore k 5 f _ s (hfit.2 (.inr rfl)), fun _ _ _ _ => rfl, fun _ _ _ _ => rfl, nofun⟩

theorem lslRow_size : ∀ r ∈ lslRows, (if r.2.1 = 2 || r.2.1 = 3 then 128 else 1) = r.2.2.2.1 := by
  simp [lslRows]

theorem lslRow_code : ∀ r ∈ lslRows, ∀ f a st, (r.2.2.2.2 f a st).code = st.code := by
  simp [lslRows, setQuarter_code]

theorem loadsAndStores : Says.LoadsAndStores := by
  intro r hr s k f id j st ea hat hfit
  have harm := exec_lslRow r hr k f s hfit
  have hea : ea = st.ea f := (ea_eq st f).symm
  clear_value ea
  subst hea
  exact ⟨fun halign hend henter => steps_local harm hat (lslRow_size r hr) halign hend (lslRow_code r hr f _ st) henter,
    fun hout => makes_local_outside harm hat hout⟩

/-! ## The bytes of the store -/

/-- A byte of a table after a run of bytes is written to it. -/
theorem tgetD_foldl_tput (bs : List Byte) (t : Tbl Byte) (a m c : Nat) :
    tgetD ((bs.zipIdx m).foldl (fun t x => tput t (a + x.2) x.1) t) c 0 =
      if a + m ≤ c ∧ c < a + m + bs.length then bs.getD (c - (a + m)) 0 else tgetD t c 0 := by
  induction bs generalizing t m with
  | nil => simp only [List.zipIdx_nil, List.foldl_nil, List.length_nil]; rw [if_neg (by omega)]
  | cons b bs ih =>
    rw [List.zipIdx_cons, List.foldl_cons, ih, tgetD_tput, List.length_cons]
    by_cases hfirst : c = a + m
    · subst hfirst
      rw [if_neg (by omega), if_pos rfl, if_pos (by omega), Nat.sub_self, List.getD_cons_zero]
    · rw [if_neg hfirst]
      by_cases hin : a + m ≤ c ∧ c < a + m + (bs.length + 1)
      · rw [if_pos (by omega), if_pos hin, show c - (a + m) = c - (a + (m + 1)) + 1 by omega, List.getD_cons_succ]
      · rw [if_neg (by omega), if_neg hin]

section
variable (st : Stitch) (a c : Nat) (bs : List Byte)

theorem ds_store : tgetD (st.store a bs).ds c 0 = if a ≤ c ∧ c < a + bs.length then bs.getD (c - a) 0 else tgetD st.ds c 0 :=
  tgetD_foldl_tput bs st.ds a 0 c

theorem load_store_same : (st.store a bs).load a bs.length = bs := by
  refine List.ext_getElem (by simp [Stitch.load]) fun i hi hlen => ?_
  simp only [Stitch.load, List.getElem_map, List.getElem_range]
  rw [ds_store, if_pos (by omega), Nat.add_sub_cancel_left, List.getD_eq_getElem _ _ hlen]

theorem load_store_outside (n : Nat) (h : c + n ≤ a ∨ a + bs.length ≤ c) : (st.store a bs).load c n = st.load c n := by
  refine List.map_congr_left fun i hi => ?_
  have hi : i < n := List.mem_range.1 hi
  rw [ds_store, if_neg (by omega)]

end

theorem dataStoreHoldsWhatIsStored : Says.DataStoreHoldsWhatIsStored := fun st a n c bs =>
  ⟨load_store_same st a bs, load_store_outside st a c bs n⟩

/-- Settles O3: each access at its effective address, and the bytes it reads or writes. -/
theorem loadsAndStoresMoveBytes : Obligations.LoadsAndStoresMoveBytes := ⟨loadsAndStores, dataStoreHoldsWhatIsStored⟩

end Sys2Proof.Machine

/-! The SYNC instructions (R184). -/

namespace Sys2Proof.Machine

section
variable (d : Dev) (id k : Nat) (j : Job)

theorem drainRun_empty (h : ∀ dir, dir < 4 → d.chan (4 * k + dir) = []) :
    d.drainRun id j k = d.ranTo id j k (d.stitch k) (.next (d.stitch k)) := by
  have hall : ((List.range 4).all fun dir => (d.chan (chanKey k dir)).isEmpty) = true :=
    List.all_eq_true.2 fun dir hdir => List.isEmpty_iff.2 (h dir (List.mem_range.1 hdir))
  rw [Dev.drainRun, if_pos hall]

theorem drainRun_waits (h : ∃ dir, dir < 4 ∧ d.chan (4 * k + dir) ≠ []) :
    d.drainRun id j k = d.setStitch k fun _ => { d.stitch k with run := .blocked } := by
  obtain ⟨dir, hdir, hentry⟩ := h
  have hnot : ¬ ((List.range 4).all fun dir => (d.chan (chanKey k dir)).isEmpty) = true := fun hall =>
    hentry (List.isEmpty_iff.1 (List.all_eq_true.1 hall dir (List.mem_range.2 hdir)))
  rw [Dev.drainRun, if_neg hnot]
  rfl

end

/-- Settles O8: HALT and a DRAIN that waits end as the stitch's state says; every other one completes. -/
theorem syncInstructions : Obligations.SyncInstructions := by
  intro s k f id j st
  refine ⟨fun hat => makes_stitchRun rfl hat rfl, fun henter => ⟨?_, ?_, ?_, ?_, ?_, ?_⟩,
    fun hat hentry => makes_stitchReach rfl hat (drainRun_waits _ _ _ _ hentry)⟩
  · exact fun hat => steps_of_reach rfl hat rfl (setS_code ..) henter
  · exact fun hat => steps_of_reach rfl hat rfl (setS_code ..) henter
  · exact fun hat => steps_of_next rfl hat rfl (setS_code st f.dst (stickyFlags st.sat st.nanLost)) henter
  · exact fun hat hempty => steps_of_reach rfl hat (drainRun_empty _ _ _ _ hempty) rfl henter
  · exact fun hat => steps_of_next rfl hat rfl rfl henter
  · exact fun hat => steps_of_next rfl hat rfl (setS_code ..) henter

end Sys2Proof.Machine

/-! The MAC instructions (R151, R176 to R180). -/

namespace Sys2Proof.Machine

theorem weightSets : Says.WeightSets := by
  intro s k f id j st henter
  refine ⟨fun hat hpair => ?_, fun hat hpair => ?_, fun w hat hv hrows => ?_, fun hat hv => ?_, fun hat hfull => ?_,
    fun hat hfull => ?_⟩
  · exact steps_of_next rfl hat (if_neg (by rw [hpair]; decide)) rfl henter
  · exact makes_of_fault rfl hat (if_pos (by rw [hpair]; rfl))
  · refine steps_of_next rfl hat ((if_neg (by simp [badV_eq_false hv])).trans ?_) rfl henter
    rw [hrows]
  · exact steps_of_next rfl hat (if_neg (by simp [badV_eq_false hv])) rfl henter
  · exact steps_of_next rfl hat (if_neg (by simp [st, hfull])) rfl henter
  · exact makes_of_fault rfl hat (if_pos (by simp [st, hfull]))

theorem setCol_code (st : Stitch) (tile t : Nat) (l : List (BitVec 32)) : (st.setCol tile t l).code = st.code := by
  unfold Stitch.setCol
  rfl

theorem macStep_code (st : Stitch) (f : StitchFields) : (st.macStep f).code = st.code := by
  unfold Stitch.macStep
  simp only [apply_ite Stitch.code, setCol_code, ite_self]

theorem accumulators : Says.Accumulators := by
  intro s k f id j st t col henter
  refine ⟨fun hat ha hv => ?_, fun hat ha => ?_, fun hat hv ha => ?_, fun hat hv ha => ?_, fun hat ha hv => ?_, fun hat hbad => ?_⟩
  · exact steps_of_next rfl hat (if_neg (by simp [badA_eq_false ha, badV_eq_false hv])) (macStep_code ..) henter
  · exact steps_of_next rfl hat (if_neg (by simp [badA_eq_false ha])) rfl henter
  · exact steps_of_next rfl hat (if_neg (by simp [badA_eq_false ha, badV_eq_false hv])) (setV_code ..) henter
  · exact steps_of_next rfl hat (if_neg (by simp [badA_eq_false ha, badV_eq_false hv])) ((setCol_code ..).trans (setV_code ..)) henter
  · exact steps_of_next rfl hat (if_neg (by simp [badA_eq_false ha, badV_eq_false hv])) (setCol_code ..) henter
  · exact makes_of_fault rfl hat (if_pos (by simpa using hbad.imp badA_eq_true badV_eq_true))

/-- Settles O6: the weight sets, then the accumulators, each instruction by the operands it admits. -/
theorem multiplyAccumulate : Obligations.MultiplyAccumulate := ⟨weightSets, accumulators⟩

end Sys2Proof.Machine

/-! The VEC instructions (R155, R156, R181 to R183). -/

namespace Sys2Proof.Machine

/-! ## Lanes -/

theorem v_length (st : Stitch) (r : BitVec 5) : (st.v r).length = 32 := by
  simp [Stitch.v]

/-- What is done on pairs of lanes is done lane by lane. -/
theorem zip_map_lanes {n : Nat} (a b : List (BitVec 32)) (op : BitVec 32 → BitVec 32 → BitVec 32) (ha : a.length = n)
    (hb : b.length = n) :
    ((a.zip b).map fun p => op p.1 p.2) = (List.range n).map fun i => op (a.getD i 0) (b.getD i 0) := by
  refine List.ext_getElem (by simp [ha, hb]) fun i _ hi => ?_
  have hi : i < n := by simpa using hi
  simp [ha, hb, hi]

theorem zip3_lanes {n : Nat} (c a b : List (BitVec 32)) (op : BitVec 32 → BitVec 32 → BitVec 32 → BitVec 32) (hc : c.length = n)
    (ha : a.length = n) (hb : b.length = n) :
    zip3 c a b op = (List.range n).map fun i => op (c.getD i 0) (a.getD i 0) (b.getD i 0) := by
  refine List.ext_getElem (by simp [zip3, hc, ha, hb]) fun i _ hi => ?_
  have hi : i < n := by simpa using hi
  simp [zip3, hc, ha, hb, hi]

/-! ## Instructions on vector registers -/

section
variable {i : Instr} {s : State} {k minor id : Nat} {f : StitchFields} {j : Job}

section
variable {useB : Bool} {op : List (BitVec 32) → List (BitVec 32) → List (BitVec 32) → List (BitVec 32)}
  (harm : exec i s = liftDev (fun d => d.vec k minor f useB op) s) (hat : AtInstr s.dev k 6 minor f id j)
include harm hat

theorem steps_vec (hdst : f.dst.toNat ≤ 7) (hsrc1 : f.src1.toNat ≤ 7) (hsrc2 : useB = true → f.src2.toNat ≤ 7)
    (henter : (s.dev.stitch k).canEnter (s.dev.stitch k).after.1) :
    Steps i s id j k
      ((s.dev.stitch k).setV f.dst (op ((s.dev.stitch k).v f.dst) ((s.dev.stitch k).v f.src1) ((s.dev.stitch k).v f.src2))) := by
  refine steps_of_next harm hat (if_neg ?_) (setV_code ..) henter
  cases useB with
  | false => simp [badV_eq_false hdst, badV_eq_false hsrc1]
  | true => simp [badV_eq_false hdst, badV_eq_false hsrc1, badV_eq_false (hsrc2 rfl)]

theorem makes_vec_badField (hbad : 7 < f.dst.toNat ∨ 7 < f.src1.toNat ∨ useB = true ∧ 7 < f.src2.toNat) :
    Makes i s (s.dev.stitchFault id j k 2 (s.dev.stitch k).pc) := by
  refine makes_of_fault harm hat (if_pos ?_)
  rcases hbad with h | h | ⟨rfl, h⟩ <;> simp [badV_eq_true h]

end

/-- A conversion completes where its registers, its format and its rounding are legal. -/
theorem steps_conv {legal : Nat → Bool} {rnd : Bool} {op : Stitch → Stitch}
    (harm : exec i s = liftDev (fun d => d.vecConv k minor f legal rnd op) s) (hat : AtInstr s.dev k 6 minor f id j)
    (hdst : f.dst.toNat ≤ 7) (hsrc1 : f.src1.toNat ≤ 7) (hlegal : legal (immFmt f) = true) (hrnd : rnd = true → immRnd f ≠ 3)
    (hcode : (op (s.dev.stitch k)).code = (s.dev.stitch k).code) (henter : (s.dev.stitch k).canEnter (s.dev.stitch k).after.1) :
    Steps i s id j k (op (s.dev.stitch k)) :=
  steps_of_next harm hat (if_neg (by simpa [badV_eq_false hdst, badV_eq_false hsrc1, hlegal] using hrnd)) hcode henter

theorem makes_conv_illegal {legal : Nat → Bool} {rnd : Bool} {op : Stitch → Stitch}
    (harm : exec i s = liftDev (fun d => d.vecConv k minor f legal rnd op) s) (hat : AtInstr s.dev k 6 minor f id j)
    (hbad : legal (immFmt f) = false ∨ rnd = true ∧ immRnd f = 3) : Makes i s (s.dev.stitchFault id j k 2 (s.dev.stitch k).pc) := by
  refine makes_of_fault harm hat (if_pos ?_)
  rcases hbad with h | ⟨hrnd, h⟩
  · simp [h]
  · simp [hrnd, h]

end

/-! ## The rows of Table 7.11 -/

theorem exec_vec2Row : ∀ r ∈ vec2Rows, ∀ k f s,
    exec (r.1 k f) s = liftDev (fun d => d.vec k r.2.1 f true fun _ a b => (a.zip b).map fun p => r.2.2 p.1 p.2) s := by
  have hmask : (fun a b : BitVec 32 => if a.toInt < b.toInt then 0xFFFFFFFF#32 else 0#32) = fun a b => laneMask (a.slt b) := by
    funext a b
    simp [laneMask, BitVec.slt_eq_decide]
  simp only [vec2Rows, ← min32_eq, ← max32_eq, hmask, List.forall_mem_cons, List.not_mem_nil, false_imp_iff, implies_true,
    and_true]
  and_intros <;> exact fun _ _ _ => rfl

/-- A lane number or shift count is below 32, and stands for itself as a word. -/
theorem toNat_immLane (f : StitchFields) : (BitVec.ofNat 32 (immLane f)).toNat % 32 = immLane f := by
  have hlow : immLane f < 2 ^ 5 := (f.imm.extractLsb' 0 5).isLt
  rw [BitVec.toNat_ofNat]
  omega

theorem exec_vec1Row : ∀ r ∈ vec1Rows, ∀ k f s,
    exec (r.1 k f) s = liftDev (fun d => d.vec k r.2.1 f false fun _ a _ => a.map (r.2.2 (immLane f))) s := by
  have hshift : ∀ (k minor : Nat) (f : StitchFields) (s : State) (op : BitVec 32 → Nat → BitVec 32),
      liftDev (fun d => d.vec1 k minor f fun a => op a ((BitVec.ofNat 32 (immLane f)).toNat % 32)) s =
        liftDev (fun d => d.vec k minor f false fun _ a _ => a.map fun a => op a (immLane f)) s :=
    fun k minor f s op => by rw [toNat_immLane]; rfl
  simp only [vec1Rows, List.forall_mem_cons]
  exact ⟨fun _ _ _ => rfl, fun _ _ _ => rfl, fun _ _ _ => rfl, fun k f s => hshift k 0x11 f s fun a n => a <<< n,
    fun k f s => hshift k 0x12 f s fun a n => a >>> n, fun k f s => hshift k 0x13 f s fun a n => a.sshiftRight n,
    fun _ _ _ => rfl, nofun⟩

theorem exec_vec3Row : ∀ r ∈ vec3Rows, ∀ k f s,
    exec (r.1 k f) s = liftDev (fun d => d.vec k r.2.1 f true fun c a b => zip3 c a b r.2.2) s := by
  simp only [vec3Rows, List.forall_mem_cons]
  exact ⟨fun _ _ _ => rfl, fun _ _ _ => rfl, nofun⟩

theorem vectorLanes : Says.VectorLanes := by
  intro s k f id j st henter
  refine ⟨fun r hr hat => ⟨fun hdst hsrc1 hsrc2 => ?_, fun hbad => ?_⟩, fun r hr hat => ⟨fun hdst hsrc1 => ?_, fun hbad => ?_⟩,
    fun r hr hat hdst hsrc1 hsrc2 => ?_⟩
  · have hsteps := steps_vec (exec_vec2Row r hr k f s) hat hdst hsrc1 (fun _ => hsrc2) henter
    rwa [zip_map_lanes _ _ _ (v_length ..) (v_length ..)] at hsteps
  · exact makes_vec_badField (exec_vec2Row r hr k f s) hat (hbad.imp_right (Or.imp_right (And.intro rfl)))
  · have hsteps := steps_vec (exec_vec1Row r hr k f s) hat hdst hsrc1 nofun henter
    exact hsteps
  · exact makes_vec_badField (exec_vec1Row r hr k f s) hat (hbad.imp_right .inl)
  · have hsteps := steps_vec (exec_vec3Row r hr k f s) hat hdst hsrc1 (fun _ => hsrc2) henter
    rwa [zip3_lanes _ _ _ _ (v_length ..) (v_length ..) (v_length ..)] at hsteps

theorem lanesAndScalars : Says.LanesAndScalars := by
  intro s k f id j st n a henter
  refine ⟨fun hat hdst => ?_, fun hat hdst => ?_, fun hat hsrc1 => ?_, fun hat hsrc1 => ?_, fun hat hsrc1 => ?_⟩
  · exact steps_of_next rfl hat (if_neg (by simp [badV_eq_false hdst])) (setV_code ..) henter
  · exact steps_of_next rfl hat (if_neg (by simp [badV_eq_false hdst])) (setV_code ..) henter
  · exact steps_of_next rfl hat (if_neg (by simp [badV_eq_false hsrc1])) (setS_code ..) henter
  · exact steps_of_next rfl hat (if_neg (by simp [badV_eq_false hsrc1])) (setS_code ..) henter
  · exact steps_of_next rfl hat (if_neg (by simp [badV_eq_false hsrc1])) (setS_code ..) henter

/-! ## Conversions -/

section
variable (st : Stitch) (f : StitchFields)

theorem cvt_code : (st.cvt f).code = st.code := by
  rw [Stitch.cvt, setV_code]

theorem unpk_code : (st.unpk f).code = st.code := by
  rw [Stitch.unpk, setV_code]

theorem qblk_code : (st.qblk f).code = st.code := (setS_code ..).trans (setV_code ..)

end

theorem conversions : Says.Conversions := by
  intro s k f id j st fmt rnd henter hdst hsrc1
  refine ⟨fun hat => ⟨fun h => ?_, fun h => ?_⟩, fun hat => ⟨fun h => ?_, fun h => ?_⟩,
    fun hat => ⟨fun h => ?_, fun h => ?_⟩, fun hat => ?_⟩
  · exact steps_conv (op := fun st => st.cvt f) rfl hat hdst hsrc1 (decide_eq_true h.1) (fun _ => h.2) (cvt_code ..) henter
  · exact makes_conv_illegal rfl hat (h.imp (fun h => decide_eq_false (Nat.not_le.2 h)) (And.intro rfl))
  · have hlegal : immFmt f ≤ 6 ∨ immFmt f = 8 := h
    exact steps_conv (op := fun st => st.unpk f) rfl hat hdst hsrc1 (by simpa using hlegal) nofun (unpk_code ..) henter
  · refine makes_conv_illegal rfl hat (.inl ?_)
    have hbad : immFmt f = 7 ∨ 8 < immFmt f := h
    simp only [Bool.or_eq_false_iff, decide_eq_false_iff_not, beq_eq_false_iff_ne]
    omega
  · have hlegal : immFmt f = 0 ∨ immFmt f = 3 ∨ immFmt f = 4 ∨ immFmt f = 5 := h.1
    exact steps_conv (op := fun st => st.qblk f) rfl hat hdst hsrc1 (by simpa [or_assoc] using hlegal) (fun _ => h.2)
      (qblk_code ..) henter
  · exact makes_conv_illegal rfl hat (.inr ⟨rfl, h⟩)
  · refine steps_of_next rfl hat ((if_neg (by simp [badV_eq_false hdst, badV_eq_false hsrc1])).trans ?_) ?_ henter
    · simp only [List.map_map, List.any_map, Function.comp_def, st]
    · simp only [setV_code, st]

/-- Settles O7: the rows that work lane by lane, those between lanes and scalars, and the conversions. -/
theorem vectorInstructions : Obligations.VectorInstructions := ⟨vectorLanes, lanesAndScalars, conversions⟩

end Sys2Proof.Machine

/-! The course buses (R140, R174): an instruction that waits for its slot, and the slot that moves its bytes. -/

namespace Sys2Proof.Machine

/-! ## Waiting for a slot -/

theorem exec_strRow : ∀ r ∈ strRows, r.2.2 = decide (r.2.1 = 0) ∧
    ∀ k f s, exec (r.1 k f) s = liftDev (fun d => d.strRun k r.2.1 f) s := by
  simp only [strRows, List.forall_mem_cons]
  exact ⟨⟨rfl, fun _ _ _ => rfl⟩, ⟨rfl, fun _ _ _ => rfl⟩, ⟨rfl, fun _ _ _ => rfl⟩, ⟨rfl, fun _ _ _ => rfl⟩, nofun⟩

section
variable {d : Dev} {k minor id n : Nat} {f : StitchFields} {j : Job} {w : Bool} (hat : AtInstr d k 4 minor f id j)
  (hpart : d.nextPart k = some (n, w)) (hsrc : minor = 0 → f.src1.toNat ≤ 7) (hdst : minor = 1 → f.dst.toNat ≤ 7)
  (hrows : minor = 2 → ((d.stitch k).shadow.loadRows f (zeros 128)).isSome)
include hat hpart hsrc hdst hrows

/-- A bus instruction with legal operands is weighed against the stitch's next part in its bus. -/
theorem strRun_legal : d.strRun k minor f = if w ≠ decide (minor = 0) then d.stitchFault id j k 5 (d.stitch k).pc
    else d.setStitch k fun st => { st with busWait := true, run := .blocked } := by
  have hgood : ((minor = 0 && badV f.src1) || (minor = 1 && badV f.dst) ||
      (minor = 2 && ((d.stitch k).shadow.loadRows f (zeros 128)).isNone)) = false := by
    simp only [Bool.or_eq_false_iff, Bool.and_eq_false_imp, decide_eq_true_eq]
    exact ⟨⟨fun h => badV_eq_false (hsrc h), fun h => badV_eq_false (hdst h)⟩, fun h => by simpa using hrows h⟩
  rw [Dev.strRun, stitchReach_at _ _ _ _ _ _ _ _ hat]
  simp only [hgood, hpart, ranTo_fault, Bool.false_eq_true, if_false]

end

theorem busInstructionsWaitForTheirSlot : Says.BusInstructionsWaitForTheirSlot := by
  intro r hr s k f id j n w st hat hpart hsrc hdst hrows
  obtain ⟨hwrites, harm⟩ := exec_strRow r hr
  have hrun := strRun_legal hat hpart hsrc hdst hrows
  rw [← hwrites] at hrun
  exact ⟨fun hmatch => makes_of_next (harm k f s) (hrun.trans (if_neg (not_not.2 hmatch))),
    fun hother => makes_of_next (harm k f s) (hrun.trans (if_pos hother))⟩

/-! ## Lanes as bytes and back -/

theorem lanesBytes_cons (x : BitVec 32) (l : List (BitVec 32)) : lanesBytes (x :: l) = natBytes 4 x.toNat ++ lanesBytes l := rfl

/-- The four bytes of a lane, read as a word. -/
theorem ofNat_field_lanesBytes (l : List (BitVec 32)) (i : Nat) (hi : i < l.length) :
    BitVec.ofNat 32 (field (lanesBytes l) (4 * i) 4) = l[i] := by
  induction l generalizing i with
  | nil => cases hi
  | cons x l ih =>
    have hlen : (natBytes 4 x.toNat).length = 4 := natBytes_length 4 x.toNat
    cases i with
    | zero =>
      have hslice : slice (lanesBytes (x :: l)) 0 4 = natBytes 4 x.toNat := by
        have hmiddle := slice_middle [] (natBytes 4 x.toNat) (lanesBytes l)
        rwa [hlen] at hmiddle
      rw [field, Nat.mul_zero, hslice, leNat_natBytes, Nat.mod_eq_of_lt (show x.toNat < 256 ^ 4 from x.isLt)]
      simp
    | succ i =>
      have hslice : slice (lanesBytes (x :: l)) (4 * (i + 1)) 4 = slice (lanesBytes l) (4 * i) 4 := by
        simp only [slice, lanesBytes_cons, List.length_append, hlen]
        rw [show 4 * (i + 1) = 4 + 4 * i by omega, Nat.add_sub_add_left, ← List.drop_drop, List.drop_left' hlen]
      rw [field, hslice, List.getElem_cons_succ]
      exact ih i (by simpa using hi)

theorem bytesLanes_lanesBytes (l : List (BitVec 32)) (h : l.length = 32) : bytesLanes (lanesBytes l) = l := by
  refine List.ext_getElem (by simp [bytesLanes, h]) fun i _ hi => ?_
  simp [bytesLanes, ofNat_field_lanesBytes l i hi]

/-! ## What a completed instruction, and renewing the ports' urgency, leave alone -/

theorem jobs_event (d : Dev) (e : Event) : (d.event e).jobs = d.jobs := by
  simp only [Dev.event, apply_ite Dev.jobs, jobs_bump, ite_self]

theorem jobs_sampleEntry (d : Dev) (e : Event) : (d.sampleEntry e).jobs = d.jobs := by
  simp only [Dev.sampleEntry, apply_ite Dev.jobs, jobs_event, jobs_bump, ite_self]

theorem jobs_tagStitch (d : Dev) (id : Nat) (j : Job) (k addr : Nat) (w : BitVec 64) : (d.tagStitch id j k addr w).jobs = d.jobs := by
  simp only [Dev.tagStitch, apply_ite Dev.jobs, jobs_sampleEntry, Dev.draw_snd, ite_self]

theorem jobs_handshook (d : Dev) (id : Nat) (w : BitVec 64) :
    (d.handshook id w).jobs = if handshakes w then (d.progress id).jobs else d.jobs := by
  unfold Dev.handshook
  split <;> split <;> rfl

section
variable (d : Dev) (id k : Nat) (j : Job) (st : Stitch) (p : Nat × List LoopRec)

theorem bus_wentTo (row : Nat) : (d.wentTo id j k st p).bus row = d.bus row := by
  rw [Dev.wentTo, Dev.bus, knit_tagStitch, Dev.handshook]
  split <;> split <;> rfl

theorem stitch_wentTo_other (l : Nat) (h : l ≠ k) : (d.wentTo id j k st p).stitch l = d.stitch l := by
  have hother : (d.setStitch k fun _ => { st with pc := p.1, loops := p.2, transfers := 0, busWait := false, run := .running }).stitch l =
      d.stitch l := by rw [Dev.stitch_setStitch, if_neg h]
  rw [Dev.wentTo, Dev.stitch, knit_tagStitch, Dev.handshook]
  split <;> split <;> exact hother

/-- A job is there after progress is noted for one exactly when it was before. -/
theorem isSome_job_progress (q : Nat) : ((d.progress q).job id).isSome = (d.job id).isSome := by
  rw [Dev.progress, Dev.job_setJob]
  split
  · next h => rw [h, Option.isSome_map]
  · rfl

theorem isSome_job_wentTo (q : Nat) : ((d.wentTo id j k st p).job q).isSome = (d.job q).isSome := by
  rw [Dev.wentTo, Dev.job, jobs_tagStitch, jobs_handshook]
  split
  · exact isSome_job_progress ..
  · rfl

/-- What counting and the ports' own records leave alone, renewing the urgency of a panel's ports does. -/
theorem setUrgencies_keeps {β : Type} (g : Dev → β) (hbump : ∀ (d : Dev) off lo, g (d.bump off lo) = g d)
    (hport : ∀ (d : Dev) n f, g (d.setSport n f) = g d) : g (d.setUrgencies j k) = g d := by
  refine forEach_keeps g _ (fun x d => ?_) _ _
  unfold Dev.setUrgency
  dsimp only
  simp only [apply_ite g, hbump, hport, ite_self]

theorem bus_bump (off lo row : Nat) : (d.bump off lo).bus row = d.bus row := by
  simp only [Dev.bus, knit_bump]

theorem bus_setUrgencies (n row : Nat) : (d.setUrgencies j n).bus row = d.bus row :=
  setUrgencies_keeps d n j (·.bus row) (fun d off lo => bus_bump d off lo row) (fun _ _ _ => rfl)

theorem stitch_setUrgencies (n l : Nat) : (d.setUrgencies j n).stitch l = d.stitch l :=
  setUrgencies_keeps d n j (·.stitch l) (fun d off lo => stitch_bump d off lo l) (fun _ _ _ => rfl)

end

/-! ## The slot -/

/-- What the slot's bytes make of a stitch whose bus instruction is `w`. -/
def Stitch.slotTaken (st : Stitch) (w : BitVec 64) (bs : List Byte) : Stitch :=
  if wordMinor w = 1 then st.setV (wordFields w).dst (bytesLanes bs)
  else if wordMinor w = 2 then { st with shadow := (st.shadow.loadRows (wordFields w) bs).getD st.shadow }
  else st

theorem slotTaken_code (st : Stitch) (w : BitVec 64) (bs : List Byte) : (st.slotTaken w bs).code = st.code := by
  unfold Stitch.slotTaken
  split
  · exact setV_code ..
  · split <;> rfl

theorem slotTaken_busNext (st : Stitch) (w : BitVec 64) (bs : List Byte) : (st.slotTaken w bs).busNext = st.busNext := by
  unfold Stitch.slotTaken
  split
  · unfold Stitch.setV
    rfl
  · split <;> rfl

theorem slotTaken_write (st : Stitch) (f : StitchFields) (bs : List Byte) : st.slotTaken (stitchWord 4 0 f) bs = st := by
  simp [Stitch.slotTaken, wordMinor_stitchWord]

/-- A reader's instruction by its minor code: BRD, BWLD, BSKIP. -/
theorem slotTaken_read (st x : Stitch) (minor : Nat) (f : StitchFields) (l : List (BitVec 32)) (hl : l.length = 32)
    (h : (minor = 1 ∧ x = st.setV f.dst l) ∨
      (minor = 2 ∧ ∃ rows, st.shadow.loadRows f (lanesBytes l) = some rows ∧ x = { st with shadow := rows }) ∨
      (minor = 3 ∧ x = st)) :
    st.slotTaken (stitchWord 4 minor f) (lanesBytes l) = x := by
  rcases h with ⟨rfl, rfl⟩ | ⟨rfl, rows, hrows, rfl⟩ | ⟨rfl, rfl⟩
  · simp only [Stitch.slotTaken, wordMinor_stitchWord 4 1 f (by decide), wordFields_stitchWord, bytesLanes_lanesBytes l hl, if_true]
  · simp [Stitch.slotTaken, wordMinor_stitchWord, wordFields_stitchWord, hrows]
  · simp [Stitch.slotTaken, wordMinor_stitchWord]

/-- The device in which a stitch's bus instruction has completed with the slot's bytes. -/
def Dev.slotDone (d : Dev) (id : Nat) (j : Job) (k : Nat) (bs : List Byte) : Dev :=
  let x := (d.stitch k).slotTaken ((d.stitch k).word (d.stitch k).pc) bs
  d.wentTo id j k { x with busNext := x.busNext + 1, busWait := false } (d.stitch k).after

section
variable (d : Dev) (id k : Nat) (j : Job) (bs : List Byte)

theorem strDone_enters (hjob : (d.job id).isSome = true) (henter : (d.stitch k).canEnter (d.stitch k).after.1) :
    d.strDone id j k bs = d.slotDone id j k bs := by
  have hthere : ¬ (d.job id).isNone = true := by simpa using Option.isSome_iff_ne_none.1 hjob
  rw [Dev.strDone, if_neg hthere]
  exact ranTo_next _ _ _ _ _ (slotTaken_code (d.stitch k) _ bs) henter

theorem stitch_slotDone : (d.slotDone id j k bs).stitch k =
    { (d.stitch k).goneOn ((d.stitch k).slotTaken ((d.stitch k).word (d.stitch k).pc) bs) with busNext := (d.stitch k).busNext + 1 } := by
  rw [Dev.slotDone, stitch_wentTo, slotTaken_busNext]
  rfl

end

theorem stitch_slotDone_other (d : Dev) (id k l : Nat) (j : Job) (bs : List Byte) (h : l ≠ k) :
    (d.slotDone id j k bs).stitch l = d.stitch l := stitch_wentTo_other _ _ _ _ _ _ _ h

theorem bus_slotDone (d : Dev) (id k row : Nat) (j : Job) (bs : List Byte) : (d.slotDone id j k bs).bus row = d.bus row := bus_wentTo ..

theorem isSome_job_slotDone (d : Dev) (id k : Nat) (j : Job) (bs : List Byte) (q : Nat) :
    ((d.slotDone id j k bs).job q).isSome = (d.job q).isSome := isSome_job_wentTo ..

/-- A bus whose token has passed to the next slot (R140). -/
def Bus.passed (b : Bus) : Bus := { b with token := (b.token + 1) % b.slots.length }

/-- The device in which the token of `row` has passed on, and the job there has made progress. -/
def Dev.tokenPassed (d : Dev) (row id : Nat) : Dev :=
  ({ d with knit := { d.knit with buses := tput d.knit.buses row (d.bus row).passed } } : Dev).progress id

theorem stitch_tokenPassed (d : Dev) (row id k : Nat) : (d.tokenPassed row id).stitch k = d.stitch k := rfl

theorem bus_tokenPassed (d : Dev) (row id : Nat) : (d.tokenPassed row id).bus row = (d.bus row).passed :=
  (tgetD_tput ..).trans (if_pos rfl)

theorem job_of_jobOfPanel {d : Dev} {p id : Nat} {j : Job} (h : d.jobOfPanel p = some (id, j)) : d.job id = some j := by
  unfold Dev.jobOfPanel at h
  split at h
  · cases h
  · obtain ⟨x, hx, hpair⟩ := Option.map_eq_some_iff.1 h
    cases hpair
    exact hx

/-- A stitch that waits in a bus instruction, with an instruction to go on at (R174). -/
abbrev Stitch.waitsForSlot (st : Stitch) : Prop := st.busWait = true ∧ st.run = .blocked ∧ st.canEnter st.after.1

/-- A stitch waits in its bus instruction, and drives the slot with the register it names. -/
theorem stitchDrives_waiting (d : Dev) (k : Nat) (h : (d.stitch k).waitsForSlot) :
    d.stitchDrives k = some (lanesBytes ((d.stitch k).v (wordFields ((d.stitch k).word (d.stitch k).pc)).src1)) := by
  obtain ⟨hwait, hrun, -⟩ := h
  exact if_pos (by simp [hwait, hrun])

theorem readerReady_waiting (d : Dev) (j : Job) (row b : Nat) (hb : b < 64) (h : (d.stitch (64 * row + b)).waitsForSlot) :
    d.readerReady j row b = true := by
  obtain ⟨hwait, hrun, -⟩ := h
  exact (if_pos hb).trans (by simp [hwait, hrun])

section
variable {d : Dev} {row a b id : Nat} {j : Job} {bs : List Byte} (ha : a < 64) (hb : b < 64)
  (hjob : d.jobOfPanel (row / 8) = some (id, j)) (hstage : j.stage = 2)
  (hslot : (d.bus row).slots[(d.bus row).token]? = some { writer := a, readers := [b] })
  (hdrives : d.stitchDrives (64 * row + a) = some bs) (hreader : (d.stitch (64 * row + b)).waitsForSlot)
include ha hb hjob hstage hslot hdrives hreader

/-- A slot between two stitches: the token passes on, and first the writer's instruction completes, then the reader's. -/
theorem busSlot_stitches (e : Dev)
    (he : ((d.tokenPassed row id).strDone id j (64 * row + a) bs).strDone id j (64 * row + b) bs = e) :
    d.busSlot row = if (e.job id).isNone then e else e.setUrgencies j (row / 8) := by
  have hrunning : (d.jobOfPanel (row / 8)).filter (·.2.stage == 2) = some (id, j) := by simp [hjob, hstage]
  have hready : d.readerReady j row b = true := readerReady_waiting d j row b hb hreader
  subst he
  simp only [Dev.busSlot, hrunning, hslot, hdrives, hready, if_pos ha, if_pos hb, Option.map_some, List.all_cons, List.all_nil,
    Bool.and_self, Bool.not_true, Bool.false_eq_true, if_false, forEach]
  rfl

variable (hab : a ≠ b) (hwriter : (d.stitch (64 * row + a)).waitsForSlot)
include hab hwriter

/-- Where both stitches wait, both instructions complete. -/
theorem busSlot_moves :
    d.busSlot row =
      (((d.tokenPassed row id).slotDone id j (64 * row + a) bs).slotDone id j (64 * row + b) bs).setUrgencies j (row / 8) := by
  obtain ⟨-, -, hwriterEnters⟩ := hwriter
  have hthere : ((d.tokenPassed row id).job id).isSome = true := by
    rw [Dev.tokenPassed, isSome_job_progress]
    exact Option.isSome_iff_exists.2 ⟨j, job_of_jobOfPanel hjob⟩
  have hfirst := strDone_enters (d.tokenPassed row id) id (64 * row + a) j bs hthere hwriterEnters
  have hkept : ((d.tokenPassed row id).slotDone id j (64 * row + a) bs).stitch (64 * row + b) = d.stitch (64 * row + b) :=
    stitch_slotDone_other _ _ _ _ _ _ (by omega)
  have hreaderEnters : (((d.tokenPassed row id).slotDone id j (64 * row + a) bs).stitch (64 * row + b)).canEnter
      (((d.tokenPassed row id).slotDone id j (64 * row + a) bs).stitch (64 * row + b)).after.1 := by
    rw [hkept]
    obtain ⟨-, -, henters⟩ := hreader
    exact henters
  have hthere1 := (isSome_job_slotDone (d.tokenPassed row id) id (64 * row + a) j bs id).trans hthere
  have hsecond := strDone_enters ((d.tokenPassed row id).slotDone id j (64 * row + a) bs) id (64 * row + b) j bs hthere1 hreaderEnters
  rw [busSlot_stitches ha hb hjob hstage hslot hdrives hreader _ ((congrArg (·.strDone id j (64 * row + b) bs) hfirst).trans hsecond)]
  refine if_neg ?_
  have hthere2 := (isSome_job_slotDone ((d.tokenPassed row id).slotDone id j (64 * row + a) bs) id (64 * row + b) j bs id).trans hthere1
  simpa using Option.isSome_iff_ne_none.1 hthere2

end

theorem busSlotMovesItsBytes : Says.BusSlotMovesItsBytes := by
  intro s row a b id j fa fb slots tok minor x w r ha hb hab hjob hstage hbus hslot hwwait hwrun hwword hwenter hrwait
    hrrun hrword hrenter hx
  have hwriter : w.waitsForSlot := ⟨hwwait, hwrun, hwenter⟩
  have hreader : r.waitsForSlot := ⟨hrwait, hrrun, hrenter⟩
  have hdrives : s.dev.stitchDrives (64 * row + a) = some (lanesBytes (w.v fa.src1)) := by
    rw [stitchDrives_waiting _ _ hwriter, hwword, wordFields_stitchWord]
  have hholds : (s.dev.bus row).slots[(s.dev.bus row).token]? = some { writer := a, readers := [b] } := by rwa [hbus]
  have hother : 64 * row + a ≠ 64 * row + b := by omega
  have hread : r.slotTaken (stitchWord 4 minor fb) (lanesBytes (w.v fa.src1)) = x := slotTaken_read r x minor fb _ (v_length ..) hx
  refine ⟨_, makes_of_next rfl (busSlot_moves ha hb hjob hstage hholds hdrives hreader hab hwriter), ?_, ?_, ?_⟩
  · rw [bus_setUrgencies, bus_slotDone, bus_slotDone, bus_tokenPassed, hbus]
    rfl
  · rw [stitch_setUrgencies, stitch_slotDone_other _ _ _ _ _ _ hother, stitch_slotDone, stitch_tokenPassed, hwword, slotTaken_write]
  · rw [stitch_setUrgencies, stitch_slotDone, stitch_slotDone_other _ _ _ _ _ _ hother.symm, stitch_tokenPassed, hrword, hread]

/-- Settles O5: bus instructions wait for their slot, and the slot that holds the token moves its bytes. -/
theorem busesMoveSlots : Obligations.BusesMoveSlots := ⟨busInstructionsWaitForTheirSlot, busSlotMovesItsBytes⟩

end Sys2Proof.Machine

/-! Contexts, their segments, and the panels' administration (R196 to R205, R462): what a descriptor's beginning leaves of what they read,
and then each descriptor by its checks. -/

namespace Sys2Proof.Machine

/-- An entry that is written anew counts as it did before, where the test does not see the change and no entry counts as none. -/
theorem any_tput_modified {α : Type} (t : Tbl α) (k : Nat) (f : α → α) (dflt : α) (p : Nat × α → Bool)
    (hsame : ∀ v, p (k, f v) = p (k, v)) (hdflt : p (k, dflt) = false) :
    (tput t k (f (tgetD t k dflt))).any p = t.any p := by
  induction t with
  | nil => simp [tput, tgetD, tget, hsame, hdflt]
  | cons e r ih =>
    obtain ⟨a, v⟩ := e
    rcases Nat.lt_trichotomy k a with hlt | rfl | hgt
    · simp [tput, tgetD, tget, hlt, Nat.ne_of_lt hlt, hsame, hdflt]
    · simp [tput, tgetD, tget, hsame]
    · simpa [tput, tgetD, tget, Nat.not_lt_of_gt hgt, Nat.ne_of_gt hgt] using congrArg (p (a, v) || ·) ih

/-- The mark of a begun descriptor is no part of what keeps its context busy (R206). -/
theorem busyCtx_claimed (x : Started) (idx : Nat) :
    (if x.idx = idx then { x with claimed := true } else x).busyCtx = x.busyCtx := by split <;> rfl

/-- Beginning a descriptor keeps no context busy and frees none. -/
@[simp] theorem begun_ctxBusy (d : Dev) (ring idx c : Nat) : (d.begun ring idx).ctxBusy c = d.ctxBusy c := by
  unfold Dev.ctxBusy
  refine congrArg (d.jobs.jobs.any (·.2.ctx == c) || ·) (any_tput_modified d.host.rings ring
    (fun r => { r with started := r.started.map fun x => if x.idx = idx then { x with claimed := true } else x }) {} _ (fun r => ?_) ?_)
  · simp [Function.comp_def, busyCtx_claimed]
  · simp

/-- Where nothing may be chosen, a free choice chooses nothing, and advances the counter of free values. -/
theorem choose_none (d : Dev) (n : Nat) (ok : Nat → Bool) (hn : 0 < n) (h : ∀ i, i < n → ok i = false) :
    d.choose n ok = (none, { d with free := d.free + 1 }) := by
  have hsearch (start k : Nat) : cyclicFrom ok n start k = none := by
    induction k with
    | zero => rfl
    | succ k ih => simp [cyclicFrom, h _ (Nat.mod_lt _ hn), ih]
  rw [Dev.choose, hsearch]

section
variable (d : Dev) (ring idx : Nat) (b : List Byte) (free : Bool) (x : Context) (f : Context → Dev → Dev)

/-- R196: its owner works on a context that no job uses, or that may be in use. -/
theorem withCtx_owned (hctx : d.ctx (dCtx b) = some x) (howner : x.owner = d.ringOwner ring)
    (hidle : (free && d.ctxBusy (dCtx b)) = false) : d.withCtx ring idx b free f = f x d := by
  simp [Dev.withCtx, hctx, howner, hidle]

theorem withCtx_foreign (hctx : d.ctx (dCtx b) = some x) (howner : x.owner ≠ d.ringOwner ring) :
    d.withCtx ring idx b free f = d.completeDesc ring idx stDenied 5 0 0 := by
  simp [Dev.withCtx, hctx, howner]

theorem withCtx_busy (hctx : d.ctx (dCtx b) = some x) (howner : x.owner = d.ringOwner ring) (hbusy : d.ctxBusy (dCtx b) = true) :
    d.withCtx ring idx b true f = d.completeDesc ring idx stDenied 0x34 0 0 := by
  simp [Dev.withCtx, hctx, howner, hbusy]

end

/-! ## Contexts -/

/-- R196, R215: who may not have a context, then one that is free, then none. -/
theorem contextsAreCreated : Says.ContextsAreCreated := by
  intro s ring idx b hready hadmits
  refine ⟨fun houtside => ?_, fun hinside hfree => ?_, fun hinside hfull => ?_⟩
  · exact makes_gatedDesc _ rfl hready hadmits (if_pos houtside)
  · have hsome : ∃ c, c < 1024 ∧ ((s.dev.begun ring idx).ctx c).isNone = true := by simpa using hfree
    obtain ⟨c, hc, hnone, hchoose⟩ := choose_finds (s.dev.begun ring idx) 1024 (fun i => ((s.dev.begun ring idx).ctx i).isNone) hsome
    refine ⟨c, hc, by simpa using hnone, makes_gatedDesc _ rfl hready hadmits ((if_neg (by simp [hinside])).trans ?_)⟩
    rw [hchoose]
    rfl
  · have hnone : ∀ i, i < 1024 → ((s.dev.begun ring idx).ctx i).isNone = false :=
      fun i hi => Option.isNone_eq_false_iff.2 (Option.isSome_iff_ne_none.2 (hfull i hi))
    refine makes_gatedDesc _ rfl hready hadmits ((if_neg (by simp [hinside])).trans ?_)
    rw [choose_none _ 1024 _ (by decide) hnone]
    rfl

/-- R196, R199: whose the context is, and whether a job uses it. -/
theorem contextsOfTheirOwner : Says.ContextsOfTheirOwner := by
  intro s ring idx b x d hctx hadmits
  refine ⟨fun howner hidle => ⟨fun hready => ?_, fun hready => ?_⟩, fun howner hready => ?_,
    fun hother => ⟨fun hready => ?_, fun hready => ?_, fun hready => ?_⟩, fun howner hbusy hready => ?_⟩
  · exact makes_gatedDesc _ rfl hready hadmits (withCtx_owned d ring idx b true x _ hctx howner (by simpa [d] using hidle))
  · exact makes_gatedDesc _ rfl hready hadmits (withCtx_owned d ring idx b true x _ hctx howner (by simpa [d] using hidle))
  · exact makes_gatedDesc _ rfl hready hadmits (withCtx_owned d ring idx b false x _ hctx howner rfl)
  · exact makes_gatedDesc _ rfl hready hadmits (withCtx_foreign d ring idx b true x _ hctx hother)
  · exact makes_gatedDesc _ rfl hready hadmits (withCtx_foreign d ring idx b true x _ hctx hother)
  · exact makes_gatedDesc _ rfl hready hadmits (withCtx_foreign d ring idx b false x _ hctx hother)
  · exact makes_gatedDesc _ rfl hready hadmits (withCtx_busy d ring idx b x _ hctx howner (by simpa [d] using hbusy))

/-! ## Segments -/

section
variable {d : Dev} {ring idx : Nat} {b : List Byte}

theorem segSweep_shared (hattr : (segOf b).attr = 0) :
    d.segSweep ring idx b = (d.repCtx ring b 0).completeDesc ring idx stDone 0 0 0 := by
  simp [Dev.segSweep, Dev.privateSwept, hattr]

theorem segSweep_over (hattr : (segOf b).attr = 1) (hswept : d.sweepAll.privateSwept (segOf b) = true) :
    d.segSweep ring idx b = (d.sweepAll.repCtx ring b 0).completeDesc ring idx stDone 0 0 0 := by
  simp [Dev.segSweep, hattr, hswept]

theorem segSweep_waits (hattr : (segOf b).attr = 1) (hswept : d.sweepAll.privateSwept (segOf b) = false) :
    d.segSweep ring idx b = d.sweepAll.unclaim ring idx := by
  simp [Dev.segSweep, hattr, hswept]

end

section
variable {d : Dev} {owner slot : Nat} {x : Context} {g : Segment}

/-- The first check of Table 8.2 on a segment's place. -/
theorem segRefused_misaligned (h : g.vbase % 65536 ≠ 0 ∨ g.poolBase % 65536 ≠ 0) :
    d.segRefused owner slot x g = some (stDenied, 0x20) := if_pos h

theorem segRefused_pastEnd (hv : g.vbase % 65536 = 0) (hp : g.poolBase % 65536 = 0)
    (h : 2 ^ 48 < g.vbase + g.length ∨ 0xFFFFF0000000 < g.poolBase + g.length) :
    d.segRefused owner slot x g = some (stDenied, 0x24) :=
  (if_neg (by omega)).trans (if_pos h)

theorem segRefused_overlaps (hv : g.vbase % 65536 = 0) (hp : g.poolBase % 65536 = 0) (hvend : g.vbase + g.length ≤ 2 ^ 48)
    (hpend : g.poolBase + g.length ≤ 0xFFFFF0000000)
    (h : ∃ e ∈ x.slots, e.1 ≠ slot ∧ e.2.vbase < g.vbase + g.length ∧ g.vbase < e.2.vbase + e.2.length) :
    d.segRefused owner slot x g = some (stDenied, 0x36) :=
  (if_neg (by omega)).trans ((if_neg (by omega)).trans (if_pos (by simpa [and_assoc] using h)))

/-- The checks of Table 8.2 read nothing that a descriptor's beginning changes. -/
theorem segRefused_begun (ring idx : Nat) : (d.begun ring idx).segRefused owner slot x g = d.segRefused owner slot x g := rfl

end

section
variable {s : State} {ring idx : Nat} {b : List Byte} {d : Dev} (hready : s.dev.ready ring idx 0x24 b)
include hready

/-- A SEG_SET whose segment stands in its slot goes on with the sweep. -/
theorem makes_segSet_again (hdone : s.dev.doneOf ring idx = 1) (h : (s.dev.begun ring idx).segSweep ring idx b = d) :
    Makes (.segSet ring idx) s d :=
  makes_of_next rfl ((withDesc_ready _ _ _ _ b _ hready).trans ((if_pos (by simpa using hdone)).trans h))

variable {x : Context} (hnew : s.dev.doneOf ring idx ≠ 1) (hadmits : admits s.dev ring false [4]) (hctx : s.dev.ctx (dCtx b) = some x)
  (howner : x.owner = s.dev.ringOwner ring) (hidle : s.dev.ctxBusy (dCtx b) = false)
include hnew hadmits hctx howner hidle

/-- A new SEG_SET of an idle context's owner comes to its work on the context. -/
theorem withDesc_segSet (again : List Byte → Dev → Dev) (act : List Byte → Context → Dev → Dev) :
    (s.dev.withDesc ring idx 0x24 fun b d => if d.doneOf ring idx = 1 then again b d
      else d.gated ring idx false [4] fun d => d.withCtx ring idx b true (act b)) = act b x (s.dev.begun ring idx) := by
  rw [withDesc_ready _ _ _ _ b _ hready, if_neg (by simpa using hnew), gated_admits _ _ _ _ _ _ (begun_admits _ _ _ _ _ hadmits),
    withCtx_owned (s.dev.begun ring idx) ring idx b true x _ hctx howner (by simpa using hidle)]

variable (hclamps : segClamps b = 0)
include hclamps

/-- A check of Table 8.2 that fails ends it with that check's status and detail. -/
theorem completes_segSet_refused (r : Nat × Nat) (hr : s.dev.segRefused (s.dev.ringOwner ring) (dSlot b) x (segOf b) = some r) :
    Completes (.segSet ring idx) s ring idx (s.dev.begun ring idx) r.1 r.2 0 0 := by
  refine makes_of_next rfl ((withDesc_segSet hready hnew hadmits hctx howner hidle _ _).trans ?_)
  simp only [hclamps, List.range_zero, List.foldl_nil, begun_ringOwner, segRefused_begun, hr]

/-- Past the checks the segment stands in its slot, and its sweep begins. -/
theorem makes_segSet_installed (hr : s.dev.segRefused (s.dev.ringOwner ring) (dSlot b) x (segOf b) = none)
    (h : ((((s.dev.begun ring idx).setCtx (dCtx b) { x with slots := tput x.slots (dSlot b) (segOf b) }).setPrivates).setDone ring idx 1
      []).segSweep ring idx b = d) : Makes (.segSet ring idx) s d := by
  refine makes_of_next rfl ((withDesc_segSet hready hnew hadmits hctx howner hidle _ _).trans ?_)
  simp only [hclamps, List.range_zero, List.foldl_nil, begun_ringOwner, segRefused_begun, hr, h]

end

/-- R197, R198: a new segment by the checks of Table 8.2, and one that stands in its slot by its sweep. -/
theorem segmentsAreSet : Says.SegmentsAreSet := by
  intro s ring idx b d g hready
  refine ⟨fun x d1 hnew hadmits hctx howner hidle hclamps hd1 => ?_, fun hdone hattr => ⟨fun hswept => ?_, fun hswept => ?_⟩⟩
  · have hrefused := completes_segSet_refused hready hnew hadmits hctx howner hidle hclamps
    have hinstalled (hr : s.dev.segRefused (s.dev.ringOwner ring) (dSlot b) x g = none) {e : Dev} (h : d1.segSweep ring idx b = e) :
        Makes (.segSet ring idx) s e :=
      makes_segSet_installed hready hnew hadmits hctx howner hidle hclamps hr (by rw [← h, hd1])
    refine ⟨fun hr => ⟨fun hattr => ?_, fun hattr hswept => ?_, fun hattr hswept => ?_⟩, hrefused, fun hbad => ?_,
      fun hv hp hbad => ?_, fun hv hp hvend hpend hbad => ?_⟩
    · exact hinstalled hr (segSweep_shared hattr)
    · exact hinstalled hr (segSweep_over hattr hswept)
    · exact hinstalled hr (segSweep_waits hattr hswept)
    · exact hrefused (stDenied, 0x20) (segRefused_misaligned hbad)
    · exact hrefused (stDenied, 0x24) (segRefused_pastEnd hv hp hbad)
    · exact hrefused (stDenied, 0x36) (segRefused_overlaps hv hp hvend hpend hbad)
  · exact makes_segSet_again hready hdone (segSweep_over hattr hswept)
  · exact makes_segSet_again hready hdone (segSweep_waits hattr hswept)

/-! ## Panels -/

/-- R205, R462: a store test tells its result, and changes neither the array nor the pool. -/
theorem panelTested_changes (d : Dev) (p : Nat) (pass : Bool) :
    (d.panelTested p pass).test.bistResult = (if pass then 1 else 2) ∧ (d.panelTested p pass).knit = d.knit ∧
      (d.panelTested p pass).pool = d.pool := by
  unfold Dev.panelTested
  obtain ⟨e, r, q, hlog⟩ := log_changes { d.draw.2 with test := { d.draw.2.test with
    bistResult := if pass then 1 else 2, bistFails := if pass then 0 else 1 + d.draw.1 % 0xFFFF } } 0x0921 0xFFF
    (if pass then 1 else 2) 0 p 0
  rw [hlog]
  exact ⟨rfl, rfl, rfl⟩

/-- R202, R205, R462: by the lease, the action and the panel's state, and a RETURN by the outcome of the store test. -/
theorem panelAdministration : Says.PanelAdministration := by
  intro s ring idx b pass d p kept hready hadmits haction
  refine ⟨fun hlease => ⟨fun hact hst => ?_, fun hact hst => ?_, fun hact hst => ?_, fun hact hst => ?_, fun t hact hst ht => ?_⟩,
    fun hlease => ?_⟩
  · refine makes_gatedDesc _ rfl hready hadmits ?_
    rcases hst with hidle | hoff
    · simp [hact, hlease, hidle, d, p, kept]
    · simp [hact, hlease, hoff, d, p, kept]
  · refine makes_gatedDesc _ rfl hready hadmits ?_
    rcases hst with hrunning | hdraining | hloading
    · simp [hact, hlease, hrunning, d, p, kept]
    · simp [hact, hlease, hdraining, d, p, kept]
    · simp [hact, hlease, hloading, d, p, kept]
  · exact makes_gatedDesc _ rfl hready hadmits (by simp [hact, hlease, hst, d, p, kept])
  · exact makes_gatedDesc _ rfl hready hadmits (by simp [hact, hlease, hst, d, p])
  · obtain ⟨hresult, hknit, hpool⟩ := panelTested_changes d p pass
    subst ht
    refine ⟨hresult, hknit, hpool, fun hpass => ?_, fun hfail => ?_⟩
    · exact makes_gatedDesc _ rfl hready hadmits (by simp [hact, hlease, hst, hpass, d, p])
    · exact makes_gatedDesc _ rfl hready hadmits (by simp [hact, hlease, hst, hfail, d, p])
  · exact makes_gatedDesc _ rfl hready hadmits (by simp [Nat.not_lt.2 haction, hlease, d])

/-- Settles O11: contexts by their owner and their use, segments by the checks of Table 8.2, panels by the lease and their state. -/
theorem contextsSegmentsPanels : Obligations.ContextsSegmentsPanels :=
  ⟨contextsAreCreated, contextsOfTheirOwner, segmentsAreSet, panelAdministration⟩

end Sys2Proof.Machine

/-! The movers as their steps read them: a mover that is given work or freed, and what each part of a step comes to (R235 to R239). -/

namespace Sys2Proof.Machine

@[simp] theorem work_setWork (d : Dev) (k : Nat) (w : MoverWork) : ((d.setWork k w).mover k).work = some w := by
  simp [Dev.setWork]

/-- A mover that has been let go of `w`: no invalidation waits for it, and neither its requests nor what a snoop returned for its step
stay. -/
def Dev.moverFreed (d : Dev) (k : Nat) (w : MoverWork) : Dev :=
  let e := ((d.moverAck k).dropMoverReqs k).setMover k fun _ => {}
  if w.srcKind = 0 then e.forgetRun (w.src + w.offset) w.stepLen else e

theorem work_moverFreed (d : Dev) (k : Nat) (w : MoverWork) : ((d.moverFreed k w).mover k).work = none := by
  have hset := Dev.mover_setMover_same ((d.moverAck k).dropMoverReqs k) k fun _ => {}
  unfold Dev.moverFreed
  split
  · exact congrArg Mover.work hset
  · exact congrArg Mover.work hset

/-- The work whose step has been written, at the next step (R238). -/
def MoverWork.stepped (w : MoverWork) : MoverWork :=
  { w with offset := w.offset + w.stepLen, dstDone := w.dstDone + w.stepLen, phase := 0, buffer := [], wrote := 0 }

section
variable {d : Dev} {k : Nat} {w : MoverWork} (hwork : (d.mover k).work = some w)
include hwork

/-! ## How a descriptor ends -/

theorem moverEnd_completes (st det res : Nat) :
    d.moverEnd k st det res = ((d.moverFreed k w).completeDesc w.ring w.idx st det res w.progress).moverAssign 32 := by
  simp only [Dev.moverEnd, hwork]
  rfl

theorem moverFail_ends (side st cause : Nat) :
    d.moverFail k side st cause = d.moverEnd k st (cause % 32768 + side * 32768) (w.sideAddr side) := by
  simp only [Dev.moverFail, hwork]

/-! ## The data of a step -/

theorem moverRead_pattern (hkind : w.kind = 1) :
    d.moverRead k = d.gotData k ((List.range w.stepLen).map fun i => (natBytes 8 w.src).getD ((w.offset + i) % 8) 0) := by
  simp only [Dev.moverRead, hwork, if_pos hkind]

section
variable (hkind : w.kind ≠ 1) {e : Dev}
include hkind

theorem moverRead_bytes {b : List Byte} (hread : d.readRun (some w.node) (w.src + w.offset) w.stepLen true = (.ok b, e)) :
    d.moverRead k = e.gotData k b := by
  simp only [Dev.moverRead, hwork, if_neg hkind, hread]

theorem moverRead_again {h : Nat} (hread : d.readRun (some w.node) (w.src + w.offset) w.stepLen true = (.again h, e)) :
    d.moverRead k = e.setWork k { w with retryAt := some (e.now + hintTicks h) } := by
  simp only [Dev.moverRead, hwork, if_neg hkind, hread]

theorem moverRead_fails {st det : Nat} (hread : d.readRun (some w.node) (w.src + w.offset) w.stepLen true = (.no st det, e)) :
    d.moverRead k = e.moverFail k 0 st det := by
  simp only [Dev.moverRead, hwork, if_neg hkind, hread]

end

/-- What has come is written; a host source needs its translation no longer (R248). -/
theorem gotData_writes (bs : List Byte) (hkind : w.kind ≠ 2) :
    d.gotData k bs = ((if w.isHost 0 = true ∧ w.isHost 1 = false then d.moverAck k else d).setWork k
      { w with phase := 2, buffer := bs, wrote := 0, parts := [] }).moverWrite k := by
  simp only [Dev.gotData, hwork, if_pos hkind, Bool.and_eq_true, Bool.not_eq_true']

/-! ## Where it is written -/

theorem moverWrite_host (x : Xctx) (hdst : w.dstKind = 1) (hctx : d.xctxOf w.xctx = some x) :
    d.moverWrite k = (d.emit (.hostStore x.port w.dstHost w.buffer)).stepEnd k := by
  simp only [Dev.moverWrite, hwork, if_pos hdst, hctx]

theorem moverWrite_client (m : Msg) (rest : List Msg) (hdst : w.dstKind = 2)
    (hmsgs : bulkWrites d.ownNode w.dstNode (w.dst + w.dstDone) 0 w.buffer = m :: rest) (hsend : d.canSend (m, 2, k) = true) :
    d.moverWrite k = (d.request m 2 k).2.sendRest k (d.request m 2 k).1 := by
  simp [Dev.moverWrite, hwork, hdst, hmsgs, hsend]

section
variable (hdst : w.dstKind = 0) {n : Nat} {e : Dev}
include hdst

theorem moverWrite_stored {b : List Byte}
    (hwrite : d.writeBytes (some w.node) (w.dst + w.dstDone + w.wrote) (w.buffer.drop w.wrote) true = (n, .ok b, e)) :
    d.moverWrite k = (e.moverStash w (w.dst + w.dstDone + w.wrote) n).stepEnd k := by
  simp [Dev.moverWrite, hwork, hdst, hwrite]

theorem moverWrite_again {h : Nat}
    (hwrite : d.writeBytes (some w.node) (w.dst + w.dstDone + w.wrote) (w.buffer.drop w.wrote) true = (n, .again h, e)) :
    d.moverWrite k = (e.moverStash w (w.dst + w.dstDone + w.wrote) n).setWork k
      { w with wrote := w.wrote + n, retryAt := some (e.now + hintTicks h) } := by
  simp [Dev.moverWrite, hwork, hdst, hwrite]

theorem moverWrite_fails {st det : Nat}
    (hwrite : d.writeBytes (some w.node) (w.dst + w.dstDone + w.wrote) (w.buffer.drop w.wrote) true = (n, .no st det, e)) :
    d.moverWrite k = ((e.moverStash w (w.dst + w.dstDone + w.wrote) n).setWork k { w with wrote := w.wrote + n }).moverFail k 1 st det := by
  simp [Dev.moverWrite, hwork, hdst, hwrite]

end

/-! ## After it is written -/

theorem stepEnd_stepped (hkind : w.kind ≠ 2) :
    d.stepEnd k = if w.length ≤ w.dstDone + w.stepLen then ((d.moverAck k).setWork k w.stepped).moverEnd k stDone 0 0
      else ((d.moverAck k).setWork k w.stepped).moverNext k := by
  simp only [Dev.stepEnd, hwork, if_neg hkind]
  rfl

theorem stepEnd_done (hkind : w.kind ≠ 2) (hlast : w.length ≤ w.dstDone + w.stepLen) :
    d.stepEnd k = ((((d.moverAck k).setWork k w.stepped).moverFreed k w.stepped).completeDesc w.ring w.idx stDone 0 0
      ((w.dstDone + w.stepLen) / 64)).moverAssign 32 := by
  rw [stepEnd_stepped hwork hkind, if_pos hlast, moverEnd_completes (work_setWork ..)]
  rfl

theorem stepEnd_next (hkind : w.kind ≠ 2) (hmore : w.dstDone + w.stepLen < w.length) :
    d.stepEnd k = ((d.moverAck k).setWork k w.stepped).moverNext k := by
  rw [stepEnd_stepped hwork hkind, if_neg (Nat.not_le.2 hmore)]

end

end Sys2Proof.Machine

/-! COPY and FILL from their descriptors, and the steps of a mover (R235 to R239, R241, R248). -/

namespace Sys2Proof.Machine

/-! ## Their descriptors -/

/-- A COPY or FILL that its gate admits is admitted by Table 10.3. -/
theorem makes_moverDesc {s : State} {ring idx op : Nat} {b : List Byte} {fill : Bool} {i : Instr}
    (hrow : (fill, i, op) ∈ [(false, Instr.copy ring idx, 0x30), (true, Instr.fill ring idx, 0x31)])
    (hready : s.dev.ready ring idx op b) (hadmits : admits s.dev ring ((moverOf ring idx (s.dev.ringOwner ring) fill b).dstKind == 0) [])
    {d : Dev} (h : (s.dev.begun ring idx).moverAdmit (moverOf ring idx (s.dev.ringOwner ring) fill b) (moverClamps fill b) = d) :
    Makes i s d := by
  simp only [List.mem_cons, Prod.mk.injEq, List.not_mem_nil, or_false] at hrow
  rcases hrow with ⟨rfl, rfl, rfl⟩ | ⟨rfl, rfl, rfl⟩
  · exact makes_of_next rfl ((withDesc_ready _ _ _ _ b _ hready).trans
      ((gated_admits _ _ _ _ _ _ (begun_admits _ _ _ _ _ hadmits)).trans h))
  · exact makes_of_next rfl ((withDesc_ready _ _ _ _ b _ hready).trans
      ((gated_admits _ _ _ _ _ _ (begun_admits _ _ _ _ _ hadmits)).trans h))

section
variable {d e : Dev} {w : MoverWork} {n : Nat} (he : e = (List.range n).foldl (fun d _ => d.clamped 7 0) d)
include he

theorem moverAdmit_taken (hpass : e.moverRefused w = none) : d.moverAdmit w n = e.moverTake w := by
  subst he
  simp only [Dev.moverAdmit, hpass]

theorem moverAdmit_refused {det : Nat} (hfail : e.moverRefused w = some det) :
    d.moverAdmit w n = e.completeDesc w.ring w.idx stDenied det 0 0 := by
  subst he
  simp only [Dev.moverAdmit, hfail]

end

theorem moverTake_waits (d : Dev) (w : MoverWork) (halive : nmem d.boot.dead 10 = false) :
    d.moverTake w = ({ d with mov := { d.mov with waitingWork := d.mov.waitingWork ++ [w] } } : Dev).moverAssign 32 := by
  simp [Dev.moverTake, halive]

/-! ## The commands of a step -/

section
variable {s : State} {k : Nat} {w : MoverWork} (hwork : (s.dev.mover k).work = some w)
include hwork

section
variable (hphase : w.phase = 1) (hretry : w.retryAt = none)
include hphase hretry

theorem makes_moverStepData_host (b : List Byte) (hsrc : w.srcKind = 1) :
    Makes (.moverStepData k (.data b)) s (s.dev.gotData k (slice b 0 w.stepLen)) :=
  makes_of_next rfl (by simp [hwork, hphase, hretry, hsrc])

theorem makes_moverStepData_failed (hsrc : w.srcKind = 1) :
    Makes (.moverStepData k .failed) s (s.dev.moverFail k 0 stDeviceError 2) :=
  makes_of_next rfl (by simp [hwork, hphase, hretry, hsrc])

theorem makes_moverStepData_read (a : StepAnswer) (hhost : w.srcKind ≠ 1) (hclient : w.srcKind ≠ 2) :
    Makes (.moverStepData k a) s (s.dev.moverRead k) :=
  makes_of_next rfl (by simp [hwork, hphase, hretry, hhost, hclient])

end

/-- An access that met RETRY goes again in the phase it was in. -/
theorem makes_moverReissue {t : Nat} {w' : MoverWork} (hretry : w.retryAt = some t) (hw' : w' = { w with retryAt := none }) {d : Dev}
    (h : (if w.phase = 2 then ((s.dev.till t).setWork k w').moverWrite k
      else if w.srcKind = 2 then ((s.dev.till t).setWork k w').issueRead k w' else ((s.dev.till t).setWork k w').moverRead k) = d) :
    Makes (.moverReissue k) s d := by
  subst hw'
  exact makes_of_next rfl (by simpa only [hwork, hretry] using h)

end

/-- Settles O28: each step by the kinds of its source and its destination, and by how its access goes. -/
theorem moverSteps : Obligations.MoverSteps := by
  refine ⟨?_, fun d w halive => moverTake_waits d w halive, ?_, ?_, ?_⟩
  · intro s ring idx b fill i op w e hrow hw hready hadmits he
    subst hw
    exact ⟨fun hpass => makes_moverDesc hrow hready hadmits (moverAdmit_taken he hpass),
      fun det hfail => makes_moverDesc hrow hready hadmits (moverAdmit_refused he hfail)⟩
  · intro s k w hwork hphase hretry
    exact ⟨makes_moverStepData_host hwork hphase hretry, makes_moverStepData_failed hwork hphase hretry,
      makes_moverStepData_read hwork hphase hretry⟩
  · intro s k t w w' hwork hretry hw' e
    refine ⟨fun hwrites => ?_, fun hreads hclient => ?_, fun hreads hpool => ?_⟩
    · exact makes_moverReissue hwork hretry hw' (if_pos hwrites)
    · exact makes_moverReissue hwork hretry hw' ((if_neg hreads).trans (if_pos hclient))
    · exact makes_moverReissue hwork hretry hw' ((if_neg hreads).trans (if_neg hpool))
  · intro d k w hwork
    refine ⟨moverRead_pattern hwork, fun hkind => ⟨?_, ?_, ?_⟩, ?_, moverWrite_host hwork, fun hdst => ⟨?_, ?_, ?_⟩,
      moverWrite_client hwork, ?_, stepEnd_next hwork, moverFail_ends hwork⟩
    · exact fun b e => moverRead_bytes hwork hkind
    · exact fun h e => moverRead_again hwork hkind
    · exact fun st det e => moverRead_fails hwork hkind
    · exact fun bs e hkind he => he ▸ gotData_writes hwork bs hkind
    · exact fun n b e => moverWrite_stored hwork hdst
    · exact fun n h e => moverWrite_again hwork hdst
    · exact fun n st det e => moverWrite_fails hwork hdst
    · exact fun hkind hlast => ⟨_, stepEnd_done hwork hkind hlast, work_moverFreed ..⟩

end Sys2Proof.Machine

/-! Translations and their answers: ATS completions, walks and the entries they read (R240 to R243, R248). -/

namespace Sys2Proof.Machine

/-- The mover's translation has been answered: neither a walk nor a request of it is out. -/
def Dev.answered (d : Dev) (k : Nat) : Dev := d.setMover k fun m => { m with walk := none, atsOut := false, stale := false }

/-! ## ATS completions -/

section
variable {s : State} {k : Nat} {w : MoverWork} {x : Xctx} (hwork : (s.dev.mover k).work = some w) (hout : (s.dev.mover k).atsOut = true)
  (hctx : s.dev.xctxOf w.xctx = some x)
include hwork hout hctx

theorem makes_atsCompletion_stale (a : Option Translation) (hstale : (s.dev.mover k).stale = true) :
    Makes (.atsTranslationCompletion k a) s (s.dev.atsRequest k x (w.sideAddr w.wantSide) (w.wantSide == 1)) :=
  makes_of_next rfl (by simp [hwork, hout, hctx, hstale])

variable (hfresh : (s.dev.mover k).stale = false)
include hfresh

theorem makes_atsCompletion_held (t : Translation) :
    Makes (.atsTranslationCompletion k (some t)) s ((s.dev.holdTranslation w.xctx (w.sideAddr w.wantSide) t).translated k) :=
  makes_of_next rfl (by simp [hwork, hout, hctx, hfresh])

theorem makes_atsCompletion_refused : Makes (.atsTranslationCompletion k none) s (s.dev.translated k) :=
  makes_of_next rfl (by simp [hwork, hout, hctx, hfresh])

end

/-! ## What an answer comes to -/

section
variable {d : Dev} {k : Nat} {w : MoverWork} (hwork : (d.mover k).work = some w)
include hwork

theorem translated_granted (hgrant : ((d.answered k).sideGrant w w.wantSide).isSome = true) :
    d.translated k = (d.answered k).moverNext k := by
  simp only [Dev.translated, hwork]
  exact if_pos hgrant

theorem translated_refused (hnone : (d.answered k).sideGrant w w.wantSide = none) :
    d.translated k = (d.answered k).moverFault k := by
  simp only [Dev.translated, hwork]
  exact if_neg (by rw [Dev.answered] at hnone; simp [hnone])

variable {x : Xctx} (hctx : d.xctxOf w.xctx = some x)
include hctx

theorem moverFault_noPath (hpath : x.faultPath = 2) : d.moverFault k = (d.answered k).moverFaulted k 5 := by
  simp only [Dev.moverFault, hwork, hctx]
  exact if_pos hpath

theorem moverFault_tooOften (hpath : x.faultPath ≠ 2) (hrounds : d.fld 0x300000 0 4 ≤ w.rounds) :
    d.moverFault k = (d.answered k).moverFaulted k 6 := by
  simp only [Dev.moverFault, hwork, hctx]
  exact (if_neg hpath).trans (if_pos hrounds)

/-! ## A walk's reads -/

variable {wk : Walk} (hwalk : (d.mover k).walk = some wk) {a : Nat} (ha : a = wk.table + 8 * bits wk.va (12 + 9 * (wk.level - 1)) 9) {e : Dev}
include hwalk ha

theorem walkRead_bytes {b : List Byte} (hread : d.lineRead (some (portNode x.port)) (a / 64) true = (.ok b, e)) :
    d.walkRead k = e.walkEntry k w x wk (field b (a % 64) 8) := by
  subst ha
  simp only [Dev.walkRead, hwork, hwalk, hctx, hread]

theorem walkRead_again {h : Nat} (hread : d.lineRead (some (portNode x.port)) (a / 64) true = (.again h, e)) :
    d.walkRead k = e.setMover k fun m => { m with walk := some { wk with retryAt := some (e.now + hintTicks h) } } := by
  subst ha
  simp only [Dev.walkRead, hwork, hwalk, hctx, hread]

theorem walkRead_fails {st det : Nat} (hread : d.lineRead (some (portNode x.port)) (a / 64) true = (.no st det, e)) :
    d.walkRead k = e.moverFaulted k 7 := by
  subst ha
  simp only [Dev.walkRead, hwork, hwalk, hctx, hread]

end

section
variable {s : State} {k : Nat} {wk : Walk} (hwalk : (s.dev.mover k).walk = some wk)
include hwalk

theorem makes_walkerReadAnswer (hretry : wk.retryAt = none) (hwalker : wk.waiting = false) :
    Makes (.walkerReadAnswer k) s (s.dev.walkRead k).walksGo :=
  makes_of_next rfl (by simp [hwalk, hretry, hwalker])

theorem makes_walkerReissue (t : Nat) (hretry : wk.retryAt = some t) :
    Makes (.walkerReissue k) s ((s.dev.till t).walkRead k).walksGo :=
  makes_of_next rfl (by simp only [hwalk, hretry])

end

/-! ## A walk's entries (Table 10.6) -/

/-- The bytes a leaf of the walk's level covers. -/
abbrev Walk.span (wk : Walk) : Nat := if wk.level = 3 then 2 ^ 30 else if wk.level = 2 then 2 ^ 21 else 4096

/-- The entry ends the walk: a page. -/
abbrev Walk.atLeaf (wk : Walk) (e : Nat) : Prop := wk.level = 1 ∨ (wk.level < 4 ∧ bit e 2 = true)

/-- The entry is present, with no reserved bit set, and no page of the root's level. -/
abbrev Walk.sound (wk : Walk) (e : Nat) : Prop :=
  bit e 0 = true ∧ bits e 52 12 = 0 ∧ bits e 3 9 = 0 ∧ ¬ (wk.level = 4 ∧ bit e 2 = true)

/-- Where the entry points: a page, or the table of the next level. -/
abbrev entryAddr (e : Nat) : Nat := bits e 12 40 * 4096

/-- The translation that a leaf gives. -/
abbrev Walk.page (wk : Walk) (ctx e : Nat) : XEntry :=
  { ctx := ctx, page := wk.va / wk.span * wk.span, size := wk.span, host := entryAddr e, read := true, write := wk.allW && bit e 1 }

/-- The walk one level down. -/
abbrev Walk.down (wk : Walk) (e : Nat) : Walk :=
  { wk with level := wk.level - 1, table := entryAddr e, allW := wk.allW && bit e 1, retryAt := none }

section
variable {d : Dev} {k e : Nat} {w : MoverWork} {x : Xctx} {wk : Walk}

theorem walkEntry_cases : d.walkEntry k w x wk e =
    if ¬ wk.sound e ∨ (if wk.atLeaf e then entryAddr e % wk.span ≠ 0 else 2 ^ 48 ≤ entryAddr e) then d.walkRefused k x wk
    else if wk.atLeaf e then
      if wk.write = true ∧ (wk.page w.xctx e).write = false then (d.xinsert (wk.page w.xctx e)).walkRefused k x wk
      else (d.xinsert (wk.page w.xctx e)).translated k
    else d.setMover k fun m => { m with walk := some (wk.down e) } := by
  have hleaf : (decide (wk.level = 1) || decide (wk.level < 4) && bit e 2) = true ↔ wk.atLeaf e := by simp
  unfold Dev.walkEntry
  refine if_congr (Bool.or_eq_true_iff.trans (or_congr ?_ ?_)) rfl (if_congr hleaf (if_congr ?_ rfl rfl) rfl)
  · simp only [Bool.or_eq_true, Bool.and_eq_true, Bool.not_eq_true', decide_eq_true_eq, ← Bool.not_eq_true (bit e 0)]
    tauto
  · by_cases h : wk.atLeaf e
    · rw [if_pos (hleaf.2 h), if_pos h, decide_eq_true_eq]
    · rw [if_neg (mt hleaf.1 h), if_neg h, decide_eq_true_eq]
  · rw [Bool.and_eq_true, Bool.not_eq_true']

theorem walkEntry_unsound (hbad : ¬ wk.sound e) : d.walkEntry k w x wk e = d.walkRefused k x wk :=
  walkEntry_cases.trans (if_pos (.inl hbad))

theorem walkEntry_tableOutside (hnode : ¬ wk.atLeaf e) (haddr : 2 ^ 48 ≤ entryAddr e) : d.walkEntry k w x wk e = d.walkRefused k x wk :=
  walkEntry_cases.trans (if_pos (.inr (by rwa [if_neg hnode])))

theorem walkEntry_down (hgood : wk.sound e) (hnode : ¬ wk.atLeaf e) (haddr : entryAddr e < 2 ^ 48) :
    d.walkEntry k w x wk e = d.setMover k fun m => { m with walk := some (wk.down e) } :=
  walkEntry_cases.trans ((if_neg (by rw [if_neg hnode]; simpa only [not_or, not_not, Nat.not_le] using And.intro hgood haddr)).trans (if_neg hnode))

theorem walkEntry_misaligned (hleaf : wk.atLeaf e) (haddr : entryAddr e % wk.span ≠ 0) : d.walkEntry k w x wk e = d.walkRefused k x wk :=
  walkEntry_cases.trans (if_pos (.inr (by rwa [if_pos hleaf])))

theorem walkEntry_leaf (hgood : wk.sound e) (hleaf : wk.atLeaf e) (haddr : entryAddr e % wk.span = 0) : d.walkEntry k w x wk e =
    if wk.write = true ∧ (wk.page w.xctx e).write = false then (d.xinsert (wk.page w.xctx e)).walkRefused k x wk
    else (d.xinsert (wk.page w.xctx e)).translated k :=
  walkEntry_cases.trans ((if_neg (by rw [if_pos hleaf]; simpa only [not_or, not_not] using And.intro hgood haddr)).trans (if_pos hleaf))

end

end Sys2Proof.Machine

/-! Page faults, contexts and invalidations (R240, R243 to R248). -/

namespace Sys2Proof.Machine

/-- Counting a clamp changes the performance counters alone. -/
theorem clampedIf_changes (p : Prop) [Decidable p] (group pos : Nat) (d : Dev) :
    ∃ q, (if p then d.clamped group pos else d) = { d with perf := q } := by
  split
  · exact ⟨_, rfl⟩
  · exact ⟨d.perf, rfl⟩

/-! ## Answers to page requests (R244) -/

section
variable {s : State} {p i : Nat} {f : FaultRec} (hrec : tget s.dev.mov.faults i = some f)
include hrec

theorem makes_faultTimeout (t : Nat) (hraised : f.raised = some t) : Makes (.faultTimeout i) s ((s.dev.till t).failRecord i 1) :=
  makes_of_next rfl (by simp only [hrec, hraised])

variable (hpath : f.path = 0) (hraised : f.raised.isSome = true) (hport : f.port = p)
include hpath hraised hport

theorem makes_priGroupResponse {code : Nat} {d : Dev}
    (h : (if code = 0 then s.dev.resumeRecord i else if code = 1 then s.dev.failRecord i 2
      else (s.dev.setPri p fun q => { q with stopped := true }).failRecord i 3) = d) : Makes (.priGroupResponse p i code) s d := by
  refine makes_of_next rfl (Eq.trans ?_ h)
  simp only [hrec]
  exact if_neg (by simp [hpath, hport, Option.isNone_eq_false_iff.2 hraised])

end

/-! ## FAULT_RESOLVE (R245) -/

/-- The record waits for its owner, who is this node. -/
abbrev Dev.resolves (d : Dev) (node : Nat) (f : FaultRec) : Prop :=
  f.path = 1 ∧ f.raised.isSome = true ∧ (d.xctxOf f.ctx).map (fun x => portNode x.port) = some node

theorem not_resolves_iff (d : Dev) (node : Nat) (f : FaultRec) :
    (decide (f.path ≠ 1) || f.raised.isNone || decide ((d.xctxOf f.ctx).map (fun x => portNode x.port) ≠ some node)) = true ↔
      ¬ d.resolves node f := by
  simp [Dev.resolves, or_iff_not_imp_left, Option.isSome_iff_ne_none]

section
variable {s : State} {ring idx i : Nat} {b : List Byte} {e : Dev} (hready : s.dev.ready ring idx 0x34 b)
  (hadmits : admits s.dev ring false [15]) (hi : i = field b 8 2 % 256)
  (he : e = if 1 < field b 10 1 then (s.dev.begun ring idx).clamped 7 0 else s.dev.begun ring idx)
include hready hadmits hi he

/-- No record has the index, or one that does not wait for this node. -/
theorem completes_faultResolve_nobody (hnone : ∀ f, tget s.dev.mov.faults i = some f → ¬ e.resolves (e.ringOwner ring) f) :
    Completes (.faultResolve ring idx) s ring idx e stDenied 0x54 0 0 := by
  refine makes_gatedDesc _ rfl hready hadmits ?_
  have hfaults : e.mov.faults = s.dev.mov.faults := by
    obtain ⟨q, h⟩ := clampedIf_changes (1 < field b 10 1) 7 0 (s.dev.begun ring idx)
    rw [he, h]
    rfl
  dsimp only
  rw [← he, ← hi, hfaults]
  cases hrec : tget s.dev.mov.faults i with
  | none => rfl
  | some f => exact if_pos ((not_resolves_iff ..).2 (hnone f hrec))

/-- Its owner resumes or fails the record's waiters. -/
theorem makes_faultResolve_owner {f : FaultRec} (hrec : tget s.dev.mov.faults i = some f) (hown : e.resolves (e.ringOwner ring) f) {d : Dev}
    (h : (if field b 10 1 = 0 then (e.resumeRecord i).completeDesc ring idx stDone 0 0 f.waiters.length
      else (e.failRecord i 4).completeDesc ring idx stDone 0 0 0) = d) : Makes (.faultResolve ring idx) s d := by
  refine makes_gatedDesc _ rfl hready hadmits (Eq.trans ?_ h)
  have hfaults : tget e.mov.faults i = some f := by
    obtain ⟨q, h⟩ := clampedIf_changes (1 < field b 10 1) 7 0 (s.dev.begun ring idx)
    rw [he, h]
    exact hrec
  dsimp only
  rw [← he, ← hi, hfaults]
  exact if_neg fun hbad => (not_resolves_iff ..).1 hbad hown

end

/-! ## XCTX_SET (Table 10.4) -/

section
variable {s : State} {ring idx : Nat} {b : List Byte} {x : Xctx} {e : Dev} (hready : s.dev.ready ring idx 0x32 b)
  (hadmits : admits s.dev ring false [])
  (hx : x = { port := (nodePort (s.dev.ringOwner ring)).getD 0, service := if field b 9 1 ≤ 2 then field b 9 1 else 0,
              faultPath := if field b 10 1 ≤ 2 then field b 10 1 else 2, pasid := field b 12 4 % 2 ^ 20,
              pasidEn := bit (field b 12 4) 31, root := field b 16 8 })
  (he : e = (List.range (b2n (2 < field b 9 1) + b2n (2 < field b 10 1) + b2n (1 < field b 11 1))).foldl (fun d _ => d.clamped 7 0)
    (s.dev.begun ring idx))
include hready hadmits hx he

theorem completes_xctxSet_refused {st det : Nat} (hfail : e.xctxRefused (s.dev.ringOwner ring) (field b 8 1) x = some (st, det)) :
    Completes (.xctxSet ring idx) s ring idx e st det 0 0 := by
  subst hx he
  refine makes_gatedDesc _ rfl hready hadmits ?_
  simp only [begun_ringOwner, hfail]

theorem makes_xctxSet (hpass : e.xctxRefused (s.dev.ringOwner ring) (field b 8 1) x = none) :
    Makes (.xctxSet ring idx) s (({ e with mov := { e.mov with
      xctx := if field b 11 1 ≠ 0 then tput e.mov.xctx (field b 8 1) x else tdel e.mov.xctx (field b 8 1) } } : Dev).invalidate
        [field b 8 1] 0 (2 ^ 64) x.port (some (.desc ring idx)) false) := by
  subst hx he
  refine makes_gatedDesc _ rfl hready hadmits ?_
  simp only [begun_ringOwner, hpass]

end

/-! ## INVALIDATE and its ends (R248) -/

section
variable {s : State} {ring idx n c : Nat} {all : Bool} {b : List Byte} {e : Dev} (hready : s.dev.ready ring idx 0x33 b)
  (hadmits : admits s.dev ring false []) (hn : n = clampGrain 4096 4096 (2 ^ 48) (field b 24 8)) (hall : all = bit (field b 9 1) 0)
  (he : e = if n = field b 24 8 ∨ all = true then s.dev.begun ring idx else (s.dev.begun ring idx).clamped 7 0)
include hready hadmits hn hall he

theorem completes_invalidate_client (hclient : nodePort (s.dev.ringOwner ring) = none) :
    Completes (.invalidate ring idx) s ring idx e stDenied 0x50 0 0 := by
  subst hn hall he
  refine makes_gatedDesc _ rfl hready hadmits ?_
  simp only [begun_ringOwner, hclient, Bool.or_eq_true, decide_eq_true_eq]

variable {p : Nat} (hc : c = field b 8 1) (hport : nodePort (s.dev.ringOwner ring) = some p)
include hc hport

/-- A port's INVALIDATE: of a context that is not its own, of a misaligned range, of all, or of a range. -/
theorem makes_invalidate_port {d : Dev} (h : (if (s.dev.xctxOf c).map (·.port) ≠ some p then e.completeDesc ring idx stDenied 0x51 0 0
      else if all = false ∧ field b 16 8 % 4096 ≠ 0 then e.completeDesc ring idx stDenied 0x20 0 0
      else if all = true then e.invalidate [c] 0 (2 ^ 64) p (some (.desc ring idx)) true
      else e.invalidate [c] (field b 16 8) n p (some (.desc ring idx)) true) = d) : Makes (.invalidate ring idx) s d := by
  have hctx : e.xctxOf c = s.dev.xctxOf c := by
    subst he
    split <;> rfl
  subst hn hall hc
  refine makes_gatedDesc _ rfl hready hadmits (Eq.trans ?_ h)
  simp only [begun_ringOwner, hport, Bool.or_eq_true, decide_eq_true_eq, ← he, hctx, Bool.and_eq_true, Bool.not_eq_true']

end

/-- What stays in the cache is of no context of the invalidation, or outside its range. -/
theorem invalidate_cache (d : Dev) (cs : List Nat) (base len p : Nat) (c : Option Caller) (count : Bool) :
    (d.invalidate cs base len p c count).mov.cache = d.mov.cache.filter fun e => !(nmem cs e.ctx && meets e.page e.size base len) := by
  unfold Dev.invalidate
  dsimp only
  refine forEach_keeps (·.mov.cache) _ (fun k e => ?_) _ _
  split
  · split <;> rfl
  · rfl

section
variable {s : State} {n : Nat} {v : Invalidation} {d : Dev} (hinv : tget s.dev.mov.invs n = some v) (hnobody : v.movers = [])
  (hd : d = { s.dev with mov := { s.dev.mov with invs := tdel s.dev.mov.invs n } })
include hinv hnobody hd

theorem makes_invalidationDone_port (hcaller : v.caller = none) : Makes (.invalidationDone n) s (d.emit (.pcie v.port 2 [n])) := by
  subst hd
  exact makes_of_next rfl (by simp [hinv, hnobody, hcaller])

theorem completes_invalidationDone {ring idx : Nat} (hcaller : v.caller = some (.desc ring idx)) :
    Completes (.invalidationDone n) s ring idx d stDone 0 0 v.removed := by
  subst hd
  exact makes_of_next rfl (by simp [hinv, hnobody, hcaller, Dev.complete])

end

/-- R240 to R248: each answer, read, entry and descriptor by what it finds. -/
theorem translation : Says.Translation := by
  refine ⟨fun s k w x hwork hout hctx => ⟨fun a => ?_, fun t hfresh => ?_, fun hfresh => ?_⟩, fun d k w hwork => ⟨?_, ?_⟩,
    fun d k w x hwork hctx => ⟨?_, ?_⟩, fun s k wk hwalk => ⟨?_, ?_⟩, fun d k a w wk x hwork hwalk hctx ha => ⟨?_, ?_, ?_⟩, ?_,
    fun s p i f hrec => ⟨fun hpath hraised hport => ⟨?_, ?_, fun code hcode => ?_⟩, ?_⟩, ?_, fun s p n on => rfl, ?_, ?_,
    fun s p base len pasid cs hcs => hcs ▸ rfl, ?_, fun s n v d hinv hnobody hd => ⟨?_, ?_⟩⟩
  · exact makes_atsCompletion_stale hwork hout hctx a
  · exact makes_atsCompletion_held hwork hout hctx hfresh t
  · exact makes_atsCompletion_refused hwork hout hctx hfresh
  · exact translated_granted hwork
  · exact translated_refused hwork
  · exact moverFault_noPath hwork hctx
  · exact moverFault_tooOften hwork hctx
  · exact makes_walkerReadAnswer hwalk
  · exact makes_walkerReissue hwalk
  · exact fun b e => walkRead_bytes hwork hctx hwalk ha
  · exact fun h e => walkRead_again hwork hctx hwalk ha
  · exact fun st det e => walkRead_fails hwork hctx hwalk ha
  · intro d k size e w x wk hsize addr leaf good
    subst hsize
    refine ⟨walkEntry_unsound, fun _ => walkEntry_tableOutside, ?_, fun _ => walkEntry_misaligned, ?_, fun h => if_pos h,
      fun h => if_neg h⟩
    · rintro wk' hgood hnode haddr rfl
      exact walkEntry_down hgood hnode haddr
    · rintro ent hgood hleaf haddr rfl
      have hentry := walkEntry_leaf (d := d) (k := k) (w := w) (x := x) hgood hleaf haddr
      refine ⟨fun hmay => hentry.trans (if_neg ?_), fun hwrite hro => hentry.trans (if_pos ⟨hwrite, hro⟩)⟩
      rintro ⟨hwrite, hro⟩
      rcases hmay with h | h
      · exact absurd (h.symm.trans hwrite) (by decide)
      · exact absurd (hro.symm.trans h) (by decide)
  · exact makes_priGroupResponse hrec hpath hraised hport rfl
  · exact makes_priGroupResponse hrec hpath hraised hport rfl
  · exact makes_priGroupResponse hrec hpath hraised hport ((if_neg (by omega)).trans (if_neg (by omega)))
  · exact makes_faultTimeout hrec
  · intro s ring idx i b e hready hadmits hi he mine
    refine ⟨completes_faultResolve_nobody hready hadmits hi he, fun f hrec hown => ⟨fun hact => ?_, fun hact => ?_⟩⟩
    · exact makes_faultResolve_owner hready hadmits hi he hrec hown (if_pos hact)
    · exact makes_faultResolve_owner hready hadmits hi he hrec hown (if_neg hact)
  · intro s ring idx b x e hready hadmits hx he
    exact ⟨fun st det => completes_xctxSet_refused hready hadmits hx he, makes_xctxSet hready hadmits hx he⟩
  · intro s ring idx n b e hready hadmits hn all c he
    refine ⟨completes_invalidate_client hready hadmits hn rfl he, fun p hport => ?_⟩
    have hmakes {d : Dev} := makes_invalidate_port (d := d) hready hadmits hn (rfl : all = _) he (rfl : c = _) hport
    refine ⟨fun hother => hmakes (if_pos hother), fun hown => ⟨fun hall haddr => ?_, fun hall => ?_, fun hall haddr => ?_⟩⟩
    · exact hmakes ((if_neg (not_not.2 hown)).trans (if_pos ⟨hall, haddr⟩))
    · exact hmakes ((if_neg (not_not.2 hown)).trans ((if_neg (by simp [hall])).trans (if_pos hall)))
    · exact hmakes ((if_neg (not_not.2 hown)).trans ((if_neg (by simp [haddr])).trans (if_neg (by simp [hall]))))
  · intro d cs base len p c count e he
    rw [invalidate_cache, List.mem_filter] at he
    refine ⟨he.1, fun hmem => ?_⟩
    simpa [(nmem_iff_mem cs e.ctx).2 hmem] using he.2
  · exact makes_invalidationDone_port hinv hnobody hd
  · exact fun ring idx => completes_invalidationDone hinv hnobody hd

end Sys2Proof.Machine

/-! Tier hints and the decay of the counters (R249, R250, R253). -/

namespace Sys2Proof.Machine

/-! ## What the ACTION of a hint asks for -/

/-- The skeins of a range that PROMOTE asks for. -/
def Dev.toPromote (d : Dev) (all : List Nat) : List Nat :=
  all.filter fun sk => match tget d.far.cached sk with
    | some x => x.state == 0
    | none => true

/-- The skeins of a range that DEMOTE sends away. -/
def Dev.toDemote (d : Dev) (all : List Nat) : List Nat :=
  all.filter fun sk => match tget d.far.cached sk with
    | some x => x.state != 0 && !(x.state == 1 && d.keptDirty sk x)
    | none => false

/-- The device in which the counters of these skeins are full. -/
def Dev.countersFull (d : Dev) (l : List Nat) : Dev :=
  { d with mov := { d.mov with counters := l.foldl (fun t sk => tput t sk 0xFFFF) d.mov.counters } }

/-- The device that has taken a hint, and gone on with the hints it has. -/
def Dev.takeHint (d : Dev) (h : TierHint) : Dev := ({ d with mov := { d.mov with hints := d.mov.hints ++ [h] } } : Dev).hintsGo

/-- What a hint that is not denied comes to: KEEP is done at once, DEMOTE and PROMOTE are taken. -/
def Dev.hinted (d : Dev) (ring idx act : Nat) (all : List Nat) : Dev :=
  let hot := all.filter fun sk => (tget d.far.cached sk).isSome
  let busy := (d.toDemote all).filter (d.hintPending false)
  if act = 2 then (d.countersFull hot).completeDesc ring idx stDone 0 0 hot.length
  else if act = 1 then
    d.takeHint
      { ring := ring, idx := idx, left := busy, todo := (d.toDemote all).filter fun sk => !nmem busy sk, total := (d.toDemote all).length }
  else d.takeHint { ring := ring, idx := idx, left := d.toPromote all, total := (d.toPromote all).length }

/-! ## TIER_HINT -/

section
variable {s : State} {ring idx : Nat} {b : List Byte} {e : Dev} (hready : s.dev.ready ring idx 0x35 b)
  (hadmits : admits s.dev ring false [7])
  (he : e = if 2 < field b 24 1 then (s.dev.begun ring idx).clamped 7 0 else s.dev.begun ring idx)
include hready hadmits he

theorem completes_tierHint_noRegion (hnone : s.dev.liveRegion (dHandle b) = none) :
    Completes (.tierHint ring idx) s ring idx e stDenied (if (nodePort (s.dev.ringOwner ring)).isSome then 0x0A else 0) 0 0 := by
  have hlive : e.liveRegion (dHandle b) = none := by
    obtain ⟨q, h⟩ := clampedIf_changes (2 < field b 24 1) 7 0 (s.dev.begun ring idx)
    rw [he, h]
    exact hnone
  refine makes_gatedDesc _ rfl hready hadmits ?_
  dsimp only
  rw [← he, hlive]
  rfl

/-- A hint about a live region counts the ends of its range that are clamped, and is denied without the right or a backed region. -/
theorem makes_tierHint_region {r : Region} {act first last : Nat} {g : Dev} (hact : act = if field b 24 1 ≤ 2 then field b 24 1 else 2)
    (hlive : s.dev.liveRegion (dHandle b) = some r) (hfirst : first = min (field b 16 4) (r.count - 1))
    (hlast : last = min (field b 20 4) (r.count - 1))
    (hg : g = let g := if first ≠ field b 16 4 then e.clamped 7 0 else e; if last ≠ field b 20 4 then g.clamped 7 0 else g) {d : Dev}
    (h : (if s.dev.holds (s.dev.ringOwner ring) (dHandle b) rightR = false then g.completeDesc ring idx stDenied 0 0 0
      else if r.backed = false then g.completeDesc ring idx stDenied 1 0 0
      else g.hinted ring idx act (rangeSkeins r.base first last)) = d) : Makes (.tierHint ring idx) s d := by
  obtain ⟨q, hq⟩ := clampedIf_changes (2 < field b 24 1) 7 0 (s.dev.begun ring idx)
  have hlive' : e.liveRegion (dHandle b) = some r := by
    rw [he, hq]
    exact hlive
  have hholds : g.holds (s.dev.ringOwner ring) (dHandle b) rightR = s.dev.holds (s.dev.ringOwner ring) (dHandle b) rightR := by
    obtain ⟨q1, h1⟩ := clampedIf_changes (first ≠ field b 16 4) 7 0 e
    obtain ⟨q2, h2⟩ := clampedIf_changes (last ≠ field b 20 4) 7 0 ({ e with perf := q1 } : Dev)
    rw [hg, h1, h2, he, hq]
    rfl
  subst hact hfirst hlast
  refine makes_gatedDesc _ rfl hready hadmits (Eq.trans ?_ h)
  dsimp only at hg ⊢
  rw [← he, hlive']
  dsimp only
  rw [← hg]
  refine if_congr ?_ rfl (if_congr ?_ rfl rfl)
  · rw [begun_ringOwner, hholds, Bool.not_eq_true']
  · rw [Bool.not_eq_true']

end

/-! ## The decay (R250) -/

theorem mem_halve_iff (t : Tbl Nat) (e : Nat × Nat) : e ∈ halve t ↔ (∃ x ∈ t, (x.1, x.2 / 2) = e) ∧ e.2 ≠ 0 := by
  simp [halve]

theorem halve_keeps (t : Tbl Nat) (e : Nat × Nat) (hmem : e ∈ t) (htwo : 2 ≤ e.2) : (e.1, e.2 / 2) ∈ halve t :=
  (mem_halve_iff _ _).2 ⟨⟨e, hmem, rfl⟩, by dsimp only; omega⟩

theorem halve_halves (t : Tbl Nat) (e : Nat × Nat) (hmem : e ∈ halve t) : ∃ x ∈ t, x.1 = e.1 ∧ e.2 = x.2 / 2 := by
  obtain ⟨⟨x, hx, rfl⟩, -⟩ := (mem_halve_iff _ _).1 hmem
  exact ⟨x, hx, rfl, rfl⟩

/-- R249, R250, R253: a hint by its region and its ACTION, and the decay of every counter. -/
theorem tierHints : Says.TierHints := by
  refine ⟨?_, fun s d hd => hd ▸ rfl, fun t => ⟨halve_keeps t, halve_halves t⟩⟩
  intro s ring idx act first last b e d h hready hadmits hact he
  refine ⟨completes_tierHint_noRegion hready hadmits he, fun r g hlive hfirst hlast hg => ?_⟩
  have hmakes {d : Dev} := makes_tierHint_region (d := d) hready hadmits he hact hlive hfirst hlast hg
  refine ⟨fun hright => hmakes (if_pos hright), fun hright hback => ?_, fun hright hback => ?_⟩
  · exact hmakes ((if_neg (by simp [h, hright])).trans (if_pos hback))
  · intro all
    have hacts {d : Dev} (hd : g.hinted ring idx act all = d) : Makes (.tierHint ring idx) s d :=
      hmakes ((if_neg (by simp [h, hright])).trans ((if_neg (by simp [hback])).trans hd))
    refine ⟨?_, ?_, ?_⟩
    · rintro l hkeep rfl
      exact hacts (if_pos hkeep)
    · rintro l busy hdemote rfl rfl
      exact hacts ((if_neg (by omega)).trans (if_pos hdemote))
    · rintro l hpromote rfl
      exact hacts ((if_neg (by omega)).trans (if_neg (by omega)))

/-- Settles O29: translations by what answers them, and hints by what they ask for. -/
theorem translationAndTiers : Obligations.TranslationAndTiers := ⟨translation, tierHints⟩

end Sys2Proof.Machine

/-! Skeins moved between the near tier and the drives (R261, R262): cells laid over a cleared run of memory, and what a skein of a slot
decrypts to. -/

namespace Sys2Proof.Machine

/-! ## Entries of an ordered table -/

theorem tget_eq_some_iff {α : Type} (t : Tbl α) (k : Nat) (v : α) (hrise : keysRise t = true) : tget t k = some v ↔ (k, v) ∈ t := by
  refine ⟨mem_of_tget t k v, fun hmem => ?_⟩
  induction t with
  | nil => cases hmem
  | cons e r ih =>
    obtain ⟨a, w⟩ := e
    obtain ⟨hbelow, hrest⟩ := (keysRise_cons a w r).1 hrise
    rcases List.mem_cons.1 hmem with heq | hmem
    · cases heq
      simp [tget]
    · have hlt : a < k := hbelow _ hmem
      simp only [tget]
      rw [if_neg (by omega), if_neg (by omega), ih hrest hmem]

theorem tget_filter_kept {α : Type} (t : Tbl α) (p : Nat × α → Bool) (k : Nat) (hrise : keysRise t = true) (hkept : ∀ v, p (k, v) = true) :
    tget (t.filter p) k = tget t k :=
  Option.ext fun v => by
    rw [tget_eq_some_iff _ _ _ (keysRise_filter t p hrise), tget_eq_some_iff _ _ _ hrise, List.mem_filter, and_iff_left (hkept v)]

theorem memGet_of_mem {m : List Host.Cell} {c : Host.Cell} (hwf : Memory.wf m = true) (hmem : c ∈ m) : memGet m c.1 = c.2 := by
  simp [memGet, tgetD, (tget_eq_some_iff m c.1 c.2 ((memory_wf_iff m).1 hwf).1).2 hmem]

theorem mem_of_memGet {m : List Host.Cell} {a : Nat} (hne : memGet m a ≠ 0) : (a, memGet m a) ∈ m := by
  cases hget : tget m a with
  | none => exact absurd (by simp [memGet, tgetD, hget]) hne
  | some b => simpa [memGet, tgetD, hget] using mem_of_tget m a b hget

/-- Memory outside a run that has been cleared is as it was. -/
theorem memGet_memZero_outside (m : List Host.Cell) (a n c : Nat) (hwf : Memory.wf m = true) (hout : c < a ∨ a + n ≤ c) :
    memGet (memZero m a n) c = memGet m c := by
  have hget : tget (memZero m a n) c = tget m c :=
    tget_filter_kept m _ c ((memory_wf_iff m).1 hwf).1 fun _ => by simpa using hout
  simp [memGet, tgetD, hget]

/-! ## Cells laid over a run -/

/-- These cells written one after another. -/
def putCells (m cells : List Host.Cell) : List Host.Cell := cells.foldl (fun m c => memPut m c.1 c.2) m

theorem putCells_wf (cells m : List Host.Cell) (hwf : Memory.wf m = true) : Memory.wf (putCells m cells) = true := by
  induction cells generalizing m with
  | nil => exact hwf
  | cons e r ih => exact ih _ (memPut_wf m e.1 e.2 hwf)

/-- Where every cell written at an address holds the same byte, and the address held it or is written, the byte is there. -/
theorem memGet_putCells (cells m : List Host.Cell) (a : Nat) (b : Byte) (hwf : Memory.wf m = true) (hsame : ∀ e ∈ cells, e.1 = a → e.2 = b)
    (hthere : memGet m a = b ∨ ∃ e ∈ cells, e.1 = a) : memGet (putCells m cells) a = b := by
  induction cells generalizing m with
  | nil => simpa [putCells] using hthere
  | cons e r ih =>
    refine ih _ (memPut_wf m e.1 e.2 hwf) (fun x hx => hsame x (List.mem_cons_of_mem _ hx)) ?_
    by_cases hkey : e.1 = a
    · subst hkey
      exact .inl ((memGet_memPut_same m e.1 e.2 hwf).trans (hsame e List.mem_cons_self rfl))
    · rw [memGet_memPut_other m e.1 a e.2 hwf (Ne.symm hkey)]
      simpa [hkey] using hthere

/-- A run of `n` bytes at `dst` cleared, and the cells of a run at `src` laid over it. -/
def layCells (m cells : List Host.Cell) (src dst n : Nat) : List Host.Cell :=
  putCells (memZero m dst n) (cells.map fun c => (c.1 - src + dst, c.2))

section

variable {m cells : List Host.Cell} {src n : Nat} (dst : Nat) (hwf : Memory.wf m = true)
include hwf

theorem layCells_wf : Memory.wf (layCells m cells src dst n) = true := putCells_wf _ _ (memZero_wf m dst n hwf)

theorem memGet_layCells_outside (hcells : ∀ c ∈ cells, src ≤ c.1 ∧ c.1 < src + n) {a : Nat} (hout : a < dst ∨ dst + n ≤ a) :
    memGet (layCells m cells src dst n) a = memGet m a := by
  refine memGet_putCells _ _ _ _ (memZero_wf m dst n hwf) (fun e he hkey => ?_) (.inl (memGet_memZero_outside m dst n a hwf hout))
  obtain ⟨c, hc, rfl⟩ := List.mem_map.1 he
  have hrun := hcells c hc
  dsimp only at hkey
  omega

/-- Where the cells are those of the run in another memory, the run laid down reads as that memory's. -/
theorem memGet_layCells_inside {other : List Host.Cell} (hother : Memory.wf other = true)
    (hcells : ∀ c, c ∈ cells ↔ c ∈ other ∧ src ≤ c.1 ∧ c.1 < src + n) {i : Nat} (hi : i < n) :
    memGet (layCells m cells src dst n) (dst + i) = memGet other (src + i) := by
  refine memGet_putCells _ _ _ _ (memZero_wf m dst n hwf) (fun e he hkey => ?_) ?_
  · obtain ⟨c, hc, rfl⟩ := List.mem_map.1 he
    obtain ⟨hmem, hlo, hhi⟩ := (hcells c).1 hc
    dsimp only at hkey ⊢
    rw [show src + i = c.1 by omega, memGet_of_mem hother hmem]
  · by_cases hzero : memGet other (src + i) = 0
    · left
      rw [memGet_memZero_inside m dst n _ (by omega) (by omega), hzero]
    · right
      have hmem := (hcells _).2 ⟨mem_of_memGet hzero, by dsimp only; omega, by dsimp only; omega⟩
      exact ⟨_, List.mem_map_of_mem hmem, by dsimp only; omega⟩

end

/-! ## What a skein of a slot decrypts to (R261) -/

/-- Slots begin at a unit of the media. -/
theorem unit_dvd_mediaKey (drive slot : Nat) : 4096 ∣ mediaKey drive slot := Dvd.dvd.mul_left (show 4096 ∣ 2 ^ 25 by norm_num) _

/-- The first byte of a skein on the drive. -/
def skeinKey (drive slot sk : Nat) : Nat := mediaKey drive slot + sk % 512 * 65536

/-- The unit of the media that holds unit `j` of a skein. -/
def skeinUnit (drive slot sk j : Nat) : Nat := mediaKey drive slot / 4096 + sk % 512 * 16 + j

theorem skeinUnit_bytes (drive slot sk j : Nat) : skeinUnit drive slot sk j * 4096 = skeinKey drive slot sk + j * 4096 := by
  obtain ⟨k, hk⟩ := unit_dvd_mediaKey drive slot
  rw [skeinUnit, skeinKey, hk]
  omega

theorem skeinKey_div (drive slot sk : Nat) : skeinKey drive slot sk / 4096 = mediaKey drive slot / 4096 + sk % 512 * 16 := by
  unfold skeinKey
  omega

theorem unitPlain_in_unit (d : Dev) (u tweak : Nat) (c : Host.Cell) (hc : c ∈ d.unitPlain u tweak) :
    u * 4096 ≤ c.1 ∧ c.1 < u * 4096 + 4096 := by
  have hcells (h : c ∈ d.far.media.filter fun c => u * 4096 ≤ c.1 && c.1 < u * 4096 + 4096) : u * 4096 ≤ c.1 ∧ c.1 < u * 4096 + 4096 := by
    simpa using (List.mem_filter.1 h).2
  unfold Dev.unitPlain at hc
  dsimp only at hc
  split at hc
  · exact hcells hc
  · split at hc
    · exact hcells hc
    · obtain ⟨i, hi, rfl⟩ := List.mem_map.1 (List.mem_of_mem_filter hc)
      have := List.mem_range.1 hi
      dsimp only
      omega

/-- A unit that was written under the tweak it is read with, or was not written, gives what the media holds. -/
theorem mem_unitPlain_iff (d : Dev) (u tweak : Nat) (c : Host.Cell) (htweak : ∀ w, tget d.far.tweaks u = some w → w = tweak) :
    c ∈ d.unitPlain u tweak ↔ c ∈ d.far.media ∧ u * 4096 ≤ c.1 ∧ c.1 < u * 4096 + 4096 := by
  have hplain : d.unitPlain u tweak = d.far.media.filter fun c => u * 4096 ≤ c.1 && c.1 < u * 4096 + 4096 := by
    unfold Dev.unitPlain
    dsimp only
    split
    · rfl
    · next w hw => exact if_pos (htweak w hw)
  simp [hplain]

theorem mem_skeinPlain_iff (d : Dev) (drive slot sk : Nat) (c : Host.Cell) :
    c ∈ d.skeinPlain drive slot sk ↔ ∃ j < 16, c ∈ d.unitPlain (skeinUnit drive slot sk j) (sk * 16 + j) := by
  simp [Dev.skeinPlain, skeinUnit]

theorem skeinPlain_in_skein (d : Dev) (drive slot sk : Nat) (c : Host.Cell) (hc : c ∈ d.skeinPlain drive slot sk) :
    skeinKey drive slot sk ≤ c.1 ∧ c.1 < skeinKey drive slot sk + 65536 := by
  obtain ⟨j, hj, hc⟩ := (mem_skeinPlain_iff d drive slot sk c).1 hc
  have hunit := unitPlain_in_unit d _ _ c hc
  rw [skeinUnit_bytes] at hunit
  omega

/-- A skein whose units were written under its own pool address decrypts to what the media holds of it. -/
theorem mem_skeinPlain_iff_media (d : Dev) (drive slot sk : Nat) (c : Host.Cell)
    (htweaks : ∀ j < 16, ∀ w, tget d.far.tweaks (skeinUnit drive slot sk j) = some w → w = sk * 16 + j) :
    c ∈ d.skeinPlain drive slot sk ↔ c ∈ d.far.media ∧ skeinKey drive slot sk ≤ c.1 ∧ c.1 < skeinKey drive slot sk + 65536 := by
  rw [mem_skeinPlain_iff]
  constructor
  · rintro ⟨j, hj, hc⟩
    obtain ⟨hmem, hlo, hhi⟩ := (mem_unitPlain_iff d _ _ c (htweaks j hj)).1 hc
    rw [skeinUnit_bytes] at hlo hhi
    exact ⟨hmem, by omega, by omega⟩
  · rintro ⟨hmem, hlo, hhi⟩
    have hj : (c.1 - skeinKey drive slot sk) / 4096 < 16 := by omega
    refine ⟨_, hj, (mem_unitPlain_iff d _ _ c (htweaks _ hj)).2 ⟨hmem, ?_, ?_⟩⟩ <;> rw [skeinUnit_bytes] <;> omega

/-! ## A fetch and a write-back (R262) -/

theorem loadSkein_mem (d : Dev) (drive slot sk near : Nat) :
    (d.loadSkein drive slot sk near).mem = layCells d.mem (d.skeinPlain drive slot sk) (skeinKey drive slot sk) (near * 65536) 65536 := rfl

@[simp] theorem storeSkein_mem (d : Dev) (drive slot sk near : Nat) : (d.storeSkein drive slot sk near).mem = d.mem := rfl

theorem storeSkein_media (d : Dev) (drive slot sk near : Nat) :
    (d.storeSkein drive slot sk near).far.media =
      layCells d.far.media (d.mem.filter fun c => near * 65536 ≤ c.1 && c.1 < near * 65536 + 65536) (near * 65536)
        (skeinKey drive slot sk) 65536 := rfl

theorem tget_setTweaks (d : Dev) (key addr n j : Nat) (hj : j < n) :
    tget (d.setTweaks key addr n).far.tweaks (key / 4096 + j) = some (addr / 4096 + j) := by
  simp only [Dev.setTweaks]
  induction n with
  | zero => omega
  | succ n ih =>
    rw [List.range_succ, List.foldl_append, List.foldl_cons, List.foldl_nil, tget_tput]
    split
    · next heq => rw [show j = n by omega]
    · exact ih (by omega)

/-- A write-back encrypts every unit under the skein's own pool address. -/
theorem tget_storeSkein_tweaks (d : Dev) (drive slot sk near j : Nat) (hj : j < 16) :
    tget (d.storeSkein drive slot sk near).far.tweaks (skeinUnit drive slot sk j) = some (sk * 16 + j) := by
  rw [show sk * 16 + j = sk * 65536 / 4096 + j by omega, skeinUnit, ← skeinKey_div]
  exact tget_setTweaks _ _ _ 16 j hj

section

variable (d : Dev) (drive slot sk near : Nat) (hmem : Memory.wf d.mem = true) (hmedia : Memory.wf d.far.media = true)
include hmem

theorem memGet_loadSkein_outside (a : Nat) (hout : a < near * 65536 ∨ near * 65536 + 65536 ≤ a) :
    memGet (d.loadSkein drive slot sk near).mem a = memGet d.mem a := by
  rw [loadSkein_mem, memGet_layCells_outside _ hmem (skeinPlain_in_skein d drive slot sk) hout]

include hmedia

theorem memGet_loadSkein_inside
    (htweaks : ∀ j < 16, ∀ w, tget d.far.tweaks (skeinUnit drive slot sk j) = some w → w = sk * 16 + j) (i : Nat) (hi : i < 65536) :
    memGet (d.loadSkein drive slot sk near).mem (near * 65536 + i) = memGet d.far.media (skeinKey drive slot sk + i) := by
  rw [loadSkein_mem, memGet_layCells_inside _ hmem hmedia (fun c => mem_skeinPlain_iff_media d drive slot sk c htweaks) hi]

theorem memGet_storeSkein_media (i : Nat) (hi : i < 65536) :
    memGet (d.storeSkein drive slot sk near).far.media (skeinKey drive slot sk + i) = memGet d.mem (near * 65536 + i) := by
  rw [storeSkein_media, memGet_layCells_inside _ hmedia hmem (fun c => by simp) hi]

/-- What a write-back has stored, a fetch into any slot of the near tier brings back. -/
theorem memGet_loadSkein_storeSkein (near' i : Nat) (hi : i < 65536) :
    memGet ((d.storeSkein drive slot sk near).loadSkein drive slot sk near').mem (near' * 65536 + i) = memGet d.mem (near * 65536 + i) := by
  have hstored : Memory.wf (d.storeSkein drive slot sk near).far.media = true := by
    rw [storeSkein_media]
    exact layCells_wf _ hmedia
  have htweaks : ∀ j < 16, ∀ w, tget (d.storeSkein drive slot sk near).far.tweaks (skeinUnit drive slot sk j) = some w → w = sk * 16 + j := by
    intro j hj w hw
    rw [tget_storeSkein_tweaks d drive slot sk near j hj] at hw
    exact (Option.some.inj hw).symm
  rw [memGet_loadSkein_inside (d.storeSkein drive slot sk near) drive slot sk near' (by rwa [storeSkein_mem]) hstored htweaks i hi,
    memGet_storeSkein_media d drive slot sk near hmem hmedia i hi]

end

/-- Settles O31: a fetch lays the plaintext of the drive's skein over a cleared slot, and a write-back stores it under the tweaks that the
fetch reads it with. -/
theorem fetchedSkeinsHoldWhatTheDriveHolds : Obligations.FetchedSkeinsHoldWhatTheDriveHolds :=
  ⟨fun d drive slot sk near hmem hmedia =>
    ⟨memGet_loadSkein_inside d drive slot sk near hmem hmedia, memGet_loadSkein_outside d drive slot sk near hmem⟩,
   fun d drive slot sk near near' hmem hmedia => memGet_loadSkein_storeSkein d drive slot sk near hmem hmedia near'⟩

end Sys2Proof.Machine

/-! What counting, reporting and moving time on leave of the links and of the output queues (R415, R418, R429, R430). -/

namespace Sys2Proof.Machine

@[simp] theorem links_bump (d : Dev) (off lo : Nat) : (d.bump off lo).links = d.links := by
  obtain ⟨r, p, h⟩ := bump_changes d off lo
  rw [h]

@[simp] theorem link_bump (d : Dev) (off lo l : Nat) : (d.bump off lo).link l = d.link l := by
  simp only [Dev.link, links_bump]

@[simp] theorem queue_bump (d : Dev) (off lo o : Nat) : (d.bump off lo).queue o = d.queue o := by
  obtain ⟨r, p, h⟩ := bump_changes d off lo
  rw [h]
  rfl

@[simp] theorem queue_till (d : Dev) (t o : Nat) : (d.till t).queue o = d.queue o := rfl

@[simp] theorem link_setReg (d : Dev) (off v l : Nat) : (d.setReg off v).link l = d.link l := rfl

@[simp] theorem links_log (d : Dev) (source origin code status arg0 arg1 : Nat) :
    (d.log source origin code status arg0 arg1).links = d.links := by
  obtain ⟨e, r, p, h⟩ := log_changes d source origin code status arg0 arg1
  rw [h]

@[simp] theorem links_logSrc (d : Dev) (source origin status : Nat) : (d.logSrc source origin status).links = d.links := by
  simp [Dev.logSrc]

@[simp] theorem links_msixBoth (d : Dev) : d.msixBoth.links = d.links := by
  simp [Dev.msixBoth, Dev.msix, apply_ite Dev.links]

/-- The mirror's choice of the links that carry it changes no link (R306, R310, R315). -/
@[simp] theorem links_carryUpdate (d : Dev) : d.carryUpdate.links = d.links := by
  have hsuspect (e : Dev) (cause : Nat) : (e.mirSuspect cause).links = e.links := by
    simp [Dev.mirSuspect, apply_ite Dev.links]
  have hresend (h : Nat) (rs : List RepRec) (e : Dev) : (forEach rs (fun r d => d.queueOn h r.m) e).links = e.links :=
    forEach_keeps Dev.links (fun r d => d.queueOn h r.m) (fun _ _ => rfl) rs e
  unfold Dev.carryUpdate
  dsimp only
  split
  · rfl
  · split
    · simp [apply_ite Dev.links, hsuspect]
    · rw [hresend]

@[simp] theorem link_carryUpdate (d : Dev) (l : Nat) : d.carryUpdate.link l = d.link l := by
  simp only [Dev.link, links_carryUpdate]

/-- Every control cell acknowledges what has been accepted (R277). -/
@[simp] theorem link_control (d : Dev) (l type : Nat) (fields : List Byte) :
    (d.control l type fields).link l = { d.link l with uncovered := 0 } :=
  Dev.link_setLink_same d l fun k => { k with uncovered := 0 }

@[simp] theorem link_sendParam (d : Dev) (l echo : Nat) :
    (d.sendParam l echo).link l = { d.link l with stamps := (d.link l).stamps ++ [d.now % 65536], uncovered := 0 } := by
  simp [Dev.sendParam]

/-- A change of a link is what it makes of the link that is there. -/
theorem setLink_congr {d : Dev} {l : Nat} {f g : Link → Link} (h : f (d.link l) = g (d.link l)) : d.setLink l f = d.setLink l g := by
  rw [Dev.setLink, Dev.setLink, h]

/-- Only an ACTIVE link is acknowledged anything (R279). -/
theorem applyAck_inactive (d : Dev) (l a f : Nat) (hstate : (d.link l).state ≠ 6) : d.applyAck l a f = d := by
  simp [Dev.applyAck, hstate]

/-- ACK_SEQ outside what is outstanding frees nothing (R279, R280). -/
theorem applyAck_flow (d : Dev) (l a f : Nat) (hstate : (d.link l).state = 6)
    (h : (d.link l).outstanding ≤ (a + 4096 - (d.link l).oldest) % 4096) :
    d.applyAck l a f = d.setLink l fun k => { k with peerXoff0 := bit f 0, peerXoff1 := bit f 1 } := by
  rw [Dev.applyAck, if_neg (not_not.2 hstate), if_pos h]

/-- R279, R280: ACK_SEQ frees its cell and those before it. -/
theorem applyAck_frees (d : Dev) (l a f : Nat) (hstate : (d.link l).state = 6)
    (h : (a + 4096 - (d.link l).oldest) % 4096 < (d.link l).outstanding) :
    d.applyAck l a f = (d.setLink l fun k => { k with peerXoff0 := bit f 0, peerXoff1 := bit f 1 }).setLink l fun k =>
      { k with
        oldest := (a + 1) % 4096, oldestAt := d.now
        replay := k.replay.filter fun c => (a + 4096 - (d.link l).oldest) % 4096 < (c.seq + 4096 - k.oldest) % 4096
        passes := if ((d.link l).passStart + 4096 - (d.link l).oldest) % 4096 ≤ (a + 4096 - (d.link l).oldest) % 4096 then 0 else k.passes } := by
  rw [Dev.applyAck, if_neg (not_not.2 hstate), if_neg (Nat.not_le.2 h)]
  rfl

/-- An acknowledgement ends no training and begins none. -/
@[simp] theorem applyAck_state (d : Dev) (l a f : Nat) : ((d.applyAck l a f).link l).state = (d.link l).state := by
  by_cases hstate : (d.link l).state = 6
  · rcases Nat.lt_or_ge ((a + 4096 - (d.link l).oldest) % 4096) (d.link l).outstanding with h | h
    · simp [applyAck_frees d l a f hstate h]
    · simp [applyAck_flow d l a f hstate h]
  · rw [applyAck_inactive d l a f hstate]

end Sys2Proof.Machine

/-! A training from DETECT to ALIGN, and its failure (R271 to R273, Table 12.4). -/

namespace Sys2Proof.Machine

/-- A link that begins training: nothing is outstanding, partly received or encrypted, and GL_LINK_CTL is taken anew (R272). -/
theorem link_linkDetect (d : Dev) (l : Nat) :
    (d.linkDetect l).link l =
      { state := if d.linkHeld l then 0 else 1, reason := (d.link l).reason, failedOnce := (d.link l).failedOnce, stepAt := d.now,
        ctl := d.ctlNow l, lowered := (d.link l).lowered, used0 := (d.link l).used0, used1 := (d.link l).used1 } := by
  simp [Dev.linkDetect]

/-- R273: a failed training records its reason and begins again; only the first failure since ACTIVE is reported. -/
theorem trainFail_restarts (d : Dev) (l reason : Nat) :
    ∃ e : Dev, (e.link l).reason = reason ∧ (e.link l).failedOnce = true ∧ (e.link l).state = (if d.linkHeld l then 0 else 1) ∧
      d.trainFail l reason = if (d.link l).failedOnce then e else e.linkEvent l (d.link l).peerNode 1 := by
  refine ⟨(d.linkDetect l).setLink l fun k => { k with reason := reason, failedOnce := true }, ?_, ?_, ?_, rfl⟩ <;>
    simp [link_linkDetect]

/-- Table 12.4 step 6. -/
theorem linkActive_starts (d : Dev) (l : Nat) :
    ∃ e : Dev, d.linkActive l = (e.linkEvent l (d.link l).peerNode 6).carryUpdate ∧ (e.link l).state = 6 ∧ (e.link l).replay = [] ∧
      (e.link l).expected = 0 := by
  refine ⟨d.setLink l fun k => { k with state := 6, reason := 0, failedOnce := false, expected := 0, nextSeq := 0, oldest := 0, replay := [] },
    ?_, ?_, ?_, ?_⟩ <;> simp [Dev.linkActive]

end Sys2Proof.Machine

/-! PARAM and KEYING (R274, R287, Table 12.4). -/

namespace Sys2Proof.Machine

section
variable (d : Dev) (l : Nat) (p : ParamCell)

/-- The link after a PARAM cell has named its partner (R274). -/
def Dev.paramPeer : Dev :=
  d.setLink l fun k => { k with peerRole := paramRole p, peerClass := paramClass p, peerNode := p.node }

/-- The round trips measured, with that of the STAMP that a PARAM cell returns (R274). -/
def Dev.paramTrips : List Nat :=
  if nmem (d.link l).stamps p.echo then (d.link l).trips ++ [(d.now + 65536 - p.echo) % 65536] else (d.link l).trips

/-- The answer to a PARAM cell that agrees (R274). -/
def Dev.paramAnswered : Dev :=
  ((d.paramPeer l p).setLink l fun k =>
    { k with trips := if nmem k.stamps p.echo then k.trips ++ [(d.now + 65536 - p.echo) % 65536] else k.trips }).sendParam l p.stamp

theorem paramAnswered_eq :
    d.paramAnswered l p = ((d.paramPeer l p).setLink l fun k => { k with trips := d.paramTrips l p }).sendParam l p.stamp := by
  have hlink : (d.paramPeer l p).link l = { d.link l with peerRole := paramRole p, peerClass := paramClass p, peerNode := p.node } :=
    Dev.link_setLink_same ..
  rw [Dev.paramAnswered]
  refine congrArg (Dev.sendParam · l p.stamp) (setLink_congr ?_)
  rw [hlink]
  rfl

@[simp] theorem link_paramAnswered :
    (d.paramAnswered l p).link l = { d.link l with
      peerRole := paramRole p, peerClass := paramClass p, peerNode := p.node, trips := d.paramTrips l p,
      stamps := (d.link l).stamps ++ [d.now % 65536], uncovered := 0 } := by
  simp [paramAnswered_eq, Dev.paramPeer]

theorem paramRefused_mismatch (h : p.width ≠ (d.link l).width ∨ p.rate ≠ (d.link l).rate ∨ p.node = d.ownNode ∨ p.node = 0) :
    d.paramRefused l p = some 4 := by
  simp only [Dev.paramRefused, Bool.or_eq_true, decide_eq_true_eq, or_assoc]
  exact if_pos h

variable (hagree : ¬ (p.width ≠ (d.link l).width ∨ p.rate ≠ (d.link l).rate ∨ p.node = d.ownNode ∨ p.node = 0))
include hagree

theorem paramRefused_agree :
    d.paramRefused l p =
      if paramRole p ≠ bits (d.link l).ctl 28 2 ∨ (bits (d.link l).ctl 28 2 ≠ 0 ∧ paramClass p ≠ 2) then some 5 else none := by
  simp only [Dev.paramRefused, Bool.or_eq_true, Bool.and_eq_true, decide_eq_true_eq, or_assoc]
  exact if_neg hagree

end

section
variable {s : State} {l : Nat} {p : ParamCell} (a f : Nat) (hstate : (s.dev.link l).state = 4)
include hstate

theorem makes_param_refused {reason : Nat} (hrefused : s.dev.paramRefused l p = some reason) :
    Makes (.param l a f p) s ((s.dev.paramPeer l p).trainFail l reason) := by
  refine makes_of_next rfl ?_
  simp [applyAck_inactive, hstate, hrefused, Dev.paramPeer]

theorem makes_param_agreed (hagreed : s.dev.paramRefused l p = none) {d : Dev}
    (h : (if (s.dev.paramTrips l p).length < 16 then s.dev.paramAnswered l p else (s.dev.paramAnswered l p).paramEnd l) = d) :
    Makes (.param l a f p) s d := by
  refine makes_of_next rfl (Eq.trans ?_ h)
  have htrips : ((s.dev.paramAnswered l p).link l).trips = s.dev.paramTrips l p := by rw [link_paramAnswered]
  rw [← htrips]
  have hidle : s.dev.applyAck l a f = s.dev := applyAck_inactive _ _ _ _ (by omega)
  dsimp only
  rw [hidle, if_neg (not_not.2 hstate), hagreed]
  rfl

end

/-! ## After the sixteenth round trip -/

section
variable (d : Dev) (l : Nat)

theorem paramEnd_far (h : 900 * 64 < 5 * (d.link l).trips.sum) : d.paramEnd l = d.trainFail l 6 := if_pos h

variable (h : 5 * (d.link l).trips.sum ≤ 900 * 64)
include h

theorem paramEnd_fabric (hrole : bits (d.link l).ctl 28 2 = 0) :
    d.paramEnd l = (d.setLink l fun k => { k with rttNs := 5 * (d.link l).trips.sum / 64 }).linkActive l := by
  simp [Dev.paramEnd, Nat.not_lt.2 h, hrole]

theorem paramEnd_keyed (hrole : bits (d.link l).ctl 28 2 ≠ 0) :
    d.paramEnd l = (d.setLink l fun k => { k with rttNs := 5 * (d.link l).trips.sum / 64 }).keying l := by
  simp [Dev.paramEnd, Nat.not_lt.2 h, hrole]

end

/-- R274, R287: a PARAM cell by whether it agrees, and then by the round trips measured and the role of the link. -/
theorem paramCells (s : State) (l a f : Nat) (p : ParamCell) (hstate : (s.dev.link l).state = 4) :
    (p.width ≠ (s.dev.link l).width ∨ p.rate ≠ (s.dev.link l).rate ∨ p.node = s.dev.ownNode ∨ p.node = 0 →
      Makes (.param l a f p) s ((s.dev.paramPeer l p).trainFail l 4)) ∧
    (p.width = (s.dev.link l).width → p.rate = (s.dev.link l).rate → p.node ≠ s.dev.ownNode → p.node ≠ 0 →
      (paramRole p ≠ bits (s.dev.link l).ctl 28 2 ∨ (bits (s.dev.link l).ctl 28 2 ≠ 0 ∧ paramClass p ≠ 2) →
        Makes (.param l a f p) s ((s.dev.paramPeer l p).trainFail l 5)) ∧
      (paramRole p = bits (s.dev.link l).ctl 28 2 → bits (s.dev.link l).ctl 28 2 = 0 ∨ paramClass p = 2 →
        ((s.dev.paramTrips l p).length < 16 → Makes (.param l a f p) s (s.dev.paramAnswered l p)) ∧
        (16 ≤ (s.dev.paramTrips l p).length → Makes (.param l a f p) s ((s.dev.paramAnswered l p).paramEnd l)))) := by
  refine ⟨fun h => makes_param_refused a f hstate (paramRefused_mismatch _ _ _ h), fun hwidth hrate hown hzero => ?_⟩
  have hagree := paramRefused_agree s.dev l p (by simp [hwidth, hrate, hown, hzero])
  refine ⟨fun h => ?_, fun hrole hclass => ?_⟩
  · exact makes_param_refused a f hstate (hagree.trans (if_pos h))
  · have hagreed := hagree.trans (if_neg (by tauto))
    exact ⟨fun h => makes_param_agreed a f hstate hagreed (if_pos h),
      fun h => makes_param_agreed a f hstate hagreed (if_neg (Nat.not_lt.2 h))⟩

/-! ## KEY cells -/

/-- R287: a KEY cell by what the link is doing. -/
theorem keyCells (s : State) (l a f nonce salt : Nat) :
    (∀ keys, (s.dev.link l).state = 5 → keys = linkKeys s.dev.ownNode (s.dev.link l).peerNode (s.dev.link l).nonce nonce →
      Makes (.key l a f nonce salt true) s ((s.dev.setLink l fun x => { x with
        encrypted := true, peerNonce := nonce, peerSalt := salt, sendGroup := 0, recvGroup := 0,
        sendKey := if s.dev.ownNode < (s.dev.link l).peerNode then keys.1 else keys.2,
        recvKey := if s.dev.ownNode < (s.dev.link l).peerNode then keys.2 else keys.1,
        openGroup := 0, groupFields := [], groupText := [], authFails := 0 }).linkActive l) ∧
      Makes (.key l a f nonce salt false) s (s.dev.trainFail l 7)) ∧
    (∀ x, (s.dev.link l).state = 6 → Makes (.key l a f nonce salt x) s ((s.dev.applyAck l a f).malformed l)) := by
  refine ⟨?_, fun x hstate => makes_of_next rfl ?_⟩
  · rintro keys hstate rfl
    have hidle : s.dev.applyAck l a f = s.dev := applyAck_inactive _ _ _ _ (by omega)
    refine ⟨makes_of_next rfl ?_, makes_of_next rfl ?_⟩ <;> simp [hidle, hstate]
  · simp [hstate]

end Sys2Proof.Machine

/-! The training as a whole. -/

namespace Sys2Proof.Machine

/-- R271 to R274, R287, Table 12.4: step by step. -/
theorem linkTraining : Says.LinkTraining := by
  intro s l
  dsimp only
  refine ⟨fun lanes hstate hlanes => makes_of_next rfl ?_, ?_, ?_, fun lanes hstate hnone => makes_of_next rfl ?_,
    fun hstate hnode => makes_of_next rfl ?_, fun d echo => rfl, fun hstate hnode => makes_of_next rfl ?_,
    fun hlo hhi => makes_of_next rfl ?_, ?_, fun a f nonce salt => (keyCells s l a f nonce salt).1,
    fun a f nonce salt => (keyCells s l a f nonce salt).2, fun d => trainFail_restarts d l, fun d => linkActive_starts d l⟩
  · simp [hstate, hlanes]
  · rintro d hstate rfl
    refine makes_of_next rfl ?_
    simp [hstate]
  · rintro lanes w d hstate rfl hw rfl
    refine makes_of_next rfl ?_
    simp [hstate, hw]
  · simp [hstate, hnone]
  · simp [hstate, hnode]
  · simp [hstate, hnode]
  · have hstep : ¬ ((s.dev.link l).state ≤ 1 ∨ 5 < (s.dev.link l).state) := by omega
    simp [hstep]
  · rintro a f p own role cls hstate rfl rfl rfl e rfl
    obtain ⟨hmismatch, hmatch⟩ := paramCells s l a f p hstate
    refine ⟨hmismatch, fun hwidth hrate hown hzero => ?_⟩
    obtain ⟨hrefused, hagreed⟩ := hmatch hwidth hrate hown hzero
    refine ⟨hrefused, fun hrole hclass => ?_⟩
    obtain ⟨hmore, hlast⟩ := hagreed hrole hclass
    intro trips g htrips hg
    obtain rfl : trips = s.dev.paramTrips l p := htrips
    obtain rfl : g = s.dev.paramAnswered l p := hg.trans (paramAnswered_eq s.dev l p).symm
    have hlink := link_paramAnswered s.dev l p
    refine ⟨hmore, fun hlen hfar => ?_, ?_⟩
    · rw [← paramEnd_far _ l (by rwa [hlink])]
      exact hlast hlen
    · rintro d nonce salt hlen hnear rfl rfl rfl
      have hend := hlast hlen
      refine ⟨fun hfabric => ?_, fun hkeyed => ?_⟩
      · rwa [paramEnd_fabric _ l (by rwa [hlink]) (by rwa [hlink]), hlink] at hend
      · rwa [paramEnd_keyed _ l (by rwa [hlink]) (by rwa [hlink]), hlink] at hend

end Sys2Proof.Machine

/-! How an ACTIVE link breaks, and what makes a broken one train again (R282, R283, Table 12.9). -/

namespace Sys2Proof.Machine

section
variable (d : Dev) (l reason : Nat)

/-- The RESET cell of a link that breaks, with its break and its truncated messages counted (R282, R298). -/
def Dev.breakCounted : Dev :=
  ((d.control l 6 []).bump (0x40002C + 0x10000 * l) 16).bumps 0x600018 0
    (b2n (!(d.link l).partial0.isEmpty) + b2n (!(d.link l).partial1.isEmpty))

@[simp] theorem mem_breakCounted : (d.breakCounted l).mem = d.mem := by
  obtain ⟨r, p, hbumps⟩ := bumps_changes 0x600018 0 (b2n (!(d.link l).partial0.isEmpty) + b2n (!(d.link l).partial1.isEmpty))
    ((d.control l 6 []).bump (0x40002C + 0x10000 * l) 16)
  obtain ⟨r', p', hbump⟩ := bump_changes (d.control l 6 []) (0x40002C + 0x10000 * l) 16
  rw [Dev.breakCounted, hbumps, hbump]
  rfl

/-- The device with a link declared broken, before the break is reported or anything routed again. -/
def Dev.linkDown : Dev :=
  (d.breakCounted l).setLink l fun k => { k with
    state := 7, reason := reason, brokenAt := (d.breakCounted l).now, replay := [], heldCells := [], openGroup := 0, groupFields := [],
    groupText := [], partial0 := [], partial1 := [], stray0 := false, stray1 := false,
    used0 := k.used0 - k.partial0.length, used1 := k.used1 - k.partial1.length }

/-- A broken link holds nothing unacknowledged and no partial message, and memory is as it was. -/
theorem linkDown_holdsNothing :
    ((d.linkDown l reason).link l).state = 7 ∧ ((d.linkDown l reason).link l).reason = reason ∧
    ((d.linkDown l reason).link l).replay = [] ∧ ((d.linkDown l reason).link l).partial0 = [] ∧
    ((d.linkDown l reason).link l).partial1 = [] ∧ ((d.linkDown l reason).link l).heldCells = [] ∧
    (d.linkDown l reason).mem = d.mem := by
  simp [Dev.linkDown]

theorem linkBreak_inactive (h : (d.link l).state ≠ 6) : d.linkBreak l reason = d := if_pos h

/-- R282, R296: the queue of a broken mirror link goes; what another had not been acknowledged is routed again. -/
theorem linkBreak_active (h : (d.link l).state = 6) :
    d.linkBreak l reason =
      if (d.link l).peerRole = 2 then
        (let f := (d.linkDown l reason).linkEvent l (d.link l).peerNode 7
         ({ f with router := { f.router with queues := tdel f.router.queues l } } : Dev).carryUpdate)
      else forEach (d.link l).unsent (fun x d => (d.bump 0x600014 16).route x.1 x.2 true)
        ((d.linkDown l reason).linkEvent l (d.link l).peerNode 7) := if_neg (not_not.2 h)

theorem linkBreak_holdsNothing (h : (d.link l).state = 6) :
    ∃ e : Dev, (e.link l).state = 7 ∧ (e.link l).reason = reason ∧ (e.link l).replay = [] ∧
      (e.link l).partial0 = [] ∧ (e.link l).partial1 = [] ∧ (e.link l).heldCells = [] ∧ e.mem = d.mem ∧
      ((d.link l).peerRole ≠ 2 →
        d.linkBreak l reason = forEach (d.link l).unsent (fun x d => (d.bump 0x600014 16).route x.1 x.2 true) (e.linkEvent l (d.link l).peerNode 7)) ∧
      ((d.link l).peerRole = 2 → d.linkBreak l reason =
        (let f := e.linkEvent l (d.link l).peerNode 7
         ({ f with router := { f.router with queues := tdel f.router.queues l } } : Dev).carryUpdate)) := by
  obtain ⟨hstate, hreason, hreplay, hpart0, hpart1, hheld, hmem⟩ := linkDown_holdsNothing d l reason
  rw [linkBreak_active d l reason h]
  exact ⟨d.linkDown l reason, hstate, hreason, hreplay, hpart0, hpart1, hheld, hmem, fun hrole => if_neg hrole, fun hrole => if_pos hrole⟩

/-- R272, R283: numbers, replay buffer and keys are new, and GL_LINK_CTL is taken anew. -/
theorem linkDetect_starts :
    ∃ e : Dev, d.linkDetect l = e.carryUpdate ∧ (e.link l).state = (if d.linkHeld l then 0 else 1) ∧ (e.link l).expected = 0 ∧
      (e.link l).nextSeq = 0 ∧ (e.link l).replay = [] ∧ (e.link l).encrypted = false ∧ (e.link l).ctl = d.ctlNow l := by
  refine ⟨_, rfl, ?_⟩
  simp

end

/-! ## GL_LINK_CTL (R282) -/

section
variable (s : State) (l who : Nat) (hwho : administers s.dev who)
include hwho

theorem makes_linkCtlReset {d : Dev} (h : s.dev.linkReset l = d) : Makes (.linkCtlReset who l) s d :=
  makes_of_next rfl ((leasedWrite_administers _ _ _ _ hwho).trans h)

theorem makes_linkCtlEnable {on : Bool} {d : Dev} (h : s.dev.linkEnable l on = d) : Makes (.linkCtlEnable who l on) s d :=
  makes_of_next rfl ((leasedWrite_administers _ _ _ _ hwho).trans h)

/-- R282, R283: RESET and ENABLE by the state of the link. -/
theorem linkCtlWrites :
    ((s.dev.link l).state = 6 → Makes (.linkCtlReset who l) s (s.dev.linkBreak l 8)) ∧
    ((s.dev.link l).state = 7 → Makes (.linkCtlReset who l) s (s.dev.linkDetect l)) ∧
    (∀ d, d = s.dev.setReg (0x400000 + 0x10000 * l) (setBits (s.dev.reg (0x400000 + 0x10000 * l)) 31 1 1) →
      ((s.dev.link l).state = 0 → Makes (.linkCtlEnable who l true) s (d.linkDetect l)) ∧
      ((s.dev.link l).state ≠ 0 → Makes (.linkCtlEnable who l true) s d)) ∧
    (∀ d, d = s.dev.setReg (0x400000 + 0x10000 * l) (setBits (s.dev.reg (0x400000 + 0x10000 * l)) 31 1 0) →
      ((s.dev.link l).state ≠ 0 →
        Makes (.linkCtlEnable who l false) s (((d.linkBreak l 8).linkDetect l).setLink l fun k => { k with state := 0 })) ∧
      ((s.dev.link l).state = 0 → Makes (.linkCtlEnable who l false) s d)) := by
  refine ⟨fun hstate => ?_, fun hstate => ?_, ?_, ?_⟩
  · exact makes_linkCtlReset s l who hwho (by simp [Dev.linkReset, hstate])
  · exact makes_linkCtlReset s l who hwho (by simp [Dev.linkReset, hstate])
  · rintro d rfl
    refine ⟨fun hstate => ?_, fun hstate => ?_⟩ <;> refine makes_linkCtlEnable s l who hwho ?_ <;> simp [Dev.linkEnable, hstate, b2n]
  · rintro d rfl
    refine ⟨fun hstate => ?_, fun hstate => ?_⟩ <;> refine makes_linkCtlEnable s l who hwho ?_ <;> simp [Dev.linkEnable, hstate, b2n]

end

/-- R282, R283, Table 12.9: the causes of a break, GL_LINK_CTL, and what a break and a new training leave. -/
theorem linkBreaks : Says.LinkBreaks := by
  refine ⟨fun s l who => ⟨rfl, fun a f => rfl, fun hstate hout => makes_of_next rfl ?_, fun hstate hauto => makes_of_next rfl ?_,
    linkCtlWrites s l who⟩, linkBreak_holdsNothing, linkBreak_inactive, linkDetect_starts⟩
  · simp [hstate, hout]
  · simp [hstate, hauto]

/-- Settles O32: the training of a link, and what breaks it. -/
theorem linksTrainAndBreak : Obligations.LinksTrainAndBreak := ⟨linkTraining, linkBreaks⟩

end Sys2Proof.Machine

/-! Cells in and out of their turn, and the messages they make (R86, R275, R276, R284). -/

namespace Sys2Proof.Machine

/-! ## The sequence check (R276) -/

section
variable (d : Dev) (l : Nat) (c : Cell)

/-- The device with a cell in its turn accepted: E has moved on, and an entry of the input buffer is taken. -/
def Dev.cellTaken : Dev :=
  d.setLink l fun k => { k with
    expected := (k.expected + 1) % 4096, uncovered := k.uncovered + 1, replaySent := none,
    uncoveredAt := if k.uncovered = 0 then d.now else k.uncoveredAt,
    used0 := if chanOf c = 0 then k.used0 + 1 else k.used0, used1 := if chanOf c = 0 then k.used1 else k.used1 + 1 }

theorem cellTaken_takes (hroom : 0 < (d.link l).free (chanOf c)) :
    ((d.cellTaken l c).link l).expected = ((d.link l).expected + 1) % 4096 ∧
    ((d.cellTaken l c).link l).uncovered = (d.link l).uncovered + 1 ∧
    ((d.cellTaken l c).link l).free (chanOf c) + 1 = (d.link l).free (chanOf c) := by
  refine ⟨by simp [Dev.cellTaken], by simp [Dev.cellTaken], ?_⟩
  by_cases hchan : chanOf c = 0 <;> simp [Link.free, hchan, Dev.cellTaken] at hroom ⊢ <;> omega

theorem cellSeq_again (h : 2048 ≤ (seqOf c + 4096 - (d.link l).expected) % 4096) :
    d.cellSeq l c = (d.bump (0x400028 + 0x10000 * l) 0).control l (b2n !(d.queue l).isEmpty) [] := by
  rw [Dev.cellSeq, if_pos h, Dev.ackCell, queue_bump]

theorem cellSeq_early (hlo : 0 < (seqOf c + 4096 - (d.link l).expected) % 4096) (hhi : (seqOf c + 4096 - (d.link l).expected) % 4096 < 2048) :
    d.cellSeq l c = d.askReplay l false := by
  rw [Dev.cellSeq, if_neg (Nat.not_le.2 hhi), if_pos (Nat.ne_of_gt hlo)]

theorem cellSeq_full (hturn : (seqOf c + 4096 - (d.link l).expected) % 4096 = 0) (hfull : (d.link l).free (chanOf c) = 0) :
    d.cellSeq l c = d.bump (0x400024 + 0x10000 * l) 0 := by
  simp [Dev.cellSeq, hturn, hfull]

/-- R276, R279: an accepted cell goes to its message, and is acknowledged at once where enough wait for that. -/
theorem cellSeq_accepted (hturn : (seqOf c + 4096 - (d.link l).expected) % 4096 = 0) (hroom : 0 < (d.link l).free (chanOf c)) :
    d.cellSeq l c =
      (let t := ((d.cellTaken l c).flowCheck l (chanOf c)).cellNext l c
       if t.glFld l 0x10 0 7 ≤ (t.link l).uncovered then t.control l (b2n !(t.queue l).isEmpty) [] else t) := by
  rw [Dev.cellSeq, if_neg (by omega), if_neg (not_not.2 hturn), if_neg (Nat.ne_of_gt hroom)]
  rfl

end

/-! ## The kinds of cells (R86) -/

section
variable (d : Dev) (l : Nat) (c : Cell)

/-- The cells that a channel's unfinished message has so far. -/
def Link.partOf (k : Link) (vc : Nat) : List Cell := if vc = 0 then k.partial0 else k.partial1

/-- Cells that follow no head have come on a channel. -/
def Link.strayOf (k : Link) (vc : Nat) : Bool := if vc = 0 then k.stray0 else k.stray1

theorem cellNext_begins (hkind : kindOf c ≤ 1) (hpart : (d.link l).partOf (chanOf c) = [])
    (hstray : (d.link l).strayOf (chanOf c) = false) :
    d.cellNext l c = if kindOf c = 0 then d.msgIn l (chanOf c) [c] else d.setPart l (chanOf c) [c] false := by
  simp only [Link.partOf, Link.strayOf] at hpart hstray
  simp [Dev.cellNext, hkind, hpart, hstray]

/-- A message that begins before another has ended makes that one malformed. -/
theorem cellNext_interrupts (hkind : kindOf c ≤ 1) (hpart : (d.link l).partOf (chanOf c) ≠ []) :
    d.cellNext l c =
      (let t := ((d.setPart l (chanOf c) [] false).malformed l).dropCells l (chanOf c) ((d.link l).partOf (chanOf c)).length
       if kindOf c = 0 then t.msgIn l (chanOf c) [c] else t.setPart l (chanOf c) [c] false) := by
  simp only [Link.partOf] at hpart
  simp [Dev.cellNext, hkind, hpart, Link.partOf]

theorem cellNext_continues (hkind : 1 < kindOf c) (hpart : (d.link l).partOf (chanOf c) ≠ []) :
    d.cellNext l c =
      if kindOf c = 2 then d.setPart l (chanOf c) ((d.link l).partOf (chanOf c) ++ [c]) false
      else (d.setPart l (chanOf c) [] false).msgIn l (chanOf c) ((d.link l).partOf (chanOf c) ++ [c]) := by
  simp only [Link.partOf] at hpart
  simp [Dev.cellNext, Nat.not_le.2 hkind, hpart, Link.partOf]

/-- A body or a tail that follows no head: the sequence is counted once, at its tail. -/
theorem cellNext_strays (hkind : 1 < kindOf c) (hpart : (d.link l).partOf (chanOf c) = []) :
    d.cellNext l c =
      (if kindOf c = 3 then (d.setPart l (chanOf c) [] false).malformed l else d.setPart l (chanOf c) [] true).dropCells l (chanOf c) 1 := by
  simp only [Link.partOf] at hpart
  simp [Dev.cellNext, Nat.not_le.2 hkind, hpart]

end

/-! ## Whole messages -/

section
variable {d : Dev} {vc : Nat} {cells : List Cell} (l : Nat)

/-- R86: as many cells as the payload takes, or at most seven where its length is not known, make a message. -/
theorem msgIn_whole (hchan : vcOf (d.cellsMsg cells).cls = vc)
    (hcells : (∃ b, d.payloadLen (d.cellsMsg cells) = some b ∧ b ≤ 256 ∧ cells.length = cellsOf b) ∨
      (d.payloadLen (d.cellsMsg cells) = none ∧ cells.length ≤ 7)) :
    d.msgIn l vc cells = { d with router := { d.router with inputs := d.router.inputs ++ [(l, d.cellsMsg cells)] } } := by
  rcases hcells with ⟨b, hlen, hmax, hcells⟩ | ⟨hlen, hcells⟩
  · simp [Dev.msgIn, hchan, hlen, hmax, hcells]
  · simp [Dev.msgIn, hchan, hlen, hcells]

theorem msgIn_spoilt (h : vcOf (d.cellsMsg cells).cls ≠ vc ∨
      (∃ b, d.payloadLen (d.cellsMsg cells) = some b ∧ (256 < b ∨ cells.length ≠ cellsOf b)) ∨
      (d.payloadLen (d.cellsMsg cells) = none ∧ 7 < cells.length)) :
    d.msgIn l vc cells = (d.malformed l).dropCells l vc cells.length := by
  rcases h with hchan | ⟨b, hlen, hbad⟩ | ⟨hlen, hmany⟩
  · simp [Dev.msgIn, hchan]
  · simp [Dev.msgIn, hlen, hbad.symm]
  · simp [Dev.msgIn, hlen, hmany]

end

/-- R275, R276, R86: by the turn of the cell, by its kind and what came before it, and by what the cells of a message come to. -/
theorem cellsAreAccepted : Says.CellsAreAccepted := by
  intro d l c
  dsimp only
  refine ⟨cellSeq_again d l c, cellSeq_early d l c, cellSeq_full d l c, fun hturn hroom => ?_, fun hpart hstray => ⟨fun hkind => ?_, fun hkind => ?_⟩,
    fun hpart => ⟨fun hkind => ?_, fun hkind => ?_, ?_⟩, fun hpart => ⟨fun hkind => ?_, fun hkind => ?_⟩, ?_⟩
  · obtain ⟨hexpected, huncovered, hfree⟩ := cellTaken_takes d l c hroom
    refine ⟨d.cellTaken l c, rfl, hexpected, huncovered, hfree, ?_⟩
    rintro t rfl
    rw [cellSeq_accepted d l c hturn hroom]
    exact ⟨fun hdue => if_pos hdue, fun hdue => if_neg (Nat.not_le.2 hdue)⟩
  · rw [cellNext_begins d l c (by omega) hpart hstray, if_pos hkind]
  · rw [cellNext_begins d l c (by omega) hpart hstray, if_neg (by omega)]
  · rw [cellNext_continues d l c (by omega) hpart, if_pos hkind]
    rfl
  · rw [cellNext_continues d l c (by omega) hpart, if_neg (by omega)]
    rfl
  · rintro t rfl
    refine ⟨fun hkind => ?_, fun hkind => ?_⟩ <;> rw [cellNext_interrupts d l c (by omega) hpart]
    · exact if_pos hkind
    · exact if_neg (by omega)
  · rw [cellNext_strays d l c (by omega) hpart, if_neg (by omega)]
  · rw [cellNext_strays d l c (by omega) hpart, if_pos hkind]
  · rintro vc cells m rfl
    exact ⟨msgIn_whole l, msgIn_spoilt l⟩

end Sys2Proof.Machine

/-! Acknowledgement, groups, received cells and the timers of a link (R277 to R281, R285, R288). -/

namespace Sys2Proof.Machine

/-! ## Acknowledgement (R279, R280) -/

/-- R279, R280, R285: by whether ACK_SEQ names a cell that is outstanding. -/
theorem acknowledgements (d : Dev) (l a f : Nat) :
    ((d.link l).state ≠ 6 → d.applyAck l a f = d) ∧
    ((d.link l).state = 6 →
      ((d.applyAck l a f).link l).peerXoff0 = bit f 0 ∧ ((d.applyAck l a f).link l).peerXoff1 = bit f 1 ∧
      d.applyAck l a f = { d with links := (d.applyAck l a f).links } ∧
      ((d.link l).outstanding ≤ (a + 4096 - (d.link l).oldest) % 4096 →
        ((d.applyAck l a f).link l).replay = (d.link l).replay ∧ ((d.applyAck l a f).link l).oldest = (d.link l).oldest) ∧
      ((a + 4096 - (d.link l).oldest) % 4096 < (d.link l).outstanding →
        ((d.applyAck l a f).link l).oldest = (a + 1) % 4096 ∧
        ((d.applyAck l a f).link l).replay =
          (d.link l).replay.filter fun c => (a + 4096 - (d.link l).oldest) % 4096 < (c.seq + 4096 - (d.link l).oldest) % 4096)) := by
  refine ⟨applyAck_inactive d l a f, fun hstate => ?_⟩
  rcases Nat.lt_or_ge ((a + 4096 - (d.link l).oldest) % 4096) (d.link l).outstanding with hin | hout
  · rw [applyAck_frees d l a f hstate hin]
    refine ⟨by simp, by simp, rfl, fun hout => absurd hout (Nat.not_le.2 hin), fun _ => by simp⟩
  · rw [applyAck_flow d l a f hstate hout]
    refine ⟨by simp, by simp, rfl, fun _ => by simp, fun hin => absurd hout (Nat.not_le.2 hin)⟩

/-! ## Groups (R288) -/

section
variable (k : Link) (first count g : Nat) (tag : List Byte)

/-- A group opens only where AUTH names it, its first cell and their number, and its tag verifies. -/
theorem opened_inversion (cs : List Cell) (h : k.opened first count g tag = some cs) :
    g = k.recvGroup ∧ k.heldCells.head?.map seqOf = some first ∧ k.heldCells.length = count ∧ cs.length = count ∧
      gcmOpen k.recvKey (groupIv k.peerSalt g) (k.heldCells.flatMap fun c => slice c.bytes 0 2) (k.heldCells.flatMap bodyOf) tag ≠ none := by
  unfold Link.opened at h
  split at h
  · cases h
  · next hnamed =>
    obtain ⟨text, htext, rfl⟩ := Option.map_eq_some_iff.1 h
    simp only [Bool.or_eq_true, decide_eq_true_eq, not_or, not_not] at hnamed
    obtain ⟨⟨hgroup, hfirst⟩, hcount⟩ := hnamed
    exact ⟨hgroup, hfirst, hcount, by simp [hcount], by simp [htext]⟩

theorem groupsOpen :
    (g ≠ k.recvGroup ∨ k.heldCells.length ≠ count → k.opened first count g tag = none) ∧
    (∀ c cs, k.heldCells = c :: cs → seqOf c ≠ first → k.opened first count g tag = none) ∧
    (gcmOpen k.recvKey (groupIv k.peerSalt g) (k.heldCells.flatMap fun c => slice c.bytes 0 2) (k.heldCells.flatMap bodyOf) tag = none →
      k.opened first count g tag = none) ∧
    (∀ cs, k.opened first count g tag = some cs → cs.length = count) := by
  refine ⟨fun h => ?_, fun c cs hheld hfirst => ?_, fun hopen => ?_, fun cs h => ?_⟩
  · refine Option.eq_none_iff_forall_ne_some.2 fun cs hsome => ?_
    obtain ⟨hgroup, -, hcount, -⟩ := opened_inversion k first count g tag cs hsome
    exact h.elim (· hgroup) (· hcount)
  · refine Option.eq_none_iff_forall_ne_some.2 fun cs hsome => ?_
    obtain ⟨-, hhead, -⟩ := opened_inversion k first count g tag cs hsome
    exact hfirst (by simpa [hheld] using hhead)
  · refine Option.eq_none_iff_forall_ne_some.2 fun cs hsome => ?_
    obtain ⟨-, -, -, -, hverifies⟩ := opened_inversion k first count g tag cs hsome
    exact hverifies hopen
  · obtain ⟨-, -, -, hlen, -⟩ := opened_inversion k first count g tag cs h
    exact hlen

end

/-- R288, Table 12.5: a group that fails holds nothing more; it ends the link, or E is asked for. -/
theorem groupFail_discards (d : Dev) (l : Nat) (tag : Bool) :
    ∃ e : Dev, (e.link l).heldCells = [] ∧ (e.link l).groupBad = !tag ∧ (e.link l).authFails = (d.link l).authFails + 1 ∧
      d.groupFail l tag = if tag && (d.link l).recvGroup == 0 then e.linkBreak l 7
        else if 16 ≤ (d.link l).authFails + 1 then e.linkBreak l 8 else e.askReplay l true := by
  refine ⟨(d.bump (0x40002C + 0x10000 * l) 0).setLink l fun k => { k with heldCells := [], groupBad := !tag, authFails := k.authFails + 1 },
    by simp, by simp, by simp, rfl⟩

/-! ## Received cells -/

/-- R275, R288: FEC first, then the CRC, then whether the cell waits for its group. -/
theorem receivedCells (s : State) (l : Nat) (c : Cell) (hstate : (s.dev.link l).state = 6) :
    (c.fecOk = false → Makes (.cellReceive l c) s (s.dev.bump (0x400020 + 0x10000 * l) 0)) ∧
    (∀ d, c.fecOk = true → cellCrcOk c = false → d = s.dev.bump (0x400020 + 0x10000 * l) 16 →
      ((s.dev.link l).encrypted = true → (s.dev.link l).groupBad = false → Makes (.cellReceive l c) s (d.groupFail l false)) ∧
      ((s.dev.link l).encrypted = false ∨ (s.dev.link l).groupBad = true → Makes (.cellReceive l c) s d)) ∧
    (c.fecOk = true → cellCrcOk c = true → (s.dev.link l).groupBad = true → Makes (.cellReceive l c) s s.dev) ∧
    (c.fecOk = true → cellCrcOk c = true → (s.dev.link l).groupBad = false → (s.dev.link l).encrypted = true →
      Makes (.cellReceive l c) s (s.dev.setLink l fun k => { k with heldCells := k.heldCells ++ [c] })) ∧
    (c.fecOk = true → cellCrcOk c = true → (s.dev.link l).groupBad = false → (s.dev.link l).encrypted = false →
      Makes (.cellReceive l c) s (s.dev.cellSeq l c)) := by
  refine ⟨fun hfec => makes_of_next rfl ?_, ?_, fun hfec hcrc hbad => makes_of_next rfl ?_,
    fun hfec hcrc hgood hkeyed => makes_of_next rfl ?_, fun hfec hcrc hgood hplain => makes_of_next rfl ?_⟩
  · simp [hstate, hfec]
  · rintro d hfec hcrc rfl
    refine ⟨fun hkeyed hgood => makes_of_next rfl ?_, ?_⟩
    · simp [hstate, hfec, hcrc, hkeyed, hgood]
    · rintro (hplain | hbad) <;> refine makes_of_next rfl ?_
      · simp [hstate, hfec, hcrc, hplain]
      · simp [hstate, hfec, hcrc, hbad]
  · simp [hstate, hfec, hcrc, hbad]
  · simp [hstate, hfec, hcrc, hgood, hkeyed]
  · simp [hstate, hfec, hcrc, hgood, hplain]

/-! ## Control cells and timers -/

section
variable {s : State} {l a f : Nat} (hstate : (s.dev.link l).state = 6)
include hstate

/-- R281: a REPLAY request by whether its cells are still held. -/
theorem replayCells (n : Nat) :
    ((n % 4096 + 4096 - ((s.dev.applyAck l a f).link l).oldest) % 4096 < ((s.dev.applyAck l a f).link l).outstanding →
      Makes (.replay l a f n) s ((s.dev.applyAck l a f).replayPass l (n % 4096))) ∧
    (((s.dev.applyAck l a f).link l).outstanding ≤ (n % 4096 + 4096 - ((s.dev.applyAck l a f).link l).oldest) % 4096 →
      Makes (.replay l a f n) s (s.dev.applyAck l a f)) := by
  refine ⟨fun hheld => makes_of_next rfl ?_, fun hgone => makes_of_next rfl ?_⟩
  · simp [hstate, hheld]
  · simp [hstate, Nat.not_lt.2 hgone]

variable (first count g : Nat) (tag : List Byte)

/-- R288: an AUTH cell of an encrypted link ends the discarding of a failed group, or admits its group, or fails it. -/
theorem authCells (hkeyed : ((s.dev.applyAck l a f).link l).encrypted = true) :
    (((s.dev.applyAck l a f).link l).groupBad = true →
      Makes (.auth l a f first count g tag) s
        ((s.dev.applyAck l a f).setLink l fun k => { k with recvGroup := max k.recvGroup (g + 1), groupBad := g < k.recvGroup })) ∧
    (((s.dev.applyAck l a f).link l).groupBad = false →
      (∀ cs, ((s.dev.applyAck l a f).link l).opened first count g tag = some cs →
        Makes (.auth l a f first count g tag) s
          (forEach cs (fun c d => if (d.link l).state = 6 then d.cellSeq l c else d)
            ((s.dev.applyAck l a f).setLink l fun k => { k with heldCells := [], authFails := 0, recvGroup := g + 1 }))) ∧
      (((s.dev.applyAck l a f).link l).opened first count g tag = none →
        Makes (.auth l a f first count g tag) s
          (((s.dev.applyAck l a f).groupFail l true).setLink l fun k => { k with recvGroup := max k.recvGroup (g + 1) }))) := by
  refine ⟨fun hbad => makes_of_next rfl ?_, fun hgood => ⟨fun cs hopen => makes_of_next rfl ?_, fun hshut => makes_of_next rfl ?_⟩⟩
  · simp [hstate, hkeyed, hbad]
  · simp [hstate, hkeyed, hgood, hopen]
  · simp [hstate, hkeyed, hgood, hshut]

/-- Without encryption an AUTH cell has no group to name (Table 12.7). -/
theorem makes_auth_unencrypted (hplain : ((s.dev.applyAck l a f).link l).encrypted = false) :
    Makes (.auth l a f first count g tag) s ((s.dev.applyAck l a f).malformed l) := by
  refine makes_of_next rfl ?_
  simp [hstate, hplain]

theorem makes_reservedControlCell {t : Nat} (ht : 7 ≤ t) :
    Makes (.reservedControlCell l a f t) s ((s.dev.applyAck l a f).malformed l) := by
  refine makes_of_next rfl ?_
  simp [hstate, Nat.not_lt.2 ht]

end

/-- R279 to R281, R288: what each timer of an ACTIVE link does at its deadline. -/
theorem linkTimers (s : State) (l : Nat) (hstate : (s.dev.link l).state = 6) :
    ((s.dev.link l).uncovered ≠ 0 → Makes (.ackTimerExpiry l) s
      ((s.dev.till ((s.dev.link l).uncoveredAt + nsTicks (s.dev.glFld l 0x10 7 7))).control l (b2n !(s.dev.queue l).isEmpty) [])) ∧
    ((s.dev.link l).outstanding ≠ 0 → Makes (.replayTimerExpiry l) s
      ((s.dev.till (max (s.dev.link l).oldestAt (s.dev.link l).passAt + nsTicks (s.dev.glFld l 0x10 14 13))).replayPass l (s.dev.link l).oldest)) ∧
    ((s.dev.link l).openGroup ≠ 0 → Makes (.groupClose l) s ((s.dev.control l 5 (authFields (s.dev.link l).groupFirst (s.dev.link l).openGroup
      (s.dev.link l).sendGroup (gcmTag (s.dev.link l).sendKey (groupIv (s.dev.link l).salt (s.dev.link l).sendGroup) (s.dev.link l).groupFields
        (s.dev.link l).groupText))).setLink l fun k => { k with
          openGroup := 0, groupFields := [], groupText := [], sendGroup := k.sendGroup + 1 })) := by
  refine ⟨fun hdue => makes_of_next rfl ?_, fun hdue => makes_of_next rfl ?_, fun hopen => makes_of_next rfl ?_⟩
  · simp [hstate, hdue, Dev.ackCell]
  · simp [hstate, hdue]
  · simp [hstate, hopen, Dev.groupClose]

/-- R277 to R281, R285, R288: control cells, groups, received cells and timers. -/
theorem controlCells : Says.ControlCells := by
  refine ⟨acknowledgements, fun s l a f => ?_, groupsOpen, receivedCells, groupFail_discards, linkTimers⟩
  dsimp only
  rw [applyAck_state]
  exact ⟨rfl, rfl, fun n hstate => replayCells hstate n, fun t ht hstate => makes_reservedControlCell hstate ht,
    fun first count g tag hstate hkeyed => (authCells hstate first count g tag hkeyed).1,
    fun first count g tag hstate hkeyed => (authCells hstate first count g tag hkeyed).2,
    fun first count g tag hstate => makes_auth_unencrypted hstate first count g tag⟩

/-- Settles O33: the cells of messages, and the control cells, groups and timers of their links. -/
theorem linkCells : Obligations.LinkCells := ⟨cellsAreAccepted, controlCells⟩

end Sys2Proof.Machine

/-! One step as a command of the queue or a tick of the timebase, and what a command does to the fuses (log entry 2, R362, R365, R379). -/

namespace Sys2Proof.Machine

theorem step_front {c : Instr} {rest : List Instr} {s : State} (h : s.pending = c :: rest) : step s = exec c { s with pending := rest } := by
  simp [step, h]

theorem step_empty {s : State} (h : s.pending = []) : step s = .next { s with dev := s.dev.tick } := by
  simp [step, h]

theorem tick_runs {d : Dev} (hgood : d.pm.aonGood = true) :
    d.tick = ({ d with now := d.now + if d.pm.tbFromRef then 8 else 1 } : Dev).settle := by
  simp [Dev.tick, hgood]

theorem tick_unpowered {d : Dev} (hgood : d.pm.aonGood = false) : d.tick = d := by
  simp [Dev.tick, hgood]

/-- Settles O53: a step takes the command at the front; with none waiting the timebase advances by its rate. -/
theorem stepsAreCommands : Obligations.StepsAreCommands := by
  refine ⟨fun c rest s h => step_front h, fun s h hgood hrate => ?_, fun s h hgood hrate => ?_, fun s h hgood => ?_, fun s n w => rfl⟩
  · rw [step_empty h, tick_runs hgood, hrate]; rfl
  · rw [step_empty h, tick_runs hgood, hrate]; rfl
  · rw [step_empty h, tick_unpowered hgood]

/-- What the command `c` can make of the fuses `f`: nothing, or what the one that burns it burns. -/
inductive Burns (c : Instr) (f : Fuses) : Fuses → Prop where
  /-- No fuse is burned. -/
  | none : Burns c f f
  /-- A leaf of the top tree, where one is left (R365). -/
  | leaf (hc : c = .attestSign ∨ ∃ b, c = .startUp b) (hleft : f.topUsed < 32768) : Burns c f { f with topUsed := f.topUsed + 1 }
  /-- SVN fuses up to the running image's, of the 64 there are (R362). -/
  | svn (hc : c = .ready) (n : Nat) (hn : n ≤ 64) : Burns c f { f with svn := max f.svn n }
  /-- The decommissioning fuse (R379). -/
  | decommission (hc : ∃ r i k b, c = .debugUnlock r i k b) : Burns c f { f with decommissioned := true }

/-- Every command but four only makes a device. -/
theorem exec_keepsFuses (c : Instr) (s : State) (hready : c ≠ .ready) (hsign : c ≠ .attestSign) (hstart : ∀ b, c ≠ .startUp b)
    (hunlock : ∀ r i k b, c ≠ .debugUnlock r i k b) : ∃ d, exec c s = .next { s with dev := d } := by
  cases c
  case ready => exact absurd rfl hready
  case attestSign => exact absurd rfl hsign
  case startUp b => exact absurd rfl (hstart b)
  case debugUnlock r i k b => exact absurd rfl (hunlock r i k b)
  all_goals exact ⟨_, rfl⟩

/-- A command that makes a lower tree where a leaf is left, or leaves the fuses. -/
theorem Burns.of_tree {c : Instr} {f g : Fuses} (hc : c = .attestSign ∨ ∃ b, c = .startUp b)
    (h : g = f ∨ f.topUsed < 32768 ∧ g = { f with topUsed := f.topUsed + 1 }) : Burns c f g := by
  rcases h with rfl | ⟨hleft, rfl⟩
  · exact .none
  · exact .leaf hc hleft

/-- Start-up burns a leaf where it makes a lower tree. -/
theorem bootUp_fuses (f : Fuses) (d : Dev) (b : BootInfo) : Burns (.startUp b) f (Dev.bootUp f d b).1 := by
  refine .of_tree (.inr ⟨b, rfl⟩) ?_
  unfold Dev.bootUp
  dsimp only
  repeat' split
  all_goals simp_all [makeTree]

theorem exec_startUp_fuses (b : BootInfo) (s : State) :
    ∃ f d, exec (.startUp b) s = .next { s with fuse := f, dev := d } ∧ Burns (.startUp b) s.fuse f := by
  refine ⟨_, _, rfl, ?_⟩
  dsimp only
  repeat' split
  · exact bootUp_fuses _ _ _
  all_goals exact .none

theorem exec_ready_fuses (s : State) : ∃ f d, exec .ready s = .next { s with fuse := f, dev := d } ∧ Burns .ready s.fuse f := by
  refine ⟨_, _, rfl, ?_⟩
  dsimp only
  split
  · exact .none
  · exact .svn rfl _ (Nat.min_le_left _ _)

theorem exec_attestSign_fuses (s : State) :
    ∃ f d, exec .attestSign s = .next { s with fuse := f, dev := d } ∧ Burns .attestSign s.fuse f := by
  refine ⟨_, _, rfl, .of_tree (.inl rfl) ?_⟩
  dsimp only
  repeat' split
  all_goals simp_all [makeTree]

theorem exec_debugUnlock_fuses (r i : Nat) (k : List Byte) (b : Bool) (s : State) :
    ∃ f d, exec (.debugUnlock r i k b) s = .next { s with fuse := f, dev := d } ∧ Burns (.debugUnlock r i k b) s.fuse f := by
  refine ⟨_, _, rfl, ?_⟩
  dsimp only
  split
  · exact .decommission ⟨r, i, k, b, rfl⟩
  · exact .none

/-- What every command does: it answers a next state, with the queue as it was and the fuses as the command burns them. -/
theorem exec_burns (c : Instr) (s : State) : ∃ f d, exec c s = .next { s with fuse := f, dev := d } ∧ Burns c s.fuse f := by
  by_cases hready : c = .ready
  · exact hready ▸ exec_ready_fuses s
  by_cases hsign : c = .attestSign
  · exact hsign ▸ exec_attestSign_fuses s
  by_cases hstart : ∃ b, c = .startUp b
  · obtain ⟨b, rfl⟩ := hstart
    exact exec_startUp_fuses b s
  by_cases hunlock : ∃ r i k b, c = .debugUnlock r i k b
  · obtain ⟨r, i, k, b, rfl⟩ := hunlock
    exact exec_debugUnlock_fuses r i k b s
  · obtain ⟨d, hd⟩ := exec_keepsFuses c s hready hsign (fun b h => hstart ⟨b, h⟩) (fun r i k b h => hunlock ⟨r, i, k, b, h⟩)
    exact ⟨s.fuse, d, hd, .none⟩

theorem Burns.le {c : Instr} {f g : Fuses} (h : Burns c f g) : f.le g := by
  cases h <;> simp [Fuses.le]

theorem Burns.legal {c : Instr} {f g : Fuses} (h : Burns c f g) (hf : f.legal) : g.legal := by
  obtain ⟨htop, hsvn⟩ := hf
  cases h with
  | none => exact ⟨htop, hsvn⟩
  | leaf _ hleft => exact ⟨hleft, hsvn⟩
  | svn _ n hn => exact ⟨htop, Nat.max_le.2 ⟨hsvn, hn⟩⟩
  | decommission _ => exact ⟨htop, hsvn⟩

theorem Burns.svn_only {c : Instr} {f g : Fuses} (h : Burns c f g) (hne : g.svn ≠ f.svn) : c = .ready := by
  cases h with
  | svn hc => exact hc
  | _ => exact absurd rfl hne

theorem Burns.leaf_only {c : Instr} {f g : Fuses} (h : Burns c f g) (hne : g.topUsed ≠ f.topUsed) :
    c = .attestSign ∨ ∃ b, c = .startUp b := by
  cases h with
  | leaf hc => exact hc
  | _ => exact absurd rfl hne

theorem Burns.decommission_only {c : Instr} {f g : Fuses} (h : Burns c f g) (hne : g.decommissioned ≠ f.decommissioned) :
    ∃ r i k b, c = .debugUnlock r i k b := by
  cases h with
  | decommission hc => exact hc
  | _ => exact absurd rfl hne

/-- What every step does to the fuses: nothing, or what its command burns. -/
theorem step_burns (s : State) : ∃ c t, step s = .next t ∧ Burns c s.fuse t.fuse := by
  cases h : s.pending with
  | nil => exact ⟨.ready, _, step_empty h, .none⟩
  | cons c rest =>
    obtain ⟨f, d, hexec, hburns⟩ := exec_burns c { s with pending := rest }
    exact ⟨c, _, (step_front h).trans hexec, hburns⟩

/-- Settles O54: a command burns what its kind burns and nothing else, and a tick burns nothing. -/
theorem fusesOnlyBurn : Obligations.FusesOnlyBurn := by
  refine ⟨fun s => ?_, fun s t hlegal hstep => ?_, fun c s => ?_⟩
  · obtain ⟨c, t, hstep, hburns⟩ := step_burns s
    exact ⟨t, hstep, hburns.le⟩
  · obtain ⟨c, u, hu, hburns⟩ := step_burns s
    cases hu.symm.trans hstep
    exact hburns.legal hlegal
  · obtain ⟨f, d, hexec, hburns⟩ := exec_burns c s
    exact ⟨_, hexec, rfl, hburns.le, hburns.svn_only, hburns.leaf_only, hburns.decommission_only⟩

end Sys2Proof.Machine

/-! The line code of R348 and R349. Products with a fixed element are additive over the bytes, and additive maps that agree on the powers of
two are equal; so the remainder that the encoder keeps has, at each root of g(x), x^7 times the value of what it has read, and every syndrome
of the codeword is zero. -/

namespace Sys2Proof.Machine

/-- A map of bytes to bytes that is additive (over XOR). -/
structure ByteAdditive (f : Nat → Nat) : Prop where
  lt : ∀ a < 256, f a < 256
  xor : ∀ a < 256, ∀ b < 256, f (a ^^^ b) = f a ^^^ f b

theorem xor_byte {a b : Nat} (ha : a < 256) (hb : b < 256) : a ^^^ b < 256 := Nat.xor_lt_two_pow (n := 8) ha hb

theorem xor_pairs (a b c d : Nat) : a ^^^ b ^^^ (c ^^^ d) = a ^^^ c ^^^ (b ^^^ d) := by
  rw [Nat.xor_assoc, Nat.xor_assoc, ← Nat.xor_assoc b, Nat.xor_comm b c, Nat.xor_assoc]

theorem ByteAdditive.comp {f g : Nat → Nat} (hf : ByteAdditive f) (hg : ByteAdditive g) : ByteAdditive fun a => f (g a) where
  lt a ha := hf.lt _ (hg.lt a ha)
  xor a ha b hb := by simp only [hg.xor a ha b hb, hf.xor _ (hg.lt a ha) _ (hg.lt b hb)]

theorem ByteAdditive.add {f g : Nat → Nat} (hf : ByteAdditive f) (hg : ByteAdditive g) : ByteAdditive fun a => f a ^^^ g a where
  lt a ha := xor_byte (hf.lt a ha) (hg.lt a ha)
  xor a ha b hb := by simp only [hf.xor a ha b hb, hg.xor a ha b hb, xor_pairs]

theorem ByteAdditive.zero : ByteAdditive fun _ => 0 := ⟨fun _ _ => by decide, fun _ _ _ _ => rfl⟩

theorem ByteAdditive.id : ByteAdditive fun a => a := ⟨fun _ h => h, fun _ _ _ _ => rfl⟩

theorem ByteAdditive.map_zero {f : Nat → Nat} (hf : ByteAdditive f) : f 0 = 0 := by
  have h := hf.xor 0 (by decide) 0 (by decide)
  simpa using h

/-- A number with `n` as its highest bit is that bit and the bits below it. -/
theorem xor_two_pow_mod {a n : Nat} (hlo : 2 ^ n ≤ a) (hhi : a < 2 ^ (n + 1)) : 2 ^ n ^^^ a % 2 ^ n = a := by
  apply Nat.eq_of_testBit_eq
  intro i
  rw [Nat.testBit_xor, Nat.testBit_two_pow, Nat.testBit_mod_two_pow]
  rcases Nat.lt_trichotomy i n with h | rfl | h
  · simp [h, Nat.ne_of_gt h]
  · have : a.testBit i = true := Nat.testBit_of_two_pow_le_and_two_pow_add_one_gt hlo hhi
    simp [this]
  · have : a.testBit i = false := Nat.testBit_lt_two_pow (Nat.lt_of_lt_of_le hhi (Nat.pow_le_pow_right (by decide) h))
    simp [this, Nat.not_lt_of_gt h]
    omega

/-- Additive maps that agree on the powers of two agree on every byte. -/
theorem ByteAdditive.ext {f g : Nat → Nat} (hf : ByteAdditive f) (hg : ByteAdditive g) (h : ∀ i < 8, f (2 ^ i) = g (2 ^ i)) :
    ∀ a < 256, f a = g a := by
  have below : ∀ n ≤ 8, ∀ a < 2 ^ n, f a = g a := by
    intro n
    induction n with
    | zero =>
      intro _ a ha
      obtain rfl : a = 0 := by omega
      rw [hf.map_zero, hg.map_zero]
    | succ n ih =>
      intro hn a ha
      by_cases hlow : a < 2 ^ n
      · exact ih (by omega) a hlow
      · have hbit : 2 ^ n < 256 := Nat.pow_lt_pow_right (a := 2) (n := 8) (by decide) hn
        have hrest : a % 2 ^ n < 2 ^ n := Nat.mod_lt _ (Nat.two_pow_pos n)
        have hbyte : a % 2 ^ n < 256 := by omega
        rw [← xor_two_pow_mod (Nat.not_lt.1 hlow) ha, hf.xor _ hbit _ hbyte, hg.xor _ hbit _ hbyte, h n hn, ih (by omega) _ hrest]
  exact below 8 (Nat.le_refl 8)

/-- Doubling and reducing, as additions. -/
theorem gfStep_eq : ∀ a < 256, gfStep a = 2 * a ^^^ if a.testBit 7 then 0x11D else 0 := by decide +kernel

theorem double_xor (a b : Nat) : 2 * (a ^^^ b) = 2 * a ^^^ 2 * b := by
  simpa [Nat.shiftLeft_eq, Nat.mul_comm] using Nat.shiftLeft_xor_distrib (a := a) (b := b) (i := 1)

theorem gfStep_additive : ByteAdditive gfStep where
  lt := by decide +kernel
  xor a ha b hb := by
    rw [gfStep_eq _ (xor_byte ha hb), gfStep_eq a ha, gfStep_eq b hb, double_xor, Nat.testBit_xor, xor_pairs]
    cases a.testBit 7 <;> cases b.testBit 7 <;> simp

theorem gfMulAux_succ (a b n acc : Nat) : gfMulAux a b (n + 1) acc = gfMulAux a b n (gfStep acc ^^^ if bit b n then a else 0) := rfl

/-- A product's partial sums are additive in the first factor. -/
theorem gfMulAux_additive (b n : Nat) {f g : Nat → Nat} (hf : ByteAdditive f) (hg : ByteAdditive g) :
    ByteAdditive fun a => gfMulAux (f a) b n (g a) := by
  induction n generalizing g with
  | zero => exact hg
  | succ n ih =>
    have hstep := gfStep_additive.comp hg
    cases hbit : bit b n with
    | false => simpa only [gfMulAux_succ, hbit, Bool.false_eq_true, if_false] using ih (hstep.add .zero)
    | true => simpa only [gfMulAux_succ, hbit, if_true] using ih (hstep.add hf)

/-- Multiplying by a fixed element is additive. -/
theorem gfMul_additive (b : Nat) : ByteAdditive fun a => gfMul a b := gfMulAux_additive b 8 .id .zero

/-! ## The value of a polynomial -/

/-- The value at `x` of a polynomial, its coefficients from the highest degree down, after what came to `s` (R348). -/
def polyValue (x : Nat) (l : List Nat) (s : Nat) : Nat := l.foldl (fun s c => Nat.xor (gfMul s x) c) s

theorem syndrome_eq (w : List Nat) (j : Nat) : syndrome w j = polyValue (gfAlpha j) w 0 := rfl

theorem polyValue_cons (x c : Nat) (l : List Nat) (s : Nat) : polyValue x (c :: l) s = polyValue x l (gfMul s x ^^^ c) := rfl

theorem polyValue_append (x : Nat) (l k : List Nat) (s : Nat) : polyValue x (l ++ k) s = polyValue x k (polyValue x l s) := List.foldl_append

theorem polyValue_concat (x c : Nat) (l : List Nat) (s : Nat) : polyValue x (l ++ [c]) s = gfMul (polyValue x l s) x ^^^ c :=
  polyValue_append x l [c] s

theorem polyValue_byte (x : Nat) (l : List Nat) (hl : ∀ c ∈ l, c < 256) (s : Nat) (hs : s < 256) : polyValue x l s < 256 := by
  induction l generalizing s with
  | nil => exact hs
  | cons c l ih =>
    obtain ⟨hc, hl⟩ := List.forall_mem_cons.1 hl
    exact ih hl _ (xor_byte ((gfMul_additive x).lt s hs) hc)

/-- Multiplying by `x`, `n` times. -/
def mulPow (x : Nat) : Nat → Nat → Nat
  | 0, s => s
  | n + 1, s => mulPow x n (gfMul s x)

theorem mulPow_additive (x n : Nat) : ByteAdditive (mulPow x n) := by
  induction n with
  | zero => exact .id
  | succ n ih => exact ih.comp (gfMul_additive x)

theorem mulPow_gfMul (x n s : Nat) : mulPow x n (gfMul s x) = gfMul (mulPow x n s) x := by
  induction n generalizing s with
  | zero => rfl
  | succ n ih => exact ih _

/-- What came before a polynomial is multiplied by `x` for each of its coefficients. -/
theorem polyValue_from (x : Nat) (l : List Nat) (hl : ∀ c ∈ l, c < 256) (s : Nat) (hs : s < 256) :
    polyValue x l s = mulPow x l.length s ^^^ polyValue x l 0 := by
  induction l generalizing s with
  | nil => simp [polyValue, mulPow]
  | cons c l ih =>
    obtain ⟨hc, hl⟩ := List.forall_mem_cons.1 hl
    have hmul := (gfMul_additive x).lt s hs
    have hzero : gfMul 0 x = 0 := (gfMul_additive x).map_zero
    rw [polyValue_cons, polyValue_cons, hzero, Nat.zero_xor, ih hl _ (xor_byte hmul hc), ih hl c hc,
      (mulPow_additive x l.length).xor _ hmul c hc, Nat.xor_assoc]
    rfl

/-- Polynomials are added coefficient by coefficient; here the second one is a multiple of `g`. -/
theorem polyValue_sum (x f : Nat) (hf : f < 256) : ∀ (l g : List Nat), l.length = g.length → (∀ c ∈ l, c < 256) →
    ∀ s < 256, ∀ t < 256, polyValue x ((l.zip g).map fun (c : Nat × Nat) => Nat.xor c.1 (gfMul f c.2)) (s ^^^ t) =
      polyValue x l s ^^^ polyValue x (g.map (gfMul f)) t
  | [], [], _, _, _, _, _, _ => rfl
  | a :: l, b :: g, hlen, hl, s, hs, t, ht => by
    obtain ⟨ha, hl⟩ := List.forall_mem_cons.1 hl
    have hb : gfMul f b < 256 := (gfMul_additive b).lt f hf
    have hs' := (gfMul_additive x).lt s hs
    have ht' := (gfMul_additive x).lt t ht
    have hstep : gfMul (s ^^^ t) x ^^^ (a ^^^ gfMul f b) = gfMul s x ^^^ a ^^^ (gfMul t x ^^^ gfMul f b) := by
      rw [(gfMul_additive x).xor s hs t ht, xor_pairs]
    rw [List.map_cons, polyValue_cons, polyValue_cons, ← polyValue_sum x f hf l g (Nat.succ_inj.1 hlen) hl _ (xor_byte hs' ha) _ (xor_byte ht' hb), ← hstep]
    rfl

/-! ## The encoder's remainder -/

/-- The coefficients of g(x) below x^7. -/
def genTail : List Nat := genPoly.drop 1

theorem genTail_length : genTail.length = 7 := by decide +kernel

/-- A multiple of g(x) is zero at its roots: what lies below x^7 has there the value of the rest. -/
theorem genTail_root (j : Nat) (hj : j < 7) : ∀ f < 256, polyValue (gfAlpha j) (genTail.map (gfMul f)) 0 = mulPow (gfAlpha j) 7 f := by
  have hadd : ∀ g : List Nat, ByteAdditive fun f => polyValue (gfAlpha j) (g.map (gfMul f)) 0 := by
    intro g
    induction g using List.reverseRecOn with
    | nil => exact .zero
    | append_singleton g b ih =>
      simp only [List.map_append, List.map_cons, List.map_nil, polyValue_concat]
      exact ((gfMul_additive _).comp ih).add (gfMul_additive b)
  refine (hadd genTail).ext (mulPow_additive _ 7) ?_
  have hbasis : ∀ j < 7, ∀ i < 8, polyValue (gfAlpha j) (genTail.map (gfMul (2 ^ i))) 0 = mulPow (gfAlpha j) 7 (2 ^ i) := by decide +kernel
  exact hbasis j hj

/-- A remainder: seven symbols. -/
abbrev IsRemainder (r : List Nat) : Prop := r.length = 7 ∧ ∀ c ∈ r, c < 256

theorem encodeStep_isRemainder {r : List Nat} {m : Nat} (hr : IsRemainder r) (hm : m < 256) : IsRemainder (encodeStep r m) := by
  obtain ⟨hlen, hbytes⟩ := hr
  match r with
  | top :: rest =>
    obtain ⟨htop, hrest⟩ := List.forall_mem_cons.1 hbytes
    have hlen' : rest.length = 6 := by simpa using hlen
    have htail : (genPoly.drop 1).length = 7 := genTail_length
    refine ⟨by simp only [encodeStep, List.length_map, List.length_zip, htail, List.length_append, hlen']; rfl, fun c hc => ?_⟩
    simp only [encodeStep, List.mem_map] at hc
    obtain ⟨⟨a, b⟩, hab, rfl⟩ := hc
    have ha : a < 256 := by
      rcases List.mem_append.1 (List.of_mem_zip hab).1 with h | h
      · exact hrest a h
      · rw [List.mem_singleton.1 h]; decide
    exact xor_byte ha ((gfMul_additive b).lt _ (xor_byte htop hm))

/-- One step of the division, at a root of g(x): the value is multiplied by `x`, and the new symbol comes in at x^7. -/
theorem polyValue_encodeStep {j : Nat} (hj : j < 7) {r : List Nat} {m : Nat} (hr : IsRemainder r) (hm : m < 256) :
    polyValue (gfAlpha j) (encodeStep r m) 0 = gfMul (polyValue (gfAlpha j) r 0) (gfAlpha j) ^^^ mulPow (gfAlpha j) 7 m := by
  obtain ⟨hlen, hbytes⟩ := hr
  match r with
  | top :: rest =>
    obtain ⟨htop, hrest⟩ := List.forall_mem_cons.1 hbytes
    have hlen' : rest.length = 6 := by simpa using hlen
    have hshift : ∀ c ∈ rest ++ [0], c < 256 := List.forall_mem_append.2 ⟨hrest, by simp⟩
    have hzero : gfMul 0 (gfAlpha j) = 0 := (gfMul_additive _).map_zero
    have hsum := polyValue_sum (gfAlpha j) (top ^^^ m) (xor_byte htop hm) (rest ++ [0]) genTail (by simp [genTail_length, hlen']) hshift
      0 (by decide) 0 (by decide)
    have htimes : gfMul (mulPow (gfAlpha j) 6 top) (gfAlpha j) = mulPow (gfAlpha j) 7 top := (mulPow_gfMul _ 6 top).symm
    have hvalue : polyValue (gfAlpha j) rest 0 < 256 := polyValue_byte _ _ hrest 0 (by decide)
    calc polyValue (gfAlpha j) (encodeStep (top :: rest) m) 0
        = polyValue (gfAlpha j) (rest ++ [0]) 0 ^^^ mulPow (gfAlpha j) 7 (top ^^^ m) := by
          rw [← genTail_root j hj _ (xor_byte htop hm)]; exact hsum
      _ = gfMul (polyValue (gfAlpha j) rest 0) (gfAlpha j) ^^^ (mulPow (gfAlpha j) 7 top ^^^ mulPow (gfAlpha j) 7 m) := by
          rw [polyValue_concat, Nat.xor_zero, (mulPow_additive _ 7).xor top htop m hm]
      _ = gfMul (polyValue (gfAlpha j) (top :: rest) 0) (gfAlpha j) ^^^ mulPow (gfAlpha j) 7 m := by
          rw [polyValue_cons, hzero, Nat.zero_xor, polyValue_from _ rest hrest top htop, hlen',
            (gfMul_additive _).xor _ ((mulPow_additive _ 6).lt top htop) _ hvalue, htimes, ← Nat.xor_assoc,
            Nat.xor_comm (mulPow (gfAlpha j) 7 top)]

/-- The remainder of a message has, at the roots of g(x), x^7 times the message's value. -/
theorem encode_remainder {j : Nat} (hj : j < 7) (msg : List Nat) (hmsg : ∀ c ∈ msg, c < 256) :
    IsRemainder (msg.foldl encodeStep (List.replicate 7 0)) ∧
    polyValue (gfAlpha j) (msg.foldl encodeStep (List.replicate 7 0)) 0 = mulPow (gfAlpha j) 7 (polyValue (gfAlpha j) msg 0) := by
  induction msg using List.reverseRecOn with
  | nil =>
    have hstart : ∀ j < 7, polyValue (gfAlpha j) (List.replicate 7 0) 0 = mulPow (gfAlpha j) 7 0 := by decide +kernel
    exact ⟨by decide, hstart j hj⟩
  | append_singleton msg m ih =>
    obtain ⟨hmsg, hm⟩ := List.forall_mem_append.1 hmsg
    have hm : m < 256 := by simpa using hm
    obtain ⟨hr, hvalue⟩ := ih hmsg
    have hread := polyValue_byte (gfAlpha j) msg hmsg 0 (by decide)
    rw [List.foldl_append, List.foldl_cons, List.foldl_nil]
    refine ⟨encodeStep_isRemainder hr hm, ?_⟩
    rw [polyValue_encodeStep hj hr hm, hvalue, polyValue_concat, (mulPow_additive _ 7).xor _ ((gfMul_additive _).lt _ hread) m hm, mulPow_gfMul]

/-- A message followed by its remainder has every syndrome zero. -/
theorem syndrome_encoded {j : Nat} (hj : j < 7) (msg : List Nat) (hmsg : ∀ c ∈ msg, c < 256) :
    syndrome (msg ++ msg.foldl encodeStep (List.replicate 7 0)) j = 0 := by
  obtain ⟨⟨hlen, hbytes⟩, hvalue⟩ := encode_remainder hj msg hmsg
  rw [syndrome_eq, polyValue_append, polyValue_from _ _ hbytes _ (polyValue_byte _ msg hmsg 0 (by decide)), hlen, hvalue, Nat.xor_self]

theorem bytes_toNat {l : List Byte} : ∀ c ∈ l.map (·.toNat), c < 256 := by
  intro c hc
  obtain ⟨b, _, rfl⟩ := List.mem_map.1 hc
  exact b.isLt

theorem map_toNat_ofNat {r : List Nat} (hr : ∀ c ∈ r, c < 256) : (r.map (BitVec.ofNat 8)).map (·.toNat) = r := by
  rw [List.map_map]
  refine (List.map_congr_left fun c hc => ?_).trans (List.map_id r)
  simpa using Nat.mod_eq_of_lt (hr c hc)

/-- The 76 symbols of an encoded line: its message and the message's remainder. -/
theorem encodeLine_symbols (a : Nat) (data : List Byte) (m : Byte) (hlen : data.length = 64) :
    (natBytes 4 a ++ encodeLine a data m).map (·.toNat) = codeMessage a (data ++ [m]) ++ (codeMessage a (data ++ [m])).foldl encodeStep (List.replicate 7 0) := by
  have hbytes := (encode_remainder (j := 0) (by decide) (codeMessage a (data ++ [m])) bytes_toNat).1.2
  have htake : (data ++ [m]).take 65 = data ++ [m] := List.take_of_length_le (by simp [hlen])
  have hdata : data.take 64 = data := List.take_of_length_le (by omega)
  rw [encodeLine, hdata, ← List.append_assoc, List.map_append, checkSymbols, map_toNat_ofNat hbytes, codeMessage, htake]

theorem encodeLine_length (a : Nat) (data : List Byte) (m : Byte) (hlen : data.length = 64) : (encodeLine a data m).length = 72 := by
  have hr := (encode_remainder (j := 0) (by decide) (codeMessage a (data.take 64 ++ [m])) bytes_toNat).1.1
  simp only [encodeLine, checkSymbols, List.length_append, List.length_map, hr, List.length_take, hlen]
  rfl

/-- Settles O58: the encoded line has every syndrome zero, so that nothing of it is corrected. -/
theorem encodedLinesDecode : Obligations.EncodedLinesDecode := by
  intro a data m hlen
  refine ⟨encodeLine_length a data m hlen, ?_⟩
  have hzero : (syndromes ((natBytes 4 a ++ encodeLine a data m).map (·.toNat))).all (· == 0) = true := by
    rw [encodeLine_symbols a data m hlen]
    simp only [syndromes, List.all_map, List.all_eq_true, List.mem_range]
    intro j hj
    exact beq_iff_eq.2 (syndrome_encoded hj _ bytes_toNat)
  simp only [decodeLine, hzero, if_true]

end Sys2Proof.Machine

/-! What counting, reporting and interrupting leave unchanged, said for any part of the device that they do not touch (R415, R418, R422, R429). -/

namespace Sys2Proof.Machine

section
variable {β : Type} (g : Dev → β)

theorem bump_keeps (h : ∀ (d : Dev) r p, g { d with regs := r, perf := p } = g d) (d : Dev) (off lo : Nat) : g (d.bump off lo) = g d := by
  obtain ⟨r, p, hd⟩ := bump_changes d off lo
  rw [hd, h]

theorem log_keeps (h : ∀ (d : Dev) e r p, g { d with evt := e, regs := r, perf := p } = g d) (d : Dev)
    (source origin code status arg0 arg1 : Nat) : g (d.log source origin code status arg0 arg1) = g d := by
  obtain ⟨e, r, p, hd⟩ := log_changes d source origin code status arg0 arg1
  rw [hd, h]

theorem logSrc_keeps (h : ∀ (d : Dev) f e r p, g { d with free := f, evt := e, regs := r, perf := p } = g d) (d : Dev)
    (source origin status : Nat) : g (d.logSrc source origin status) = g d := by
  unfold Dev.logSrc
  exact (log_keeps g (fun d e r p => h d d.free e r p) _ _ _ _ _ _ _).trans (h d _ d.evt d.regs d.perf)

theorem msix_keeps (h : ∀ (d : Dev) x o, g { d with host := x, out := o } = g d) (d : Dev) (p v : Nat) : g (d.msix p v) = g d := by
  rcases msix_cases d p v with hd | hd | ⟨f, hd⟩ <;> rw [hd]
  · exact h d d.host _
  · unfold Dev.setPort
    split <;> exact h d _ d.out

theorem msixBoth_keeps (h : ∀ (d : Dev) x o, g { d with host := x, out := o } = g d) (d : Dev) : g d.msixBoth = g d := by
  unfold Dev.msixBoth
  rw [msix_keeps g h, msix_keeps g h]

end

@[simp] theorem sec_log (d : Dev) (source origin code status arg0 arg1 : Nat) : (d.log source origin code status arg0 arg1).sec = d.sec :=
  log_keeps Dev.sec (fun _ _ _ _ => rfl) ..

@[simp] theorem sec_logSrc (d : Dev) (source origin status : Nat) : (d.logSrc source origin status).sec = d.sec :=
  logSrc_keeps Dev.sec (fun _ _ _ _ _ => rfl) ..

@[simp] theorem sec_msixBoth (d : Dev) : d.msixBoth.sec = d.sec := msixBoth_keeps Dev.sec (fun _ _ _ => rfl) _

end Sys2Proof.Machine

/-! The board inputs and their filters (R388, R394, R427, R428, R432). -/

namespace Sys2Proof.Machine

theorem edgeAccepted_latch (d : Dev) (i : Nat) (h : i < 4) : d.edgeAccepted i = d.raiseInput (240 + i) := by
  simp [Dev.edgeAccepted, h, show i ≠ 4 by omega, show i ≠ 5 by omega]

theorem edgeAccepted_alert (d : Dev) : d.edgeAccepted 5 = (d.raiseInput 245).alertTo true := by
  simp [Dev.edgeAccepted]

theorem edgeAccepted_wake (d : Dev) :
    d.edgeAccepted 4 = if bit (d.reg 0x20018) 0 then (d.raiseInput 244).wakeLatch 3 else d.raiseInput 244 := by
  simp [Dev.edgeAccepted, Dev.wakeSource, Dev.raiseInput]

/-- Settles O49: an edge is latched outside its rearm time, accepted after its filter's ticks, and raises what it is for. -/
theorem boardInputs : Obligations.BoardInputs := by
  refine ⟨fun s i hi hgood => ⟨fun hlatch hrearm => makes_of_next rfl ?_, fun h => makes_of_next rfl ?_⟩,
    fun s i low n d hi hlatch hn hd => ⟨fun hlow => makes_of_next rfl ?_, fun hlow => makes_of_next rfl ?_⟩,
    fun s i low hi hlatch => makes_of_next rfl ?_,
    fun d i => ⟨edgeAccepted_latch d i, edgeAccepted_alert d, fun h => ?_, fun h => ?_⟩, fun s p t hp hready => makes_of_next rfl ?_⟩
  · simp [hgood, hlatch, Nat.not_le.2 hi, Nat.not_lt.2 hrearm]
  · rcases h with h | h <;> simp [h]
  · subst hd hn
    simp [hlatch, Nat.not_le.2 hi, hlow]
  · subst hn
    simp [hlatch, Nat.not_le.2 hi, Nat.not_le.2 hlow]
  · simp [hlatch]
  · simp [edgeAccepted_wake, h]
  · simp [edgeAccepted_wake, h]
  · simp [hready, show ¬ 1 < p by omega]

end Sys2Proof.Machine

/-! The control cores' interrupts (R422 to R426, Table 20.4). -/

namespace Sys2Proof.Machine

theorem inputState_setInput (d : Dev) (n v : Nat) (hv : v ≠ 0) : (d.setInput n v).inputState n = v := by
  simp [Dev.setInput, Dev.inputState, tgetD, hv]

theorem inputState_clear (d : Dev) (n : Nat) (hrise : keysRise d.irq.state = true) : (d.setInput n 0).inputState n = 0 := by
  simp [Dev.setInput, Dev.inputState, tgetD, tget_tdel_same _ _ hrise]

@[simp] theorem inputState_setCore (d : Dev) (c n : Nat) (f : CoreSt → CoreSt) : (d.setCore c f).inputState n = d.inputState n := rfl

@[simp] theorem core_setCore (d : Dev) (c : Nat) (f : CoreSt → CoreSt) : (d.setCore c f).core c = f (d.core c) := by
  simp [Dev.setCore, Dev.core, tgetD]

@[simp] theorem core_setInput (d : Dev) (n v c : Nat) : (d.setInput n v).core c = d.core c := rfl

@[simp] theorem nmem_nadd_self (l : List Nat) (n : Nat) : nmem (nadd l n) n = true :=
  (nmem_iff_mem _ _).2 ((mem_nadd_iff l n n).2 (.inl rfl))

theorem bestInput_concat_first (d : Dev) (l : List Nat) (n : Nat) (h : d.bestInput l = none) : d.bestInput (l ++ [n]) = some n := by
  unfold Dev.bestInput at h ⊢
  rw [List.foldl_append, h]
  rfl

theorem bestInput_concat (d : Dev) (l : List Nat) (n m : Nat) (h : d.bestInput l = some m) :
    d.bestInput (l ++ [n]) = if d.inPrio m < d.inPrio n then some n else some m := by
  unfold Dev.bestInput at h ⊢
  rw [List.foldl_append, h]
  rfl

theorem bestInput_none (d : Dev) (l : List Nat) (h : d.bestInput l = none) : l = [] := by
  induction l using List.reverseRecOn with
  | nil => rfl
  | append_singleton l n ih =>
    cases hl : d.bestInput l with
    | none => rw [bestInput_concat_first d l n hl] at h; cases h
    | some m =>
      rw [bestInput_concat d l n m hl] at h
      split at h <;> cases h

/-- The choice is one of the list, and none before it has its priority, none of them a higher. -/
theorem bestInput_best (d : Dev) (l : List Nat) (hl : l.Pairwise (· < ·)) (n : Nat) (h : d.bestInput l = some n) :
    n ∈ l ∧ ∀ m ∈ l, d.inPrio m < d.inPrio n ∨ (d.inPrio m = d.inPrio n ∧ n ≤ m) := by
  induction l using List.reverseRecOn generalizing n with
  | nil => cases h
  | append_singleton l x ih =>
    obtain ⟨hl, -, hlast⟩ := List.pairwise_append.1 hl
    cases hm : d.bestInput l with
    | none =>
      rw [bestInput_concat_first d l x hm] at h
      cases h
      simp [bestInput_none d l hm]
    | some m =>
      rw [bestInput_concat d l x m hm] at h
      obtain ⟨hmem, hbest⟩ := ih hl m hm
      have hmx := hlast m hmem x List.mem_cons_self
      have hx (y : Nat) (hy : y ∈ l ++ [x]) : y ∈ l ∨ y = x := by simpa using hy
      split at h
      · next hlt =>
        cases h
        refine ⟨by simp, fun y hy => (hx y hy).elim (fun hy => .inl ?_) (fun hy => .inr ⟨by rw [hy], by omega⟩)⟩
        have := hbest y hy
        omega
      · next hle =>
        cases h
        refine ⟨by simp [hmem], fun y hy => (hx y hy).elim (hbest y) (fun hy => ?_)⟩
        subst hy
        omega

theorem pairwise_inputs (p : Nat → Bool) : ((List.range 256).filter p).Pairwise (· < ·) :=
  List.Pairwise.filter p List.pairwise_lt_range

/-- The choice among the inputs that `p` picks. -/
theorem bestInput_picked (d : Dev) (p : Nat → Bool) (n : Nat) (h : d.bestInput ((List.range 256).filter p) = some n) :
    p n = true ∧ ∀ m, m < 256 → p m = true → d.inPrio m < d.inPrio n ∨ (d.inPrio m = d.inPrio n ∧ n ≤ m) := by
  obtain ⟨hmem, hbest⟩ := bestInput_best d _ (pairwise_inputs p) n h
  exact ⟨(List.mem_filter.1 hmem).2, fun m hm hp => hbest m (List.mem_filter.2 ⟨List.mem_range.2 hm, hp⟩)⟩

theorem bestInput_exists (d : Dev) (p : Nat → Bool) (m : Nat) (hm : m < 256) (hp : p m = true) :
    ∃ n, d.bestInput ((List.range 256).filter p) = some n := by
  cases h : d.bestInput ((List.range 256).filter p) with
  | some n => exact ⟨n, rfl⟩
  | none =>
    have hmem : m ∈ (List.range 256).filter p := List.mem_filter.2 ⟨List.mem_range.2 hm, hp⟩
    rw [bestInput_none d _ h] at hmem
    cases hmem

theorem nextInput_fresh (d : Dev) (c : Nat) (h : (d.core c).again = []) :
    d.nextInput c = d.bestInput ((List.range 256).filter (d.qualifies c)) := by
  have hnone : (List.range 256).filter (fun n => nmem (d.core c).again n) = [] := by simp [h, nmem]
  unfold Dev.nextInput
  simp only [hnone]
  rfl

theorem again_alone (d : Dev) (c n : Nat) (hn : n < 256) (h : (d.core c).again = [n]) :
    d.bestInput ((List.range 256).filter fun n => nmem (d.core c).again n) = some n := by
  obtain ⟨a, ha⟩ := bestInput_exists d (fun n => nmem (d.core c).again n) n hn (by simp [h, nmem])
  have han : n = a := by simpa [h, nmem] using (bestInput_picked d _ a ha).1
  rw [ha, han]

theorem nextInput_again (d : Dev) (c n : Nat) (hn : n < 256) (h : (d.core c).again = [n])
    (hnew : d.bestInput ((List.range 256).filter (d.qualifies c)) = none) : d.nextInput c = some n := by
  unfold Dev.nextInput
  simp only [again_alone d c n hn h, hnew]

theorem nextInput_againOr (d : Dev) (c n m : Nat) (hn : n < 256) (h : (d.core c).again = [n])
    (hnew : d.bestInput ((List.range 256).filter (d.qualifies c)) = some m) :
    d.nextInput c = if d.inPrio n < d.inPrio m then some m else some n := by
  unfold Dev.nextInput
  simp only [again_alone d c n hn h, hnew]

theorem takeInput_state (d : Dev) (c n : Nat) :
    (nmem (d.core c).again n = false → (d.takeInput c n).inputState n = 2) ∧
    (nmem (d.core c).again n = true → (d.takeInput c n).inputState n = d.inputState n) := by
  refine ⟨fun h => ?_, fun h => ?_⟩
  · simp [Dev.takeInput, h, inputState_setInput]
  · simp [Dev.takeInput, h]

theorem takeInput_core (d : Dev) (c n : Nat) :
    ((d.takeInput c n).core c).pc = d.fld (0x50400 + 0x10 * c) 13 19 * 8192 + (if d.inFast n then 0x1000 else 0) + n * 16 ∧
    ((d.takeInput c n).core c).handlers = { input := n, fast := d.inFast n, prio := d.inPrio n } :: (d.core c).handlers := by
  cases h : nmem (d.core c).again n <;> simp [Dev.takeInput, h]

theorem takeInput_keeps (d : Dev) (c n : Nat) : (d.takeInput c n).mem = d.mem ∧ (d.takeInput c n).regs = d.regs := by
  cases h : nmem (d.core c).again n <;> simp [Dev.takeInput, h]

theorem interruptTaken (s : State) (c n : Nat) (hc : c < 8) (hnext : s.dev.nextInput c = some n) :
    Makes (.irqTake c) s (s.dev.takeInput c n) :=
  makes_of_next rfl (by simp [hnext, Nat.not_le.2 hc])

theorem eoi_raisedMeanwhile (d : Dev) (c n : Nat) (h : (d.core c).handlers.any (·.input == n) = true) (hst : d.inputState n = 3) :
    d.eoi c n = (d.setInput n 2).setCore c fun k =>
      { k with handlers := k.handlers.eraseP (·.input == n), again := nadd k.again n } := by
  simp [Dev.eoi, h, hst]

theorem eoi_ends (d : Dev) (c n : Nat) (h : (d.core c).handlers.any (·.input == n) = true) (hst : d.inputState n ≠ 3) :
    d.eoi c n = (d.setInput n 0).setCore c fun k => { k with handlers := k.handlers.eraseP (·.input == n) } := by
  simp [Dev.eoi, h, hst]

/-- Settles O48: an input is raised, taken by the best that qualifies, and ended. -/
theorem coreInterrupts : Obligations.CoreInterrupts := by
  refine ⟨fun d n => ⟨fun h => ?_, fun h => ?_, fun h => ?_, fun h => ?_, inputState_setInput d n, inputState_clear d n⟩,
    fun s c n hc => ⟨fun hnext => ?_, fun hnext => makes_of_next rfl ?_⟩, fun d c n hagain hnext => ?_,
    fun d c n hn hagain => ⟨fun hlow => ?_, fun m hm hq hlt => ?_⟩, fun s c i n hc hn => ⟨fun hnot => makes_of_next rfl ?_, fun hactive => ?_⟩,
    fun s r => rfl⟩
  · simp [Dev.raiseInput, h]
  · simp [Dev.raiseInput, h]
  · simp [Dev.raiseInput, h]
  · simp [Dev.raiseInput, h]
  · obtain ⟨hpc, hhandlers⟩ := takeInput_core s.dev c n
    obtain ⟨hfresh, hagain⟩ := takeInput_state s.dev c n
    obtain ⟨hmem, hregs⟩ := takeInput_keeps s.dev c n
    exact ⟨_, interruptTaken s c n hc hnext, hfresh, hagain, hpc, hhandlers, hmem, hregs⟩
  · simp [hnext]
  · rw [nextInput_fresh d c hagain] at hnext
    exact bestInput_picked d _ n hnext
  · cases hnew : d.bestInput ((List.range 256).filter (d.qualifies c)) with
    | none => exact nextInput_again d c n hn hagain hnew
    | some m =>
      have hq := (bestInput_picked d _ m hnew).1
      have hmem := (bestInput_best d _ (pairwise_inputs _) m hnew).1
      have hm := List.mem_range.1 (List.mem_filter.1 hmem).1
      rw [nextInput_againOr d c n m hn hagain hnew, if_neg (Nat.not_lt.2 (hlow m hm hq))]
  · obtain ⟨x, hx⟩ := bestInput_exists d (d.qualifies c) m hm hq
    have hbest := (bestInput_picked d _ x hx).2 m hm hq
    refine ⟨x, ?_, by omega⟩
    rw [nextInput_againOr d c n x hn hagain hx, if_pos (by omega)]
  · subst hn
    simp [Dev.eoi, hnot]
  · subst hn
    refine ⟨fun hst => ⟨_, makes_of_next rfl ((if_pos hc).trans (eoi_raisedMeanwhile s.dev c _ hactive hst)), ?_, ?_, ?_⟩,
      fun hst => makes_of_next rfl ((if_pos hc).trans (eoi_ends s.dev c _ hactive hst))⟩
    · simp [inputState_setInput]
    · simp
    · simp

end Sys2Proof.Machine

/-! The root PLL, the island clocks and the loss of power (R398 to R400, R472, R473). -/

namespace Sys2Proof.Machine

theorem nextDivisor_gates (cur : Nat) (h : 64 ≤ cur) : nextDivisor cur 0 = 0 := by simp [nextDivisor, h]

theorem nextDivisor_doubles (cur : Nat) (h : cur < 64) : nextDivisor cur 0 = 2 * cur := by simp [nextDivisor, Nat.not_le.2 h]

theorem nextDivisor_starts (target : Nat) (h : target ≠ 0) : nextDivisor 0 target = 64 := by simp [nextDivisor, h]

theorem nextDivisor_halves (cur target : Nat) (h : target ≠ 0) (hcur : cur ≠ 0) : nextDivisor cur target = max target (cur / 2) := by
  simp [nextDivisor, h, hcur]

/-- A step of an island's clock that is not at its divisor. -/
theorem makes_clockRampStep {s : State} {i cur target : Nat} {d : Dev} (hi : i < 53) (hlock : s.dev.pm.rootLocked = true)
    (hcur : cur = tgetD s.dev.pm.divisors i 0) (htarget : target = if s.dev.islandOn i then islandDiv i else 0)
    (hd : d = s.dev.till (tgetD s.dev.pm.rampAt i 0 + nsTicks (s.dev.fld 0x30004 0 16))) (hne : cur ≠ target) :
    Makes (.clockRampStep i) s (d.setDivisor i (nextDivisor cur target)) := by
  subst hcur htarget hd
  refine makes_of_next rfl ?_
  simp [Nat.not_le.2 hi, hlock, hne]

/-- Settles O46: the clocks come up, follow their divisors and stop; the loss of power keeps what needs none. -/
theorem clocksAndPower : Obligations.ClocksAndPower := by
  refine ⟨fun s n => ⟨fun h => makes_of_next rfl ?_, fun h => makes_of_next rfl ?_⟩,
    fun s hgood => ⟨fun hosc => makes_of_next rfl ?_, fun hosc hlock hstate => ⟨_, rfl, makes_of_next rfl ?_⟩⟩,
    fun s d e hd he => ⟨fun hlock hstate => makes_of_next rfl ?_, fun hlock hstate => makes_of_next rfl ?_, fun hlock => makes_of_next rfl ?_⟩,
    fun s i cur target d hi hlock hcur htarget hd => ⟨fun heq => makes_of_next rfl ?_, fun hne h0 h64 => ?_, fun hne h0 h64 => ?_,
      fun hne h0 hstop => ?_, fun hne h0 hrun => ?_⟩,
    fun s => ⟨_, rfl, rfl, rfl, rfl, rfl, rfl, rfl, rfl, rfl, rfl, rfl, rfl, rfl, rfl, rfl⟩⟩
  · simp [h, withPm]
  · simp [h]
  · simp [hgood, hosc, withPm]
  · simp [hosc, hlock, hstate, Dev.rootLock, withPm]
  · subst he hd
    simp only [hlock, Bool.not_true, Bool.false_eq_true, if_false]
    exact if_pos hstate
  · subst he hd
    simp only [hlock, Bool.not_true, Bool.false_eq_true, if_false]
    exact if_neg hstate
  · simp [hlock]
  · subst hcur htarget
    simp [heq]
  · subst h0
    rw [← nextDivisor_gates cur h64]
    exact makes_clockRampStep hi hlock hcur htarget hd hne
  · subst h0
    rw [← nextDivisor_doubles cur h64]
    exact makes_clockRampStep hi hlock hcur htarget hd hne
  · rw [← nextDivisor_starts target h0, ← hstop]
    exact makes_clockRampStep hi hlock hcur htarget hd hne
  · rw [← nextDivisor_halves cur target h0 hrun]
    exact makes_clockRampStep hi hlock hcur htarget hd hne

end Sys2Proof.Machine

/-! Sealing, key release and unsealing (R370 to R373). -/

namespace Sys2Proof.Machine

/-! ## Descriptors of the security core -/

section
variable {d : Dev} {ring idx op : Nat} {ch : Bool} {fs : List Nat} {b : List Byte} {f : List Byte → Dev → Dev}

theorem secLease_leased (h : leased d ring idx op ch fs b) : d.secLease ring idx op ch fs f = f b (d.begun ring idx) := by
  obtain ⟨hready, hadmits, hlease⟩ := h
  rw [Dev.secLease, withDesc_ready _ _ _ _ _ _ hready, gated_admits _ _ _ _ _ _ (begun_admits _ _ _ _ _ hadmits)]
  simp [hlease]

theorem secLease_unleased (hready : d.ready ring idx op b) (hadmits : admits d ring ch fs) (hlease : d.hasLease (d.ringOwner ring) = false) :
    d.secLease ring idx op ch fs f = (d.begun ring idx).completeDesc ring idx stDenied 8 0 0 := by
  rw [Dev.secLease, withDesc_ready _ _ _ _ _ _ hready, gated_admits _ _ _ _ _ _ (begun_admits _ _ _ _ _ hadmits)]
  simp [hlease]

end

section
variable {d : Dev} {ring idx a n : Nat} {host bs : List Byte} {e : Dev} {f : List Byte → Dev → Dev}

theorem inputRead_reads (h : readsInput d ring a n host bs e) : d.inputRead ring idx a n host f = f bs e := by
  unfold Dev.inputRead
  rcases h with ⟨p, hport, rfl, rfl⟩ | ⟨hport, hread⟩
  · rw [hport]
  · simp [hport, hread]

theorem inputRead_again {t : Nat} (hport : nodePort (d.ringOwner ring) = none) (hread : d.readRun (some (d.ringOwner ring)) a n = (.again t, e)) :
    d.inputRead ring idx a n host f = e.unclaim ring idx := by
  simp [Dev.inputRead, hport, hread]

theorem inputRead_fails {x y : Nat} (hport : nodePort (d.ringOwner ring) = none) (hread : d.readRun (some (d.ringOwner ring)) a n = (.no x y, e)) :
    d.inputRead ring idx a n host f = e.completeDesc ring idx stDeviceError 1 0 0 := by
  simp [Dev.inputRead, hport, hread]

end

/-! ## States and levels -/

theorem secState_sec (d : Dev) (st : Nat) (h : d.sec.state ≠ st) :
    (d.secState st).sec = { d.sec with state := st, keyState := if st = 2 then 1 else if st = 3 then 2 else 0 } := by
  simp [Dev.secState, h]

theorem secState_changes (d : Dev) (st : Nat) : ∃ ks, (d.secState st).sec = { d.sec with state := st, keyState := ks } := by
  by_cases h : d.sec.state = st
  · exact ⟨d.sec.keyState, by rw [Dev.secState, if_pos h, ← h]⟩
  · exact ⟨_, secState_sec d st h⟩

theorem sealWith_sec (d : Dev) (lo hi flags : Nat) (key : List Byte) : ∃ ks, (d.sealWith lo hi flags key).sec = { d.sec with
    tenantLo := lo, tenantHi := hi, sealFlags := flags % 4, tenantKey := key, sealNonce := (List.range 32).map (Config.freeByte d.free),
    state := 2, keyState := ks } := by
  obtain ⟨ks, h⟩ := secState_changes { d with
    free := d.free + 1
    sec := { d.sec with
      tenantLo := lo, tenantHi := hi, sealFlags := flags % 4, tenantKey := key
      sealNonce := (List.range 32).map (Config.freeByte d.free) } } 2
  exact ⟨ks, h⟩

/-! ## SEAL and KEY_RELEASE -/

/-- Neither the lease holder nor a node of the tenant range. -/
theorem mayNotRelease_iff (lease : Bool) (lo hi o : Nat) :
    (!(lease || (decide (lo ≤ o) && decide (o ≤ hi)))) = true ↔ lease = false ∧ (o < lo ∨ hi < o) := by
  cases lease <;> simp

/-- The weight key of the ciphertext `ct` is taken or refused by its check value (R371). -/
def Dev.releaseKey (d : Dev) (ring idx : Nat) (b ct : List Byte) : Dev :=
  let wk := weightKeyOf ct d.sec.sealNonce
  if (sha256 (ascii "KCV" ++ wk)).take 8 = slice b 16 8 then
    ({ d with sec := { d.sec with weightKey := wk } }.secState 3).completeDesc ring idx stDone 0 0 0
  else { d with sec := { d.sec with weightKey := [] } }.completeDesc ring idx stDenied 0x83 0 0

/-- A KEY_RELEASE that may go on reads its ciphertext, and takes or refuses the key. -/
theorem makes_keyRelease {s : State} {ring idx : Nat} {b host : List Byte} {d : Dev} (hready : s.dev.ready ring idx 0x63 b)
    (hadmits : admits s.dev ring false [9]) (hstate : s.dev.sec.state = 2)
    (hmay : s.dev.hasLease (s.dev.ringOwner ring) = true ∨
      (s.dev.sec.tenantLo ≤ s.dev.ringOwner ring ∧ s.dev.ringOwner ring ≤ s.dev.sec.tenantHi))
    (h : (s.dev.begun ring idx).inputRead ring idx (field b 40 8) 1568 host (fun ct d => d.releaseKey ring idx b ct) = d) :
    Makes (.keyRelease ring idx host) s d := by
  refine makes_gatedDesc _ rfl hready hadmits ((if_neg (not_not.2 hstate)).trans ((if_neg ?_).trans h))
  rw [mayNotRelease_iff]
  rintro ⟨hlease, houtside⟩
  rcases hmay with hheld | hinside
  · exact absurd (hheld.symm.trans hlease) (by decide)
  · simp only [begun_ringOwner, begun_sec] at houtside
    omega

theorem sealAndRelease : Says.SealAndRelease := by
  refine ⟨fun s ring idx lo hi b key d hleased hlo hhi hd => ⟨fun hshared hregions hsessions hkey => ⟨fun hlo1 hlo2 hhi1 hhi2 e he => ?_,
      fun hrange => ?_⟩, fun hbar => ?_, fun hshared hregions hsessions hkey => ?_⟩,
    fun s ring idx b key hready hadmits hlease => makes_of_next rfl (secLease_unleased hready hadmits hlease),
    fun d lo hi flags key e he => ?_,
    fun s ring idx b host d hready hadmits hd => ⟨fun hstate => ?_, fun hstate hlease houtside => ?_, fun hstate hmay =>
      ⟨fun ct wk e hread hwk => ⟨fun hmatch => ?_, fun hmatch => ?_⟩, fun e h hport hread => ?_, fun e x y hport hread => ?_⟩⟩,
    fun s ring idx n b w hready hadmits hw hn => ⟨fun hstate => ?_, fun hstate => ?_⟩,
    fun d st => ⟨(secState_changes d st).elim fun _ h => by rw [h], fun h => by rw [secState_sec d st h]⟩⟩
  · refine makes_of_next rfl ((secLease_leased hleased).trans ?_)
    subst hlo hhi hd he
    simp [hshared, hregions, hkey, hlo1, hlo2, hhi1, hhi2, show (s.dev.begun ring idx).host.sessions = [] from hsessions]
  · refine makes_of_next rfl ((secLease_leased hleased).trans ?_)
    subst hlo hhi hd
    simp only [begun_sec, begun_pool, hshared, hregions, hkey, show (s.dev.begun ring idx).host.sessions = [] from hsessions]
    simp
    intros
    omega
  · refine makes_of_next rfl ((secLease_leased hleased).trans ?_)
    subst hd
    have hbarred : ((s.dev.begun ring idx).sec.state ≠ 1 || !(s.dev.begun ring idx).pool.regions.isEmpty ||
        !(s.dev.begun ring idx).host.sessions.isEmpty) = true := by
      rw [show (s.dev.begun ring idx).host.sessions = s.dev.host.sessions from rfl]
      rcases hbar with h | h | h <;> simp [h]
    exact if_pos hbarred
  · refine makes_of_next rfl ((secLease_leased hleased).trans ?_)
    subst hd
    simp [hshared, hregions, hkey, show (s.dev.begun ring idx).host.sessions = [] from hsessions]
  · subst he
    obtain ⟨ks, h⟩ := sealWith_sec d lo hi flags key
    rw [h]
    exact ⟨rfl, rfl, rfl, rfl, rfl, rfl, rfl⟩
  · subst hd
    exact makes_gatedDesc _ rfl hready hadmits (if_pos hstate)
  · subst hd
    refine makes_gatedDesc _ rfl hready hadmits ((if_neg (not_not.2 hstate)).trans (if_pos ?_))
    exact (mayNotRelease_iff ..).2 ⟨hlease, houtside⟩
  · subst hd hwk
    exact makes_keyRelease hready hadmits hstate hmay ((inputRead_reads hread).trans (if_pos hmatch))
  · subst hd hwk
    exact makes_keyRelease hready hadmits hstate hmay ((inputRead_reads hread).trans (if_neg hmatch))
  · subst hd
    exact makes_keyRelease hready hadmits hstate hmay (inputRead_again hport hread)
  · subst hd
    exact makes_keyRelease hready hadmits hstate hmay (inputRead_fails hport hread)
  · exact makes_gatedDesc _ rfl hready hadmits (if_pos hstate)
  · subst hw hn
    exact makes_gatedDesc _ rfl hready hadmits (if_neg (not_not.2 hstate))

/-! ## The bind-off -/

theorem unsealing : Says.Unsealing := by
  refine ⟨fun s ring idx b hleased => ⟨fun hsealed => ⟨_, rfl, ?_⟩, fun h2 h3 => ?_⟩,
    fun s ring idx b hready hadmits hlease => makes_of_next rfl (secLease_unleased hready hadmits hlease),
    fun s hstate hcmds d hd => ⟨fun hnone => makes_of_next rfl ?_, fun c hc => makes_of_next rfl ?_⟩,
    fun d => ⟨rfl, rfl, rfl, rfl, rfl⟩, fun d htxns hparked => ?_⟩
  · refine makes_of_next rfl ((secLease_leased hleased).trans (if_neg ?_))
    rcases hsealed with h | h <;> simp [h]
  · exact makes_of_next rfl ((secLease_leased hleased).trans (if_pos (by simp [h2, h3])))
  · subst hd
    simp only [hstate, hcmds, hnone]
    rfl
  · subst hd
    simp only [hstate, hcmds, hc]
    rfl
  · unfold Dev.bindRest
    dsimp only
    rw [hparked, List.filterMap_eq_nil_iff.2]
    · exact ⟨_, rfl, rfl, rfl, rfl, rfl⟩
    · intro e he
      split
      · next m hm => exact absurd hm (htxns e he m)
      · rfl

/-- Settles O41: sealing, the release of a weight key, and unsealing. -/
theorem sealing : Obligations.Sealing := ⟨sealAndRelease, unsealing⟩

end Sys2Proof.Machine

/-! Attestation, pattern keys, firmware staging and debug tokens (R365 to R368, R374, R375, R378 to R380, R450). -/

namespace Sys2Proof.Machine

/-! ## Attestation -/

theorem attest_ready {s : State} {ring idx : Nat} {b : List Byte} {d e : Dev} (hready : s.dev.ready ring idx 0x60 b)
    (hd : d = if attestLen b = field b 48 4 then s.dev.begun ring idx else (s.dev.begun ring idx).clamped 14 0)
    (h : (if d.sec.state = 5 then d.completeDesc ring idx stDeviceError 0x86 0 0
      else if 64 ≤ d.sec.attests.length then d.completeDesc ring idx stRetry 0xFFFF 0 0
      else { d with sec := { d.sec with attests := d.sec.attests ++ [{ ring := ring, idx := idx, since := d.now }] } }) = e) :
    Makes (.attest ring idx) s e := by
  subst hd
  exact makes_of_next rfl ((withDesc_ready _ _ _ _ b _ hready).trans h)

theorem sec_attestClamped (d : Dev) (p : Prop) [Decidable p] : (if p then d else d.clamped 14 0).sec = d.sec := by
  split <;> rfl

/-- What is signed, or burned and signed, or refused, once the head of the queue `a` has been waited for (R365, R375). -/
def signOrRefuse (f : Fuses) (d : Dev) (a : AttestReq) (b : List Byte) : Fuses × Dev :=
  if d.sec.lowerTree && d.sec.lowNext < 1048576 then (f, d.signReport f a b)
  else if f.topUsed < 32768 then ((makeTree f d).1, (makeTree f d).2.signReport (makeTree f d).1 a b)
  else (f, d.completeDesc a.ring a.idx stDeviceError 0x86 0 0)

theorem exec_attestSign {s : State} {a : AttestReq} {rest : List AttestReq} {x : Started} {c d : Dev}
    (hqueue : s.dev.sec.attests = a :: rest) (hbusy : s.dev.secBusy = false) (hx : s.dev.startedAt a.ring a.idx = some x)
    (hc : c = if s.dev.sec.lastSign = 0 then s.dev else s.dev.till (s.dev.sec.lastSign + msTicks 10))
    (hd : d = if s.dev.boot.inReset.isEmpty then { c with sec := { c.sec with attests := rest } }
      else { c.till (a.since + msTicks 2000) with sec := { (c.till (a.since + msTicks 2000)).sec with attests := rest } }) :
    exec .attestSign s = .next { s with fuse := (signOrRefuse s.fuse d a x.bytes).1, dev := (signOrRefuse s.fuse d a x.bytes).2 } := by
  have hboot : c.boot = s.dev.boot := by subst hc; split <;> rfl
  have hstarted (t : Nat) : ({ c with sec := { c.sec with attests := rest } } : Dev).startedAt a.ring a.idx = some x ∧
      ({ c.till t with sec := { (c.till t).sec with attests := rest } } : Dev).startedAt a.ring a.idx = some x := by
    subst hc
    split <;> exact ⟨hx, hx⟩
  change execAttestSign s = _
  unfold execAttestSign liftFuse
  simp only [hqueue, hbusy, Bool.false_eq_true, if_false, ← hc, hboot]
  by_cases hreset : s.dev.boot.inReset.isEmpty = true
  · simp only [hreset, if_true, (hstarted 0).1] at hd ⊢
    subst hd
    rfl
  · simp only [hreset, Bool.false_eq_true, if_false, (hstarted (a.since + msTicks 2000)).2] at hd ⊢
    subst hd
    rfl

theorem lowerTree_waited {s : State} {rest : List AttestReq} {t : Nat} {c d : Dev}
    (hc : c = if s.dev.sec.lastSign = 0 then s.dev else s.dev.till (s.dev.sec.lastSign + msTicks 10))
    (hd : d = if s.dev.boot.inReset.isEmpty then { c with sec := { c.sec with attests := rest } }
      else { c.till t with sec := { (c.till t).sec with attests := rest } }) :
    d.sec.lowerTree = s.dev.sec.lowerTree ∧ d.sec.lowNext = s.dev.sec.lowNext := by
  subst hd hc
  repeat' split
  all_goals exact ⟨rfl, rfl⟩

theorem signOrRefuse_leaf (f : Fuses) (d : Dev) (a : AttestReq) (b : List Byte) (htree : d.sec.lowerTree = true)
    (hleft : d.sec.lowNext < 1048576) : signOrRefuse f d a b = (f, d.signReport f a b) := by
  simp [signOrRefuse, htree, hleft]

theorem signOrRefuse_noLeaf (f : Fuses) (d : Dev) (a : AttestReq) (b : List Byte) (h : d.sec.lowerTree = false ∨ 1048576 ≤ d.sec.lowNext) :
    signOrRefuse f d a b = if f.topUsed < 32768 then ((makeTree f d).1, (makeTree f d).2.signReport (makeTree f d).1 a b)
      else (f, d.completeDesc a.ring a.idx stDeviceError 0x86 0 0) := by
  refine if_neg ?_
  rcases h with h | h <;> simp [h]

theorem attestation : Says.Attestation := by
  refine ⟨fun s ring idx b hready d hd => ⟨fun hlive hroom => attest_ready hready hd ?_, fun hlive hfull => attest_ready hready hd ?_,
      fun hdead => attest_ready hready hd ?_⟩,
    fun s a rest x c d hqueue hbusy hx hc hd => ?_, fun s h => ?_, fun d f a b => ?_⟩
  · have hsec : d.sec = s.dev.sec := by subst hd; exact sec_attestClamped (s.dev.begun ring idx) _
    rw [hsec, if_neg hlive, if_neg (Nat.not_le.2 hroom)]
  · have hsec : d.sec = s.dev.sec := by subst hd; exact sec_attestClamped (s.dev.begun ring idx) _
    rw [hsec, if_neg hlive, if_pos hfull]
  · have hsec : d.sec = s.dev.sec := by subst hd; exact sec_attestClamped (s.dev.begun ring idx) _
    rw [hsec, if_pos hdead]
  · obtain ⟨htree, hnext⟩ := lowerTree_waited hc hd
    have hexec := exec_attestSign hqueue hbusy hx hc hd
    refine ⟨fun hmade hleft => ?_, fun hnoLeaf => ⟨fun hfuse => ⟨_, _, rfl, rfl, ?_⟩, fun hfuse => ?_⟩⟩
    · rw [signOrRefuse_leaf _ _ _ _ (htree.trans hmade) (by rwa [hnext])] at hexec
      exact hexec
    · rw [signOrRefuse_noLeaf _ _ _ _ (by rwa [htree, hnext]), if_pos hfuse] at hexec
      exact hexec
    · rw [signOrRefuse_noLeaf _ _ _ _ (by rwa [htree, hnext]), if_neg (Nat.not_lt.2 hfuse)] at hexec
      exact hexec
  · change execAttestSign s = _
    unfold execAttestSign liftFuse
    rcases h with h | h
    · simp only [h]
    · simp only [h, if_true]
      split <;> rfl
  · refine ⟨{ d with free := d.free + 1, sec := { d.sec with lowNext := d.sec.lowNext + 1, lastSign := d.now } }, _, rfl, rfl, ?_, rfl⟩
    rw [List.append_assoc]
    exact List.take_left

/-! ## Pattern keys -/

theorem sec_keyClamped (d : Dev) (p : Prop) [Decidable p] : (if p then d.clamped 14 0 else d).sec = d.sec := by
  split <;> rfl

theorem ringOwner_keyClamped (d : Dev) (p : Prop) [Decidable p] (ring : Nat) :
    (if p then d.clamped 14 0 else d).ringOwner ring = d.ringOwner ring := by
  split <;> rfl

/-- A pattern key that has been read is taken, or refused (R380). -/
def Dev.takeKey (d : Dev) (ring idx o slot : Nat) (others : List PatternKey) (k : List Byte) : Dev :=
  if !hssKeyOk k then d.completeDesc ring idx stDenied 0x82 0 0
  else if 1024 ≤ others.length then d.completeDesc ring idx stDenied 4 0 0
  else
    let x : PatternKey := { owner := o, slot := slot, key := k }
    { d with sec := { d.sec with keys := x :: others } }.completeDesc ring idx stDone 0 (keyResult (sha256 k)) 0

section
variable {s : State} {ring idx slot : Nat} {b host : List Byte} {others : List PatternKey} {d e : Dev}
  (hready : s.dev.ready ring idx 0x66 b) (hadmits : admits s.dev ring false []) (hslot : slot = field b 8 1 % 4)
  (hd : d = if 1 < field b 9 1 then (s.dev.begun ring idx).clamped 14 0 else s.dev.begun ring idx)
  (hothers : others = s.dev.sec.keys.filter fun k => !(k.owner == s.dev.ringOwner ring && k.slot == slot))
include hready hadmits hslot hd hothers

theorem makes_keyRegister
    (h : (if d.sec.state = 2 || d.sec.state = 3 then d.completeDesc ring idx stDenied 0x80 0 0
      else if field b 9 1 ≠ 0 then
        { d with sec := { d.sec with keys := others } }.completeDesc ring idx stDone 0
          (keyResult (((d.sec.keys.find? fun k : PatternKey => k.owner == s.dev.ringOwner ring && k.slot == slot).map fun k : PatternKey => sha256 k.key).getD [])) 0
      else d.inputRead ring idx (field b 40 8) 60 host fun k d => d.takeKey ring idx (s.dev.ringOwner ring) slot others k) = e) :
    Makes (.keyRegister ring idx host) s e := by
  have hsec : d.sec = s.dev.sec := by subst hd; exact sec_keyClamped (s.dev.begun ring idx) _
  refine makes_gatedDesc _ rfl hready hadmits ?_
  simp only [← hd, begun_ringOwner, ← hslot, hsec, ← hothers]
  rw [← h, hsec]
  rfl

end

theorem keysOfTenants : Says.KeysOfTenants := by
  refine ⟨fun s ring idx b hready hadmits => makes_gatedDesc _ rfl hready hadmits rfl,
    fun s ring idx slot b host others d hready hadmits hslot hd hothers => ?_⟩
  have hmakes {e : Dev} := makes_keyRegister (e := e) (host := host) hready hadmits hslot hd hothers
  have hsec : d.sec = s.dev.sec := by subst hd; exact sec_keyClamped (s.dev.begun ring idx) _
  refine ⟨fun hsealed => hmakes (if_pos ?_), fun h2 h3 => ?_⟩
  · rcases hsealed with h | h <;> simp [hsec, h]
  · have hopen : ¬ (d.sec.state = 2 || d.sec.state = 3) = true := by simp [hsec, h2, h3]
    have hread (hact : field b 9 1 = 0) {e : Dev}
        (h : d.inputRead ring idx (field b 40 8) 60 host (fun k d => d.takeKey ring idx (s.dev.ringOwner ring) slot others k) = e) :
        Makes (.keyRegister ring idx host) s e :=
      hmakes ((if_neg hopen).trans ((if_neg (not_not.2 hact)).trans h))
    refine ⟨fun hact => ⟨fun k hfind => hmakes ((if_neg hopen).trans ((if_pos hact).trans ?_)),
        fun hfind => hmakes ((if_neg hopen).trans ((if_pos hact).trans ?_))⟩,
      fun key e hact hin => ⟨fun hbad => ?_, fun hok hfull => ?_, fun hok hroom => ?_⟩,
      fun e h hact hport hagain => hread hact (inputRead_again hport hagain),
      fun e x y hact hport hfail => hread hact (inputRead_fails hport hfail)⟩
    · rw [hsec, hfind]
      rfl
    · rw [hsec, hfind]
      rfl
    · exact hread hact ((inputRead_reads hin).trans (by simp [Dev.takeKey, hbad]))
    · exact hread hact ((inputRead_reads hin).trans (by simp [Dev.takeKey, hok, hfull]))
    · exact hread hact ((inputRead_reads hin).trans (by simp [Dev.takeKey, hok, Nat.not_le.2 hroom, keyResult]))

/-- Settles O42: reports are queued and signed; pattern keys are held for their owners. -/
theorem attestationAndKeys : Obligations.AttestationAndKeys := ⟨attestation, keysOfTenants⟩

/-! ## Firmware -/

/-- What staging does with an image of a length that has been clamped, or with the staged one (R367, R368). -/
theorem makes_fwStage {s : State} {ring idx : Nat} {b img : List Byte} {ok : Bool} {e : Dev} (h : leased s.dev ring idx 0x67 false [] b)
    (hdo : (let len := clampGrain 64 128 15728640 (field b 48 4)
      let d := if 1 < field b 8 1 then (s.dev.begun ring idx).clamped 14 0 else s.dev.begun ring idx
      if field b 8 1 ≠ 0 then
        let d := if d.sec.staged then { d with sec := d.sec.setSpare { valid := false, svn := 0 } false } else d
        d.completeDesc ring idx stDone 0 0 0
      else
        let d := if len = field b 48 4 then d else d.clamped 14 0
        let d := { d with sec := d.sec.setSpare { valid := false, svn := 0 } false }
        if !imageOk img len ok then d.completeDesc ring idx stDenied 0x82 0 len
        else if field img 4 4 < s.fuse.svn then d.completeDesc ring idx stDenied 0x87 0 len
        else { d with sec := d.sec.setSpare (slotOf img) true }.completeDesc ring idx stDone 0 0 len) = e) :
    Makes (.fwStage ring idx img ok) s e :=
  makes_of_next rfl ((secLease_leased h).trans hdo)

theorem imageOk_false {img : List Byte} {len : Nat} {ok : Bool} (h : ok = false ∨ img.take 4 ≠ ascii "AMSK" ∨
    len < 128 + field img 8 4 + field img 80 4 ∨ hssShaped (slice img (128 + field img 8 4) (field img 80 4)) = false ∨
    sha256 (slice img 128 (field img 8 4)) ≠ slice img 16 32) : imageOk img len ok = false := by
  by_contra hok
  simp only [Bool.not_eq_false, imageOk, imageBody, Bool.and_eq_true, beq_iff_eq, decide_eq_true_eq] at hok
  obtain ⟨⟨⟨⟨⟨⟨hname, -⟩, -⟩, hlen⟩, hsig⟩, hshape⟩, hdigest⟩ := hok
  rcases h with h | h | h | h | h
  · exact absurd (h.symm.trans hsig) (by decide)
  · exact h hname
  · omega
  · exact absurd (h.symm.trans hshape) (by decide)
  · exact h hdigest

theorem firmwareStaging : Says.FirmwareStaging := by
  refine fun s ring idx len b img ok hready hadmits hlen => ⟨fun hlease => makes_of_next rfl (secLease_unleased hready hadmits hlease),
    fun hlease => ⟨fun d e hact hd he => ?_, fun d hact hd => ?_⟩⟩
  · have hdo {x : Dev} (h : (if !imageOk img len ok then e.completeDesc ring idx stDenied 0x82 0 len
        else if field img 4 4 < s.fuse.svn then e.completeDesc ring idx stDenied 0x87 0 len
        else { e with sec := e.sec.setSpare (slotOf img) true }.completeDesc ring idx stDone 0 0 len) = x) :
        Makes (.fwStage ring idx img ok) s x := by
      refine makes_fwStage ⟨hready, hadmits, hlease⟩ ?_
      simp only [hact, Nat.not_lt_zero, if_false, ne_eq, not_true_eq_false, ← hlen, ← hd]
      subst he
      exact h
    refine ⟨fun hok hsvn => hdo ?_, fun hok hsvn => hdo ?_, fun hbad => hdo ?_⟩
    · simp [hok, Nat.not_lt.2 hsvn]
    · simp [hok, hsvn]
    · simp [imageOk_false hbad]
  · have hsec : d.sec = s.dev.sec := by subst hd; exact sec_keyClamped (s.dev.begun ring idx) _
    refine ⟨fun hstaged => makes_fwStage ⟨hready, hadmits, hlease⟩ ?_, fun hstaged => makes_fwStage ⟨hready, hadmits, hlease⟩ ?_⟩
    · simp only [← hd]
      rw [if_pos hact, hsec, if_pos hstaged]
    · simp only [← hd]
      rw [if_pos hact, hsec, if_neg (by simp [hstaged])]

/-! ## Debug tokens -/

theorem debugTo_sec (d : Dev) (lv x : Nat) : (d.debugTo lv x).sec =
    { d.sec with debugLevel := lv, debugExpiry := x, debugOpened := d.sec.debugOpened || lv == 2 } := by
  unfold Dev.debugTo
  dsimp only
  split
  · rw [sec_msixBoth, sec_logSrc]
  · rfl

theorem tokenRefused_none {d : Dev} {f : Fuses} {t : List Byte} {sig : Bool} (h : d.tokenRefused f t sig = none) :
    t.take 4 = ascii "KDBG" ∧ field t 4 1 = 1 ∧ field t 8 8 = Config.deviceId % 2 ^ 64 ∧ slice t 16 32 = slice d.sec.debugNonce 0 32 ∧
    sig = true ∧ field t 84 4 ≤ 16384 ∧ hssShaped (slice t 128 (field t 84 4)) = true ∧ 1 ≤ field t 5 1 ∧ field t 5 1 ≤ 3 ∧
    (field t 5 1 ≤ 2 → d.sec.state = 1) ∧ (field t 5 1 = 2 → d.pool.regions = [] ∧ f.openBarred = false) := by
  unfold Dev.tokenRefused at h
  dsimp only at h
  split at h
  · cases h
  next hfields =>
  split at h
  · cases h
  next hsigned =>
  simp only [Bool.or_eq_true, decide_eq_true_eq, not_or, not_not, ne_eq] at hfields
  simp only [Bool.or_eq_true, Bool.not_eq_true', decide_eq_true_eq, not_or, Bool.not_eq_false, Nat.not_lt] at hsigned
  obtain ⟨⟨⟨hname, hversion⟩, hpart⟩, hnonce⟩ := hfields
  obtain ⟨⟨hsig, hlen⟩, hshape⟩ := hsigned
  refine ⟨hname, hversion, hpart, hnonce, hsig, hlen, hshape, ?_⟩
  split at h
  · next hlv => simp only [Bool.and_eq_true, decide_eq_true_eq] at hlv; omega
  next =>
  split at h
  · next hlv =>
    simp only [Bool.and_eq_true, decide_eq_true_eq, Bool.not_eq_true', List.isEmpty_iff] at hlv
    obtain ⟨⟨⟨hlv, hstate⟩, hregions⟩, hbarred⟩ := hlv
    exact ⟨by omega, by omega, fun _ => hstate, fun _ => ⟨hregions, hbarred⟩⟩
  next =>
  split at h
  · next hlv => simp only [Bool.and_eq_true, decide_eq_true_eq] at hlv; omega
  · cases h

/-- What a token makes of the part, the first check it fails or none: refused, decommissioned, or its level opened (R379). -/
def Dev.tokenTried (d : Dev) (refused : Option Nat) (ring idx lv life : Nat) : Dev :=
  match refused with
  | some det => d.completeDesc ring idx stDenied det 0 0
  | none => if lv = 3 then d.decommission.completeDesc ring idx stDone 0 5 0
    else (d.debugTo lv (if life = 0 then 0 else d.now + msTicks (1000 * life))).completeDesc ring idx stDone 0 lv 0

/-- A token that the lease holder presents is tried, its part's next nonce drawn (R378, R379). -/
theorem exec_debugUnlock {s : State} {ring idx lv life : Nat} {b t : List Byte} {sig : Bool} {d : Dev} (h : leased s.dev ring idx 0x68 false [] b)
    (hlv : lv = field t 5 1) (hlife : life = field t 48 4) (hd : d = { s.dev.begun ring idx with
      free := s.dev.free + 1, sec := { s.dev.sec with debugNonce := (List.range 32).map (Config.freeByte s.dev.free) } }) :
    exec (.debugUnlock ring idx t sig) s = .next { s with
      fuse := if s.dev.sec.state != 5 && (s.dev.tokenRefused s.fuse t sig).isNone && lv = 3 then { s.fuse with decommissioned := true } else s.fuse
      dev := d.tokenTried (s.dev.tokenRefused s.fuse t sig) ring idx lv life } := by
  have hrun : ((s.dev.startedAt ring idx).any fun x => x.op == 0x68 && !x.claimed && s.dev.sec.state != 5 &&
      s.dev.hasLease (s.dev.ringOwner ring)) = (s.dev.sec.state != 5) := by
    obtain ⟨hready, -, hlease⟩ := h
    unfold Dev.ready at hready
    cases hx : s.dev.startedAt ring idx with
    | none => simp [hx] at hready
    | some x =>
      simp only [hx, Option.any_some, Bool.and_eq_true] at hready
      simp [hready, hlease]
  subst hlv hlife hd
  change execDebugUnlock ring idx t sig s = _
  unfold execDebugUnlock liftFuse
  simp only [secLease_leased h, hrun]
  cases s.dev.tokenRefused s.fuse t sig <;> rfl

theorem debugTokens : Says.DebugTokens := by
  refine ⟨fun s ring idx lv life b t sig d hleased hlv hlife hd => ?_,
    fun s ring idx b t sig hready hadmits hlease => ?_, fun d f t sig h => tokenRefused_none h,
    fun s who hwho => makes_of_next rfl (leasedWrite_administers _ _ _ _ hwho),
    fun s => ⟨fun h => makes_of_next rfl (if_neg h), fun h => makes_of_next rfl (if_pos h)⟩,
    fun d lv x => by rw [debugTo_sec]; exact ⟨rfl, rfl, rfl⟩⟩
  · have hexec := exec_debugUnlock (sig := sig) hleased hlv hlife hd
    refine ⟨fun htoken hlevel hlife0 => ?_, fun htoken hlevel hlife0 => ?_, fun htoken hlevel hlive => ?_, fun det htoken => ?_⟩
    · simpa [Dev.tokenTried, htoken, hlevel, hlife0] using hexec
    · simpa [Dev.tokenTried, htoken, hlevel, hlife0] using hexec
    · refine ⟨_, hexec, ?_, ?_⟩
      · simp [htoken, hlevel, hlive]
      · simp [Dev.tokenTried, htoken, hlevel]
    · simpa [Dev.tokenTried, htoken] using hexec
  · have hrun : ((s.dev.startedAt ring idx).any fun x => x.op == 0x68 && !x.claimed && s.dev.sec.state != 5 &&
        s.dev.hasLease (s.dev.ringOwner ring)) = false := by simp [hlease]
    change execDebugUnlock ring idx t sig s = _
    unfold execDebugUnlock liftFuse
    simp only [secLease_unleased hready hadmits hlease, hrun]
    rfl

/-- Settles O43: firmware is staged, and debug levels open and close. -/
theorem firmwareAndDebug : Obligations.FirmwareAndDebug := ⟨firmwareStaging, debugTokens⟩

end Sys2Proof.Machine

/-! Loopbacks, built-in self-tests and the test access port (R459 to R464). -/

namespace Sys2Proof.Machine

/-! ## Loopbacks -/

theorem clampN_bounds (lo hi v : Nat) (h : lo ≤ hi) : lo ≤ clampN lo hi v ∧ clampN lo hi v ≤ hi := by
  unfold clampN
  split
  · exact ⟨le_refl _, h⟩
  · split
    · exact ⟨h, le_refl _⟩
    · omega

/-- The fields of TEST_LB_CTL read back as they were stored. -/
theorem loopControl_fields (kind depth i ms : Nat) (hdepth : depth < 16) (hi : i < 256) (hms : ms < 65536) (hkind : kind < 4) :
    bits (kind * 2 ^ 28 + depth * 2 ^ 24 + i * 65536 + ms) 28 2 = kind ∧ bits (kind * 2 ^ 28 + depth * 2 ^ 24 + i * 65536 + ms) 24 4 = depth ∧
    bits (kind * 2 ^ 28 + depth * 2 ^ 24 + i * 65536 + ms) 16 8 = i ∧
    bits (kind * 2 ^ 28 + depth * 2 ^ 24 + i * 65536 + ms) 0 12 = ms % 4096 := by
  unfold bits
  omega

theorem loopFields_fields (d : Dev) (v : Nat) :
    (d.loopFields v).fld 0xA00000 28 2 = bits v 28 2 ∧ 1 ≤ (d.loopFields v).fld 0xA00000 24 4 ∧
    1 ≤ (d.loopFields v).fld 0xA00000 0 12 ∧ (d.loopFields v).fld 0xA00000 0 12 ≤ 4000 ∧ (d.loopFields v).fld 0xA00000 16 8 ≤ 23 := by
  unfold Dev.loopFields Dev.fld
  simp only [Dev.reg_setReg_same]
  have hkind : bits v 28 2 < 4 := bits_lt v 28 2
  obtain ⟨hms, hms'⟩ := clampN_bounds 1 4000 (bits v 0 12) (by decide)
  generalize hlim : (if bits v 28 2 = 0 then 5 else if bits v 28 2 = 1 then 2 else if bits v 28 2 = 2 then 4 else 1) = lim
  generalize hnum : (if bits v 28 2 = 0 then 23 else if bits v 28 2 = 3 then 15 else 5) = num
  have hlim' : 1 ≤ lim ∧ lim ≤ 5 := by subst hlim; repeat' split
                                       all_goals decide
  have hnum' : num ≤ 23 := by subst hnum; repeat' split
                              all_goals decide
  obtain ⟨hdepth, hdepth'⟩ := clampN_bounds 1 lim (bits v 24 4) hlim'.1
  have hi := Nat.min_le_right (bits v 16 8) num
  obtain ⟨h1, h2, h3, h4⟩ := loopControl_fields (bits v 28 2) (clampN 1 lim (bits v 24 4)) (min (bits v 16 8) num) (clampN 1 4000 (bits v 0 12))
    (by omega) (by omega) (by omega) hkind
  rw [h1, h2, h3, h4]
  omega

section
variable {s : State} {who v k dp i : Nat} {d : Dev} (hwho : administers s.dev who) (hd : d = s.dev.loopFields v) (hk : k = d.fld 0xA00000 28 2)
  (hdp : dp = d.fld 0xA00000 24 4) (hi : i = d.fld 0xA00000 16 8)
include hwho hd hk hdp hi

theorem makes_loopbackStart {e : Dev}
    (h : (if d.test.loopback.isSome then { d with test := { d.test with lbResult := 3, lbReason := 1 } }
      else if !d.loopAllowed k dp i then { drawn d with test := { (drawn d).test with lbResult := 3, lbReason := 2 } }
      else { (drawn d).loopEnter k dp i with test := { ((drawn d).loopEnter k dp i).test with
        loopback := some (k, dp, i, ((drawn d).loopEnter k dp i).now + msTicks (((drawn d).loopEnter k dp i).fld 0xA00000 0 12), (nodePort who).getD 0)
        lbResult := 0, lbReason := 0, lbErrors := 0, lbChecked := 0 } }) = e) : Makes (.loopbackStart who v) s e := by
  subst hk hdp hi hd
  exact makes_of_next rfl ((leasedWrite_administers _ _ _ _ hwho).trans h)

end

theorem loopbackEnds {s : State} {n c kind depth i stop port e x : Nat} {d : Dev} (b : Bool) {f : Dev}
    (hlb : s.dev.test.loopback = some (kind, depth, i, stop, port))
    (hd : d = if kind = 2 ∧ 3 ≤ depth then s.dev else s.dev.till stop) (he : e = min n 0xFFFFFFFF)
    (hx : x = if kind = 0 ∧ depth = 4 then 0 else if kind = 0 ∧ depth = 5 then s.dev.test.lbChecked else min c 0xFFFFFFFF)
    (h : (if b then (if kind = 3 then (d.loopOver 2 3 e x).moduleOut i else d.loopOver 2 3 e x)
      else if loopPasses kind depth n c then d.loopOver 1 0 e x
      else if kind = 3 then (d.loopOver 2 0 e x).moduleOut i else d.loopOver 2 0 e x) = f) : Makes (.loopbackEnd n c b) s f := by
  have htest : d.test = s.dev.test := by subst hd; split <;> rfl
  refine makes_of_next rfl ?_
  simp only [hlb, Bool.and_eq_true, decide_eq_true_eq, ← hd, ← he, htest, ← hx]
  exact h

section
variable {d e : Dev} {kind depth i stop port r x n c : Nat} (hlb : d.test.loopback = some (kind, depth, i, stop, port))
  (he : e = { d with test := { d.test with loopback := none, lbResult := r, lbReason := x, lbErrors := n, lbChecked := c } })
include hlb he

/-- The end of a loopback: its interface returns by its kind, and the end is reported (R460, R461). -/
theorem loopOver_eq : d.loopOver r x n c =
    (((if kind = 0 ∧ depth ≠ 5 then e.linkDetect i
      else if kind = 1 then { e with boot := { e.boot with dnDown := ndel e.boot.dnDown i } }
      else if kind = 3 ∧ r = 1 then { e with boot := { e.boot with d2dOff := ndel e.boot.d2dOff i } }
      else e).log 0x0920 (code := r) (arg0 := x)).msix port 0) := by
  subst he
  unfold Dev.loopOver
  simp only [hlb, Bool.and_eq_true, decide_eq_true_eq]

end

/-! ## Self-tests -/

theorem bistTarget_test (d : Dev) (t : Nat) : (d.bistTarget t).test = d.test := by
  unfold Dev.bistTarget
  dsimp only
  split <;> rfl

theorem bistTarget_number (d : Dev) (t : Nat) : (d.bistTarget t).reg 0xA00010 % 2 ^ 31 = min t 18 := by
  unfold Dev.bistTarget
  rw [Dev.reg_setReg_same, Nat.mul_add_mod_self_right]
  omega

theorem bistEnd_eq {s : State} {n t : Nat} {sets : List Nat} {d e : Dev} (hbist : s.dev.test.bist = some t)
    (hd : d = (({ s.dev with test := { s.dev.test with bist := none, bistResult := if n = 0 then 1 else 2, bistFails := min n 0xFFFF } } : Dev).log
      0x0921 (code := if n = 0 then 1 else 2) (arg0 := t)))
    (h : (if n = 0 then d
      else if t < 16 then d.setPanel t fun q => { q with state := psRetired }
      else if 17 ≤ t then d.flueDown (t - 17)
      else forEach sets (fun c d => d.cacheSpare c) d) = e) : Makes (.bistEnd n sets) s e := by
  subst hd
  refine makes_of_next rfl ?_
  simp only [hbist]
  exact h

theorem loopbacksAndSelfTests : Says.LoopbacksAndSelfTests := by
  refine ⟨fun s who v k dp i d hwho hd hk hdp hi => ⟨fun hbusy => makes_loopbackStart hwho hd hk hdp hi ?_,
      fun hidle hbar => makes_loopbackStart hwho hd hk hdp hi ?_, fun e hidle hmay he => makes_loopbackStart hwho hd hk hdp hi ?_⟩,
    loopFields_fields, fun s who hwho => ⟨fun hidle => makes_of_next rfl ((leasedWrite_administers _ _ _ _ hwho).trans ?_),
      fun _ => makes_of_next rfl (leasedWrite_administers _ _ _ _ hwho)⟩,
    fun s n c kind depth i stop port e x d hlb hd he hx => ⟨fun hpass => loopbackEnds false hlb hd he hx ?_,
      fun hkind => ⟨fun hfail => loopbackEnds false hlb hd he hx ?_, loopbackEnds true hlb hd he hx ?_⟩,
      fun hkind => ⟨fun hfail => loopbackEnds false hlb hd he hx ?_, loopbackEnds true hlb hd he hx ?_⟩⟩,
    fun n c depth => ⟨fun kind hkind => ?_, fun hdepth => ?_, ?_, fun hdepth => ?_⟩,
    fun d e kind depth i stop port r x n c hlb he => ⟨fun hkind hdepth => ?_, fun hkind hdepth => ?_, fun hkind => ?_, fun hkind hr => ?_,
      fun hkind => ?_⟩,
    fun s n c b hidle => makes_of_next rfl ?_,
    fun s who t n c d hwho hc hn hd => ⟨fun hidle hmay => makes_of_next rfl ((leasedWrite_administers _ _ _ _ hwho).trans ?_),
      fun hbar => makes_of_next rfl ((leasedWrite_administers _ _ _ _ hwho).trans ?_)⟩,
    fun d t => ⟨bistTarget_number d t, bistTarget_test d t⟩, fun s n sets hidle => makes_of_next rfl ?_,
    fun s n t sets hbist => ⟨fun hn => ?_, fun d hn hd => ⟨fun ht => ?_, fun ht => ?_, fun ht => ?_⟩⟩⟩
  · rw [if_pos hbusy]
  · rw [hidle, hbar]
    rfl
  · subst he
    simp [hidle, hmay]
  · simp [Dev.loopAbort, Dev.loopOver, hidle]
  · simp [hpass]
  · simp [hfail, hkind]
  · simp [hkind]
  · rw [hfail]
    simp [hkind]
  · simp [hkind]
  · simp [loopPasses, hkind, Bool.beq_eq_decide_eq]
  · simp [loopPasses, hdepth, show depth ≠ 1 by omega]
  · simp [loopPasses, Nat.mul_comm]
  · simp [loopPasses, show depth ≠ 1 by omega, show ¬ 4 ≤ depth by omega, Bool.beq_eq_decide_eq]
  · rw [loopOver_eq hlb he, if_pos ⟨hkind, hdepth⟩]
  · rw [loopOver_eq hlb he]
    simp [hkind, hdepth]
  · rw [loopOver_eq hlb he]
    simp [hkind]
  · rw [loopOver_eq hlb he]
    simp [hkind, hr]
  · rw [loopOver_eq hlb he]
    rcases hkind with h | ⟨h, hr⟩
    · simp [h]
    · simp [h, hr]
  · simp [hidle]
  · unfold Dev.bistStart
    simp only [← hc, ← hn, ← hd]
    refine if_neg ?_
    rcases hmay with h | ⟨hpanel, hstate⟩
    · simp [hidle, h]
    · simp [hidle, hpanel, hstate, psRetired]
  · unfold Dev.bistStart
    simp only [← hc, ← hn, ← hd]
    refine if_pos ?_
    rcases hbar with h | ⟨hen, h | h⟩
    · simp [h]
    · simp [hen, Nat.not_lt.2 h]
    · simp [hen, psRetired, h]
  · simp [hidle]
  · refine bistEnd_eq hbist rfl ?_
    simp [hn]
  all_goals
    subst hd
    refine bistEnd_eq hbist rfl ?_
    simp only [hn, if_false]
  · rw [if_pos ht]
  · rw [if_neg (by omega), if_neg (by omega)]
  · rw [if_neg (by omega), if_pos ht]

/-! ## The test access port -/

theorem jtag_loaded (d : Dev) (code pins : Nat) (w : Option Nat) (h : d.boot.testEn = true ∨ d.sec.debugLevel = 2) :
    d.jtag code pins w = { d with test := { d.test with ir := code, pins := pins, wrapper := w } } := by
  refine if_pos ?_
  rcases h with h | h <;> simp [h]

theorem jtag_bypassed (d : Dev) (code pins : Nat) (w : Option Nat) (hen : d.boot.testEn = false) (hlevel : d.sec.debugLevel ≠ 2)
    (h1 : code ≠ 1) (h255 : code ≠ 0xFF) : d.jtag code pins w = { d with test := { d.test with ir := 0xFF, pins := 0, wrapper := none } } := by
  refine if_neg ?_
  simp [hen, hlevel, h1, h255]

/-- What the rows of the table do, and that none of them is always served. -/
theorem exec_tapRow {i : Instr} {c p : Nat} (h : (i, c, p) ∈ tapRows) :
    (∀ s : State, exec i s = .next { s with dev := s.dev.jtag c p none }) ∧ c ≠ 1 ∧ c ≠ 0xFF := by
  simp only [tapRows, List.mem_cons, Prod.mk.injEq, List.not_mem_nil, or_false] at h
  rcases h with ⟨rfl, rfl, rfl⟩ | ⟨rfl, rfl, rfl⟩ | ⟨rfl, rfl, rfl⟩ | ⟨rfl, rfl, rfl⟩ | ⟨rfl, rfl, rfl⟩ | ⟨rfl, rfl, rfl⟩
  all_goals exact ⟨fun _ => rfl, by decide, by decide⟩

theorem testAccess : Says.TestAccess := by
  refine ⟨fun s i c p hrow => ?_, fun s => rfl, fun s c => ⟨fun hc => makes_of_next rfl ((if_pos hc).trans (if_pos (by simp))),
      fun hc => makes_of_next rfl (if_neg (Nat.not_lt.2 hc))⟩,
    fun s k hk => ⟨fun hen => makes_of_next rfl ?_, fun hen hlevel => makes_of_next rfl ?_, fun hen hlevel => makes_of_next rfl ?_⟩,
    fun s b => ⟨fun hgood => makes_of_next rfl (if_pos hgood), fun hgood => makes_of_next rfl (if_neg (by simp [hgood]))⟩, ?_⟩
  · obtain ⟨hexec, h1, h255⟩ := exec_tapRow hrow
    exact ⟨fun h => makes_of_next (hexec s) (jtag_loaded _ _ _ _ h),
      fun hen hlevel => makes_of_next (hexec s) (jtag_bypassed _ _ _ _ hen hlevel h1 h255)⟩
  · exact (jtag_loaded _ _ _ _ (.inl hen)).trans (by rw [if_pos hen])
  · exact (jtag_loaded _ _ _ _ (.inr hlevel)).trans (by rw [if_neg (by simp [hen])])
  · exact jtag_bypassed _ _ _ _ hen hlevel (by omega) (by omega)
  · unfold idCode
    omega

/-- Settles O52: loopbacks and self-tests from their start to their end, and the test access port's instructions. -/
theorem testFeatures : Obligations.TestFeatures := ⟨loopbacksAndSelfTests, testAccess⟩

end Sys2Proof.Machine

/-! What the far-tier engine's work on a skein leaves unchanged (R249 to R253, R262 to R264): anything but the engine's own state, the
near-tier bytes, the directory's transactions, the device's requests, the records it replicates and what counts and reports them. -/

namespace Sys2Proof.Machine

/-- A part of the device that the far-tier engine does not touch. -/
structure BesideFar {β : Type} (g : Dev → β) : Prop where
  free : ∀ (d : Dev) x, g { d with free := x } = g d
  out : ∀ (d : Dev) x, g { d with out := x } = g d
  regs : ∀ (d : Dev) x, g { d with regs := x } = g d
  perf : ∀ (d : Dev) x, g { d with perf := x } = g d
  evt : ∀ (d : Dev) x, g { d with evt := x } = g d
  router : ∀ (d : Dev) x, g { d with router := x } = g d
  fab : ∀ (d : Dev) x, g { d with fab := x } = g d
  coh : ∀ (d : Dev) x, g { d with coh := x } = g d
  far : ∀ (d : Dev) x, g { d with far := x } = g d
  mov : ∀ (d : Dev) x, g { d with mov := x } = g d
  mem : ∀ (d : Dev) x, g { d with mem := x } = g d
  poison : ∀ (d : Dev) x, g { d with poison := x } = g d
  ecc : ∀ (d : Dev) x, g { d with ecc := x } = g d
  sent : ∀ (d : Dev) n u, g { d with mir := { d.mir with nextSeq := n, unacked := u } } = g d

namespace BesideFar

variable {β : Type} {g : Dev → β} (h : BesideFar g)
include h

theorem bump (d : Dev) (off lo : Nat) : g (d.bump off lo) = g d :=
  bump_keeps g (fun d r p => (h.perf { d with regs := r } p).trans (h.regs d r)) d off lo

theorem logSrc (d : Dev) (source origin status : Nat) : g (d.logSrc source origin status) = g d :=
  logSrc_keeps g (fun d f e r p => (h.perf { d with free := f, evt := e, regs := r } p).trans
    ((h.regs { d with free := f, evt := e } r).trans ((h.evt { d with free := f } e).trans (h.free d f)))) d source origin status

theorem logOpen (d : Dev) (lo n origin status : Nat) : g (d.logOpen lo n origin status) = g d := by
  unfold Dev.logOpen
  exact (h.logSrc _ _ _ _).trans (h.free d _)

theorem sendMsg (d : Dev) (m : Msg) : g (d.sendMsg m) = g d := (h.router { d with out := .msg m :: d.out } _).trans (h.out d _)

theorem request (d : Dev) (m : Msg) (purpose index : Nat) : g (d.request m purpose index).2 = g d := by
  rcases request_cases d m purpose index with ⟨f, hr⟩ | ⟨t, f, reqs, q, hr⟩ <;> rw [hr]
  · exact (h.fab { d with free := f } _).trans (h.free d f)
  · exact (h.router { d with free := f, fab := { d.fab with devReqs := reqs }, out := .msg { m with tag := t } :: d.out } q).trans
      ((h.out { d with free := f, fab := { d.fab with devReqs := reqs } } _).trans ((h.fab { d with free := f } _).trans (h.free d f)))

theorem repRecord (d : Dev) (op : Nat) (body : List Byte) (origin otag : Nat) : g (d.repRecord op body origin otag) = g d := by
  unfold Dev.repRecord
  split
  · rfl
  · exact (h.router _ _).trans ((h.sent _ _ _).trans (h.free d _))

theorem repStateEntry (d : Dev) (kind : Nat) (entry : List Byte) (origin otag : Nat) : g (d.repStateEntry kind entry origin otag) = g d :=
  h.repRecord ..

/-! ## The directory -/

theorem snoops (line op : Nat) (nodes : List Nat) (d : Dev) : g (d.snoops line op nodes).2 = g d := by
  induction nodes generalizing d with
  | nil => rfl
  | cons n nodes ih => exact (ih _).trans (h.request ..)

theorem openTxn (d : Dev) (line : Nat) (kind : TxnKind) (nodes : List Nat) (op : Nat) (owner : Option Nat) :
    g (d.openTxn line kind nodes op owner) = g d := (h.coh _ _).trans (h.snoops ..)

theorem openMcTxn (d : Dev) (line : Nat) (kind : TxnKind) (group mask cause : Nat) : g (d.openMcTxn line kind group mask cause) = g d := by
  unfold Dev.openMcTxn
  exact (h.coh _ _).trans (h.request ..)

theorem cacheTouch {d e : Dev} {line : Nat} (htouch : d.cacheTouch line = some e) : g e = g d := by
  obtain ⟨c, n, rfl⟩ := cacheTouch_changes d e line htouch
  exact h.coh d _

theorem openInv (d : Dev) (line : Nat) (kind : TxnKind) (x : DirEntry) (cause : Nat) : g (d.openInv line kind x cause) = g d := by
  unfold Dev.openInv
  split
  · rfl
  · next htouch =>
    split
    · exact (h.openMcTxn ..).trans (h.cacheTouch htouch)
    · exact (h.openTxn ..).trans (h.cacheTouch htouch)

theorem sweep (d : Dev) (line : Nat) : g (d.sweep line) = g d := by
  unfold Dev.sweep
  dsimp only
  repeat' split
  all_goals first
    | rfl
    | exact h.openInv ..
    | exact (h.openTxn ..).trans (h.cacheTouch ‹_›)

/-! ## Skeins -/

theorem nvmeGo (d : Dev) (drive : Nat) : g (d.nvmeGo drive) = g d := by
  unfold Dev.nvmeGo
  split
  · rfl
  · exact (h.out _ _).trans (h.far d _)

theorem nvmeIssue (d : Dev) (drive kind skein slot attempt : Nat) (caller : Option Caller) :
    g (d.nvmeIssue drive kind skein slot attempt caller) = g d := (h.nvmeGo ..).trans (h.far d _)

theorem unpoisonRun (d : Dev) (key n : Nat) : g (d.unpoisonRun key n) = g d := (h.ecc _ _).trans (h.poison d _)

theorem poisonRun (d : Dev) (key n : Nat) : g (d.poisonRun key n) = g d :=
  (h.ecc _ _).trans ((h.poison { d with mem := memZero d.mem key (64 * n) } _).trans (h.mem d _))

theorem far_mov (d : Dev) x y : g { d with far := x, mov := y } = g d := (h.mov { d with far := x } y).trans (h.far d x)

theorem far_mov_mem (d : Dev) x y z : g { d with far := x, mov := y, mem := z } = g d :=
  (h.mem { d with far := x, mov := y } z).trans (h.far_mov d x y)

theorem dropSkein (d : Dev) (sk : Nat) : g (d.dropSkein sk) = g d := (h.unpoisonRun ..).trans (h.far_mov_mem d _ _ _)

theorem demoted (d : Dev) (sk : Nat) : g (d.demoted sk) = g d := by
  unfold Dev.demoted
  rw [h.repStateEntry, h.bump, h.dropSkein]

theorem writeBackStart (d : Dev) (sk state : Nat) : g (d.writeBackStart sk state) = g d :=
  (forEach_keeps g _ (fun _ _ => h.nvmeIssue ..) _ _).trans (h.far d _)

theorem demote (d : Dev) (sk : Nat) : g (d.demote sk) = g d := by
  unfold Dev.demote
  split
  · rfl
  split
  · rfl
  split
  · exact (forEach_keeps g _ (fun _ _ => h.sweep ..) _ _).trans (h.far d _)
  split
  · exact (h.writeBackStart ..).trans (h.far d _)
  · exact h.demoted ..

theorem demoteMany (avoid : Nat → Bool) (n : Nat) (d : Dev) : g (d.demoteMany avoid n) = g d := by
  induction n generalizing d with
  | zero => rfl
  | succ n ih =>
    unfold Dev.demoteMany
    split
    · rfl
    · exact (ih _).trans (h.demote ..)

theorem demoteLow (d : Dev) (avoid : Nat → Bool) : g (d.demoteLow avoid) = g d := by
  unfold Dev.demoteLow
  dsimp only
  split
  · exact h.demoteMany ..
  · rfl

theorem fetchPartner (d : Dev) (line : Nat) : g (d.fetchPartner line) = g d := by
  unfold Dev.fetchPartner
  split
  · rfl
  · exact h.request ..

theorem settleSkein (d : Dev) (sk : Nat) (s : Skein) : g (d.settleSkein sk s) = g d := by
  unfold Dev.settleSkein
  dsimp only
  generalize (if s.promote then 0xFFFF else d.estimate sk) = est
  split
  · exact (h.bump ..).trans (h.far_mov d _ _)
  · exact h.far_mov d _ _

theorem installLost (d : Dev) (sk : Nat) : g (d.installLost sk) = g d := by
  have hlost (s : Skein) : g (((((d.settleSkein sk s).poisonRun (s.slot * 65536) 1024).logOpen 0x0500 256 (status := stPoisoned)).bump 0x380008 0)) = g d := by
    rw [h.bump, h.logOpen, h.poisonRun, h.settleSkein]
  unfold Dev.installLost
  split
  · rfl
  · dsimp only
    split
    · exact (forEach_keeps g _ (fun _ _ => h.fetchPartner ..) _ _).trans (hlost _)
    · exact hlost _

theorem fetchBegin (d : Dev) (sk : Nat) (promote : Bool) : g (d.fetchBegin sk promote) = g d := by
  have htake : g d.takeSlot.2 = g d := h.free d _
  unfold Dev.fetchBegin
  split
  · next e => rw [← htake, e]
  · next slot e hslot =>
    have he : g e = g d := by rw [← htake, hslot]
    dsimp only
    split
    · exact (h.nvmeIssue ..).trans ((h.far _ _).trans ((h.repStateEntry ..).trans he))
    · exact (h.installLost ..).trans ((h.far _ _).trans ((h.repStateEntry ..).trans he))

theorem wantedGo (d : Dev) : g d.wantedGo = g d := by
  refine forEach_keeps g _ (fun w d => ?_) _ _
  dsimp only
  split
  · exact h.far d _
  · split
    · rfl
    · exact (h.fetchBegin ..).trans (h.far d _)

/-- The fetch of a skein, and what it makes room with (R251, R262). -/
theorem startFetch (d : Dev) (sk : Nat) (load promote : Bool) (avoid : Nat → Bool) : g (d.startFetch sk load promote avoid) = g d := by
  have hhint : g (if promote then d.promoteFetch sk else d) = g d := by
    split
    · exact h.far d _
    · rfl
  unfold Dev.startFetch
  dsimp only
  generalize (if promote then d.promoteFetch sk else d) = e at hhint ⊢
  split
  · exact hhint
  have hcount (b : Bool) : g (if b then e.sketchBump sk else e) = g d := by
    cases b
    · exact hhint
    · exact (h.mov e _).trans hhint
  replace hcount := hcount (load && !e.far.wanted.any (·.1 == sk))
  generalize (if (load && !e.far.wanted.any (·.1 == sk)) = true then e.sketchBump sk else e) = f at hcount ⊢
  split
  · exact (h.demoteLow ..).trans ((h.fetchBegin ..).trans hcount)
  refine (h.wantedGo _).trans ?_
  have hwait : g (if (!e.far.wanted.any (·.1 == sk)) = true then { f with far := { f.far with wanted := f.far.wanted ++ [(sk, promote)] } } else f) = g d := by
    split
    · exact (h.far f _).trans hcount
    · exact hcount
  generalize (if (!e.far.wanted.any (·.1 == sk)) = true then
    ({ f with far := { f.far with wanted := f.far.wanted ++ [(sk, promote)] } } : Dev) else f) = w at hwait ⊢
  split
  · exact (h.demoteMany ..).trans hwait
  · exact hwait

end BesideFar

theorem mirApplied_besideFar : BesideFar fun d => d.mir.applied := by
  constructor <;> intros <;> rfl

end Sys2Proof.Machine

/-! Messages of a mirror pair, the records its units apply, and their acknowledgement (R309 to R312, R318). -/

namespace Sys2Proof.Machine

/-! ## Messages of the partner -/

section
variable {d : Dev} {l op : Nat} {m : Msg} {body : Dev → Dev}

theorem mirrorMsg_partner (h : fromPartner d l op m) : d.mirrorMsg l m op body = body (d.taken m) := by
  obtain ⟨hop, hdst, hcls, hlink, hready, hterm⟩ := h
  have hown : m.dst = d.ownNode := hdst
  unfold Dev.mirrorMsg
  rw [if_neg, if_neg (not_not.2 hlink)]
  · dsimp only
    rw [if_neg]
    · rcases hterm with hrole | ⟨hrole, hterm⟩
      · exact if_pos hrole
      · rw [if_neg, if_neg, if_neg]
        · exact Nat.not_lt.2 (Nat.le_of_eq hterm.symm)
        · exact Nat.not_lt.2 (Nat.le_of_eq hterm)
        · change ¬ d.mir.role = 3
          omega
    · have hrole : d.mir.role ≠ 0 := by omega
      by_cases h45 : op = 0x45 <;> simp_all [Dev.taken]
  · by_cases h45 : op = 0x45 <;> simp_all

section
variable (hop : m.opcode = op) (hdst : m.dst = d.ownNode) (hcls : m.cls = 0)
include hop hdst hcls

theorem mirrorMsg_otherLink (hlink : d.glFld l 0 28 2 ≠ 2) : d.mirrorMsg l m op body = d.arrive m fun d => d := by
  simp [Dev.mirrorMsg, hop, hdst, hcls, hlink]

variable (h45 : op ≠ 0x45) (hlink : d.glFld l 0 28 2 = 2) (hready : d.boot.ready = true) (hrole : d.mir.role = 1 ∨ d.mir.role = 2)
include h45 hlink hready hrole

theorem mirrorMsg_terms : d.mirrorMsg l m op body =
    if d.mir.term < mirTerm m then (d.taken m).mirDeposed
    else if mirTerm m < d.mir.term then (d.taken m).mirAck 0 else body (d.taken m) := by
  have h0 : d.mir.role ≠ 0 := by omega
  have h3 : d.mir.role ≠ 3 := by omega
  simp [Dev.mirrorMsg, hop, hdst, hcls, hlink, h45, Dev.taken, hready, h0, h3]

end
end

/-! ## Records in SEQ order -/

theorem applyAhead_none (d : Dev) (force : Bool) (n : Nat) (h : (d.mir.ahead.find? fun x => field x.data 0 8 == d.mir.applied + 1) = none) :
    d.applyAhead force 0 (n + 1) = (0, d) := by
  simp [Dev.applyAhead, h]

theorem applyAhead_waits (d : Dev) (m : Msg) (force : Bool) (n : Nat) (hfind : (d.mir.ahead.find? fun x => field x.data 0 8 == d.mir.applied + 1) = some m)
    (h : d.applyRecord m force = none) : d.applyAhead force 0 (n + 1) = (0, d.skeinStart (slice m.data 24 16)) := by
  simp [Dev.applyAhead, hfind, h]

theorem skeinStart_applied (d : Dev) (b : List Byte) : (d.skeinStart b).mir.applied = d.mir.applied := by
  unfold Dev.skeinStart
  dsimp only
  split
  · exact mirApplied_besideFar.startFetch ..
  · rfl

/-- The record that is next is applied, and none is held after it. -/
theorem applyAhead_applies (d e : Dev) (m : Msg) (x n : Nat) (hahead : d.mir.ahead = [m]) (hseq : field m.data 0 8 = d.mir.applied + 1)
    (h : d.applyRecord m false = some (x, e)) (happlied : e.mir.applied = d.mir.applied) (heahead : e.mir.ahead = [m]) :
    d.applyAhead false 0 (n + 2) = (x, withMir e fun k => { k with applied := d.mir.applied + 1, ahead := [] }) := by
  have hfind : (d.mir.ahead.find? fun x => field x.data 0 8 == d.mir.applied + 1) = some m := by simp [hahead, hseq]
  have hrest : (e.mir.ahead.filter fun y => field y.data 0 8 != e.mir.applied + 1) = [] := by simp [heahead, happlied, hseq]
  have hnext : ({ e with mir := { e.mir with applied := e.mir.applied + 1, ahead := [] } } : Dev) =
      withMir e fun k => { k with applied := d.mir.applied + 1, ahead := [] } := by rw [withMir, happlied]
  rw [Dev.applyAhead]
  simp only [hfind, h, hrest, hnext]
  by_cases hx : x = 0
  · subst hx
    rw [if_neg (by decide), if_neg (by decide)]
    exact applyAhead_none _ _ _ rfl
  · rw [if_neg (by decide), if_pos hx]

section
variable {d : Dev} {m : Msg} {seq : Nat} (hrole : d.mir.role = 2 ∨ (d.mir.role = 3 ∧ d.mir.phase = 5)) (hseq : seq = field m.data 0 8)
include hrole hseq

theorem mirRecord_eq : d.mirRecord m = if seq ≤ d.mir.applied then d.mirAck 0
    else if d.mir.ahead.any fun x => field x.data 0 8 == seq then d
    else (withMir d fun k => { k with ahead := k.ahead ++ [m] }).mirGo := by
  subst hseq
  refine (if_neg ?_).trans rfl
  rcases hrole with h | ⟨h, hphase⟩
  · simp [h]
  · simp [h, hphase]

theorem mirRecord_early (happlied : d.mir.applied + 1 < seq)
    (hahead : (d.mir.ahead.any fun x => field x.data 0 8 == seq || field x.data 0 8 == d.mir.applied + 1) = false) :
    d.mirRecord m = withMir d fun k => { k with ahead := k.ahead ++ [m] } := by
  simp only [List.any_eq_false, Bool.or_eq_true, beq_iff_eq, not_or] at hahead
  have hnew : (d.mir.ahead.any fun x => field x.data 0 8 == seq) = false := by
    simpa using fun x hx => (hahead x hx).1
  have hnone : ((d.mir.ahead ++ [m]).find? fun x => field x.data 0 8 == d.mir.applied + 1) = none := by
    refine List.find?_eq_none.2 fun x hx => ?_
    rcases List.mem_append.1 hx with hx | hx
    · simpa using (hahead x hx).2
    · rw [List.mem_singleton.1 hx, ← hseq]
      simpa using Nat.ne_of_gt happlied
  rw [mirRecord_eq hrole hseq, if_neg (by omega), hnew, if_neg (by decide)]
  unfold Dev.mirGo
  dsimp only
  rw [applyAhead_none _ _ _ hnone, if_pos rfl]

theorem mirRecord_next (happlied : seq = d.mir.applied + 1) (hahead : d.mir.ahead = []) :
    d.mirRecord m = (withMir d fun k => { k with ahead := [m] }).mirGo := by
  rw [mirRecord_eq hrole hseq, if_neg (by omega), hahead, if_neg (by simp)]
  simp only [withMir, hahead, List.nil_append]

theorem mirRecord_waits (happlied : seq = d.mir.applied + 1) (hahead : d.mir.ahead = [])
    (h : (withMir d fun k => { k with ahead := [m] }).applyRecord m false = none) :
    d.mirRecord m = (withMir d fun k => { k with ahead := [m] }).skeinStart (slice m.data 24 16) := by
  rw [mirRecord_next hrole hseq happlied hahead]
  unfold Dev.mirGo
  dsimp only
  rw [applyAhead_waits _ m _ _ (by simp [withMir, ← hseq, happlied]) h]
  exact if_pos (skeinStart_applied _ _)

theorem mirRecord_applies {x : Nat} {e : Dev} (happlied : seq = d.mir.applied + 1) (hahead : d.mir.ahead = [])
    (h : (withMir d fun k => { k with ahead := [m] }).applyRecord m false = some (x, e)) (heapplied : e.mir.applied = d.mir.applied)
    (heahead : e.mir.ahead = [m]) :
    d.mirRecord m = (withMir e fun k => { k with applied := seq, ahead := [] }).mirAck x := by
  rw [mirRecord_next hrole hseq happlied hahead]
  unfold Dev.mirGo
  dsimp only
  rw [show ((withMir d fun k => { k with ahead := [m] }).mir.ahead.length + 1) = 0 + 2 from rfl,
    applyAhead_applies _ e m x 0 rfl (by rw [← hseq, happlied]; rfl) h heapplied heahead, happlied]
  exact if_neg (Nat.succ_ne_self _)

end

theorem mirRecord_notStandby (d : Dev) (m : Msg) (h2 : d.mir.role ≠ 2) (h3 : d.mir.role ≠ 3 ∨ d.mir.phase ≠ 5) : d.mirRecord m = d := by
  refine if_pos ?_
  rcases h3 with h | h <;> simp [h2, h]

/-- The four records' instructions are one: what their message makes of the unit. -/
theorem exec_record {l op : Nat} {m : Msg} {i : Instr}
    (h : (op, i) ∈ [(0x40, Instr.repWrite l m), (0x41, Instr.repAtomic l m), (0x42, Instr.repAdmin l m), (0x43, Instr.repState l m)]) :
    (∀ s : State, exec i s = .next { s with dev := s.dev.mirrorMsg l m op fun d => d.mirRecord m }) ∧ op ≠ 0x45 := by
  simp only [List.mem_cons, Prod.mk.injEq, List.not_mem_nil, or_false] at h
  rcases h with ⟨rfl, rfl⟩ | ⟨rfl, rfl⟩ | ⟨rfl, rfl⟩ | ⟨rfl, rfl⟩
  all_goals exact ⟨fun _ => rfl, by decide⟩

/-! ## What a record does -/

theorem applyRecord_write (d : Dev) (m : Msg) (hop : m.opcode = 0x40) (hpool : inWindow (field m.data 16 8) = false) :
    d.applyRecord m false = some (0, (fun e : Dev => e.itemOf m e.keptBytes none)
      ((d.putRun (field m.data 16 8) (m.data.drop 24) ((m.data.drop 24).length / 64 + 2)).completionSeen (field m.data 16 8) (m.data.drop 24))) := by
  simp [Dev.applyRecord, hop, Dev.applyWrite, hpool]

theorem applyRecord_atomic (d : Dev) (m : Msg) (hop : m.opcode = 0x41) : ∃ home, d.applyRecord m false = some (0,
    ((d.putRun (field m.data 16 8) (slice m.data 24 64) 2).itemOf m (d.putRun (field m.data 16 8) (slice m.data 24 64) 2).keptBytes none).dedupTake
      home (field m.data 12 2) (field m.data 14 2) 0 (slice m.data 88 24)) := by
  exact ⟨_, (if_neg (by simp [hop])).trans (if_pos hop)⟩

/-- Bytes inside one line of a resident extent are one store. -/
theorem putRun_line (d : Dev) (a : Nat) (bs : List Byte) (hbs : 0 < bs.length) (hline : a % 64 + bs.length ≤ 64)
    (hkind : (d.emtOf (a / 2 ^ 25)).kind = 1) : d.putRun a bs (bs.length / 64 + 2) = (d.storeLine a bs).2 := by
  have hwhole : min bs.length (64 - a % 64) = bs.length := by omega
  have hne : bs.isEmpty = false := by simp [List.isEmpty_eq_false_iff, ← List.length_pos_iff, hbs]
  have hput : d.putLine a bs = (d.storeLine a bs).2 := by
    unfold Dev.putLine
    simp only [hkind]
    rfl
  rw [Dev.putRun, hne]
  simp only [Bool.false_eq_true, if_false, hwhole, List.take_length, List.drop_length, hput]
  rw [Dev.putRun]
  rfl

theorem slice_at_zero (a b : List Byte) : slice (a ++ b) 0 a.length = a := by
  simpa using slice_middle [] a b

theorem slice_append_right (a b : List Byte) : slice (a ++ b) a.length b.length = b := by
  simpa using slice_middle a b []

/-- REP_ACK carries the highest SEQ applied and the unit's TERM (R310). -/
theorem mirAck_message (d : Dev) (x : Nat) : ∃ m : Msg, d.mirAck x = d.mirOut m ∧ m.cls = 2 ∧ m.opcode = 0x45 ∧ m.dst = d.partner ∧
    field m.data 0 8 = d.mir.applied % 2 ^ 64 ∧ field m.data 8 4 = d.mir.term % 2 ^ 32 := by
  refine ⟨_, rfl, rfl, rfl, rfl, ?_, ?_⟩
  · have h := slice_at_zero (natBytes 8 d.mir.applied) (natBytes 4 d.mir.term)
    rw [natBytes_length] at h
    exact (congrArg leNat h).trans (leNat_natBytes 8 _)
  · have h := slice_append_right (natBytes 8 d.mir.applied) (natBytes 4 d.mir.term)
    rw [natBytes_length, natBytes_length] at h
    exact (congrArg leNat h).trans (leNat_natBytes 4 _)

theorem replication : Says.Replication := by
  refine ⟨fun s l op m i seq hrow => ?_, fun d e m a bs ha => ⟨fun hop hbs hpool he => ?_, fun hop hbs => ⟨_, rfl, ?_⟩⟩, putRun_line,
    mirAck_message⟩
  · obtain ⟨hexec, h45⟩ := exec_record hrow
    refine ⟨fun hpartner hrole hseq => ?_, fun hpartner h2 h3 => makes_of_next (hexec s) ?_, fun hop hdst hcls hlink hready hrole =>
      ⟨fun hlow => makes_of_next (hexec s) ?_, fun hhigh => makes_of_next (hexec s) ?_⟩,
      fun hop hdst hcls hlink => makes_of_next (hexec s) (mirrorMsg_otherLink hop hdst hcls hlink)⟩
    · have hmakes {e : Dev} (h : (s.dev.taken m).mirRecord m = e) : Makes i s e :=
        makes_of_next (hexec s) ((mirrorMsg_partner hpartner).trans h)
      have hrole' : (s.dev.taken m).mir.role = 2 ∨ ((s.dev.taken m).mir.role = 3 ∧ (s.dev.taken m).mir.phase = 5) := hrole
      refine ⟨fun hdone => hmakes ?_, fun hahead hheld => hmakes ?_, fun hahead hnone => hmakes (mirRecord_early hrole' hseq hahead hnone),
        fun hnext hempty hwait => hmakes (mirRecord_waits hrole' hseq hnext hempty hwait),
        fun x e hnext hempty happly happlied heahead => hmakes (mirRecord_applies hrole' hseq hnext hempty happly happlied heahead)⟩
      · rw [mirRecord_eq hrole' hseq]
        exact if_pos hdone
      · rw [mirRecord_eq hrole' hseq]
        exact (if_neg (Nat.not_le.2 hahead)).trans (if_pos hheld)
    · exact (mirrorMsg_partner hpartner).trans (mirRecord_notStandby _ _ h2 h3)
    · rw [mirrorMsg_terms hop hdst hcls h45 hlink hready hrole, if_neg (by omega), if_pos hlow]
    · rw [mirrorMsg_terms hop hdst hcls h45 hlink hready hrole, if_pos hhigh]
  · subst ha hbs he
    exact applyRecord_write d m hop hpool
  · subst ha hbs
    exact applyRecord_atomic d m hop

/-! ## Acknowledgement -/

theorem itemOf_out (d : Dev) (m : Msg) (kept : Nat → List Byte → List Byte) (answer : Option Msg) : (d.itemOf m kept answer).out = d.out := by
  unfold Dev.itemOf
  dsimp only
  repeat' split
  all_goals rfl

/-- A record's acknowledgement: what it held is sent as the last thing before its completion records (R310, R311). -/
theorem repAcked_good (d : Dev) (r : RepRec) : d.repAcked r 0 = forEach r.completes (fun c d => d.recordNow c.ring c.idx c.st c.det c.result c.progress)
    (r.release.elim (d.itemOf r.m (fun _ b => b) r.release) (d.itemOf r.m (fun _ b => b) r.release).sendMsg) := by
  unfold Dev.repAcked
  cases r.release <;> rfl

theorem repAcked_short (d : Dev) (r : RepRec) (det : Nat) (hdet : det ≠ 0) : ∃ e : Dev,
    d.repAcked r det = forEach r.completes (fun c d => d.recordNow c.ring c.idx stDenied det 0 0)
      (r.release.elim e fun a => e.sendMsg (refusedAnswer a det)) := by
  unfold Dev.repAcked
  dsimp only
  simp only [if_neg hdet]
  cases r.release <;> exact ⟨_, rfl⟩

theorem refusedAnswer_detail (a : Msg) (det : Nat) : msgDetail (refusedAnswer a det) = det % 65536 := by
  simp only [msgDetail, refusedAnswer, bits]
  omega

theorem respond_held (d : Dev) (n : Nat) (r : Msg) (x : RepRec) (hn : n < d.mir.unacked.length) (hx : d.mir.unacked.getLast? = some x) :
    d.respond n r = withMir d fun k => { k with unacked := d.mir.unacked.dropLast ++ [{ x with release := some r }] } := by
  simp [Dev.respond, Nat.not_le.2 hn, hx, withMir]

theorem acknowledgement : Says.Acknowledgement := by
  refine ⟨fun s l seq m d e hpartner hseq hd he => ⟨fun hkeep => makes_of_next rfl ?_, fun hdue hnone => makes_of_next rfl ?_⟩,
    fun d r det => ⟨fun a ha hdet => ?_, fun a ha hdet => ?_, fun hnone hdet => ?_, fun hnone hdet => ?_,
      fun a => ⟨rfl, refusedAnswer_detail a det⟩⟩,
    fun d n r x hn hx => ?_, fun d n r hn => if_pos hn⟩
  · refine (mirrorMsg_partner hpartner).trans ?_
    subst hseq hd he
    refine if_neg ?_
    rcases hkeep with h | h
    · exact fun hboth => absurd (Bool.and_eq_true_iff.1 hboth).1 (by rw [Bool.not_eq_true]; exact h)
    · exact fun hboth => h (List.isEmpty_iff.1 (Bool.and_eq_true_iff.1 hboth).2)
  · refine (mirrorMsg_partner hpartner).trans ?_
    subst hseq hd he
    exact if_pos (Bool.and_eq_true_iff.2 ⟨hdue, List.isEmpty_iff.2 hnone⟩)
  · exact ⟨_, by rw [repAcked_good, ha]; rfl⟩
  · obtain ⟨e, he⟩ := repAcked_short d r det hdet
    exact ⟨e, by rw [he, ha]; rfl⟩
  · exact ⟨d.itemOf r.m (fun _ b => b) none, itemOf_out .., by rw [repAcked_good, hnone]; rfl⟩
  · obtain ⟨e, he⟩ := repAcked_short d r det hdet
    exact ⟨e, by rw [he, hnone]; rfl⟩
  · rw [respond_held d n r x hn hx]
    exact ⟨rfl, rfl⟩

/-- Settles O36: records are applied in order, and release what waited for them. -/
theorem replicationAndAcknowledgement : Obligations.ReplicationAndAcknowledgement := ⟨replication, acknowledgement⟩

end Sys2Proof.Machine

/-! Digests, FETCH and TIME of a mirror pair (R312, R314 to R316, R321). -/

namespace Sys2Proof.Machine

/-! ## Digests -/

@[simp] theorem mir_bump (d : Dev) (off lo : Nat) : (d.bump off lo).mir = d.mir := bump_keeps Dev.mir (fun _ _ _ => rfl) d off lo

theorem holdOver_leaves (d : Dev) (hrole : d.mir.role = 1) (hphase : d.mir.phase = 1) (hlow : 2 ≤ d.mir.cause) (hhigh : d.mir.cause ≤ 4)
    (hheld : d.mir.heldEpochs = []) (hunacked : d.mir.unacked = []) (hcarrying : d.mir.carrying ≠ []) :
    d.holdOver = withMir d fun x => { x with phase := 0, cause := 0, missed := 0 } := by
  simp [Dev.holdOver, hrole, hphase, hlow, hhigh, hheld, hunacked, hcarrying, withMir]

theorem holdOver_stays (d : Dev) (h : d.mir.role ≠ 1 ∨ d.mir.phase ≠ 1 ∨ d.mir.heldEpochs ≠ [] ∨ d.mir.unacked ≠ [] ∨ d.mir.carrying = []) :
    d.holdOver = d := by
  refine if_neg fun hall => ?_
  simp only [Bool.and_eq_true, decide_eq_true_eq, List.isEmpty_iff, Bool.not_eq_true', List.isEmpty_eq_false_iff] at hall
  obtain ⟨⟨⟨⟨⟨⟨hrole, hphase⟩, -⟩, -⟩, hheld⟩, hunacked⟩, hcarrying⟩ := hall
  rcases h with h | h | h | h | h
  · exact h hrole
  · exact h hphase
  · exact h hheld
  · exact h hunacked
  · exact hcarrying h

theorem mirSuspect_suspects (d : Dev) (c : Nat) (hrole : d.mir.role = 1 ∨ d.mir.role = 2) (hphase : d.mir.phase = 0) :
    d.mirSuspect c = ((withMir d fun x => { x with phase := d.mir.role, cause := c }).logSrc (0x0700 + c)).msixBoth := by
  rcases hrole with h | h <;> simp [Dev.mirSuspect, h, hphase, withMir]

theorem digestsDue_solo (d : Dev) (h : d.mir.role = 0) : d.digestsDue = d := by simp [Dev.digestsDue, h]

section
variable {s : State} {l k : Nat} {m : Msg} {d e f : Dev} (hpartner : fromPartner s.dev l 0x44 m) (hk : k = field m.data 0 8)
  (hdigesting : s.dev.digesting = true) (hdue : s.dev.mir.missedNext ≤ k)
  (hd : d = withMir (s.dev.taken m) (fun x => { x with
    peerDigests := (tput x.peerDigests k (field m.data 8 8, field m.data 16 8)).filter fun e => k < e.1 + 8 }))
  (he : e = if s.dev.mir.role = 2 then d.sendDigest k else d)
  (hf : f = withMir e fun x => { x with items := x.items.filter fun y => k % 2 ^ 32 < y.1 || y.1 + 8 < k % 2 ^ 32 })
include hpartner hk hdigesting hdue hd he hf

/-- A digest that is due is compared with this unit's own. -/
theorem makes_digest {x : Dev} (h : (if !(s.dev.digestOf k == (field m.data 8 8, field m.data 16 8)) then (f.bump 0x680018 16).mirSuspect 1
    else
      let g := withMir f fun x => { x with missed := 0, heldEpochs := ndel x.heldEpochs k }
      if g.mir.role = 2 then if g.mir.phase = 2 then withMir g fun x => { x with phase := 0, cause := 0 } else g else g.holdOver) = x) :
    Makes (.digest l m) s x := by
  refine makes_of_next rfl ((mirrorMsg_partner hpartner).trans ((if_neg ?_).trans ?_))
  · rw [← hk]
    have hdigesting' : (s.dev.taken m).digesting = true := hdigesting
    have hdue' : (s.dev.taken m).mir.missedNext ≤ k := hdue
    simp [hdigesting', Nat.not_lt.2 hdue']
  · subst hk hd he hf
    exact h

end

theorem digest_role {s : State} {k : Nat} {m : Msg} {d e f : Dev}
    (hd : d = withMir (s.dev.taken m) (fun x => { x with
      peerDigests := (tput x.peerDigests k (field m.data 8 8, field m.data 16 8)).filter fun e => k < e.1 + 8 }))
    (he : e = if s.dev.mir.role = 2 then d.sendDigest k else d)
    (hf : f = withMir e fun x => { x with items := x.items.filter fun y => k % 2 ^ 32 < y.1 || y.1 + 8 < k % 2 ^ 32 }) :
    f.mir.role = s.dev.mir.role ∧ f.mir.phase = s.dev.mir.phase := by
  subst hf he hd
  split <;> exact ⟨rfl, rfl⟩

theorem digests : Says.Digests := by
  refine ⟨fun s l k m d e f hpartner hk => ⟨fun hidle => ?_, fun hdigesting hdue hd he hf => ?_⟩,
    fun d => ⟨holdOver_leaves d, holdOver_stays d⟩, fun s k d hdigesting hdue hmissing hd => ?_, fun s hsolo => makes_of_next rfl ?_,
    fun s d hd => ⟨fun hmirrors hlate => makes_of_next rfl ?_, fun hintime => makes_of_next rfl ?_⟩,
    fun d c hrole hphase => ⟨_, mirSuspect_suspects d c hrole hphase, rfl⟩⟩
  · refine makes_of_next rfl ((mirrorMsg_partner hpartner).trans (if_pos ?_))
    rw [← hk]
    rcases hidle with h | h
    · have h' : (s.dev.taken m).digesting = false := h
      simp [h']
    · have h' : k < (s.dev.taken m).mir.missedNext := h
      simp [h']
  · obtain ⟨hrole, hphase⟩ := digest_role hd he hf
    refine ⟨fun hdiffers => makes_digest hpartner hk hdigesting hdue hd he hf (if_pos (by simpa using hdiffers)), fun g hsame hg => ?_⟩
    have hmakes {x : Dev} (h : (if g.mir.role = 2 then if g.mir.phase = 2 then withMir g fun x => { x with phase := 0, cause := 0 } else g
        else g.holdOver) = x) : Makes (.digest l m) s x := by
      subst hg
      exact makes_digest hpartner hk hdigesting hdue hd he hf ((if_neg (by simp [hsame])).trans h)
    have hgrole : g.mir.role = s.dev.mir.role := by subst hg; exact hrole
    have hgphase : g.mir.phase = s.dev.mir.phase := by subst hg; exact hphase
    refine ⟨fun hactive => hmakes (if_neg (by omega)), fun hstandby hsuspect => hmakes ((if_pos (by omega)).trans (if_pos (by omega))),
      fun hstandby hsuspect => hmakes ((if_pos (by omega)).trans (if_neg (by omega)))⟩
  · have hmakes {x : Dev} (h : (if d.mir.missed = 3 then d.mirSuspect 2 else d) = x) : Makes (.digestMissed k) s x := by
      subst hd
      exact makes_of_next rfl ((if_neg (by simp [hdigesting, Nat.not_lt.2 hdue, hmissing])).trans h)
    have hmissed : d.mir.missed = s.dev.mir.missed + 1 := by
      subst hd
      simp [withMir]
    exact ⟨fun h => hmakes (if_pos (by omega)), fun h => hmakes (if_neg (by omega))⟩
  · have hdue := digestsDue_solo (s.dev.till ((s.dev.epochNow + 1) * 204800)) hsolo
    simp only [hdue]
    exact if_neg (by simp [Dev.mirrors, hsolo])
  · subst hd
    exact if_pos (by simpa [hmirrors] using hlate)
  · subst hd
    refine if_neg ?_
    rcases hintime with h | h
    · simp [h]
    · simp only [Bool.and_eq_true, List.any_eq_true, decide_eq_true_eq, not_and, not_exists]
      exact fun _ r hr => Nat.not_le.2 (h r hr)

/-! ## FETCH and TIME -/

theorem fetchAnswer_line (d e : Dev) (m : Msg) (a x : Nat) (b : List Byte) (hkey : d.keyOf a = some x)
    (hread : d.readLine (a / 2 ^ 25) x a = (some b, e)) : d.fetchAnswer m a 1 = e.mirOut (e.datTo m stDone 0 0 b) := by
  unfold Dev.fetchAnswer
  simp only [List.range_one, List.foldl_cons, List.foldl_nil, Nat.mul_zero, Nat.add_zero, hkey, hread]
  rfl

theorem fetchAnswer_poisoned (d e : Dev) (m : Msg) (a x : Nat) (hkey : d.keyOf a = some x)
    (hread : d.readLine (a / 2 ^ 25) x a = (none, e)) : d.fetchAnswer m a 1 = e.mirOut (e.rspTo m stPoisoned 0 0) := by
  unfold Dev.fetchAnswer
  simp only [List.range_one, List.foldl_cons, List.foldl_nil, Nat.mul_zero, Nat.add_zero, hkey, hread]

theorem fetchAndTime : Says.FetchAndTime := by
  refine ⟨fun s l a m => ?_, fun d e m a x hkey => ⟨fun b hread => fetchAnswer_line d e m a x b hkey hread, fetchAnswer_poisoned d e m a x hkey⟩,
    fun s l m hpartner hecho => ⟨_, rfl, makes_of_next rfl ((mirrorMsg_partner hpartner).trans (if_pos hecho))⟩,
    fun s l m there e hpartner hecho hthere he => ?_⟩
  · intro d hpartner ha
    refine ⟨fun x hkey => ⟨fun hline => ?_, fun hskein => ?_⟩, fun hnone hkind => ?_, fun e hnone hkind he => ?_⟩
    · refine makes_of_next rfl ((mirrorMsg_partner hpartner).trans ?_)
      simp only [← ha, show (s.dev.taken m).keyOf a = some x from hkey]
      exact if_pos hline
    · refine makes_of_next rfl ((mirrorMsg_partner hpartner).trans ?_)
      simp only [← ha, show (s.dev.taken m).keyOf a = some x from hkey]
      exact if_neg hskein
    · refine makes_of_next rfl ((mirrorMsg_partner hpartner).trans ?_)
      simp only [← ha, show (s.dev.taken m).keyOf a = none from hnone]
      exact if_pos hkind
    · subst he
      refine makes_of_next rfl ((mirrorMsg_partner hpartner).trans ?_)
      simp only [← ha, show (s.dev.taken m).keyOf a = none from hnone]
      exact if_neg (not_not.2 hkind)
  · have hslew : e = (let d := withMir (s.dev.taken m) fun k => { k with lastStamp := field m.data 0 8 }
        if d.mir.role = 2 then { d with mir := { d.mir with alignNs := ((there : Int) - (d.now : Int)) * 5 / 4 } } else d) := by
      subst he
      by_cases hrole : s.dev.mir.role = 2
      · rw [if_pos (by exact hrole)]
        simp only [withMir, Dev.taken, hrole, if_true]
      · rw [if_neg (by exact hrole)]
        simp only [withMir, Dev.taken, hrole, if_false]
    have hstep : e.mir.stepDue = s.dev.mir.stepDue := by subst he; rfl
    have hmakes {x : Dev} (h : (if e.mir.stepDue then withMir (e.till there) fun k => { k with stepDue := false, alignNs := 0 } else e) = x) :
        Makes (.time l m) s x := by
      refine makes_of_next rfl ((mirrorMsg_partner hpartner).trans ((if_neg hecho).trans ?_))
      rw [hslew, hthere] at h
      exact h
    exact ⟨fun hdue => hmakes (if_pos (hstep.trans hdue)), fun hdone => hmakes (if_neg (by rw [hstep, hdone]; decide))⟩

/-- Settles O37: digests are compared, lines and times answered. -/
theorem digestsAndTime : Obligations.DigestsAndTime := ⟨digests, fetchAndTime⟩

end Sys2Proof.Machine

/-! Reads through the line code, the scrubber, and the ECC test modes (R121, R348 to R350, R354, R356, R359, R360, R457). -/

namespace Sys2Proof.Machine

/-! ## Reads and scrubbing -/

section
variable {s : State} {k l : Nat} {err : List Byte} (hactive : (s.dev.stack k).state = 2)
include hactive

theorem makes_stackReadComplete_line {e x : Nat} (hline : s.dev.lineAt k l = some (e, x)) :
    Makes (.stackReadComplete k l err) s (((s.dev.upset e x err).readLine e x (s.dev.addrAt e x)).2) := by
  refine makes_of_next rfl ((if_neg (not_not.2 hactive)).trans ?_)
  simp only [hline]

theorem makes_stackReadComplete_table (hline : s.dev.lineAt k l = none) :
    Makes (.stackReadComplete k l err) s (s.dev.tableRead k l err (Dev.readFixed k)) := by
  refine makes_of_next rfl ((if_neg (not_not.2 hactive)).trans ?_)
  simp only [hline]

theorem makes_scrubRead {a : Nat} {d e : Dev} (hon : s.dev.fld 0x900000 0 1 ≠ 0) (ha : a = tgetD s.dev.ecc.pos k 0) (hd : d = s.dev.scrubLine k a err)
    (h : (if a + 1 < d.scrubLines then { d with ecc := { d.ecc with pos := tput d.ecc.pos k (a + 1) } }
      else ({ d with ecc := { d.ecc with pos := tput d.ecc.pos k 0, rowCorr := d.ecc.rowCorr.filter fun e => e.1 / 2 ^ 32 != k } } : Dev).bump
        (0x900044 + 8 * k) 16) = e) : Makes (.scrubRead k err) s e := by
  subst ha hd
  exact makes_of_next rfl ((if_neg (by simp [hactive, hon])).trans h)

end

section
variable {d : Dev} {k a e x : Nat} {w : List Byte} (hw : tget d.ecc.odd (x / 64) = some w)
include hw

theorem scrubPool_uncorrectable (hdec : decodeLine a w = none) : d.scrubPool k a e x = d.uncorrectable e x (d.addrAt e x) := by
  simp only [Dev.scrubPool, hw, hdec]

/-- What the scrubber makes of a stored codeword that decodes, by its metadata symbol (R356, R357). -/
theorem scrubPool_decoded {w' : List Byte} {changed : Bool} (hdec : decodeLine a w = some (w', changed)) : d.scrubPool k a e x =
    if (w'.getD 64 0).toNat = 128 then d
    else if (w'.getD 64 0).toNat ≠ 0 then d.uncorrectable e x (d.addrAt e x)
    else if changed then Dev.scrubFixed k a { d with
      ecc := { d.ecc with odd := tdel d.ecc.odd (x / 64), writeBacks := tdel d.ecc.writeBacks (x / 64) } }
    else d := by
  simp only [Dev.scrubPool, hw, hdec]

end

theorem readsAndScrubbing : Says.ReadsAndScrubbing := by
  refine ⟨fun s k l err hactive => ⟨fun e x hline => makes_stackReadComplete_line hactive hline, makes_stackReadComplete_table hactive⟩,
    fun s k a err d hactive hon ha hd => ⟨fun hmore => makes_scrubRead hactive hon ha hd (if_pos hmore),
      fun hlast => makes_scrubRead hactive hon ha hd (if_neg (Nat.not_lt.2 hlast))⟩,
    fun d k a err => ⟨fun e x hline => ?_, fun hline => ?_⟩,
    fun d k a e x => ⟨fun hnone => ?_, fun w hw => ⟨scrubPool_uncorrectable hw, fun w' changed hdec =>
      ⟨fun hpoison => ?_, fun hgood hsame => ?_, fun hgood hchanged => ?_, fun h0 h128 => ?_⟩⟩⟩,
    setRead_uncorrectable, fun d e x err => ⟨rfl, fun herr => ?_⟩⟩
  · simp only [Dev.scrubLine, hline]
  · simp only [Dev.scrubLine, hline]
  · simp only [Dev.scrubPool, hnone]
  · rw [scrubPool_decoded hw hdec, hpoison]
    rfl
  · rw [scrubPool_decoded hw hdec, hgood, hsame]
    rfl
  · rw [scrubPool_decoded hw hdec, hgood, hchanged]
    rfl
  · rw [scrubPool_decoded hw hdec, if_neg, if_pos]
    · exact fun h => h0 (BitVec.eq_of_toNat_eq h)
    · exact fun h => h128 (BitVec.eq_of_toNat_eq h)
  · exact if_neg (by simpa using herr)

/-! ## Test modes -/

theorem eccBarred_iff (d : Dev) : d.eccBarred = true ↔ (2 ≤ d.sec.state ∧ d.sec.state ≤ 5) ∨ d.mir.role ≠ 0 := by
  simp [Dev.eccBarred]

theorem clampN_self (lo hi v : Nat) (hlo : lo ≤ v) (hhi : v ≤ hi) : clampN lo hi v = v := by
  simp [clampN, Nat.not_lt.2 hlo, Nat.not_lt.2 hhi]

/-- REMAIN of a write is kept, but for 0. -/
theorem remain_clamped (v : Nat) (h : bits v 8 8 ≠ 0) : clampN 1 255 (bits v 8 8) = bits v 8 8 := by
  have hlt : bits v 8 8 < 256 := bits_lt v 8 8
  exact clampN_self _ _ _ (by omega) (by omega)

theorem eccDisarm_clears (d : Dev) (o : Nat) (hlo : 0x900100 ≤ o) (hhi : o < 0x900148) : tget d.eccDisarm.regs o = none := by
  cases h : tget d.eccDisarm.regs o with
  | none => rfl
  | some v =>
    have hmem := (List.mem_filter.1 (mem_of_tget _ _ _ h)).2
    simp only [Bool.or_eq_true, decide_eq_true_eq] at hmem
    omega

theorem putCodeword_odd (d : Dev) (e x : Nat) (w : List Byte) : tget (d.putCodeword e x w).ecc.odd (x / 64 * 64 / 64) = some w := by
  unfold Dev.putCodeword
  dsimp only
  repeat' split
  all_goals exact tget_tput_same ..

theorem testWrite_codeword (d : Dev) (e x : Nat) (data : List Byte) : (d.testWrite e x data).codeword e x =
    if d.fld 0x900080 0 2 = 1 then data ++ (d.codeword e x).drop 64
    else if d.fld 0x900080 0 2 = 2 then (d.codeword e x).take 64 ++ data.take 8
    else xorBytes (encodeLine (d.codeKey e (x / 64 * 64) % 2 ^ 32) data 0) d.flipMask := by
  unfold Dev.testWrite
  dsimp only
  rw [Dev.codeword]
  simp only [Dev.setReg_ecc, putCodeword_odd]

theorem testWrite_control (d : Dev) (e x : Nat) (data : List Byte) : (d.testWrite e x data).reg 0x900080 =
    if d.fld 0x900080 8 8 ≤ 1 then setBits (setBits (d.reg 0x900080) 8 8 (d.fld 0x900080 8 8 - 1)) 0 2 0
    else setBits (d.reg 0x900080) 8 8 (d.fld 0x900080 8 8 - 1) := by
  unfold Dev.testWrite
  dsimp only
  rw [Dev.reg_setReg_same]

theorem testModes : Says.TestModes := by
  refine ⟨fun s who v hwho => makes_of_next rfl (leasedWrite_administers _ _ _ _ hwho),
    fun d v => ⟨fun hfree hremain => ?_, fun hfree hremain => ?_, fun hbarred hremain hmode => ?_⟩, eccBarred_iff,
    fun d o hlo hhi _ => eccDisarm_clears d o hlo hhi,
    fun d e x data hx => ⟨fun hmode => ?_, fun hmode => ?_, fun hmode => ?_, fun hmore => ⟨?_, ?_⟩, fun hlast => ?_⟩⟩
  · simp [Dev.eccTestWrite, hfree, remain_clamped v hremain]
  · simp [Dev.eccTestWrite, hfree, hremain, clampN]
  · simp [Dev.eccTestWrite, hbarred, remain_clamped v hremain, hmode.symm]
  · rw [testWrite_codeword, if_pos hmode]
  · rw [testWrite_codeword, if_neg (by omega), if_pos hmode]
  · rw [testWrite_codeword, if_neg (by omega), if_neg (by omega), show x / 64 * 64 = x by omega]
  · have hlt : d.fld 0x900080 8 8 < 256 := bits_lt _ 8 8
    rw [Dev.fld, testWrite_control, if_neg (by omega), bits_setBits_same]
    omega
  · rw [Dev.fld, testWrite_control, if_neg (by omega), bits_setBits_apart _ _ _ _ _ _ (by decide)]
    rfl
  · rw [Dev.fld, testWrite_control, if_pos (by omega), bits_setBits_same]
    rfl

/-- Settles O40: lines are read, scrubbed and written under the test modes. -/
theorem scrubbingAndTestModes : Obligations.ScrubbingAndTestModes := ⟨readsAndScrubbing, testModes⟩

end Sys2Proof.Machine

/-! The event journal, its readers and the counters (R376, R377, R416 to R422, R430, R431, R435). -/

namespace Sys2Proof.Machine

/-! ## The journal -/

/-- An entry is as long as its place. -/
theorem bytes_length (x : Event) (i : Nat) : (x.bytes i).length = 32 := by simp [Event.bytes]

section
variable (x : Event)

theorem insertEvent_length (l : List Event) : (insertEvent x l).length = l.length + 1 := by
  induction l with
  | nil => rfl
  | cons y l ih =>
    unfold insertEvent
    split
    · simp [ih]
    · rfl

theorem mem_insertEvent (y : Event) (l : List Event) : y ∈ insertEvent x l ↔ y = x ∨ y ∈ l := by
  induction l with
  | nil => simp [insertEvent]
  | cons z l ih =>
    unfold insertEvent
    split
    · simp only [List.mem_cons, ih]
      tauto
    · simp

/-- Entries stay in the order of their times. -/
theorem insertEvent_ordered (l : List Event) (hl : l.Pairwise fun a b => a.time ≤ b.time) :
    (insertEvent x l).Pairwise fun a b => a.time ≤ b.time := by
  induction l with
  | nil => simp [insertEvent]
  | cons y l ih =>
    obtain ⟨hy, hl'⟩ := List.pairwise_cons.1 hl
    unfold insertEvent
    split
    · next hbefore =>
      refine List.pairwise_cons.2 ⟨fun z hz => ?_, ih hl'⟩
      rcases (mem_insertEvent x z l).1 hz with rfl | hz
      · simp only [Bool.or_eq_true, Bool.and_eq_true, decide_eq_true_eq, beq_iff_eq] at hbefore
        omega
      · exact hy z hz
    · next hafter =>
      simp only [Bool.or_eq_true, Bool.and_eq_true, decide_eq_true_eq, beq_iff_eq] at hafter
      refine List.pairwise_cons.2 ⟨fun z hz => ?_, hl⟩
      rcases List.mem_cons.1 hz with rfl | hz
      · omega
      · have := hy z hz
        omega

end

theorem event_unserved_full (d : Dev) (x : Event) (hserving : d.stacksServing = false) (hfull : 256 ≤ d.evt.buffer.length) :
    (d.event x).evt.lost = true := by
  simp [Dev.event, hserving, Nat.not_lt.2 hfull]

/-- The device with the first entry written into the journal, before its readers hear of it. -/
def Dev.entryWritten (d : Dev) (y : Event) (rest : List Event) : Dev :=
  ({ d with evt := { d.evt with
    held := rest, buffer := [], lost := false, head := d.evt.head + 1
    journal := tput (if 65536 ≤ d.evt.head then tdel d.evt.journal (d.evt.head - 65536) else d.evt.journal) d.evt.head y } } : Dev).till
      (y.time + usTicks 2)

theorem journalWrite_eq (d : Dev) (x y : Event) (rest : List Event)
    (hheld : d.evt.buffer.foldl (fun h x => insertEvent x h) d.evt.held = x :: rest)
    (hy : y = if d.evt.lost then { x with flags := Nat.lor x.flags 1 } else x) : d.journalWrite =
      if y.source / 256 < 10 then ((d.entryWritten y rest).deliverEvent d.evt.head y).raiseInput (inputOf y.source)
      else (d.entryWritten y rest).deliverEvent d.evt.head y := by
  unfold Dev.journalWrite
  simp only [hheld, ← hy]
  rfl

/-- The journal keeps its last 65,536 entries. -/
theorem entryWritten_keeps (d : Dev) (y : Event) (rest : List Event) (hrise : keysRise d.evt.journal = true) (j : Nat) (hj : j ≠ d.evt.head)
    (hlast : d.evt.head < j + 65536) : tget (d.entryWritten y rest).evt.journal j = tget d.evt.journal j := by
  refine (tget_tput_other _ _ _ _ hj).trans ?_
  split
  · exact tget_tdel_other _ _ _ (by omega) hrise
  · rfl

theorem entryWritten_drops (d : Dev) (y : Event) (rest : List Event) (hrise : keysRise d.evt.journal = true) (hfull : 65536 ≤ d.evt.head) :
    tget (d.entryWritten y rest).evt.journal (d.evt.head - 65536) = none := by
  refine (tget_tput_other _ _ _ _ (by omega)).trans ?_
  rw [if_pos hfull]
  exact tget_tdel_same _ _ hrise

theorem entryWritten_till (d : Dev) (y : Event) (rest : List Event) : (d.entryWritten y rest).now = (d.till (y.time + usTicks 2)).now := rfl

section
variable {d : Dev} {n i : Nat} {x : Event} (hfilter : (d.ring n).filters x = true)
include hfilter

theorem copyEvent_noRoom (h : (d.ring n).state = 3 ∨ ((d.ring n).state = 1 ∧ (d.ring n).slots ≤ (d.ring n).used + (d.ring n).held.length)) :
    d.copyEvent n i x = (d.bump 0x60008 0).setRing n fun r => { r with dropped := true } := by
  unfold Dev.copyEvent
  dsimp only
  rw [if_neg (by simp [hfilter])]
  rcases h with h | ⟨hactive, hfull⟩
  · exact if_pos h
  · rw [hactive, if_neg (by decide), if_neg (by decide), if_pos hfull]

theorem copyEvent_taken {y : Event} (hy : y = if (d.ring n).dropped then { x with flags := Nat.lor x.flags 1 } else x)
    (hactive : (d.ring n).state = 1) (hroom : (d.ring n).used + (d.ring n).held.length < (d.ring n).slots) : d.copyEvent n i x =
      (d.setRing n fun r => { r with dropped := false, held := r.held ++ [{ bytes := y.bytes i, ring := 1024, idx := i }] }).flushRing n := by
  subst hy
  unfold Dev.copyEvent
  dsimp only
  rw [if_neg (by simp [hfilter]), hactive, if_neg (by decide), if_neg (by decide), if_neg (by omega)]

end

theorem theJournal : Says.TheJournal := by
  refine ⟨fun s hserving => makes_of_next rfl (if_pos hserving), fun s hserving => makes_of_next rfl (if_neg (by simp [hserving])),
    fun d x y rest hheld hy => ⟨d.entryWritten y rest, rfl, rfl, rfl, rfl, tget_tput_same .., entryWritten_keeps d y rest,
      entryWritten_drops d y rest, entryWritten_till d y rest, rfl, rfl, fun hlow => ?_, fun hhigh => ?_⟩,
    fun d i x hrings hsessions => ?_,
    fun d n i x y hy => ⟨fun hfilter => if_pos (by simp [hfilter]), fun hfilter h => copyEvent_noRoom hfilter h,
      fun hfilter hactive hroom => copyEvent_taken hfilter hy hactive hroom⟩,
    fun d x => ⟨fun hserving => by simp [Dev.event, hserving], fun hserving hroom => by simp [Dev.event, hserving, hroom],
      event_unserved_full d x⟩,
    fun x l => ⟨insertEvent_length x l, (mem_insertEvent x x l).2 (.inl rfl), fun y hy => (mem_insertEvent x y l).2 (.inr hy),
      insertEvent_ordered x l⟩, bytes_length⟩
  · rw [journalWrite_eq d x y rest hheld hy, if_pos (by omega)]
  · rw [journalWrite_eq d x y rest hheld hy, if_neg (by omega)]
  · simp [Dev.deliverEvent, hrings, hsessions, forEach]

/-! ## Reading the journal -/

theorem readJournal_bounded (d : Dev) (node : Nat) (l : List (Nat × Event)) (room next : Nat) : (d.readJournal node room l next).1.length ≤ room ∧
    ∀ y ∈ (d.readJournal node room l next).1, ∃ e ∈ l, ∃ v, d.viewEvent node e.2 = some v ∧ y = v.bytes e.1 := by
  induction l generalizing room next with
  | nil => exact ⟨Nat.zero_le _, fun y hy => absurd hy (List.not_mem_nil)⟩
  | cons x l ih =>
    obtain ⟨i, e⟩ := x
    rw [Dev.readJournal]
    split
    · exact ⟨Nat.zero_le _, fun y hy => absurd hy (List.not_mem_nil)⟩
    next hroom =>
    cases hview : d.viewEvent node e with
    | none =>
      obtain ⟨hlen, hmem⟩ := ih room (i + 1)
      refine ⟨hlen, fun y hy => ?_⟩
      obtain ⟨z, hz, hv⟩ := hmem y hy
      exact ⟨z, List.mem_cons_of_mem _ hz, hv⟩
    | some v =>
      obtain ⟨hlen, hmem⟩ := ih (room - 1) (i + 1)
      refine ⟨?_, fun y hy => ?_⟩
      · change (d.readJournal node (room - 1) l (i + 1)).1.length + 1 ≤ room
        omega
      · rcases List.mem_cons.1 hy with rfl | hy
        · exact ⟨(i, e), List.mem_cons_self, v, hview, rfl⟩
        · obtain ⟨z, hz, hv⟩ := hmem y hy
          exact ⟨z, List.mem_cons_of_mem _ hz, hv⟩

theorem viewEvent_foreign (d : Dev) (node : Nat) (e : Event) (hclient : nodePort node = none) (hshared : d.personality = 1)
    (horigin : e.origin ≠ node) : d.viewEvent node e = none := by
  unfold Dev.viewEvent
  simp [hclient, hshared, horigin]

theorem sendEvent_withheld (d : Dev) (node i : Nat) (e : Event) (h : e.origin ≠ node ∨ d.hasFeature node 15 = false ∨
    (d.host.rings.any fun r => r.2.kind == 2 && r.2.enable && d.ringOwner r.1 == node) = true) : d.sendEvent node i e = d := by
  refine if_pos ?_
  rcases h with h | h | h <;> simp [h]

/-! ## Counters -/

theorem seenCount_exact (d : Dev) (node v : Nat) (h : d.coarse node = false) : d.seenCount node v = v := by simp [Dev.seenCount, h]

theorem seenCount_coarse (d : Dev) (node v : Nat) (h : d.coarse node = true) :
    d.seenCount node v = v / 2 ^ d.fld 0x980008 0 5 * 2 ^ d.fld 0x980008 0 5 := if_pos h

theorem seenCount_le (d : Dev) (node v : Nat) : d.seenCount node v ≤ v := by
  cases h : d.coarse node
  · exact Nat.le_of_eq (seenCount_exact d node v h)
  · exact seenCount_coarse d node v h ▸ Nat.div_mul_le_self ..

/-- A record of PERF_LIST. -/
def counterRecord (c : Nat × Nat) : List Byte :=
  natBytes 2 c.1 ++ natBytes 1 (c.1 / 64) ++ natBytes 1 c.2 ++ (List.range 12).map fun i => Config.freeByte (c.1 + 1024 * i) i

theorem counterRecord_index (c : Nat × Nat) : field (counterRecord c) 0 2 = c.1 % 65536 ∧ (counterRecord c).length = 16 := by
  refine ⟨?_, by simp [counterRecord]⟩
  have h := slice_at_zero (natBytes 2 c.1) (natBytes 1 (c.1 / 64) ++ (natBytes 1 c.2 ++ (List.range 12).map fun i => Config.freeByte (c.1 + 1024 * i) i))
  rw [natBytes_length] at h
  unfold field counterRecord
  rw [List.append_assoc, List.append_assoc, h, leNat_natBytes]
  rfl

theorem eventsAndCounters : Says.EventsAndCounters := by
  refine ⟨fun s ring idx n k b d raw hready hadmits hn hd hk hraw => ⟨fun hforeign => ?_, fun c hkind howner hc => ?_⟩,
    fun s ring idx from_ len b d x hready hadmits hlen hd hfrom hx => ?_, fun d node room l next => readJournal_bounded d node l room next,
    viewEvent_foreign, fun d node i e => ⟨sendEvent_withheld d node i e, fun horigin hfeature hring => ?_⟩,
    fun s ring idx len b d hadmits hready hlen hd => ⟨(counterList.take (len / 16)).map counterRecord, by simp, fun k r c hr hc => ?_, ?_⟩,
    fun s ring idx b d hadmits hd hready => ⟨fun hown => ?_, fun lo n e hcounts hlo hn he => ?_⟩,
    fun d node v => ⟨seenCount_exact d node v, seenCount_le d node v, fun h => seenCount_coarse d node v h ▸ Nat.mul_mod_left ..⟩⟩
  · subst hn hd
    exact makes_gatedDesc _ rfl hready hadmits (if_pos (by simp only [Bool.or_eq_true, decide_eq_true_eq]; exact hforeign))
  · subst hn hd hk hraw hc
    exact makes_gatedDesc _ rfl hready hadmits (if_neg (by simp [hkind, howner]))
  · subst hx hfrom hd hlen
    exact makes_gatedDesc _ rfl hready hadmits rfl
  · exact if_neg (by simp [horigin, hfeature, hring])
  · rw [List.getElem?_map] at hr
    obtain ⟨c', hc', rfl⟩ := Option.map_eq_some_iff.1 hr
    have hsame : counterList[k]? = some c' := by
      rw [List.getElem?_take] at hc'
      split at hc'
      · exact hc'
      · cases hc'
    rw [hc] at hsame
    cases hsame
    exact counterRecord_index c
  · subst hd hlen
    exact makes_gatedDesc _ rfl hready hadmits rfl
  · subst hd
    exact makes_gatedDesc _ rfl hready hadmits (if_pos hown)
  · subst he hn hlo hd
    exact makes_gatedDesc _ rfl hready hadmits (if_neg (by simp [hcounts]))

/-- Settles O50: events reach the journal and their readers, and counters theirs. -/
theorem eventsReachTheirReaders : Obligations.EventsReachTheirReaders := ⟨theJournal, eventsAndCounters⟩

end Sys2Proof.Machine

/-! Ageing gauges, margin plans and retraining (R405 to R414). -/

namespace Sys2Proof.Machine

/-! ## Plans -/

@[simp] theorem age_logSrc (d : Dev) (source origin status : Nat) : (d.logSrc source origin status).age = d.age :=
  logSrc_keeps Dev.age (fun _ _ _ _ _ => rfl) ..

/-- The refresh factor of a stack lies between 4 and 8 (R407). -/
theorem refQ_bounds (d : Dev) (t x : Nat) (hx : x ∈ (d.planNow t).refQ) : 4 ≤ x ∧ x ≤ 8 := by
  obtain ⟨k, -, rfl⟩ := List.mem_map.1 hx
  omega

/-- A guardband falls by at most one step (R408). -/
theorem coreGb_step (d : Dev) (t : Nat) (h : d.coreWanted ≤ d.coreBound) : d.age.plan.coreGb ≤ (d.planNow t).coreGb + 5 := by
  have hgb : (d.planNow t).coreGb = min d.coreWanted d.coreBound := rfl
  have hstep : d.age.plan.coreGb - 5 ≤ d.coreWanted := Nat.le_max_right ..
  omega

theorem planRelax_age (d : Dev) : d.planRelax.age = { d.age with aim := d.age.plan.margins, force := d.age.plan.margins, pending := false } := by
  unfold Dev.planRelax
  dsimp only
  split
  · rw [age_logSrc]
  · rfl

/-- A gauge's reading joins the worst of its period (R405). -/
theorem makes_gaugeRead {s : State} {g r w : Nat} (hrun : s.dev.pm.state = 1) (hg : g < 1144)
    (hw : w = (tget s.dev.age.worst g).elim r fun x => worse g x r) :
    Makes (.gaugeRead g r) s { s.dev with age := { s.dev.age with raw := tput s.dev.age.raw g r, worst := tput s.dev.age.worst g w } } := by
  subst hw
  refine makes_of_next rfl ((if_neg (by simp [hrun, Nat.not_le.2 hg])).trans ?_)
  cases tget s.dev.age.worst g <;> rfl

theorem makes_startUpPlan {s : State} {d e : Dev} {p : Plan} {m : Margins} (hstart : s.dev.age.startPlan = true) (hrun : s.dev.pm.state = 1)
    (hhead : s.dev.pmHead = none) (hd : d = { s.dev with age := { s.dev.age with startPlan := false } }) (hp : p = d.planNow 3)
    (hm : m = d.age.plan.margins)
    (h : (if m.tighten p.margins = m && !(p.retrainLinks != Nat.land p.retrainLinks d.age.plan.retrainLinks ||
      p.retrainPcie != Nat.land p.retrainPcie d.age.plan.retrainPcie) then d else d.planRun 3) = e) : Makes .startUpPlan s e := by
  subst hp hm hd
  exact makes_of_next rfl ((if_neg (by simp [hstart, hrun, hhead])).trans h)

theorem gaugesAndPlans : Says.GaugesAndPlans := by
  refine ⟨fun s g r w hrun hg hw => makes_gaugeRead hrun hg ?_,
    fun d t => ⟨rfl, Nat.min_le_right .., coreGb_step d t, Nat.min_le_left .., rfl, rfl, fun h => if_pos h, fun h => if_neg (Nat.not_le.2 h),
      fun x hx => refQ_bounds d t x hx, by simp [Dev.planNow]⟩,
    fun d p => ⟨_, rfl, rfl, ?_, rfl, rfl, Nat.le_max_left .., Nat.le_max_right .., Nat.le_max_left .., rfl⟩,
    fun d p => ⟨_, ?_, ?_, rfl⟩, fun d t => rfl, fun d => by rw [planRelax_age]; exact ⟨rfl, rfl, rfl⟩,
    fun s hgood d hd => ?_, fun s due d hready hhead hdue hd => ⟨fun hrun => ?_, fun hrun => ?_⟩,
    fun s d p m hstart hrun hhead hd hp hm => ⟨fun hmargins hlinks hpcie => makes_startUpPlan hstart hrun hhead hd hp hm (if_pos ?_),
      fun hnew => makes_startUpPlan hstart hrun hhead hd hp hm (if_neg ?_)⟩⟩
  · subst hw
    unfold worse
    cases tget s.dev.age.worst g <;> simp
  · dsimp only
    split
    · exact .inl rfl
    · exact .inr rfl
  · rfl
  · exact Bool.or_true _
  · subst hd
    exact makes_of_next rfl (if_neg (by simp [hgood]))
  · subst hd hdue
    refine makes_of_next rfl ((if_neg (by simp [hready, hhead])).trans (if_pos hrun))
  · subst hd hdue
    refine makes_of_next rfl ((if_neg (by simp [hready, hhead])).trans (if_neg hrun))
  · simp only [hmargins, hlinks, hpcie, bne_self_eq_false, Bool.or_self, decide_true, Bool.not_false, Bool.and_self]
  · intro h
    simp only [Bool.and_eq_true, decide_eq_true_eq, Bool.not_eq_true', Bool.or_eq_false_iff, bne_eq_false_iff_eq] at h
    obtain ⟨hmargins, hlinks, hpcie⟩ := h
    rcases hnew with h | h | h
    · exact h hmargins
    · exact h hlinks.symm
    · exact h hpcie.symm

/-! ## Descriptors and retraining -/

theorem planRecord_length (p : Plan) : (planRecord p).length = 128 := by
  have hrefs (l : List Nat) (f : Nat → List Byte) (hf : ∀ x ∈ l, (f x).length = 1) : ((l.map f).flatten).length = l.length := by
    induction l with
    | nil => rfl
    | cons x l ih =>
      rw [List.map_cons, List.flatten_cons, List.length_append, hf x List.mem_cons_self, ih fun y hy => hf y (List.mem_cons_of_mem _ hy),
        List.length_cons, Nat.add_comm]
  unfold planRecord
  simp [hrefs, zeros]

theorem retrainable_mirror (d : Dev) (l : Nat) (h : d.retrainable l = true) (hrole : d.glFld l 0 28 2 = 2) :
    ∃ k, k ≠ l ∧ k < 24 ∧ (d.link k).state = 6 ∧ d.glFld k 0 28 2 = 2 := by
  simp only [Dev.retrainable, hrole, bne_self_eq_false, Bool.false_or, Bool.and_eq_true, List.any_eq_true, List.mem_range, bne_iff_ne, ne_eq,
    beq_iff_eq] at h
  obtain ⟨-, -, k, hk, ⟨hne, hmirror⟩, hactive⟩ := h
  exact ⟨k, hne, hk, hactive, hmirror⟩

/-- A descriptor that writes a plan's record, of a management host or outside Shared. -/
theorem ageOut_written {d : Dev} {ring idx op : Nat} {b : List Byte} {p : Dev → Plan} {result : Nat} (hready : d.ready ring idx op b)
    (hadmits : admits d ring false []) (hmay : (nodePort (d.ringOwner ring)).isSome = true ∨ d.personality ≠ 1) :
    d.ageOut ring idx op p result =
      (d.begun ring idx).output (.desc ring idx) (field b 40 8) (planRecord (p (d.begun ring idx))) stDone 0 result 0 := by
  unfold Dev.ageOut
  rw [withDesc_ready _ _ _ _ _ _ hready, gated_admits _ _ _ _ _ _ (begun_admits _ _ _ _ _ hadmits)]
  refine if_neg ?_
  rw [begun_ringOwner, show (d.begun ring idx).personality = d.personality from rfl]
  rcases hmay with h | h
  · simp [Option.isSome_iff_ne_none.1 h]
  · simp [h]

theorem ageOut_refused {d : Dev} {ring idx op : Nat} {b : List Byte} {p : Dev → Plan} {result : Nat} (hready : d.ready ring idx op b)
    (hadmits : admits d ring false []) (hclient : nodePort (d.ringOwner ring) = none) (hshared : d.personality = 1) :
    d.ageOut ring idx op p result = (d.begun ring idx).completeDesc ring idx stDenied 0x50 0 0 := by
  unfold Dev.ageOut
  rw [withDesc_ready _ _ _ _ _ _ hready, gated_admits _ _ _ _ _ _ (begun_admits _ _ _ _ _ hadmits)]
  refine if_pos ?_
  rw [begun_ringOwner, show (d.begun ring idx).personality = d.personality from rfl]
  simp [hclient, hshared]

/-- AGE_PLAN of a descriptor in its turn, in Run. -/
theorem makes_agePlan {s : State} {ring idx : Nat} {b : List Byte} {e : Dev} (hhead : s.dev.pmHead = some (ring, idx)) (hrun : s.dev.pm.state = 1)
    (hready : s.dev.ready ring idx 0x74 b) (hadmits : admits s.dev ring false [])
    (h : (if !s.dev.hasLease (s.dev.ringOwner ring) then (s.dev.begun ring idx).completeDesc ring idx stDenied 8 0 0
      else
        let d := if 1 < field b 8 1 then (s.dev.begun ring idx).clamped 1 1 else s.dev.begun ring idx
        (if field b 8 1 = 0 then d.planRun 2 else d).output (.desc ring idx) (field b 40 8) (planRecord (d.planNow 2)) stDone 0
          (d.planNow 2).version 0) = e) : Makes (.agePlan ring idx) s e := by
  refine makes_of_next rfl ((if_neg (by simp [hhead, hrun])).trans ?_)
  rw [withDesc_ready _ _ _ _ _ _ hready, gated_admits _ _ _ _ _ _ (begun_admits _ _ _ _ _ hadmits)]
  exact h

theorem makes_retrainStart {s : State} {l : Nat} {e : Dev} (hon : s.dev.fld 0x40000 1 1 ≠ 0) (hrun : s.dev.pm.state = 1)
    (hidle : s.dev.age.retraining = none) (hfind : ((List.range 24).find? fun l => nmem s.dev.age.retrainDue l && s.dev.retrainable l) = some l)
    (h : (let d := s.dev.till s.dev.age.retrainNext
      let d := { d with age := { d.age with retraining := some l, retrainNext := d.now + msTicks 10000 } }
      let d := (d.log 0x0142 (code := l)).linkReset l
      if (d.link l).state = 7 && d.glFld l 0 30 1 = 0 then d.linkReset l else d) = e) : Makes .retrainStart s e := by
  refine makes_of_next rfl ((if_neg (by simp [hon, hrun, hidle])).trans ?_)
  simp only [hfind]
  exact h

theorem planDescriptors : Says.PlanDescriptors := by
  refine ⟨fun s ring idx b d hserved hd => ?_, fun s ring idx b hhead hrun hadmits hlease hready => ?_, fun s ring idx hbar => ?_,
    fun s ring idx b d hadmits hd => ⟨fun hmay => ⟨fun hready => ?_, fun hready => ?_⟩, fun hclient hshared => ⟨fun hready => ?_, fun hready => ?_⟩⟩,
    fun s hon hrun hidle => ⟨fun l hfind => ⟨_, _, rfl, rfl, ?_⟩, fun hnone => ?_⟩, fun s hbusy => ?_, retrainable_mirror,
    fun p _ => planRecord_length p⟩
  · obtain ⟨hhead, hrun, hready, hadmits, hlease⟩ := hserved
    have hmakes {e : Dev} (h : (if field b 8 1 = 0 then d.planRun 2 else d).output (.desc ring idx) (field b 40 8) (planRecord (d.planNow 2))
        stDone 0 (d.planNow 2).version 0 = e) : Makes (.agePlan ring idx) s e := by
      subst hd
      exact makes_agePlan hhead hrun hready hadmits ((if_neg (by simp [hlease])).trans h)
    exact ⟨fun hact => hmakes (by rw [if_pos hact]), fun hact => hmakes (by rw [if_neg hact])⟩
  · exact makes_agePlan hhead hrun hready hadmits (if_pos (by simp [hlease]))
  · refine makes_of_next rfl (if_pos ?_)
    simpa using hbar
  · subst hd
    exact makes_of_next rfl (ageOut_written hready hadmits hmay)
  · subst hd
    exact makes_of_next rfl (ageOut_written hready hadmits hmay)
  · subst hd
    exact makes_of_next rfl (ageOut_refused hready hadmits hclient hshared)
  · subst hd
    exact makes_of_next rfl (ageOut_refused hready hadmits hclient hshared)
  · refine makes_retrainStart hon hrun hidle hfind ?_
    simp only [Bool.and_eq_true, decide_eq_true_eq]
  · refine makes_of_next rfl ((if_neg (by simp [hon, hrun, hidle])).trans ?_)
    simp only [hnone]
  · exact makes_of_next rfl (if_pos (by simp [hbusy]))

/-- Settles O47: gauges are read, plans made and installed, links retrained. -/
theorem ageingPlans : Obligations.AgeingPlans := ⟨gaugesAndPlans, planDescriptors⟩

end Sys2Proof.Machine

/-! Lines and their places (SPEC 15_near_tier_dram.md, R326, R327, and 16_ecc_scrub.md, R346, R350 to R353, R357). -/

namespace Sys2Proof.Machine

/-! ## What a read of a line leaves in memory -/

theorem failStack_keeps_mem (d : Dev) (s cause : Nat) : (d.failStack s cause).mem = d.mem := by
  unfold Dev.failStack
  split
  · refine (forEach_keeps Dev.mem (fun g (d : Dev) => d.recallStart g 1) (fun g d => (recallStart_changes d g 1).1) _ _).trans ?_
    exact log_keeps Dev.mem (fun _ _ _ _ => rfl) _ _ _ _ _ _ _
  · rfl

theorem ueNote_keeps_mem (d : Dev) (s a addr : Nat) (counts : Bool) : (d.ueNote s a addr counts).mem = d.mem := by
  have hnoted : ∀ (d : Dev) (source origin code status arg0 arg1 off lo : Nat),
      ((d.log source origin code status arg0 arg1).bump off lo).mem = d.mem := fun d _ _ _ _ _ _ _ _ =>
    (bump_keeps Dev.mem (fun _ _ _ => rfl) ..).trans (log_keeps Dev.mem (fun _ _ _ _ => rfl) ..)
  unfold Dev.ueNote
  dsimp only
  split
  · exact hnoted ..
  · split
    · exact (failStack_keeps_mem ..).trans (hnoted ..)
    · exact hnoted ..

theorem uncorrectable_mem (d : Dev) (ext key addr : Nat) : (d.uncorrectable ext key addr).mem = memZero d.mem (key / 64 * 64) 64 :=
  ueNote_keeps_mem ..

theorem uncorrectable_line_mem (d : Dev) (ext key addr : Nat) :
    (d.uncorrectable ext (key / 64 * 64) addr).mem = memZero d.mem (key / 64 * 64) 64 := by
  rw [uncorrectable_mem, Nat.mul_div_cancel _ (by decide : 0 < 64)]

/-- The parts of the device that say what a line holds. -/
def Dev.lines (d : Dev) : List Host.Cell × List Nat × Tbl (List Byte) := (d.mem, d.poison, d.ecc.odd)

theorem corrected_keeps_lines (d : Dev) (line ck : Nat) : (d.corrected line ck).lines = d.lines := by
  have hbump : ∀ off lo, (d.bump off lo).lines = d.lines := bump_keeps Dev.lines (fun _ _ _ => rfl) d
  unfold Dev.corrected
  dsimp only
  split <;> exact hbump ..

theorem corrected_keeps_mem (d : Dev) (line ck : Nat) : (d.corrected line ck).mem = d.mem :=
  congrArg Prod.fst (corrected_keeps_lines d line ck)

/-- A line that reads is not poisoned, and reading it changes no line (R346, R350). -/
theorem readLine_reads {d e : Dev} {ext key addr : Nat} {old : List Byte} (hread : d.readLine ext key addr = (some old, e)) :
    nmem d.poison (key / 64) = false ∧ e.lines = d.lines := by
  have hline : key / 64 * 64 / 64 = key / 64 := by omega
  unfold Dev.readLine at hread
  dsimp only at hread
  rw [hline] at hread
  split at hread
  · split at hread
    · cases hread
    · next hgood => cases hread; exact ⟨by simpa using hgood, rfl⟩
  · split at hread
    · cases hread
    · split at hread
      · cases hread
      · split at hread
        · cases hread
        · next hgood =>
          rw [Bool.or_eq_true, not_or] at hgood
          obtain ⟨-, rfl⟩ := Prod.mk.inj hread
          refine ⟨by simpa using hgood.2, ?_⟩
          split
          · exact corrected_keeps_lines ..
          · rfl

/-- A read that fails leaves memory as it is, or zeroes the line. -/
theorem readLine_fails_mem {d e : Dev} {ext key addr : Nat} (hread : d.readLine ext key addr = (none, e)) :
    e.mem = d.mem ∨ e.mem = memZero d.mem (key / 64 * 64) 64 := by
  have huncorrectable := uncorrectable_line_mem d ext key addr
  unfold Dev.readLine at hread
  dsimp only at hread
  split at hread
  · split at hread
    · cases hread; exact .inl rfl
    · cases hread
  · split at hread
    · cases hread; exact .inr huncorrectable
    · split at hread
      · cases hread; exact .inr huncorrectable
      · split at hread
        · obtain ⟨-, rfl⟩ := Prod.mk.inj hread
          refine .inl ?_
          split
          · exact corrected_keeps_mem ..
          · rfl
        · cases hread

/-- A line whose codeword holds no errors and that is not poisoned reads as memory has it. -/
theorem readLine_plain {d : Dev} {ext key addr : Nat} (hodd : tget d.ecc.odd (key / 64) = none) (hgood : nmem d.poison (key / 64) = false) :
    (d.readLine ext key addr).1 = some (memRead d.mem (key / 64 * 64) 64) := by
  unfold Dev.readLine
  dsimp only
  rw [show key / 64 * 64 / 64 = key / 64 by omega]
  simp only [hodd, hgood, Bool.false_eq_true, if_false]

/-! ## Memory -/

theorem memRead_memWrite_whole (m : List Host.Cell) (a : Nat) (l : List Byte) (hwf : Memory.wf m = true) :
    memRead (memWrite m a l) a l.length = l := by
  refine List.ext_getElem (by simp [memRead]) fun i hi hl => ?_
  simp only [memRead, List.getElem_map, List.getElem_range]
  exact memGet_memWrite_inside l m a i hwf hl

theorem memRead_memWrite_part (m : List Host.Cell) (a i : Nat) (old bs : List Byte) (hwf : Memory.wf m = true)
    (hfit : i + bs.length ≤ old.length) :
    memRead (memWrite (memWrite m a old) (a + i) bs) a old.length = overlay old i bs := by
  have hwf' := memWrite_wf old m a hwf
  refine List.ext_getElem (by simp [memRead, overlay]; omega) fun j hj hl => ?_
  have hold : j < old.length := by simpa [memRead] using hj
  simp only [memRead, List.getElem_map, List.getElem_range, overlay, List.append_assoc]
  by_cases hlow : j < i
  · rw [memGet_memWrite_outside bs _ _ _ hwf' (.inl (by omega)), memGet_memWrite_inside old m a j hwf hold,
      List.getElem_append_left (by simp; omega), List.getElem_take]
  · by_cases hhigh : j < i + bs.length
    · rw [show a + j = a + i + (j - i) by omega, memGet_memWrite_inside bs _ _ _ hwf' (by omega),
        List.getElem_append_right (by simp; omega), List.getElem_append_left (by simp; omega)]
      simp [show min i old.length = i by omega]
    · rw [memGet_memWrite_outside bs _ _ _ hwf' (.inr (by omega)), memGet_memWrite_inside old m a j hwf hold,
        List.getElem_append_right (by simp; omega), List.getElem_append_right (by simp; omega), List.getElem_drop]
      congr 1
      simp
      omega

/-! ## Writing a line -/

theorem writeLine_full (d : Dev) (ext key addr : Nat) {bs : List Byte} (hfull : bs.length = 64) :
    d.writeLine ext key addr bs = (true, { d with
      mem := memWrite d.mem (key / 64 * 64) bs, poison := ndel d.poison (key / 64),
      ecc := { d.ecc with odd := tdel d.ecc.odd (key / 64), writeBacks := tdel d.ecc.writeBacks (key / 64) } }) := by
  unfold Dev.writeLine
  dsimp only
  rw [if_pos hfull, show key / 64 * 64 / 64 = key / 64 by omega]

theorem writeLine_part {d e : Dev} {ext key addr : Nat} {old bs : List Byte} (hpart : bs.length ≠ 64)
    (hread : d.readLine ext key addr = (some old, e)) :
    d.writeLine ext key addr bs = (true, { e with
      mem := memWrite (memWrite e.mem (key / 64 * 64) old) key bs,
      ecc := { e.ecc with odd := tdel e.ecc.odd (key / 64), writeBacks := tdel e.ecc.writeBacks (key / 64) } }) := by
  unfold Dev.writeLine
  dsimp only
  rw [if_neg hpart, hread, show key / 64 * 64 / 64 = key / 64 by omega]

theorem writeLine_unreadable {d e : Dev} {ext key addr : Nat} {bs : List Byte} (hpart : bs.length ≠ 64)
    (hread : d.readLine ext key addr = (none, e)) : d.writeLine ext key addr bs = (false, e) := by
  unfold Dev.writeLine
  dsimp only
  rw [if_neg hpart, hread]

theorem writeLine_full_reads {d : Dev} {ext key addr : Nat} {bs : List Byte} (hwf : Memory.wf d.mem = true) (hodd : keysRise d.ecc.odd = true)
    (hfull : bs.length = 64) :
    (d.writeLine ext key addr bs).1 = true ∧ ((d.writeLine ext key addr bs).2.readLine ext key addr).1 = some bs := by
  rw [writeLine_full d ext key addr hfull]
  refine ⟨rfl, ?_⟩
  rw [readLine_plain (tget_tdel_same _ _ hodd) (nmem_ndel_same _ _)]
  refine congrArg some ?_
  have hread := memRead_memWrite_whole d.mem (key / 64 * 64) bs hwf
  rwa [hfull] at hread

theorem writeLine_part_reads {d e : Dev} {ext key addr : Nat} {old bs : List Byte} (hwf : Memory.wf d.mem = true)
    (hodd : keysRise d.ecc.odd = true) (hpart : bs.length < 64) (hfit : key % 64 + bs.length ≤ 64) (hold : old.length = 64)
    (hread : d.readLine ext key addr = (some old, e)) :
    (d.writeLine ext key addr bs).1 = true ∧
      ((d.writeLine ext key addr bs).2.readLine ext key addr).1 = some (overlay old (key % 64) bs) := by
  obtain ⟨hgood, hlines⟩ := readLine_reads hread
  obtain ⟨hmem, hpoison, hecc⟩ : e.mem = d.mem ∧ e.poison = d.poison ∧ e.ecc.odd = d.ecc.odd := by
    simpa only [Dev.lines, Prod.mk.injEq] using hlines
  rw [writeLine_part hpart.ne hread]
  refine ⟨rfl, ?_⟩
  rw [readLine_plain (tget_tdel_same _ _ (hecc ▸ hodd)) (hpoison ▸ hgood)]
  refine congrArg some ?_
  have hwhole := memRead_memWrite_part e.mem (key / 64 * 64) (key % 64) old bs (hmem ▸ hwf) (hold ▸ hfit)
  rwa [hold, show key / 64 * 64 + key % 64 = key by omega] at hwhole

/-- The memory after a write of a part of a line: as the read left it, or with the line laid down again and the part over it. -/
theorem writeLine_mem (d : Dev) (ext key addr : Nat) (bs : List Byte) :
    (bs.length = 64 ∧ (d.writeLine ext key addr bs).2.mem = memWrite d.mem (key / 64 * 64) bs) ∨
    (∃ old e, d.readLine ext key addr = (some old, e) ∧
      (d.writeLine ext key addr bs).2.mem = memWrite (memWrite d.mem (key / 64 * 64) old) key bs) ∨
    (d.writeLine ext key addr bs).2.mem = d.mem ∨ (d.writeLine ext key addr bs).2.mem = memZero d.mem (key / 64 * 64) 64 := by
  by_cases hfull : bs.length = 64
  · exact .inl ⟨hfull, by rw [writeLine_full d ext key addr hfull]⟩
  · obtain ⟨r, e, hread⟩ : ∃ r e, d.readLine ext key addr = (r, e) := ⟨_, _, rfl⟩
    cases r with
    | some old =>
      have hmem : e.mem = d.mem := congrArg Prod.fst (readLine_reads hread).2
      exact .inr (.inl ⟨old, e, hread, by rw [writeLine_part hfull hread, hmem]⟩)
    | none =>
      rw [writeLine_unreadable hfull hread]
      exact .inr (.inr (readLine_fails_mem hread))

theorem memGet_writeLine_elsewhere {d : Dev} {ext key addr a : Nat} {bs : List Byte} (hwf : Memory.wf d.mem = true)
    (hfit : key % 64 + bs.length ≤ 64) (hother : a / 64 ≠ key / 64)
    (hold : ∀ old e, d.readLine ext key addr = (some old, e) → old.length = 64) :
    memGet (d.writeLine ext key addr bs).2.mem a = memGet d.mem a := by
  have hout : a < key / 64 * 64 ∨ key / 64 * 64 + 64 ≤ a := by omega
  rcases writeLine_mem d ext key addr bs with ⟨hfull, hmem⟩ | ⟨old, e, hread, hmem⟩ | hmem | hmem <;> rw [hmem]
  · exact memGet_memWrite_outside _ _ _ _ hwf (by omega)
  · have hlen := hold old e hread
    rw [memGet_memWrite_outside _ _ _ _ (memWrite_wf _ _ _ hwf) (by omega), memGet_memWrite_outside _ _ _ _ hwf (by omega)]
  · exact memGet_memZero_outside _ _ _ _ hwf hout

theorem writeLine_wf {d : Dev} (ext key addr : Nat) (bs : List Byte) (hwf : Memory.wf d.mem = true) :
    Memory.wf (d.writeLine ext key addr bs).2.mem = true := by
  rcases writeLine_mem d ext key addr bs with ⟨-, hmem⟩ | ⟨old, e, -, hmem⟩ | hmem | hmem <;> rw [hmem]
  · exact memWrite_wf _ _ _ hwf
  · exact memWrite_wf _ _ _ (memWrite_wf _ _ _ hwf)
  · exact hwf
  · exact memZero_wf _ _ _ hwf

theorem linesReadBack : Says.LinesReadBack := fun _ ext key addr _ hwf hodd =>
  ⟨fun hfull _ => writeLine_full_reads hwf hodd hfull,
    fun _ _ hpart hfit hold hread => writeLine_part_reads hwf hodd hpart hfit hold hread,
    fun _ hpart hread => writeLine_unreadable hpart.ne hread,
    fun _ hfit hother hold => memGet_writeLine_elsewhere hwf hfit hother hold,
    writeLine_wf ext key addr _ hwf⟩

/-! ## Places -/

/-- The stack among five that serve, counted past the retired one. -/
theorem pastRetired_lt (s x : Nat) (hs : s < 5) : (if s < x then s else s + 1) < 6 := by split <;> omega

theorem pastRetired_ne (s x : Nat) : (if s < x then s else s + 1) ≠ x := by split <;> omega

theorem pastRetired_back (s x : Nat) :
    (if (if s < x then s else s + 1) < x then if s < x then s else s + 1 else (if s < x then s else s + 1) - 1) = s := by
  by_cases hlow : s < x
  · simp only [hlow, if_true]
  · have hpast : ¬s + 1 < x := by omega
    simp only [hlow, hpast, if_false, Nat.add_sub_cancel]

theorem place_six {d : Dev} (hall : d.retired = none) (e f i : Nat) :
    d.place e f i = ((i + 4 * e % 6) % 6, f * 87382 + (i + 4 * e % 6) / 6) := by
  simp only [Dev.place, hall]

theorem place_five {d : Dev} {x : Nat} (hx : d.retired = some x) (e f i : Nat) :
    d.place e f i = (if (i + 4 * e % 5) % 5 < x then (i + 4 * e % 5) % 5 else (i + 4 * e % 5) % 5 + 1,
      f * 104859 + (i + 4 * e % 5) / 5) := by
  simp only [Dev.place, hx]

theorem keyAt_place (d : Dev) (e f i : Nat) (hi : i < 2 ^ 19) :
    d.keyAt e (d.place e f i).1 (d.place e f i).2 = some (f * 2 ^ 25 + i * 64) := by
  cases hret : d.retired with
  | none =>
    have hframe : (f * 87382 + (i + 4 * e % 6) / 6) / 87382 = f := by omega
    have hrow : 6 * ((f * 87382 + (i + 4 * e % 6) / 6) % 87382) + (i + 4 * e % 6) % 6 = i + 4 * e % 6 := by omega
    simp only [place_six hret, Dev.keyAt, hret, hframe, hrow]
    rw [if_pos (by simpa using hi), Nat.add_sub_cancel]
  | some x =>
    have hframe : (f * 104859 + (i + 4 * e % 5) / 5) / 104859 = f := by omega
    have hrow : 5 * ((f * 104859 + (i + 4 * e % 5) / 5) % 104859) + (i + 4 * e % 5) % 5 = i + 4 * e % 5 := by omega
    simp only [place_five hret, Dev.keyAt, hret]
    rw [if_neg (pastRetired_ne _ _), pastRetired_back, hframe, hrow, if_pos (by simpa using hi),
      Nat.add_sub_cancel]

theorem place_serves (d : Dev) (e f i : Nat) : (d.place e f i).1 < 6 ∧ d.retired ≠ some (d.place e f i).1 := by
  cases hret : d.retired with
  | none => rw [place_six hret]; exact ⟨Nat.mod_lt _ (by decide), by simp⟩
  | some x =>
    rw [place_five hret]
    exact ⟨pastRetired_lt _ _ (Nat.mod_lt _ (by decide)), fun hx => pastRetired_ne _ _ (Option.some.inj hx).symm⟩

theorem homeOf_stack (d : Dev) (e f i : Nat) (hi : i < 2 ^ 19) (hall : d.retired = none) :
    homeOf (e * 2 ^ 19 + i) / 8 = (d.place e f i).1 := by
  have hext : (e * 2 ^ 19 + i) / 2 ^ 19 = e := by omega
  have hline : (e * 2 ^ 19 + i) % 2 ^ 19 = i := by omega
  simp only [place_six hall, homeOf, hext, hline]
  omega

theorem homeOf_lt (line : Nat) : homeOf line < 48 := by
  simp only [homeOf]
  omega

theorem everyLineHasItsPlace : Says.EveryLineHasItsPlace :=
  ⟨keyAt_place, fun d e f i _ => place_serves d e f i, homeOf_stack, fun line => ⟨homeOf_lt line, Nat.mod_lt _ (by decide)⟩⟩

/-- Settles O56: a write to a line changes that line alone and clears its error state, so that what was written reads back, and a place
is the line's number turned by its extent, which is turned back. -/
theorem linesAndPlaces : Obligations.LinesAndPlaces := ⟨linesReadBack, everyLineHasItsPlace⟩

end Sys2Proof.Machine

/-! The stack controllers (SPEC 15_near_tier_dram.md: R331, R333 to R345, and 18_power_clocks.md: R384). -/

namespace Sys2Proof.Machine

/-! ## What a bank does next -/

section
variable {d e : Dev} {k b : Nat} (hunanswered : ¬d.draw.1 % 2 = 1) (he : e = d.draw.2.setStack k fun u => { u with badCommands := 0 })
include hunanswered he

theorem bankTurn_refreshes (howed : 8 ≤ e.owedBy k b) :
    d.bankTurn k b = (e.wakeRank k b).setStack k fun u => { u with owed := tput u.owed b (e.owedBy k b - 1) } := by
  subst he
  exact (if_neg hunanswered).trans (if_pos howed)

theorem bankTurn_late {x : Access} (howed : ¬8 ≤ e.owedBy k b) (hnext : e.nextAccess k b = some (x, true)) :
    d.bankTurn k b = e.serveRow k x true := by
  subst he
  refine (if_neg hunanswered).trans ((if_neg howed).trans ?_)
  simp only [hnext]

theorem bankTurn_makesUp (howed : ¬8 ≤ e.owedBy k b) (hlate : ∀ x, e.nextAccess k b ≠ some (x, true)) (hup : e.makesUp k b = true) :
    d.bankTurn k b = ((e.wakeRank k b).bump (memOff k 0x20) 0).setStack k fun u => { u with owed := tdel u.owed b } := by
  subst he
  refine (if_neg hunanswered).trans ((if_neg howed).trans ?_)
  split
  · next hnext => exact absurd hnext (hlate _)
  · exact if_pos hup

theorem bankTurn_serves {x : Access} (howed : ¬8 ≤ e.owedBy k b) (hnext : e.nextAccess k b = some (x, false))
    (hup : e.makesUp k b = false) : d.bankTurn k b = e.serveRow k x false := by
  subst he
  refine (if_neg hunanswered).trans ((if_neg howed).trans ?_)
  simp only [hnext, hup, Bool.false_eq_true, if_false]

theorem bankTurn_idle (howed : ¬8 ≤ e.owedBy k b) (hnext : e.nextAccess k b = none) (hup : e.makesUp k b = false) :
    d.bankTurn k b = e.demandWrite k b := by
  subst he
  refine (if_neg hunanswered).trans ((if_neg howed).trans ?_)
  simp only [hnext, hup, Bool.false_eq_true, if_false]

end

theorem bankTurn_unanswered {d : Dev} {k b : Nat} (hbad : d.draw.1 % 2 = 1) :
    d.bankTurn k b = if 15 ≤ (d.stack k).badCommands
      then ((drawn d).setStack k fun u => { u with badCommands := (d.stack k).badCommands + 1 }).failStack k 3
      else (drawn d).setStack k fun u => { u with badCommands := (d.stack k).badCommands + 1 } := by
  refine (if_pos hbad).trans ?_
  by_cases hmany : 15 ≤ (d.stack k).badCommands
  · exact (if_pos (Nat.succ_le_succ hmany)).trans (if_pos hmany).symm
  · exact (if_neg (mt Nat.le_of_succ_le_succ hmany)).trans (if_neg hmany).symm

/-- A bank of an ACTIVE stack finds its command unanswered, or does the one thing it has to do. -/
theorem makes_bankTurn {s : State} {k b : Nat} {bad e : Dev} (hactive : (s.dev.stack k).state = 2)
    (hbad : bad = (if 15 ≤ (s.dev.stack k).badCommands
      then ((drawn s.dev).setStack k fun u => { u with badCommands := (s.dev.stack k).badCommands + 1 }).failStack k 3
      else (drawn s.dev).setStack k fun u => { u with badCommands := (s.dev.stack k).badCommands + 1 }))
    (h : ¬s.dev.draw.1 % 2 = 1 → s.dev.bankTurn k b = e) :
    Makes (.dramCommandIssue k b) s bad ∨ Makes (.dramCommandIssue k b) s e := by
  have hturn : ∀ {e : Dev}, s.dev.bankTurn k b = e → Makes (.dramCommandIssue k b) s e := fun he =>
    makes_of_next rfl ((if_neg (not_not.2 hactive)).trans he)
  by_cases hodd : s.dev.draw.1 % 2 = 1
  · exact .inl (hturn ((bankTurn_unanswered hodd).trans hbad.symm))
  · exact .inr (hturn (h hodd))

theorem owedBy_answered (d : Dev) (k b n : Nat) :
    ((drawn d).setStack k fun u => { u with badCommands := n }).owedBy k b = d.owedBy k b := by
  unfold Dev.owedBy
  rw [Dev.stack_setStack_same]
  rfl

/-- Which queued accesses there are does not depend on how many commands went unanswered. -/
theorem queue_answered (d : Dev) (k n : Nat) :
    (((drawn d).setStack k fun u => { u with badCommands := n }).stack k).queue = (d.stack k).queue := by
  rw [Dev.stack_setStack_same]
  rfl

theorem makesUp_of_lowClass {d : Dev} {k b : Nat} (howed : 0 < d.owedBy k b)
    (hlow : ∀ y ∈ (d.stack k).queue, bankOf y.a = b → d.accessClass k y = 0) : d.makesUp k b = true := by
  unfold Dev.makesUp
  rw [Bool.and_eq_true, Bool.not_eq_true', List.any_eq_false]
  refine ⟨decide_eq_true howed, fun y hy hhigh => ?_⟩
  rw [Bool.and_eq_true, beq_iff_eq, decide_eq_true_eq] at hhigh
  exact absurd hhigh.2 (by rw [hlow y hy hhigh.1]; decide)

/-! ## The access served -/

theorem shareLeft_zero {d : Dev} {k : Nat} (hfull : d.stackShare < 64 + ((d.movedNow k).map (·.2)).sum) : d.shareLeft k = 0 := by
  unfold Dev.shareLeft
  omega

theorem demandWrite_find (d : Dev) (k b : Nat) (hshare : d.shareLeft k ≠ 0) :
    (d.ecc.writeBacks.find? fun e => e.2 / 2 ^ 32 == k && bankOf (e.2 % 2 ^ 32) == b && d.shareLeft k != 0) =
      d.ecc.writeBacks.find? fun e => e.2 / 2 ^ 32 == k && bankOf (e.2 % 2 ^ 32) == b := by
  simp only [bne_iff_ne.2 hshare, Bool.and_true]

theorem demandWrite_some {d : Dev} {k b : Nat} {e : Nat × Nat} (hshare : d.shareLeft k ≠ 0)
    (hfind : (d.ecc.writeBacks.find? fun e => e.2 / 2 ^ 32 == k && bankOf (e.2 % 2 ^ 32) == b) = some e) :
    d.demandWrite k b = { d.moveLines k 1 with
      ecc := { d.ecc with odd := tdel d.ecc.odd e.1, writeBacks := tdel d.ecc.writeBacks e.1 } } := by
  unfold Dev.demandWrite
  rw [demandWrite_find d k b hshare]
  simp only [hfind]

theorem demandWrite_capped {d : Dev} {k b : Nat} (hfull : d.shareLeft k = 0) : d.demandWrite k b = d := by
  have hnone : (d.ecc.writeBacks.find? fun e => e.2 / 2 ^ 32 == k && bankOf (e.2 % 2 ^ 32) == b && d.shareLeft k != 0) = none :=
    List.find?_eq_none.2 fun e _ => by simp [hfull]
  unfold Dev.demandWrite
  simp only [hnone]

/-- The one of two accesses that is served first: the earlier, unless the other is of a higher class (R334). -/
def Dev.preferred (d : Dev) (k : Nat) (b : Option Access) (x : Access) : Option Access :=
  match b with
  | none => some x
  | some y => if d.accessClass k y < d.accessClass k x then some x else some y

/-- The access of a bank that has waited past MAX_WAIT_NS (R335). -/
def Dev.lateAccess (d : Dev) (k b : Nat) : Option Access :=
  (d.stack k).queue.find? fun x =>
    bankOf x.a == b && !d.heldBack k x && nsTicks (d.fld (memOff k 4) 20 12) < d.now - x.arrived &&
      !((d.stack k).queue.any fun y => y.a == x.a && y.id < x.id)

theorem nextAccess_eq (d : Dev) (k b : Nat) (hshare : d.shareLeft k ≠ 0) :
    d.nextAccess k b = (d.lateAccess k b).elim (((d.servable k b).foldl (d.preferred k) none).map fun x => (x, false))
      fun x => some (x, true) := by
  refine (if_neg hshare).trans ?_
  dsimp only
  split
  · next x hlate => rw [show d.lateAccess k b = some x from hlate]; rfl
  · next hnone => rw [show d.lateAccess k b = none from hnone]; rfl

/-- The best of a list of accesses and one before it: the one before, or of the list, and none of either is of a higher class. -/
theorem foldl_preferred (d : Dev) (k : Nat) (l : List Access) (b : Option Access) (x : Access) (hbest : l.foldl (d.preferred k) b = some x) :
    (b = some x ∨ x ∈ l) ∧ (∀ y ∈ l, d.accessClass k y ≤ d.accessClass k x) ∧ ∀ y, b = some y → d.accessClass k y ≤ d.accessClass k x := by
  induction l generalizing b with
  | nil => exact ⟨.inl hbest, by simp, fun y hy => by rw [Option.some.inj (hy.symm.trans hbest)]⟩
  | cons z l ih =>
    obtain ⟨hfrom, hmax, hbefore⟩ := ih _ hbest
    cases b with
    | none =>
      have hz := hbefore z rfl
      refine ⟨.inr ?_, List.forall_mem_cons.2 ⟨hz, hmax⟩, by simp⟩
      rcases hfrom with h | h
      · exact Option.some.inj h ▸ List.mem_cons_self
      · exact List.mem_cons_of_mem _ h
    | some y =>
      by_cases hhigher : d.accessClass k y < d.accessClass k z
      · have hp : d.preferred k (some y) z = some z := if_pos hhigher
        rw [hp] at hfrom hbefore
        have hz := hbefore z rfl
        refine ⟨.inr ?_, List.forall_mem_cons.2 ⟨hz, hmax⟩, fun w hw => ?_⟩
        · rcases hfrom with h | h
          · exact Option.some.inj h ▸ List.mem_cons_self
          · exact List.mem_cons_of_mem _ h
        · rw [← Option.some.inj hw]
          exact hhigher.le.trans hz
      · have hp : d.preferred k (some y) z = some y := if_neg hhigher
        rw [hp] at hfrom hbefore
        have hy := hbefore y rfl
        refine ⟨hfrom.imp_right (List.mem_cons_of_mem _), List.forall_mem_cons.2 ⟨(Nat.not_lt.1 hhigher).trans hy, hmax⟩, fun w hw => ?_⟩
        rw [← Option.some.inj hw]
        exact hy

theorem nextAccess_late {d : Dev} {k b : Nat} {x : Access} (hnext : d.nextAccess k b = some (x, true)) : d.lateAccess k b = some x := by
  by_cases hshare : d.shareLeft k = 0
  · exact absurd ((if_pos hshare).symm.trans hnext) (by simp)
  · rw [nextAccess_eq d k b hshare] at hnext
    cases hlate : d.lateAccess k b with
    | none =>
      rw [hlate] at hnext
      obtain ⟨y, -, hy⟩ := Option.map_eq_some_iff.1 hnext
      simp at hy
    | some y =>
      rw [hlate] at hnext
      simp only [Option.elim_some, Option.some.injEq, Prod.mk.injEq, and_true] at hnext
      rw [hnext]

theorem nextAccess_best {d : Dev} {k b : Nat} {x : Access} (hnext : d.nextAccess k b = some (x, false)) :
    (d.servable k b).foldl (d.preferred k) none = some x := by
  by_cases hshare : d.shareLeft k = 0
  · exact absurd ((if_pos hshare).symm.trans hnext) (by simp)
  · rw [nextAccess_eq d k b hshare] at hnext
    cases hlate : d.lateAccess k b with
    | none =>
      rw [hlate] at hnext
      obtain ⟨y, hy, hx⟩ := Option.map_eq_some_iff.1 hnext
      rw [hy, (Prod.mk.inj hx).1]
    | some y => rw [hlate] at hnext; simp at hnext

theorem lateAccess_spec {d : Dev} {k b : Nat} {x : Access} (hlate : d.lateAccess k b = some x) :
    x ∈ (d.stack k).queue ∧ bankOf x.a = b ∧ nsTicks (d.fld (memOff k 4) 20 12) < d.now - x.arrived := by
  refine ⟨List.mem_of_find?_eq_some hlate, ?_⟩
  have hfound := List.find?_some hlate
  simp only [Bool.and_eq_true, beq_iff_eq, decide_eq_true_eq] at hfound
  obtain ⟨⟨⟨hbank, -⟩, hwait⟩, -⟩ := hfound
  exact ⟨hbank, hwait⟩

/-- The accesses that are served in one row's opening: the one chosen and others of its row (R333). -/
theorem serveRow_leaves (d : Dev) (k : Nat) (x : Access) (late : Bool) (y : Access) (hy : y ∈ ((d.serveRow k x late).stack k).queue) :
    y.id ≠ x.id := by
  unfold Dev.serveRow at hy
  dsimp only at hy
  rw [Dev.stack_setStack_same] at hy
  have hkept := (List.mem_filter.1 hy).2
  rw [List.any_cons, Bool.not_or, Bool.and_eq_true, Bool.not_eq_true', beq_eq_false_iff_ne] at hkept
  exact hkept.1.symm

/-! ## Row trackers (R342) -/

/-- The lowest count of a row's trackers. -/
def lowCount (l : List RowTrack) (b : Nat) : Nat := l.foldl (fun b t => min b t.count) b

theorem lowCount_le (l : List RowTrack) (b : Nat) : lowCount l b ≤ b ∧ ∀ t ∈ l, lowCount l b ≤ t.count := by
  induction l generalizing b with
  | nil => exact ⟨le_rfl, by simp⟩
  | cons t l ih =>
    obtain ⟨hb, hl⟩ := ih (min b t.count)
    exact ⟨hb.trans (Nat.min_le_left ..), List.forall_mem_cons.2 ⟨hb.trans (Nat.min_le_right ..), hl⟩⟩

theorem lowCount_attained (l : List RowTrack) (b : Nat) : lowCount l b = b ∨ ∃ t ∈ l, lowCount l b = t.count := by
  induction l generalizing b with
  | nil => exact .inl rfl
  | cons t l ih =>
    rcases ih (min b t.count) with h | ⟨u, hu, h⟩
    · rcases min_choice b t.count with hmin | hmin
      · exact .inl (h.trans hmin)
      · exact .inr ⟨t, List.mem_cons_self, h.trans hmin⟩
    · exact .inr ⟨u, List.mem_cons_of_mem _ hu, h⟩

theorem lowCount_head {l : List RowTrack} (hl : l ≠ []) (e : RowTrack) : ∃ t ∈ l, lowCount l (l.headD e).count = t.count := by
  obtain ⟨u, r, rfl⟩ := List.exists_cons_of_ne_nil hl
  rcases lowCount_attained (u :: r) u.count with h | h
  · exact ⟨u, List.mem_cons_self, h⟩
  · exact h

theorem RowTrack.vote_row (t : RowTrack) (o : Nat) : (t.vote o).row = t.row := by
  unfold RowTrack.vote
  split
  · rfl
  · split <;> rfl

theorem trackRow_known {l : List RowTrack} {row : Nat} {t : RowTrack} (origin : Nat) (hfind : l.find? (·.row == row) = some t) :
    trackRow l row origin = ({ t.vote origin with count := t.count + 1 }, l.filter (·.row != row)) := by
  simp only [trackRow, hfind]

theorem trackRow_new {l : List RowTrack} {row : Nat} (origin : Nat) (hfind : l.find? (·.row == row) = none) :
    trackRow l row origin =
      ({ row := row, count := (if l.length < 16 then 0 else lowCount l (l.headD { row := 0, count := 0, candidate := 0 }).count) + 1,
         candidate := origin },
       if l.length < 16 then l
       else l.eraseP (·.count == (if l.length < 16 then 0 else lowCount l (l.headD { row := 0, count := 0, candidate := 0 }).count))) := by
  simp only [trackRow, hfind, lowCount]

theorem trackRow_lowest {l : List RowTrack} {row : Nat} (origin : Nat) (hfind : l.find? (·.row == row) = none) (hfull : l.length = 16) :
    (trackRow l row origin).2.length = 15 ∧ ∀ t ∈ l, (trackRow l row origin).1.count ≤ t.count + 1 := by
  have hnot : ¬l.length < 16 := by omega
  obtain ⟨t, ht, hlow⟩ := lowCount_head (l := l) (by rintro rfl; simp at hfull) { row := 0, count := 0, candidate := 0 }
  simp only [trackRow_new origin hfind, if_neg hnot]
  have herased := List.length_eraseP_of_mem (p := fun u => u.count == lowCount l (l.headD { row := 0, count := 0, candidate := 0 }).count) ht
    (beq_iff_eq.2 hlow.symm)
  exact ⟨herased.trans (by rw [hfull]), fun u hu => Nat.succ_le_succ ((lowCount_le l _).2 u hu)⟩

/-! ## The statements about accesses -/

theorem stackAccesses : Says.StackAccesses := by
  refine ⟨fun s k b d bad hactive hd hbad => ?_, fun d k b hfull => ?_, fun d k b x => ⟨fun h => lateAccess_spec (nextAccess_late h), fun h => ?_⟩,
    fun d k b e hshare hfind => demandWrite_some hshare hfind, serveRow_leaves, fun l row origin => ?_, fun t o => ?_⟩
  · have howedBy : d.owedBy k b = s.dev.owedBy k b := hd ▸ owedBy_answered ..
    have hqueue : (d.stack k).queue = (s.dev.stack k).queue := hd ▸ queue_answered ..
    refine ⟨fun howed => makes_bankTurn hactive hbad fun hanswered => ?_, fun x late howed hnext hturn => makes_bankTurn hactive hbad fun hanswered => ?_,
      fun howed hsome hlow hlate => makes_bankTurn hactive hbad fun hanswered => ?_,
      fun howed hup hnext => makes_bankTurn hactive hbad fun hanswered => ?_⟩ <;> rw [← howedBy] at howed
    · rw [← howedBy]
      exact bankTurn_refreshes hanswered hd howed
    · cases late with
      | true => exact bankTurn_late hanswered hd (Nat.not_le.2 howed) hnext
      | false => exact bankTurn_serves hanswered hd (Nat.not_le.2 howed) hnext (hturn.resolve_left (by decide))
    · exact bankTurn_makesUp hanswered hd (Nat.not_le.2 howed) hlate
        (makesUp_of_lowClass (howedBy ▸ hsome) fun y hy => hlow y (hqueue ▸ hy))
    · exact bankTurn_idle hanswered hd (Nat.not_le.2 howed) hnext hup
  · exact ⟨if_pos (shareLeft_zero hfull), demandWrite_capped (shareLeft_zero hfull)⟩
  · obtain ⟨hfrom, hmax, -⟩ := foldl_preferred d k _ none x (nextAccess_best h)
    exact ⟨hfrom.resolve_left (by simp), hmax⟩
  · refine ⟨fun t hfind => ?_, fun hfind hroom => ?_, fun hfind hfull => trackRow_lowest origin hfind hfull⟩
    · rw [trackRow_known origin hfind]
      exact ⟨(RowTrack.vote_row ..).trans (beq_iff_eq.1 (List.find?_some (p := fun t : RowTrack => t.row == row) hfind)), rfl, rfl⟩
    · simp only [trackRow_new origin hfind, if_pos hroom]
  · refine ⟨fun hsame => ?_, fun hother hzero => ?_, fun hother hvotes => ?_⟩
    · rw [show t.vote o = { t with votes := t.votes + 1 } from if_pos hsame]
      exact ⟨hsame, rfl⟩
    · simp only [RowTrack.vote, if_neg hother, if_pos hzero, and_self]
    · simp only [RowTrack.vote, if_neg hother, if_neg hvotes, and_self]

/-! ## Refresh, temperature, power-down and throttles -/

/-- The trackers and the count of mitigations start anew with the refresh mode in force (R339, R342). -/
def Stack.newWindow (u : Stack) (mode q : Nat) : Stack :=
  { u with trackers := [], mitigated := [], modeNow := mode, marginQ := q, owed := if mode != u.modeNow || q != u.marginQ then [] else u.owed }

theorem makes_refreshWindow {s : State} {k : Nat} (hactive : (s.dev.stack k).state = 2) :
    Makes (.refreshWindow k) s (s.dev.setStack k fun u => u.newWindow (s.dev.fld (memOff k 8) 0 1) (s.dev.age.aim.refQ.getD k 4)) :=
  makes_of_next rfl (if_neg (not_not.2 hactive))

theorem makes_stackTempRead {s : State} {k : Nat} {temp : Option Nat} {e : Dev} (hon : (s.dev.stack k).state = 2 ∨ (s.dev.stack k).state = 3)
    (h : s.dev.stackTemp k temp = e) : Makes (.stackTempRead k temp) s e :=
  makes_of_next rfl ((if_pos (by simpa using hon)).trans h)

section
variable {e t d : Dev} {k : Nat} (ht : t = e.till ((e.stack k).tempAt + msTicks 1)) (hd : d = t.setStack k fun u => { u with tempAt := t.now })
include ht hd

theorem stack_readAt : d.stack k = { e.stack k with tempAt := t.now } := by
  subst hd ht
  exact Dev.stack_setStack_same ..

theorem stackTemp_read (c : Nat) : e.stackTemp k (some c) =
    if thermNext (e.stack k).therm c = (e.stack k).therm
    then d.setStack k fun u => { u with tempC := c, therm := thermNext (e.stack k).therm c, unreadableSince := none }
    else (d.setStack k fun u => { u with tempC := c, therm := thermNext (e.stack k).therm c, unreadableSince := none }).log (0x0203 + 16 * k)
      (code := thermNext (e.stack k).therm c) (arg0 := c) := by
  have hold : (d.stack k).therm = (e.stack k).therm := by rw [stack_readAt ht hd]
  rw [← hold]
  subst hd ht
  rfl

theorem stackTemp_missing (since : Nat) (hsince : since = (e.stack k).unreadableSince.getD d.now) : e.stackTemp k none =
    if since + msTicks 10 ≤ d.now then (d.setStack k fun u => { u with unreadableSince := some since }).failStack k 4
    else d.setStack k fun u => { u with unreadableSince := some since } := by
  have hold : (d.stack k).unreadableSince = (e.stack k).unreadableSince := by rw [stack_readAt ht hd]
  rw [hsince, ← hold]
  subst hd ht
  rfl

/-- A reading that leaves the thermal factor as it is changes the temperature alone. -/
theorem setStack_sameTherm (c n : Nat) (hn : n = (e.stack k).therm) :
    (d.setStack k fun u => { u with tempC := c, therm := n, unreadableSince := none }) =
      d.setStack k fun u => { u with tempC := c, unreadableSince := none } := by
  have hold : (d.stack k).therm = n := by rw [stack_readAt ht hd, hn]
  unfold Dev.setStack
  rw [← hold]

end

/-- The next throttle to end: the least expiry of those that are left and one before them. -/
def leastExpiry (b : Option Nat) (t : Throttle) : Option Nat :=
  some (match b with
    | none => t.expiry
    | some x => min x t.expiry)

theorem foldl_leastExpiry_some (l : List Throttle) (x t : Nat) (hleast : (∀ u ∈ l, t ≤ u.expiry) ∧ t ≤ x)
    (hfound : x = t ∨ ∃ u ∈ l, u.expiry = t) : l.foldl leastExpiry (some x) = some t := by
  induction l generalizing x with
  | nil => simpa using hfound
  | cons u l ih =>
    obtain ⟨hl, hx⟩ := hleast
    obtain ⟨hu, hl⟩ := List.forall_mem_cons.1 hl
    refine ih (min x u.expiry) ⟨hl, Nat.le_min.2 ⟨hx, hu⟩⟩ ?_
    rcases hfound with rfl | ⟨v, hv, rfl⟩
    · exact .inl (Nat.min_eq_left hu)
    · rcases List.mem_cons.1 hv with rfl | hv
      · exact .inl (Nat.min_eq_right hx)
      · exact .inr ⟨v, hv, rfl⟩

theorem foldl_leastExpiry {l : List Throttle} {t : Nat} (hfound : ∃ u ∈ l, u.expiry = t) (hleast : ∀ u ∈ l, t ≤ u.expiry) :
    l.foldl leastExpiry none = some t := by
  obtain ⟨v, hv, hvt⟩ := hfound
  cases l with
  | nil => cases hv
  | cons u l =>
    obtain ⟨hu, hl⟩ := List.forall_mem_cons.1 hleast
    refine foldl_leastExpiry_some l u.expiry t ⟨hl, hu⟩ ?_
    rcases List.mem_cons.1 hv with rfl | hv
    · exact .inl hvt
    · exact .inr ⟨v, hv, hvt⟩

theorem makes_throttleExpiry {s : State} {k t : Nat} (hleast : (s.dev.stack k).throttles.foldl leastExpiry none = some t) :
    Makes (.throttleExpiry k) s
      ((s.dev.till t).setStack k fun u => { u with throttles := u.throttles.filter fun x => t < x.expiry }) := by
  refine makes_of_next rfl ?_
  dsimp only
  split
  · next hnone => exact absurd (hnone.symm.trans hleast) (Option.some_ne_none t).symm
  · next u hu =>
    have htu : u = t := Option.some.inj (hu.symm.trans hleast)
    rw [htu]

theorem thermNext_bounds (t c : Nat) : (95 < c → thermNext t c = 2) ∧ (85 < c → c ≤ 93 → thermNext t c = 1) ∧ (c ≤ 83 → thermNext t c = 0) ∧
    (93 < c → c ≤ 95 → thermNext t c = if t = 2 then 2 else 1) ∧ (83 < c → c ≤ 85 → t ≤ 2 → thermNext t c = min t 1) := by
  simp only [thermNext, Bool.or_eq_true, Bool.and_eq_true, decide_eq_true_eq]
  refine ⟨fun h => ?_, fun h1 h2 => ?_, fun h => ?_, fun h1 h2 => ?_, fun h1 h2 h3 => ?_⟩ <;> repeat' split
  all_goals omega

theorem stackUpkeep : Says.StackUpkeep := by
  refine ⟨fun s k b hactive => ⟨fun hmode => ?_, fun hmode hidle => ?_, fun hmode hbusy => ?_⟩, fun s k hactive => ?_,
    fun s k t d hon ht hd => ⟨fun c hsame => makes_stackTempRead hon ?_, fun c n hn hnew => makes_stackTempRead hon ?_,
      fun since hsince => ⟨fun hlong => makes_stackTempRead hon ?_, fun hshort => makes_stackTempRead hon ?_⟩⟩,
    thermNext_bounds, fun s k r hactive hon hr howed hqueue => ?_, fun s k t hfound hleast => ?_⟩
  · exact makes_of_next rfl ((if_pos hactive).trans (if_pos hmode))
  · refine makes_of_next rfl ((if_pos hactive).trans ((if_neg hmode).trans (if_neg ?_)))
    rw [hidle]
    exact Bool.false_ne_true
  · have hdue : ∀ {e : Dev}, s.dev.refreshDue k b = e → Makes (.refreshDue k b) s e := fun he =>
      makes_of_next rfl ((if_pos hactive).trans he)
    by_cases hodd : s.dev.draw.1 % 2 = 1
    · refine .inr (hdue ((if_neg hmode).trans (if_pos ?_)))
      rw [hbusy, Bool.true_and]
      exact decide_eq_true hodd
    · refine .inl (hdue ((if_neg hmode).trans (if_neg ?_)))
      rw [hbusy, Bool.true_and, decide_eq_true_eq]
      exact hodd
  · refine ⟨_, makes_refreshWindow hactive, ?_⟩
    rw [Dev.stack_setStack_same]
    exact ⟨rfl, rfl, rfl, rfl, fun j hj => (Dev.stack_setStack ..).trans (if_neg hj), rfl⟩
  · rw [stackTemp_read ht hd, if_pos hsame, setStack_sameTherm ht hd c _ hsame]
  · subst hn
    rw [stackTemp_read ht hd, if_neg hnew]
  · rw [stackTemp_missing ht hd since hsince, if_pos hlong]
  · rw [stackTemp_missing ht hd since hsince, if_neg (Nat.not_le.2 hshort)]
  · refine makes_of_next rfl (if_neg ?_)
    simp only [Bool.or_eq_true, decide_eq_true_eq, List.any_eq_true, Bool.and_eq_true, beq_iff_eq, bne_iff_ne, not_or, not_exists, not_and]
    exact ⟨⟨⟨⟨not_not.2 hactive, hon⟩, Nat.not_le.2 hr⟩, hqueue⟩, fun e he hrank => not_not.2 (howed e he hrank)⟩
  · exact makes_throttleExpiry (foldl_leastExpiry hfound hleast)

/-- Settles O39: each turn of a bank is one of five, by what it owes and what waits; the trackers' lowest count is attained, and the
earliest throttle is the least of all. -/
theorem stackControllers : Obligations.StackControllers := ⟨stackAccesses, stackUpkeep⟩

end Sys2Proof.Machine

/-! Lookups, reduces and the stock list (SPEC 09_lookup_decode.md, R216 to R229). -/

namespace Sys2Proof.Machine

/-! ## The start of a lookup -/

section
variable {s : State} {m : Msg} {d : Dev} (htakes : takes s.dev m)
include htakes

theorem makes_lookup (hop : m.opcode = 0x30) (h : (s.dev.taken m).lookupInline m = d) : Makes (.lookup m) s d :=
  makes_of_next rfl ((if_neg (not_not.2 hop)).trans ((arrive_takes _ _ _ htakes).trans h))

theorem makes_lookupRef (hop : m.opcode = 0x31) (h : (s.dev.taken m).lookupByRef m = d) : Makes (.lookupRef m) s d :=
  makes_of_next rfl ((if_neg (not_not.2 hop)).trans ((arrive_takes _ _ _ htakes).trans h))

theorem makes_reduce (hop : m.opcode = 0x32) (h : (s.dev.taken m).reduceMsg m = d) : Makes (.reduce m) s d :=
  makes_of_next rfl ((if_neg (not_not.2 hop)).trans ((arrive_takes _ _ _ htakes).trans h))

end

/-- An inline list without weights: what a payload without room is answered, and the lookup that begins else. -/
theorem lookupInline_plain {d : Dev} {m : Msg} {room : Nat} (hpool : field m.data 4 1 ≠ 3) (hroom : room = (m.len + 1 - 16) / 4) :
    d.lookupInline m = if room = 0 then d.refuse m stDenied (lookDetail 3 0x22)
      else d.lookStart (.fab m) m.addr (lookParams m.data room)
        ((List.range (lookParams m.data room).count).map fun i => field m.data (16 + 4 * i) 4) [] none 0 := by
  subst hroom
  simp only [Dev.lookupInline, beq_eq_false_iff_ne.2 hpool, Bool.false_eq_true, if_false]

/-- An inline list with weights, an index and a weight to an entry. -/
theorem lookupInline_weighted {d : Dev} {m : Msg} {room : Nat} (hpool : field m.data 4 1 = 3) (hroom : room = (m.len + 1 - 16) / 8) :
    d.lookupInline m = if room = 0 then d.refuse m stDenied (lookDetail 3 0x22)
      else d.lookStart (.fab m) m.addr (lookParams m.data room)
        ((List.range (lookParams m.data room).count).map fun i => field m.data (16 + 8 * i) 4)
        ((List.range (lookParams m.data room).count).map fun i => BitVec.ofNat 32 (field m.data (16 + (8 * i + 4)) 4)) none 0 := by
  subst hroom
  simp only [Dev.lookupInline, hpool, beq_self_eq_true, if_true]

section
variable {d e : Dev} {c : Caller} {base out : Nat} {p : LookParams} {idx : List Nat} {w : List (BitVec 32)} {lists : Option (Nat × Nat × Nat)}

/-- The table or a list of a lookup is out of line (R220). -/
def lookMisaligned (base : Nat) (p : LookParams) (lists : Option (Nat × Nat × Nat)) : Bool :=
  base % 16 ≠ 0 || match lists with
    | some (_, ia, wa) => ia % 4 != 0 || (p.pool == 3 && wa % 4 != 0)
    | none => false

theorem lookMisaligned_iff : lookMisaligned base p lists = true ↔ ¬lookAligned base p lists := by
  rcases lists with _ | ⟨n, ia, wa⟩
  · simp [lookMisaligned, lookAligned]
  · simp only [lookMisaligned, lookAligned, Bool.or_eq_true, decide_eq_true_eq, bne_iff_ne, Bool.and_eq_true, beq_iff_eq, Option.some.injEq,
      Prod.mk.injEq]
    constructor
    · rintro (hbase | hindex | ⟨hpool, hweight⟩) ⟨hb, hl⟩
      · exact hbase hb
      · exact hindex (hl n ia wa ⟨rfl, rfl, rfl⟩).1
      · exact hweight ((hl n ia wa ⟨rfl, rfl, rfl⟩).2 hpool)
    · intro hnot
      by_contra hall
      simp only [not_or, not_and, ne_eq, not_not] at hall
      obtain ⟨hbase, hindex, hweight⟩ := hall
      exact hnot ⟨hbase, fun _ _ _ ⟨_, hia, hwa⟩ => by subst hia hwa; exact ⟨hindex, hweight⟩⟩

variable (he : e = (List.range p.clamps).foldl (fun d _ => d.clamped 6 0) d)
include he

theorem lookStart_misaligned (hbad : ¬lookAligned base p lists) :
    d.lookStart c base p idx w lists out = e.lookFail c stDenied (lookDetail 3 0x20) 0 := by
  subst he
  exact if_pos (lookMisaligned_iff.2 hbad)

theorem lookStart_full (hgood : lookAligned base p lists) (hfull : ¬gruTakes e c) :
    d.lookStart c base p idx w lists out = (e.hint.2.bump (0x280100 + 4 * e.gruFor c) 0).lookFail c stRetry e.hint.1 0 := by
  subst he
  refine (if_neg (mt lookMisaligned_iff.1 (not_not.2 hgood))).trans (if_pos ?_)
  rw [Bool.or_eq_true, decide_eq_true_eq]
  by_contra hroom
  obtain ⟨hup, hroom⟩ := not_or.1 hroom
  exact hfull ⟨Bool.not_eq_true _ ▸ hup, Nat.not_le.1 hroom⟩

theorem lookStart_begins (hgood : lookAligned base p lists) (htakes : gruTakes e c) :
    d.lookStart c base p idx w lists out = if lists.isSome
      then (lookupBegun e (lookupOf e c base p idx w lists out)).readLists e.gru.nextLookup (lookupOf e c base p idx w lists out)
      else lookupBegun e (lookupOf e c base p idx w lists out) := by
  subst he
  refine (if_neg (mt lookMisaligned_iff.1 (not_not.2 hgood))).trans (if_neg ?_)
  obtain ⟨hup, hroom⟩ := htakes
  rw [hup, Bool.false_or, decide_eq_true_eq]
  exact Nat.not_le.2 hroom

end

/-! ## Rows and lists as they come back -/

section
variable {s : State} {k pos : Nat} {l : Lookup} (hl : tget s.dev.gru.lookups k = some l)
include hl

theorem makes_gruRowReadAnswer (hlists : l.lists = none) (hleft : nmem l.left pos = true) (hfresh : ∀ x ∈ l.reissue, x.1 ≠ pos)
    (hissued : s.dev.rowIssued k pos l = true) : Makes (.gruRowReadAnswer k pos) s (s.dev.rowRead k pos l) := by
  have hnone : l.reissue.any (·.1 == pos) = false := List.any_eq_false.2 fun x hx => by simpa using hfresh x hx
  refine makes_of_next rfl ?_
  simp only [hl, hleft, hnone, hlists, hissued, Bool.not_false, Option.isNone_none, Bool.and_self, if_true]

theorem makes_gruReissue_row {t : Nat} (hlists : l.lists = none) (hfind : l.reissue.find? (·.1 == pos) = some (pos, t)) :
    Makes (.gruReissue k pos) s ((s.dev.till t).rowRead k pos l) := by
  refine makes_of_next rfl ?_
  simp only [hl, hlists, hfind, Option.isSome_none, Bool.false_eq_true, if_false]

theorem makes_gruReissue_lists (hlists : l.lists ≠ none) : Makes (.gruReissue k pos) s ((s.dev.till l.listsAt).readLists k l) := by
  refine makes_of_next rfl ?_
  simp only [hl, Option.isSome_iff_ne_none.2 hlists, if_true]

end

section
variable {d : Dev} {k pos : Nat} {l : Lookup}

theorem rowRead_pastEnd (hend : 2 ^ 48 < l.base + l.idx.getD pos 0 * l.stride + l.rowBytes) (hfirst : l.failed = none) :
    d.rowRead k pos l = (d.setLookup k { l with
      left := l.left.erase pos, reissue := l.reissue.filter (·.1 != pos), failed := some (pos, stDenied) }).lookStep k := by
  simp only [Dev.rowRead, if_pos hend, hfirst]

variable {e : Dev} (hend : ¬2 ^ 48 < l.base + l.idx.getD pos 0 * l.stride + l.rowBytes)
include hend

theorem rowRead_bytes {b : List Byte}
    (hread : d.readRun (some l.node) (l.base + l.idx.getD pos 0 * l.stride) l.rowBytes true = (.ok b, e)) :
    d.rowRead k pos l = (e.setLookup k { l with
      left := l.left.erase pos, reissue := l.reissue.filter (·.1 != pos),
      acc := poolRow l.pool (if l.seen = 0 then poolZero l.pool (rowLanes l.inFmt l.rowBytes b).length else l.acc)
        (rowLanes l.inFmt l.rowBytes b) (l.weights.getD pos 0#32),
      seen := l.seen + 1 }).lookStep k := by
  simp only [Dev.rowRead, if_neg hend, hread]

theorem rowRead_refused {st det : Nat} (hfirst : l.failed = none)
    (hread : d.readRun (some l.node) (l.base + l.idx.getD pos 0 * l.stride) l.rowBytes true = (.no st det, e)) :
    d.rowRead k pos l = (e.setLookup k { l with
      left := l.left.erase pos, reissue := l.reissue.filter (·.1 != pos), failed := some (pos, st) }).lookStep k := by
  simp only [Dev.rowRead, if_neg hend, hread, hfirst]

theorem rowRead_again {h : Nat} (hread : d.readRun (some l.node) (l.base + l.idx.getD pos 0 * l.stride) l.rowBytes true = (.again h, e)) :
    d.rowRead k pos l = if (linesOf (l.base + l.idx.getD pos 0 * l.stride) l.rowBytes).any e.lineMissing
      then ((forEach ((linesOf (l.base + l.idx.getD pos 0 * l.stride) l.rowBytes).filter e.lineMissing)
        (fun x d => (d.lineRead (some l.node) x true).2) e).setLookup k { l with
          left := l.left.erase pos, reissue := l.reissue.filter (·.1 != pos), missHint := some (max h (l.missHint.getD 0)) }).lookStep k
      else e.setLookup k { l with reissue := l.reissue.filter (·.1 != pos) ++ [(pos, e.now + hintTicks h)] } := by
  simp only [Dev.rowRead, if_neg hend, hread]

end

/-! ## The end of a lookup -/

section
variable {d : Dev} {k : Nat} {l : Lookup} (hl : tget d.gru.lookups k = some l)
include hl

theorem lookStep_failed {f : Nat × Nat} (hfailed : l.failed = some f) (hbefore : ∀ p ∈ l.left, f.1 ≤ p) :
    d.lookStep k = (d.lookDrop k l false).lookFail l.caller f.2 (lookDetail 0 f.1) l.seen := by
  have hnone : l.left.any (fun p => decide (p < f.1)) = false :=
    List.any_eq_false.2 fun p hp => by simpa using hbefore p hp
  simp only [Dev.lookStep, hl, hfailed, hnone, Bool.not_false, if_true]

variable (hgood : l.failed = none) (hleft : l.left = []) (hlists : l.lists = none)
include hgood hleft hlists

theorem lookStep_missed {h : Nat} (hmiss : l.missHint = some h) :
    d.lookStep k = (d.lookDrop k l true).lookFail l.caller stRetry h l.seen := by
  simp only [Dev.lookStep, hl, hgood, hleft, hlists, hmiss, List.isEmpty_nil, Bool.not_true, Option.isSome_none, Bool.or_self,
    Bool.false_eq_true, if_false]

theorem lookStep_output {ring idx : Nat} (hmiss : l.missHint = none) (hcaller : l.caller = .desc ring idx) :
    d.lookStep k = (d.lookDrop k l false).output (.desc ring idx) l.outAddr (poolBytes l.outFmt (poolEndLanes l.pool l.idx.length l.acc)) stDone 0
      (poolBytes l.outFmt (poolEndLanes l.pool l.idx.length l.acc)).length l.seen (resUnit := 1) := by
  simp only [Dev.lookStep, hl, hgood, hleft, hlists, hmiss, hcaller, List.isEmpty_nil, Bool.not_true, Option.isSome_none, Bool.or_self,
    Bool.false_eq_true, if_false]

theorem lookStep_answer {m : Msg} (hmiss : l.missHint = none) (hcaller : l.caller = .fab m) :
    d.lookStep k = (d.lookDrop k l false).lookAnswer m (poolBytes l.outFmt (poolEndLanes l.pool l.idx.length l.acc)) := by
  simp only [Dev.lookStep, hl, hgood, hleft, hlists, hmiss, hcaller, List.isEmpty_nil, Bool.not_true, Option.isSome_none, Bool.or_self,
    Bool.false_eq_true, if_false]

end

theorem lookups : Says.Lookups := by
  refine ⟨fun s m p htakes => ⟨fun room hop hpool hroom hp => ?_, fun room hop hpool hroom hp => ?_,
      fun hop hshort => makes_lookupRef htakes hop (if_pos hshort),
      fun hop hlong hp => makes_lookupRef htakes hop ?_⟩,
    fun s ring idx b p hp hready hadmits => ?_,
    fun d e c base out p idx w lists he => ⟨fun hbad => lookStart_misaligned he hbad, fun hgood hfull => lookStart_full he hgood hfull,
      fun hgood htakes hnone => ?_, fun hgood htakes hsome => ?_⟩,
    fun s k pos l hl => ⟨fun hlists hleft hfresh hissued => makes_gruRowReadAnswer hl hlists hleft hfresh hissued,
      fun t hlists hfind => makes_gruReissue_row hl hlists hfind, fun hlists => makes_gruReissue_lists hl hlists⟩,
    fun d k pos l done hdone => ⟨fun hend hfirst => ?_, fun hend => ?_⟩,
    fun d k l hl => ⟨fun f hfailed hbefore => lookStep_failed hl hfailed hbefore,
      fun h hgood hleft hlists hmiss => lookStep_missed hl hgood hleft hlists hmiss,
      fun ring idx hgood hleft hlists hmiss hcaller => hcaller ▸ lookStep_output hl hgood hleft hlists hmiss hcaller,
      fun m hgood hleft hlists hmiss hcaller => lookStep_answer hl hgood hleft hlists hmiss hcaller⟩⟩
  · subst hp
    exact ⟨fun hnone => makes_lookup htakes hop ((lookupInline_plain hpool hroom).trans (if_pos hnone)),
      fun hsome => makes_lookup htakes hop ((lookupInline_plain hpool hroom).trans (if_neg hsome))⟩
  · subst hp
    exact ⟨fun hnone => makes_lookup htakes hop ((lookupInline_weighted hpool hroom).trans (if_pos hnone)),
      fun hsome => makes_lookup htakes hop ((lookupInline_weighted hpool hroom).trans (if_neg hsome))⟩
  · subst hp
    exact if_neg (Nat.not_lt.2 hlong)
  · subst hp
    exact makes_gatedDesc _ rfl hready hadmits rfl
  · subst hnone
    exact lookStart_begins he hgood htakes
  · exact (lookStart_begins he hgood htakes).trans (if_pos (Option.isSome_iff_ne_none.2 hsome))
  · subst hdone
    exact rowRead_pastEnd hend hfirst
  · subst hdone
    have hin := Nat.not_lt.2 hend
    exact ⟨fun b e hread => rowRead_bytes hin hread, fun st det e hread hfirst => rowRead_refused hin hfirst hread,
      fun h e hread hthere => (rowRead_again hin hread).trans (if_neg (by rw [hthere]; decide)),
      fun h e f hread hmissing hf => hf ▸ (rowRead_again hin hread).trans (if_pos hmissing)⟩

/-! ## REDUCE -/

section
variable {d : Dev} {m : Msg} (hop : m.opcode = 0x32)
include hop

theorem deny_reduce (det : Nat) : d.deny m det = d.refuse m stDenied det := deny_of_not_bulk d m det (by omega)

theorem perform_reduce (snap : Tbl (List Byte)) : d.perform m snap = (d.countReq m).doReduce m := by
  simp [Dev.perform, hop, isRead, isAtomic]

variable {e : Dev} (he : e = (List.range (reduceClamps (field m.data 0 1) (field m.data 2 1))).foldl (fun d _ => d.clamped 6 0) d)
include he

theorem reduceMsg_partElement (hlen : m.len + 1 ≤ 8 ∨ (m.len + 1 - 8) % (fmtBits (reduceVec m) / 8) ≠ 0) :
    d.reduceMsg m = e.refuse m stDenied 0x22 := by
  subst he
  exact (if_pos (by simpa using hlen)).trans (deny_reduce hop _)

theorem reduceMsg_checked (hlong : 8 < m.len + 1) (hwhole : (m.len + 1 - 8) % (fmtBits (reduceVec m) / 8) = 0) :
    d.reduceMsg m = if m.addr % (fmtBits (reduceRow m) / 8) ≠ 0 then e.refuse m stDenied 0x20
      else if spanBad m = true then e.refuse m stDenied 0x24 else if e.resetting 9 = true then e.retry m else e.accept m false := by
  subst he
  rw [← deny_reduce hop, ← deny_reduce hop]
  refine if_neg ?_
  rw [Bool.or_eq_true, decide_eq_true_eq, decide_eq_true_eq, not_or]
  exact ⟨Nat.not_le.2 hlong, not_not.2 hwhole⟩

end

theorem doReduce_unready {d : Dev} {m : Msg} (hunready : d.unready (reqLines m) ≠ []) :
    d.doReduce m = (d.makeReady (reqLines m)).retry m := if_pos (by simpa using hunready)

section
variable {d e : Dev} {m : Msg} (hready : d.unready (reqLines m) = [])
include hready

theorem doReduce_done (hlines : d.reduceLines m (gruOfHome (homeOf (m.addr / 64))) (reqLines m) = (.done, e)) :
    d.doReduce m = e.reply d.mir.unacked.length m stDone 0 0 none := by
  simp only [Dev.doReduce, hready, List.isEmpty_nil, Bool.not_true, Bool.false_eq_true, if_false, hlines]

theorem doReduce_poisoned (hlines : d.reduceLines m (gruOfHome (homeOf (m.addr / 64))) (reqLines m) = (.poisoned, e)) :
    d.doReduce m = e.reply d.mir.unacked.length m stPoisoned 0 0 none := by
  simp only [Dev.doReduce, hready, List.isEmpty_nil, Bool.not_true, Bool.false_eq_true, if_false, hlines]

end

/-! ## REDUCE by descriptor -/

@[simp] theorem begun_buf (d : Dev) (ring idx r i : Nat) :
    ((d.begun ring idx).startedAt r i).map (·.buf) = (d.startedAt r i).map (·.buf) := by
  rw [begun_startedAt, Option.map_map]
  refine Option.map_congr fun x _ => ?_
  simp only [Function.comp]
  split <;> rfl

@[simp] theorem begun_done (d : Dev) (ring idx r i : Nat) :
    ((d.begun ring idx).startedAt r i).map (·.done) = (d.startedAt r i).map (·.done) := by
  rw [begun_startedAt, Option.map_map]
  refine Option.map_congr fun x _ => ?_
  simp only [Function.comp]
  split <;> rfl

/-- What a REDUCE by descriptor comes to whose vector is at hand: its first check that fails, or its lines. -/
def Dev.reduceChecked (d : Dev) (ring idx node : Nat) (m : Msg) (v : List Byte) : Dev :=
  match d.reduceCheck node (reqLines m) with
  | (none, d) => d.reduceGo ring idx m v 0 (reqLines m)
  | (some (.no st det), d) => d.completeDesc ring idx st det 0 0
  | (some _, d) => (d.setDone ring idx 0 v).unclaim ring idx

theorem makes_reduceDescriptor {s : State} {ring idx n : Nat} {b vec v : List Byte} {m : Msg} {e f : Dev} {x : Started}
    (hready : s.dev.ready ring idx 0x41 b) (hadmits : admits s.dev ring true [6]) (hx : s.dev.startedAt ring idx = some x)
    (hbuf : x.buf = []) (hdone : x.done = 0)
    (hn : n = clampGrain (fmtBits (reduceFmt (field b 18 1)) / 8) 1 1048576 (field b 20 4)) (hup : s.dev.resetting 9 = false)
    (hvec : (nodePort (s.dev.ringOwner ring)).isSome = true ∧ v = slice vec 0 n ∧ e = s.dev.begun ring idx ∨
      nodePort (s.dev.ringOwner ring) = none ∧
        (s.dev.begun ring idx).readRun (some (s.dev.ringOwner ring)) (field b 24 8) n = (.ok v, e))
    (hm : m = reduceOf (s.dev.ringOwner ring) b v) (hwhole : n % (fmtBits (reduceFmt (field b 18 1)) / 8) = 0) {g : Dev}
    (hg : g = (List.range (reduceClamps (field b 16 1) (field b 18 1) + b2n (n != field b 20 4))).foldl (fun d _ => d.clamped 6 0) e)
    (h : (if m.addr % (fmtBits (reduceRow m) / 8) ≠ 0 then g.completeDesc ring idx stDenied 0x20 0 0
      else if spanBad m = true then g.completeDesc ring idx stDenied 0x24 0 0
      else g.reduceChecked ring idx (s.dev.ringOwner ring) m v) = f) : Makes (.reduceDescriptor ring idx vec) s f := by
  have hup' : (s.dev.begun ring idx).resetting 9 = false := hup
  subst hm hn hg
  refine makes_gatedDesc _ rfl hready hadmits ((if_neg (by simp [hup'])).trans ?_)
  rcases hvec with ⟨hhost, rfl, rfl⟩ | ⟨hclient, hread⟩
  · simp only [begun_buf, begun_done, begun_ringOwner, hx, Option.map_some, Option.getD_some, hbuf, hdone, List.isEmpty_nil, Bool.not_true,
      Bool.false_eq_true, if_false, hhost, if_true, hwhole, ne_eq, not_true_eq_false] at h ⊢
    exact h
  · simp only [begun_buf, begun_done, begun_ringOwner, hx, Option.map_some, Option.getD_some, hbuf, hdone, List.isEmpty_nil, Bool.not_true,
      Bool.false_eq_true, if_false, hclient, Option.isSome_none, hread, if_true, hwhole, ne_eq, not_true_eq_false] at h ⊢
    exact h

theorem reducesAndStock : Says.ReducesAndStock := by
  refine ⟨fun s m e htakes hop he => ⟨fun hlen => makes_reduce htakes hop (reduceMsg_partElement hop he hlen), fun hlong hwhole => ?_⟩,
    fun d m hop => ⟨doReduce_unready, fun hready => ⟨fun e hlines => doReduce_done hready hlines, fun e hlines => doReduce_poisoned hready hlines⟩⟩,
    fun s ring idx n b vec v m e x hready hadmits hx hbuf hdone hn hup hvec hm hwhole => ?_,
    fun d ring idx n line m v rest => ⟨rfl, fun hblocked => if_pos hblocked, fun x hfree hheld => ?_, fun hfree hunheld =>
      ⟨fun e hlines => ?_, fun e hlines => ?_⟩⟩,
    fun s ring idx n b l e hready hadmits hn hl he => ?_⟩
  · have hacts : ∀ {f : Dev}, _ = f → Makes (.reduce m) s f := fun h => makes_reduce htakes hop ((reduceMsg_checked hop he hlong hwhole).trans h)
    have hpassed : m.addr % (fmtBits (reduceRow m) / 8) = 0 → spanBad m = false → ∀ {f : Dev},
        (if e.resetting 9 = true then e.retry m else e.accept m false) = f → Makes (.reduce m) s f := fun haligned hspan f h =>
      hacts ((if_neg (not_not.2 haligned)).trans ((if_neg (by simp [hspan])).trans h))
    refine ⟨fun hbad => hacts (if_pos hbad), fun haligned hspan => hacts ((if_neg (not_not.2 haligned)).trans (if_pos hspan)),
      fun haligned hspan hreset => hpassed haligned hspan (if_pos hreset),
      fun haligned hspan hup hgo => hpassed haligned hspan ((if_neg (by simp [hup])).trans (accept_goesOn e m hgo)),
      fun haligned hspan hup hkept => hpassed haligned hspan ((if_neg (by simp [hup])).trans ?_)⟩
    rw [accept_unkept e m hkept (by omega), perform_reduce hop]
  · have hacts : ∀ {f : Dev}, _ = f → Makes (.reduceDescriptor ring idx vec) s f :=
      makes_reduceDescriptor hready hadmits hx hbuf hdone hn hup hvec hm hwhole rfl
    refine ⟨fun hbad => hacts (if_pos hbad), fun haligned hspan => hacts ((if_neg (not_not.2 haligned)).trans (if_pos hspan)),
      fun haligned hspan => ⟨fun g' hcheck => hacts ((if_neg (not_not.2 haligned)).trans ((if_neg (by simp [hspan])).trans ?_)),
        fun st det g' hcheck => hacts ((if_neg (not_not.2 haligned)).trans ((if_neg (by simp [hspan])).trans ?_))⟩⟩
    · simp only [Dev.reduceChecked, hcheck]
    · simp only [Dev.reduceChecked, hcheck]
  · simp only [Dev.reduceGo, hfree, hheld, Bool.false_eq_true, if_false]
  · simp only [Dev.reduceGo, hfree, hunheld, Bool.false_eq_true, if_false, hlines]
  · simp only [Dev.reduceGo, hfree, hunheld, Bool.false_eq_true, if_false, hlines]
  · subst hl he hn
    exact makes_gatedDesc _ rfl hready hadmits rfl

/-- Settles O26: a lookup as it begins, as its rows come in and as it ends; a REDUCE by its checks and its lines. -/
theorem lookupsAndReduces : Obligations.LookupsAndReduces := ⟨lookups, reducesAndStock⟩

end Sys2Proof.Machine

/-! Drives and their commands (SPEC 11_far_tier.md, R255 to R269, R312). -/

namespace Sys2Proof.Machine

/-! ## The descriptors of the far tier -/

/-- A descriptor that passes the gate of the far tier performs its operation; a client's, or one without the lease where it is needed, does not
(R268). -/
theorem makes_farDesc {i : Instr} {s : State} {ring idx op : Nat} {b : List Byte} {lease : Bool} {e : Dev} (act : List Byte → Dev → Dev)
    (harm : exec i s = .next { s with dev := s.dev.farDesc ring idx op lease act }) (hready : s.dev.ready ring idx op b)
    (hadmits : admits s.dev ring false [7])
    (h : (if (nodePort (s.dev.ringOwner ring)).isNone then (s.dev.begun ring idx).completeDesc ring idx stDenied 0x50 0 0
      else if lease && !s.dev.hasLease (s.dev.ringOwner ring) then (s.dev.begun ring idx).completeDesc ring idx stDenied 8 0 0
      else act b (s.dev.begun ring idx)) = e) : Makes i s e :=
  makes_gatedDesc (fun b d => if (nodePort (d.ringOwner ring)).isNone then d.completeDesc ring idx stDenied 0x50 0 0
    else if lease && !d.hasLease (d.ringOwner ring) then d.completeDesc ring idx stDenied 8 0 0 else act b d) harm hready hadmits h

theorem makes_farReady {i : Instr} {s : State} {ring idx op : Nat} {b : List Byte} {lease : Bool} {e : Dev} (act : List Byte → Dev → Dev)
    (harm : exec i s = .next { s with dev := s.dev.farDesc ring idx op lease act }) (hfar : farReady s.dev ring idx op b lease)
    (h : act b (s.dev.begun ring idx) = e) : Makes i s e := by
  obtain ⟨hready, hadmits, hhost, hlease⟩ := hfar
  refine makes_farDesc act harm hready hadmits ((if_neg ?_).trans ((if_neg ?_).trans h))
  · rw [Option.isNone_iff_eq_none]
    exact Option.isSome_iff_ne_none.1 hhost
  · rw [Bool.and_eq_true, Bool.not_eq_true']
    rintro ⟨hneeds, hnone⟩
    rw [hlease hneeds] at hnone
    cases hnone

@[simp] theorem clamped_drive (d : Dev) (g p n : Nat) : (d.clamped g p).drive n = d.drive n := rfl

/-! ## Discovery -/

theorem makes_presenceChange {s : State} {p : Nat} {partner : Option (Nat × Nat)} {found : List DriveInfo} {l : List DriveInfo}
    (hserves : s.dev.rootServes p = true) (hl : l = if partner.isSome then found else []) :
    Makes (.presenceChange p partner found) s
      (forEach (l.filter fun i => !((s.dev.far.drives.filter (·.2.port == p)).any fun e => e.2.rid == i.rid && e.2.serial == i.serial))
        (fun i d => d.driveSeen p i)
        (forEach ((s.dev.far.drives.filter (·.2.port == p)).filter fun e => !e.2.present && l.any fun i => e.2.rid == i.rid && e.2.serial == i.serial)
          (fun e d => d.drivePresent e.1 true)
          (forEach ((s.dev.far.drives.filter (·.2.port == p)).filter fun e => e.2.present && !(l.any fun i => e.2.rid == i.rid && e.2.serial == i.serial))
            (fun e d => d.driveGone e.1 e.2) (s.dev.dnTrain p partner)))) := by
  subst hl
  exact makes_of_next rfl (if_neg (by simp [hserves]))

theorem driveGone_found {d : Dev} {k : Nat} {v : Drive} (hstate : v.state = 1) : d.driveGone k v = d.driveAbsent k := by
  simp [Dev.driveGone, hstate]

theorem driveGone_adopted {d : Dev} {k : Nat} {v : Drive} (hstate : v.state = 3 ∨ v.state = 4) :
    d.driveGone k v = (d.drivePresent k false).driveFailed k := if_pos (by simpa using hstate)

/-! ## Adopting, retiring and asking -/

section
variable {s : State} {ring idx : Nat} {b : List Byte} {e : Dev}

theorem makes_driveList {len : Nat} {l : List (Nat × Drive)} (hfar : farReady s.dev ring idx 0x50 b false) (hlen : len = clampGrain 64 64 4096 (field b 48 4))
    (he : e = if len = field b 48 4 then s.dev.begun ring idx else (s.dev.begun ring idx).clamped 8 0) (hl : l = e.far.drives.take (len / 64)) :
    Makes (.driveList ring idx) s (e.output (.desc ring idx) (dOutAddr b) ((l.map fun x => e.driveRecord x.1 x.2).flatten) stDone 0 l.length
      l.length (unit := 64)) := by
  subst hl he hlen
  exact makes_farReady _ rfl hfar rfl

section
variable (hfar : farReady s.dev ring idx 0x51 b true)
include hfar

theorem makes_driveAdopt_unseen
    (hfind : (tfind (s.dev.begun ring idx).far.drives fun _ v => v.port == field b 8 1 % 4 && v.rid == field b 10 2 && v.present) = none) :
    Completes (.driveAdopt ring idx) s ring idx (s.dev.begun ring idx) stDenied 0x60 0 0 := by
  refine makes_farReady _ rfl hfar ?_
  simp only [hfind]

variable {k : Nat} {v : Drive}
  (hfind : (tfind (s.dev.begun ring idx).far.drives fun _ v => v.port == field b 8 1 % 4 && v.rid == field b 10 2 && v.present) = some (k, v))
include hfind

theorem makes_driveAdopt_refused {step : Nat}
    (hrefused : (s.dev.begun ring idx).adoptRefused k v (field b 12 1 % 32) (field b 16 4) = some step) :
    Completes (.driveAdopt ring idx) s ring idx (s.dev.begun ring idx) stDenied (0x70 + step) 0 0 := by
  refine makes_farReady _ rfl hfar ?_
  simp only [hfind, hrefused]

theorem makes_driveAdopt {x : NsInfo} {o : FarOp}
    (hpasses : (s.dev.begun ring idx).adoptRefused k v (field b 12 1 % 32) (field b 16 4) = none) (hspace : v.space (field b 16 4) = some x)
    (he : e = (((s.dev.begun ring idx).deleteQueues k).driveAt k (field b 12 1 % 32) x).driveEvent (field b 12 1 % 32))
    (ho : o = { ring := ring, idx := idx, drive := some (field b 12 1 % 32), adopt := true, stage := 3 }) :
    Makes (.driveAdopt ring idx) s
      (({ e with far := { e.far with ops := e.far.ops ++ [o] } } : Dev).opIssue o (field b 12 1 % 32) 3 524288) := by
  subst he ho
  refine makes_farReady _ rfl hfar ?_
  simp only [hfind, hpasses, hspace]

end

section
variable (hfar : farReady s.dev ring idx 0x52 b true)
include hfar

theorem makes_driveRetire_unknown (hnone : s.dev.drive (field b 12 1 % 32) = none) :
    Completes (.driveRetire ring idx) s ring idx (s.dev.begun ring idx) stDenied 0x60 0 0 := by
  have hnone' : (s.dev.begun ring idx).drive (field b 12 1 % 32) = none := hnone
  refine makes_farReady _ rfl hfar ?_
  simp only [hnone']

variable {v : Drive} (hv : s.dev.drive (field b 12 1 % 32) = some v)
include hv

/-- DRIVE_RETIRE by the state its drive is in (R266, R267). -/
theorem makes_driveRetire {f : Dev}
    (h : (if v.state = 5 then (s.dev.begun ring idx).retireFailed ring idx (field b 12 1 % 32)
      else if v.state ≠ 3 then (s.dev.begun ring idx).completeDesc ring idx stDenied 9 0 0 else e) = f)
    (he : ∀ g l o, g = (s.dev.begun ring idx).driveState (field b 12 1 % 32) 4 →
      l = (g.far.cached.filter fun x => x.2.dirty && 0 < x.2.state && nmem (g.emtOf (x.1 / 512)).drives (field b 12 1 % 32)) →
      o = ({ ring := ring, idx := idx, drive := some (field b 12 1 % 32), skeins := l.map (·.1) } : FarOp) →
      (forEach (l.filter (·.2.state == 1)) (fun x d => d.writeBackStart x.1 3)
        ({ g with far := { g.far with ops := g.far.ops ++ [o] } } : Dev)).farGo = e) : Makes (.driveRetire ring idx) s f := by
  have hv' : (s.dev.begun ring idx).drive (field b 12 1 % 32) = some v := hv
  rw [← he _ _ _ rfl rfl rfl] at h
  refine makes_farReady _ rfl hfar ?_
  simp only [hv']
  exact h

theorem makes_driveRetire_failed {f : Dev} (hstate : v.state = 5)
    (h : (s.dev.begun ring idx).retireFailed ring idx (field b 12 1 % 32) = f) : Makes (.driveRetire ring idx) s f :=
  makes_driveRetire hfar hv ((if_pos hstate).trans h) fun _ _ _ hg hl ho => by subst ho hl hg; rfl

theorem makes_driveRetire_inactive (hfailed : v.state ≠ 5) (hactive : v.state ≠ 3) :
    Completes (.driveRetire ring idx) s ring idx (s.dev.begun ring idx) stDenied 9 0 0 :=
  makes_driveRetire hfar hv ((if_neg hfailed).trans (if_pos hactive)) fun _ _ _ hg hl ho => by subst ho hl hg; rfl

end

theorem retireFailed_sole {d : Dev} {n : Nat} (hsole : d.soleExtents n ≠ []) :
    d.retireFailed ring idx n = d.completeDesc ring idx stDenied 9 (d.soleExtents n).length 0 :=
  if_pos (by simpa using hsole)

/-- The extents of the pool without their copies on a drive that has failed (R265). -/
def Dev.withoutCopies (d : Dev) (n : Nat) : Dev :=
  { d with pool := { d.pool with emt := d.pool.emt.map fun e => (e.1, if e.2.kind = 2 && nmem e.2.drives n then
      { e.2 with repl := false, drive := if e.2.drive = n then e.2.drive2 else e.2.drive, drive2 := 0 } else e.2) } }

theorem retireFailed_free {d : Dev} {n : Nat} (hsole : d.soleExtents n = []) :
    d.retireFailed ring idx n = ((d.withoutCopies n).driveAbsent n).completeDesc ring idx stDone 0 0 0 :=
  if_neg (by simp [hsole])

section
variable (he : e = if field b 13 1 = 1 ∨ field b 13 1 = 2 then s.dev.begun ring idx else (s.dev.begun ring idx).clamped 8 0)
include he

theorem drive_logClamped (n : Nat) : e.drive n = s.dev.drive n := by
  subst he
  split <;> rfl

variable (hfar : farReady s.dev ring idx 0x53 b false)
include hfar

theorem makes_driveLog_unknown (hnone : s.dev.drive (field b 12 1 % 32) = none) :
    Completes (.driveLog ring idx) s ring idx e stDenied 0x60 0 0 := by
  rw [← drive_logClamped he] at hnone
  refine makes_farReady _ rfl hfar ?_
  simp only [Bool.or_eq_true, decide_eq_true_eq, ← he, hnone]

theorem makes_driveLog {v : Drive} {f : Dev} (hv : s.dev.drive (field b 12 1 % 32) = some v)
    (h : (if v.state = 5 then e.completeDesc ring idx stDeviceError 1 0 0
      else e.nvmeIssue (field b 12 1 % 32) 4 noSkein (if field b 13 1 = 1 then 1 else 2) 0 (some (.desc ring idx))) = f) :
    Makes (.driveLog ring idx) s f := by
  rw [← drive_logClamped he] at hv
  refine makes_farReady _ rfl hfar ?_
  simp only [Bool.or_eq_true, decide_eq_true_eq, ← he, hv]
  exact h

end

section
variable (hfar : farReady s.dev ring idx 0x54 b false)
include hfar

theorem makes_farFlush_noRegion (hnone : s.dev.liveRegion (dHandle b) = none) :
    Completes (.farFlush ring idx) s ring idx (s.dev.begun ring idx) stDenied 0x0A 0 0 := by
  have hnone' : (s.dev.begun ring idx).liveRegion (dHandle b) = none := hnone
  refine makes_farReady _ rfl hfar ?_
  simp only [hnone']

theorem makes_farFlush {r : Region} {f : Dev} (hr : s.dev.liveRegion (dHandle b) = some r)
    (h : (if s.dev.holds (s.dev.ringOwner ring) (dHandle b) rightW = false then (s.dev.begun ring idx).completeDesc ring idx stDenied 0 0 0
      else if r.backed = false then (s.dev.begun ring idx).completeDesc ring idx stDenied 1 0 0
      else ((s.dev.begun ring idx).repAdminOp b (zeros 12 ++ natBytes 4 6) [] (s.dev.ringOwner ring) 0).flushRegion ring idx r) = f) :
    Makes (.farFlush ring idx) s f := by
  have hr' : (s.dev.begun ring idx).liveRegion (dHandle b) = some r := hr
  refine makes_farReady _ rfl hfar ?_
  simp only [hr', Bool.not_eq_true']
  exact h

end

end

/-! ## Those who may not ask -/

section
variable {s : State} {ring idx op : Nat} {b : List Byte} {i : Instr}

/-- The instructions of the far tier's descriptors, each with its opcode. -/
abbrev farRows (ring idx : Nat) : List (Instr × Nat) :=
  [(.driveList ring idx, 0x50), (.driveAdopt ring idx, 0x51), (.driveRetire ring idx, 0x52), (.driveLog ring idx, 0x53), (.farFlush ring idx, 0x54)]

/-- Each of them is performed behind the same gate, adoption and retirement behind the lease as well. -/
theorem farRows_gated (hrow : (i, op) ∈ farRows ring idx) (s : State) : ∃ act, exec i s =
    .next { s with dev := s.dev.farDesc ring idx op (op == 0x51 || op == 0x52) act } := by
  simp only [List.mem_cons, Prod.mk.injEq, List.not_mem_nil, or_false] at hrow
  rcases hrow with ⟨rfl, rfl⟩ | ⟨rfl, rfl⟩ | ⟨rfl, rfl⟩ | ⟨rfl, rfl⟩ | ⟨rfl, rfl⟩ <;> exact ⟨_, rfl⟩

variable (hrow : (i, op) ∈ farRows ring idx) (hready : s.dev.ready ring idx op b) (hadmits : admits s.dev ring false [7])
include hrow hready hadmits

theorem makes_farRow_client (hclient : nodePort (s.dev.ringOwner ring) = none) :
    Completes i s ring idx (s.dev.begun ring idx) stDenied 0x50 0 0 := by
  obtain ⟨act, harm⟩ := farRows_gated hrow s
  exact makes_farDesc act harm hready hadmits (if_pos (by rw [hclient, Option.isNone_none]))

theorem makes_farRow_unleased (hhost : (nodePort (s.dev.ringOwner ring)).isSome = true) (hop : op = 0x51 ∨ op = 0x52)
    (hlease : s.dev.hasLease (s.dev.ringOwner ring) = false) : Completes i s ring idx (s.dev.begun ring idx) stDenied 8 0 0 := by
  obtain ⟨act, harm⟩ := farRows_gated hrow s
  refine makes_farDesc act harm hready hadmits ((if_neg ?_).trans (if_pos ?_))
  · rw [Option.isNone_iff_eq_none]
    exact Option.isSome_iff_ne_none.1 hhost
  · rw [hlease, Bool.not_false, Bool.and_true, Bool.or_eq_true, beq_iff_eq, beq_iff_eq]
    exact hop

end

theorem drives : Says.Drives := by
  refine ⟨fun s p partner found l here d hserves hl hd hhere => ?_, fun d k v => ⟨driveGone_found, driveGone_adopted⟩, fun s ring idx b => ⟨?_, ?_, ?_, ?_, ?_, ?_, ?_,
    fun i op hrow hready hadmits => ⟨makes_farRow_client hrow hready hadmits, makes_farRow_unleased hrow hready hadmits⟩⟩⟩
  · subst hd hhere
    exact makes_presenceChange hserves hl
  · exact fun len e l hfar hlen he hl => makes_driveList hfar hlen he hl
  · exact fun hfar hfind => makes_driveAdopt_unseen hfar hfind
  · exact fun k v hfar hfind => ⟨fun step hrefused => makes_driveAdopt_refused hfar hfind hrefused,
      fun x e o hpasses hspace he ho => makes_driveAdopt hfar hfind hpasses hspace he ho⟩
  · exact fun hfar hnone => makes_driveRetire_unknown hfar hnone
  · refine fun v hfar hv => ⟨fun hstate hsole => makes_driveRetire_failed hfar hv hstate (retireFailed_sole hsole), fun hstate hsole => ?_,
      fun hfailed hactive => makes_driveRetire_inactive hfar hv hfailed hactive, fun e l o hactive he hl ho => ?_⟩
    · exact ⟨(s.dev.begun ring idx).withoutCopies (field b 12 1 % 32), rfl, makes_driveRetire_failed hfar hv hstate (retireFailed_free hsole)⟩
    · refine makes_driveRetire hfar hv ((if_neg (by omega)).trans (if_neg (not_not.2 hactive))) fun g l' o' hg hl' ho' => ?_
      subst ho hl he ho' hl' hg
      rfl
  · refine fun e hfar he => ⟨fun hnone => makes_driveLog_unknown he hfar hnone, fun v hv => ⟨fun hfailed => makes_driveLog he hfar hv (if_pos hfailed),
      fun hserves => makes_driveLog he hfar hv (if_neg hserves)⟩⟩
  · refine fun hfar => ⟨fun hnone => makes_farFlush_noRegion hfar hnone, fun r hr => ⟨fun hright => makes_farFlush hfar hr (if_pos hright),
      fun hright hbacked => makes_farFlush hfar hr ((if_neg (by simp [hright])).trans (if_pos hbacked)),
      fun hright hbacked => makes_farFlush hfar hr ((if_neg (by simp [hright])).trans (if_neg (by simp [hbacked])))⟩⟩

/-! ## Commands as they end -/

section
variable {s : State} {n : Nat} {c : NvmeCmd} (hc : tget s.dev.far.cmds n = some c) (hsent : c.sent = true)
include hc hsent

theorem makes_nvmeCompletion (ok : Bool) (page : List Byte) :
    Makes (.nvmeCompletion n ok page) s (if ok then s.dev.cmdDone n c page else s.dev.cmdFailed n c).mirResume := by
  refine makes_of_next rfl ?_
  simp only [hc, hsent, Bool.not_true, Bool.false_eq_true, if_false]

theorem makes_nvmeCommandTimeout : Makes (.nvmeCommandTimeout n) s ((s.dev.till c.deadline).cmdFailed n c).mirResume := by
  refine makes_of_next rfl ?_
  simp only [hc, hsent, Bool.not_true, Bool.false_eq_true, if_false]

end

section
variable {d e : Dev} {n : Nat} {c : NvmeCmd} {page : List Byte}
  (he : e = { d.cmdOver n with far := { (d.cmdOver n).far with
    drives := tmod (d.cmdOver n).far.drives c.drive fun v => { v with fails := 0 } } })
include he

theorem cmdDone_read (hkind : c.kind = 0) : d.cmdDone n c page = (e.skeinRead c).farGo := by
  subst he
  exact if_pos hkind

theorem cmdDone_write (hkind : c.kind = 1) : d.cmdDone n c page = (e.skeinWritten c).farGo := by
  subst he
  exact (if_neg (by omega)).trans (if_pos hkind)

theorem cmdDone_clear (hkind : c.kind = 3) (hskein : c.skein = noSkein) : d.cmdDone n c page = (e.clearSlot c.drive c.slot).farGo := by
  subst he
  exact (if_neg (by omega)).trans ((if_neg (by omega)).trans ((if_pos hkind).trans (congrArg Dev.farGo (if_pos hskein))))

theorem cmdDone_page {x : Caller} (hkind : c.kind = 4) (hcaller : c.caller = some x) : d.cmdDone n c page =
    (e.output x (dOutAddr (e.callerBytes x)) (slice page 0 512) stDone 0 0 512 (unit := 1)).farGo := by
  subst he
  refine (if_neg (by omega)).trans ((if_neg (by omega)).trans ((if_neg (by omega)).trans ((if_neg (by omega)).trans
    ((if_neg (by omega)).trans ((if_pos hkind).trans ?_)))))
  rw [hcaller]

end

theorem skeinRead_loads {d e : Dev} {c : NvmeCmd} {x : Skein} {v : Drive} (hx : tget d.far.cached c.skein = some x) (hv : d.drive c.drive = some v)
    (habsent : x.state = 0) (hwanted : x.cancelled = false) (hbacked : (d.emtOf (c.skein / 512)).kind = 2)
    (he : e = ({ d with far := { d.far with drives := tput d.far.drives c.drive { v with times := ((d.now - c.issued) :: v.times).take 64 } } } :
      Dev).loadSkein c.drive c.slot c.skein x.slot) :
    d.skeinRead c = ({ e with far := { e.far with cached := tput e.far.cached c.skein { x with ready := true } } } : Dev).installReady := by
  subst he
  have hkept : ∀ t, ¬(x.cancelled || decide ((({ d with far := { d.far with drives := t } } : Dev).emtOf (c.skein / 512)).kind ≠ 2)) = true := by
    intro t
    rw [hwanted, Bool.false_or, decide_eq_true_eq]
    exact not_not.2 hbacked
  simp only [Dev.skeinRead, hx, hv, if_neg (not_not.2 habsent)]
  exact if_neg (hkept _)

section
variable {d e : Dev} {n : Nat} {c : NvmeCmd} {v : Drive} (hv : (d.bump 0x380008 16).drive c.drive = some v)
  (he : e = { d.bump 0x380008 16 with far := { (d.bump 0x380008 16).far with
    drives := tput (d.bump 0x380008 16).far.drives c.drive { v with fails := v.fails + 1 } } })
include hv he

theorem cmdFailed_tooMany (hadopted : v.state = 3 ∨ v.state = 4) (hmany : (d.bump 0x380008 16).fld 0x380000 12 4 ≤ v.fails + 1) :
    d.cmdFailed n c = e.driveFailed c.drive := by
  subst he
  have hboth : ((decide (v.state = 3) || decide (v.state = 4)) && decide ((d.bump 0x380008 16).fld 0x380000 12 4 ≤ v.fails + 1)) = true := by
    simpa [hmany] using hadopted
  unfold Dev.cmdFailed
  simp only [hv]
  exact if_pos hboth

variable (hserves : (v.state ≠ 3 ∧ v.state ≠ 4) ∨ v.fails + 1 < (d.bump 0x380008 16).fld 0x380000 12 4)
include hserves

/-- A drive that has not failed too often does not fail: the command is over, and what it was decides what follows (R263, R264). -/
theorem cmdFailed_goesOn {f : Dev}
    (h : (if c.kind = 4 then ((e.cmdOver n).cmdLost c).farGo
      else if c.kind = 3 && ((e.cmdOver n).far.ops.find? fun o => o.drive == some c.drive && o.adopt).isSome && 0 < c.attempt then f
      else if c.kind = 0 || c.kind = 1 then
        if c.attempt % 2 = 0 then (e.cmdOver n).nvmeIssue c.drive c.kind c.skein c.slot (c.attempt + 1) else ((e.cmdOver n).cmdLost c).farGo
      else f) = f) (hkind : c.kind = 0 ∨ c.kind = 1 ∨ c.kind = 4) : d.cmdFailed n c = f := by
  subst he
  have hfew : ¬((decide (v.state = 3) || decide (v.state = 4)) && decide ((d.bump 0x380008 16).fld 0x380000 12 4 ≤ v.fails + 1)) = true := by
    rw [Bool.and_eq_true, Bool.or_eq_true, decide_eq_true_eq, decide_eq_true_eq, decide_eq_true_eq]
    omega
  unfold Dev.cmdFailed
  simp only [hv]
  refine (if_neg hfew).trans ?_
  by_cases h4 : c.kind = 4
  · exact (if_pos h4).trans ((if_pos h4).symm.trans h)
  · have hrw : c.kind = 0 ∨ c.kind = 1 := by omega
    have h3 : ∀ a b : Bool, ¬(decide (c.kind = 3) && a && b) = true := by
      intro a b
      rw [decide_eq_false (by omega : ¬c.kind = 3), Bool.false_and, Bool.false_and]
      decide
    have h01 : (decide (c.kind = 0) || decide (c.kind = 1)) = true := by simpa using hrw
    exact (if_neg h4).trans ((if_neg (h3 _ _)).trans ((if_pos h01).trans
      ((if_pos h01).symm.trans ((if_neg (h3 _ _)).symm.trans ((if_neg h4).symm.trans h)))))

theorem cmdFailed_again (hkind : c.kind = 0 ∨ c.kind = 1) (hfirst : c.attempt = 0) :
    d.cmdFailed n c = (e.cmdOver n).nvmeIssue c.drive c.kind c.skein c.slot 1 := by
  have h01 : (decide (c.kind = 0) || decide (c.kind = 1)) = true := by simpa using hkind
  have h3 : ∀ a b : Bool, ¬(decide (c.kind = 3) && a && b) = true := by
    intro a b
    rw [decide_eq_false (by omega : ¬c.kind = 3), Bool.false_and, Bool.false_and]
    decide
  refine cmdFailed_goesOn hv he hserves ((if_neg (by omega)).trans ((if_neg (h3 _ _)).trans ((if_pos h01).trans ?_))) (by omega)
  rw [hfirst]
  rfl

theorem cmdFailed_page {x : Caller} (hkind : c.kind = 4) (hcaller : c.caller = some x) :
    d.cmdFailed n c = ((e.cmdOver n).complete x stDeviceError 1 0 0).farGo := by
  have hlost : (e.cmdOver n).cmdLost c = (e.cmdOver n).complete x stDeviceError 1 0 0 := by
    refine (if_neg (by omega)).trans ((if_neg (by omega)).trans ((if_pos hkind).trans ?_))
    rw [hcaller]
  exact cmdFailed_goesOn hv he hserves ((if_pos hkind).trans (by rw [hlost])) (by omega)

end

section
variable {s : State} {k : Nat} {v : Drive} (hv : s.dev.drive k = some v) (hlow : 2 ≤ v.state) (hhigh : v.state ≤ 4)
include hv hlow hhigh

theorem makes_nvmeAsyncEvent {critical : Bool} {d e : Dev} (hd : d = (s.dev.nvmeIssue k 4 noSkein 1 0).nvmeIssue k 4 noSkein 2 0)
    (h : (if critical = true ∧ v.state ≠ 2 then (d.driveFailed k).mirResume else d) = e) : Makes (.nvmeAsyncEvent k critical) s e := by
  have hrange : ¬(decide (v.state < 2) || decide (4 < v.state)) = true := by
    rw [Bool.or_eq_true, decide_eq_true_eq, decide_eq_true_eq]
    omega
  have hsame : ((critical && (decide (v.state = 3) || decide (v.state = 4))) = true) = (critical = true ∧ v.state ≠ 2) := by
    rw [Bool.and_eq_true, Bool.or_eq_true, decide_eq_true_eq, decide_eq_true_eq]
    exact propext (and_congr_right fun _ => by omega)
  subst hd
  refine makes_of_next rfl ?_
  simp only [hv, if_neg hrange, hsame]
  exact h

end

theorem nvmeCommands : Says.NvmeCommands := by
  refine ⟨fun s n c page hc hsent => ⟨makes_nvmeCompletion hc hsent true page, makes_nvmeCompletion hc hsent false page,
      makes_nvmeCommandTimeout hc hsent⟩,
    fun d e n c page he => ⟨cmdDone_read he, cmdDone_write he, cmdDone_clear he, fun x => cmdDone_page he⟩,
    fun d e c x v hx hv habsent hwanted hbacked he => skeinRead_loads hx hv habsent hwanted hbacked he,
    fun d e n c v hv he => ⟨cmdFailed_tooMany hv he, fun hserves => ⟨cmdFailed_again hv he hserves, fun x => cmdFailed_page hv he hserves⟩⟩,
    fun s k critical v d hv hlow hhigh hd => ⟨fun hnot => makes_nvmeAsyncEvent hv hlow hhigh hd (if_neg ?_),
      fun hcritical hadopted => makes_nvmeAsyncEvent hv hlow hhigh hd (if_pos ⟨hcritical, hadopted⟩)⟩,
    fun d => ⟨fun hrole => if_neg ?_, fun hrole => if_pos (by simpa using hrole)⟩⟩
  · rintro ⟨hcritical, hadopted⟩
    rcases hnot with h | h
    · exact absurd (h.symm.trans hcritical) (by decide)
    · exact hadopted h
  · rw [Bool.or_eq_true, decide_eq_true_eq, decide_eq_true_eq]
    omega

/-- Settles O30: the descriptors of the far tier behind their one gate, and each NVMe command by its kind as it succeeds or fails. -/
theorem drivesAndCommands : Obligations.DrivesAndCommands := ⟨drives, nvmeCommands⟩

end Sys2Proof.Machine

/-! Jobs from their admission to their end (SPEC 08_jobs_segments.md, R200 to R211). -/

namespace Sys2Proof.Machine

/-! ## Admission -/

section
variable {s : State} {ring idx : Nat} {b : List Byte} {j0 : Job} (hj0 : j0 = jobOf (s.dev.ringOwner ring) ring idx b)
  (hready : s.dev.ready ring idx 0x20 b) (hadmits : admits s.dev ring true (if j0.stock then [4, 19] else [4])) (hclamps : jobClamps b = 0)
  (hnew : (tfind s.dev.jobs.jobs fun _ j => j.ring == ring && j.idx == idx) = none)
include hj0 hready hadmits hclamps hnew

theorem makes_jobRun_refused {r : Nat × Nat} (hrefused : s.dev.jobRefused j0 = some r) :
    Completes (.jobRun ring idx) s ring idx (s.dev.begun ring idx) r.1 r.2 0 0 := by
  subst hj0
  have hnew' : (tfind (s.dev.begun ring idx).jobs.jobs fun _ j => j.ring == ring && j.idx == idx) = none := hnew
  have hrefused' : (s.dev.begun ring idx).jobRefused (jobOf (s.dev.ringOwner ring) ring idx b) = some r := hrefused
  refine makes_of_next rfl ((withDesc_ready _ _ _ _ _ _ hready).trans ?_)
  simp only [hnew']
  refine (gated_admits _ _ _ _ _ _ (begun_admits _ _ _ _ _ hadmits)).trans ?_
  simp only [hclamps, List.range_zero, List.foldl_nil, begun_ringOwner, hrefused']

theorem makes_jobRun_admitted (hgood : s.dev.jobRefused j0 = none) (hfree : ∃ id, id < 65536 ∧ s.dev.job id = none) :
    ∃ id, id < 65536 ∧ s.dev.job id = none ∧ ∀ j : Job, j = { j0 with quota := s.dev.quotaOf j0.owner } →
      ∀ d e : Dev, d = ({ s.dev.begun ring idx with
        free := s.dev.free + 1, jobs := { s.dev.jobs with jobs := tput s.dev.jobs.jobs id j } } : Dev).setDone ring idx 1 [] →
      d.jobHeader b id j = e → Makes (.jobRun ring idx) s e := by
  subst hj0
  have hnew' : (tfind (s.dev.begun ring idx).jobs.jobs fun _ j => j.ring == ring && j.idx == idx) = none := hnew
  have hgood' : (s.dev.begun ring idx).jobRefused (jobOf (s.dev.ringOwner ring) ring idx b) = none := hgood
  obtain ⟨id, hid, hnone, hchoose⟩ := choose_finds (s.dev.begun ring idx) 65536 (fun i => ((s.dev.begun ring idx).job i).isNone)
    (by simpa using hfree)
  refine ⟨id, hid, by simpa using hnone, fun j hj d e hd he => ?_⟩
  subst hj hd
  refine makes_of_next rfl ((withDesc_ready _ _ _ _ _ _ hready).trans ?_)
  simp only [hnew']
  refine (gated_admits _ _ _ _ _ _ (begun_admits _ _ _ _ _ hadmits)).trans ?_
  simp only [hclamps, List.range_zero, List.foldl_nil, begun_ringOwner, hgood', hchoose, Option.getD_some]
  exact he

end

section
variable {d e : Dev} {b : List Byte} {id : Nat} {j : Job}

/-- What becomes of an admitted job whose header is read (R206). -/
theorem jobHeader_read {head : List Byte} (hread : d.imageRead j 256 = (.ok head, e)) :
    d.jobHeader b id j = if e.jobHead j head ≠ 0 then e.jobEnd id stDenied (0x100 + e.jobHead j head) (idResult id)
      else ({ e with jobs := { e.jobs with
          jobs := tput e.jobs.jobs id { j with contig := imgContig head }, queue := e.jobs.queue ++ [id] } } : Dev).repAdminOp
        b (natBytes 8 (idResult id) ++ zeros 4 ++ natBytes 4 5) [] j.owner 0 := by
  simp only [Dev.jobHeader, hread]

theorem jobHeader_refused {st det : Nat} (hread : d.imageRead j 256 = (.no st det, e)) :
    d.jobHeader b id j = e.jobEnd id st det (idResult id) := by
  simp only [Dev.jobHeader, hread]

theorem jobHeader_again {h : Nat} (hread : d.imageRead j 256 = (.again h, e)) : d.jobHeader b id j = e.unclaim j.ring j.idx := by
  simp only [Dev.jobHeader, hread]

end

theorem jobsAreAdmitted : Says.JobsAreAdmitted := by
  intro s ring idx b j0 j hready hadmits hclamps hnew
  refine ⟨fun r hrefused => makes_jobRun_refused rfl hready hadmits hclamps hnew hrefused, fun hgood hfree => ?_⟩
  obtain ⟨id, hid, hnone, hmakes⟩ := makes_jobRun_admitted rfl hready hadmits hclamps hnew hgood hfree
  exact ⟨id, hid, hnone, fun d hd => ⟨fun head d' hread hgoodHead => hmakes j rfl d _ hd ((jobHeader_read hread).trans (if_neg (not_not.2 hgoodHead))),
    fun head d' hread hbad => hmakes j rfl d _ hd ((jobHeader_read hread).trans (if_pos hbad)),
    fun st det d' hread => hmakes j rfl d _ hd (jobHeader_refused hread),
    fun h d' hread => hmakes j rfl d _ hd (jobHeader_again hread)⟩⟩

/-! ## Placement -/

section
variable {s : State} (hup : s.dev.resetting 8 = false)
include hup

theorem makes_jobPlace_none (hnone : s.dev.nextJob = none) : Makes .jobPlace s s.dev := by
  refine makes_of_next rfl ((if_neg (by simp [hup])).trans ?_)
  simp only [hnone]

theorem makes_jobPlace_waits {id : Nat} {j : Job} (hnext : s.dev.nextJob = some (id, j)) (hplace : s.dev.placeOn j = none) :
    Makes .jobPlace s s.dev := by
  refine makes_of_next rfl ((if_neg (by simp [hup])).trans ?_)
  simp only [hnext, hplace]

theorem makes_jobPlace {id : Nat} {j : Job} {mask : List Nat} {d : Dev} (hnext : s.dev.nextJob = some (id, j))
    (hplace : s.dev.placeOn j = some mask) (h : s.dev.jobLoad id { j with mask := mask } = d) : Makes .jobPlace s d := by
  refine makes_of_next rfl ((if_neg (by simp [hup])).trans ?_)
  simp only [hnext, hplace]
  exact h

end

section
variable {d d1 d2 : Dev} {id : Nat} {k : Job} {head g : List Byte} (hhead : d.imageRead k 256 = (.ok head, d1))
include hhead

theorem jobLoad_badHead (hbad : d1.jobHead k head ≠ 0) : d.jobLoad id k = d1.jobEnd id stDenied (0x100 + d1.jobHead k head) (idResult id) := by
  simp only [Dev.jobLoad, hhead, if_pos hbad]

variable (hgood : d1.jobHead k head = 0) (himage : d1.imageRead k (imgBytes head) = (.ok g, d2))
include hgood himage

theorem jobLoad_badImage {c : Nat} (hcheck : imageCheck g (k.supplied g) k.panels (d2.features k.owner) k.mask (d2.signatureOk k g) = c)
    (hbad : c ≠ 0) : d.jobLoad id k = d2.jobEnd id stDenied (0x100 + c) (idResult id) := by
  simp only [Dev.jobLoad, hhead, if_neg (not_not.2 hgood), himage, hcheck, if_pos hbad]

theorem jobLoad_starts {d3 d4 : Dev} {args : List Byte}
    (hcheck : imageCheck g (k.supplied g) k.panels (d2.features k.owner) k.mask (d2.signatureOk k g) = 0)
    (hsegs : d2.segsLost k = none) (hbound : d2.jobBound k g = (none, d3)) (hprivates : d3.privatesReady k = true)
    (hargs : d3.readRun (some k.owner) k.argAddr k.argLen = (.ok args, d4)) :
    d.jobLoad id k = (d4.jobArgs k args).2.jobStart id k g (d4.jobArgs k args).1 := by
  simp only [Dev.jobLoad, hhead, if_neg (not_not.2 hgood), himage, hcheck, ne_eq, not_true_eq_false, if_false, hsegs, hbound, hprivates,
    Bool.not_true, Bool.false_eq_true, hargs]

end

theorem jobsArePlaced : Says.JobsArePlaced := by
  refine fun s hup => ⟨makes_jobPlace_none hup, fun id j hnext => ⟨makes_jobPlace_waits hup hnext,
    fun mask k head g d1 d2 hplace hk hhead => ?_⟩⟩
  subst hk
  exact ⟨fun hbad => makes_jobPlace hup hnext hplace (jobLoad_badHead hhead hbad),
    fun hgood himage => ⟨fun c hcheck hbad => makes_jobPlace hup hnext hplace (jobLoad_badImage hhead hgood himage hcheck hbad),
      fun args d3 d4 hcheck hsegs hbound hprivates hargs =>
        makes_jobPlace hup hnext hplace (jobLoad_starts hhead hgood himage hcheck hsegs hbound hprivates hargs)⟩⟩

/-! ## The end of a job -/

theorem job_of_running {d : Dev} {id : Nat} {j : Job} (hjob : d.runningJob id = some j) : d.job id = some j :=
  (Option.filter_eq_some_iff.1 hjob).1

theorem jobEnd_of_job {d : Dev} {id : Nat} {j : Job} (st det result : Nat) (hjob : d.job id = some j) :
    d.jobEnd id st det result = (d.endJob id j).completeDesc j.ring j.idx st det result (d.jobLines j) := by
  simp only [Dev.jobEnd, hjob]

section
variable {s : State} {id : Nat} {j : Job} (hjob : s.dev.runningJob id = some j)
include hjob

theorem makes_jobNaturalCompletion {d : Dev} (hdone : s.dev.jobDone j = true)
    (h : ((if j.stock then stockRecord j.stockId else none).elim (s.dev.jobEnd id stDone 0 (s.dev.jobResult id))
      fun rec => s.dev.stockEnd id j rec) = d) : Makes (.jobNaturalCompletion id) s d := by
  refine makes_of_next rfl ?_
  simp only [hjob, hdone, Bool.not_true, Bool.false_eq_true, if_false]
  rw [← h]
  cases (if j.stock then stockRecord j.stockId else none) <;> rfl

theorem makes_jobNaturalCompletion_goesOn (hrunning : s.dev.jobDone j = false) : Makes (.jobNaturalCompletion id) s s.dev := by
  refine makes_of_next rfl ?_
  simp only [hjob, hrunning, Bool.not_false, if_true]

theorem makes_jobNaturalCompletion_plain (hdone : s.dev.jobDone j = true) (hplain : j.stock = false ∨ stockRecord j.stockId = none) :
    Makes (.jobNaturalCompletion id) s ((s.dev.endJob id j).completeDesc j.ring j.idx stDone 0
      (id * 2 ^ 48 + j.maskBits * 2 ^ 32 + min 0xFFFFFFFF ((j.lastWrite - j.startAt) / 800)) (s.dev.jobLines j)) := by
  have hnone : (if j.stock then stockRecord j.stockId else none) = none := by
    rcases hplain with h | h <;> simp [h]
  have hresult : s.dev.jobResult id = id * 2 ^ 48 + j.maskBits * 2 ^ 32 + min 0xFFFFFFFF ((j.lastWrite - j.startAt) / 800) := by
    simp only [Dev.jobResult, job_of_running hjob, idResult]
  refine makes_jobNaturalCompletion hjob hdone ?_
  rw [hnone, Option.elim_none, hresult, jobEnd_of_job _ _ _ (job_of_running hjob)]

theorem makes_jobNaturalCompletion_stock {rec : List Byte} {d : Dev} (hdone : s.dev.jobDone j = true) (hstock : j.stock = true)
    (hrec : stockRecord j.stockId = some rec) (h : s.dev.stockEnd id j rec = d) : Makes (.jobNaturalCompletion id) s d := by
  refine makes_jobNaturalCompletion hjob hdone ?_
  rw [if_pos hstock, hrec, Option.elim_some, h]

theorem makes_jobLimitTimeout (hlimit : j.limitMs ≠ 0) : Makes (.jobLimitTimeout id) s
    (((s.dev.till (j.startAt + msTicks j.limitMs)).endJob id j).completeDesc j.ring j.idx stTimeout 0 (id * 2 ^ 48) (s.dev.jobLines j)) := by
  have hjob' : (s.dev.till (j.startAt + msTicks j.limitMs)).job id = some j := job_of_running hjob
  refine makes_of_next rfl ?_
  simp only [hjob, if_neg hlimit]
  exact jobEnd_of_job _ _ _ hjob'

theorem makes_jobLimitTimeout_none (hlimit : j.limitMs = 0) : Makes (.jobLimitTimeout id) s s.dev := by
  refine makes_of_next rfl ?_
  simp only [hjob, if_pos hlimit]

section
variable (hrunning : s.dev.jobDone j = false) (hquiet : (j.ports.any s.dev.portBusy) = false) {e : Dev}
  (he : e = s.dev.till (j.progressAt + msTicks (s.dev.fld 0x200000 0 8)))
include hrunning hquiet he

theorem makes_jobStall_blocked {k : Nat} (hfind : j.stitches.find? (fun k => (s.dev.stitch k).run == .blocked) = some k) :
    Makes (.jobStall id) s ((e.logKnit id j stDeviceError (j.rel k + (s.dev.stitch k).pc * 2 ^ 13) 0).jobEnd id stDeviceError 0x300
      ((s.dev.stitch k).pc * 65536 + j.rel k)) := by
  subst he
  have hfind' : j.stitches.find? (fun k =>
      ((s.dev.till (j.progressAt + msTicks (s.dev.fld 0x200000 0 8))).stitch k).run == .blocked) = some k := hfind
  refine makes_of_next rfl ?_
  simp only [hjob, hrunning, hquiet, Bool.or_self, Bool.false_eq_true, if_false, hfind']
  rfl

theorem makes_jobStall_unblocked (hfind : j.stitches.find? (fun k => (s.dev.stitch k).run == .blocked) = none) :
    Makes (.jobStall id) s ((e.draw.2.logKnit id j stDeviceError (e.draw.1 % 2 ^ 23) 0).jobEnd id stDeviceError 0x300
      (e.draw.1 / 8192 % 1024 * 65536 + e.draw.1 % 8192)) := by
  subst he
  have hfind' : j.stitches.find? (fun k =>
      ((s.dev.till (j.progressAt + msTicks (s.dev.fld 0x200000 0 8))).stitch k).run == .blocked) = none := hfind
  refine makes_of_next rfl ?_
  simp only [hjob, hrunning, hquiet, Bool.or_self, Bool.false_eq_true, if_false, hfind']

end

end

theorem jobsEnd : Says.JobsEnd := by
  refine fun s id j hjob => ⟨fun hdone => ⟨makes_jobNaturalCompletion_plain hjob hdone, fun rec x d' hstock hrec hrun =>
      makes_jobNaturalCompletion_stock hjob hdone hstock hrec ?_⟩, makes_jobNaturalCompletion_goesOn hjob,
    fun hlimit d hd => hd ▸ makes_jobLimitTimeout hjob hlimit, makes_jobLimitTimeout_none hjob,
    fun e hrunning hquiet he => ⟨fun k hfind => makes_jobStall_blocked hjob hrunning hquiet he hfind, makes_jobStall_unblocked hjob hrunning hquiet he⟩⟩
  simp only [Dev.stockEnd, hrun]

/-! ## The panels of an ended job -/

theorem stopPorts_keeps_panels (d : Dev) (p : Nat) : (d.stopPorts p).knit.panels = d.knit.panels :=
  forEach_keeps (fun d => d.knit.panels)
    (fun s (d : Dev) => d.setSport (16 * s + p) fun q => { q with list := [], reads := [], writes := [], level := 0 }) (fun _ _ => rfl) _ _

theorem stopPorts_keeps_jobs (d : Dev) (p : Nat) : (d.stopPorts p).jobs = d.jobs :=
  forEach_keeps Dev.jobs
    (fun s (d : Dev) => d.setSport (16 * s + p) fun q => { q with list := [], reads := [], writes := [], level := 0 }) (fun _ _ => rfl) _ _

theorem drainPanel_panel (d : Dev) (p q : Nat) : (d.drainPanel p).panel q =
    if q = p then { d.panel p with state := psDraining, owner := 0, job := none } else d.panel q := by
  have hkept : ∀ r, ((d.haltPanel p).stopPorts p).panel r = d.panel r := fun r =>
    congrArg (fun t => tgetD t r ({} : Panel)) (stopPorts_keeps_panels (d.haltPanel p) p)
  rw [Dev.drainPanel, Dev.panel_setPanel, hkept, hkept]

theorem drainPanel_keeps_jobs (d : Dev) (p : Nat) : (d.drainPanel p).jobs = d.jobs := stopPorts_keeps_jobs (d.haltPanel p) p

/-- A panel is draining, and no job has it. -/
def Dev.letGo (d : Dev) (p : Nat) : Prop := (d.panel p).state = psDraining ∧ (d.panel p).job = none

theorem letGo_drainPanel_same (d : Dev) (p : Nat) : (d.drainPanel p).letGo p := by
  unfold Dev.letGo
  rw [drainPanel_panel, if_pos rfl]
  exact ⟨rfl, rfl⟩

theorem letGo_drainPanel (d : Dev) (p q : Nat) (h : d.letGo p) : (d.drainPanel q).letGo p := by
  by_cases hpq : p = q
  · exact hpq ▸ letGo_drainPanel_same d p
  · unfold Dev.letGo
    rw [drainPanel_panel, if_neg hpq]
    exact h

theorem releaseFrame_keeps {β : Type} (g : Dev → β) (h : ∀ (d : Dev) x, g { d with pool := x } = g d) (d : Dev) (f : Nat) :
    g (d.releaseFrame f) = g d := by
  unfold Dev.releaseFrame
  dsimp only
  split <;> exact h ..

/-- The device of a job that ends, its panels draining and its frames given back. -/
def Dev.jobReleased (d : Dev) (j : Job) : Dev := forEach j.frames (fun e d => d.releaseFrame e.2) (forEach j.mask (fun p d => d.drainPanel p) d)

theorem jobReleased_keeps {β : Type} (g : Dev → β) (hpool : ∀ (d : Dev) x, g { d with pool := x } = g d) (d : Dev) (j : Job) :
    g (d.jobReleased j) = g (forEach j.mask (fun p d => d.drainPanel p) d) :=
  forEach_keeps g (fun (e : Nat × Nat) (d : Dev) => d.releaseFrame e.2) (fun e d => releaseFrame_keeps g hpool d e.2) _ _

/-- What ending a job leaves of the knit array and of the job table. -/
theorem endJob_eq (d : Dev) (id : Nat) (j : Job) : ∃ c, d.endJob id j = { d.jobReleased j with
    coh := c, jobs := { (d.jobReleased j).jobs with jobs := tdel (d.jobReleased j).jobs.jobs id, queue := ndel (d.jobReleased j).jobs.queue id } } := by
  unfold Dev.endJob
  dsimp only
  split <;> exact ⟨_, rfl⟩

theorem jobReleased_keeps_jobs (d : Dev) (j : Job) : (d.jobReleased j).jobs = d.jobs :=
  (jobReleased_keeps Dev.jobs (fun _ _ => rfl) d j).trans
    (forEach_keeps Dev.jobs (fun p (d : Dev) => d.drainPanel p) (fun p d => drainPanel_keeps_jobs d p) _ _)

theorem endedJobsLetTheirPanelsGo : Says.EndedJobsLetTheirPanelsGo := by
  intro d id j
  obtain ⟨c, hend⟩ := endJob_eq d id j
  refine ⟨?_, ?_, fun p hp => ?_⟩
  · rw [hend]
    simp only [jobReleased_keeps_jobs]
  · rw [hend]
    exact nmem_ndel_same _ _
  · have hdrains : (forEach j.mask (fun p d => d.drainPanel p) d).letGo p :=
      forEach_reaches (fun p (d : Dev) => d.letGo p) _ (fun p d => letGo_drainPanel_same d p) (fun p q d => letGo_drainPanel d p q) _ d p hp
    have hpanel : (d.endJob id j).panel p = (forEach j.mask (fun p d => d.drainPanel p) d).panel p := by
      rw [hend]
      exact jobReleased_keeps (fun d => d.panel p) (fun _ _ => rfl) d j
    rw [hpanel]
    exact hdrains

/-- Settles O12: a job by what its request, its header and its image come to, and by how it ends, which lets its panels go. -/
theorem jobsFromAdmissionToEnd : Obligations.JobsFromAdmissionToEnd :=
  ⟨jobsAreAdmitted, jobsArePlaced, jobsEnd, endedJobsLetTheirPanelsGo⟩

end Sys2Proof.Machine

/-! Access checks (SPEC 02_pool_model.md, R37 to R40, Table 2.6): what the check makes of an address above the last extent. -/

namespace Sys2Proof.Machine

/-- The reset device with one grant: node 2 may read, write and more on region 0. -/
def grantedDev : Dev :=
  { State.reset.dev with pool := { State.reset.dev.pool with grants := [(2 * 65536, { rights := 31, gen := 0, born := 0 })] } }

/-- Of an address in the device window node 1 is asked for a grant on handle 0x10000, and node 2's on handle 0 stands under that number; the
address is in no region. -/
theorem check_window : tget grantedDev.pool.emt (0xFFFFF0000000 / 2 ^ 25) = none ∧
    grantedDev.check 1 0xFFFFF0000000 rightR false = .ok (0xFFFF * 2 ^ 25) := by decide

/-- Refutes O22: AccessIsChecked speaks of every address, and for one above the last extent (R32), whose entry is of KIND 5 and names handle
0x10000, the check finds the next node's grant on handle 0 and admits the access. -/
theorem not_accessRegionsGrants : ¬ Obligations.AccessRegionsGrants := by
  intro h
  obtain ⟨hchecked, -, -⟩ := h
  obtain ⟨hnowhere, hadmitted⟩ := check_window
  obtain ⟨hdenied, -⟩ := hchecked grantedDev 1 0xFFFFF0000000 rightR false { kind := 0, handle := 0, index := 0 }
  exact absurd (hadmitted.symm.trans (hdenied hnowhere)) (by decide)

end Sys2Proof.Machine

/-! The mirror pair (SPEC 14_mirror_pairing.md, R306 to R320, R454): how it forms, what a unit that takes a copy discards, and what the witness
makes of its units. -/

namespace Sys2Proof.Machine

/-! ## What a unit discards before it takes the other's copy (R454)

Whatever went before, `dropRegions` ends the regions the device holds by then, in the order of their table, so each is the first of those that
are left. -/

theorem tdel_first {α : Type} (k : Nat) (v : α) (t : Tbl α) : tdel ((k, v) :: t) k = t := by simp [tdel]

theorem tget_first {α : Type} (k : Nat) (v : α) (t : Tbl α) : tget ((k, v) :: t) k = some v := by simp [tget]

theorem regions_besideFar : BesideFar fun d => d.pool.regions := by constructor <;> intros <;> rfl

theorem releaseFrame_regions (d : Dev) (f : Nat) : (d.releaseFrame f).pool.regions = d.pool.regions := by
  unfold Dev.releaseFrame
  dsimp only
  split <;> rfl

theorem bindExtent_regions (d : Dev) (ext : Nat) : (d.bindExtent ext).pool.regions = d.pool.regions := by
  unfold Dev.bindExtent
  split
  · rfl
  · split
    · exact releaseFrame_regions ..
    · split
      · exact (forEach_keeps (·.pool.regions) _ (fun n d => regions_besideFar.nvmeIssue ..) _ _).trans
          (forEach_keeps (·.pool.regions) _ (fun sk d => regions_besideFar.dropSkein ..) _ _)
      · rfl

theorem endRegion_regions (d : Dev) (h : Nat) (r : Region) (hregion : d.regionOf h = some r) :
    (d.endRegion h).pool.regions = tdel d.pool.regions h := by
  unfold Dev.endRegion
  rw [hregion]
  exact forEach_keeps (fun d => d.pool.regions) _ (fun e d => bindExtent_regions d e) ..

theorem endEveryRegion_regions (t : Tbl Region) : ∀ d : Dev, d.pool.regions = t →
    (forEach (t.map (·.1)) (fun h d => d.endRegion h) d).pool.regions = [] := by
  induction t with
  | nil => exact fun _ hregions => hregions
  | cons e t ih =>
    obtain ⟨h, r⟩ := e
    intro d hregions
    have hregion : d.regionOf h = some r := by rw [Dev.regionOf, hregions, tget_first]
    exact ih _ (by rw [endRegion_regions d h r hregion, hregions, tdel_first])

theorem dropRegions_regions (d : Dev) : d.dropRegions.pool.regions = [] := endEveryRegion_regions _ _ rfl

theorem mirDiscard_regions (d : Dev) : d.mirDiscard.pool.regions = [] := dropRegions_regions _

theorem mirIdsOk_iff (d : Dev) : d.mirIdsOk = true ↔
    0xF00 ≤ d.fld 0x680004 0 12 ∧ d.fld 0x680004 0 12 ≤ 0xFEF ∧ 1 ≤ d.partner ∧ d.partner ≤ 0xEFF ∧ d.partner ≠ d.ownNode := by
  simp [Dev.mirIdsOk, and_assoc]

/-! ## Two units meet on their MIRROR links (R306, R307, R319) -/

section Meeting

variable (s : State) (held pref : Bool) (hmirror : s.dev.fld 0x680000 31 1 = 1) (hsealed : s.dev.sec.state ≠ 0) (hdecom : s.dev.sec.state ≠ 5)
  (hready : s.dev.boot.ready = true)

include hmirror hsealed hdecom hready

theorem mirrorPair_badIds (hrole : s.dev.mir.role = 0) (hids : s.dev.mirIdsOk = false) :
    Makes (.mirrorPair held pref) s (withMir s.dev fun k => { k with cause := 6 }) :=
  makes_of_next rfl (by simp [hmirror, hsealed, hdecom, hready, hrole, hids, withMir])

theorem mirrorPair_noLink (hids : s.dev.mir.role ≠ 0 ∨ s.dev.mirIdsOk = true) (hlinks : s.dev.mirrorLinks = []) :
    Makes (.mirrorPair held pref) s s.dev := by
  refine makes_of_next rfl ?_
  rcases hids with hrole | hids
  · simp [hmirror, hsealed, hdecom, hready, hrole, hlinks]
  · simp [hmirror, hsealed, hdecom, hready, hids, hlinks]

theorem mirrorPair_bothHold (hlinks : s.dev.mirrorLinks ≠ []) (hrole : s.dev.mir.role = 0) (hids : s.dev.mirIdsOk = true)
    (hmine : s.dev.pool.regions ≠ []) (hheld : held = true) :
    Makes (.mirrorPair held pref) s (withMir s.dev fun k => { k with cause := 7, carrying := [] }) :=
  makes_of_next rfl (by simp [hmirror, hsealed, hdecom, hready, hrole, hids, hlinks, hmine, hheld, withMir])

variable (d : Dev) (hlinks : s.dev.mirrorLinks ≠ []) (hd : d = withMir s.dev (fun k => { k with carrying := s.dev.mirrorLinks.take 2 }))

include hlinks hd

theorem mirrorPair_holds (hrole : s.dev.mir.role = 0) (hids : s.dev.mirIdsOk = true) (hmine : s.dev.pool.regions ≠ []) (hheld : held = false) :
    Makes (.mirrorPair held pref) s ((d.mirFresh 1 3 0).copyStream) :=
  makes_of_next rfl (by simp [hmirror, hsealed, hdecom, hready, hrole, hids, hlinks, hmine, hheld, hd, withMir])

theorem mirrorPair_otherHolds (hrole : s.dev.mir.role = 0) (hids : s.dev.mirIdsOk = true) (hmine : s.dev.pool.regions = [])
    (hheld : held = true) : Makes (.mirrorPair held pref) s d.copyEnter :=
  makes_of_next rfl (by simp [hmirror, hsealed, hdecom, hready, hrole, hids, hlinks, hmine, hheld, hd, withMir])

/-- The role of an empty unit whose partner is empty: MODE decides, and among equals the lower node ID (R306). -/
def Dev.emptyRole (d : Dev) (pref : Bool) : Nat :=
  if (if Config.mirrorPref = pref then d.ownNode < d.partner else Config.mirrorPref) then 1 else 2

theorem mirrorPair_bothEmpty (hrole : s.dev.mir.role = 0) (hids : s.dev.mirIdsOk = true) (hmine : s.dev.pool.regions = [])
    (hheld : held = false) : Makes (.mirrorPair held pref) s (d.mirFresh (s.dev.emptyRole pref) 0 0) :=
  makes_of_next rfl (by simp [hmirror, hsealed, hdecom, hready, hrole, hids, hlinks, hmine, hheld, hd, withMir, Dev.emptyRole]; rfl)

theorem mirrorPair_waits (hrole : s.dev.mir.role = 3) (hphase : s.dev.mir.phase = 4) : Makes (.mirrorPair held pref) s d.copyEnter :=
  makes_of_next rfl (by simp [hmirror, hsealed, hdecom, hready, hrole, hphase, hlinks, hd, withMir])

theorem mirrorPair_alone (hrole : s.dev.mir.role = 1) (hphase : s.dev.mir.phase = 3) (hcopying : s.dev.mir.copying = false) :
    Makes (.mirrorPair held pref) s (withMir d fun k => { k with stepDue := true }).copyStream :=
  makes_of_next rfl (by simp [hmirror, hsealed, hdecom, hready, hrole, hphase, hcopying, hlinks, hd, withMir])

end Meeting

/-- R306: MODE decides between two empty units that differ in it. -/
theorem emptyRole_other (d : Dev) (pref : Bool) (hpref : pref = !Config.mirrorPref) : d.emptyRole pref = if Config.mirrorPref then 1 else 2 := by
  have hdiffers : Config.mirrorPref ≠ pref := by simp [hpref]
  simp [Dev.emptyRole, hdiffers]

theorem emptyRole_lower (d : Dev) (pref : Bool) (hpref : pref = Config.mirrorPref) (hnode : d.ownNode < d.partner) : d.emptyRole pref = 1 := by
  simp [Dev.emptyRole, hpref, hnode]

theorem emptyRole_higher (d : Dev) (pref : Bool) (hpref : pref = Config.mirrorPref) (hnode : d.partner ≤ d.ownNode) : d.emptyRole pref = 2 := by
  simp [Dev.emptyRole, hpref, Nat.not_lt.2 hnode]

/-! ## The copy ends (R319) -/

theorem resyncCopyDone_taken (s : State) (t : Nat) (hrole : s.dev.mir.role = 3) (hphase : s.dev.mir.phase = 5) :
    ∃ d : Dev, Makes (.resyncCopyDone t) s d ∧ d.mir.role = 2 ∧ d.mir.phase = 0 ∧ d.mir.term = t % 2 ^ 32 ∧ d.mir.extentsLeft = 0 ∧
      d.pool = s.dev.pool ∧ d.mem = s.dev.mem :=
  ⟨_, makes_of_next rfl (if_pos (by simp [hrole, hphase])), rfl, rfl, rfl, rfl, rfl, rfl⟩

theorem resyncCopyDone_given (s : State) (t : Nat) (hrole : s.dev.mir.role = 1) (hcopying : s.dev.mir.copying = true) :
    ∃ d : Dev, Makes (.resyncCopyDone t) s d ∧ d.mir.role = 1 ∧ d.mir.phase = 0 ∧ d.mir.term = s.dev.mir.term ∧ d.mir.copying = false ∧
      d.pool = s.dev.pool ∧ d.mem = s.dev.mem :=
  ⟨_, makes_of_next rfl ((if_neg (by simp [hrole])).trans (if_pos (by simp [hrole, hcopying]))), hrole, rfl, rfl, rfl, rfl, rfl⟩

theorem pairingFollowsTheRules : Says.Pairing := by
  refine ⟨fun s held pref d hmirror hsealed hdecom hready => ⟨?badIds, ?noLink, fun hlinks hd => ⟨fun hrole hids => ⟨?bothHold, ?holds, ?otherHolds,
    fun hmine hheld => ?bothEmpty⟩, ?waits, ?alone⟩⟩, mirIdsOk_iff, fun d => ⟨rfl, fun _ => mirDiscard_regions d, rfl, rfl, rfl⟩,
    fun s t => ⟨resyncCopyDone_taken s t, resyncCopyDone_given s t⟩⟩
  case badIds => exact mirrorPair_badIds s held pref hmirror hsealed hdecom hready
  case noLink => exact mirrorPair_noLink s held pref hmirror hsealed hdecom hready
  case bothHold => exact mirrorPair_bothHold s held pref hmirror hsealed hdecom hready hlinks hrole hids
  case holds => exact mirrorPair_holds s held pref hmirror hsealed hdecom hready d hlinks hd hrole hids
  case otherHolds => exact mirrorPair_otherHolds s held pref hmirror hsealed hdecom hready d hlinks hd hrole hids
  case bothEmpty =>
    have hempty := mirrorPair_bothEmpty s held pref hmirror hsealed hdecom hready d hlinks hd hrole hids hmine hheld
    refine ⟨fun hpref hnode => ?_, fun hpref hnode => ?_, fun hpref => ?_⟩
    · rwa [emptyRole_lower _ _ hpref hnode] at hempty
    · rwa [emptyRole_higher _ _ hpref hnode] at hempty
    · rwa [emptyRole_other _ _ hpref] at hempty
  case waits => exact mirrorPair_waits s held pref hmirror hsealed hdecom hready d hlinks hd
  case alone => exact mirrorPair_alone s held pref hmirror hsealed hdecom hready d hlinks hd

/-! ## The witness (R317, R318, R320) -/

/-- R317: the witness writes from the lease holder's port, in an awake unit. -/
theorem leasedWrite_holder (d : Dev) (p : Nat) (f : Dev → Dev) (hp : p < 2) (hup : d.portUp p = true) (hawake : d.pm.state ≠ 3)
    (hready : d.boot.ready = true) (hlease : d.hasLease (portNode p) = true) :
    d.leasedWrite (portNode p) false f = f (d.wakeLatch 1) := by
  simp [Dev.leasedWrite, portNode_ne_zero, portServes_portNode d p hp, hup, hawake, hready, hlease]

theorem witness_accepted (d : Dev) (p t : Nat) (f : Dev → Dev) (hp : p < 2) (hup : d.portUp p = true) (hawake : d.pm.state ≠ 3)
    (hready : d.boot.ready = true) (hlease : d.hasLease (portNode p) = true) (hfeature : (d.wakeLatch 1).hasFeature (portNode p) 8 = true)
    (hterm : t = (d.wakeLatch 1).mir.term) : d.witness p t f = f (d.wakeLatch 1) := by
  rw [Dev.witness, leasedWrite_holder d p _ hp hup hawake hready hlease, if_pos (by simp [hfeature, hterm])]

theorem witness_ignored (d : Dev) (p t : Nat) (f : Dev → Dev) (hp : p < 2) (hup : d.portUp p = true) (hawake : d.pm.state ≠ 3)
    (hready : d.boot.ready = true) (hlease : d.hasLease (portNode p) = true)
    (hnot : (d.wakeLatch 1).hasFeature (portNode p) 8 = false ∨ t ≠ (d.wakeLatch 1).mir.term) : d.witness p t f = d.wakeLatch 1 := by
  rw [Dev.witness, leasedWrite_holder d p _ hp hup hawake hready hlease, if_neg]
  rcases hnot with hfeature | hterm
  · simp [hfeature]
  · simp [hterm]

theorem witnessPromote_suspect (d : Dev) (hrole : d.mir.role = 2) (hphase : d.mir.phase = 2 ∨ d.mir.handover = true) :
    d.witnessPromote = d.promote := if_pos (by simpa [hrole] using hphase)

theorem witnessPromote_idle (d : Dev) (hidle : d.mir.role ≠ 2 ∨ (d.mir.phase ≠ 2 ∧ d.mir.handover = false)) : d.witnessPromote = d := by
  refine if_neg ?_
  rcases hidle with hrole | ⟨hphase, hhandover⟩
  · simp [hrole]
  · simp [hphase, hhandover]

theorem witnessSolo_suspect (d : Dev) (hrole : d.mir.role = 1) (hphase : d.mir.phase = 1) : d.witnessSolo = d.goAlone :=
  if_pos (by simp [hrole, hphase])

theorem witnessSolo_idle (d : Dev) (hidle : d.mir.role ≠ 1 ∨ d.mir.phase ≠ 1) : d.witnessSolo = d := if_neg (by simpa [imp_iff_not_or] using hidle)

theorem witnessDemote_idle (d : Dev) (hrole : d.mir.role ≠ 1) : d.witnessDemote = d := if_pos hrole

theorem witnessDemote_owes (d : Dev) (hrole : d.mir.role = 1) (hunacked : d.mir.unacked ≠ []) :
    d.witnessDemote = withMir d fun k => { k with role := 3, phase := 4, copying := false, handoverDue := true } := by
  simp [Dev.witnessDemote, hrole, hunacked, withMir]

theorem witnessDemote_even (d : Dev) (hrole : d.mir.role = 1) (hunacked : d.mir.unacked = []) :
    d.witnessDemote = (withMir d fun k => { k with role := 3, phase := 4, copying := false, handoverDue := true }).sendHandover := by
  simp [Dev.witnessDemote, hrole, hunacked, withMir]

/-- R317, R320: a standby with nothing ahead of its turn is Active ALONE with the next TERM, its memory as it was. -/
theorem promote_alone (d : Dev) (hahead : d.mir.ahead = []) (hstarts : d.mir.starts = []) :
    d.promote.mir.role = 1 ∧ d.promote.mir.phase = 3 ∧ d.promote.mir.term = (d.mir.term + 1) % 2 ^ 32 ∧ d.promote.mem = d.mem := by
  have hnone : d.applyAhead true 0 (d.mir.ahead.length + 1) = (0, d) := applyAhead_none d true _ (by rw [hahead]; rfl)
  unfold Dev.promote
  simp [hnone, Dev.failStarts, hstarts, forEach, Dev.eccDisarm, Dev.setReg]

theorem witnessCommandsFollowTheRules : Says.WitnessCommands := by
  refine ⟨?_, fun d => ⟨witnessPromote_suspect d, witnessPromote_idle d, witnessSolo_suspect d, witnessSolo_idle d, witnessDemote_idle d,
    ?_⟩, promote_alone, fun _ => rfl⟩
  · rintro s p t d hp hup rfl hawake hready hlease
    refine ⟨fun hfeature hterm => ?_, fun hnot => ?_⟩
    · have hdone := fun f => witness_accepted s.dev p t f hp hup hawake hready hlease hfeature hterm
      exact ⟨makes_of_next rfl (hdone _), makes_of_next rfl (hdone _), makes_of_next rfl (hdone _)⟩
    · have hidle := fun f => witness_ignored s.dev p t f hp hup hawake hready hlease hnot
      exact ⟨makes_of_next rfl (hidle _), makes_of_next rfl (hidle _), makes_of_next rfl (hidle _)⟩
  · rintro e hrole rfl
    exact ⟨witnessDemote_owes d hrole, witnessDemote_even d hrole⟩

/-- Settles O38: the meeting of two units by their roles, a discarded pool ended region by region, and each witness command by the role and
phase it finds. -/
theorem pairingAndWitness : Obligations.PairingAndWitness := ⟨pairingFollowsTheRules, witnessCommandsFollowTheRules⟩

end Sys2Proof.Machine
